-- ==== Sys2Proof/Word.lean ====
section
/-! DEFINITION. The byte and the binary32 word. -/

namespace Sys2Proof

/-- One byte of a packet, record or store structure. -/
abbrev Byte := BitVec 8

/-- An IEEE 754 binary32 value as its bits. -/
abbrev F32 := BitVec 32

end Sys2Proof
end

