-- ==== Sys2Proof/Syntax.lean ====
section
/-! DEFINITION. The commands of the block: one constructor of `Instr` for each row of spec/opcode_table.json.

Every command carries first the timebase instant `t` (ticks of 62.5 ns, R8, R33) at which it happens
(log 1). A row that is a Penip opcode carries the host port whose next request P0 takes: the request's
fields are the bytes that WRITE_PACKET or UART_REQUEST put in that port's receive buffer (log 2). -/

namespace Sys2Proof

/-- The two host ports (R35). -/
inductive Port where
  | h0
  | h1
  deriving DecidableEq, Repr, Inhabited

/-- What the two benches and the over-range comparator of a converter give at one sample instant (R74, R79). -/
structure BenchSample where
  /-- high-bench code, signed, where the slice is not saturated -/
  high : BitVec 12
  /-- low-bench code, signed, where the slice is not saturated -/
  low : BitVec 12
  /-- high-bench saturation bit -/
  highSat : Bool
  /-- low-bench saturation bit -/
  lowSat : Bool
  /-- the over-range comparator finds the input beyond its threshold -/
  beyond : Bool
  /-- the input is negative (sign of R82) -/
  negative : Bool
  deriving DecidableEq, Repr, Inhabited

/-- A side-slice result, bench self-test or reference code is 12 bits (Table 3.6). -/
abbrev SideCode := Nat

/-- A native frame as the receiver samples it (R280, R286). -/
structure LineFrame where
  /-- tick at which its first slot starts -/
  start : Nat
  /-- the 200 samples at 400 kS/s of each of its slots, from the first preamble slot on -/
  slots : List (List Int)
  deriving DecidableEq, Repr, Inhabited

/-- Where an uncorrectable memory error falls (R336). -/
inductive MemWhere where
  | contextSection (slot : Nat)
  | checkpoint (pair : Nat)
  | processorOther (pair : Nat)
  | filterState (unit : Nat)
  | modemSlot (handle : Nat)
  | gatehouseTotals
  deriving DecidableEq, Repr, Inhabited

/-- What a store page held that on-die ECC cannot correct (R385): a journal or event-log record by its sequence, a copy of a context record by
its serial, a capture record by its ring and position. -/
inductive LostPage where
  | journal (sequence : Nat)
  | context (serial : Nat)
  | log (sequence : Nat)
  | capture (ring position : Nat)
  deriving DecidableEq, Repr, Inhabited

/-- The consumer of a trigger (R89): a side slice, by die index 1-5, or a capture ring 0-7. -/
inductive Consumer where
  | sideSlice (die : Nat)
  | ring (r : Nat)
  deriving DecidableEq, Repr, Inhabited

/-- The condition by which an acquisition die fails (R349). -/
inductive DieFault where
  | linkLost
  | internalFault
  | vanaLow
  | noBlocks
  deriving DecidableEq, Repr, Inhabited

/-- The case by which the vault enters gatehouse mode (R359, byte 3 of Table 11.8). -/
inductive GatehouseCause where
  | restarts
  | restartNotComplete
  | linkLost
  deriving DecidableEq, Repr, Inhabited

/-- One command of the block: a row of spec/opcode_table.json. -/
inductive Instr where
  /-- WRITE_PACKET (R37). -/
  | writePacket (t : Nat) (p : Port) (code : Nat) (bytes : List Byte)
  /-- READ_PACKET (R38). -/
  | readPacket (t : Nat) (p : Port) (clocked : Nat)
  /-- READ_STATUS (R38). -/
  | readStatus (t : Nat) (p : Port) (clocked : Nat)
  /-- SYNC_BYTE (R42). -/
  | syncByte (t : Nat) (value : Nat) (baud : Nat)
  /-- UART_REQUEST (R44). -/
  | uartRequest (t : Nat) (bytes : List Byte)
  /-- UART_IDLE_GAP (R44). -/
  | uartIdleGap (t : Nat) (gap : Nat)
  /-- BREAK (R43). -/
  | breakLine (t : Nat) (bits : Nat)
  /-- ELECTION_WINDOW_END (R61). -/
  | electionWindowEnd (t : Nat)
  /-- OWNERSHIP_SILENCE (R63). -/
  | ownershipSilence (t : Nat)
  /-- HANDOVER_TIMEOUT (R67). -/
  | handoverTimeout (t : Nat)
  /-- UNDEFINED_OPCODE (R478). -/
  | undefinedOpcode (t : Nat) (p : Port)
  /-- PING (R480). -/
  | ping (t : Nat) (p : Port)
  /-- GET_INFO (R482). -/
  | getInfo (t : Nat) (p : Port)
  /-- GET_STATUS (R481). -/
  | getStatus (t : Nat) (p : Port)
  /-- RESET (R443). -/
  | reset (t : Nat) (p : Port)
  /-- RESET_INTO_RECOVERY (R443). -/
  | resetIntoRecovery (t : Nat) (p : Port)
  /-- SET_TIME (R508). -/
  | setTime (t : Nat) (p : Port)
  /-- GET_TIME (R480). -/
  | getTime (t : Nat) (p : Port)
  /-- SET_CLOCK_POLICY (R237). -/
  | setClockPolicy (t : Nat) (p : Port)
  /-- FENCE (R376). -/
  | fence (t : Nat) (p : Port)
  /-- GATEHOUSE_READ (R363). -/
  | gatehouseRead (t : Nat) (p : Port)
  /-- OPEN (R57). -/
  | openSession (t : Nat) (p : Port)
  /-- CLOSE (R57). -/
  | closeSession (t : Nat) (p : Port)
  /-- CLAIM (R60). -/
  | claim (t : Nat) (p : Port)
  /-- YIELD (R65). -/
  | yield (t : Nat) (p : Port)
  /-- ACCEPT (R66). -/
  | accept (t : Nat) (p : Port)
  /-- KEEPALIVE (R63). -/
  | keepalive (t : Nat) (p : Port)
  /-- WHO_OWNS (R480). -/
  | whoOwns (t : Nat) (p : Port)
  /-- CH_CONFIG (R100). -/
  | chConfig (t : Nat) (p : Port)
  /-- CH_QUERY (R101). -/
  | chQuery (t : Nat) (p : Port)
  /-- TRIG_CONFIG (R91). -/
  | trigConfig (t : Nat) (p : Port)
  /-- INJECT (R85). -/
  | inject (t : Nat) (p : Port)
  /-- WINDOW_SET (R94). -/
  | windowSet (t : Nat) (p : Port)
  /-- SYNC (R128). -/
  | sync (t : Nat) (p : Port)
  /-- CAPTURE_ARM (R136). -/
  | captureArm (t : Nat) (p : Port)
  /-- CAPTURE_STOP (R136). -/
  | captureStop (t : Nat) (p : Port)
  /-- BANK_LOAD (R114). -/
  | bankLoad (t : Nat) (p : Port)
  /-- BANK_SWAP (R115). -/
  | bankSwap (t : Nat) (p : Port)
  /-- DETECTOR_SET (R130). -/
  | detectorSet (t : Nat) (p : Port)
  /-- RESAMPLER_SET (R120). -/
  | resamplerSet (t : Nat) (p : Port)
  /-- RESAMPLER_SET_DELAY (R126). -/
  | resamplerSetDelay (t : Nat) (p : Port)
  /-- STREAM_READ (R134). -/
  | streamRead (t : Nat) (p : Port)
  /-- CAL_SWEEP (R144). -/
  | calSweep (t : Nat) (p : Port)
  /-- CAL_STATUS (R163). -/
  | calStatus (t : Nat) (p : Port)
  /-- CAL_IMAGE_READ (R167). -/
  | calImageRead (t : Nat) (p : Port)
  /-- CAL_IMAGE_WRITE (R168). -/
  | calImageWrite (t : Nat) (p : Port)
  /-- CAL_STORE (R170). -/
  | calStore (t : Nat) (p : Port)
  /-- CAL_RESTORE (R172). -/
  | calRestore (t : Nat) (p : Port)
  /-- CAL_LIMITS_READ (R487). -/
  | calLimitsRead (t : Nat) (p : Port)
  /-- CAL_LIMITS_WRITE (R164). -/
  | calLimitsWrite (t : Nat) (p : Port)
  /-- MEAS_CONFIG (R177). -/
  | measConfig (t : Nat) (p : Port)
  /-- MEAS_READ (R213). -/
  | measRead (t : Nat) (p : Port)
  /-- PQ_EVENT_CONFIG (R201). -/
  | pqEventConfig (t : Nat) (p : Port)
  /-- HARMONIC_READ (R213). -/
  | harmonicRead (t : Nat) (p : Port)
  /-- FLICKER_READ (R199). -/
  | flickerRead (t : Nat) (p : Port)
  /-- CTX_CREATE (R217). -/
  | ctxCreate (t : Nat) (p : Port)
  /-- CTX_DELETE (R219). -/
  | ctxDelete (t : Nat) (p : Port)
  /-- CTX_READ (R220). -/
  | ctxRead (t : Nat) (p : Port)
  /-- CTX_TARIFF_TABLE (R228). -/
  | ctxTariffTable (t : Nat) (p : Port)
  /-- CTX_DEMAND_CONFIG (R229). -/
  | ctxDemandConfig (t : Nat) (p : Port)
  /-- CTX_SNAPSHOT_READ (R235). -/
  | ctxSnapshotRead (t : Nat) (p : Port)
  /-- CTX_PARK (R253). -/
  | ctxPark (t : Nat) (p : Port)
  /-- CTX_UNPARK (R254). -/
  | ctxUnpark (t : Nat) (p : Port)
  /-- CTX_SHADOW_FEED (R251). -/
  | ctxShadowFeed (t : Nat) (p : Port)
  /-- BALANCE_CONFIG_PARAMETERS (R273). -/
  | balanceConfigParameters (t : Nat) (p : Port)
  /-- BALANCE_CONFIG_ADD (R273). -/
  | balanceConfigAdd (t : Nat) (p : Port)
  /-- BALANCE_CONFIG_REMOVE (R273). -/
  | balanceConfigRemove (t : Nat) (p : Port)
  /-- BALANCE_CONFIG_DISSOLVE (R493). -/
  | balanceConfigDissolve (t : Nat) (p : Port)
  /-- BALANCE_READ_RESULTS (R275). -/
  | balanceReadResults (t : Nat) (p : Port)
  /-- BALANCE_READ_MEMBERS (R493). -/
  | balanceReadMembers (t : Nat) (p : Port)
  /-- PREPAY_CONFIG (R255). -/
  | prepayConfig (t : Nat) (p : Port)
  /-- CREDIT_ADD (R258). -/
  | creditAdd (t : Nat) (p : Port)
  /-- EMERGENCY_CREDIT (R260). -/
  | emergencyCredit (t : Nat) (p : Port)
  /-- FRIENDLY_SET (R262). -/
  | friendlySet (t : Nat) (p : Port)
  /-- RELAY_CONTROL_QUERY (R263). -/
  | relayControlQuery (t : Nat) (p : Port)
  /-- RELAY_CONTROL_OPEN (R263). -/
  | relayControlOpen (t : Nat) (p : Port)
  /-- RELAY_CONTROL_CLOSE (R263). -/
  | relayControlClose (t : Nat) (p : Port)
  /-- RELAY_CONTROL_ARM (R263). -/
  | relayControlArm (t : Nat) (p : Port)
  /-- RELAY_CONTROL_POLARITY (R263). -/
  | relayControlPolarity (t : Nat) (p : Port)
  /-- TAMPER_CONFIG_CONTEXT (R268). -/
  | tamperConfigContext (t : Nat) (p : Port)
  /-- TAMPER_CONFIG_LEVELS (R268). -/
  | tamperConfigLevels (t : Nat) (p : Port)
  /-- TAMPER_READ (R270). -/
  | tamperRead (t : Nat) (p : Port)
  /-- LINE_CONFIG (R277). -/
  | lineConfig (t : Nat) (p : Port)
  /-- TONEMAP_READ (R296). -/
  | tonemapRead (t : Nat) (p : Port)
  /-- TONEMAP_PIN (R296). -/
  | tonemapPin (t : Nat) (p : Port)
  /-- TONEMAP_UNPIN (R296). -/
  | tonemapUnpin (t : Nat) (p : Port)
  /-- NODE_ADMIT_ADMIT (R308). -/
  | nodeAdmitAdmit (t : Nat) (p : Port)
  /-- NODE_ADMIT_REMOVE (R308). -/
  | nodeAdmitRemove (t : Nat) (p : Port)
  /-- ROUTE_READ (R323). -/
  | routeRead (t : Nat) (p : Port)
  /-- POLL_LIST_LOAD (R325). -/
  | pollListLoad (t : Nat) (p : Port)
  /-- POLL_START (R326). -/
  | pollStart (t : Nat) (p : Port)
  /-- POLL_STOP (R326). -/
  | pollStop (t : Nat) (p : Port)
  /-- LINE_SEND (R331). -/
  | lineSend (t : Nat) (p : Port)
  /-- LINE_SEND_SFSK (R303). -/
  | lineSendSfsk (t : Nat) (p : Port)
  /-- LINE_STATS_NEIGHBOUR (R306). -/
  | lineStatsNeighbour (t : Nat) (p : Port)
  /-- LINE_STATS_COUNTERS (R496). -/
  | lineStatsCounters (t : Nat) (p : Port)
  /-- LINE_STATS_SFSK_FRAMES (R304). -/
  | lineStatsSfskFrames (t : Nat) (p : Port)
  /-- LINE_STATS_RESPONSE (R331). -/
  | lineStatsResponse (t : Nat) (p : Port)
  /-- PRIVILEGE_SET (R298). -/
  | privilegeSet (t : Nat) (p : Port)
  /-- PRIVILEGE_CLEAR (R298). -/
  | privilegeClear (t : Nat) (p : Port)
  /-- EVENT_READ (R375). -/
  | eventRead (t : Nat) (p : Port)
  /-- EVENT_READ_FLUSH (R379). -/
  | eventReadFlush (t : Nat) (p : Port)
  /-- EVENT_MASK (R374). -/
  | eventMask (t : Nat) (p : Port)
  /-- WATERMARK_SET (R380). -/
  | watermarkSet (t : Nat) (p : Port)
  /-- STORE_INFO (R499). -/
  | storeInfo (t : Nat) (p : Port)
  /-- CAPTURE_READ (R396). -/
  | captureRead (t : Nat) (p : Port)
  /-- MARK_SET (R396). -/
  | markSet (t : Nat) (p : Port)
  /-- MARK_CLEAR (R396). -/
  | markClear (t : Nat) (p : Port)
  /-- LOG_READ (R393). -/
  | logRead (t : Nat) (p : Port)
  /-- STORE_FORMAT (R386). -/
  | storeFormat (t : Nat) (p : Port)
  /-- ATTEST_QUOTE (R421). -/
  | attestQuote (t : Nat) (p : Port)
  /-- ATTEST_FETCH (R421). -/
  | attestFetch (t : Nat) (p : Port)
  /-- ATTEST_PUBLIC_KEY (R421). -/
  | attestPublicKey (t : Nat) (p : Port)
  /-- ATTEST_CERTIFICATE (R421). -/
  | attestCertificate (t : Nat) (p : Port)
  /-- FW_BEGIN (R417). -/
  | fwBegin (t : Nat) (p : Port)
  /-- FW_DATA (R418). -/
  | fwData (t : Nat) (p : Port)
  /-- FW_END (R419). -/
  | fwEnd (t : Nat) (p : Port)
  /-- FW_END_RETRY (R419). -/
  | fwEndRetry (t : Nat) (p : Port)
  /-- LIFECYCLE_ADVANCE (R408). -/
  | lifecycleAdvance (t : Nat) (p : Port)
  /-- KEY_PROVISION_TRANSPORT_KEY (R420). -/
  | keyProvisionTransportKey (t : Nat) (p : Port)
  /-- KEY_PROVISION_NETWORK_KEY (R420). -/
  | keyProvisionNetworkKey (t : Nat) (p : Port)
  /-- KEY_PROVISION_CERTIFICATE (R420). -/
  | keyProvisionCertificate (t : Nat) (p : Port)
  /-- HEALTH_READ (R354). -/
  | healthRead (t : Nat) (p : Port)
  /-- CHECKER_CONFIG (R356). -/
  | checkerConfig (t : Nat) (p : Port)
  /-- CHECKER_CONFIG_SKIP_MASK (R356). -/
  | checkerConfigSkipMask (t : Nat) (p : Port)
  /-- REPAIR_LOG (R355). -/
  | repairLog (t : Nat) (p : Port)
  /-- FORCE_SUBSTITUTE_RELEASE (R357). -/
  | forceSubstituteRelease (t : Nat) (p : Port)
  /-- FORCE_SUBSTITUTE_CHANNEL (R357). -/
  | forceSubstituteChannel (t : Nat) (p : Port)
  /-- FORCE_SUBSTITUTE_DIE (R357). -/
  | forceSubstituteDie (t : Nat) (p : Port)
  /-- SWEEP_TURN (R145). -/
  | sweepTurn (t : Nat) (reference : SideCode) (temperature : SideCode)
  /-- CORRELATION_PHASE_END (R147). -/
  | correlationPhaseEnd (t : Nat)
  /-- SWEEP_CAPTURE_HALF (R147). -/
  | sweepCaptureHalf (t : Nat)
  /-- SWEEP_CAPTURE_END (R147). -/
  | sweepCaptureEnd (t : Nat)
  /-- INTERRUPTION_END (R147). -/
  | interruptionEnd (t : Nat)
  /-- SWEEP_RESULT (R159). -/
  | sweepResult (t : Nat)
  /-- RAMP_STEP (R160). -/
  | rampStep (t : Nat)
  /-- NEW_SWEEP_RECOMMENDED (R155). -/
  | newSweepRecommended (t : Nat) (channel : Nat)
  /-- CAL_STORE_COMPLETE (R170). -/
  | calStoreComplete (t : Nat)
  /-- CAL_RESTORE_COMPLETE (R172). -/
  | calRestoreComplete (t : Nat)
  /-- CTX_PARK_COMPLETE (R253). -/
  | ctxParkComplete (t : Nat) (serial : Nat)
  /-- STORE_FORMAT_COMPLETE (R386). -/
  | storeFormatComplete (t : Nat)
  /-- FW_BEGIN_COMPLETE (R417). -/
  | fwBeginComplete (t : Nat)
  /-- FW_END_COMPLETE (R419). -/
  | fwEndComplete (t : Nat)
  /-- LIFECYCLE_TRANSITION (R409). -/
  | lifecycleTransition (t : Nat)
  /-- SIGNATURE_COMPLETE (R404). -/
  | signatureComplete (t : Nat)
  /-- RAW_SAMPLE (R75). -/
  | rawSample (t : Nat) (unit : Nat) (sample : BenchSample)
  /-- WINDOW_REARM (R97). -/
  | windowRearm (t : Nat) (channel : Nat) (slow : Bool)
  /-- WIDEBAND_SAMPLE (R108). -/
  | widebandSample (t : Nat) (unit : Nat)
  /-- NARROWBAND_SAMPLE (R112). -/
  | narrowbandSample (t : Nat) (unit : Nat) (crossing : Option Nat)
  /-- TRACKER_HOLDOVER (R123). -/
  | trackerHoldover (t : Nat)
  /-- SYNCHRONOUS_CYCLE (R122). -/
  | synchronousCycle (t : Nat) (next512 : Nat)
  /-- FADE_END (R117). -/
  | fadeEnd (t : Nat) (channel : Nat)
  /-- PEAK_WINDOW_END (R131). -/
  | peakWindowEnd (t : Nat) (channel : Nat)
  /-- SIDE_SLICE_CONVERSION (R84). -/
  | sideSliceConversion (t : Nat) (die : Nat) (code : SideCode)
  /-- TRIGGER_TIMER_FIRING (R91). -/
  | triggerTimerFiring (t : Nat) (timer : Nat)
  /-- PWMIN_EDGE (R92). -/
  | pwminEdge (t : Nat) (pin : Nat) (rising : Bool) (quarter : Nat)
  /-- TRIGGER_ACTION (R90). -/
  | triggerAction (t : Nat) (consumer : Consumer)
  /-- POST_TRIGGER_END (R138). -/
  | postTriggerEnd (t : Nat) (ring : Nat)
  /-- DRAIN_END (R138). -/
  | drainEnd (t : Nat) (ring : Nat)
  /-- CAPTURE_RECORD_COMPLETE (R395). -/
  | captureRecordComplete (t : Nat) (ring : Nat)
  /-- BASIC_INTERVAL_END (R183). -/
  | basicIntervalEnd (t : Nat)
  /-- AGGREGATE_150_180_CYCLE (R181). -/
  | aggregate150180 (t : Nat)
  /-- TEN_MINUTE_PERIOD_END (R180). -/
  | tenMinutePeriodEnd (t : Nat)
  /-- TWO_HOUR_WINDOW_END (R182). -/
  | twoHourWindowEnd (t : Nat)
  /-- TEN_SECOND_FREQUENCY (R189). -/
  | tenSecondFrequency (t : Nat)
  /-- SUPRAHARMONIC_BLOCK_END (R195). -/
  | supraharmonicBlockEnd (t : Nat)
  /-- PINST_SECOND (R198). -/
  | pinstSecond (t : Nat)
  /-- TICK_CLOSE (R211). -/
  | tickClose (t : Nat)
  /-- TICK_FOLD (R222). -/
  | tickFold (t : Nat)
  /-- DEMAND_INTERVAL_END (R230). -/
  | demandIntervalEnd (t : Nat)
  /-- LOAD_PROFILE_ENTRY (R232). -/
  | loadProfileEntry (t : Nat)
  /-- TARIFF_CHANGE (R225). -/
  | tariffChange (t : Nat)
  /-- BILLING_BOUNDARY (R234). -/
  | billingBoundary (t : Nat)
  /-- STANDING_CHARGE (R257). -/
  | standingCharge (t : Nat)
  /-- CHECKPOINT (R244). -/
  | checkpoint (t : Nat)
  /-- TARIFF_PIN_CODE (R226). -/
  | tariffPinCode (t : Nat) (code : Nat)
  /-- CREDIT_BTN_PRESS (R261). -/
  | creditBtnPress (t : Nat) (high : Nat) (low : Nat)
  /-- FRIENDLY_TIME_CHANGE (R262). -/
  | friendlyTimeChange (t : Nat)
  /-- TAMPER_SWITCH (R268). -/
  | tamperSwitch (t : Nat) (input : Nat) (level : Bool)
  /-- GROUP_INTERVAL_END (R274). -/
  | groupIntervalEnd (t : Nat) (group : Nat)
  /-- GROUP_INTERVAL_FINAL (R275). -/
  | groupIntervalFinal (t : Nat) (group : Nat)
  /-- POWER_WARNING (R427). -/
  | powerWarning (t : Nat)
  /-- COMMIT_END (R436). -/
  | commitEnd (t : Nat)
  /-- RIDE_THROUGH (R435). -/
  | rideThrough (t : Nat) (lowest : F32)
  /-- POWER_ON_RESET (R440). -/
  | powerOnReset (t : Nat) (batteryLost : Bool)
  /-- START_UP (R437). -/
  | startUp (t : Nat) (h1mode : Bool) (bootsel : Bool) (vioH : Nat) (vioS : Nat)
  /-- READY (R438). -/
  | ready (t : Nat)
  /-- CONTEXT_RESTORE (R246). -/
  | contextRestore (t : Nat)
  /-- RESET_N (R441). -/
  | resetN (t : Nat) (lowNs : Nat)
  /-- WATCHDOG_EXPIRY (R442). -/
  | watchdogExpiry (t : Nat)
  /-- VCORE_FAULT (R428). -/
  | vcoreFault (t : Nat)
  /-- VANA_SUPPLY_FAULT (R429). -/
  | vanaSupplyFault (t : Nat) (dies : List Nat) (volts : F32)
  /-- VANA_RECOVERY (R429). -/
  | vanaRecovery (t : Nat) (volts : F32)
  /-- VIO_S_FAULT (R430). -/
  | vioSFault (t : Nat) (volts : F32)
  /-- VIO_S_RECOVERY (R430). -/
  | vioSRecovery (t : Nat) (volts : F32)
  /-- VBAT_LOW (R431). -/
  | vbatLow (t : Nat) (volts : F32)
  /-- VBAT_LOW_CLEAR (R431). -/
  | vbatLowClear (t : Nat) (volts : F32)
  /-- REFERENCE_LOSS (R454). -/
  | referenceLoss (t : Nat)
  /-- MODEM_CRYSTAL_LOSS (R454). -/
  | modemCrystalLoss (t : Nat)
  /-- RTC_CRYSTAL_STOP (R454). -/
  | rtcCrystalStop (t : Nat)
  /-- PPS_EDGE (R448). -/
  | ppsEdge (t : Nat) (quarter : Nat)
  /-- PPS_UNLOCK (R448). -/
  | ppsUnlock (t : Nat)
  /-- RATE_ESTIMATE_EXPIRY (R449). -/
  | rateEstimateExpiry (t : Nat)
  /-- RTC_WRITE (R453). -/
  | rtcWrite (t : Nat)
  /-- SYNC_EDGE (R447). -/
  | syncEdge (t : Nat) (widthNs : Nat)
  /-- TRIAL_CONFIRMATION (R415). -/
  | trialConfirmation (t : Nat)
  /-- DEBUG_AUTHENTICATION (R422). -/
  | debugAuthentication (t : Nat) (signature : List Byte)
  /-- VARFIN_FRAME (R22). -/
  | varfinFrame (t : Nat) (link : Nat) (lane : Nat) (seq : Nat) (crcOk : Bool)
  /-- VARFIN_RESEND_TIMEOUT (R22). -/
  | varfinResendTimeout (t : Nat) (link : Nat)
  /-- LANE_LOSS (R23). -/
  | laneLoss (t : Nat) (die : Nat) (lane : Nat)
  /-- LANE_RETRAIN (R24). -/
  | laneRetrain (t : Nat) (die : Nat) (lane : Nat)
  /-- LANE_RETURN (R24). -/
  | laneReturn (t : Nat) (die : Nat) (lane : Nat)
  /-- TIMING_MESSAGE (R32). -/
  | timingMessage (t : Nat) (modemCount : Nat)
  /-- SCRUB (R335). -/
  | scrub (t : Nat) (die : Nat) (region : Nat) (corrected : Nat)
  /-- UNCORRECTABLE_ERROR (R336). -/
  | uncorrectableError (t : Nat) (place : MemWhere)
  /-- LOCKSTEP_MISMATCH (R337). -/
  | lockstepMismatch (t : Nat) (pair : Nat)
  /-- PROCESSOR_CHECKPOINT (R337). -/
  | processorCheckpoint (t : Nat)
  /-- DSP_FAULT (R338). -/
  | dspFault (t : Nat)
  /-- BRIDGE_HANDOVER (R341). -/
  | bridgeHandover (t : Nat) (channel : Nat)
  /-- BRIDGE_HANDBACK (R341). -/
  | bridgeHandback (t : Nat) (channel : Nat)
  /-- CHECKER_DWELL_END (R347). -/
  | checkerDwellEnd (t : Nat)
  /-- CONFIRMING_DWELL_END (R348). -/
  | confirmingDwellEnd (t : Nat) (lanesAgree : Bool)
  /-- DIE_FAILURE (R349). -/
  | dieFailure (t : Nat) (die : Nat) (cause : DieFault)
  /-- SUBSTITUTION_COMPLETE (R350). -/
  | substitutionComplete (t : Nat)
  /-- DIE_RETURN_TRY (R353). -/
  | dieReturnTry (t : Nat) (die : Nat) (selfTest : Bool)
  /-- DIE_RETURN (R353). -/
  | dieReturn (t : Nat) (die : Nat)
  /-- GATEHOUSE_ENTRY (R359). -/
  | gatehouseEntry (t : Nat) (cause : GatehouseCause)
  /-- TALLY_TICK (R361). -/
  | tallyTick (t : Nat)
  /-- ANCHOR_PREDICTION (R282). -/
  | anchorPrediction (t : Nat)
  /-- ANCHOR (R283). -/
  | anchor (t : Nat) (positive : Bool) (line : List Int)
  /-- FREE_RUN_TIMEOUT (R285). -/
  | freeRunTimeout (t : Nat)
  /-- ANCHOR_RESUME (R285). -/
  | anchorResume (t : Nat)
  /-- FRAME_TRANSMIT (R286). -/
  | frameTransmit (t : Nat)
  /-- FRAME_RECEIVED (R290). -/
  | frameReceived (t : Nat) (frame : LineFrame)
  /-- MAP_FRAME_SEND (R294). -/
  | mapFrameSend (t : Nat)
  /-- MAP_FRAME_RECEIVED (R294). -/
  | mapFrameReceived (t : Nat) (frame : LineFrame)
  /-- DRIVER_PROTECTION (R302). -/
  | driverProtection (t : Nat)
  /-- DRIVER_PROTECTION_CLEAR (R302). -/
  | driverProtectionClear (t : Nat)
  /-- ERASURE_RATE_WINDOW (R305). -/
  | erasureRateWindow (t : Nat)
  /-- SFSK_TRANSMIT (R303). -/
  | sfskTransmit (t : Nat)
  /-- SFSK_FRAME_RECEIVED (R304). -/
  | sfskFrameReceived (t : Nat) (bits : List (List Int))
  /-- POLL_ENTRY_DUE (R327). -/
  | pollEntryDue (t : Nat) (index : Nat)
  /-- TRANSACTION_START (R327). -/
  | transactionStart (t : Nat)
  /-- TRANSACTION_DEADLINE (R329). -/
  | transactionDeadline (t : Nat) (id : Nat)
  /-- INTERVAL_DATA_RESPONSE (R330). -/
  | intervalDataResponse (t : Nat)
  /-- ROUTE_ERROR (R329). -/
  | routeError (t : Nat)
  /-- NEIGHBOUR_REPORT (R318). -/
  | neighbourReport (t : Nat)
  /-- HOST_RESPONSE (R331). -/
  | hostResponse (t : Nat)
  /-- DISCOVERY_START (R322). -/
  | discoveryStart (t : Nat)
  /-- DISCOVERY_TIMEOUT (R322). -/
  | discoveryTimeout (t : Nat)
  /-- ROUTE_PASS (R321). -/
  | routePass (t : Nat)
  /-- LINK_SILENCE (R316). -/
  | linkSilence (t : Nat) (handle : Nat)
  /-- FENCE_MARKER (R376). -/
  | fenceMarker (t : Nat) (session : Nat)
  /-- LOG_CHECKPOINT (R392). -/
  | logCheckpoint (t : Nat)
  /-- BLOCK_RETIRE (R385): `lost` names what the block's pages held that on-die ECC cannot correct. -/
  | blockRetire (t : Nat) (device : Nat) (lost : List LostPage)
  /-- UART_REPLY_SENT (R45). -/
  | uartReplySent (t : Nat)
  /-- FRAME_SENT (R331). -/
  | frameSent (t : Nat)
  /-- DELIMITER_DETECTED (R302). -/
  | delimiterDetected (t : Nat)
  /-- RIDE_THROUGH_CHECKPOINT_END (R435). -/
  | rideThroughCheckpointEnd (t : Nat) (belowWarning : Bool)
  /-- RTC_OSCILLATOR_RESTART (R453). -/
  | rtcOscillatorRestart (t : Nat)
  deriving DecidableEq, Repr

end Sys2Proof
end

