-- ==== Sys2Proof/Machine/Bytes.lean ====
section
/-! DEFINITION. Byte-order and bit-field helpers of packets, records and store structures (R4, R5, R6). -/

namespace Sys2Proof.Machine


/-- The value of a little-endian field (R4). -/
def leNat : List Byte → Nat
  | [] => 0
  | b :: bs => b.toNat + 256 * leNat bs

/-- `n` as a little-endian field of `k` bytes (R4); higher bits are dropped. -/
def le : Nat → Nat → List Byte
  | 0, _ => []
  | k + 1, n => BitVec.ofNat 8 n :: le k (n / 256)

/-- A signed integer as a two's complement field of `k` bytes (R4). -/
def leInt (k : Nat) (i : Int) : List Byte :=
  le k (i % (2 ^ (8 * k) : Nat)).toNat

/-- The two's complement reading of an unsigned field of `k` bytes (R4). -/
def toInt (k : Nat) (n : Nat) : Int :=
  if n < 2 ^ (8 * k - 1) then n else (n : Int) - (2 ^ (8 * k) : Nat)

/-- `k` reserved bytes, written as zero (R6). -/
def zeros (k : Nat) : List Byte := List.replicate k 0

/-- The field of `k` bytes at `off` (R5); bytes past the end read as zero. -/
def field (bs : List Byte) (off k : Nat) : Nat := leNat ((bs.drop off).take k)

/-- The signed field of `k` bytes at `off`. -/
def fieldInt (bs : List Byte) (off k : Nat) : Int := toInt k (field bs off k)

/-- The byte at `off`, as a number. -/
def byteAt (bs : List Byte) (off : Nat) : Nat := (bs.getD off 0).toNat

/-- Bit `k` of a number. -/
def bit (n k : Nat) : Bool := n / 2 ^ k % 2 == 1

/-- One bit as a number. -/
def ofBool (b : Bool) : Nat := if b then 1 else 0

/-- The bytes cut to, or padded with zeros to, length `k`. -/
def fit (k : Nat) (bs : List Byte) : List Byte := bs.take k ++ zeros (k - bs.length)

/-- A saturating count of `k` bits (R306, Table 3.9). -/
def sat (k n : Nat) : Nat := min n (2 ^ k - 1)

/-- A byte list of small numbers. -/
def octets (l : List Nat) : List Byte := (l.map (le 1)).flatten

end Sys2Proof.Machine
end

