-- ==== Sys2Proof/Machine/Crc.lean ====
section
/-! DEFINITION. The two checksums: CRC-32C of packets, frames and store structures (R46), CRC-16 of frame headers (R287). -/

namespace Sys2Proof.Machine

/-- One bit of the reflected CRC-32C (R46). -/
def crcBit (c : Nat) : Nat := if c % 2 = 1 then (c / 2) ^^^ 0x82F63B78 else c / 2

/-- Eight bits of the reflected CRC-32C. -/
def crcByte (c : Nat) (b : Byte) : Nat :=
  crcBit (crcBit (crcBit (crcBit (crcBit (crcBit (crcBit (crcBit (c ^^^ b.toNat))))))))

/-- CRC-32C of a byte string (R46). -/
def crc32c (bs : List Byte) : Nat := (bs.foldl crcByte 0xFFFFFFFF) ^^^ 0xFFFFFFFF

/-- A structure followed by its CRC-32C, little-endian (R46, R4). -/
def withCrc (bs : List Byte) : List Byte := bs ++ le 4 (crc32c bs)

/-- One bit of CRC-16 with polynomial 1021h (R287). -/
def crc16Bit (c : Nat) : Nat :=
  if c / 32768 % 2 = 1 then (c * 2 % 65536) ^^^ 0x1021 else c * 2 % 65536

/-- Eight bits of CRC-16, most significant bit first. -/
def crc16Byte (c : Nat) (b : Byte) : Nat :=
  crc16Bit (crc16Bit (crc16Bit (crc16Bit (crc16Bit (crc16Bit (crc16Bit (crc16Bit (c ^^^ (b.toNat * 256)))))))))

/-- CRC-16 of a byte string (R287). -/
def crc16 (bs : List Byte) : Nat := bs.foldl crc16Byte 0xFFFF

end Sys2Proof.Machine
end

