-- ==== Sys2Proof/Machine/Crypto.lean ====
section
/-! DEFINITION. The algorithms that the rules name by their standards (log 15): SHA-512 (R392, R403), AES and its modes (R311, R312,
R384, R402, R420), and RSASSA-PSS (R403). -/

namespace Sys2Proof.Machine

/-! ### SHA-512 -/

/-- The 80 round constants. -/
def shaConstants : List Nat :=
  [0x428a2f98d728ae22, 0x7137449123ef65cd, 0xb5c0fbcfec4d3b2f, 0xe9b5dba58189dbbc] ++
  [0x3956c25bf348b538, 0x59f111f1b605d019, 0x923f82a4af194f9b, 0xab1c5ed5da6d8118] ++
  [0xd807aa98a3030242, 0x12835b0145706fbe, 0x243185be4ee4b28c, 0x550c7dc3d5ffb4e2] ++
  [0x72be5d74f27b896f, 0x80deb1fe3b1696b1, 0x9bdc06a725c71235, 0xc19bf174cf692694] ++
  [0xe49b69c19ef14ad2, 0xefbe4786384f25e3, 0x0fc19dc68b8cd5b5, 0x240ca1cc77ac9c65] ++
  [0x2de92c6f592b0275, 0x4a7484aa6ea6e483, 0x5cb0a9dcbd41fbd4, 0x76f988da831153b5] ++
  [0x983e5152ee66dfab, 0xa831c66d2db43210, 0xb00327c898fb213f, 0xbf597fc7beef0ee4] ++
  [0xc6e00bf33da88fc2, 0xd5a79147930aa725, 0x06ca6351e003826f, 0x142929670a0e6e70] ++
  [0x27b70a8546d22ffc, 0x2e1b21385c26c926, 0x4d2c6dfc5ac42aed, 0x53380d139d95b3df] ++
  [0x650a73548baf63de, 0x766a0abb3c77b2a8, 0x81c2c92e47edaee6, 0x92722c851482353b] ++
  [0xa2bfe8a14cf10364, 0xa81a664bbc423001, 0xc24b8b70d0f89791, 0xc76c51a30654be30] ++
  [0xd192e819d6ef5218, 0xd69906245565a910, 0xf40e35855771202a, 0x106aa07032bbd1b8] ++
  [0x19a4c116b8d2d0c8, 0x1e376c085141ab53, 0x2748774cdf8eeb99, 0x34b0bcb5e19b48a8] ++
  [0x391c0cb3c5c95a63, 0x4ed8aa4ae3418acb, 0x5b9cca4f7763e373, 0x682e6ff3d6b2b8a3] ++
  [0x748f82ee5defb2fc, 0x78a5636f43172f60, 0x84c87814a1f0ab72, 0x8cc702081a6439ec] ++
  [0x90befffa23631e28, 0xa4506cebde82bde9, 0xbef9a3f7b2c67915, 0xc67178f2e372532b] ++
  [0xca273eceea26619c, 0xd186b8c721c0c207, 0xeada7dd6cde0eb1e, 0xf57d4f7fee6ed178] ++
  [0x06f067aa72176fba, 0x0a637dc5a2c898a6, 0x113f9804bef90dae, 0x1b710b35131c471b] ++
  [0x28db77f523047d84, 0x32caab7b40c72493, 0x3c9ebe0a15c9bebc, 0x431d67c49c100d4c] ++
  [0x4cc5d4becb3e42b6, 0x597f299cfc657e2a, 0x5fcb6fab3ad6faec, 0x6c44198c4a475817]

/-- The first chaining value. -/
def shaStart : List Nat :=
  [0x6a09e667f3bcc908, 0xbb67ae8584caa73b, 0x3c6ef372fe94f82b, 0xa54ff53a5f1d36f1] ++
  [0x510e527fade682d1, 0x9b05688c2b3e6c1f, 0x1f83d9abfb41bd6b, 0x5be0cd19137e2179]

/-- Octets as a number, the first the most significant (R403). -/
def beNat (b : List Byte) : Nat := b.foldl (fun (a : Nat) x => 256 * a + x.toNat) 0

/-- A number as `k` octets, the most significant first. -/
def be (k n : Nat) : List Byte := (le k n).reverse

/-- A word of 64 bits turned right. -/
def rotr64 (x n : Nat) : Nat := (x >>> n) ||| ((x <<< (64 - n)) % 2 ^ 64)

/-- The groups of `n` that a list holds, for at most `k` of them. -/
def groupsOf (n : Nat) : Nat → List Byte → List (List Byte)
  | 0, _ => []
  | k + 1, l => if l.isEmpty then [] else l.take n :: groupsOf n k (l.drop n)

/-- One round: the eight working words, and the sixteen message words of which the first is used. -/
def shaRound (x : List Nat × List Nat) (k : Nat) : List Nat × List Nat :=
  match x.1, x.2 with
  | [a, b, c, d, e, f, g, h], w0 :: rest =>
    let w1 := rest.getD 0 0
    let w14 := rest.getD 13 0
    let s1 := rotr64 e 14 ^^^ rotr64 e 18 ^^^ rotr64 e 41
    let ch := (e &&& f) ^^^ ((2 ^ 64 - 1 - e) &&& g)
    let t1 := h + s1 + ch + k + w0
    let s0 := rotr64 a 28 ^^^ rotr64 a 34 ^^^ rotr64 a 39
    let maj := (a &&& b) ^^^ (a &&& c) ^^^ (b &&& c)
    let m0 := rotr64 w1 1 ^^^ rotr64 w1 8 ^^^ (w1 >>> 7)
    let m1 := rotr64 w14 19 ^^^ rotr64 w14 61 ^^^ (w14 >>> 6)
    ([(t1 + s0 + maj) % 2 ^ 64, a, b, c, (d + t1) % 2 ^ 64, e, f, g], rest ++ [(m1 + rest.getD 8 0 + m0 + w0) % 2 ^ 64])
  | _, _ => x

/-- One block of 128 octets. -/
def shaBlock (h : List Nat) (block : List Byte) : List Nat :=
  let words := (groupsOf 8 16 block).map beNat
  List.zipWith (fun a b => (a + b) % 2 ^ 64) h (shaConstants.foldl shaRound (h, words)).1

/-- SHA-512 of a message. -/
@[irreducible] def sha512 (message : List Byte) : List Byte :=
  let n := message.length
  let padded := message ++ 0x80#8 :: zeros ((239 - n % 128) % 128) ++ be 16 (8 * n)
  ((groupsOf 128 (n / 128 + 2) padded).foldl shaBlock shaStart).flatMap (be 8)

/-! ### AES -/

/-- The substitution box. -/
def aesBox : List Nat :=
  [0x63, 0x7c, 0x77, 0x7b, 0xf2, 0x6b, 0x6f, 0xc5, 0x30, 0x01, 0x67, 0x2b, 0xfe, 0xd7, 0xab, 0x76] ++
  [0xca, 0x82, 0xc9, 0x7d, 0xfa, 0x59, 0x47, 0xf0, 0xad, 0xd4, 0xa2, 0xaf, 0x9c, 0xa4, 0x72, 0xc0] ++
  [0xb7, 0xfd, 0x93, 0x26, 0x36, 0x3f, 0xf7, 0xcc, 0x34, 0xa5, 0xe5, 0xf1, 0x71, 0xd8, 0x31, 0x15] ++
  [0x04, 0xc7, 0x23, 0xc3, 0x18, 0x96, 0x05, 0x9a, 0x07, 0x12, 0x80, 0xe2, 0xeb, 0x27, 0xb2, 0x75] ++
  [0x09, 0x83, 0x2c, 0x1a, 0x1b, 0x6e, 0x5a, 0xa0, 0x52, 0x3b, 0xd6, 0xb3, 0x29, 0xe3, 0x2f, 0x84] ++
  [0x53, 0xd1, 0x00, 0xed, 0x20, 0xfc, 0xb1, 0x5b, 0x6a, 0xcb, 0xbe, 0x39, 0x4a, 0x4c, 0x58, 0xcf] ++
  [0xd0, 0xef, 0xaa, 0xfb, 0x43, 0x4d, 0x33, 0x85, 0x45, 0xf9, 0x02, 0x7f, 0x50, 0x3c, 0x9f, 0xa8] ++
  [0x51, 0xa3, 0x40, 0x8f, 0x92, 0x9d, 0x38, 0xf5, 0xbc, 0xb6, 0xda, 0x21, 0x10, 0xff, 0xf3, 0xd2] ++
  [0xcd, 0x0c, 0x13, 0xec, 0x5f, 0x97, 0x44, 0x17, 0xc4, 0xa7, 0x7e, 0x3d, 0x64, 0x5d, 0x19, 0x73] ++
  [0x60, 0x81, 0x4f, 0xdc, 0x22, 0x2a, 0x90, 0x88, 0x46, 0xee, 0xb8, 0x14, 0xde, 0x5e, 0x0b, 0xdb] ++
  [0xe0, 0x32, 0x3a, 0x0a, 0x49, 0x06, 0x24, 0x5c, 0xc2, 0xd3, 0xac, 0x62, 0x91, 0x95, 0xe4, 0x79] ++
  [0xe7, 0xc8, 0x37, 0x6d, 0x8d, 0xd5, 0x4e, 0xa9, 0x6c, 0x56, 0xf4, 0xea, 0x65, 0x7a, 0xae, 0x08] ++
  [0xba, 0x78, 0x25, 0x2e, 0x1c, 0xa6, 0xb4, 0xc6, 0xe8, 0xdd, 0x74, 0x1f, 0x4b, 0xbd, 0x8b, 0x8a] ++
  [0x70, 0x3e, 0xb5, 0x66, 0x48, 0x03, 0xf6, 0x0e, 0x61, 0x35, 0x57, 0xb9, 0x86, 0xc1, 0x1d, 0x9e] ++
  [0xe1, 0xf8, 0x98, 0x11, 0x69, 0xd9, 0x8e, 0x94, 0x9b, 0x1e, 0x87, 0xe9, 0xce, 0x55, 0x28, 0xdf] ++
  [0x8c, 0xa1, 0x89, 0x0d, 0xbf, 0xe6, 0x42, 0x68, 0x41, 0x99, 0x2d, 0x0f, 0xb0, 0x54, 0xbb, 0x16]

def subByte (x : Nat) : Nat := aesBox.getD x 0
def unsubByte (x : Nat) : Nat := aesBox.findIdx (fun y => y = x)

/-- Twice an element of the field of AES, and a product. -/
def aesTwice (x : Nat) : Nat := if x < 128 then 2 * x else (2 * x) % 256 ^^^ 0x1B

def aesTimes (k x : Nat) : Nat :=
  (if bit k 0 then x else 0) ^^^ (if bit k 1 then aesTwice x else 0) ^^^ (if bit k 2 then aesTwice (aesTwice x) else 0) ^^^
    (if bit k 3 then aesTwice (aesTwice (aesTwice x)) else 0)

/-- Exclusive or of two strings. -/
def xorNats (a b : List Nat) : List Nat := List.zipWith (fun x y => x ^^^ y) a b

/-- The next word of the key schedule; `words` is newest first, `nk` the words of the key. -/
def aesNextWord (nk : Nat) (x : List (List Nat) × Nat) (i : Nat) : List (List Nat) × Nat :=
  let last := x.1.headD []
  let turned : List Nat := (last.drop 1 ++ last.take 1).map subByte
  let t : List Nat × Nat :=
    if i % nk = 0 then (xorNats turned [x.2, 0, 0, 0], aesTwice x.2)
    else if 6 < nk && i % nk = 4 then (last.map subByte, x.2)
    else (last, x.2)
  (xorNats (x.1.getD (nk - 1) []) t.1 :: x.1, t.2)

/-- The round keys of a key of 16 or 32 octets, 16 numbers each. -/
def aesKeys (key : List Byte) : List (List Nat) :=
  let nk := key.length / 4
  let words := (groupsOf 4 nk key).map (fun w => w.map (fun x => x.toNat))
  let all := ((((List.range (4 * (nk + 7))).drop nk).foldl (aesNextWord nk) (words.reverse, 1)).1).reverse
  (List.range (nk + 7)).map (fun r => ((all.drop (4 * r)).take 4).flatten)

/-- The rows shifted, left or right. -/
def shiftRows (left : Bool) (s : List Nat) : List Nat :=
  (List.range 16).map (fun i => s.getD (i % 4 + 4 * ((i / 4 + (if left then i % 4 else 4 - i % 4)) % 4)) 0)

/-- The columns multiplied by the circulant of `m`. -/
def mixColumns (m : List Nat) (s : List Nat) : List Nat :=
  (List.range 16).map (fun i =>
    (List.range 4).foldl (fun (a : Nat) k => a ^^^ aesTimes (m.getD ((k + 4 - i % 4) % 4) 0) (s.getD (4 * (i / 4) + k) 0)) 0)

/-- One block encrypted: whitening, the rounds, the last without its mixing. -/
@[irreducible] def aesEncrypt (key block : List Byte) : List Byte :=
  let ks := aesKeys key
  let n := ks.length - 1
  let start := xorNats (block.map (fun x => x.toNat)) (ks.headD [])
  let s := ((ks.drop 1).zipIdx).foldl (fun (s : List Nat) k =>
    let t := shiftRows true (s.map subByte)
    xorNats (if k.2 + 1 = n then t else mixColumns [2, 3, 1, 1] t) k.1) start
  octets s

/-- One block decrypted. -/
@[irreducible] def aesDecrypt (key block : List Byte) : List Byte :=
  let ks := (aesKeys key).reverse
  let n := ks.length - 1
  let start := xorNats (block.map (fun x => x.toNat)) (ks.headD [])
  let s := ((ks.drop 1).zipIdx).foldl (fun (s : List Nat) k =>
    let t := xorNats ((shiftRows false s).map unsubByte) k.1
    if k.2 + 1 = n then t else mixColumns [14, 11, 13, 9] t) start
  octets s

/-- Exclusive or of two octet strings. -/
def xorBytes (a b : List Byte) : List Byte := List.zipWith (fun x y => x ^^^ y) a b

/-! ### CMAC and the key derivation (R311, R402) -/

/-- The subkey that follows one of CMAC. -/
def cmacDouble (l : List Byte) : List Byte :=
  let n := 2 * beNat l
  be 16 (if n < 2 ^ 128 then n else (n % 2 ^ 128) ^^^ 0x87)

/-- AES-CMAC of a message. -/
@[irreducible] def cmac (key message : List Byte) : List Byte :=
  let k1 := cmacDouble (aesEncrypt key (zeros 16))
  let blocks := groupsOf 16 (message.length / 16 + 1) message
  let last := blocks.getLastD []
  let end_ := if last.length = 16 then xorBytes last k1 else xorBytes (fit 16 (last ++ [0x80#8])) (cmacDouble k1)
  (blocks.dropLast ++ [end_]).foldl (fun (x : List Byte) b => aesEncrypt key (xorBytes x b)) (zeros 16)

/-- One iteration of the counter-mode KDF of NIST SP 800-108: counter, label, 00h, context, and the length in bits. -/
def kdfBlock (key : List Byte) (counter : Nat) (label context : List Byte) (bits : Nat) : List Byte :=
  cmac key (octets [counter] ++ label ++ zeros 1 ++ context ++ be 2 bits)

/-- A key of 128 bits, from K_net (R311). -/
def deriveKey (key label context : List Byte) : List Byte := kdfBlock key 1 label context 128

/-- K_link (R402): two iterations keyed with the pairing secret. -/
def deriveLink (secret nonce : List Byte) : List Byte :=
  let label := octets [0x6C, 0x69, 0x6E, 0x6B]
  kdfBlock secret 1 label nonce 256 ++ kdfBlock secret 2 label nonce 256

/-! ### CCM (R312) -/

/-- A string filled with zeros to whole blocks. -/
def padBlocks (b : List Byte) : List Byte := b ++ zeros ((16 - b.length % 16) % 16)

/-- The counter block `i` of a nonce of 13 octets, L = 2. -/
def ccmCounter (nonce : List Byte) (i : Nat) : List Byte := octets [1] ++ fit 13 nonce ++ be 2 i

/-- The MIC of 8 octets over additional data of fewer than 65,280 octets, and a plaintext, before it is encrypted. -/
def ccmMac (key nonce header plain : List Byte) : List Byte :=
  let first := octets [0x40 + 8 * 3 + 1] ++ fit 13 nonce ++ be 2 plain.length
  let blocks := first ++ padBlocks (be 2 header.length ++ header) ++ padBlocks plain
  ((groupsOf 16 (blocks.length / 16) blocks).foldl (fun (x : List Byte) b => aesEncrypt key (xorBytes x b)) (zeros 16)).take 8

/-- A string joined with the key stream of a nonce. -/
def ccmStream (key nonce text : List Byte) : List Byte :=
  ((groupsOf 16 (text.length / 16 + 1) text).zipIdx).flatMap (fun b => xorBytes b.1 (aesEncrypt key (ccmCounter nonce (b.2 + 1))))

/-- AES-128-CCM with a MIC of 8 octets: ciphertext and MIC. -/
@[irreducible] def ccmSeal (key nonce header plain : List Byte) : List Byte :=
  ccmStream key nonce plain ++ xorBytes (ccmMac key nonce header plain) (aesEncrypt key (ccmCounter nonce 0))

/-- The plaintext of a sealed string, if its MIC holds. -/
@[irreducible] def ccmOpen (key nonce header sealed : List Byte) : Option (List Byte) :=
  let n := sealed.length - 8
  let plain := ccmStream key nonce (sealed.take n)
  if 8 ≤ sealed.length && xorBytes (sealed.drop n) (aesEncrypt key (ccmCounter nonce 0)) = ccmMac key nonce header plain then some plain
  else none

/-! ### AES Key Wrap of RFC 3394 (R402, R420) -/

/-- The steps of the wrapping of `n` halves, numbered from 1. -/
def wrapSteps (n : Nat) : List Nat := (List.range (6 * n)).map (fun t => t + 1)

/-- A key wrapped under another. -/
@[irreducible] def aesWrap (key plain : List Byte) : List Byte :=
  let n := plain.length / 8
  let r := (wrapSteps n).foldl (fun (x : List Byte × List (List Byte)) t =>
    let i := (t - 1) % n
    let b := aesEncrypt key (x.1 ++ x.2.getD i [])
    (xorBytes (b.take 8) (be 8 t), x.2.set i (b.drop 8))) (List.replicate 8 0xA6#8, groupsOf 8 n plain)
  r.1 ++ r.2.flatten

/-- A wrapped key unwrapped, if its check value holds. -/
@[irreducible] def aesUnwrap (key wrapped : List Byte) : Option (List Byte) :=
  let n := wrapped.length / 8 - 1
  let r := (wrapSteps n).reverse.foldl (fun (x : List Byte × List (List Byte)) t =>
    let i := (t - 1) % n
    let b := aesDecrypt key (xorBytes x.1 (be 8 t) ++ x.2.getD i [])
    (b.take 8, x.2.set i (b.drop 8))) (wrapped.take 8, groupsOf 8 n (wrapped.drop 8))
  if r.1 = List.replicate 8 0xA6#8 then some r.2.flatten else none

/-- The key check value: the first 3 bytes of AES of a zero block (R420). -/
def keyCheck (key : List Byte) : List Byte := (aesEncrypt key (zeros 16)).take 3

/-! ### AES-256-XTS (R384) -/

/-- The tweak of the next block, the octets little-endian. -/
def xtsDouble (t : List Byte) : List Byte :=
  let n := 2 * leNat t
  le 16 (if n < 2 ^ 128 then n else (n % 2 ^ 128) ^^^ 0x87)

/-- The blocks of a data unit, each between two additions of its tweak. -/
def xtsBlocks (f : List Byte → List Byte) (tweak : List Byte) (blocks : List (List Byte)) : List Byte :=
  (blocks.foldl (fun (x : List Byte × List Byte) b => (xtsDouble x.1, x.2 ++ xorBytes (f (xorBytes b x.1)) x.1)) (tweak, [])).2

/-- A data unit of whole blocks under a key of 64 octets: the first half encrypts the data, the second the tweak. -/
@[irreducible] def xtsEncrypt (key : List Byte) (page : Nat) (data : List Byte) : List Byte :=
  xtsBlocks (aesEncrypt (key.take 32)) (aesEncrypt (key.drop 32) (le 16 page)) (groupsOf 16 (data.length / 16) data)

@[irreducible] def xtsDecrypt (key : List Byte) (page : Nat) (data : List Byte) : List Byte :=
  xtsBlocks (aesDecrypt (key.take 32)) (aesEncrypt (key.drop 32) (le 16 page)) (groupsOf 16 (data.length / 16) data)

/-! ### RSASSA-PSS with SHA-512 (R403) -/

/-- A power modulo `n`, for an exponent of at most `k` bits. -/
def powerMod (n : Nat) : Nat → Nat → Nat → Nat
  | 0, _, _ => 1 % n
  | k + 1, b, e => let h := powerMod n k (b * b % n) (e / 2)
                   if e % 2 = 1 then b * h % n else h

/-- MGF1 with SHA-512. -/
def mgf1 (seed : List Byte) (length : Nat) : List Byte :=
  ((List.range (length / 64 + 1)).flatMap (fun k => sha512 (seed ++ be 4 k))).take length

/-- H of a message and a salt. -/
def pssHash (message salt : List Byte) : List Byte := sha512 (zeros 8 ++ sha512 message ++ salt)

/-- The first bit of 512 octets cleared. -/
def clearTop (b : List Byte) : List Byte :=
  match b with
  | [] => []
  | x :: l => (x &&& 0x7F#8) :: l

/-- The encoded message of 512 octets: the masked salt, H and BCh. -/
def pssEncode (message salt : List Byte) : List Byte :=
  let h := pssHash message salt
  clearTop (xorBytes (zeros 382 ++ octets [1] ++ salt) (mgf1 h 447)) ++ h ++ octets [0xBC]

/-- The signature of a message with a salt of 64 bytes, by a private key of 4,096 bits. -/
@[irreducible] def rsaSign (modulus exponent : Nat) (salt message : List Byte) : List Byte :=
  be 512 (powerMod modulus 4096 (beNat (pssEncode message salt)) exponent)

/-- Whether a signature of a message is valid under a public key. -/
@[irreducible] def rsaVerify (modulus exponent : Nat) (message signature : List Byte) : Bool :=
  let m := be 512 (powerMod modulus 32 (beNat signature) exponent)
  let masked := m.take 447
  let h := (m.drop 447).take 64
  let db := clearTop (xorBytes masked (mgf1 h 447))
  signature.length = 512 && decide (beNat signature < modulus) && byteAt m 511 = 0xBC && byteAt m 0 < 128 &&
    db.take 383 = zeros 382 ++ octets [1] && h = pssHash message (db.drop 383)

end Sys2Proof.Machine
end

