-- ==== Sys2Proof/Config.lean ====
section
/-! DEFINITION. What the part fixes for its life, and the free values: opaque constants of which nothing can be proved. -/

namespace Sys2Proof.Config

/-- Whether a quotient or a root that the spec leaves unrounded is taken one step up; `tag` names the
place and `x` the operand (log 12). The value is free within the two neighbours. -/
opaque roundsUp (tag : Nat) (x : Int) : Bool

/-- Whether the exact value `n / d`, which binary32 does not hold, is taken as the larger in magnitude of the two numbers next to it; the spec
states no rounding (log 13). -/
opaque f32RoundsUp (n : Int) (d : Nat) : Bool

/-- The binary32 bits the part forms for the exact value `n / d` beyond the largest finite number; the spec states none (log 13). -/
opaque binary32 (n : Int) (d : Nat) : F32

/-- A quotient by zero, which no rule states (THDS without a fundamental, PF without S; log 74). -/
opaque zeroQuotient (tag : Nat) (n : Rat) : Rat

/-- Coefficients by which the DSP decimates a block to 25 kS/s, by distance in wideband samples (R195; log 74). -/
opaque bandTap (distance : Int) : Rat

/-- Coefficients by which the DSP decimates to the flickermeter's 2,000 S/s, by place among 250 wideband samples (R198; log 74). -/
opaque flickerTap (place : Nat) : Rat

/-- One step of the flickermeter of IEC 61000-4-15: its filters' state, held as one number, and one input give the next state and Pinst; the
spec names the standard only (R198; log 74). -/
opaque flickerStep (lamp nominal state : Nat) (input : Rat) : Nat × Rat

/-- Pst of the counts of the classes, by the multipoint method of IEC 61000-4-15 (R198; log 74). -/
opaque multipoint (counts : List (Nat × Nat)) : Rat

/-- The running mean square of the line after a sample, from the one before it and whether the sample is blanked: R297 gives no span of
the average (log 78). -/
opaque lineSquare (old : Option Rat) (sample : Int) (blanked : Bool) : Rat

/-- The level in dB that a magnitude of 0 is given (R292): no rule states it (log 80). -/
opaque levelOfZero : Rat

/-- A tone level corrected by the attenuation in a header (R292): the rule does not say how (log 80). -/
opaque levelCorrected (level : Rat) (attenuation : Nat) : Rat

/-- The noise level of a neighbour slot before its first idle half cycle (R292, log 80). -/
opaque startNoise (slot segment tone : Nat) : Rat

/-- The level at LRX_P/LRX_N in dBuV that energies of bits show (Table 9.11, log 80). -/
opaque sfskLevel (energies : List Nat) : Nat

/-- SHA-512 of each firmware key that the ROM holds (Table 13.1, R413, log 15). -/
opaque romKeyHash (key : Nat) : List Byte

/-- Values drawn from the vault's random source (R400), one for each draw (log 16). -/
opaque random (draw : Nat) : Nat

/-- The part's unique identifier, 16 bytes (R482, log 17). -/
opaque partId : Nat

/-- The build number of the running image in slot 0 (R482, log 17). -/
opaque factoryBuild : Nat

/-- The RSA-4096 key that a draw of the random source makes: modulus and private exponent (Table 13.1, log 15). -/
opaque rsaModulus (draw : Nat) : Nat
opaque rsaPrivate (draw : Nat) : Nat

/-- The pairing secret PS of 256 bits in vault OTP and S OTP, and K_dev as the factory programs it (Table 13.1, log 15). -/
opaque pairingSecret : Nat
opaque rootKey : Nat

/-- The modulus of the debug key, whose hash the ROM holds (Table 13.1, log 15). -/
opaque debugModulus : Nat

/-- How long the part takes to write a copy of the boot table, in ticks: no rule states it (R412, R425, log 98). -/
opaque bootWriteTicks : Nat

/-- A value within a range about 0. -/
def within (range : Nat) (v : Int) : Int := max (-(range : Int)) (min range v)

/-- The range of trim `i` (Table 5.1). -/
def trimRange (i : Nat) : Nat := if i < 8 then 256 else if i < 16 then 1000 else if i < 24 then 800 else if i = 24 then 1000 else 400

/-- The factory trims of a converter unit held in vault OTP (R165, log 18): any within the ranges of Table 5.1. -/
opaque factoryValue (unit index : Nat) : Int
def factoryTrim (unit index : Nat) : Int := within (trimRange index) (factoryValue unit index)

/-- The selector path delay of a lane for a channel, held in vault OTP (R143, log 18): a calibration delay part, any within ±400 steps
(R126). -/
opaque laneValue (lane channel : Nat) : Int
def laneDelay (lane channel : Nat) : Int := within 400 (laneValue lane channel)

/-- The scale factor of a converter unit, in steps of 2^-24: any of those that lie within 0.99500-1.00500 (R107, log 18). -/
opaque scaleStep (unit : Nat) : Nat
def scaleFactor (unit : Nat) : Nat := 16693330 + scaleStep unit % 167773

/-- Coefficients of the wideband and narrowband decimators by distance from the middle tap; the spec gives their response only (R108-R110,
log 72). -/
opaque decimatorTap (narrow : Bool) (distance : Nat) : Rat

/-- The set for a bench on three slices, by the grid positions missing and that of the sample (R107, log 72). -/
opaque threeSliceTap (narrow : Bool) (missing : List Nat) (distance position : Nat) : Rat

/-- The resampler's coefficients: phase 0-255, tap 0-31 (R125, log 72). -/
opaque resamplerTap (phase tap : Nat) : Rat

/-- The change of trim `i` in steps that the moments of a sweep's capture give; the spec names what each is estimated from and no formula
(R142, log 76). -/
opaque trimChange (i : Nat) (moments : List Int) : Int

/-- A running moment of a slice's skew after one more code in the first or the second half of a capture (R142, log 76). -/
opaque skewMoment (second : Bool) (element moment : Nat) (code : Int) : Nat

/-- The delay of one narrowband stream behind another in steps of 0.25 ns, by cross-correlation; both as ticks and values (R143, R147,
R347, log 76). -/
opaque correlate (home lane : List (Nat × Int)) : Int

/-- The codes by which event source 159 carries the three outcomes of a confirming dwell: three different ones of 0-3, which ones no rule
states (R348, Table 11.6, log 32). -/
opaque checkerCodes : Nat
def checkerCode (outcome : Nat) : Nat :=
  let orders := [0, 1, 2, 3].flatMap (fun a => [0, 1, 2, 3].flatMap (fun b => [0, 1, 2, 3].flatMap (fun c =>
    if a ≠ b && a ≠ c && b ≠ c then [[a, b, c]] else [])))
  ((orders.getD (checkerCodes % 24) []).getD outcome 0)

/-- The detail of a health-log entry that names the checker tests failed (Table 11.6, log 32). -/
opaque testDetail (rms waveform delay : Bool) : Nat

/-- A running moment of the delay between the home and the lane streams of a channel, after one more cycle of samples of both, and the delay
in nanoseconds that it gives (Table 11.3, log 81). -/
opaque delayMoment (moment : Nat) (home lane : List Int) : Nat
opaque momentDelay (moment : Nat) : Rat

/-- First block of a store region after the firmware region, for a store layout (R382 states sizes only, log 34). -/
opaque regionBlock (layout : List Nat) (region : Nat) : Nat

/-- The bytes that a page with errors on-die ECC cannot correct gives for what was written to it (R385, log 83). -/
opaque unreadable (draw : Nat) (written : List Byte) : List Byte

/-- A free value: one for each draw the step makes (log 11). -/
opaque freeNat (draw : Nat) : Nat

/-- Ticks of the 16 MHz timebase in one second (R8, R33). -/
def ticksPerSecond : Nat := 16000000

/-- Ticks in one millisecond. -/
def ms : Nat := 16000

/-- Ticks in one processing tick of 10 ms (R16). -/
def tickLen : Nat := 160000

end Sys2Proof.Config
end

