-- ==== Sys2Proof/Machine/State.lean ====
section
/-! DEFINITION. The state of the block: plain data, holding every register, queue, buffer, counter, mode and pin the
spec gives the part. Each field's docstring begins with its width, the file and rule of spec/ that name it, and
its reset value: `R411` for what every reset zeroes, `log n` for a value an assumption log entry names. -/

namespace Sys2Proof.Machine

/-- Where the part stands between reset and normal operation (R437, R416, R364). -/
inductive Phase where
  /-- a reset is in force; it ends at START_UP -/
  | held
  /-- the firmware has started, before READY -/
  | booting
  /-- READY is set, before event source 151 -/
  | ready
  /-- contexts restored -/
  | running
  /-- the ROM runs recovery (R416) -/
  | recovery
  /-- gatehouse mode (R359) -/
  | gatehouse
  deriving DecidableEq, Repr, Inhabited

/-- How a received packet stands at check 3 of Table 2.5; one that fails check 2 is never held (R37). -/
inductive Verdict where
  | whole
  | badCrc
  deriving DecidableEq, Repr, Inhabited

/-- A request in a receive buffer (Table 2.3). -/
structure Request where
  /-- [0-4,112 bytes; 02 R37; none] the packet as received -/
  bytes : List Byte := []
  /-- [64 bits; 02 R49; none] the tick at which it counts as received -/
  rxAt : Nat := 0
  /-- [1 bit; 02 R47; none] outcome of check 3 -/
  verdict : Verdict := .whole
  deriving DecidableEq, Repr, Inhabited

/-- A reply (Table 2.4). -/
structure Reply where
  /-- [8 bits; 02 Table 2.4; none] session, copied from the request -/
  session : Nat := 0
  /-- [8 bits; 02 Table 2.4; none] sequence, copied from the request -/
  seq : Nat := 0
  /-- [8 bits; 02 Table 2.4; none] REPLAYED, EVENTS_PENDING, OWNER -/
  flags : Nat := 0
  /-- [16 bits; 02 Table 2.4; none] opcode, copied from the request -/
  opcode : Nat := 0
  /-- [16 bits; 02 Table 2.6; none] status code -/
  status : Nat := 0
  /-- [0-4,096 bytes; 02 Table 2.4; none] payload -/
  payload : List Byte := []
  deriving DecidableEq, Repr, Inhabited

/-- The stored record of a session (R50). -/
structure Stored where
  /-- [8 bits; 02 R50; none] sequence of the last completed request -/
  seq : Nat := 0
  /-- [32 bits; 02 R50; none] CRC of that request -/
  crc : Nat := 0
  /-- [reply; 02 R50; none] the complete reply -/
  reply : Reply := {}
  deriving DecidableEq, Repr, Inhabited

/-- An event, marker or notice in a session's queue (R369). -/
structure QEvent where
  /-- [8 bits; 12 Table 12.3; none] source 0-191 -/
  source : Nat := 0
  /-- [2 bits; 12 Table 12.3; none] class in which it was queued -/
  cls : Nat := 0
  /-- [32 bits; 12 Table 12.3; none] event number of the session -/
  number : Nat := 0
  /-- [64 bits; 12 R370; none] timestamp -/
  time : Nat := 0
  /-- [0-184 bytes; 12 R369; none] body -/
  body : List Byte := []
  /-- [3 bits; 12 R375; none] parts already delivered -/
  sent : Nat := 0
  deriving DecidableEq, Repr, Inhabited

/-- A fence whose marker is not yet queued (R376). -/
structure Fence where
  /-- [32 bits; 12 R376; none] fence number -/
  number : Nat := 0
  /-- [64 bits; 12 R376; none] fence instant F as a timestamp -/
  instant : Nat := 0
  /-- [64 bits; 12 R376; none] the tick at which the marker is due, F + 20 ms -/
  due : Nat := 0
  deriving DecidableEq, Repr, Inhabited

/-- A session's event queue (R372). -/
structure EventQueue where
  /-- [1,024 entries; 12 R372; empty, R411] events, markers and notices in the order queued -/
  items : List QEvent := []
  /-- [1 entry; 12 R379; none, R411] the flushed marker held -/
  flushed : Option QEvent := none
  /-- [192 bytes; 12 R374; defaults of Table 12.1 at OPEN] bit 7 admit, bits 1-0 class, for each source -/
  mask : List Nat := []
  /-- [32 bits; 12 Table 12.3; 1 at OPEN] number of the next event -/
  next : Nat := 1
  /-- [16 bits; 12 R380; 768 at OPEN] watermark, 0 for off -/
  mark : Nat := 768
  /-- [16 bits; 12 Table 12.13; 0, R411] peak fill since the crossing -/
  peak : Nat := 0
  /-- [64 bits; 12 Table 12.13; 0, R411] instant of the peak -/
  peakTime : Nat := 0
  /-- [16 bits; 12 Table 12.13; 0, R411] mark in force at the crossing -/
  crossed : Nat := 0
  /-- [4 x 16 bits; 12 Table 12.9; zeros, R411] events dropped by class since the notice was queued -/
  dropped : List Nat := [0, 0, 0, 0]
  /-- [64 bits; 12 Table 12.9; 0, R411] largest timestamp dropped -/
  lastDrop : Nat := 0
  /-- [list; 12 Table 12.10; empty, R411] timestamps of every event dropped since OPEN -/
  drops : List Nat := []
  /-- [0-8; 12 R376; empty, R411] fences waiting for F + 20 ms -/
  fences : List Fence := []
  /-- [32 bits; 12 R376; 1 at OPEN] next fence number -/
  nextFence : Nat := 1
  deriving DecidableEq, Repr, Inhabited

/-- A rewind mark of a session on a ring (R396). -/
structure Mark where
  /-- [3 bits; 12 R396; none] ring 0-7 -/
  ring : Nat := 0
  /-- [3 bits; 12 R396; none] mark 0-7 -/
  index : Nat := 0
  /-- [64 bits; 12 R396; none] ring position -/
  pos : Nat := 0
  /-- [1 bit; 12 R397; none] overtaken by the writer -/
  lost : Bool := false
  deriving DecidableEq, Repr, Inhabited

/-- A quote a session asked for (R421). -/
structure Quote where
  /-- [16 bits; 13 R421; none] operation tag -/
  tag : Nat := 0
  /-- [256 or 768 bytes; 13 Table 13.9; none] the quote, with its signature once signed -/
  bytes : List Byte := []
  /-- [1 bit; 13 R421; none] the signature is in place -/
  signed : Bool := false
  deriving DecidableEq, Repr, Inhabited

/-- One session (R57). -/
structure Session where
  /-- [1 bit; 02 R57, R58; false] the session is open -/
  isOpen : Bool := false
  /-- [record; 02 R50; none, R411] stored reply record -/
  stored : Option Stored := none
  /-- [request; 02 R51; none, R411] the request in progress: an INJECT whose conversions run -/
  busy : Option Request := none
  /-- [queue; 12 R372; empty, R411] event queue -/
  queue : EventQueue := {}
  /-- [64 marks; 12 R396; empty, R411] rewind marks -/
  marks : List Mark := []
  /-- [record; 13 R421; none, R411] attestation quote -/
  quote : Option Quote := none
  deriving DecidableEq, Repr, Inhabited

/-- An accepted operation that has not completed (R54, R55). -/
structure LongOp where
  /-- [16 bits; 02 R54; none] operation tag -/
  tag : Nat := 0
  /-- [16 bits; 02 R54; none] opcode -/
  opcode : Nat := 0
  /-- [16 bits; 02 R54; none] handle -/
  handle : Nat := 0
  /-- [3 bits; 02 R54; none] session that started it -/
  session : Nat := 0
  deriving DecidableEq, Repr, Inhabited

/-- A claim taken in an election window (R60, R61). -/
structure Claim where
  /-- [3 bits; 02 R61; none] claimant -/
  session : Nat := 0
  /-- [8 bits; 02 R61; none] priority -/
  priority : Nat := 0
  /-- [16 bits; 02 R54; none] tag of the CLAIM -/
  tag : Nat := 0
  deriving DecidableEq, Repr, Inhabited

/-- An election window (R60). -/
structure Election where
  /-- [64 bits; 02 R60; none] end of the window, tick -/
  endAt : Nat := 0
  /-- [list; 02 R61; none] claims in the order taken -/
  claims : List Claim := []
  deriving DecidableEq, Repr, Inhabited

/-- A pending handover (R66). -/
structure Handover where
  /-- [3 bits; 02 R65; none] named successor -/
  successor : Nat := 0
  /-- [64 bits; 02 R66; none] end of the pending second, tick -/
  endAt : Nat := 0
  /-- [16 bits; 02 R54; none] tag of the YIELD -/
  tag : Nat := 0
  deriving DecidableEq, Repr, Inhabited

/-- One host port (R37-R41). -/
structure PortState where
  /-- [4 requests; 02 R40; empty, R411] receive buffer, oldest first -/
  rx : List Request := []
  /-- [8 replies; 02 R40; empty, R411] reply queue, oldest first -/
  replies : List Reply := []
  /-- [1 bit; 02 Table 2.2; 0, R411] OVERRUN -/
  overrun : Bool := false
  /-- [1 bit; 02 Table 2.2; 0, R411] FRAMING -/
  framing : Bool := false
  /-- [bytes; 02 R38, R45; empty, R411] the bytes the part drove in the last read transfer or UART reply -/
  out : List Byte := []
  deriving DecidableEq, Repr, Inhabited

/-- Host ports, sessions and ownership (chapter 02). -/
structure HostState where
  /-- [port; 02 R34; R411] port H0 -/
  h0 : PortState := {}
  /-- [port; 02 R34; R411] port H1 -/
  h1 : PortState := {}
  /-- [1 bit; 02 R34; sampled at the end of the reset, false until then, R411] H1 is a UART -/
  h1Uart : Bool := false
  /-- [1 bit; 13 R416; sampled at the end of the reset, false until then, R411] BOOTSEL as sampled -/
  bootsel : Bool := false
  /-- [rate; 02 R42; none until the sync byte, R411] measured UART rate, baud -/
  uartRate : Option Nat := none
  /-- [0-4,112 bytes; 02 R44; empty, R411] partly received UART request -/
  uartPart : List Byte := []
  /-- [8 sessions; 02 R57, R58; all closed] sessions 0-7 -/
  sessions : List Session := List.replicate 8 {}
  /-- [3 bits or none; 02 R58; none] the owner -/
  owner : Option Nat := none
  /-- [64 bits; 02 R63; 0, R411] tick of the last KEEPALIVE, or at which the owner became owner -/
  keepAt : Nat := 0
  /-- [record; 02 R60; none, R411] election window -/
  election : Option Election := none
  /-- [record; 02 R66; none, R411] pending handover -/
  handover : Option Handover := none
  /-- [0-32; 02 R55; empty, R411] accepted operations not complete -/
  ops : List LongOp := []
  /-- [16 bits; 02 R54; 0001h] next operation tag -/
  nextTag : Nat := 1
  deriving DecidableEq, Repr, Inhabited

/-- What ruled a tick before a change of the clock's settings (R237, R243). -/
structure ClockRule where
  /-- [64 bits; 07 R237; empty list, R411] timebase tick of the change -/
  until_ : Nat := 0
  /-- [1 bit; 07 R243; empty list, R411] RTC valid -/
  valid : Bool := true
  /-- [64 bits; 07 R243; empty list, R411] tick from which it counted as valid -/
  validFrom : Nat := 0
  /-- [1 bit; 07 R237; empty list, R411] clock policy -/
  policy : Nat := 0
  /-- [12 bits; 07 R237; empty list, R411] clock limit, seconds -/
  limit : Nat := 30
  deriving DecidableEq, Repr, Inhabited

/-- UTC, PPS and the RTC (chapter 14). -/
structure ClockState where
  /-- [1 bit; 14 R453; false until START_UP, R411] the mapping from timebase to UTC is set -/
  mapSet : Bool := false
  /-- [64 bits; 14 R450; 0, R411] timebase tick at which `mapUtc` holds -/
  mapTick : Nat := 0
  /-- [64 bits; 14 R450; 0, R411] UTC at `mapTick`, in ticks since 1 January 2000 (R8) -/
  mapUtc : Int := 0
  /-- [ratio; 14 R449; 0, R411] rate error -/
  eps : Rat := 0
  /-- [1 bit; 14 R449; false, R411] the rate estimate is valid -/
  epsValid : Bool := false
  /-- [64 bits; 14 R449; none, R411] tick at which the estimate expires after an unlock -/
  epsExpiry : Option Nat := none
  /-- [64 bits signed; 14 R450; 0, R411] phase error still to be slewed away, UTC ticks -/
  slew : Int := 0
  /-- [64 bits signed; 16 Table 16.4; 0, R411] step of the last adjustment, ticks -/
  lastStep : Int := 0
  /-- [64 bits signed; 14 R452; none, R411] PPS step deferred by a warning -/
  deferred : Option Int := none
  /-- [1 bit; 14 R448; false, R411] PPS locked -/
  ppsLocked : Bool := false
  /-- [64 bits; 14 R448; none, R411] previous PPS edge, quarter ticks -/
  ppsLast : Option Nat := none
  /-- [64 bits; 14 R448; 0, R411] tick of the last accepted edge -/
  ppsAccepted : Nat := 0
  /-- [3 bits; 14 R448; 0, R411] consecutive accepted edges before lock -/
  ppsRun : Nat := 0
  /-- [64 lengths; 14 R449; empty, R411] accepted intervals since lock, quarter ticks, newest first -/
  ppsLens : List Nat := []
  /-- [32 bits; 14 R448; 0, R411] edges rejected while locked -/
  ppsRejected : Nat := 0
  /-- [1 bit; 07 R243; kept by a reset, true at first power (log 20)] RTC valid -/
  rtcValid : Bool := true
  /-- [64 bits; 07 R243; 0] tick from which the RTC counts as valid: the instant A of the SET_TIME that made it so -/
  rtcValidFrom : Nat := 0
  /-- [1 bit; 14 R453; kept, true at first power (log 20)] RTC oscillator runs -/
  rtcRuns : Bool := true
  /-- [64 bits; 14 R453; kept, 0 at first power: 1 January 2000] RTC count, UTC ticks, as of `rtcAt` -/
  rtcCount : Nat := 0
  /-- [64 bits; 14 R453; kept, 0 at first power (log 20)] tick at which `rtcCount` held -/
  rtcAt : Nat := 0
  /-- [1 bit; 07 R237; 0 split] clock policy -/
  policy : Nat := 0
  /-- [12 bits; 07 R237; 30] clock limit, seconds -/
  limit : Nat := 30
  /-- [list; 07 R237, R243; empty, R411] what held before a change of policy, limit or RTC validity, for ticks not yet folded (the model's own record, log 45) -/
  past : List ClockRule := []
  /-- [1 bit; 14 R454; false, R411] the modem crystal is lost -/
  modemLost : Bool := false
  /-- [1 bit; 14 R454; false] the 32 MHz reference is lost -/
  referenceLost : Bool := false
  /-- [64 bits; 01 Table 1.6; 0, R411] modem count of the last timing message -/
  modemCount : Nat := 0
  /-- [64 bits; 01 Table 1.6; 0, R411] timebase count of the last timing message -/
  modemTick : Nat := 0
  /-- [2 x 64 bits; 01 Table 1.6; none, R411] modem count and timebase count of the timing message before it -/
  modemBefore : Option (Nat × Nat) := none
  /-- [64 bits; 14 R447; none, R411] tick of the last SYNC edge acted on -/
  syncEdgeAt : Option Nat := none
  deriving DecidableEq, Repr, Inhabited

/-- A window comparator (Table 3.8, R94). -/
structure Window where
  /-- [1 bit; 03 R94; 0] enable -/
  enable : Bool := false
  /-- [1 bit; 03 R94; 0] an exit asserts ALARM_N -/
  alarm : Bool := false
  /-- [32 bits signed; 03 R94; fast -65,536, slow 0] low threshold -/
  low : Int := 0
  /-- [32 bits signed; 03 R94; fast +65,535, slow 65,535] high threshold -/
  high : Int := 65535
  /-- [8 bits; 03 R94; fast 1, slow 0] dwell count, samples -/
  dwell : Nat := 0
  /-- [16 bits; 03 R94; 1] hysteresis count -/
  hysteresis : Nat := 1
  /-- [1 bit; 03 R94; true] armed -/
  armed : Bool := true
  /-- [32 bits; 03 R94; 0] dwell count in progress while armed, hysteresis count while disarmed -/
  count : Nat := 0
  /-- [1 bit; 03 R95; false, R411] side of the dwell count in progress: true above -/
  above : Bool := false
  /-- [64 bits; 03 R95; 0, R411] timestamp of the first sample of the dwell count -/
  firstAt : Nat := 0
  /-- [17 bits signed; 03 R95; 0, R411] code of that sample -/
  firstCode : Int := 0
  deriving DecidableEq, Repr, Inhabited

/-- What carries a channel (Table 3.9). -/
inductive Carrier where
  | home
  | lane (k : Nat)
  | none
  deriving DecidableEq, Repr, Inhabited

/-- A cross-fade (R116) or a pending swap (R115). -/
structure Swap where
  /-- [1 bit; 04 R115; none] target bank, 0 A, 1 B -/
  target : Nat := 0
  /-- [13 bits; 04 R115; none] length N -/
  length : Nat := 0
  /-- [13 bits; 04 R116; none] samples of the fade already delivered -/
  done : Nat := 0
  deriving DecidableEq, Repr, Inhabited

/-- The identity bank: 1.0 at tap 32 (R112, R113). -/
def identityBank : List Int := List.replicate 32 0 ++ [536870912] ++ List.replicate 31 0

/-- One held sample of a stream (Table 4.1) with its index (R106). -/
structure StreamSample where
  /-- [64 bits signed; 04 R106; none] index -/
  index : Int := 0
  /-- [24 bits signed; 04 R104; none] value -/
  value : Int := 0
  /-- [8 bits; 04 Table 4.2; none] flags -/
  flags : Nat := 0
  deriving DecidableEq, Repr, Inhabited

/-- A detector result held for STREAM_READ (Table 16.10). -/
structure DetectorResult where
  /-- [64 bits; 16 R486; none] result index -/
  index : Nat := 0
  /-- [32 bits signed; 16 Table 16.10; none] largest code, RMS or largest envelope -/
  high : Int := 0
  /-- [32 bits signed; 16 Table 16.10; none] smallest code -/
  low : Int := 0
  /-- [64 bits; 16 Table 16.10; none] index of the largest, or the result's time -/
  highAt : Nat := 0
  /-- [64 bits; 16 Table 16.10; none] index of the smallest -/
  lowAt : Nat := 0
  /-- [8 bits; 16 Table 16.10; none] flags -/
  flags : Nat := 0
  deriving DecidableEq, Repr, Inhabited

/-- Running extremes of a peak detector (R131). -/
structure Peak where
  /-- [1 bit; 04 R131; false, R411] a sample has been covered -/
  any : Bool := false
  /-- [17 bits signed; 04 R131; 0, R411] largest code -/
  high : Int := 0
  /-- [17 bits signed; 04 R131; 0, R411] smallest code -/
  low : Int := 0
  /-- [64 bits; 04 R131; 0, R411] raw index of the largest -/
  highAt : Nat := 0
  /-- [64 bits; 04 R131; 0, R411] raw index of the smallest -/
  lowAt : Nat := 0
  /-- [3 bits; 04 R131; 0, R411] OR of OVR, RCV and CLIP -/
  flags : Nat := 0
  deriving DecidableEq, Repr, Inhabited

/-- A raw sample as the decimators and the half-cycle peak detector see it (R107, R131). -/
structure RawSeen where
  /-- [64 bits; 04 R131; none] raw index -/
  index : Nat := 0
  /-- [64 bits; 04 R131; none] sample instant, tick -/
  tick : Nat := 0
  /-- [17 bits signed; 04 R131; none] raw code -/
  code : Int := 0
  /-- [3 bits; 04 R131; none] OVR, RCV, CLIP -/
  flags : Nat := 0
  deriving DecidableEq, Repr, Inhabited

/-- Sums over the complete cycles of a checker dwell or a probation (R346, R347, R353). -/
structure Comparison where
  /-- [32 bits; 11 R346; 0] complete cycles compared -/
  cycles : Nat := 0
  /-- [64 bits; 11 Table 11.3; 0] one-cycle RMS results of the home channel, summed, 1/256 raw LSB -/
  homeRms : Nat := 0
  /-- [64 bits; 11 Table 11.3; 0] those of the lane -/
  laneRms : Nat := 0
  /-- [96 bits signed; 11 Table 11.3; 0] sum of the home samples -/
  home : Int := 0
  /-- [96 bits signed; 11 Table 11.3; 0] sum of the lane samples -/
  lane : Int := 0
  /-- [96 bits; 11 Table 11.3; 0] sum of the squares of the home samples -/
  homeSquares : Int := 0
  /-- [96 bits; 11 Table 11.3; 0] sum of the squares of the lane samples -/
  laneSquares : Int := 0
  /-- [96 bits signed; 11 Table 11.3; 0] sum of the products -/
  products : Int := 0
  /-- [number; 11 Table 11.3; 0] running moment of the cross-correlation -/
  moment : Nat := 0
  deriving DecidableEq, Repr, Inhabited

/-- A change of the unit that delivers a channel. Each stream changes over at one sample instant of its own (R149). -/
structure Carriage where
  /-- [64 bits; 05 R149; none] tick from which raw samples come from the unit -/
  raw : Nat := 0
  /-- [64 bits; 05 R149; none] tick from which wideband samples do -/
  wide : Nat := 0
  /-- [64 bits; 05 R149; none] tick from which narrowband samples do -/
  narrow : Nat := 0
  /-- [64 bits; 05 R149; none] tick from which synchronous samples do -/
  sync : Nat := 0
  /-- [5 bits or none; 05 R149, R150; none] unit, or none -/
  unit : Option Nat := none
  deriving DecidableEq, Repr, Inhabited

/-- One input channel: its configuration and its state as the host sees it (R100, R101). -/
structure Channel where
  /-- [1 bit; 14 R437; true] enabled -/
  enabled : Bool := true
  /-- [2 bits; 14 R437; 0] range mode of Table 3.3 -/
  rangeMode : Nat := 0
  /-- [1 bit; 11 R342; false, R411] repair holds the range mode -/
  repairMode : Bool := false
  /-- [1 bit; 14 R437; false] narrowband forwarding -/
  forwarding : Bool := false
  /-- [carrier; 03 Table 3.9; home] carrier -/
  carrier : Carrier := .home
  /-- [1 bit; 11 R352; false, R411] lost -/
  lost : Bool := false
  /-- [64 bits; 16 Table 16.24; 0, R411] lost since -/
  lostSince : Nat := 0
  /-- [1 bit; 11 R348; false, R411] suspect mark of the checker -/
  suspect : Bool := false
  /-- [1 bit; 11 Table 11.2; false, R411] the checker has confirmed the home channel as faulty (R348) -/
  faulty : Bool := false
  /-- [1 bit; 05 R150; false, R411] out of its streams: an unbridged interruption or a settling switch -/
  interrupted : Bool := false
  /-- [32 bits; 03 R82; 0, R411] over-range episodes since reset -/
  episodes : Nat := 0
  /-- [32 bits; 03 R82; 0, R411] episodes merged since reset -/
  merged : Nat := 0
  /-- [32 bits; 03 R82; 0, R411] episodes merged since the previous over-range event -/
  mergedSince : Nat := 0
  /-- [1 bit; 03 R80; false, R411] an over-range episode runs -/
  inEpisode : Bool := false
  /-- [64 bits; 03 R82; none, R411] tick of the previous over-range event's timestamp -/
  lastOver : Option Nat := none
  /-- [32 bits; 03 Table 3.9; 0, R411] CLIP samples, saturating -/
  clips : Nat := 0
  /-- [window; 03 R94; low -65,536, high +65,535, dwell 1] fast window -/
  fast : Window := { low := -65536, high := 65535, dwell := 1 }
  /-- [window; 03 R94; low 0, high 65,535] slow window -/
  slow : Window := {}
  /-- [64 x 32 bits; 04 R113; identity] bank A -/
  bankA : List Int := identityBank
  /-- [64 x 32 bits; 04 R113; identity] bank B -/
  bankB : List Int := identityBank
  /-- [1 bit; 04 R113; 0 A] active bank -/
  active : Nat := 0
  /-- [record; 04 R116; none, R411] running fade -/
  fade : Option Swap := none
  /-- [record; 04 R115; none, R411] pending swap -/
  swap : Option Swap := none
  /-- [16 bits; 04 R130; 1,000] peak window, ms -/
  peakMs : Nat := 1000
  /-- [4 bits; 04 R130; 2] attack shift -/
  attack : Nat := 2
  /-- [5 bits; 04 R130; 12] decay shift -/
  decay : Nat := 12
  /-- [18 bits signed; 04 R126; 0, R411] host part of the delay trim, 0.25 ns steps -/
  hostDelay : Int := 0
  /-- [list of 18 bits signed and 64 bits; 04 R126; empty, R411] host parts that wait for a cycle starting after their ticks, oldest first -/
  nextDelay : List (Int × Nat) := []
  /-- [16 entries; 05 R149, R150; empty, R411] units that deliver the channel, newest first -/
  carriage : List Carriage := []
  /-- [peak; 04 R131; R411] window peak in progress -/
  windowPeak : Peak := {}
  /-- [64 bits; 04 R131; 0, R411] start of the window in progress, UTC -/
  windowAt : Nat := 0
  /-- [262,144 samples; 04 R131; empty, R411] raw samples the next half-cycle peaks cover, newest first -/
  cycleRaw : List RawSeen := []
  /-- [1 bit; 11 R351; false, R411] missing synchronous samples are replayed: a die substitution settles -/
  replaying : Bool := false
  /-- [4,096 samples; 04 Table 4.12; empty, R411] wideband history on S, oldest first -/
  wide : List StreamSample := []
  /-- [24,576 steps; 05 R152; empty, R411] ticks and squared steps of consecutive wideband samples of the last 49 ms, newest first -/
  steps : List (Nat × Nat) := []
  /-- [4,096 samples; 04 Table 4.12; empty, R411] narrowband history on S, oldest first -/
  narrow : List StreamSample := []
  /-- [4,096 samples; 04 Table 4.12; empty, R411] synchronous history on S, oldest first -/
  sync : List StreamSample := []
  /-- [64 results; 04 Table 4.12; empty, R411] half-cycle peaks -/
  halfPeaks : List DetectorResult := []
  /-- [16 results; 04 Table 4.12; empty, R411] window peaks -/
  windowPeaks : List DetectorResult := []
  /-- [64 results; 04 Table 4.12; empty, R411] one-cycle RMS results -/
  rms : List DetectorResult := []
  /-- [64 results; 04 Table 4.12; empty, R411] envelope block maxima -/
  envelopes : List DetectorResult := []
  /-- [6 bits; 05 R155; 0, R411] consecutive RMS results above four times the recorded excitation -/
  excessRun : Nat := 0
  /-- [1 bit; 05 R155; armed: false] the new-sweep recommendation has been raised -/
  recommended : Bool := false
  /-- [32 bits; 11 R339; 0, R411] samples patched since reset -/
  patched : Nat := 0
  /-- [sums; 11 R346, R353; none, R411] home and lane streams compared in the dwell or probation in progress -/
  compared : Comparison := {}
  /-- [3 x binary32; 16 Table 16.24; 0, R411] last dwell: RMS difference, 1 - rho, delay in ns -/
  dwell : F32 × F32 × F32 := (0, 0, 0)
  /-- [64 bits; 16 Table 16.24; 0, R411] end of the last dwell -/
  dwellTime : Nat := 0
  deriving DecidableEq, Repr, Inhabited

/-- A sample whose slice pair disagrees and which waits for its successor (R339). -/
structure HeldSample where
  /-- [64 bits; 11 R339; none] raw index -/
  index : Nat := 0
  /-- [64 bits; 11 R339; none] tick of the sample -/
  tick : Nat := 0
  /-- [17 bits signed; 11 R339; none] low-bench code x 32 -/
  low32 : Int := 0
  /-- [12 bits signed; 11 R339; none] high-bench code -/
  high : Int := 0
  /-- [3 bits; 03 R78; none] CLIP, OVR, RCV flags -/
  flags : Nat := 0
  /-- [1 bit; 11 R339; none] the pair disagrees; false where the sample only stands at the position of a failed slice (R340) -/
  disagrees : Bool := false
  deriving DecidableEq, Repr, Inhabited

/-- A blame of a slice (R339, R340). -/
structure Blame where
  /-- [3 bits; 11 R339; none] element 0-7 -/
  element : Nat := 0
  /-- [64 bits; 11 R340; none] raw index of the sample -/
  index : Nat := 0
  deriving DecidableEq, Repr, Inhabited

/-- A job of a belvedere lane (Table 11.2): precedence 1-5. -/
structure LaneJob where
  /-- [3 bits; 11 Table 11.2; none] precedence -/
  prec : Nat := 5
  /-- [5 bits; 11 R344; none] channel the lane serves -/
  channel : Nat := 0
  deriving DecidableEq, Repr, Inhabited

/-- The trims of a converter unit and what the last sweep gave (Table 5.1, Table 16.12). Trims stand in the
order offsets 0-7, gains 0-7, skews 0-7, bench ratio, delay. -/
structure Calibration where
  /-- [26 x 16 bits signed; 05 R165; factory values of vault OTP (log 18), loaded at START_UP] targets in force -/
  target : List Int := List.replicate 26 0
  /-- [26 x 16 bits signed; 05 R160; as targets] values a ramp started from -/
  old : List Int := List.replicate 26 0
  /-- [26 x 7 bits; 05 R160; 64: no ramp runs, R411] ramp step each trim has reached, 0-64 -/
  step : List Nat := List.replicate 26 64
  /-- [26 x 64 bits; 05 R160; 0, R411] tick from which each trim's ramp counts -/
  rampAt : List Nat := List.replicate 26 0
  /-- [8 entries; 05 R160, R161; empty, R411] ramps of the delay before the last one: from, to, step reached and start, newest first -/
  prior : List (Int × Int × Nat × Nat) := []
  /-- [2 bits; 05 R163; 0 factory] source of the last change -/
  source : Nat := 0
  /-- [8 nibbles; 05 R163; 0, R411] outcome of each kind of the last sweep -/
  outcomes : List Nat := List.replicate 8 0
  /-- [26 x 16 bits signed; 05 R163; 0, R411] results of the last sweep -/
  last : List Int := List.replicate 26 0
  /-- [8 x 32 bits; 05 R154; 46,341 x 256 (R155)] excitation of the values in force of each kind, 1/256 raw LSB -/
  excite : List Nat := List.replicate 8 11863296
  /-- [2 x 32 bits; 05 R154; 0, R411] slope of the low-bench and of the high-bench skews in force, mV/s -/
  slopes : List Nat := [0, 0]
  /-- [32 bits; 05 Table 5.12; 0, R411] overlap samples of the ratio in force -/
  overlap : Nat := 0
  /-- [4 x 64 bits; 05 Table 5.12; 0, R411] times of offset and gain, skew, ratio, delay -/
  times : List Nat := [0, 0, 0, 0]
  /-- [12 bits; 05 R163; 0, R411] die temperature code at the last sweep -/
  temperature : Nat := 0
  /-- [12 bits; 05 Table 5.12; 0, R411] die temperature code of the sweep that set offset and gain -/
  setTemperature : Nat := 0
  /-- [1 bit; 05 Table 5.12; false, R411] SKEW_WITHHELD: the last skew result took outcome 4 -/
  withheld : Bool := false
  /-- [1 bit; 05 Table 5.12; true] all values are factory values -/
  factory : Bool := true
  deriving DecidableEq, Repr, Inhabited

/-- A span of raw indices, both ends included (R129). -/
structure Span where
  /-- [64 bits; 04 R129; none] first raw index -/
  first : Nat := 0
  /-- [64 bits; 04 R129; none] last raw index -/
  last : Nat := 0
  deriving DecidableEq, Repr, Inhabited

/-- One converter: the home converter of CH0-CH23 (units 0-23) or a belvedere lane (units 24-29). -/
structure Converter where
  /-- [64 bits; 04 R106; 0, R411] raw index of the next sample -/
  index : Nat := 0
  /-- [1 bit; 03 R76; false, R411] the high bench saturated on the previous sample -/
  prevHighSat : Bool := false
  /-- [17 bits signed; 11 R339; 0, R411] raw code of the previous sample -/
  prevCode : Int := 0
  /-- [record; 11 R339; none, R411] disagreeing sample waiting for its successor -/
  held : Option HeldSample := none
  /-- [5 bits; 03 R80; 0, R411] RCV samples still to come -/
  rcvLeft : Nat := 0
  /-- [list; 04 R129; empty, R411] recent over-range spans, newest first -/
  overSpans : List Span := []
  /-- [list; 04 Table 4.2; empty, R411] recent spans with CLIP, newest first -/
  clipSpans : List Span := []
  /-- [8 bits; 11 R340; none, R411] elements failed and not yet excluded: their samples are patched -/
  failing : List Nat := []
  /-- [8 bits; 11 R340; none, R411] elements excluded -/
  excluded : List Nat := []
  /-- [1 bit; 11 R342; false, R411] the low bench has failed -/
  lowFailed : Bool := false
  /-- [1 bit; 11 R342; false, R411] the high bench has failed -/
  highFailed : Bool := false
  /-- [list; 11 R340; empty, R411] blames of the last 4,096 conversions -/
  blames : List Blame := []
  /-- [8 x 32 bits; 16 Table 16.24; 0, R411] blames of each element since reset -/
  blamed : List Nat := List.replicate 8 0
  /-- [8 x (12 + 17 bits); 11 R340; 0, R411] last code of each element and the run of equal codes -/
  stuck : List (Int × Nat) := List.replicate 8 (0, 0)
  /-- [8 x (12 + 12 bits); 11 R340; 0, R411] least and greatest code of each element during the run of the others -/
  spread : List (Int × Int) := List.replicate 8 (0, 0)
  /-- [64 bits signed; 04 R127; 0, R411] first wideband index suppressed -/
  wideSince : Int := 0
  /-- [64 bits signed; 04 R127; 0, R411] first wideband index after it not suppressed -/
  wideFrom : Int := 0
  /-- [64 bits signed; 04 R127; 0, R411] first narrowband index not suppressed -/
  narrowFrom : Int := 0
  /-- [8 indices; 04 R127; empty, R411] first narrowband samples after a gap, newest first -/
  runs : List Int := []
  /-- [64 bits signed or none; 04 R127; none, R411] the run of narrowband samples whose 48 synchronous samples are suppressed or have been -/
  syncRun : Option Int := none
  /-- [6 bits; 04 R127; 0, R411] synchronous samples of that run still to be suppressed -/
  syncLeft : Nat := 0
  /-- [64 bits signed; 04 R106; 0, R411] index of the next wideband sample -/
  wideIndex : Int := 0
  /-- [64 bits signed; 04 R106; 0, R411] index of the next narrowband sample -/
  narrowIndex : Int := 0
  /-- [64 ratios; 04 R112; empty, R411] decimator outputs the equaliser reads, newest first -/
  taps : List Rat := []
  /-- [ratio; 04 R133; 0, R411] envelope e -/
  envelope : Rat := 0
  /-- [1 bit; 04 R133; false, R411] the block of 256 has a sample -/
  envelopeAny : Bool := false
  /-- [ratio; 04 R133; 0, R411] largest e of the block of 256 -/
  envelopeMax : Rat := 0
  /-- [8 bits; 04 R133; 0, R411] OR of the flags of the block -/
  envelopeFlags : Nat := 0
  /-- [64 bits signed; 04 R133; 0, R411] number of the block of 256 that the last sample fell in -/
  envelopeAt : Int := 0
  /-- [2,048 samples; 04 R108, R109; empty, R411] raw samples that the decimators' windows reach, newest first -/
  raw : List RawSeen := []
  /-- [4,096 samples; 04 R124; empty, R411] narrowband samples the die keeps for the resampler, newest first -/
  narrow : List StreamSample := []
  /-- [5 bits or none; 03 Table 3.9; none, R411] channel a lane selects -/
  selects : Option Nat := none
  /-- [64 bits or none; 05 R149; none, R411] tick until which a lane that has handed a channel back goes on for the instants before -/
  lingers : Option Nat := none
  /-- [job; 11 R344; none, R411] job of a lane -/
  job : Option LaneJob := none
  /-- [1 bit; 11 R348; true] a lane is in service, not excluded -/
  inService : Bool := true
  /-- [trims; 05 Table 5.1; factory] calibration -/
  cal : Calibration := {}
  deriving DecidableEq, Repr, Inhabited

/-- A conversion queued at a side slice (R85). -/
structure Conv where
  /-- [4 bits; 03 Table 3.6; none] input code -/
  input : Nat := 0
  /-- [1 bit; 03 R86; none] asked for by INJECT, otherwise by a trigger -/
  injected : Bool := false
  /-- [1 bit; 05 R146; none] asked for by a sweep -/
  sweep : Bool := false
  /-- [1 bit; 03 R86; none] last entry of its list -/
  last : Bool := false
  /-- [64 bits; 03 R87; none] tick at which it joined the queue -/
  at_ : Nat := 0
  /-- [3 bits; 03 R86; none] session whose INJECT asked for it -/
  session : Nat := 0
  deriving DecidableEq, Repr, Inhabited

/-- A finished conversion (R84). -/
structure ConvResult where
  /-- [4 bits; 03 Table 3.6; none] input code -/
  input : Nat := 0
  /-- [12 bits; 03 Table 3.6; none] code -/
  code : Nat := 0
  /-- [64 bits; 03 R84; none] timestamp of the sample instant -/
  time : Nat := 0
  deriving DecidableEq, Repr, Inhabited

/-- Trigger settings of a consumer (R89, R90): a side slice or a capture ring. -/
structure Trigger where
  /-- [8 bits; 03 Table 3.7; 00h, R411] source -/
  source : Nat := 0
  /-- [16 bits; 03 R90; 0, R411] delay, 250 ns steps -/
  delay : Nat := 0
  /-- [4 x 8 bits; 03 Table 3.6; empty, R411] input codes (side slice only) -/
  codes : List Nat := []
  /-- [64 bits; 03 R90; none, R411] tick of the action whose delay runs -/
  actAt : Option Nat := none
  /-- [64 bits; 03 R93; none, R411] source instant of that action, quarter ticks -/
  sourceAt : Nat := 0
  /-- [64 bits; 03 R93; 0, R411] instant of the last action that has been taken, quarter ticks -/
  acted : Nat := 0
  deriving DecidableEq, Repr, Inhabited

/-- The side slice of an acquisition die (R83-R88). -/
structure SideSlice where
  /-- [4 entries; 03 R85; empty, R411] conversion queue -/
  queue : List Conv := []
  /-- [trigger; 03 R89; none, R411] trigger settings -/
  trigger : Trigger := {}
  /-- [32 bits; 03 Table 3.9; 0, R411] triggers missed since reset -/
  missed : Nat := 0
  /-- [32 bits; 03 R86; 0, R411] triggers missed since the last completion event -/
  missedSince : Nat := 0
  /-- [4 results; 03 R86; empty, R411] results of the trigger list being converted -/
  triggered : List ConvResult := []
  /-- [4 results; 03 R86; empty, R411] results of the INJECT list being converted -/
  injected : List ConvResult := []
  /-- [64 bits; 03 R84; 0, R411] tick at which the next conversion may start -/
  freeAt : Nat := 0
  deriving DecidableEq, Repr, Inhabited

/-- A trigger timer (R91). -/
structure Timer where
  /-- [2 bits; 03 R91; 0 off, R411] mode: 0 off, 1 one-shot, 2 periodic -/
  mode : Nat := 0
  /-- [64 bits; 03 R91; 0, R411] next firing, tick -/
  next : Nat := 0
  /-- [32 bits; 03 R91; 0, R411] period P, ticks -/
  period : Nat := 0
  deriving DecidableEq, Repr, Inhabited

/-- One lane of a Varfin link (R22-R24). -/
structure LinkLane where
  /-- [1 bit; 01 R23; true] in service -/
  up : Bool := true
  /-- [1 bit; 01 R24; false, R411] retrained and carrying link-test frames -/
  testing : Bool := false
  /-- [64 bits; 01 R24; 0, R411] tick of the loss, of the last retrain, or of the start of the link test -/
  since : Nat := 0
  /-- [5 bits; 01 R23; 0, R411] consecutive frames that failed on the lane -/
  failed : Nat := 0
  deriving DecidableEq, Repr, Inhabited

/-- A frame kept in a replay buffer until acknowledged (R22). -/
structure HeldFrame where
  /-- [sequence; 01 R22; none] number of the frame on its link -/
  seq : Nat := 0
  /-- [1 bit; 01 R22; none] lane it was last sent on -/
  lane : Nat := 0
  /-- [64 bits; 01 R22; none] tick at which it was last sent -/
  sentAt : Nat := 0
  /-- [3 bits; 01 R22; none] failures on that lane -/
  failures : Nat := 0
  deriving DecidableEq, Repr, Inhabited

/-- The Varfin link between S and a die 1-7 (R21-R26). -/
structure Link where
  /-- [2 lanes; 01 R23; both up] lanes -/
  lanes : List LinkLane := [{}, {}]
  /-- [32 frames; 01 R22; empty, R411] replay buffer, oldest first -/
  replay : List HeldFrame := []
  /-- [count; 01 R21; 0, R411] frames delivered, in order and once each: the next sequence expected -/
  delivered : Nat := 0
  /-- [32 frames; 01 R21; empty, R411] frames received with a good CRC ahead of the next one expected -/
  ahead : List Nat := []
  /-- [64 bits; 01 Table 1.2; none, R411] tick at which the whole link was lost -/
  lostAt : Option Nat := none
  deriving DecidableEq, Repr, Inhabited

/-- Corrected errors of one 64 KiB region (R335). -/
structure Region where
  /-- [index; 11 R335; none] region -/
  index : Nat := 0
  /-- [32 bits; 11 R335; 0, R411] corrected errors in the hour -/
  count : Nat := 0
  /-- [64 bits; 11 R335; 0, R411] start of the hour, tick -/
  since : Nat := 0
  /-- [64 bits; 11 R335; none, R411] tick of the last event source 152 -/
  raisedAt : Option Nat := none
  deriving DecidableEq, Repr, Inhabited

/-- One die 0-7. -/
structure Die where
  /-- [2 bits; 16 R502; 0 in service] 0 in service, 1 failed, 2 probation, 3 out of service -/
  state : Nat := 0
  /-- [3 bits; 11 R353; 5] return tries left -/
  retries : Nat := 5
  /-- [64 bits; 16 Table 16.24; 0, R411] failed since, timestamp -/
  failedSince : Nat := 0
  /-- [64 bits; 11 R353; 0, R411] tick of the next return try, or at which probation began -/
  tryAt : Nat := 0
  /-- [1 bit; 11 R357; false, R411] substituted by FORCE_SUBSTITUTE action 2 -/
  forced : Bool := false
  /-- [32 bits; 04 R106; 0] epoch count -/
  epoch : Nat := 0
  /-- [64 bits; 04 R106; 0, R411] tick of raw instant 0 of the epoch -/
  epochTick : Nat := 0
  /-- [64 bits; 04 R106; none, R411] number of the first locked cycle of the epoch, none until there is one -/
  cycleBase : Option Nat := none
  /-- [6 bits; 11 R356; 0] checker skip mask -/
  skip : Nat := 0
  /-- [32 bits; 16 Table 16.24; 0, R411] corrected memory errors -/
  corrected : Nat := 0
  /-- [32 bits; 16 Table 16.24; 0, R411] uncorrectable memory errors -/
  uncorrectable : Nat := 0
  /-- [list; 11 R335; empty, R411] regions with corrected errors in the hour -/
  regions : List Region := []
  /-- [link; 01 R21; both lanes up] link to S (dies 1-7) -/
  link : Link := {}
  /-- [side slice; 03 R83; R411] side slice (dies 1-5) -/
  side : SideSlice := {}
  deriving DecidableEq, Repr, Inhabited

/-- A known end of a synchronous cycle (R122, R124). -/
structure CycleEnd where
  /-- [64 bits; 04 R121; none] the instant, 1/512 tick -/
  at512 : Nat := 0
  /-- [1 bit; 04 R124; none] the cycle that ends here is a holdover cycle -/
  hold : Bool := false
  /-- [1 bit; 04 R123; none] it is anchored to a fallback -/
  alt : Bool := false
  deriving DecidableEq, Repr, Inhabited

/-- The frequency tracker (R120-R124). -/
structure Tracker where
  /-- [2 bits; 04 Table 4.8; 0 acquiring] 0 acquiring, 1 locked, 2 holdover -/
  state : Nat := 0
  /-- [5 bits or FFh; 16 Table 16.5; FFh, R411] channel in use -/
  channel : Nat := 255
  /-- [5 bits; 04 R120; 0 CH0] reference channel -/
  reference : Nat := 0
  /-- [2 x 8 bits; 04 R120; FFh FFh] fallback channels -/
  fallbacks : List Nat := [255, 255]
  /-- [16 bits; 04 R120; 4,634] threshold, raw LSB RMS -/
  threshold : Nat := 4634
  /-- [list of channel and 3 crossings; 04 R123; empty, R411] last crossings of the channels tested, in 1/512 tick
  with their validity, newest first -/
  chains : List (Nat × List (Nat × Bool)) := []
  /-- [channel and 64 bits; 04 R124; none, R411] candidate that has qualified in holdover, and B, in 1/512 tick -/
  leaving : Option (Nat × Nat) := none
  /-- [64 bits; 04 R122; 0, R411] start C_c of the cycle in progress, 1/512 tick -/
  start : Nat := 0
  /-- [list; 04 R122; empty, R411] known ends of the cycle in progress and of those after it, oldest first -/
  ends : List CycleEnd := []
  /-- [64 bits; 04 R106; 0, R411] number of the cycle in progress -/
  cycle : Nat := 0
  /-- [32 bits; 04 R123; 0, R411] last locked period P_L, 1/512 tick -/
  period : Nat := 0
  /-- [32 bits; 09 R282; 0, R411] the locked period before it, 1/512 tick -/
  before : Nat := 0
  /-- [64 bits; 04 R121; 0, R411] last valid crossing on the channel in use, 1/512 tick -/
  lastCrossing : Nat := 0
  /-- [1 bit; 04 R124; false, R411] the last cycle produced was a holdover cycle -/
  hold : Bool := false
  /-- [1 bit; 04 R123; false, R411] the last cycle produced was anchored to a fallback -/
  alt : Bool := false
  deriving DecidableEq, Repr, Inhabited

/-- A stored raw sample of a transient buffer (Table 4.13). -/
structure RawStored where
  /-- [64 bits; 04 R137; none] raw index -/
  index : Nat := 0
  /-- [3 bits; 04 Table 4.13; none] unit -/
  unit : Nat := 0
  /-- [17 bits signed; 04 Table 4.13; none] raw code -/
  code : Int := 0
  /-- [1 bit; 04 Table 4.13; none] OVR or RCV -/
  ranged : Bool := false
  deriving DecidableEq, Repr, Inhabited

/-- A drained capture on its way to its ring (R395): the header fields of Table 12.20 and the blocks. -/
structure PendingRecord where
  /-- [3 bits; 12 Table 12.20; none] die -/
  die : Nat := 0
  /-- [32 bits; 12 Table 12.20; none] epoch -/
  epoch : Nat := 0
  /-- [6 bits; 12 Table 12.20; none] units captured -/
  units : Nat := 0
  /-- [5 bits; 12 Table 12.20; none] pre-trigger -/
  pre : Nat := 0
  /-- [2 bits; 12 Table 12.20; none] cause -/
  cause : Nat := 0
  /-- [4 bits; 12 Table 12.20; none] flags -/
  flags : Nat := 0
  /-- [64 bits; 12 Table 12.20; none] first index -/
  firstIndex : Nat := 0
  /-- [64 bits; 12 Table 12.20; none] tick of the first index -/
  firstTick : Nat := 0
  /-- [64 bits; 12 Table 12.20; none] tick at which the trigger acted -/
  actedAt : Nat := 0
  /-- [16 bits; 12 Table 12.20; none] triggers missed -/
  missed : Nat := 0
  /-- [6 x 8 bits; 12 Table 12.20; none] excluded grid positions -/
  excluded : List Nat := []
  /-- [blocks of 260 bytes; 04 Table 4.13; none] blocks -/
  blocks : List (List Byte) := []
  deriving DecidableEq, Repr, Inhabited

/-- A capture ring's arm and its transient buffer (R136-R139). -/
structure Capture where
  /-- [3 bits; 04 R136; 0 idle, R411] 0 idle, 1 armed, 2 triggered, 3 draining -/
  phase : Nat := 0
  /-- [3 bits; 04 R136; 0, R411] die 1-5 -/
  die : Nat := 0
  /-- [6 bits; 04 R136; 0, R411] units captured -/
  units : Nat := 0
  /-- [5 bits; 04 R136; 0, R411] pre-trigger length, sixteenths -/
  pre : Nat := 0
  /-- [3 bits; 16 Table 16.7; 0, R411] options: fast window, over-range, REPEAT -/
  options : Nat := 0
  /-- [trigger; 04 R136; R411] trigger source and delay -/
  trigger : Trigger := {}
  /-- [192 KiB; 04 R137; empty, R411] samples recorded, newest first -/
  buffer : List RawStored := []
  /-- [64 bits; 04 R136; 0, R411] tick at which the trigger acted -/
  actedAt : Nat := 0
  /-- [2 bits; 12 Table 12.20; 0, R411] cause -/
  cause : Nat := 0
  /-- [64 bits; 04 R136; 0, R411] raw index at which the post-trigger length is complete -/
  lastIndex : Nat := 0
  /-- [64 bits; 04 R136; 0, R411] raw index of the first sample of the capture -/
  firstIndex : Nat := 0
  /-- [16 bits; 12 Table 12.20; 0, R411] triggers missed while a delay ran or the buffer drained (R93, R138) -/
  missed : Nat := 0
  /-- [1 bit; 04 R139; false, R411] truncated by a SYNC -/
  truncated : Bool := false
  /-- [1 bit; 12 Table 12.20; false, R411] a captured channel was carried by a lane -/
  subst : Bool := false
  /-- [1 bit; 12 Table 12.20; false, R411] a captured bench ran on three slices at the freeze -/
  sliced : Bool := false
  /-- [6 x 8 bits; 12 Table 12.20; empty, R411] excluded grid positions at the freeze -/
  excluded : List Nat := []
  /-- [32 bits; 12 Table 12.20; 0, R411] epoch of the captured samples -/
  epoch : Nat := 0
  /-- [64 bits; 12 Table 12.20; 0, R411] tick of raw instant 0 of that epoch -/
  epochTick : Nat := 0
  /-- [quarter bits; 01 R26; 0, R411] contents still to drain, as of `drainAt` -/
  drainLeft : Nat := 0
  /-- [64 bits; 01 R26; 0, R411] tick at which `drainLeft` held -/
  drainAt : Nat := 0
  /-- [list; 12 R395; empty, R411] drained captures not yet complete in the ring, oldest first -/
  writing : List PendingRecord := []
  deriving DecidableEq, Repr, Inhabited

/-- An accepted CAL_SWEEP (R144, R145). -/
structure SweepOp where
  /-- [16 bits; 02 R54; none] operation tag -/
  tag : Nat := 0
  /-- [16 bits; 05 R144; none] handle named -/
  handle : Nat := 0
  /-- [3 bits; 05 R144; none] session -/
  session : Nat := 0
  /-- [1 bit; 05 R157; none] FORCE -/
  force : Bool := false
  /-- [5 bits or FFh; 05 R144; none] excitation channel of a lane sweep -/
  excitation : Nat := 0
  /-- [0-6 units; 05 R145; none] converter units still to sweep, in order -/
  units : List Nat := []
  /-- [3 bits; 16 Table 16.3; 0] channels or lanes completed -/
  completed : Nat := 0
  /-- [3 bits; 16 Table 16.3; 0] those that passed R152 -/
  passed : Nat := 0
  /-- [3 bits; 05 R145; 0] channels or lanes whose turn started a sweep -/
  swept : Nat := 0
  /-- [1 bit; 05 R151; false] a lane has been selected for it -/
  selected : Bool := false
  deriving DecidableEq, Repr, Inhabited

/-- The running moments of a sweep's capture (R142, R152). -/
structure SweepMoments where
  /-- [18 bits; 05 R152; 0] samples of the capture -/
  samples : Nat := 0
  /-- [18 bits; 05 R152; 0] low-bench samples with the saturation bit set -/
  clipped : Nat := 0
  /-- [1 bit; 05 R152; false] a sample had OVR or RCV set -/
  overRange : Bool := false
  /-- [52 bits; 05 R152; 0] sum of the squares of the raw codes -/
  squares : Nat := 0
  /-- [18 bits; 05 R153; 0] high-bench samples with the saturation bit clear -/
  highValid : Nat := 0
  /-- [18 bits; 05 R142; 0] overlap samples -/
  overlap : Nat := 0
  /-- [2 x 52 bits signed; 05 R142; 0] over them, the sums of 32 x low x high and of high x high -/
  ratio : Int × Int := (0, 0)
  /-- [8 x (18, 52, 52 bits); 05 R142; 0] code distributions of the first half: count, sum and sum of squares of each element -/
  codes : List (Nat × Int × Int) := List.replicate 8 (0, 0, 0)
  /-- [8 moments; 05 R142; DESIGN CHOICE 0 (log 76)] running moment of each element's skew over both halves, as one number -/
  skews : List Nat := List.replicate 8 0
  deriving DecidableEq, Repr, Inhabited

/-- The next channel of a die sweep, whose turn has come during the interruption of the current one (R151). -/
structure SweepNext where
  /-- [5 bits; 05 R151; none] unit -/
  unit : Nat := 0
  /-- [3 bits or none; 05 R151, R162; none] lane that correlates it; none once the lane has been taken -/
  lane : Option Nat := none
  /-- [26 x 16 bits; 05 R156; none] targets in force at its turn -/
  base : List Int := []
  /-- [13 x 16 bits; 05 R164; none] limits in force at its turn -/
  limits : List Nat := []
  /-- [12 bits; 05 R146; none] temperature code converted for it -/
  temperature : Nat := 0
  /-- [12 bits; 05 R146; none] reference code converted for it -/
  reference : Nat := 0
  deriving DecidableEq, Repr, Inhabited

/-- A unit whose capture has ended and whose outcome is not yet known (R147). -/
structure SweepDone where
  /-- [5 bits; 05 R147; none] unit -/
  unit : Nat := 0
  /-- [26 x 16 bits; 05 R156; none] targets in force when its sweep started -/
  base : List Int := []
  /-- [13 x 16 bits; 05 R164; none] limits in force when its sweep started -/
  limits : List Nat := []
  /-- [16 bits signed or none; 05 R147; none] delay trim that the correlation gave, 0.25 ns steps -/
  delay : Option Int := none
  /-- [32 bits; 05 R152; none] RMS slope, mV/s -/
  slope : Nat := 0
  /-- [record; 05 R142; none] moments of its capture -/
  moments : SweepMoments := {}
  /-- [12 bits; 05 R146; none] temperature code converted for the sweep -/
  temperature : Nat := 0
  deriving DecidableEq, Repr, Inhabited

/-- The sweep sequencer (R145-R151). -/
structure SweepState where
  /-- [8 operations; 05 R145; empty, R411] waiting operations, in the order accepted -/
  queue : List SweepOp := []
  /-- [operation; 05 R145; none, R411] operation running -/
  running : Option SweepOp := none
  /-- [5 bits or none; 05 R147; none, R411] unit under sweep -/
  unit : Option Nat := none
  /-- [3 bits; 05 R147; 0, R411] 0 none, 1 correlating, 2 reconfiguring and first half, 3 second half, 4 restoring -/
  phase : Nat := 0
  /-- [5 bits or none; 05 R147; none, R411] lane that bridges or correlates -/
  lane : Option Nat := none
  /-- [record or none; 05 R151; none, R411] next channel of a die sweep -/
  next : Option SweepNext := none
  /-- [64 bits; 05 R147; 0, R411] earliest tick of the next phase -/
  dueAt : Nat := 0
  /-- [64 bits; 05 R148; 0, R411] tick at which the interruption started -/
  since : Nat := 0
  /-- [16 bits signed or none; 05 R147; none, R411] delay trim that the correlation gave, 0.25 ns steps -/
  delay : Option Int := none
  /-- [record; 05 R142; 0, R411] moments of the capture -/
  moments : SweepMoments := {}
  /-- [2 x 5,888 samples; 05 R142, R147; empty, R411] unit, tick and value of the narrowband samples of the correlation phases that run -/
  heard : List (Nat × Nat × Int) := []
  /-- [1 bit; 05 R162; false, R411] the sweep was aborted and is restoring -/
  aborted : Bool := false
  /-- [26 x 16 bits; 05 R156; empty, R411] targets in force when the channel's sweep started -/
  base : List Int := []
  /-- [12 bits; 05 R146; 0, R411] temperature code converted for the sweep -/
  temperature : Nat := 0
  /-- [13 x 16 bits; 05 R164; empty, R411] limits in force when the unit's sweep started -/
  limits : List Nat := []
  /-- [record; 05 R147; none, R411] unit whose results are being computed -/
  computing : Option SweepDone := none
  /-- [12 bits; 05 R146; 0, R411] reference code converted for the sweep -/
  reference : Nat := 0
  deriving DecidableEq, Repr, Inhabited

/-- The thirteen limits of Table 5.8, in its order and steps. -/
def defaultCalLimits : List Nat := [192, 64, 750, 150, 600, 160, 750, 100, 320, 8, 328, 10, 40]

/-- A calibration slot in the store (Table 5.13). -/
structure CalSlot where
  /-- [1 bit; 05 Table 5.13; none] RESTORE_AT_BOOT -/
  atBoot : Bool := false
  /-- [32 bits; 05 Table 5.13; none] store count -/
  count : Nat := 0
  /-- [32 bits; 05 Table 5.13; none] generation -/
  generation : Nat := 0
  /-- [64 bits; 05 Table 5.13; none] time of CAL_STORE -/
  time : Nat := 0
  /-- [30 records; 05 Table 5.11; none] calibration of units 0-29 -/
  units : List Calibration := []
  deriving DecidableEq, Repr, Inhabited

/-- Part-wide calibration state (R164-R173). -/
structure CalState where
  /-- [32 bits; 05 R167; 0] generation -/
  generation : Nat := 0
  /-- [13 x 16 bits; 05 Table 5.8; defaults] limits -/
  limits : List Nat := defaultCalLimits
  /-- [2 slots; 05 R169; none valid at first power (log 19)] store slots; `none` is not valid -/
  slots : List (Option CalSlot) := [none, none]
  /-- [record; 05 R170; none, R411] running CAL_STORE: tag, slot, contents -/
  storing : Option (Nat × Nat × CalSlot) := none
  /-- [1 bit; 05 R171; false, R411] the running CAL_STORE was abandoned by a warning -/
  abandoned : Bool := false
  /-- [list; 05 R172; empty, R411] running CAL_RESTOREs, oldest first: tag, slot, contents, and whether the store was writable at its reply -/
  restoring : List (Nat × Nat × CalSlot × Bool) := []
  deriving DecidableEq, Repr, Inhabited

/-- A system of MEAS_CONFIG (Table 6.1). -/
structure SystemConfig where
  /-- [2 bits; 06 Table 6.1; 0 undefined] connection -/
  connection : Nat := 0
  /-- [binary32; 06 Table 6.1; 0 (undefined system)] Udin, V -/
  udin : F32 := 0
  deriving DecidableEq, Repr, Inhabited

/-- A channel of MEAS_CONFIG (Table 6.1). -/
structure ChannelConfig where
  /-- [3 bits; 06 R174; 0] role -/
  role : Nat := 0
  /-- [1 bit; 06 R174; 0] polarity -/
  polarity : Nat := 0
  /-- [8 bits; 06 R174; FFh] system -/
  system : Nat := 255
  /-- [2 bits; 06 Table 6.1; 0, R411] position -/
  position : Nat := 0
  /-- [2 bits; 06 R174; 0] flicker -/
  flicker : Nat := 0
  /-- [binary32; 06 R174; 1.0] scale -/
  scale : F32 := 0x3F800000#32
  deriving DecidableEq, Repr, Inhabited

/-- The measurement configuration (R174). -/
structure MeasConfig where
  /-- [1 bit; 06 R174; 0, 50 Hz] nominal frequency -/
  nominal : Nat := 0
  /-- [4 x 16 bits; 06 R174; 0] signalling frequencies, 0.1 Hz -/
  signalling : List Nat := [0, 0, 0, 0]
  /-- [8 systems; 06 R174; undefined] systems -/
  systems : List SystemConfig := List.replicate 8 {}
  /-- [24 channels; 06 R174; role 0] channels -/
  channels : List ChannelConfig := List.replicate 24 {}
  deriving DecidableEq, Repr, Inhabited

/-- Event detection parameters of a system (Table 6.4), in its steps. -/
structure PqParams where
  /-- [10 bits; 06 Table 6.4; 900] dip threshold, 0.1 % -/
  dip : Nat := 900
  /-- [11 bits; 06 Table 6.4; 1,100] swell threshold -/
  swell : Nat := 1100
  /-- [9 bits; 06 Table 6.4; 50] interruption threshold -/
  interruption : Nat := 50
  /-- [7 bits; 06 Table 6.4; 20] hysteresis -/
  hysteresis : Nat := 20
  /-- [1 bit; 06 Table 6.4; 0 Udin] dip reference -/
  sliding : Nat := 0
  /-- [7 bits; 06 Table 6.4; 50] RVC threshold -/
  rvc : Nat := 50
  /-- [7 bits; 06 Table 6.4; 20] RVC hysteresis -/
  rvcHysteresis : Nat := 20
  /-- [11 bits; 06 Table 6.4; 100] Pst limit, 0.01 -/
  pst : Nat := 100
  /-- [10 bits; 06 Table 6.4; 80] THD limit, 0.1 % -/
  thd : Nat := 80
  /-- [24 x 10 bits; 06 Table 6.4; 0 off] order limits h = 2-25 -/
  orders : List Nat := List.replicate 24 0
  /-- [8 bits; 06 Table 6.4; 20] unbalance limit, 0.1 % -/
  unbalance : Nat := 20
  /-- [8 bits; 06 Table 6.4; all on] enables, bit k source 82 + k -/
  enables : Nat := 0xFF
  deriving DecidableEq, Repr, Inhabited

/-- A dip, swell or interruption in progress on a system (R203). -/
structure Disturbance where
  /-- [2 bits; 06 R203; none] 0 dip, 1 swell, 2 interruption -/
  kind : Nat := 0
  /-- [3 bits; 06 R203; none] system -/
  system : Nat := 0
  /-- [64 bits; 06 R203; none] start, timestamp -/
  start : Nat := 0
  /-- [ratio; 06 R203; none] extreme value, V -/
  extreme : Rat := 0
  /-- [ratio; 06 R203; none] reference of the extreme, V -/
  reference : Rat := 0
  /-- [5 bits; 06 R203; none] channel of the extreme -/
  channel : Nat := 0
  /-- [16 bits; 06 R203; none] OR of the flags of the values used -/
  flags : Nat := 0
  /-- [1 bit; 06 R204; none] an interruption lay within the dip -/
  held : Bool := false
  deriving DecidableEq, Repr, Inhabited

/-- The rapid-voltage-change detector of a channel (R206). -/
structure RvcState where
  /-- [120 values; 06 R206; empty, R411] last half-cycle values, newest first -/
  last : List Rat := []
  /-- [1 bit; 06 R206; false, R411] an RVC runs -/
  running : Bool := false
  /-- [64 bits; 06 R206; 0, R411] start, timestamp -/
  start : Nat := 0
  /-- [ratio; 06 R206; 0, R411] mean before the change -/
  mean : Rat := 0
  /-- [ratio; 06 R206; 0, R411] largest deviation from it -/
  deviation : Rat := 0
  deriving DecidableEq, Repr, Inhabited

/-- One value of a measurement block (Table 6.12). -/
structure MeasValue where
  /-- [8 bits; 06 Table 6.11; none] 0 channel, 1 system, 2 part, 4 element, 16 + HARMONIC_READ type -/
  kind : Nat := 0
  /-- [8 bits; 06 Table 6.11; none] object -/
  object : Nat := 0
  /-- [8 bits; 06 Table 6.10; none] quantity, order or band -/
  quantity : Nat := 0
  /-- [16 bits; 06 Table 6.3; none] flags -/
  flags : Nat := 0
  /-- [16 bits; 06 Table 6.11; 1] constituents of an aggregated value -/
  parts : Nat := 1
  /-- [ratio or none; 06 R183, R185; none] value before its binary32 form; none where it is not formed -/
  exact : Option Rat := none
  deriving DecidableEq, Repr, Inhabited

/-- A level-0 value with its period (Table 6.9). -/
structure LatestValue where
  /-- [record; 06 R213; none] value -/
  value : MeasValue := {}
  /-- [32 bits; 06 Table 6.11; none] values formed at the level since reset -/
  sequence : Nat := 0
  /-- [64 bits; 06 Table 6.11; none] start, timestamp -/
  start : Nat := 0
  /-- [64 bits; 06 Table 6.11; none] end, timestamp -/
  stop : Nat := 0
  deriving DecidableEq, Repr, Inhabited

/-- A cycle of the synchronous grid that the DSP holds for the basic intervals in progress (R122, R179). -/
structure CycleRecord where
  /-- [32 bits; 04 R106; none] number of the cycle -/
  number : Nat := 0
  /-- [64 bits; 04 R122; none] start, 1/512 tick -/
  start : Nat := 0
  /-- [33 bits; 04 R122; none] length, 1/512 tick -/
  len : Nat := 0
  /-- [1 bit; 04 R123; none] holdover -/
  hold : Bool := false
  /-- [1 bit; 04 R123; none] anchored to a fallback -/
  alt : Bool := false
  /-- [24 x 1,024 samples; 04 R122; none] samples of each channel; none where one is missing -/
  samples : List (List (Option StreamSample)) := []
  /-- [list; 06 R208, R209; none] values of its elements and systems -/
  values : List MeasValue := []
  deriving DecidableEq, Repr, Inhabited

/-- A measurement block of one level (Table 6.11). -/
structure MeasBlock where
  /-- [32 bits; 06 Table 6.11; none] values formed at the level since reset -/
  sequence : Nat := 0
  /-- [64 bits; 06 Table 6.11; none] start, timestamp -/
  start : Nat := 0
  /-- [64 bits; 06 Table 6.11; none] end, timestamp -/
  stop : Nat := 0
  /-- [64 bits; 06 R180; none] tick of its start -/
  tick : Nat := 0
  /-- [16 bits; 06 Table 6.11; none] constituents -/
  parts : Nat := 0
  /-- [16 bits; 06 Table 6.3; none] flags of the block -/
  flags : Nat := 0
  /-- [list; 06 Table 6.12; none] values -/
  values : List MeasValue := []
  deriving DecidableEq, Repr, Inhabited

/-- A basic interval in progress (R179, R180). -/
structure BasicOpen where
  /-- [64 bits; 06 R179; none] start, timestamp -/
  start : Nat := 0
  /-- [64 bits; 06 R179; none] start of its first cycle, 1/512 tick -/
  from_ : Nat := 0
  /-- [64 bits; 06 R179; none] end of its last cycle, timestamp -/
  stop : Nat := 0
  /-- [32 bits; 06 R179; none] number of its first cycle -/
  first : Nat := 0
  /-- [4 bits; 06 R179; none] cycles it holds -/
  cycles : Nat := 0
  /-- [1 bit; 06 R185; none] closed by a SYNC -/
  cut : Bool := false
  deriving DecidableEq, Repr, Inhabited

/-- The objects that share one aggregation in progress (R177): a MEAS_CONFIG splits off those it touches. -/
structure Track where
  /-- [56 pairs; 06 R177; none] objects: (0, channel), (1, system), (4, element) -/
  objects : List (Nat × Nat) := []
  /-- [64 bits; 06 R177; none, R411] start, timestamp, where it is not that of the period -/
  start : Option Nat := none
  /-- [64 bits; 06 R177; 0, R411] tick from which constituents count -/
  since : Nat := 0
  /-- [16 bits; 06 R177; 0, R411] flags of its own -/
  flags : Nat := 0
  deriving DecidableEq, Repr, Inhabited

/-- Every object that a measurement configuration may define. -/
def everyObject : List (Nat × Nat) :=
  (List.range 24).map (fun n => (0, n)) ++ (List.range 8).map (fun k => (1, k)) ++ (List.range 24).map (fun n => (4, n))

/-- The flickermeter of a channel (R198). -/
structure FlickerMeter where
  /-- [state; 06 R198; DESIGN CHOICE 0 (log 74)] state of the weighting filters, as one number -/
  filter : Nat := 0
  /-- [250 samples; 06 R198; empty, R411] wideband samples of the input in progress, newest first: place and value -/
  input : List (Nat × Int) := []
  /-- [list of (ten minutes, class, count); 06 R198; empty, R411] class counts by the ten minutes in which they fall -/
  counts : List (Nat × Nat × Nat) := []
  /-- [list of (ten minutes, flags); 06 R198, Table 6.3; empty, R411] flags of its samples -/
  flags : List (Nat × Nat) := []
  /-- [list of (second, Pinst); 06 R198; empty, R411] largest Pinst of each UTC second not yet reported -/
  seconds : List (Nat × Rat) := []
  /-- [list of (second, flags); 06 R199, Table 6.3; empty, R411] flags of its samples by the UTC second in which they fall -/
  secondFlags : List (Nat × Nat) := []
  /-- [64 bits; 06 R184; none, R411] tick of the wideband sample that follows the last one taken -/
  next : Option Nat := none
  /-- [1 bit; 06 R199; true] its first Pst is still to come -/
  fresh : Bool := true
  deriving DecidableEq, Repr, Inhabited

/-- A clock adjustment, or a 10-minute boundary passed before one, whose values are still to be closed (R186). -/
structure ClockCut where
  /-- [1 bit; 06 R186; none] a clock adjustment, not a boundary -/
  step : Bool := true
  /-- [64 bits; 06 R186; none] tick of the adjustment -/
  tick : Nat := 0
  /-- [64 bits; 06 R186; none] the adjustment in old time -/
  stop : Nat := 0
  /-- [64 bits; 06 R186; none] the adjustment in new time -/
  start : Nat := 0
  deriving DecidableEq, Repr, Inhabited

/-- Energy of one element or system accumulated for one processing tick (R210). -/
structure TickAcc where
  /-- [64 bits; 06 R210; none] number of the processing tick: it starts at 160,000 x tick -/
  tick : Nat := 0
  /-- [ratio; 06 R210; 0] active energy, µWh -/
  active : Rat := 0
  /-- [ratio; 06 R210; 0] fundamental reactive energy, µvarh -/
  reactive : Rat := 0
  /-- [ratio; 06 R210; 0] apparent energy, µVAh -/
  apparent : Rat := 0
  /-- [10 bits; 06 R211; 0] OR of the flags of its samples (Table 4.2), bit 8 CARRIED, bit 9 GAP -/
  flags : Nat := 0
  deriving DecidableEq, Repr, Inhabited

/-- The DSP's integrator of one element, or of one system's Se (R210-R212). -/
structure Integrator where
  /-- [1 bit; 06 R210; none] a system's Se -/
  system : Bool := false
  /-- [5 bits; 06 Table 6.10; none] current channel of the element, or the system -/
  object : Nat := 0
  /-- [64 bits; 06 R212; none] end of the samples integrated so far, 1/524,288 tick -/
  covered : Nat := 0
  /-- [3 ratios; 06 R212; none, R411] P, Q1 and S of the last complete cycle -/
  last : Option (Rat × Rat × Rat) := none
  /-- [64 bits; 14 R429; none, R411] grid instant from which energy without samples is not carried: 100 ms after a VANA supply
  fault of a die that delivers one of its channels -/
  gapFrom : Option Nat := none
  /-- [3 ratios; 06 R210; 0, R411] remainders held back, µ-units -/
  rest : Rat × Rat × Rat := (0, 0, 0)
  /-- [64 ticks; 06 R210, 01 R17; empty, R411] ticks not yet closed -/
  ticks : List TickAcc := []
  deriving DecidableEq, Repr, Inhabited

/-- Energy of one element or system for one closed tick, in whole µ-units (R210). -/
structure TickEnergy where
  /-- [1 bit; 06 R210; none] a system's Se -/
  system : Bool := false
  /-- [5 bits; 06 R210; none] current channel, or the system -/
  object : Nat := 0
  /-- [64 bits signed; 06 R210; none] active energy, µWh -/
  active : Int := 0
  /-- [64 bits signed; 06 R210; none] reactive energy, µvarh -/
  reactive : Int := 0
  /-- [64 bits; 06 R210; none] apparent energy, µVAh -/
  apparent : Int := 0
  /-- [10 bits; 06 R211; none] OR of the flags of its samples (Table 4.2), bit 8 CARRIED, bit 9 GAP -/
  flags : Nat := 0
  deriving DecidableEq, Repr, Inhabited

/-- A closed processing tick on its way to P0 (R17, R211). -/
structure ClosedTick where
  /-- [64 bits; 01 R16; none] number of the tick -/
  tick : Nat := 0
  /-- [list; 06 R211; none] energies of its elements and systems -/
  energies : List TickEnergy := []
  deriving DecidableEq, Repr, Inhabited

/-- The vector DSP's measurement state (chapter 06). -/
structure MeasState where
  /-- [record; 06 R174; defaults] configuration in force -/
  config : MeasConfig := {}
  /-- [record; 06 R177; defaults] configuration last accepted -/
  accepted : MeasConfig := {}
  /-- [64 bits; 06 R177; none, R411] tick after which the accepted configuration takes effect -/
  acceptedAt : Option Nat := none
  /-- [8 records; 06 R201; defaults] event parameters of systems 0-7 -/
  pq : List PqParams := List.replicate 8 {}
  /-- [9 bits; 06 Table 6.4; 50] frequency band, 0.01 Hz -/
  band : Nat := 50
  /-- [1 bit; 06 Table 6.4; true] enable of source 86 -/
  bandOn : Bool := true
  /-- [24 ratios; 06 R205; 0 (no system defined)] sliding references U_sr -/
  sliding : List Rat := List.replicate 24 0
  /-- [list; 06 R203; empty, R411] dips, swells and interruptions in progress -/
  running : List Disturbance := []
  /-- [24 detectors; 06 R206; R411] rapid voltage changes -/
  rvc : List RvcState := List.replicate 24 {}
  /-- [list of (source, object); 06 R207; empty, R411] limit events raised and not re-armed -/
  outside : List (Nat × Nat) := []
  /-- [list of (system, start, end); 06 R184, R199; empty, R411] dips, swells and interruptions that have ended, timestamps -/
  past : List (Nat × Nat × Nat) := []
  /-- [list; 06 Table 6.9; empty, R411] level 0: latest half-cycle values and latest-cycle powers -/
  latest : List LatestValue := []
  /-- [cycles; 06 R179; empty, R411] cycles of the basic intervals in progress and the one before, newest first -/
  cycles : List CycleRecord := []
  /-- [16 blocks; 06 Table 6.9; empty, R411] basic intervals, newest first; 16 for each object, here and below -/
  basic : List MeasBlock := []
  /-- [16 blocks; 06 Table 6.9; empty, R411] supraharmonic 200 ms blocks -/
  supra : List MeasBlock := []
  /-- [16 blocks; 06 Table 6.9; empty, R411] 150/180-cycle values -/
  group : List MeasBlock := []
  /-- [144 blocks; 06 Table 6.9; empty, R411] 10-minute values -/
  ten : List MeasBlock := []
  /-- [144 blocks; 06 Table 6.9; empty, R411] 10-minute values of supraharmonics -/
  supraTen : List MeasBlock := []
  /-- [12 blocks; 06 Table 6.9; empty, R411] 2-hour values -/
  two : List MeasBlock := []
  /-- [12 blocks; 06 Table 6.9; empty, R411] 2-hour values of supraharmonics -/
  supraTwo : List MeasBlock := []
  /-- [64 blocks; 06 Table 6.9; empty, R411] 10-second frequencies -/
  second : List MeasBlock := []
  /-- [10 x 32 bits; 06 Table 6.11; 0, R411] values formed since reset: cycles, levels 1-5, half cycles, supraharmonics at levels 1, 3, 4 -/
  formed : List Nat := List.replicate 10 0
  /-- [2 intervals; 06 R179, R180; empty, R411] basic intervals in progress, oldest first -/
  basics : List BasicOpen := []
  /-- [list; 06 R181; empty, R411] basic intervals of the 150/180-cycle values in progress -/
  groupParts : List MeasBlock := []
  /-- [list; 06 R181; one of every object, R411] 150/180-cycle aggregations in progress -/
  groups : List Track := [{ objects := everyObject }]
  /-- [list; 06 R177; one of every object, R411] 10-minute aggregations in progress -/
  tens : List Track := [{ objects := everyObject }]
  /-- [list; 06 R177; one of every object, R411] 2-hour aggregations in progress -/
  twos : List Track := [{ objects := everyObject }]
  /-- [list; 06 R180; empty, R411] basic intervals of the 10-minute period in progress -/
  tenParts : List MeasBlock := []
  /-- [list; 06 R197; empty, R411] supraharmonic blocks of the 10-minute period in progress -/
  tenSupra : List MeasBlock := []
  /-- [list; 06 R182; empty, R411] 10-minute values of the 2-hour window in progress -/
  twoParts : List MeasBlock := []
  /-- [list; 06 R197; empty, R411] 10-minute supraharmonics of the 2-hour window in progress -/
  twoSupra : List MeasBlock := []
  /-- [list of (start, end, flags); 06 R189; empty, R411] cycles of the 10-second window, 1/512 tick -/
  freq : List (Nat × Nat × Nat) := []
  /-- [64 bits; 06 R180; none, R411] start of the 10-minute period in progress, timestamp -/
  tenStart : Option Nat := none
  /-- [64 bits; 06 R182; none, R411] start of the 2-hour window in progress, timestamp -/
  twoStart : Option Nat := none
  /-- [64 bits; 06 R189; none, R411] start of the 10-second window in progress, timestamp -/
  secondStart : Option Nat := none
  /-- [16 bits; 06 R186; 0, R411] flags the 10-minute period in progress starts with -/
  tenFlags : Nat := 0
  /-- [16 bits; 06 R186; 0, R411] flags the 2-hour window in progress starts with -/
  twoFlags : Nat := 0
  /-- [list; 06 R186; empty, R411] clock adjustments that wait for the intervals and the blocks in progress at them, oldest first -/
  cut : List ClockCut := []
  /-- [24 meters; 06 R198; R411] flickermeters -/
  meters : List FlickerMeter := List.replicate 24 {}
  /-- [list; 06 R199; empty, R411] latest Pst, Plt and Pinst maximum: quantities 0, 1, 2 of each channel -/
  flicker : List MeasValue := []
  /-- [list of (channel, quantity, time); 06 R199; empty, R411] ends of the latest Pst period, Plt window and second -/
  flickerTimes : List (Nat × Nat × Nat) := []
  /-- [64 bits; 06 R198; 0, R411] UTC second up to which Pinst maxima have been reported -/
  pinstAt : Nat := 0
  /-- [5 x 64 bits; 06 R195; 0, R411] start index of the supraharmonic block in progress on A0-A4 -/
  supraIndex : List Nat := List.replicate 5 0
  /-- [24 x 100,000 samples; 06 R195, R196; empty, R411] wideband samples of the block in progress and after it, newest first -/
  wide : List (List StreamSample) := List.replicate 24 []
  /-- [list of (start, value); 06 R198; empty, R411] Pst values of the 2-hour window in progress -/
  psts : List (Nat × MeasValue) := []
  /-- [list; 08 R270; empty, R411] basic intervals whose tamper tests P0 has still to make -/
  toFold : List MeasBlock := []
  /-- [list; 06 R210; empty, R411] integrators of elements and systems -/
  integrators : List Integrator := []
  /-- [64 bits; 06 R211; 0, R411] number of the next processing tick to close -/
  nextTick : Nat := 0
  /-- [64 ticks; 01 R17; empty, R411] closed ticks waiting for P0, oldest first -/
  queue : List ClosedTick := []
  deriving DecidableEq, Repr, Inhabited

/-- The demand and load-profile section of a context (Table 7.8). -/
structure Demand where
  /-- [8 bits; 07 Table 7.8; 0 off] mode: 0 off, 1 block, 2 sliding -/
  mode : Nat := 0
  /-- [8 bits; 07 Table 7.8; 0] length, minutes -/
  length : Nat := 0
  /-- [8 bits; 07 Table 7.8; 0] sub-intervals n -/
  n : Nat := 0
  /-- [32 bits; 07 Table 7.8; 0] intervals or sub-intervals closed -/
  count : Nat := 0
  /-- [64 bits; 07 Table 7.8; 0] open start -/
  openStart : Nat := 0
  /-- [64 bits; 07 Table 7.8; 0] open end -/
  openEnd : Nat := 0
  /-- [16 bits; 07 Table 7.8; 0] open flags -/
  openFlags : Nat := 0
  /-- [16 bits; 07 Table 7.8; 0] sub-intervals in the window -/
  filled : Nat := 0
  /-- [3 x 64 bits; 07 Table 7.8; 0] open energies, µ-units -/
  energies : List Nat := [0, 0, 0]
  /-- [15 x 3 x 64 bits; 07 Table 7.8; 0] window -/
  window : List (List Nat) := List.replicate 15 [0, 0, 0]
  /-- [3 x 64 bits; 07 Table 7.8; 0] last demands -/
  last : List Nat := [0, 0, 0]
  /-- [64 bits; 07 Table 7.8; 0] last end -/
  lastEnd : Nat := 0
  /-- [27 x 16 bytes; 07 Table 7.7; 0] maximum demands with their times -/
  maxima : List (Nat × Nat) := List.replicate 27 (0, 0)
  /-- [64 bits; 07 Table 7.8; 0] profile start -/
  profStart : Nat := 0
  /-- [7 x 64 bits; 07 Table 7.8; 0] profile base -/
  profBase : List Nat := List.replicate 7 0
  /-- [16 bits; 07 R232; 0] flags of the open load-profile entry -/
  profFlags : Nat := 0
  /-- [64 bits; 07 R232, R238; 0] scheduled end of the open load-profile entry -/
  profEnd : Nat := 0
  /-- [3 bits; 07 R231; 0] tariff in force during the last tick of the open interval -/
  tariff : Nat := 0
  deriving DecidableEq, Repr, Inhabited

/-- The shadow state section (Table 7.17). -/
structure Shadow where
  /-- [8 bits; 07 Table 7.17; 0] remote interval length, minutes -/
  length : Nat := 0
  /-- [16 bits; 07 Table 7.17; 0] remote status -/
  status : Nat := 0
  /-- [32 bits; 07 Table 7.17; 0] feeds applied -/
  applied : Nat := 0
  /-- [32 bits; 07 Table 7.17; 0] duplicates -/
  duplicates : Nat := 0
  /-- [32 bits; 07 Table 7.17; 0] rejected -/
  rejected : Nat := 0
  /-- [32 bits; 07 Table 7.17; 0] discontinuities -/
  discontinuities : Nat := 0
  /-- [16 bits; 07 Table 7.17; 0] feeds refused while parked -/
  refused : Nat := 0
  /-- [64 bits; 07 Table 7.17; 0] end of the last feed applied -/
  lastEnd : Nat := 0
  /-- [7 x 64 bits; 07 Table 7.17; 0] registers of the last feed applied -/
  lastRegs : List Nat := List.replicate 7 0
  /-- [0-96 records of 72 bytes; 07 R253; empty] feeds held while parked, in order -/
  pending : List (List Byte) := []
  deriving DecidableEq, Repr, Inhabited

/-- The run of a tamper detector (R268). -/
structure TamperRun where
  /-- [8 bits; 08 Table 8.5; none] kind 0-7 -/
  kind : Nat := 0
  /-- [8 bits; 08 R268; none] current channel of the element (kind 0), otherwise 0 -/
  element : Nat := 0
  /-- [10 bits; 08 Table 8.5; 0] length of the run towards the other state -/
  count : Nat := 0
  /-- [64 bits; 08 R268; 0] start of the run, timestamp -/
  since : Nat := 0
  /-- [1 bit; 08 Table 8.5; false] the element or kind is in its tampered state -/
  active : Bool := false
  /-- [2 x 32 bits; 08 R270; 0] low words of registers (0, 8) and (1, 8) that belong to the start of the run -/
  base : Nat × Nat := (0, 0)
  /-- [ratio; 08 Table 8.7; 0] extreme of the run -/
  extreme : Rat := 0
  deriving DecidableEq, Repr, Inhabited

/-- An open tamper record (R270). -/
structure TamperOpen where
  /-- [8 bits; 08 Table 8.5; none] kind -/
  kind : Nat := 0
  /-- [8 bits; 08 Table 8.7; FFh] source -/
  source : Nat := 255
  /-- [64 bits; 08 Table 8.6; none] start -/
  start : Nat := 0
  /-- [2 x 32 bits; 08 Table 8.6; none] low words of registers (0, 8) and (1, 8) at the start -/
  base : Nat × Nat := (0, 0)
  /-- [ratio; 08 Table 8.7; 0] extreme -/
  extreme : Rat := 0
  /-- [16 bits; 08 Table 8.7; 0] billing flags of the ticks covered -/
  billing : Nat := 0
  /-- [5 bits; 08 Table 8.7; 0] record flags so far -/
  flags : Nat := 0
  deriving DecidableEq, Repr, Inhabited

/-- A tamper record (Table 8.7). -/
structure TamperRecord where
  /-- [32 bits; 08 Table 8.7; none] context serial -/
  serial : Nat := 0
  /-- [32 bits; 08 Table 8.7; none] record number -/
  number : Nat := 0
  /-- [640 bytes; 08 Table 8.7; none] the record -/
  bytes : List Byte := []
  deriving DecidableEq, Repr, Inhabited

/-- The tamper section of a context (Table 8.6). -/
structure Tamper where
  /-- [8 bits; 08 Table 8.6; 0] enables -/
  enables : Nat := 0
  /-- [4 bits; 08 Table 8.6; 0] import-only -/
  importOnly : Nat := 0
  /-- [binary32; 08 Table 8.6; 10.0] reverse threshold, W -/
  reverse : F32 := 0x41200000#32
  /-- [binary32; 08 Table 8.6; 0.1] bypass ratio -/
  ratio : F32 := 0x3DCCCCCD#32
  /-- [binary32; 08 Table 8.6; 0.5] bypass magnitude, A -/
  magnitude : F32 := 0x3F000000#32
  /-- [binary32; 08 Table 8.6; 20.0] displacement threshold -/
  displacement : F32 := 0x41A00000#32
  /-- [binary32; 08 Table 8.6; 0.1] imbalance fraction -/
  imbalance : F32 := 0x3DCCCCCD#32
  /-- [8 x 16 bits; 08 Table 8.6; 0] records opened per kind -/
  counts : List Nat := List.replicate 8 0
  /-- [8 x 32 bits; 08 Table 8.6; 0] seconds per kind -/
  durations : List Nat := List.replicate 8 0
  /-- [32 bits; 08 Table 8.6; 0] records written -/
  written : Nat := 0
  /-- [0-8; 08 Table 8.6; empty] open records: the open mask, starts and bases -/
  opened : List TamperOpen := []
  /-- [list; 08 R268; empty] detector runs -/
  runs : List TamperRun := []
  /-- [1,200 ticks; 08 R270; empty, R411] recent ticks, newest first: UTC of the end, low words of registers (0, 8)
  and (1, 8), billing flags -/
  trail : List (Nat × Nat × Nat × Nat) := []
  deriving DecidableEq, Repr, Inhabited

/-- The prepayment section of a context (Table 8.3). -/
structure Prepay where
  /-- [8 bits; 08 Table 8.3; 0 off] mode -/
  mode : Nat := 0
  /-- [8 bits; 08 Table 8.3; FFh] relay -/
  relay : Nat := 255
  /-- [8 bits; 08 Table 8.3; 0] state -/
  state : Nat := 0
  /-- [8 bits; 08 Table 8.3; 0] options -/
  options : Nat := 0
  /-- [8 bits; 08 Table 8.3; 0] friendly -/
  friendly : Nat := 0
  /-- [1 bit; 08 Table 8.3; 0] hold -/
  hold : Nat := 0
  /-- [64 bits signed; 08 Table 8.3; 0] credit C -/
  credit : Int := 0
  /-- [64 bits signed; 08 Table 8.3; 0] low threshold L -/
  low : Int := 0
  /-- [64 bits; 08 Table 8.3; 0] emergency ceiling -/
  ceiling : Nat := 0
  /-- [64 bits; 08 Table 8.3; 0] emergency grant G -/
  emergency : Nat := 0
  /-- [8 x 64 bits; 08 Table 8.3; 0] prices -/
  prices : List Nat := List.replicate 8 0
  /-- [64 bits; 08 Table 8.3; 0] standing charge -/
  standing : Nat := 0
  /-- [64 bits; 08 Table 8.3; 0] remainder r -/
  remainder : Nat := 0
  /-- [64 bits; 08 Table 8.3; 0] charged in period -/
  charged : Nat := 0
  /-- [64 bits; 08 Table 8.3; 0] standing in period -/
  standingCharged : Nat := 0
  /-- [64 bits signed; 08 Table 8.3; 0] added in period -/
  added : Int := 0
  /-- [16 x 32 bits; 08 Table 8.3; empty] transaction numbers, newest first -/
  transactions : List Nat := []
  /-- [16 bits; 08 Table 8.3; 0] grants in period -/
  grants : Nat := 0
  /-- [16 bits; 08 Table 8.3; 0] disconnections in period -/
  disconnections : Nat := 0
  /-- [64 bits; 08 Table 8.3; 0] last standing day -/
  lastDay : Nat := 0
  /-- [64 bits; 08 Table 8.3; 0] last relay change -/
  lastChange : Nat := 0
  /-- [64 bytes; 08 Table 8.3; 0] windows -/
  windows : List Byte := List.replicate 64 0
  /-- [128 bytes; 08 Table 8.3; 0] holidays -/
  holidays : List Byte := List.replicate 128 0
  /-- [16 bits; 08 Table 8.3; 0] status mask -/
  mask : Nat := 0
  /-- [16 bits; 08 Table 8.3; 0] open value -/
  openValue : Nat := 0
  /-- [8 bits; 08 Table 8.3; 0] mismatch run -/
  mismatchRun : Nat := 0
  /-- [32 bits; 08 Table 8.3; 0] mismatches -/
  mismatches : Nat := 0
  deriving DecidableEq, Repr, Inhabited

/-- A metering context (Table 7.2): the sections of its record, and the settings that wait for a tick boundary. -/
structure Context where
  /-- [32 bits; 07 Table 7.3; none] serial -/
  serial : Nat := 0
  /-- [8 bits; 07 Table 7.1; none] kind -/
  kind : Nat := 0
  /-- [8 bits; 07 Table 7.3; 0] state: bit 0 APPLYING, bit 1 PARKING -/
  state : Nat := 0
  /-- [8 bits; 07 Table 7.3; none] slot: element of the handle S.2.e -/
  slot : Nat := 0
  /-- [64 bits; 07 Table 7.3; none] created -/
  created : Nat := 0
  /-- [8 bits; 07 Table 7.3; 0 local, 2 shadow] tariff source -/
  source : Nat := 0
  /-- [8 bits; 07 Table 7.3; none] default tariff -/
  defaultTariff : Nat := 0
  /-- [8 bits; 07 Table 7.3; default tariff] tariff in force -/
  tariff : Nat := 0
  /-- [8 bits; 07 Table 7.3; none] apparent method -/
  method : Nat := 0
  /-- [4 x 8 bits; 07 Table 7.3; none] current channels -/
  currents : List Nat := [255, 255, 255, 255]
  /-- [4 x 8 bits; 07 Table 7.3; none] voltage channels -/
  voltages : List Nat := [255, 255, 255, 255]
  /-- [4 bits; 07 Table 7.3; none] orientation -/
  orientation : Nat := 0
  /-- [8 bits; 07 Table 7.3; FFh] feeder of -/
  feederOf : Nat := 255
  /-- [16 bits; 07 Table 7.3; 0] node address -/
  node : Nat := 0
  /-- [64 bits; 07 Table 7.3; 0] folded through -/
  folded : Nat := 0
  /-- [32 bits; 07 Table 7.3; 0] journal sequence -/
  journal : Nat := 0
  /-- [16 bits; 07 Table 7.3; 0] flags since the last snapshot -/
  flags : Nat := 0
  /-- [8 bits; 07 Table 7.3; 1] billing day -/
  day : Nat := 1
  /-- [8 bits; 07 Table 7.3; 0] billing hour -/
  hour : Nat := 0
  /-- [32 bits; 07 Table 7.3; 1] period -/
  period : Nat := 1
  /-- [32 bits; 07 Table 7.3; 0] snapshots taken -/
  snapshots : Nat := 0
  /-- [64 bits; 07 Table 7.3; none] period start -/
  periodStart : Nat := 0
  /-- [64 bits; 07 Table 7.3; 0] last billing boundary -/
  lastBilling : Nat := 0
  /-- [32 bits; 07 Table 7.3; 0] profile entries written -/
  entries : Nat := 0
  /-- [63 x 64 bits; 07 R221; 0] energy registers (q, t) at 9 q + t -/
  regs : List Nat := List.replicate 63 0
  /-- [63 x 16 bits; 07 R221; 0] residues -/
  residues : List Nat := List.replicate 63 0
  /-- [1,024 bytes; 07 Table 7.8; 0] demand and load profile -/
  demand : Demand := {}
  /-- [512 bytes; 07 Table 7.6; 0] calendar section -/
  calendar : List Byte := List.replicate 512 0
  /-- [512 bytes; 07 Table 7.17; 0] shadow state -/
  shadow : Shadow := {}
  /-- [256 bytes; 08 Table 8.6; defaults] tamper -/
  tamper : Tamper := {}
  /-- [512 bytes; 08 Table 8.3; 0] prepayment -/
  prepay : Prepay := {}
  /-- [32 bits; 07 R246, R253; 0] journal sequence when the context was last parked: its park record supersedes the journal
  records up to it -/
  parkedSeq : Nat := 0
  /-- [64 bits; 07 R217; none] first processing tick folded into the context -/
  firstTick : Nat := 0
  /-- [64 bits; 07 R228; 0] boundaries at or before this instant take no snapshot: the reply of the last table, reckoned in the time in
  force -/
  billingFrom : Nat := 0
  /-- [64 bits and 524 bytes; 07 R228; none] tariff table waiting for a tick boundary: that boundary, the payload, the reply's instant -/
  newTable : Option (Nat × List Byte) := none
  /-- [64 bits and 3 bytes; 07 R229; none] demand setting waiting for a tick boundary: boundary, mode, length, n -/
  newDemand : Option (Nat × Nat × Nat × Nat) := none
  /-- [64 bits and 104 bytes; 08 R255; none] prepayment configuration waiting for a tick boundary -/
  newPrepay : Option (Nat × List Byte) := none
  /-- [64 bits and 192 bytes; 08 R262; none] friendly hours waiting for a tick boundary -/
  newFriendly : Option (Nat × List Byte) := none
  deriving DecidableEq, Repr, Inhabited

/-- A snapshot record in the store (Table 7.10). -/
structure Snapshot where
  /-- [32 bits; 07 Table 7.10; none] context serial -/
  serial : Nat := 0
  /-- [32 bits; 07 Table 7.10; none] period -/
  period : Nat := 0
  /-- [1,568 bytes; 07 Table 7.10; none] the record -/
  bytes : List Byte := []
  deriving DecidableEq, Repr, Inhabited

/-- A load-profile entry in the store (Table 7.9). -/
structure ProfileEntry where
  /-- [32 bits; 07 R232; none] context serial -/
  serial : Nat := 0
  /-- [48 bytes; 07 Table 7.9; none] the entry -/
  bytes : List Byte := []
  deriving DecidableEq, Repr, Inhabited

/-- Actions due at a tick boundary and not yet taken (Table 7.11). -/
structure DueActions where
  /-- [64 bits; 07 R236; none] the tick boundary, tick -/
  boundary : Nat := 0
  /-- [64 bits; 07 R236; none] its instant, UTC -/
  instant : Nat := 0
  /-- [64 bits; 07 R233; none] UTC of the boundary before it, or of an adjustment instant in old time -/
  since : Nat := 0
  /-- [1 bit; 07 R239; false] a split adjustment at the boundary cuts the open intervals and entries -/
  cut : Bool := false
  /-- [1 bit; 07 R242; false] the actions due in the new time of an adjustment -/
  after : Bool := false
  /-- [1 bit; 07 R242; false] a forward adjustment: one FORCED snapshot covers the billing boundaries passed -/
  forced : Bool := false
  /-- [4 bits for each context; 12 Table 12.17; none] action masks of the boundary records, by serial -/
  masks : List (Nat × Nat) := []
  /-- [3 bits; 07 Table 7.11; 2] the step reached: 2 demand, 3 profile, 4 tariff, 5 snapshot, 6 standing charge, 7 prepayment, 8 checkpoint -/
  step : Nat := 2
  deriving DecidableEq, Repr, Inhabited

/-- A clock adjustment decided and not yet at its instant A (R508, R238-R242). -/
structure Adjustment where
  /-- [64 bits; 07 R508; none] tick boundary A -/
  boundary : Nat := 0
  /-- [64 bits signed; 07 R508; none] step d, ticks -/
  step : Int := 0
  /-- [1 bit; 14 R450; none] made by PPS -/
  pps : Bool := false
  deriving DecidableEq, Repr, Inhabited

/-- A relay output (R263-R265). -/
structure Relay where
  /-- [1 bit; 08 Table 8.2; open, R411] closed -/
  closed : Bool := false
  /-- [1 bit; 08 Table 8.2; 0 high, R411] level for closed: 0 high, 1 low -/
  polarity : Nat := 0
  /-- [1 bit; 08 R265; false, high impedance] the pin is driven -/
  driven : Bool := false
  /-- [64 bits; 16 Table 16.18; 0, R411] last change, timestamp -/
  lastChange : Nat := 0
  deriving DecidableEq, Repr, Inhabited

/-- A member entry of a balance group (R273). -/
structure Member where
  /-- [32 bits; 08 R273; none] serial -/
  serial : Nat := 0
  /-- [8 bits; 16 R493; none] phase: 0-2, 3 unphased, FFh from elements -/
  phase : Nat := 3
  deriving DecidableEq, Repr, Inhabited

/-- What a member has reported in an interval (R274). -/
structure MemberReport where
  /-- [32 bits; 08 R273; none] serial -/
  serial : Nat := 0
  /-- [8 bits; 16 R493; none] phase of the member in the interval: 0-2, 3 unphased, FFh from elements -/
  phase : Nat := 3
  /-- [4 bits; 08 R273, R275; none] columns it belongs to: L1, L2, L3, total -/
  columns : Nat := 8
  /-- [4 x 64 bits signed; 08 R274; 0] energy L1, L2, L3 and total, µWh -/
  energy : List Int := [0, 0, 0, 0]
  /-- [64 bits; 08 R275; 0] UTC through which it has reported -/
  through : Nat := 0
  /-- [1 bit; 08 R274; false] reported LUMPED energy -/
  lumped : Bool := false
  /-- [1 bit; 08 R274; false] counts as missing: parked, discontinuity, deleted, or spanned by a gap -/
  missing : Bool := false
  deriving DecidableEq, Repr, Inhabited

/-- A group interval (Table 8.10). -/
structure GroupInterval where
  /-- [32 bits; 08 Table 8.10; none] interval number -/
  number : Nat := 0
  /-- [2 bits; 08 Table 8.10; none] 0 open, 1 provisional, 2 final -/
  state : Nat := 0
  /-- [16 bits; 08 Table 8.10; 0] flags -/
  flags : Nat := 0
  /-- [4 bits; 08 Table 8.10; 0] gap mask -/
  gaps : Nat := 0
  /-- [64 bits; 08 Table 8.10; none] start -/
  start : Nat := 0
  /-- [64 bits; 08 Table 8.10; none] end -/
  stop : Nat := 0
  /-- [4 x 64 bits signed; 08 Table 8.10; 0] feeder energies -/
  feeder : List Int := [0, 0, 0, 0]
  /-- [32 bits; 08 R275; none] place of the interval among all that the group has opened, for its age -/
  place : Nat := 0
  /-- [4 bits; 08 R274; none] phases with a feeder element -/
  phases : Nat := 0
  /-- [16 bits; 08 Table 8.9; 0] OR of the billing flags of the feeder's ticks -/
  ticks : Nat := 0
  /-- [12 bits; 08 R273; none] hold time in force, minutes -/
  hold : Nat := 240
  /-- [8 bits; 08 R276; none] k in force -/
  k : Nat := 3
  /-- [10 bits; 08 R276; none] relative threshold in force, 0.1 % -/
  relative : Nat := 20
  /-- [24 bits; 08 R276; none] absolute threshold in force, Wh -/
  absolute : Nat := 250
  /-- [16 bits; 08 Table 8.10; 0] late feeds -/
  late : Nat := 0
  /-- [list; 08 R273, R274; none] the members of the interval and what they reported -/
  reports : List MemberReport := []
  deriving DecidableEq, Repr, Inhabited

/-- What a shadow feed gives the balance groups of its context (R274). -/
structure GroupFeed where
  /-- [32 bits; 08 R274; none] serial -/
  serial : Nat := 0
  /-- [64 bits; 08 R274; none] end of the feed before it, UTC -/
  prev : Nat := 0
  /-- [64 bits; 08 R274; none] end of the feed, UTC -/
  stop : Nat := 0
  /-- [64 bits signed; 08 R274; none] import less export, µWh -/
  net : Int := 0
  /-- [1 bit; 08 R274; none] it bills a GAP span -/
  lumped : Bool := false
  /-- [1 bit; 08 R274; none] it made a discontinuity -/
  broken : Bool := false
  deriving DecidableEq, Repr, Inhabited

/-- A configuration of a balance group that takes effect at the next group interval (R273). -/
structure GroupChange where
  /-- [32 bits; 08 R273; none] feeder serial, 0 to dissolve -/
  feeder : Nat := 0
  /-- [8 bits; 08 R273; none] interval length, minutes -/
  length : Nat := 0
  /-- [8 bits; 08 R276; none] k -/
  k : Nat := 3
  /-- [12 bits; 08 R273; none] hold time, minutes -/
  hold : Nat := 240
  /-- [10 bits; 08 R276; none] relative threshold, 0.1 % -/
  relative : Nat := 20
  /-- [24 bits; 08 R276; none] absolute threshold, Wh -/
  absolute : Nat := 250
  /-- [0-4,096; 08 R273; none] members -/
  members : List Member := []
  deriving DecidableEq, Repr, Inhabited

/-- A balance group (R273-R276). -/
structure Group where
  /-- [32 bits; 08 R273; 0 none] feeder serial -/
  feeder : Nat := 0
  /-- [8 bits; 08 R273; 0] interval length, minutes -/
  length : Nat := 0
  /-- [8 bits; 08 R276; 3] k -/
  k : Nat := 3
  /-- [12 bits; 08 R273; 240] hold time, minutes -/
  hold : Nat := 240
  /-- [10 bits; 08 R276; 20] relative threshold, 0.1 % -/
  relative : Nat := 20
  /-- [24 bits; 08 R276; 250] absolute threshold, Wh -/
  absolute : Nat := 250
  /-- [0-4,096; 08 R273; empty] members -/
  members : List Member := []
  /-- [record; 08 R273; none] change that takes effect at the next group interval -/
  next : Option GroupChange := none
  /-- [32 bits; 08 Table 8.10; 0] intervals since the group was configured -/
  count : Nat := 0
  /-- [32 bits; 08 R275; 0] intervals opened over all its configurations -/
  places : Nat := 0
  /-- [64 bits; 08 R273; 0] UTC at which the first interval starts -/
  startAt : Nat := 0
  /-- [list; 08 R274; empty, R411] feeds whose end lies after the open interval -/
  early : List GroupFeed := []
  /-- [interval; 08 R275; none] open interval -/
  opened : Option GroupInterval := none
  /-- [list; 08 R275; empty] provisional intervals, newest first -/
  provisional : List GroupInterval := []
  /-- [96 results; 08 R275; empty, R411] final results, newest first -/
  final : List GroupInterval := []
  /-- [4 x 3 runs; 08 R276; 0, R411] per column: intervals above, below and within the limit -/
  runs : List (Nat × Nat × Nat) := List.replicate 4 (0, 0, 0)
  /-- [4 x 2 bits; 08 R276; none, R411] alert of each column: 0 none, 1 above, 2 below -/
  alerts : List Nat := List.replicate 4 0
  deriving DecidableEq, Repr, Inhabited

/-- A tamper switch input (R268, R269). -/
structure TampInput where
  /-- [1 bit; 16 Table 16.18; 0 active low; kept by the vault (log 35)] active high -/
  activeHigh : Bool := false
  /-- [1 bit; 15 TAMP pins; inactive] level at the pin -/
  level : Bool := true
  /-- [64 bits; 08 R268; 0, R411] tick of the last transition -/
  since : Nat := 0
  /-- [1 bit; 08 R268; false, R411] found active for 20 ms -/
  active : Bool := false
  deriving DecidableEq, Repr, Inhabited

/-- Contexts, tariffs, prepayment, tamper and balance on P0 (chapters 07 and 08). -/
structure BillState where
  /-- [0-160 records; 07 R218; empty, R411] live contexts -/
  live : List Context := []
  /-- [160 slots; 01 R30; 0-159 ascending] free slots, next to be taken first -/
  free : List Nat := List.range 160
  /-- [serials; 07 R253; empty, R411] parks in progress: serial, tag, session, boundary -/
  parking : List (Nat × Nat × Nat × Nat) := []
  /-- [list; 07 R226; empty, R411] pin codes accepted that a tick not yet folded may need, newest first: tick of acceptance, code -/
  pinCodes : List (Nat × Nat) := []
  /-- [record; 07 R236; none, R411] actions due at the last tick boundary folded -/
  due : Option DueActions := none
  /-- [64 bits; 07 R222; 0, R411] number of the next processing tick to fold -/
  nextFold : Nat := 0
  /-- [list; 07 R508; empty, R411] adjustments waiting for their tick boundaries, oldest first -/
  adjustments : List Adjustment := []
  /-- [64 bits; 07 R244; 0, R411] last whole UTC minute checkpointed -/
  checkpointed : Nat := 0
  /-- [4 relays; 08 R263; high impedance] relays -/
  relays : List Relay := List.replicate 4 {}
  /-- [4 inputs; 08 R268; R411] tamper switch inputs -/
  tamp : List TampInput := List.replicate 4 {}
  /-- [16 groups; 08 R273; no feeder] balance groups -/
  groups : List Group := List.replicate 16 {}
  deriving DecidableEq, Repr, Inhabited

/-- The line configuration (Table 9.1). -/
structure LineConfig where
  /-- [2 bits; 09 Table 9.1; 0 off] mode -/
  mode : Nat := 0
  /-- [5 bits; 09 Table 9.1; 0] coupling channel -/
  coupling : Nat := 0
  /-- [28 bits; 09 Table 9.1; all set] tone mask -/
  tones : Nat := 0x0FFFFFFF
  /-- [28 x 5 bits; 09 Table 9.8; default profile] ceiling profile, dB -/
  ceiling : List Nat := List.replicate 3 1 ++ List.replicate 4 2 ++ List.replicate 4 3 ++ List.replicate 5 4 ++
    List.replicate 6 5 ++ List.replicate 6 6
  /-- [5 bits; 09 Table 9.1; 12] SNR target, dB -/
  target : Nat := 12
  /-- [5 bits; 09 Table 9.1; 4] mute SNR, dB -/
  mute : Nat := 4
  /-- [6 bits; 09 Table 9.1; 14] blanking threshold, dB, 0 off -/
  blanking : Nat := 14
  /-- [5 bits; 09 Table 9.1; 5] blanking tail, 10 µs -/
  tail : Nat := 5
  /-- [4 bits; 09 Table 9.1; 4] erasure fraction, sixteenths -/
  erasure : Nat := 4
  /-- [8 bits; 09 Table 9.1; 03h] S-FSK rate -/
  rate : Nat := 3
  /-- [6 bits; 09 Table 9.1; 32] S-FSK sync length, bits -/
  syncLength : Nat := 32
  /-- [8 bits; 09 Table 9.1; 36] S-FSK frame length, bytes -/
  frameLength : Nat := 36
  /-- [16 bits; 09 Table 9.1; 6,330] S-FSK mark, 10 Hz -/
  mark : Nat := 6330
  /-- [16 bits; 09 Table 9.1; 7,400] S-FSK space, 10 Hz -/
  space : Nat := 7400
  /-- [32 bits; 09 Table 9.1; AAAA54C7h] S-FSK sync -/
  sync : Nat := 0xAAAA54C7
  /-- [5 bits; 09 Table 9.1; 6] S-FSK attenuation, dB -/
  attenuation : Nat := 6
  /-- [10 bits; 09 Table 9.1; 0] S-FSK offset -/
  offset : Nat := 0
  deriving DecidableEq, Repr, Inhabited

/-- The maps of a neighbour slot (R291, R295): none for a segment that is muted. -/
structure ToneMap where
  /-- [4 bits; 09 Table 9.7; none] version -/
  version : Nat := 0
  /-- [8 x 4 tones; 09 R291; none] entries -/
  entries : List (Option (List Nat)) := []
  deriving DecidableEq, Repr, Inhabited

/-- A neighbour slot (R31, R295). -/
structure Neighbour where
  /-- [11 bits; 01 R31; none] slot: unit x 256 + element -/
  slot : Nat := 0
  /-- [16 bits; 09 Table 9.7; none] node address -/
  node : Nat := 0
  /-- [1 bit; 09 R298; false] privileged -/
  privileged : Bool := false
  /-- [1 bit; 09 R296; false] transmit map pinned -/
  pinned : Bool := false
  /-- [map; 09 R295; none] transmit map cached -/
  txMap : Option ToneMap := none
  /-- [map; 09 R293; none] receive map cached -/
  rxMap : Option ToneMap := none
  /-- [map; 09 R293; none] previous receive map -/
  rxOld : Option ToneMap := none
  /-- [4 bits; 09 Table 9.7; 0] transmit version -/
  txVersion : Nat := 0
  /-- [4 bits; 09 Table 9.7; 0] receive version -/
  rxVersion : Nat := 0
  /-- [5 bits; 09 R299; 0, none yet] a_link, dB -/
  aLink : Nat := 0
  /-- [10 bits; 09 Table 9.7; 0] δ -/
  delta : Nat := 0
  /-- [8 x 8 bits signed; 09 Table 9.7; -128] receive SNR per segment -/
  rxSnr : List Int := List.replicate 8 (-128)
  /-- [8 x 8 bits signed; 09 Table 9.7; -128] transmit SNR per segment, as reported -/
  txSnr : List Int := List.replicate 8 (-128)
  /-- [8 bits signed; 09 Table 9.7; -128] reported minimum -/
  reported : Int := -128
  /-- [64 bits; 09 Table 9.7; 0] last map change, timestamp -/
  updated : Nat := 0
  /-- [64 bits; 09 R295; 0] tick of the last use, for the cache's eviction -/
  usedAt : Nat := 0
  /-- [8 bits; 10 R317; 0] retry score Rs -/
  retry : Nat := 0
  /-- [64 bits; 10 R316; 0] last valid frame, timestamp -/
  lastValid : Nat := 0
  /-- [64 bits; 10 R316; 0] tick of the last valid frame, for the 30 min silence -/
  validAt : Nat := 0
  /-- [1 bit; 10 R316; false] silent for 30 min -/
  silent : Bool := false
  /-- [6 x 32 bits; 09 Table 9.13; 0] sent, valid, payload failures, retries, maps issued, maps received -/
  counters : List Nat := List.replicate 6 0
  /-- [8 x 28 ratios; 09 R292; empty] noise levels N(s, i), dB; empty before the first idle half cycle -/
  noise : List (List Rat) := []
  /-- [1 bit; 09 R293; false] the link has fallen back to the default map: a new map would have muted every segment -/
  fallen : Bool := false
  /-- [64 bits; 09 R293; none] tick of the last map issued for a change of tones -/
  issuedAt : Option Nat := none
  deriving DecidableEq, Repr, Inhabited

/-- A frame waiting in the modem's transmit queue, or in flight (R302). -/
structure TxFrame where
  /-- [1 bit; 09 R302; none] a map frame -/
  isMap : Bool := false
  /-- [16 bits; 09 R286; none] node it is sent to first, 0000h for a broadcast -/
  node : Nat := 0
  /-- [52-956 bytes; 09 R288; none] payload data -/
  data : List Byte := []
  /-- [1 bit; 09 R298; none] long interleaving asked for -/
  long : Bool := false
  /-- [16 bits; 10 R328; none] transaction it belongs to, 0 none -/
  transaction : Nat := 0
  /-- [64 bits; 09 R294; 0] earliest tick of a map frame -/
  notBefore : Nat := 0
  deriving DecidableEq, Repr, Inhabited

/-- A frame on the line from the part (R286-R299). -/
structure Flight where
  /-- [frame; 09 R286; none] the frame -/
  frame : TxFrame := {}
  /-- [64 bits; 09 R287; none] header -/
  header : List Byte := []
  /-- [tones; 09 R286, R288; none] tone of each slot laid out so far, from the start, FFh in a slot whose segment the map mutes -/
  tones : List Nat := []
  /-- [5 bits each; 09 R286; none] tones still to be sent in every slot: the opening, and a payload on the default map -/
  fixed : List Nat := []
  /-- [2 bits each; 09 R288; none] payload symbols still to be sent on the link map -/
  symbols : List Nat := []
  /-- [8 x 4 tones; 09 R302; none] the link map the frame started with -/
  map : List (Option (List Nat)) := []
  /-- [10 bits; 09 R286; none] link phase by which its half cycles lie after the part's anchors, 1/1,024 of a half cycle -/
  shift : Nat := 0
  /-- [5 bits; 09 R299; none] a_link in force -/
  aLink : Nat := 0
  /-- [5 bits for each slot; 09 R299; none] attenuation of each slot's tone, dB; 0 in a muted slot -/
  levels : List Nat := []
  /-- [64 bits; 09 R286; none] tick at which the last slot laid out ends -/
  endAt : Nat := 0
  /-- [64 bits; 09 R286; none] start tick -/
  startAt : Nat := 0
  /-- [1 bit; 09 R286; none] sent on a link map -/
  link : Bool := false
  deriving DecidableEq, Repr, Inhabited

/-- An S-FSK transmission that runs (R303). -/
structure SfskFlight where
  /-- [1-32,704 x 16 and 5 bits; 09 R303; none] frequency of each bit, in 10 Hz steps, with its attenuation, dB -/
  tones : List (Nat × Nat) := []
  /-- [64 bits; 09 R303; none] start tick -/
  startAt : Nat := 0
  /-- [64 bits; 09 R303; none] end tick -/
  endAt : Nat := 0
  deriving DecidableEq, Repr, Inhabited

/-- A received S-FSK frame (Table 9.11). -/
structure SfskFrame where
  /-- [64 bits; 09 Table 9.11; none] time -/
  time : Nat := 0
  /-- [8 bits; 09 Table 9.11; none] mark level -/
  mark : Nat := 0
  /-- [8 bits; 09 Table 9.11; none] space level -/
  space : Nat := 0
  /-- [10 bits; 09 Table 9.11; none] phase -/
  phase : Nat := 0
  /-- [1-255 bytes; 09 Table 9.11; none] data -/
  data : List Byte := []
  deriving DecidableEq, Repr, Inhabited

/-- The line modem (chapter 09). -/
structure LineState where
  /-- [record; 09 Table 9.1; defaults] configuration in force -/
  config : LineConfig := {}
  /-- [record; 09 R278; none, R411] configuration that waits for the frame in flight -/
  next : Option LineConfig := none
  /-- [0-2,048; 01 R31; empty, R411] neighbour slots in use -/
  neighbours : List Neighbour := []
  /-- [4 frames; 09 R302; empty, R411] transmit queue -/
  queue : List TxFrame := []
  /-- [frame; 09 R286; none, R411] frame in flight -/
  flight : Option Flight := none
  /-- [ratio and 10 bits; 09 R297; none and 0, R411] running mean square of the line, and samples of a blanking tail still to come -/
  level : Option Rat × Nat := (none, 0)
  /-- [1 bit; 09 Table 9.9; false, R411] the receiver has detected a delimiter -/
  receiving : Bool := false
  /-- [1 bit; 09 Table 9.9; false, R411] the driver's protection acts -/
  protection : Bool := false
  /-- [64 bits; 09 Table 9.9; 0, R411] tick before which no frame is sent after a protection trip -/
  holdUntil : Nat := 0
  /-- [13 x 32 bits; 09 Table 9.13; 0, R411] part counters, in the order of the table -/
  counters : List Nat := List.replicate 13 0
  /-- [64 bits; 09 R282; none, R411] last anchor: tick, and whether positive-going -/
  anchor : Option (Nat × Bool) := none
  /-- [ratio; 09 R284; 0, R411] length H of the half cycle that began at the last anchor, ticks -/
  half : Rat := 0
  /-- [8 anchors; 09 R282, R284; empty, R411] predicted anchors not yet reached: count of M's clock, whether positive-going, and the
  predicted length H of the half cycle that begins there, ticks -/
  predicted : List (Nat × Bool × Rat) := []
  /-- [8,192 half cycles; 09 R284; empty, R411] anchors passed and the length H of the half cycle that began at each, newest first -/
  halves : List (Nat × Rat) := []
  /-- [4 half cycles; 09 R292, R297; empty, R411] half cycles whose idle slots the receiver has not yet judged: anchor, H, samples; oldest
  first -/
  heard : List (Nat × Rat × List Int) := []
  /-- [16 spans; 09 R292, R302; empty, R411] spans in which a frame is on the line: sent by the part, first tick, end once known; newest
  first -/
  busy : List (Bool × Nat × Option Nat) := []
  /-- [list; 01 Table 1.2; empty, R411] data frames that wait for the keys of the vault while its link is lost, oldest first -/
  keyless : List (List Byte) := []
  /-- [1 bit; 09 R285; false, R411] anchors free-run -/
  freeRun : Bool := false
  /-- [64 bits; 09 R285; 0, R411] tick at which free-running began -/
  freeSince : Nat := 0
  /-- [1 bit; 09 R285; false, R411] 2 s of free-running have passed: default-map frames only -/
  defaultOnly : Bool := false
  /-- [4 bits; 09 R285; 0, R411] consecutive half cycles with a valid predicted anchor -/
  validRun : Nat := 0
  /-- [1 bit; 09 R283; low] ZC_OUT -/
  zcOut : Bool := false
  /-- [2 counts; 09 R305; 0, R411] slots received and erased in the 10 s window -/
  window : Nat × Nat := (0, 0)
  /-- [64 bits; 09 R305; 0, R411] start of that window, tick -/
  windowAt : Nat := 0
  /-- [1 bit; 09 R305; false, R411] event source 118 raised and not re-armed -/
  erasureRaised : Bool := false
  /-- [16 frames; 09 R304; empty, R411] S-FSK frames held -/
  sfsk : List SfskFrame := []
  /-- [4 requests; 09 R303; empty, R411] S-FSK transmissions queued: bits, data, tick of the OK reply -/
  sfskQueue : List (Nat × List Byte × Nat) := []
  /-- [record; 09 R303; none, R411] S-FSK transmission running -/
  sfskFlight : Option SfskFlight := none
  /-- [list; 10 R313, Table 10.8; empty, R411] network headers and messages accepted and not yet taken by P1, oldest first -/
  inbox : List (List Byte × List Byte) := []
  deriving DecidableEq, Repr, Inhabited

/-- A cost reported for a link between two remote nodes (R318). -/
structure RemoteLink where
  /-- [16 bits; 10 R318; none] node that reports, or recorded the path -/
  a : Nat := 0
  /-- [16 bits; 10 R318; none] its neighbour -/
  b : Nat := 0
  /-- [8 bits; 10 R318; none] cost -/
  cost : Nat := 0
  /-- [4 bits; 10 R328; 8] unmuted segments -/
  unmuted : Nat := 8
  /-- [1 bit; 10 R318; none] from a report, otherwise recorded by discovery -/
  reported : Bool := false
  deriving DecidableEq, Repr, Inhabited

/-- A route: its relays, in order (R319). -/
structure Route where
  /-- [0-7 x 16 bits; 10 R319; none] relays -/
  relays : List Nat := []
  /-- [1-8 x 8 bits; 10 Table 10.2; none] link costs -/
  costs : List Nat := []
  /-- [64 bits; 10 Table 10.2; none] timestamp of the pass that set it -/
  computed : Nat := 0
  deriving DecidableEq, Repr, Inhabited

/-- An admitted node (R308, Table 10.2). -/
structure Node where
  /-- [16 bits; 10 R308; none] address -/
  address : Nat := 0
  /-- [2 bits; 10 Table 10.2; 0] 0 without route, 1 routed, 2 unreachable, 3 discovering -/
  state : Nat := 0
  /-- [route; 10 R319; none] route -/
  route : Option Route := none
  /-- [1 bit; 10 R321; false] cached on S -/
  cached : Bool := false
  /-- [64 bits; 10 R321; 0] tick of last use of the cached route -/
  usedAt : Nat := 0
  /-- [32 bits; 10 R313; none] highest counter accepted -/
  counter : Option Nat := none
  /-- [64 bits; 10 Table 10.2; 0] last completed transaction, timestamp -/
  lastSuccess : Nat := 0
  /-- [16 bits; 10 R329; 0] consecutive failures -/
  failures : Nat := 0
  /-- [32 bits; 10 Table 10.2; 0, R411] completed transactions -/
  completed : Nat := 0
  /-- [32 bits; 10 Table 10.2; 0, R411] failed transactions -/
  failed : Nat := 0
  /-- [1 bit; 10 R322; false] has reported its neighbours -/
  reported : Bool := false
  /-- [64 bits; 10 R322; 0, R411] tick before which discovery is not repeated -/
  nextTry : Nat := 0
  /-- [64 bits; 10 R313; none, R411] tick of the last event source 133 -/
  authAt : Option Nat := none
  deriving DecidableEq, Repr, Inhabited

/-- An entry of the poll list (Table 10.7). -/
structure PollEntry where
  /-- [16 bits; 10 R325; none] index -/
  index : Nat := 0
  /-- [16 bits; 10 Table 10.7; none] node address -/
  node : Nat := 0
  /-- [8 bits; 10 Table 10.7; none] type -/
  type : Nat := 1
  /-- [3 bits; 10 Table 10.7; none] flags -/
  flags : Nat := 0
  /-- [11 bits; 10 Table 10.7; none] period, minutes -/
  period : Nat := 1
  /-- [11 bits; 10 Table 10.7; none] offset, minutes -/
  offset : Nat := 0
  /-- [2 bits; 10 Table 10.7; none] retries -/
  retries : Nat := 0
  /-- [4 bits; 10 Table 10.7; none] records -/
  records : Nat := 0
  /-- [64 bits; 10 R327; none, R411] due instant at which it became ready, UTC -/
  readyAt : Option Nat := none
  /-- [64 bits; 10 R327; 0, R411] last due instant acted on, UTC -/
  lastDue : Nat := 0
  /-- [64 bits; 10 R330; 0, R411] due instant of the transaction last started for it, UTC -/
  takenDue : Nat := 0
  deriving DecidableEq, Repr, Inhabited

/-- A transaction in flight (R327-R331). -/
structure Transaction where
  /-- [8 bits; 10 Table 10.1; none] transaction number of the frame -/
  number : Nat := 0
  /-- [16 bits; 10 R328; none] identifier of the transaction in the part -/
  id : Nat := 0
  /-- [16 bits; 10 R328; none] node -/
  node : Nat := 0
  /-- [8 bits; 10 Table 10.5; none] message type 01h, 02h or 03h -/
  type : Nat := 1
  /-- [16 bits or none; 10 R327; none] poll entry -/
  entry : Option Nat := none
  /-- [64 bits; 10 R330; 0] due instant at which the entry became ready -/
  due : Nat := 0
  /-- [tag, session; 10 R331; none] LINE_SEND it carries out -/
  op : Option (Nat × Nat) := none
  /-- [1 bit; 10 R331; none] a response is expected -/
  expect : Bool := true
  /-- [message; 10 R324; none] plaintext of the request -/
  message : List Byte := []
  /-- [1 bit; 10 Table 10.1; none] LONG -/
  long : Bool := false
  /-- [route; 10 R321; none] route of the attempt -/
  route : Route := {}
  /-- [3 bits; 10 R329; 0] attempts made -/
  attempts : Nat := 0
  /-- [3 bits; 10 R329; none] attempts allowed -/
  allowed : Nat := 1
  /-- [64 bits; 10 R328; none] deadline, tick; none until its frame is sent -/
  deadline : Option Nat := none
  /-- [32 bits; 10 R313; 0] counter of its last frame -/
  counter : Nat := 0
  /-- [1 bit; 10 R328; false] the frame of the attempt has been passed to the modem -/
  queued : Bool := false
  /-- [32 bits; 09 R301; 0] map frames received from the first hop when the attempt started -/
  mapsSeen : Nat := 0
  /-- [1 bit; 10 R329; false] waits for the pass that follows a route error -/
  waits : Bool := false
  deriving DecidableEq, Repr, Inhabited

/-- A LINE_SEND response held (R331). -/
structure HeldResponse where
  /-- [16 bits; 10 R331; none] operation tag -/
  tag : Nat := 0
  /-- [16 bits; 10 R331; none] node -/
  node : Nat := 0
  /-- [1-914 bytes; 10 R331; none] data -/
  data : List Byte := []
  deriving DecidableEq, Repr, Inhabited

/-- Mesh routing and polling on P1 (chapter 10). -/
structure MeshState where
  /-- [0-65,535; 10 R308; kept in the store] admission table and routes -/
  nodes : List Node := []
  /-- [list; 10 R318; empty, R411] reported and recorded links -/
  links : List RemoteLink := []
  /-- [0-65,535 entries; 10 R325; kept in the store] poll list -/
  polls : List PollEntry := []
  /-- [1 bit; 10 R326; false, R411; restored from the journal] polling runs -/
  running : Bool := false
  /-- [7 bits; 10 R326; 0, R411; restored from the journal] in-flight limit -/
  limit : Nat := 0
  /-- [64; 10 R327; empty, R411] transactions in flight -/
  flights : List Transaction := []
  /-- [16; 10 R331; empty, R411] responses held -/
  responses : List HeldResponse := []
  /-- [list of tags; 16 R496; empty, R411] LINE_SEND operations accepted that have not completed with a response -/
  tags : List Nat := []
  /-- [32 bits; 10 R313; 0; restored from the journal] counter of the next frame originated -/
  counter : Nat := 0
  /-- [32 bits; 10 R313; 0; in the journal] counter last journaled -/
  journaled : Nat := 0
  /-- [8 bits; 10 R314; 0, R411] next transaction number -/
  nextNumber : Nat := 0
  /-- [16 bits; 10 R328; 1, R411] next transaction identifier -/
  nextId : Nat := 1
  /-- [list; 10 R322; empty, R411] nodes waiting for discovery, in order -/
  discoveries : List Nat := []
  /-- [node, tick, transaction; 10 R322; none, R411] discovery running -/
  discovering : Option (Nat × Nat × Nat) := none
  /-- [list; 10 R322; empty, R411] neighbour-report polls queued for relays -/
  reports : List Nat := []
  /-- [1 bit; 10 R321; false, R411] a cost has changed since the last pass -/
  dirty : Bool := false
  /-- [1 bit; 10 R321; false, R411] a route error asks for a pass at once -/
  urgent : Bool := false
  /-- [64 bits; 10 R321; none, R411] tick of the last pass -/
  passAt : Option Nat := none
  /-- [6 x 32 bits; 16 R496; 0, R411] frames not admitted, authentication failures, occurrences skipped, entries skipped as unreachable, records discarded, responses discarded -/
  counters : List Nat := List.replicate 6 0
  /-- [list of 64 bits; 10 R333; empty, R411] ticks of the occurrences skipped in the last minute -/
  skipped : List Nat := []
  /-- [64 bits; 10 R327; none, R411] tick of the last event source 136 -/
  skipAt : Option Nat := none
  /-- [list; 10 R310; empty, R411] addresses not admitted and the tick of their last event source 134 -/
  strangers : List (Nat × Nat) := []
  deriving DecidableEq, Repr, Inhabited

/-- A journal record (Tables 12.16 and 12.17); its body as the data it carries, whose bytes `JournalRecord.bytes` gives. -/
structure JournalRecord where
  /-- [8 bits; 12 Table 12.17; none] type 1-8 -/
  type : Nat := 1
  /-- [1 bit; 12 Table 12.16; none] PROVISIONAL -/
  provisional : Bool := false
  /-- [32 bits; 12 Table 12.16; none] journal sequence -/
  sequence : Nat := 0
  /-- [32 bits; 12 Table 12.16; none] context serial, or 0 -/
  serial : Nat := 0
  /-- [64 bits; 12 Table 12.16; none] time -/
  time : Nat := 0
  /-- [2,792 bytes; 12 Table 12.17; none] state carried by types 1, 2, 3 and 5 -/
  context : Option Context := none
  /-- [8 bits; 12 Table 12.17; none] action mask (type 2) or step (type 3) -/
  code : Nat := 0
  /-- [list; 12 Table 12.17; none] feed record (type 4), numbers (types 6 and 7) -/
  data : List Nat := []
  /-- [group and interval; 12 Table 12.17; none] balance record (type 8) -/
  balance : Option (Nat × GroupInterval) := none
  deriving DecidableEq, Repr, Inhabited

/-- An event-log record (Table 12.18). -/
structure LogRecord where
  /-- [64 bits; 12 Table 12.18; none] sequence -/
  sequence : Nat := 0
  /-- [64 bits; 12 Table 12.18; none] time -/
  time : Nat := 0
  /-- [16 bits; 12 Table 12.18; none] kind -/
  kind : Nat := 0
  /-- [0-1,024 bytes; 12 Table 12.18; none] body -/
  body : List Byte := []
  /-- [1 bit; 12 R385, R393; none] its page cannot be corrected -/
  lost : Bool := false
  deriving DecidableEq, Repr, Inhabited

/-- A capture record in a ring (Table 12.20). -/
structure RingRecord where
  /-- [64 bits; 12 R394; none] ring position of the header -/
  position : Nat := 0
  /-- [bytes; 12 R394; none] header, blocks and padding -/
  bytes : List Byte := []
  deriving DecidableEq, Repr, Inhabited

/-- A capture ring in the store (R394). -/
structure Ring where
  /-- [10 bits; 12 Table 12.14; rings 0 and 1: 16, others 0 (log 19)] size, 4 MiB units -/
  size : Nat := 0
  /-- [64 bits; 12 R394; 0 (log 19)] oldest position -/
  oldest : Nat := 0
  /-- [64 bits; 12 R394; 0 (log 19)] newest position -/
  newest : Nat := 0
  /-- [32 bits; 12 Table 12.20; 0 (log 19)] records written since format -/
  written : Nat := 0
  /-- [list; 12 R394; empty (log 19)] whole records held, oldest first -/
  records : List RingRecord := []
  deriving DecidableEq, Repr, Inhabited

/-- A store device (Table 16.21). -/
structure Device where
  /-- [1 bit; 12 R381; CS0 fitted, CS1 not (log 19)] present -/
  present : Bool := false
  /-- [64 bits; 12 R381; 1 GiB (log 19)] capacity, bytes -/
  capacity : Nat := 0
  /-- [16 bits; 12 Table 12.15; 0 (log 19)] factory bad blocks -/
  bad : Nat := 0
  /-- [16 bits; 12 Table 12.15; 0 (log 19)] retired blocks -/
  retired : Nat := 0
  /-- [16 bits; 12 Table 12.14; 2 % of the blocks (log 19)] spare blocks left -/
  spare : Nat := 0
  deriving DecidableEq, Repr, Inhabited

/-- A firmware slot descriptor (Table 13.4). -/
structure FwSlot where
  /-- [8 bits; 13 Table 13.4; slot 0 valid, slot 1 empty (log 19)] 0 empty, 1 valid -/
  state : Nat := 0
  /-- [8 bits; 13 Table 13.4; 3 (log 19)] security version -/
  version : Nat := 0
  /-- [16 bits; 13 Table 13.4; 0300h: 3.0 (00 Scope)] release, minor then major -/
  release : Nat := 0
  /-- [32 bits; 13 Table 13.4; free (log 17)] build -/
  build : Nat := 0
  /-- [32 bits; 13 Table 13.4; 0 (log 19)] image length -/
  length : Nat := 0
  /-- [64 bytes; 13 Table 13.4; zeros (log 19)] SHA-512 of the image -/
  hash : List Byte := []
  /-- [0-16 MiB; 13 R412; none (log 19)] image bytes written to the slot; empty for the factory image -/
  image : List Byte := []
  deriving DecidableEq, Repr, Inhabited

/-- A copy of the boot table (R412), whose bytes `BootTable.bytes` gives. -/
structure BootTable where
  /-- [32 bits; 13 Table 13.4; 1 (log 19)] sequence -/
  sequence : Nat := 1
  /-- [8 bits; 13 Table 13.4; 0 (log 19)] active slot, or FFh -/
  active : Nat := 0
  /-- [8 bits; 13 Table 13.4; FFh (log 19)] trial slot, or FFh -/
  trial : Nat := 255
  /-- [8 bits; 13 Table 13.4; 0 (log 19)] trial state -/
  trialState : Nat := 0
  /-- [2 descriptors; 13 Table 13.4; slot 0 valid (log 19)] slots -/
  slots : List FwSlot := [{ state := 1, version := 3, release := 0x0300 }, {}]
  /-- [0-3,072 bytes; 13 Table 13.4; none (log 19)] certificate -/
  certificate : List Byte := []
  /-- [9 x 16 bits; 13 Table 13.4; 64, 16, 16, then 0 (R382 defaults)] store layout: event log, rings 0-7, 4 MiB units -/
  layout : List Nat := [64, 16, 16, 0, 0, 0, 0, 0, 0]
  deriving DecidableEq, Repr, Inhabited

/-- The latest write of the boot table (R425). -/
structure BootWrite where
  /-- [64 bits; 13 R425; none] tick -/
  at_ : Nat := 0
  /-- [record; 13 R425; none] a confirmation asked for it: counter, revocation bits, log sequence and chain before it -/
  confirms : Option (Nat × Nat × Nat × List Byte) := none
  deriving DecidableEq, Repr, Inhabited

/-- The store (chapter 12) and what it keeps through a reset. -/
structure StoreState where
  /-- [2 bits; 16 Table 16.21; 1 writable (log 19)] 0 unformatted, 1 writable, 2 read-only -/
  state : Nat := 1
  /-- [1 bit; 14 R430; false, R411] read-only because VIO_S failed -/
  vioOnly : Bool := false
  /-- [record; 12 R386; none, R411] STORE_FORMAT running: tag, session, layout -/
  formatting : Option (Nat × Nat × List Nat) := none
  /-- [list; 14 Table 14.10; none] format abandoned by a warning or reset, to be completed at start-up -/
  unfinished : Option (List Nat) := none
  /-- [2 devices; 12 R381; CS0 1 GiB (log 19)] devices -/
  devices : List Device := [{ present := true, capacity := 1073741824, spare := 81 }, {}]
  /-- [ring; 12 R387; empty (log 19)] journal, oldest first -/
  journal : List JournalRecord := []
  /-- [32 bits; 12 R387; 1 (log 19)] next journal sequence -/
  nextJournal : Nat := 1
  /-- [64 bits; 12 R389; 0 (log 19)] position in the journal ring of the oldest record held, bytes since format -/
  journalStart : Nat := 0
  /-- [list; 12 R383; empty (log 19)] context records in the pool, with the instant written -/
  pool : List (Context × Nat) := []
  /-- [0-8,192 serials; 07 R253; empty (log 19)] parked contexts -/
  parked : List Nat := []
  /-- [32 bits; 01 R28; 1 (log 19)] next context serial -/
  nextSerial : Nat := 1
  /-- [36 per context; 07 R235; empty (log 19)] snapshots, newest first -/
  snapshots : List Snapshot := []
  /-- [35,136 or 5,952 per context; 07 R232; empty (log 19)] load-profile entries, newest first -/
  profiles : List ProfileEntry := []
  /-- [256 per context; 08 R270; empty (log 19)] tamper records, newest first -/
  tampers : List TamperRecord := []
  /-- [ring; 12 R391; empty (log 19)] event log, oldest first -/
  log : List LogRecord := []
  /-- [64 bits; 12 Table 12.18; 1 (log 19)] next log sequence -/
  nextLog : Nat := 1
  /-- [64 bits; 12 R393; 0 (log 19)] position in the log ring of the oldest record held, bytes since format -/
  logStart : Nat := 0
  /-- [64 bytes; 12 R392; 64 zero bytes] chain value h of the newest record -/
  chain : List Byte := List.replicate 64 0
  /-- [64 bits; 12 Table 12.15; 0 (log 19)] sequence of the last checkpoint -/
  lastCheckpoint : Nat := 0
  /-- [64 bits; 12 R392; none (log 19)] tick of the first record that no checkpoint covers -/
  uncovered : Option Nat := none
  /-- [8 rings; 12 R394; rings 0 and 1 of 64 MiB (log 19)] capture rings -/
  rings : List Ring := [{ size := 16 }, { size := 16 }, {}, {}, {}, {}, {}, {}]
  /-- [record; 13 R412; log 19] the copy of the boot table that governs: the valid one of the higher sequence -/
  boot : BootTable := {}
  /-- [record; 13 R412; none (log 19)] the other copy, none where it is not valid -/
  bootSpare : Option BootTable := none
  /-- [record; 13 R412, R425; none (log 19)] the latest write of a copy, which a power loss may cut -/
  bootWrite : Option BootWrite := none
  deriving DecidableEq, Repr, Inhabited

/-- What a request in the signing queue signs (R404). -/
inductive SignJob where
  | snapshot (serial period : Nat)
  | tamper (serial number : Nat)
  | checkpoint (sequence : Nat)
  | quote (session tag : Nat)
  deriving DecidableEq, Repr, Inhabited

/-- An open firmware update (R417-R419). -/
structure Update where
  /-- [3 bits; 13 R417; none] session it belongs to -/
  session : Nat := 0
  /-- [24 bits; 13 R417; none] image length -/
  length : Nat := 0
  /-- [1 bit; 13 R417; none] target slot -/
  slot : Nat := 0
  /-- [1 bit; 13 R417; false] the erase is complete -/
  erased : Bool := false
  /-- [0-16 MiB; 13 R418; empty] data received -/
  data : List Byte := []
  /-- [16 bits; 13 R417; none] tag of the FW_BEGIN -/
  tag : Nat := 0
  deriving DecidableEq, Repr, Inhabited

/-- Security and lifecycle (chapter 13): vault OTP, secure SRAM and the signing queue. -/
structure SecurityState where
  /-- [4 bits; 13 R406; 2 FIELD (log 19)] lifecycle index -/
  lifecycle : Nat := 2
  /-- [1 bit; 13 Table 13.1; true (log 19)] identity key present -/
  identity : Bool := true
  /-- [draw; 13 Table 13.1; 1 (log 16)] the identity key, as the number of the random draw that made it -/
  identityDraw : Nat := 1
  /-- [1 bit; 13 Table 13.1, R409; false (log 19)] K_dev has been programmed to all ones -/
  rootErased : Bool := false
  /-- [32 bytes; 13 Table 13.1; none (log 19)] transport key K_tr, `none` when not provisioned -/
  transport : Option (List Byte) := none
  /-- [1 bit; 13 R420; false (log 19)] a transport key has been provisioned since PROVISIONED -/
  transportSet : Bool := false
  /-- [16 bytes; 13 Table 13.1; none (log 19)] network key K_net -/
  network : Option (List Byte) := none
  /-- [16 bytes; 13 Table 13.1; none (log 19)] the second copy of K_net -/
  networkCopy : Option (List Byte) := none
  /-- [draw; 13 Table 13.1; 0 (log 16)] store key, as the number of the random draw that made it -/
  storeKey : Nat := 0
  /-- [draw; 13 Table 13.1; 0 (log 16)] the second copy of the store key -/
  storeKeyCopy : Nat := 0
  /-- [4 bits; 13 R410; 2 (log 19)] lifecycle state under which the store key was made -/
  storeKeyState : Nat := 2
  /-- [1 bit; 13 Table 13.9; false (log 19)] keys lost (R401) since the last transition -/
  keysLost : Bool := false
  /-- [256 bits; 13 R413; 3 (log 19)] anti-rollback counter -/
  counter : Nat := 3
  /-- [4 bits; 13 R415; 0 (log 19)] revocation bits of firmware keys 0-3 -/
  revoked : Nat := 0
  /-- [draw; 13 R402; none, R411] nonce of K_link, as the number of its draw -/
  link : Option Nat := none
  /-- [32 bytes; 13 R402; none, R411] K_link, as the vault and the crypto engine derived it -/
  linkKey : Option (List Byte) := none
  /-- [16 slots; 13 R402; empty, R411] key slots of the crypto engine -/
  engine : List (Option (List Byte)) := List.replicate 16 none
  /-- [256 requests; 13 R404; empty, R411] signing queue, oldest first -/
  signing : List SignJob := []
  /-- [list; 13 R404; empty, R411] records that found the queue full, oldest first -/
  backlog : List SignJob := []
  /-- [1 bit; 13 R404; false, R411] signing is stopped by a power warning -/
  stopped : Bool := false
  /-- [1 bit; 13 Table 13.11; false, R411] event source 181 raised for the present backlog -/
  backlogRaised : Bool := false
  /-- [record; 13 R417; none, R411] firmware update open -/
  update : Option Update := none
  /-- [record; 13 R419; none, R411] FW_END running: tag, session, slot, ACTIVATE, retry -/
  ending : Option (Nat × Nat × Nat × Bool × Bool) := none
  /-- [64 bits; 13 R415; none, R411] tick from which the 60 s of trial confirmation count -/
  trialFrom : Option Nat := none
  /-- [record; 13 R409; none; kept by the vault] transition accepted: old state, new state -/
  transition : Option (Nat × Nat) := none
  /-- [states; 13 R409; none] event source 179 pending at OPEN: old state, new state -/
  advanced : Option (Nat × Nat) := none
  /-- [16 transitions; 08 R269; empty] transitions of the tamper switches on battery, oldest first: input, active, UTC -/
  tampLog : List (Nat × Bool × Nat) := []
  /-- [count; 08 R269; 0] transitions lost -/
  tampLost : Nat := 0
  /-- [1 bit; 13 R422; false, R411] debug port open -/
  debugOpen : Bool := false
  /-- [2 bits; 13 R422; 0; until a power-on reset] invalid debug signatures -/
  debugFailures : Nat := 0
  /-- [draw; 13 R422; 2 (log 16)] the challenge that the debug port presents, as the number of its draw -/
  debugChallenge : Nat := 2
  /-- [1 bit; 13 R422; false (log 97)] the debug port closed with a reset: event source 182 is raised at the next start-up -/
  debugClosed : Bool := false
  deriving DecidableEq, Repr, Inhabited

/-- A health-log entry (Table 11.6). -/
structure HealthEntry where
  /-- [32 bits; 11 Table 11.6; none] sequence -/
  sequence : Nat := 0
  /-- [8 bits; 11 Table 11.6; none] kind 152-167 -/
  kind : Nat := 152
  /-- [8 bits; 11 Table 11.6; none] outcome -/
  outcome : Nat := 0
  /-- [16 bits; 11 Table 11.6; none] handle -/
  handle : Nat := 0
  /-- [64 bits; 11 Table 11.6; none] time -/
  time : Nat := 0
  /-- [16 bits; 11 Table 11.6; none] carrier -/
  carrier : Nat := 0
  /-- [16 bits; 11 Table 11.6; none] rung -/
  rung : Nat := 0
  /-- [32 bits; 11 Table 11.6; none] detail -/
  detail : Nat := 0
  deriving DecidableEq, Repr, Inhabited

/-- Checker, health log and restarts (chapter 11). -/
structure HealthState where
  /-- [4,096 entries; 11 R355; empty (log 19)] health log, newest first -/
  log : List HealthEntry := []
  /-- [32 bits; 11 Table 11.6; 1 (log 19)] next sequence -/
  next : Nat := 1
  /-- [3 x 32 bits; 16 Table 16.24; 0, R411] restarts of P0, P1 and the DSP since reset -/
  restarts : List Nat := [0, 0, 0]
  /-- [list of (pair, tick); 11 R354; empty, R411] pair restarts of the last 10 s -/
  recent : List (Nat × Nat) := []
  /-- [32 bits; 16 Table 16.24; 0, R411] checker transients -/
  transients : Nat := 0
  /-- [1 bit; 11 R356; enabled (log 21)] rotation enabled -/
  rotation : Bool := true
  /-- [7 bits; 11 R346; 10] dwell, 0.1 s -/
  dwell : Nat := 10
  /-- [7 bits; 11 Table 11.3; 10] RMS limit, 0.01 % -/
  rmsLimit : Nat := 10
  /-- [7 bits; 11 Table 11.3; 8] delay limit, 0.25 ns -/
  delayLimit : Nat := 8
  /-- [binary32; 11 Table 11.3; 1 x 10^-4] waveform limit -/
  waveLimit : F32 := 0x38D1B717#32
  /-- [6 bits; 11 R356; none, R411] checker setting that waits for the next dwell -/
  nextConfig : Option (Bool × Nat × Nat × Nat × F32) := none
  /-- [channel, lane, tick; 11 R346; none, R411] dwell running -/
  dwelling : Option (Nat × Nat × Nat) := none
  /-- [channel, first lane, lane, tick; 11 R348; none, R411] confirming dwell running -/
  confirming : Option (Nat × Nat × Nat × Nat) := none
  /-- [channel and first lane; 11 R344; none, R411] confirming dwell to be repeated when a lane is free -/
  unconfirmed : Option (Nat × Nat) := none
  /-- [5 bits; 11 R346; 0, R411] next channel of the rotation -/
  nextChannel : Nat := 0
  /-- [list of (channel, tick, kind); 11 R341; empty, R411] bridges of slice exclusions and restarts: kind 0 waits for handover, 1 waits for handback -/
  bridges : List (Nat × Nat × Nat) := []
  /-- [die; 11 R350; none, R411] die the belvedere substitutes for -/
  substituting : Option Nat := none
  /-- [1 bit; 11 R350; false, R411] the substitution has not completed yet -/
  settling : Bool := false
  /-- [64 bits; 11 R351, Table 11.6; 0, R411] start of the replayed span of the last substitution, 1/512 tick -/
  replayFrom : Nat := 0
  /-- [list; 11 R357; empty, R411] channels substituted by command, repair or the checker -/
  substituted : List Nat := []
  /-- [list; 11 R357; empty, R411] channels with a failed low bench that FORCE_SUBSTITUTE released: no lane takes them again under R343 -/
  released : List Nat := []
  /-- [64 bits; 14 R429; none, R411] tick of the VANA supply fault -/
  vanaFault : Option Nat := none
  /-- [5 bits; 14 R429; empty, R411] dies of the VANA supply fault -/
  vanaDies : List Nat := []
  deriving DecidableEq, Repr, Inhabited

/-- The gatehouse state of the vault (R359-R365). -/
structure GatehouseState where
  /-- [8 bits; 11 Table 11.8; 0; kept] cause of the latest episode -/
  cause : Nat := 0
  /-- [32 bits; 11 Table 11.8; 0; kept] episodes -/
  episodes : Nat := 0
  /-- [64 bits; 11 Table 11.8; 0; kept] entry time -/
  entry : Nat := 0
  /-- [64 bits; 11 Table 11.8; 0; kept] exit time -/
  exit : Nat := 0
  /-- [64 bits; 11 R361; 0, R411] tick boundary that ends the tally tick in progress -/
  tickAt : Nat := 0
  /-- [1 bit; 11 R360; false] TALLY_FAULT -/
  fault : Bool := false
  /-- [32 bits; 11 Table 11.8; 0; kept] ticks of the latest episode -/
  ticks : Nat := 0
  /-- [6 x 48 bits; 11 R361; 0; kept] totals, mWh -/
  totals : List Nat := List.replicate 6 0
  /-- [6 ratios; 11 R361; 0] residues carried internally, mWh -/
  rest : List Rat := List.replicate 6 0
  /-- [6 x 48 bits; 11 R360, 14 R431; 0; kept] the second copy of the totals -/
  totalsCopy : List Nat := List.replicate 6 0
  /-- [6 x 48 bits; 11 Table 11.8; 0; kept] totals at the latest entry -/
  entryTotals : List Nat := List.replicate 6 0
  /-- [6 x 16 bits; 11 Table 11.8; 0] one-second RMS of CH0-CH5 -/
  rms : List Nat := List.replicate 6 0
  /-- [6 windows; 11 R360; defaults; kept by the vault] copies of the fast windows of CH0-CH5 -/
  windows : List Window := List.replicate 6 { low := -65536, high := 65535, dwell := 1 }
  /-- [6 channel settings; 11 R360; defaults; kept by the vault] copies of roles, scales and polarities -/
  channels : List ChannelConfig := List.replicate 6 {}
  /-- [6 banks; 11 R360; identity; kept by the vault] copies of the active banks -/
  banks : List (List Int) := List.replicate 6 identityBank
  /-- [6 x 18 bits signed; 11 R360; 0; kept by the vault] copies of the host delay trims -/
  delays : List Int := List.replicate 6 0
  /-- [3 integers; 11 R361; 0, R411] products of the narrowband values of each element in the tick in progress -/
  work : List Int := List.replicate 3 0
  /-- [6 integers; 11 Table 11.8; 0, R411] squares of the narrowband values of each lane in the second in progress -/
  squares : List Nat := List.replicate 6 0
  /-- [6 x 18 bits; 11 Table 11.8; 0, R411] narrowband samples of each lane in the second in progress -/
  counted : List Nat := List.replicate 6 0
  /-- [7 bits; 11 Table 11.8; 0, R411] ticks of the second in progress -/
  secondTicks : Nat := 0
  /-- [1 bit; 11 R364; false] EVENT_PENDING of H1 until the first GET_STATUS -/
  unseen : Bool := false
  /-- [1 bit; 11 R365; false] event source 167 pending at OPEN -/
  episodeEnded : Bool := false
  deriving DecidableEq, Repr, Inhabited

/-- What a reset was asked to do once the commit ends (R443, R419). -/
structure PendingReset where
  /-- [4 bits; 14 R445; none] cause -/
  cause : Nat := 3
  /-- [64 bits; 14 R443; none] earliest tick -/
  notBefore : Nat := 0
  deriving DecidableEq, Repr, Inhabited

/-- Supplies, resets and the commit (chapter 14). -/
structure PowerState where
  /-- [1 bit; 14 R427; false, R411] the warning is armed -/
  armed : Bool := false
  /-- [64 bits; 14 R427; none, R411] tick at which the latched warning came -/
  warning : Option Nat := none
  /-- [1 bit; 14 R436; false, R411] the commit of the warning has ended -/
  committed : Bool := false
  /-- [tick; 07 R245; none, R411] T_pf of the commit running -/
  commit : Option Nat := none
  /-- [64 bits; 14 Table 14.9; 0, R411] tick of the warning or RESET that the commit follows -/
  commitAt : Nat := 0
  /-- [sequence; 12 Table 12.17; none, R411] journal sequence of the first record of the commit -/
  commitFirst : Nat := 0
  /-- [1 bit; 14 R435; false, R411] a ride-through came before the commit ended -/
  rode : Bool := false
  /-- [1 bit; 14 R435; false, R411] the checkpoint of R249 is being written -/
  rideCheckpoint : Bool := false
  /-- [list; 12 Table 12.22; empty, R411] rings whose capture write the warning cut short: event source 144 after a ride-through -/
  cutCaptures : List Nat := []
  /-- [record; 14 R443; none, R411] reset that follows the commit -/
  reset : Option PendingReset := none
  /-- [4 bits; 14 R445; 0 power-on] cause of the last reset -/
  cause : Nat := 0
  /-- [3 bits; 14 R445; 0] flags of the last reset -/
  causeFlags : Nat := 0
  /-- [1 bit; 14 R431; false, R411] VBAT low -/
  vbatLow : Bool := false
  /-- [list of (1 bit, 32 bits); 14 R431; kept by the vault, empty] ends and starts of VBAT low that the vault saw while S did not run, with
  the voltage: event source 171 of each to be raised -/
  vbatMarks : List (Bool × F32) := []
  /-- [1 bit; 14 R430; false, R411] VIO_S fault -/
  vioFault : Bool := false
  /-- [64 bits; 14 R430; 0, R411] tick of the latest VIO_S fault -/
  vioFaultAt : Nat := 0
  /-- [1 bit; 15 R461; sensed at the end of every reset, 1.8 V until then] VIO_H has the 3.3 V setting -/
  vioH : Bool := false
  /-- [1 bit; 15 R461; sensed at the end of every reset, 1.8 V until then] VIO_S has the 3.3 V setting -/
  vioS : Bool := false
  /-- [64 bits; 16 Table 16.6; 0, R411] UTC at which READY was set -/
  readyUtc : Nat := 0
  /-- [64 bits; 14 R442; 0, R411] tick of the last watchdog service; armed at the end of a reset -/
  watchdogAt : Nat := 0
  /-- [1 bit; 14 R442; false, R411] watchdog armed -/
  watchdog : Bool := false
  /-- [1 bit; 12 Table 12.2; false, R411] start-up found no valid format: source 148 to be raised -/
  formatted : Bool := false
  /-- [1 bit; 13 R401; false, R411] the battery domain was found lost at this start-up -/
  batteryLost : Bool := false
  /-- [1 bit; 07 R243; kept by the vault, false] the vault marked the RTC invalid while S was in reset: event source 94 to be raised -/
  rtcMark : Bool := false
  /-- [slots and cause; 13 R414; none, R411] event source 178 pending after start-up: slot not booted, slot booted, cause -/
  notBooted : Option (Nat × Nat × Nat) := none
  deriving DecidableEq, Repr, Inhabited

/-- The pins the part drives (chapter 15). -/
structure PinState where
  /-- [1 bit; 03 R98; released] ALARM_N asserted -/
  alarm : Bool := false
  /-- [list of (channel, slow); 03 R98; empty, R411] alarm windows that exited and have not re-armed -/
  alarms : List (Nat × Bool) := []
  /-- [2 x (66 bits and 1 bit); 03 R92; none, R411] last edge of each PWMIN pin, quarter ticks, rising, until it has stood for 100 ns -/
  pwm : List (Option (Nat × Bool)) := [none, none]
  /-- [64 bits; 08 R261; 0, R411] tick of the last button release -/
  button : Nat := 0
  /-- [3 bits; 07 R226; 0, R411] code last found held at TARIF0-TARIF2 -/
  tariff : Nat := 0
  /-- [64 bits; 07 R226; end of the reset] tick up to which those pins are known not to have held another code -/
  tariffAt : Nat := 0
  deriving DecidableEq, Repr, Inhabited

/-- Who stops with a fault. Each is safe: the model stops where a command names no object of the hardware. -/
inductive Fault where
  /-- an event row names a channel, unit, die, lane, timer, ring, pin or group that the part does not have;
  raised by every event row's bounds check (safe) -/
  | noSuchObject
  deriving DecidableEq, Repr, Inhabited

/-- Who refuses a command. -/
inductive Refusal where
  /-- a row without its meaning yet; raised in Dispatch only (safe) -/
  | notModelled (mnemonic : String)
  deriving DecidableEq, Repr, Inhabited

/-- The block. -/
structure State where
  /-- [phase; 14 R437; held: a power-on reset has acted and not ended (log 19)] where the part stands -/
  phase : Phase := .held
  /-- [64 bits; 01 R33; 0 (log 20)] timebase count of the last command -/
  now : Nat := 0
  /-- [chapter 02; R57, R58; R411] host ports, sessions, ownership -/
  host : HostState := {}
  /-- [chapter 14; R448-R453; R411] clocks -/
  clock : ClockState := {}
  /-- [24 channels; 03 R100; R437] input channels -/
  channels : List Channel := List.replicate 24 {}
  /-- [30 converters; 03 R72; R411] home converters 0-23, lanes 24-29 -/
  converters : List Converter := List.replicate 30 {}
  /-- [8 dies; 01 Table 1.1; R411] dies 0-7 -/
  dies : List Die := List.replicate 8 {}
  /-- [2 bits; 01 R33, 03 Table 3.9; 0, R411] sample phase: timebase tick modulo 4 of raw instants -/
  samplePhase : Nat := 0
  /-- [8 timers; 03 R91; off, R411] trigger timers -/
  timers : List Timer := List.replicate 8 {}
  /-- [tracker; 04 R120; R120] frequency tracker -/
  tracker : Tracker := {}
  /-- [8 captures; 04 R136; idle, R411] captures of rings 0-7 -/
  captures : List Capture := List.replicate 8 {}
  /-- [sequencer; 05 R145; idle, R411] calibration sweeps -/
  sweep : SweepState := {}
  /-- [record; 05 R164; defaults] calibration -/
  cal : CalState := {}
  /-- [chapter 06; R174; R411] measurement -/
  meas : MeasState := {}
  /-- [chapters 07 and 08; R216; R411] contexts and billing -/
  bill : BillState := {}
  /-- [chapter 09; R277; defaults] line modem -/
  line : LineState := {}
  /-- [chapter 10; R308; R411] mesh -/
  mesh : MeshState := {}
  /-- [chapter 12; R381; log 19] store -/
  store : StoreState := {}
  /-- [chapter 13; R400; log 19] security -/
  sec : SecurityState := {}
  /-- [chapter 11; R334; R411] health -/
  health : HealthState := {}
  /-- [chapter 11; R359; 0] gatehouse -/
  gate : GatehouseState := {}
  /-- [chapter 14; R426; R411] power and resets -/
  power : PowerState := {}
  /-- [chapter 15; R441; released] pins -/
  pins : PinState := {}
  /-- [model's own; DESIGN CHOICE 3 (log 11)] draws made of free values: the keys of the part took the first three -/
  draws : Nat := 3
  /-- [queue; the block's commands; empty] commands that wait, first in, first out -/
  pending : List Instr := []
  deriving DecidableEq, Repr

/-- The machine right after reset: a power-on reset has acted and has not ended (R440, R411, R444; log 19, 20). -/
def State.reset : State := {}

end Sys2Proof.Machine
end

