-- ==== Sys2Proof/Machine/Ops.lean ====
section
/-! DEFINITION. The operations every meaning shares: time, list access, event queues (chapter 12), the event log,
the health log, accepted operations (R54-R56), and the pins that follow from state. -/

namespace Sys2Proof.Machine

/-- The outcome of a command. -/
abbrev Out := Host.Outcome State Fault Refusal

/-- A meaning over objects the part has; the fault of a command that names none. -/
def guarded (ok : Bool) (s : State) : Out := if ok then .next s else .fault .noSuchObject

/-! ### Lists -/

/-- The list with entry `i` changed by `f`; an index past the end changes nothing. -/
def alter {α : Type} (l : List α) (i : Nat) (f : α → α) : List α := l.modify i f

/-- The list with every entry that satisfies `p` changed by `f`. -/
def alterWhere {α : Type} (l : List α) (p : α → Bool) (f : α → α) : List α := l.map (fun x => if p x then f x else x)

/-- The entry at `i`, or the type's default. -/
def nth {α : Type} [Inhabited α] (l : List α) (i : Nat) : α := l.getD i default

/-- OR of a list of flag words. -/
def orAll (l : List Nat) : Nat := l.foldl (fun a b => a ||| b) 0

/-- Whether any bit of `mask` is set in `n`. -/
def has (n mask : Nat) : Bool := (n &&& mask) != 0

/-- A number with the bits of `mask` cleared. -/
def without (n mask : Nat) : Nat := n - (n &&& mask)

/-! ### Rounding -/

/-- Round to nearest, halves away from zero, of n / d (R75). -/
def roundDiv (n : Int) (d : Nat) : Int :=
  if n ≥ 0 then (2 * n + d) / (2 * d : Nat) else -((2 * (-n) + d) / (2 * d : Nat))

/-- A quotient the spec leaves unrounded: exact when it is whole, otherwise one of the two neighbours (log 12). -/
def openDiv (tag : Nat) (n : Int) (d : Nat) : Int :=
  if n % d = 0 then n / d else n / d + (if Config.roundsUp tag n then 1 else 0)

/-- A ratio as a whole number under the same convention. -/
def openRat (tag : Nat) (x : Rat) : Int := openDiv tag x.num x.den

/-- Integer square root, by bits from 2^k down. -/
def isqrtFrom : Nat → Nat → Nat → Nat
  | 0, _, r => r
  | k + 1, n, r => if (r + 2 ^ k) * (r + 2 ^ k) ≤ n then isqrtFrom k n (r + 2 ^ k) else isqrtFrom k n r

/-- The largest `r` with `r * r ≤ n`. -/
def isqrt (n : Nat) : Nat := isqrtFrom (n.log2 / 2 + 1) n 0

/-- A root the spec leaves unrounded (log 12). -/
def openSqrt (tag n : Nat) : Nat :=
  if isqrt n * isqrt n = n then isqrt n else isqrt n + (if Config.roundsUp tag n then 1 else 0)

/-- The square root of a ratio: exact where it is a ratio, otherwise to steps of 2^-64 (log 14). -/
def rootRat (x : Rat) : Rat :=
  let n := x.num.toNat
  if isqrt n * isqrt n = n && isqrt x.den * isqrt x.den = x.den then (isqrt n : Rat) / (isqrt x.den : Rat)
  else mkRat (isqrt (n * 2 ^ 128 / x.den)) (2 ^ 64)

/-- Integer cube root, by bits from 2^k down. -/
def icbrtFrom : Nat → Nat → Nat → Nat
  | 0, _, r => r
  | k + 1, n, r => if (r + 2 ^ k) ^ 3 ≤ n then icbrtFrom k n (r + 2 ^ k) else icbrtFrom k n r

/-- The cube root of a ratio, to steps of 2^-64 (log 14). -/
def cubeRootRat (x : Rat) : Rat :=
  let n := x.num.toNat * 2 ^ 192 / x.den
  mkRat (icbrtFrom (n.log2 / 3 + 1) n 0) (2 ^ 64)

/-- A quotient; by zero, a value that no rule states (log 74). -/
def quotient (tag : Nat) (n d : Rat) : Rat := if d = 0 then Config.zeroQuotient tag n else n / d

/-! ### Cosines, sines and angles, in fixed point of 96 bits (log 14) -/

/-- One. -/
def fixOne : Nat := 2 ^ 96

/-- A whole turn in radians. -/
def fixTurn : Nat := 497805226624462170461043889244

/-- The product of two fixed-point numbers. -/
def fixMul (x y : Nat) : Nat := x * y / fixOne

/-- 1 - q/((m+1)(m+2)) (1 - q/((m+3)(m+4)) (...)), to the number of brackets given. -/
def fixSeries (q : Nat) : Nat → Nat → Nat
  | 0, _ => fixOne
  | k + 1, m => fixOne - fixMul q (fixSeries q k (m + 2)) / ((m + 1) * (m + 2))

/-- The cosine and the sine of `a / b` of a turn, at most an eighth, in steps of 2^-64. -/
def fixCos (a b : Nat) : Int :=
  let x := fixTurn * a / b
  Int.ofNat ((fixSeries (fixMul x x) 13 0 + 2 ^ 31) / 2 ^ 32)
def fixSin (a b : Nat) : Int :=
  let x := fixTurn * a / b
  Int.ofNat ((fixMul x (fixSeries (fixMul x x) 13 1) + 2 ^ 31) / 2 ^ 32)

/-- The cosine of `k / n` of a turn, in steps of 2^-64. -/
def cosSteps (k n : Nat) : Int :=
  let a := 8 * (k % n)
  match a / n with
  | 0 => fixCos a (8 * n)
  | 1 => fixSin (2 * n - a) (8 * n)
  | 2 => -fixSin (a - 2 * n) (8 * n)
  | 3 => -fixCos (4 * n - a) (8 * n)
  | 4 => -fixCos (a - 4 * n) (8 * n)
  | 5 => -fixSin (6 * n - a) (8 * n)
  | 6 => fixSin (a - 6 * n) (8 * n)
  | _ => fixCos (8 * n - a) (8 * n)

/-- The sine: the cosine a quarter before. -/
def sinSteps (k n : Nat) : Int := cosSteps (4 * k + 3 * n) (4 * n)

/-- They as ratios. -/
def cosTurn (k n : Nat) : Rat := mkRat (cosSteps k n) (2 ^ 64)
def sinTurn (k n : Nat) : Rat := mkRat (sinSteps k n) (2 ^ 64)

/-- The arctangent's series from the term of power `m` on, without the leading power. -/
def fixAtanSeries (q : Nat) : Nat → Nat → Nat
  | 0, m => fixOne / m
  | k + 1, m => fixOne / m - fixMul q (fixAtanSeries q k (m + 2))

/-- The tangent of half the angle whose tangent is given. -/
def fixHalfTan (z : Nat) : Nat := z * fixOne / (fixOne + isqrt (fixOne * fixOne + z * z))

/-- The arctangent in degrees of a number of at most 1 in magnitude. -/
def atanDegrees (z : Rat) : Rat :=
  let y := fixHalfTan (fixHalfTan (z.num.natAbs * fixOne / z.den))
  let d := mkRat (4 * fixMul y (fixAtanSeries (fixMul y y) 24 1) * 360 : Nat) fixTurn
  if 0 ≤ z then d else -d

/-- The angle in degrees of the point (x, y), other than the origin, within -180 to 180. -/
def angleDegrees (y x : Rat) : Rat :=
  let a := if |y| ≤ |x| then atanDegrees (y / x) else (if 0 < y then 90 else -90) - atanDegrees (x / y)
  if |y| ≤ |x| && decide (x < 0) then a + (if 0 ≤ y then 180 else -180) else a

/-- The exact value of a binary32 number; `none` for a NaN or an infinity. -/
def ofF32 (x : F32) : Option Rat :=
  let e := x.toNat / 8388608 % 256
  let f := x.toNat % 8388608
  let m : Int := if e = 0 then f else 8388608 + f
  let v : Rat := if e ≥ 151 then (m * 2 ^ (e - 150) : Int)
    else (m : Rat) / (2 ^ (if e = 0 then 149 else 150 - e) : Nat)
  if e = 255 then none else some (if x.toNat / 2147483648 = 1 then -v else v)

/-- The exact value of a binary32 number, 0 for a NaN or an infinity. -/
def f32Val (x : F32) : Rat := (ofF32 x).getD 0

/-- The exponent of a positive value: 2^e ≤ num / den < 2^(e + 1). -/
def exponentOf (num den : Nat) : Int :=
  let e : Int := (Nat.log2 num : Int) - (Nat.log2 den : Int)
  if num * 2 ^ (-e).toNat < den * 2 ^ e.toNat then e - 1 else e

/-- The bits of a positive value, sign bit 0: those of a value that binary32 holds, else of one of the two next to it (log 13). Beyond the
largest finite number they are free. -/
def magnitudeBits (x : Rat) : Nat :=
  let e := max (-126) (exponentOf x.num.natAbs x.den)
  let q : Rat := if 23 ≤ e then x / ((2 ^ (e - 23).toNat : Nat) : Rat) else x * ((2 ^ (23 - e).toNat : Nat) : Rat)
  let n := q.floor.toNat
  let up := if q = (n : Rat) then 0 else if Config.f32RoundsUp x.num x.den then 1 else 0
  if 127 < e then (Config.binary32 x.num x.den).toNat % 2147483648 else (e + 126).toNat * 8388608 + n + up

/-- The binary32 number the part forms for a value: the value itself where binary32 holds it (Table 6.12, R214; log 13). -/
def toF32 (x : Rat) : F32 :=
  if x = 0 then 0 else BitVec.ofNat 32 ((if x < 0 then 2147483648 else 0) + magnitudeBits |x|)

/-- The quiet NaN of a value not formed (R185). -/
def notFormed : F32 := 0x7FC00000#32

/-- Four bytes of a binary32 number. -/
def f32Bytes (x : F32) : List Byte := le 4 x.toNat

/-! ### Time -/

/-- Ticks in one UTC second, minute and day (R8). -/
def secTicks : Nat := 16000000
def minTicks : Nat := 60 * secTicks
def dayTicks : Nat := 86400 * secTicks

/-- Time moves on to the instant of the command, never back (log 1). -/
def State.tickTo (s : State) (t : Nat) : State := { s with now := max s.now t }

/-- The part of the slew already removed at a timebase tick: at most 50 ppm of the time gone (R450). -/
def State.slewGone (s : State) (tick : Nat) : Int :=
  min (s.clock.slew.natAbs : Int) (max 0 (((tick : Int) - (s.clock.mapTick : Int)) * 50 / 1000000))

/-- UTC, in ticks of R8, at a timebase tick under the mapping in force: the rate correction and slew of R450. -/
def State.utcOld (s : State) (tick : Nat) : Int :=
  let c := s.clock
  let dt : Int := (tick : Int) - (c.mapTick : Int)
  let run : Int := if c.eps = 0 then dt else openRat 1 ((dt : Rat) / (1 + c.eps))
  c.mapUtc + run - (if c.slew ≥ 0 then s.slewGone tick else -s.slewGone tick)

/-- UTC at a timebase tick, with the adjustments whose instant lies at or before it (R508). -/
def State.utcAt (s : State) (tick : Nat) : Int :=
  s.bill.adjustments.foldl (fun u a => if a.boundary ≤ tick then u + a.step else u) (s.utcOld tick)

/-- The mapping taken up afresh at the present instant, with the slew still to be done (R450). -/
def State.reanchor (s : State) : State :=
  let gone := s.slewGone s.now
  let left := if s.clock.slew ≥ 0 then s.clock.slew - gone else s.clock.slew + gone
  { s with clock := { s.clock with mapTick := s.now, mapUtc := s.utcOld s.now, slew := left } }

/-- A timestamp under R8 for a timebase tick. -/
def State.stamp (s : State) (tick : Nat) : Nat := (s.utcAt tick).toNat

/-- The present timestamp. -/
def State.stampNow (s : State) : Nat := s.stamp s.now

/-- UTC as the vault's RTC counts it. -/
def State.rtcNow (s : State) : Nat :=
  s.clock.rtcCount + (if s.clock.rtcRuns then s.now - s.clock.rtcAt else 0)

/-- The tick boundary at which processing tick `k` starts (R16). -/
def tickStart (k : Nat) : Nat := k * Config.tickLen

/-- The first tick boundary after an instant (R508). -/
def nextBoundary (t : Nat) : Nat := (t / Config.tickLen + 1) * Config.tickLen

/-- The first tick boundary at or after an instant (R225). -/
def boundaryFrom (t : Nat) : Nat := (t + Config.tickLen - 1) / Config.tickLen * Config.tickLen

/-- The first raw sample instant of the part at or after a tick (R33). -/
def State.rawInstant (s : State) (t : Nat) : Nat := t + (s.samplePhase + 4 - t % 4) % 4

/-! ### Handles (R10-R13) -/

/-- The handle of a die, unit and element. -/
def handleOf (die unit element : Nat) : Nat := die * 0x2000 + unit * 0x100 + element

/-- The handle of a converter unit: a channel on its home die, or a lane of A4. -/
def unitHandle (u : Nat) : Nat := handleOf (1 + u / 6) (u % 6) 0xFF

/-- The die handle. -/
def dieHandle (die : Nat) : Nat := handleOf die 0x1F 0xFF

/-- The die index that carries a converter unit. -/
def dieOfUnit (u : Nat) : Nat := 1 + u / 6

/-! ### Pieces of state -/

def State.chan (s : State) (n : Nat) : Channel := nth s.channels n
def State.conv (s : State) (u : Nat) : Converter := nth s.converters u
def State.die (s : State) (d : Nat) : Die := nth s.dies d
def State.session (s : State) (k : Nat) : Session := nth s.host.sessions k

def State.setChan (s : State) (n : Nat) (f : Channel → Channel) : State := { s with channels := alter s.channels n f }
def State.setConv (s : State) (u : Nat) (f : Converter → Converter) : State :=
  { s with converters := alter s.converters u f }
def State.setDie (s : State) (d : Nat) (f : Die → Die) : State := { s with dies := alter s.dies d f }
def State.setSession (s : State) (k : Nat) (f : Session → Session) : State :=
  { s with host := { s.host with sessions := alter s.host.sessions k f } }
def State.setSide (s : State) (d : Nat) (f : SideSlice → SideSlice) : State :=
  s.setDie d (fun x => { x with side := f x.side })
def State.setLink (s : State) (d : Nat) (f : Link → Link) : State := s.setDie d (fun x => { x with link := f x.link })

/-- Whether the Varfin link to a die is lost: both lanes down (R23). -/
def State.linkLost (s : State) (d : Nat) : Bool := (s.die d).link.lanes.all (fun l => !l.up)

/-- Whether a die is failed or out of reach (R88, R349). -/
def State.dieDown (s : State) (d : Nat) : Bool := (s.die d).state = 1 || (s.die d).state = 3 || s.linkLost d

/-- Whether the side slice of a die is out of service: a failed die's comes back only when the die does (R88). -/
def State.outOfService (s : State) (d : Nat) : Bool := (s.die d).state ≠ 0 || s.linkLost d

/-- The converter unit that carries a channel, if any (Table 3.9). -/
def State.carrierUnit (s : State) (n : Nat) : Option Nat :=
  match (s.chan n).carrier with
  | .home => some n
  | .lane k => some (24 + k)
  | .none => none

/-- The channel a converter unit carries, if any. -/
def State.serves (s : State) (u : Nat) : Option Nat :=
  if u < 24 then (if (s.chan u).carrier = .home then some u else none)
  else match (s.conv u).selects with
    | some n => if (s.chan n).carrier = .lane (u - 24) then some n else none
    | none => none

/-- The channel a converter unit delivers: the one it carries, while its streams are not interrupted (R150). -/
def State.delivers (s : State) (u : Nat) : Option Nat :=
  match s.serves u with
  | some n => if (s.chan n).interrupted then none else some n
  | none => none

/-- The carrier of a channel and whether its streams are interrupted; the unit that delivers it is kept with the instant (R149, R150). -/
def State.setCarrier (s : State) (n : Nat) (c : Carrier) (interrupted : Bool) : State :=
  let unit := if interrupted then none
    else match c with
      | .home => some n
      | .lane k => some (24 + k)
      | .none => none
  let e : Carriage := { raw := s.now, wide := s.now, narrow := s.now, sync := s.now, unit := unit }
  s.setChan n (fun x => { x with carrier := c, interrupted := interrupted, carriage := (e :: x.carriage).take 16 })

/-- The unit that delivers the sample of a stream of a channel for an instant (R149); `from_` names the stream. -/
def State.deliveredBy (s : State) (from_ : Carriage → Nat) (n tick : Nat) : Option Nat :=
  match (s.chan n).carriage.find? (fun e => from_ e ≤ tick) with
  | some e => e.unit
  | none =>
    match (s.chan n).carriage.getLast? with
    | some _ => some n
    | none => if (s.chan n).interrupted then none else s.carrierUnit n

/-- One draw of a free value (log 11). -/
def State.draw (s : State) : Nat × State := (Config.freeNat s.draws, { s with draws := s.draws + 1 })

/-! ### Event queues (chapter 12) -/

/-- Whether a source is a marker or a notice, which the fill level does not count (R372). -/
def isMark (source : Nat) : Bool := source = 140 || source = 141 || source = 185 || source = 187

/-- Entries an event of `b` body bytes takes (R369). -/
def entriesOf (b : Nat) : Nat := if b ≤ 16 then 1 else 1 + (b - 16 + 23) / 24

/-- Entries of an event still in the queue. -/
def QEvent.left (e : QEvent) : Nat := entriesOf e.body.length - e.sent

/-- The fill level: event entries held (R372). -/
def EventQueue.fill (q : EventQueue) : Nat :=
  (q.items.filter (fun e => !isMark e.source)).foldl (fun n e => n + e.left) 0

/-- The default class of a source after OPEN (Table 12.1). -/
def defaultClass (source : Nat) : Nat :=
  if source ≤ 47 then 2
  else if source ≤ 71 then 1
  else if source ≤ 81 then 2
  else if source ≤ 85 then 1
  else if source ≤ 93 then 2
  else if source ≤ 98 then 1
  else if source = 99 then 2
  else if source ≤ 107 then 1
  else if source ≤ 115 then 2
  else if source ≤ 127 then 3
  else if source ≤ 133 then 2
  else if source ≤ 139 then 3
  else if source ≤ 141 then 0
  else if source ≤ 151 then 2
  else if source ≤ 159 then 1
  else if source ≤ 161 then 0
  else if source = 162 then 1
  else if source ≤ 164 then 0
  else if source ≤ 167 then 1
  else if source ≤ 183 then 0
  else if source = 184 || source = 186 then 1
  else 0

/-- The mask of a session after OPEN: every source admitted, each in its default class (R367). -/
def defaultMask : List Nat := (List.range 192).map (fun k => 0x80 + defaultClass k)

/-- Sources that cannot be masked and keep their class (Table 12.1). -/
def fixedSource (source : Nat) : Bool :=
  source = 140 || source = 141 || source = 185 || source = 186 || source = 187

/-- Raising the fill level may queue the watermark notice, or move its peak (R380). -/
def EventQueue.watermark (q : EventQueue) (before : Nat) (now : Nat) : EventQueue :=
  if q.items.any (fun e => e.source = 140) then
    (if q.fill > q.peak then { q with peak := q.fill, peakTime := now } else q)
  else if q.mark > 0 && before < q.mark && q.fill ≥ q.mark then
    { q with
      items := q.items ++ [{ source := 140, cls := 0, number := q.next, time := now }]
      next := q.next + 1, crossed := q.mark, peak := q.fill, peakTime := now }
  else q

/-- Dropping an event for want of room counts it and queues the overflow notice (R373). -/
def EventQueue.drop (q : EventQueue) (cls time : Nat) : EventQueue :=
  let waiting := q.items.any (fun e => e.source = 141)
  let counts := if waiting then q.dropped else [0, 0, 0, 0]
  let q := { q with
    dropped := alter counts cls (fun n => sat 16 (n + 1))
    lastDrop := if waiting then max q.lastDrop time else time
    drops := q.drops ++ [time] }
  if waiting then q
  else { q with items := q.items ++ [{ source := 141, cls := 0, number := q.next, time := time }], next := q.next + 1 }

/-- An event enters a queue whole, or is dropped whole (R372, R373). -/
def EventQueue.push (q : EventQueue) (source cls time : Nat) (body : List Byte) (now : Nat) : EventQueue :=
  if q.fill + entriesOf body.length > 1024 then q.drop cls time
  else
    EventQueue.watermark
      { q with
        items := q.items ++ [{ source := source, cls := cls, number := q.next, time := time, body := body }]
        next := q.next + 1 } q.fill now

/-- The class in which a session queues a source, if its mask admits it (R372, R374). -/
def EventQueue.admits (q : EventQueue) (source : Nat) : Option Nat :=
  let m := q.mask.getD source 0
  if fixedSource source then some (defaultClass source) else if m ≥ 128 then some (m % 4) else none

/-- An event offered to one session. -/
def Session.offer (x : Session) (source time : Nat) (body : List Byte) (now : Nat) : Session :=
  if x.isOpen then
    match x.queue.admits source with
    | some c => { x with queue := x.queue.push source c time body now }
    | none => x
  else x

/-- Sources the event log leaves out (R391). -/
def unlogged (source : Nat) : Bool :=
  source ≤ 71 || source = 116 || source = 118 || source = 122 || source = 136 ||
  (138 ≤ source && source ≤ 142) || 185 ≤ source

/-- Firmware runs on S. -/
def State.firmware (s : State) : Bool := s.phase = .booting || s.phase = .ready || s.phase = .running

/-- The store takes journal and log writes: S runs, and the store is formatted, writable and not being formatted (R385,
R386). -/
def State.storeWrites (s : State) : Bool :=
  s.store.state = 1 && s.store.formatting.isNone && s.firmware

/-- Bytes 0 to 23 + L of an event-log record (Table 12.18). -/
def LogRecord.bytes (r : LogRecord) : List Byte :=
  le 8 r.sequence ++ le 8 r.time ++ le 2 r.kind ++ le 2 r.body.length ++ zeros 4 ++ r.body

/-- The bytes a log record takes in the ring, its CRC among them. -/
def LogRecord.size (r : LogRecord) : Nat := 28 + r.body.length

/-- The ring byte below which the blocks of 256 KiB have been erased once a ring of `room` bytes is written up to `stop`. -/
def erasedBelow (room stop : Nat) : Nat := (stop + 262143) / 262144 * 262144 - room

/-- The records of a ring that start at a position, without those that begin below another. -/
def dropBelow {α : Type} (size : α → Nat) (low : Nat) : Nat → List α → Nat × List α
  | p, [] => (p, [])
  | p, r :: l => if p < low then dropBelow size low (p + size r) l else (p, r :: l)

/-- The oldest blocks leave the log when it is full (R393): the position of the oldest record held, and the records (log 99). -/
def trimLog (room start : Nat) (l : List LogRecord) : Nat × List LogRecord :=
  dropBelow LogRecord.size (erasedBelow room (start + (l.map LogRecord.size).sum)) start l

/-- A record joins the event log and its hash chain (R391, R392). -/
def State.logAppend (s : State) (kind time : Nat) (body : List Byte) : State :=
  if s.storeWrites then
    let r : LogRecord := { sequence := s.store.nextLog, time := time, kind := kind, body := body }
    let held := trimLog (s.store.boot.layout.getD 0 0 * 4194304) s.store.logStart (s.store.log ++ [r])
    { s with store := { s.store with
        log := held.2
        logStart := held.1
        nextLog := s.store.nextLog + 1
        chain := sha512 (s.store.chain ++ r.bytes)
        uncovered := some (s.store.uncovered.getD s.now) } }
  else s

/-- An event enters the queue of every open session that admits it (R372). -/
def State.queueAll (s : State) (source time : Nat) (body : List Byte) : State :=
  { s with host := { s.host with
      sessions := s.host.sessions.map (fun x => x.offer source time body s.stampNow) } }

/-- An event is raised: queued for the sessions, and logged unless R391 leaves its source out. -/
def State.raise (s : State) (source time : Nat) (body : List Byte) : State :=
  let s := s.queueAll source time body
  if unlogged source then s else s.logAppend source time body

/-- An event that enters one session's queue only (R372). -/
def State.raiseTo (s : State) (session source time : Nat) (body : List Byte) : State :=
  s.setSession session (fun x => x.offer source time body s.stampNow)

/-- The body of an event about an object other than a context (R371). -/
def objBody (handle : Nat) (items : List Byte) : List Byte := le 2 handle ++ zeros 2 ++ items

/-- The handle of a live context. -/
def ctxHandle (c : Context) : Nat := 0x0200 + c.slot

/-- The body of an event about a context (R371). -/
def ctxBody (c : Context) (items : List Byte) : List Byte := le 2 (ctxHandle c) ++ zeros 2 ++ le 4 c.serial ++ items

/-- A count item of Table 12.5, saturating at FFFFFFFFh. -/
def countItem (n : Nat) : List Byte := le 4 (sat 32 n)

/-- A duration item of Table 12.5: microseconds of a span in ticks. -/
def durationItem (ticks : Nat) : List Byte := le 4 (sat 32 (ticks / 16))

/-! ### Delivery -/

/-- The body of an entry at its delivery: a notice carries its counts (Tables 12.9 and 12.13). -/
def EventQueue.bodyOf (q : EventQueue) (e : QEvent) : List Byte :=
  if e.source = 140 then le 2 q.crossed ++ le 2 q.peak ++ zeros 4 ++ le 8 q.peakTime
  else if e.source = 141 then (q.dropped.map (le 2)).flatten ++ le 8 q.lastDrop
  else e.body

/-- Part `k` of an event as a 32-byte entry (Tables 12.3 and 12.4). -/
def entryBytes (e : QEvent) (body : List Byte) (k : Nat) : List Byte :=
  let parts := entriesOf body.length
  le 2 e.source ++ le 1 (k + 8 * (parts - 1)) ++ le 1 e.cls ++ le 4 e.number ++
  (if k = 0 then le 8 e.time ++ fit 16 body else fit 24 (body.drop (16 + 24 * (k - 1))))

/-- The index of the entry delivered next from the items (R375): the rest of an event partly delivered, else the
oldest of the lowest class before the first fence marker, else that marker. -/
def EventQueue.nextIndex (q : EventQueue) : Option Nat :=
  match q.items.findIdx? (fun e => e.sent > 0) with
  | some i => some i
  | none =>
    let epoch := q.items.takeWhile (fun e => e.source ≠ 185)
    match [0, 1, 2, 3].findSome? (fun c => epoch.findIdx? (fun e => e.cls = c)) with
    | some i => some i
    | none => if q.items.isEmpty then none else some 0

/-- One entry leaves the queue (R375). -/
def EventQueue.deliver (q : EventQueue) : Option (List Byte × EventQueue) :=
  match q.flushed with
  | some e => some (entryBytes e e.body 0, { q with flushed := none })
  | none =>
    match q.nextIndex with
    | none => none
    | some i =>
      let e := nth q.items i
      let out := entryBytes e (q.bodyOf e) e.sent
      if e.sent + 1 < entriesOf e.body.length then
        some (out, { q with items := alter q.items i (fun e => { e with sent := e.sent + 1 }) })
      else some (out, { q with items := q.items.eraseIdx i })

/-- Up to `n` entries leave the queue. -/
def EventQueue.deliverMany : Nat → EventQueue → List (List Byte) × EventQueue
  | 0, q => ([], q)
  | n + 1, q =>
    match q.deliver with
    | none => ([], q)
    | some (e, q') =>
      let r := EventQueue.deliverMany n q'
      (e :: r.1, r.2)

/-- Whether a session holds an unread event (Table 2.2). -/
def Session.unread (x : Session) : Bool := x.isOpen && (x.queue.flushed.isSome || !x.queue.items.isEmpty)

/-! ### Health log (R355) -/

/-- The 32 bytes of a health-log entry (Table 11.6). -/
def HealthEntry.bytes (e : HealthEntry) : List Byte :=
  le 4 e.sequence ++ le 1 e.kind ++ le 1 e.outcome ++ le 2 e.handle ++ le 8 e.time ++ le 2 e.carrier ++
  le 2 e.rung ++ le 4 e.detail ++ zeros 8

/-- A health-log entry is written, which also joins the event log with the entry as its body (R355, R391). -/
def State.healthLog (s : State) (e : HealthEntry) : State :=
  let e := { e with sequence := s.health.next }
  let s := { s with health := { s.health with log := (e :: s.health.log).take 4096, next := s.health.next + 1 } }
  s.logAppend e.kind e.time e.bytes

/-- A repair action: its health-log entry and its event source (R355, R358). The rules name no items for sources
152-167, but R348 has 159 carry its outcome (log 32). -/
def State.repair (s : State) (e : HealthEntry) : State :=
  let s := s.healthLog e
  s.queueAll e.kind e.time (objBody e.handle (if e.kind = 159 then le 1 e.outcome else []))

/-! ### Accepted operations (R54-R56) -/

/-- The tag after a tag: from FFFFh to 0001h (R54). -/
def tagAfter (n : Nat) : Nat := if n ≥ 0xFFFF then 1 else n + 1

/-- Whether a session may start one more long operation (R55). -/
def State.opRoom (s : State) (session : Nat) : Bool :=
  s.host.ops.length < 32 && (s.host.ops.filter (fun o => o.session = session)).length < 8

/-- A long operation starts: its tag is assigned (R54). -/
def State.startOp (s : State) (opcode handle session : Nat) : Nat × State :=
  (s.host.nextTag,
   { s with host := { s.host with
      ops := s.host.ops ++ [{ tag := s.host.nextTag, opcode := opcode, handle := handle, session := session }]
      nextTag := tagAfter s.host.nextTag } })

/-- A long operation completes: event source 186 to the session that started it, if it is still open (R54, R56). -/
def State.completeOp (s : State) (tag status : Nat) (detail : List Byte) : State :=
  match s.host.ops.find? (fun o => o.tag = tag) with
  | none => s
  | some o =>
    let s := { s with host := { s.host with ops := s.host.ops.filter (fun o => o.tag ≠ tag) } }
    s.raiseTo o.session 186 s.stampNow
      (le 2 tag ++ le 2 o.opcode ++ le 2 o.handle ++ le 2 status ++ fit 8 detail)

/-! ### Ownership changes (Table 12.8) -/

/-- FFh for no session. -/
def orFF (o : Option Nat) : Nat := o.getD 255

/-- Ownership moves, and event source 184 says so. -/
def State.setOwner (s : State) (o : Option Nat) (cause : Nat) : State :=
  let old := s.host.owner
  let s := { s with host := { s.host with owner := o, keepAt := s.now } }
  s.raise 184 s.stampNow (le 1 (orFF o) ++ le 1 cause ++ le 1 (orFF old) ++ zeros 13)

/-! ### ALARM_N (R98, R20) -/

/-- An alarm window exits. -/
def State.alarmExit (s : State) (channel : Nat) (slow : Bool) : State :=
  let l := if s.pins.alarms.contains (channel, slow) then s.pins.alarms else s.pins.alarms ++ [(channel, slow)]
  { s with pins := { s.pins with alarms := l, alarm := true } }

/-- An alarm window re-arms; ALARM_N is released when none is left out (R98). -/
def State.alarmClear (s : State) (channel : Nat) (slow : Bool) : State :=
  let l := s.pins.alarms.filter (fun a => a ≠ (channel, slow))
  { s with pins := { s.pins with alarms := l, alarm := !l.isEmpty } }

/-! ### IRQ lines (R41) -/

/-- Whether the sessions of a port hold an unread event. -/
def State.eventPending (s : State) (p : Port) : Bool :=
  (match p with
   | .h0 => (s.host.sessions.take 4).any Session.unread
   | .h1 => (s.host.sessions.drop 4).any Session.unread || s.gate.unseen)

/-- A host port. -/
def State.port (s : State) : Port → PortState
  | .h0 => s.host.h0
  | .h1 => s.host.h1

/-- A host port changed. -/
def State.setPort (s : State) (p : Port) (f : PortState → PortState) : State :=
  match p with
  | .h0 => { s with host := { s.host with h0 := f s.host.h0 } }
  | .h1 => { s with host := { s.host with h1 := f s.host.h1 } }

/-- Whether IRQ0_N or IRQ1_N is asserted (R41); released during a reset (R441). -/
def State.irq (s : State) (p : Port) : Bool :=
  s.phase ≠ .held && (!(s.port p).replies.isEmpty || s.eventPending p)

end Sys2Proof.Machine
end

