-- ==== Sys2Proof/Machine/Operands.lean ====
section
/-! DEFINITION. Requests and replies as the ports carry them (Tables 2.3 and 2.4), the handle classes of Table 1.5, and
the row of Table 16.2 that each opcode has: its handles, its owner column, its class and its length. -/

namespace Sys2Proof.Machine

/-! ### Status codes (Table 2.6) -/

def stOk : Nat := 0x0
def stAccepted : Nat := 0x1
def stBusy : Nat := 0x2
def stNotOwner : Nat := 0x3
def stBadOpcode : Nat := 0x4
def stBadLength : Nat := 0x5
def stBadParam : Nat := 0x6
def stBadHandle : Nat := 0x7
def stCrcError : Nat := 0x8
def stWrongState : Nat := 0x9
def stNoResource : Nat := 0xA
def stDenied : Nat := 0xB
def stPending : Nat := 0xC
def stDegraded : Nat := 0xD
def stTimeout : Nat := 0xE
def stExcitation : Nat := 0xF
def stMarkLost : Nat := 0x10

/-! ### Requests (Table 2.3) -/

/-- A request as P0 reads it. -/
structure Req where
  port : Port
  session : Nat
  seq : Nat
  flags : Nat
  opcode : Nat
  len : Nat
  handle : Nat
  reserved : Nat
  payload : List Byte
  crc : Nat
  rxAt : Nat
  deriving DecidableEq, Repr

/-- The fields of a received request (Table 2.3). -/
def Req.of (p : Port) (q : Request) : Req :=
  let b := q.bytes
  let l := field b 6 2
  { port := p, session := byteAt b 1, seq := byteAt b 2, flags := byteAt b 3, opcode := field b 4 2, len := l
    handle := field b 8 2, reserved := field b 10 2, payload := (b.drop 12).take l, crc := field b (12 + l) 4
    rxAt := q.rxAt }

/-- A field of the payload. -/
def Req.u (r : Req) (off k : Nat) : Nat := field r.payload off k

/-- A signed field of the payload. -/
def Req.i (r : Req) (off k : Nat) : Int := fieldInt r.payload off k

/-- Whether reserved bytes of the payload are zero (R6). -/
def Req.zero (r : Req) (off k : Nat) : Bool := field r.payload off k = 0

/-- The request packet a host forms for these fields (Table 2.3, R46). -/
def requestPacket (session seq flags opcode handle : Nat) (payload : List Byte) : List Byte :=
  withCrc (le 1 0x5A ++ le 1 session ++ le 1 seq ++ le 1 flags ++ le 2 opcode ++ le 2 payload.length ++
    le 2 handle ++ zeros 2 ++ payload)

/-! ### Replies (Table 2.4) -/

/-- A reply as it stands on the wire. -/
def Reply.bytes (r : Reply) : List Byte :=
  withCrc (le 1 0xA5 ++ le 1 r.session ++ le 1 r.seq ++ le 1 r.flags ++ le 2 r.opcode ++ le 2 r.payload.length ++
    le 2 r.status ++ zeros 2 ++ r.payload)

/-! ### Handle classes (Table 1.5) -/

inductive HandleClass where
  | none
  | channel
  | lane
  | slice
  | side
  | dieA
  | dieA03
  | dieA4
  | dieAny
  | all
  | timer
  | context
  | group
  | ring
  | neighbour
  deriving DecidableEq, Repr

/-- The die, unit and element of a handle (R10). -/
def hDie (h : Nat) : Nat := h / 0x2000 % 8
def hUnit (h : Nat) : Nat := h / 0x100 % 32
def hElem (h : Nat) : Nat := h % 0x100

/-- Whether a handle names an object of a class (R14, R27, R29). -/
def HandleClass.holds (c : HandleClass) (h : Nat) (s : State) : Bool :=
  match c with
  | .none => h = 0
  | .channel => 1 ≤ hDie h && hDie h ≤ 4 && hUnit h ≤ 5 && hElem h = 0xFF
  | .lane => hDie h = 5 && hUnit h ≤ 5 && hElem h = 0xFF
  | .slice => 1 ≤ hDie h && hDie h ≤ 5 && hUnit h ≤ 5 && hElem h ≤ 7
  | .side => 1 ≤ hDie h && hDie h ≤ 5 && hUnit h ≤ 5 && hElem h = 8
  | .dieA => 1 ≤ hDie h && hDie h ≤ 5 && hUnit h = 0x1F && hElem h = 0xFF
  | .dieA03 => 1 ≤ hDie h && hDie h ≤ 4 && hUnit h = 0x1F && hElem h = 0xFF
  | .dieA4 => h = 0xBFFF
  | .dieAny => hUnit h = 0x1F && hElem h = 0xFF
  | .all => h = 0x1FFF
  | .timer => 0x0100 ≤ h && h ≤ 0x0107
  | .context => s.bill.live.any (fun x => ctxHandle x = h)
  | .group => 0x0300 ≤ h && h ≤ 0x030F
  | .ring => 0x0400 ≤ h && h ≤ 0x0407
  | .neighbour => s.line.neighbours.any (fun n => 0xC000 + n.slot = h)

/-- The converter unit of a channel, lane or slice handle: 0-23 home, 24-29 lanes (R11, R13). -/
def unitOf (h : Nat) : Nat := (hDie h - 1) * 6 + hUnit h

/-! ### Opcodes (Table 16.2) -/

/-- The row of Table 16.2 of an opcode. -/
structure OpSpec where
  classes : List HandleClass
  owner : Bool
  long : Bool := false
  length : Nat → List Byte → State → Bool

/-- A fixed length. -/
def exactly (k : Nat) : Nat → List Byte → State → Bool := fun l _ _ => l = k

/-- One of two lengths, for an opcode with two forms (R475). -/
def either (a b : Nat) : Nat → List Byte → State → Bool := fun l _ _ => l = a || l = b

/-- A length that a count field sets: `base + unit * count` (R475). -/
def counted (base unit off k : Nat) : Nat → List Byte → State → Bool :=
  fun l p _ => base ≤ l && l = base + unit * field p off k

/-- A length within a range. -/
def between (a b : Nat) : Nat → List Byte → State → Bool := fun l _ _ => a ≤ l && l ≤ b

/-- The line configuration in force at this instant: one that waited for an S-FSK transmission is, once that has ended (R278). -/
def State.lineNow (s : State) : LineConfig :=
  match s.line.next with
  | some c => if s.line.flight.isNone && s.line.sfskFlight.all (fun f => f.endAt ≤ s.now) then c else s.line.config
  | none => s.line.config

/-- The two data forms of LINE_SEND, by the line mode in force (R475). -/
def lineSendLength : Nat → List Byte → State → Bool := fun l p s =>
  let n := field p 4 2
  8 ≤ l && (if s.lineNow.mode = 2 then 1 ≤ n && n ≤ 32704 && l = 8 + (n + 7) / 8
    else 1 ≤ n && n ≤ 914 && l = 8 + n)

/-- Table 16.2. -/
def opSpec (opcode : Nat) : Option OpSpec :=
  match opcode with
  | 0x0001 => some { classes := [.none], owner := false, length := between 0 64 }
  | 0x0002 => some { classes := [.none], owner := false, length := exactly 0 }
  | 0x0003 => some { classes := [.none], owner := false, length := exactly 0 }
  | 0x0004 => some { classes := [.none], owner := true, length := exactly 4 }
  | 0x0006 => some { classes := [.none], owner := true, length := exactly 8 }
  | 0x0007 => some { classes := [.none], owner := false, length := exactly 0 }
  | 0x0008 => some { classes := [.none], owner := true, length := exactly 4 }
  | 0x0009 => some { classes := [.none], owner := false, length := exactly 0 }
  | 0x000A => some { classes := [.none], owner := true, length := exactly 0 }
  | 0x0101 => some { classes := [.none], owner := false, length := exactly 0 }
  | 0x0102 => some { classes := [.none], owner := false, length := exactly 0 }
  | 0x0103 => some { classes := [.none], owner := false, long := true, length := exactly 4 }
  | 0x0104 => some { classes := [.none], owner := true, long := true, length := exactly 4 }
  | 0x0105 => some { classes := [.none], owner := false, length := exactly 0 }
  | 0x0106 => some { classes := [.none], owner := false, length := exactly 0 }
  | 0x0107 => some { classes := [.none], owner := false, length := exactly 0 }
  | 0x0201 => some { classes := [.channel, .lane], owner := true, length := exactly 8 }
  | 0x0202 => some { classes := [.channel, .lane, .slice, .side], owner := false, length := exactly 0 }
  | 0x0203 => some { classes := [.timer, .side], owner := true, length := exactly 16 }
  | 0x0204 => some { classes := [.side], owner := true, length := exactly 8 }
  | 0x0205 => some { classes := [.channel], owner := true, length := exactly 16 }
  | 0x0206 => some { classes := [.dieA, .all], owner := true, length := exactly 0 }
  | 0x0207 => some { classes := [.ring], owner := true, length := exactly 16 }
  | 0x0208 => some { classes := [.ring], owner := true, length := exactly 0 }
  | 0x0301 => some { classes := [.channel], owner := true, length := exactly 260 }
  | 0x0302 => some { classes := [.channel], owner := true, length := exactly 4 }
  | 0x0303 => some { classes := [.channel], owner := true, length := exactly 4 }
  | 0x0304 => some { classes := [.none, .channel], owner := true, length := exactly 8 }
  | 0x0305 => some { classes := [.channel, .lane], owner := false, length := exactly 16 }
  | 0x0401 => some { classes := [.channel, .lane, .dieA], owner := true, long := true, length := exactly 4 }
  | 0x0402 => some { classes := [.channel, .lane, .dieA], owner := false, length := exactly 0 }
  | 0x0403 => some { classes := [.dieA], owner := false, length := exactly 0 }
  | 0x0404 => some { classes := [.dieA], owner := true, length := exactly 2048 }
  | 0x0405 => some { classes := [.none], owner := true, long := true, length := exactly 4 }
  | 0x0406 => some { classes := [.none], owner := true, long := true, length := exactly 4 }
  | 0x0407 => some { classes := [.none], owner := true, length := exactly 28 }
  | 0x0501 => some { classes := [.none], owner := true, length := exactly 364 }
  | 0x0502 => some { classes := [.none, .context], owner := false, length := counted 8 1 4 1 }
  | 0x0503 => some { classes := [.none], owner := true, length := exactly 72 }
  | 0x0504 => some { classes := [.none], owner := false, length := exactly 8 }
  | 0x0505 => some { classes := [.channel], owner := false, length := exactly 0 }
  | 0x0601 => some { classes := [.none], owner := true, length := exactly 20 }
  | 0x0602 => some { classes := [.context, .none], owner := true, length := exactly 4 }
  | 0x0603 => some { classes := [.context], owner := false, length := exactly 4 }
  | 0x0604 => some { classes := [.context], owner := true, length := exactly 516 }
  | 0x0605 => some { classes := [.context], owner := true, length := exactly 4 }
  | 0x0606 => some { classes := [.context], owner := false, length := exactly 4 }
  | 0x0607 => some { classes := [.context], owner := true, long := true, length := exactly 0 }
  | 0x0608 => some { classes := [.none], owner := true, length := exactly 4 }
  | 0x0609 => some { classes := [.none], owner := true, length := counted 4 72 0 1 }
  | 0x060A => some { classes := [.group], owner := true, length := counted 20 5 16 2 }
  | 0x060B => some { classes := [.group], owner := false, length := exactly 4 }
  | 0x0701 => some { classes := [.context], owner := true, length := exactly 104 }
  | 0x0702 => some { classes := [.context], owner := true, length := exactly 12 }
  | 0x0703 => some { classes := [.context], owner := true, length := exactly 8 }
  | 0x0704 => some { classes := [.context], owner := true, length := exactly 192 }
  | 0x0705 => some { classes := [.none], owner := true, length := exactly 4 }
  | 0x0706 => some { classes := [.context, .none], owner := true, length := either 24 4 }
  | 0x0707 => some { classes := [.context], owner := false, length := exactly 4 }
  | 0x0801 => some { classes := [.none], owner := true, length := exactly 56 }
  | 0x0802 => some { classes := [.neighbour], owner := true, length := exactly 36 }
  | 0x0803 => some { classes := [.none], owner := true, length := exactly 4 }
  | 0x0804 => some { classes := [.neighbour, .none], owner := false, length := either 0 4 }
  | 0x0805 => some { classes := [.none], owner := true, length := counted 4 16 2 1 }
  | 0x0806 => some { classes := [.none], owner := true, length := exactly 4 }
  | 0x0807 => some { classes := [.none], owner := true, length := exactly 0 }
  | 0x0808 => some { classes := [.none], owner := true, long := true, length := lineSendLength }
  | 0x0809 => some { classes := [.neighbour, .none], owner := false, length := either 0 4 }
  | 0x080A => some { classes := [.neighbour], owner := true, length := exactly 4 }
  | 0x0901 => some { classes := [.none], owner := false, length := exactly 4 }
  | 0x0902 => some { classes := [.none], owner := false, length := counted 4 1 1 1 }
  | 0x0903 => some { classes := [.none], owner := false, length := exactly 4 }
  | 0x0A01 => some { classes := [.none], owner := false, length := exactly 0 }
  | 0x0A02 => some { classes := [.ring], owner := false, length := exactly 16 }
  | 0x0A03 => some { classes := [.ring], owner := false, length := exactly 16 }
  | 0x0A04 => some { classes := [.ring], owner := false, length := exactly 4 }
  | 0x0A05 => some { classes := [.none], owner := false, length := exactly 12 }
  | 0x0A06 => some { classes := [.none], owner := true, long := true, length := exactly 20 }
  | 0x0B01 => some { classes := [.none], owner := false, long := true, length := exactly 68 }
  | 0x0B02 => some { classes := [.none], owner := true, long := true, length := exactly 4 }
  | 0x0B03 => some { classes := [.none], owner := true, length := between 5 4096 }
  | 0x0B04 => some { classes := [.none], owner := true, long := true, length := exactly 4 }
  | 0x0B05 => some { classes := [.none], owner := true, long := true, length := exactly 8 }
  | 0x0B06 => some { classes := [.none], owner := true, length := counted 4 1 2 2 }
  | 0x0C01 => some { classes := [.none, .dieAny, .channel, .slice], owner := false, length := exactly 0 }
  | 0x0C02 => some { classes := [.dieA4, .dieA03], owner := true, length := either 12 4 }
  | 0x0C03 => some { classes := [.none], owner := false, length := exactly 8 }
  | 0x0C04 => some { classes := [.channel], owner := true, length := exactly 4 }
  | _ => none

/-- The length of the form of the handle's class, for the opcodes with two forms (R475). -/
def formLength (opcode handle : Nat) : Option Nat :=
  match opcode with
  | 0x0706 => some (if handle = 0 then 4 else 24)
  | 0x0804 => some (if handle = 0 then 4 else 0)
  | 0x0809 => some (if handle = 0 then 4 else 0)
  | 0x0C02 => some (if handle = 0xBFFF then 12 else 4)
  | _ => none

end Sys2Proof.Machine
end

