-- ==== Sys2Proof/Machine/Protocol.lean ====
section
/-! DEFINITION. How P0 takes a request: the order of R49, the checks of Table 2.5, the duplicates of R50 and R51, the
part-wide refusals of Table 16.1, and the reply. -/

namespace Sys2Proof.Machine

/-! ### Forming a reply (Table 2.4) -/

/-- Whether a session number belongs to a port (R35). -/
def fitsPort (p : Port) (k : Nat) : Bool :=
  match p with
  | .h0 => k ≤ 3
  | .h1 => 4 ≤ k && k ≤ 7

/-- The reply flags EVENTS_PENDING and OWNER for a session, as the reply is formed (Table 2.4). -/
def State.replyFlags (s : State) (k : Nat) : Nat :=
  (if (s.session k).unread then 2 else 0) + (if s.host.owner = some k then 4 else 0)

/-- The payload a status carries (R476). -/
def carried (status : Nat) (payload : List Byte) : List Byte :=
  if status = stOk || status = stAccepted || status = stMarkLost then payload else []

/-- The reply to a request. -/
def State.reply (s : State) (r : Req) (status : Nat) (payload : List Byte) : Reply :=
  { session := r.session, seq := r.seq, flags := s.replyFlags r.session, opcode := r.opcode, status := status
    payload := carried status payload }

/-- A reply joins a port's queue. -/
def State.queueReply (s : State) (p : Port) (x : Reply) : State :=
  s.setPort p (fun a => { a with replies := a.replies ++ [x] })

/-- A request completes: its reply is queued, and stored if its session is open then (R50): the reply of the OPEN that opened it is the
first it stores (log 6). -/
def State.answer (s : State) (r : Req) (status : Nat) (payload : List Byte) : State :=
  let x := s.reply r status payload
  let s := s.queueReply r.port x
  if fitsPort r.port r.session && (s.session r.session).isOpen then
    s.setSession r.session (fun k => { k with stored := some { seq := r.seq, crc := r.crc, reply := x } })
  else s

/-- A reply that is not stored: BAD_LENGTH under R37 and CRC_ERROR under R48. -/
def State.answerUnstored (s : State) (r : Req) (status : Nat) : State :=
  s.queueReply r.port (s.reply r status [])

/-! ### The order of requests (R40, R45, R49) -/

/-- The other port. -/
def otherPort : Port → Port
  | .h0 => .h1
  | .h1 => .h0

/-- While a port's reply queue is full, or the UART has a reply unsent, it starts no request (R40, R45). -/
def State.blocked (s : State) (p : Port) : Bool :=
  match p with
  | .h0 => 8 ≤ s.host.h0.replies.length
  | .h1 => if s.host.h1Uart then !s.host.h1.replies.isEmpty else 8 ≤ s.host.h1.replies.length

/-- The request P0 takes next, if it is at this port (R49). -/
def State.front (s : State) (p : Port) : Option Request :=
  if s.blocked p then none
  else
    match (s.port p).rx with
    | [] => none
    | q :: _ =>
      if s.blocked (otherPort p) then some q
      else
        match (s.port (otherPort p)).rx with
        | [] => some q
        | o :: _ =>
          match p with
          | .h0 => if q.rxAt ≤ o.rxAt then some q else none
          | .h1 => if q.rxAt < o.rxAt then some q else none

/-- The head of a port's receive buffer leaves it. -/
def State.take (s : State) (p : Port) : State := s.setPort p (fun a => { a with rx := a.rx.tail })

/-! ### Part-wide conditions (Table 16.1) -/

/-- Opcodes a running STORE_FORMAT refuses (row 4). -/
def formatRefuses (opcode : Nat) : Bool :=
  opcode / 256 = 6 || opcode / 256 = 7 || opcode / 256 = 0xA ||
  [0x0207, 0x0405, 0x0406, 0x0803, 0x0804, 0x0805, 0x0806, 0x0B02, 0x0B03, 0x0B04].contains opcode

/-- A power warning is latched and its commit has not ended (row 5, R433). -/
def State.warned (s : State) : Bool := (s.power.warning.isSome || s.power.rode) && !s.power.committed

/-- Opcodes refused until contexts are restored (row 6, R439). -/
def startUpRefuses (opcode : Nat) : Bool :=
  opcode / 256 = 6 || opcode / 256 = 7 || opcode = 0x0806 || opcode = 0x0807

/-- What an opcode's body answers. -/
inductive Answer where
  /-- a reply with this status and payload, and the state after the effect -/
  | done (status : Nat) (payload : List Byte) (s : State)
  /-- the reply comes later (INJECT, R86) -/
  | defer (s : State)

/-- A row of the opcode table. -/
structure Row where
  /-- the opcode -/
  opcode : Nat
  /-- which requests of the opcode are this row's, where its action byte or handle splits it -/
  picks : Req → State → Bool := fun _ _ => true
  /-- what makes P0 leave a request waiting: one received earlier at a blocked port decides what it finds (R60, R66), or the vault
  cannot be reached (Table 1.2) -/
  waits : Req → State → Bool := fun _ _ => false
  /-- check 11 of Table 2.5 -/
  valid : Req → State → Bool := fun _ _ => true
  /-- row 8 of Table 16.1 applies -/
  writes : Bool := false
  /-- recovery serves the opcode (R416) -/
  recovers : Bool := false
  /-- the answer in gatehouse mode, where it is not DEGRADED (Table 11.9) -/
  gate : Option (Req → State → Answer) := none
  /-- check 12 and the effect -/
  body : Req → State → Answer

/-- A refusal: a status without effect. -/
def refuse (status : Nat) (s : State) : Answer := .done status [] s

/-- The first status whose condition holds. -/
def firstOf : List (Bool × Nat) → Option Nat
  | [] => none
  | (c, st) :: rest => if c then some st else firstOf rest

/-- Whether the part waits with check 9: before the contexts are restored the slots of Table 1.5 are not known yet, so a context handle of
an opcode that R439 refuses passes, and R439 answers (log 61). -/
def awaitsRestore (spec : OpSpec) (r : Req) (s : State) : Bool :=
  s.phase = .ready && startUpRefuses r.opcode && spec.classes.contains .context && 0x0200 ≤ r.handle && r.handle ≤ 0x029F

/-- Checks 6 to 11 of Table 2.5 with the refusals of Table 16.1, in the order of R477. -/
def Row.checks (row : Row) (spec : OpSpec) (r : Req) (s : State) : List (Bool × Nat) :=
  [ (r.flags / 2 ≠ 0 || r.reserved ≠ 0, stBadParam),
    (s.sec.transition.isSome && r.opcode ≠ 1 && r.opcode ≠ 3, stBusy),
    (!spec.length r.len r.payload s, stBadLength),
    (!(spec.classes.any (fun c => c.holds r.handle s) || awaitsRestore spec r s), stBadHandle),
    (((formLength r.opcode r.handle).getD r.len) ≠ r.len, stBadLength),
    (spec.owner && s.host.owner ≠ some r.session, stNotOwner),
    (s.sec.lifecycle = 4 && 2 ≤ r.opcode / 256, stDenied),
    (s.store.formatting.isSome && formatRefuses r.opcode, stBusy),
    (s.warned && spec.owner && r.opcode ≠ 4, stBusy),
    (s.phase = .ready && startUpRefuses r.opcode, stBusy),
    (spec.long && r.handle ≠ 0 && s.host.ops.any (fun o => o.handle = r.handle), stBusy),
    (!row.valid r s, stBadParam),
    (row.writes && s.store.state = 2, stDegraded) ]

/-- The first check from 6 on that a request fails. -/
def Row.refusal (row : Row) (r : Req) (s : State) : Option Nat :=
  match opSpec r.opcode with
  | none => some (if r.flags / 2 ≠ 0 || r.reserved ≠ 0 then stBadParam else stBadOpcode)
  | some spec => firstOf (row.checks spec r s)

/-- The effect of an answer. -/
def Answer.finish (a : Answer) (q : Request) (r : Req) : State :=
  match a with
  | .done status payload s => s.answer r status payload
  | .defer s => s.setSession r.session (fun k => { k with busy := some q })

/-- Whether a request is a duplicate of its session's stored one (R50). -/
def Session.duplicate (x : Session) (r : Req) : Option Stored :=
  match x.stored with
  | some d => if x.isOpen && r.flags % 2 = 0 && d.seq = r.seq && d.crc = r.crc then some d else none
  | none => none

/-- Whether a request repeats the one in progress (R51). -/
def sameRequest (p : Port) (b : Request) (r : Req) : Bool :=
  (Req.of p b).seq = r.seq && (Req.of p b).crc = r.crc && r.flags % 2 = 0

/-- A request in normal operation: checks 4 to 12. The BUSY of R51 is the reply of a request completed, and takes the place of the stored one
(R50; DEDUCED, log 6). -/
def Row.normal (row : Row) (q : Request) (r : Req) (s : State) : State :=
  if !fitsPort r.port r.session then s.answer r stBadParam []
  else if !((s.session r.session).isOpen || r.opcode = 0x0101 || r.opcode = 0x0001 || r.opcode = 0x0002) then
    s.answer r stWrongState []
  else
    match (s.session r.session).duplicate r with
    | some d => s.queueReply r.port { d.reply with flags := d.reply.flags ||| 1 }
    | none =>
      match (s.session r.session).busy with
      | some b => if sameRequest r.port b r then s else s.answer r stBusy []
      | none =>
        match row.refusal r s with
        | some status => s.answer r status []
        | none => (row.body r s).finish q r

/-- A request in recovery: checks 4, 7 and 8, then DENIED in DECOMMISSIONED (R407; before DEGRADED as in R477, DEDUCED, log 100), DEGRADED, or
the opcode's own rules (R416). -/
def Row.inRecovery (row : Row) (q : Request) (r : Req) (s : State) : State :=
  if !fitsPort r.port r.session then s.answer r stBadParam []
  else
    match opSpec r.opcode with
    | none => s.answer r stBadOpcode []
    | some spec =>
      if !spec.length r.len r.payload s then s.answer r stBadLength []
      else if s.sec.lifecycle = 4 && 2 ≤ r.opcode / 256 then s.answer r stDenied []
      else if !row.recovers then s.answer r stDegraded []
      else if !row.valid r s then s.answer r stBadParam []
      else if row.writes && s.store.state = 2 then s.answer r stDegraded []
      else (row.body r s).finish q r

/-- A request in gatehouse mode: checks 4, 7 and 8, then Table 11.9 (R364). -/
def Row.inGatehouse (row : Row) (q : Request) (r : Req) (s : State) : State :=
  if !fitsPort r.port r.session then s.answer r stBadParam []
  else
    match opSpec r.opcode with
    | none => s.answer r stBadOpcode []
    | some spec =>
      if !spec.length r.len r.payload s then s.answer r stBadLength []
      else
        match row.gate with
        | none => s.answer r stDegraded []
        | some g => (g r s).finish q r

/-- Whether a request is this row's. -/
def Row.takes (row : Row) (r : Req) (s : State) : Bool := r.opcode = row.opcode && row.picks r s && !row.waits r s

/-- Whether a request of an opcode, received before an instant, still waits: what it does counts from its receipt, so an end that it
decides waits for it (R60, R63, R66). -/
def State.waits (s : State) (opcode before : Nat) (who : Nat → Bool) : Bool :=
  [Port.h0, Port.h1].any (fun p => (s.port p).rx.any (fun q =>
    q.verdict = .whole && q.rxAt < before && (Req.of p q).opcode = opcode && who (Req.of p q).session))

/-- A request taken by its row, in the mode the part is in. -/
def Row.run (row : Row) (q : Request) (r : Req) (s : State) : State :=
  match s.phase with
  | .held => s
  | .booting => s
  | .ready => row.normal q r s
  | .running => row.normal q r s
  | .recovery => row.inRecovery q r s
  | .gatehouse => row.inGatehouse q r s

/-- P0 takes the next request of a port, if it is next (R49) and this row's (log 2). A packet that failed check 2 or 3
is answered by whichever row takes it. -/
def Row.serve (row : Row) (t : Nat) (p : Port) (s : State) : State :=
  let s := s.tickTo t
  match s.front p with
  | none => s
  | some q =>
    match q.verdict with
    | .badCrc => (s.take p).answerUnstored (Req.of p q) stCrcError
    | .whole =>
      if row.takes (Req.of p q) s then row.run q (Req.of p q) (s.take p) else s

/-- A body whose tests are judged in the order of Table 16.2 (R477). -/
def judged (tests : List (Bool × Nat)) (s : State) (ok : Answer) : Answer :=
  match firstOf tests with
  | some status => refuse status s
  | none => ok

/-! ### Accepted operations -/

/-- A long operation is accepted: NO_RESOURCE of R55, otherwise ACCEPTED with its tag; `f` receives the tag. -/
def accept (r : Req) (s : State) (f : Nat → State → State) : Answer :=
  if s.opRoom r.session then
    let a := s.startOp r.opcode r.handle r.session
    .done stAccepted (le 2 a.1) (f a.1 a.2)
  else refuse stNoResource s

end Sys2Proof.Machine
end

