-- ==== Sys2Proof/Machine/Flags.lean ====
section
/-! DEFINITION. Flag and status words the spec computes: the port status word (Table 2.2), stream flags (Table 4.2),
quality flags (Table 6.3), billing flags (Table 7.5), and what they inherit. -/

namespace Sys2Proof.Machine

/-! ### Port status word (Table 2.2) -/

/-- READY of a port (R37, R45, R416). -/
def State.readyOn (s : State) (p : Port) : Bool :=
  match s.phase with
  | .held => false
  | .booting => false
  | .ready => true
  | .running => true
  | .recovery => true
  | .gatehouse => p = .h1

/-- The port status word (Table 2.2). -/
def State.statusWord (s : State) (p : Port) : Nat :=
  let a := s.port p
  ofBool (!a.replies.isEmpty) + 2 * ofBool (s.eventPending p) + 4 * ofBool (4 ≤ a.rx.length) + 8 * ofBool a.overrun +
  16 * ofBool a.framing + 32 * ofBool (s.readyOn p) + 256 * min 8 a.replies.length

/-! ### Stream flags (Table 4.2) -/

def flTaint : Nat := 1
def flSat : Nat := 2
def flClipped : Nat := 4
def flHold : Nat := 8
def flAlt : Nat := 16
def flFade : Nat := 32
def flSubst : Nat := 64
def flReplay : Nat := 128

/-- A flag word with one bit set when a condition holds. -/
def flagIf (c : Bool) (f : Nat) : Nat := if c then f else 0

/-! ### Quality flags of measurement values (Table 6.3) -/

def qfPq : Nat := 1
def qfHold : Nat := 2
def qfAlt : Nat := 4
def qfTaint : Nat := 8
def qfClipped : Nat := 16
def qfSat : Nat := 32
def qfFade : Nat := 64
def qfSubst : Nat := 128
def qfReplay : Nat := 256
def qfGap : Nat := 512
def qfPartial : Nat := 1024
def qfClock : Nat := 2048
def qfNoPps : Nat := 4096

/-- The quality flags that stream flags give a value (Table 6.3). -/
def qualityOf (f : Nat) : Nat :=
  flagIf (has f flHold) qfHold + flagIf (has f flAlt) qfAlt + flagIf (has f flTaint) qfTaint +
  flagIf (has f flClipped) qfClipped + flagIf (has f flSat) qfSat + flagIf (has f flFade) qfFade +
  flagIf (has f flSubst) qfSubst + flagIf (has f flReplay) qfReplay

/-! ### Billing flags (Table 7.5) -/

def bfShort : Nat := 1
def bfClock : Nat := 2
def bfPower : Nat := 4
def bfCarried : Nat := 8
def bfGap : Nat := 16
def bfReplay : Nat := 32
def bfSubst : Nat := 64
def bfQuality : Nat := 128
def bfDefaultTariff : Nat := 256
def bfRtcInvalid : Nat := 512
def bfParked : Nat := 1024
def bfForced : Nat := 2048
def bfLate : Nat := 4096
def bfPartial : Nat := 8192
def bfCheckpoint : Nat := 16384
def bfJournal : Nat := 32768

/-- CARRIED and GAP of a tick, beside the stream flags of its samples (R211). -/
def tfCarried : Nat := 256
def tfGap : Nat := 512

/-- The billing flags that a tick's flags give (Table 7.5, R211). -/
def billingOf (f : Nat) : Nat :=
  flagIf (has f tfCarried) bfCarried + flagIf (has f tfGap) bfGap + flagIf (has f flReplay) bfReplay + flagIf (has f flSubst) bfSubst +
  flagIf (has f (flTaint + flClipped + flSat)) bfQuality

end Sys2Proof.Machine
end

