-- ==== Sys2Proof/Machine/Elements.lean ====
section
/-! DEFINITION. Systems, elements and measurement values: the compositions of Table 6.2, physical scale (R176), the
aggregation of values into blocks (R183-R185). -/

namespace Sys2Proof.Machine

/-- A pair of a voltage and a current channel whose product is power (Table 6.2). -/
structure Element where
  /-- the current channel, which names it -/
  current : Nat
  voltage : Nat
  /-- the voltage enters inverted: −U23 of a three-wire system -/
  inverted : Bool := false
  /-- its system -/
  system : Nat
  deriving DecidableEq, Repr, Inhabited

/-- Whether a role is a voltage or a current (Table 6.1). -/
def isVoltage (role : Nat) : Bool := 1 ≤ role && role ≤ 3
def isCurrent (role : Nat) : Bool := role = 4 || role = 5

/-- The channels of a system. -/
def MeasConfig.members (c : MeasConfig) (sys : Nat) : List Nat :=
  (List.range 24).filter (fun n => (nth c.channels n).role ≠ 0 && (nth c.channels n).system = sys)

/-- The voltage, or the current, channel of a system at a position. -/
def MeasConfig.at (c : MeasConfig) (sys pos : Nat) (volt : Bool) : Option Nat :=
  (c.members sys).find? (fun n =>
    (nth c.channels n).position = pos && (if volt then isVoltage else isCurrent) (nth c.channels n).role)

/-- The element of a voltage and a current position of a system. -/
def MeasConfig.pair (c : MeasConfig) (sys pv pi : Nat) (inverted : Bool) : List Element :=
  match c.at sys pv true, c.at sys pi false with
  | some v, some i => [{ current := i, voltage := v, inverted := inverted, system := sys }]
  | _, _ => []

/-- The elements of a system (Table 6.2). -/
def MeasConfig.elementsOf (c : MeasConfig) (sys : Nat) : List Element :=
  match (nth c.systems sys).connection with
  | 1 => c.pair sys 0 0 false
  | 2 => c.pair sys 0 0 false ++ c.pair sys 1 1 false ++ c.pair sys 2 2 false
  | 3 => c.pair sys 0 0 false ++ c.pair sys 1 2 true
  | _ => []

/-- Every element of a configuration. -/
def MeasConfig.elements (c : MeasConfig) : List Element := (List.range 8).flatMap c.elementsOf

/-- The systems for which Se is formed (R209). -/
def MeasConfig.seSystems (c : MeasConfig) : List Nat :=
  (List.range 8).filter (fun sys =>
    match (nth c.systems sys).connection with
    | 2 => [0, 1, 2].all (fun p => (c.at sys p false).isSome)
    | 3 => true
    | _ => false)

/-- The channels whose samples Se of a system uses: its phase voltages and currents, and the neutral current (R209). -/
def MeasConfig.seUses (c : MeasConfig) (sys : Nat) : List Nat :=
  ([0, 1, 2].map (fun p => c.at sys p true) ++ [0, 1, 2, 3].map (fun p => c.at sys p false)).flatMap Option.toList

/-- The channels that an integrator of an element, or of a system's Se, uses. -/
def MeasConfig.uses (c : MeasConfig) (system : Bool) (object : Nat) : List Nat :=
  if system then c.seUses object
  else (c.elements.filter (fun e => e.current = object)).flatMap (fun e => [e.current, e.voltage])

/-- What a channel's part in an element rests on. -/
def ChannelConfig.core (c : ChannelConfig) : Nat × F32 × Nat × Nat × Nat := (c.role, c.scale, c.polarity, c.system, c.position)

/-- Whether an integrator runs on through a change of configuration: it uses the same channels as before, unchanged. -/
def keepsIntegrator (a b : MeasConfig) (system : Bool) (object : Nat) : Bool :=
  !(b.uses system object).isEmpty && a.uses system object = b.uses system object &&
  (b.uses system object).all (fun n => (nth a.channels n).core = (nth b.channels n).core) &&
  (!system || (b.seSystems.contains object && (nth a.systems object).connection = (nth b.systems object).connection))

/-- The factor of R176 of a channel: scale and polarity, times 2^-22. -/
def MeasConfig.factor (c : MeasConfig) (n : Nat) : Rat :=
  let k := f32Val (nth c.channels n).scale
  (if (nth c.channels n).polarity = 1 then -k else k) / 4194304

/-- Whether the part forms the quantities of a channel (R178). -/
def State.formsChannel (s : State) (n : Nat) : Bool := (s.chan n).enabled && (nth s.meas.config.channels n).role ≠ 0

/-- Cycles in a basic interval (Table 6.1). -/
def MeasConfig.cyclesN (c : MeasConfig) : Nat := if c.nominal = 0 then 10 else 12

/-- A channel list without its unused entries. -/
def usedChannels (l : List Nat) : List Nat := l.filter (fun n => n < 24)

/-- The element a current channel names. -/
def MeasConfig.elementOf (c : MeasConfig) (n : Nat) : Option Element := c.elements.find? (fun e => e.current = n)

/-- The elements that R217 requires of a local context's channels. -/
def MeasConfig.fits (c : MeasConfig) (currents voltages : List Nat) (method : Nat) : Bool :=
  let is := usedChannels currents
  let us := usedChannels voltages
  is.all (fun i => (c.elementOf i).any (fun e => us.contains e.voltage)) &&
  us.all (fun v => is.any (fun i => (c.elementOf i).any (fun e => e.voltage = v))) &&
  (method = 0 || c.seSystems.any (fun k =>
    let es := (c.elementsOf k).map (fun e => e.current)
    es.all (fun n => is.contains n) && is.all (fun n => es.contains n)))

/-- The live contexts fed from elements: local and feeder (R216). -/
def State.localContexts (s : State) : List Context := s.bill.live.filter (fun c => c.kind ≠ 1)

/-- The systems of a context's elements. -/
def State.systemsOf (s : State) (c : Context) : List Nat :=
  ((usedChannels c.currents).filterMap (fun i => (s.meas.config.elementOf i).map (fun e => e.system))).eraseDups

/-- The neutral current channels of a context's systems. -/
def State.neutralsOf (s : State) (c : Context) : List Nat :=
  (s.systemsOf c).flatMap (fun k => (s.meas.config.members k).filter (fun n => (nth s.meas.config.channels n).role = 5))

/-- Whether a live local or feeder context binds a channel (R100, R177). -/
def State.bound (s : State) (n : Nat) : Bool :=
  s.localContexts.any (fun c => c.currents.contains n || c.voltages.contains n)

/-! ### Values -/

/-- The binary32 form of a value, or the quiet NaN where it is not formed (R185, Table 6.12). -/
def MeasValue.value (v : MeasValue) : F32 :=
  match v.exact with
  | some x => toF32 x
  | none => notFormed

/-- Whether two values are of one object and quantity. -/
def MeasValue.same (a b : MeasValue) : Bool := a.kind = b.kind && a.object = b.object && a.quantity = b.quantity

/-- A value takes the place of the previous one of its object and quantity. -/
def putLatest (l : List LatestValue) (v : LatestValue) : List LatestValue := l.filter (fun x => !x.value.same v.value) ++ [v]

/-- A flicker value takes the place of the previous one. -/
def putValue (l : List MeasValue) (v : MeasValue) : List MeasValue := l.filter (fun x => !x.same v) ++ [v]

/-- A value of a list, by object and quantity, where it is formed. -/
def lookUp (l : List MeasValue) (kind object quantity : Nat) : Option Rat :=
  (l.find? (fun v => v.kind = kind && v.object = object && v.quantity = quantity)).bind (fun v => v.exact)

/-- A value of a block as an exact number; none where it is not formed. -/
def MeasBlock.number (b : MeasBlock) (kind object q : Nat) : Option Rat := lookUp b.values kind object q

/-! Quantities that no host reads and longer levels need: an element's U, I, U1, I1 (40h-43h), a system's Ue and Ie (40h, 41h), a
channel's THDG, Uunder and Uover (44h-46h). -/

def qU : Nat := 0x40
def qI : Nat := 0x41
def qU1 : Nat := 0x42
def qI1 : Nat := 0x43
def qUe : Nat := 0x40
def qIe : Nat := 0x41
def qThdg : Nat := 0x44
def qUunder : Nat := 0x45
def qUover : Nat := 0x46

/-- The aggregation rules of Table 6.10 and R197. -/
inductive AggRule where
  | rms
  | mean
  | largest
  | derived
  | none
  deriving DecidableEq, Repr, Inhabited

/-- The rule for a quantity (R183, R192-R194, R197, Table 6.10): angles are not aggregated (R193). -/
def aggRule (kind q : Nat) : AggRule :=
  match kind with
  | 0 => if q = 3 then .mean else if q = 4 || q = 5 || q = 6 || q = qThdg then .derived else .rms
  | 1 => if q = 0x18 then .mean else if q = 0x19 || q = 0x1A then .derived else .rms
  | 4 => if q = 8 || q = 9 || q = 0x0A then .mean else if q < 0x20 then .derived else .rms
  | 3 => .rms
  | 20 => .none
  | 23 => .largest
  | _ => .rms

/-- The arithmetic mean of values; none of none. -/
def meanOf? (l : List Rat) : Option Rat := if l.isEmpty then none else some (l.foldl (fun a b => a + b) 0 / (l.length : Rat))

/-- Values combined by a rule (R183). -/
def AggRule.combine (r : AggRule) (l : List Rat) : Option Rat :=
  match r with
  | .rms => (meanOf? (l.map (fun x => x * x))).map rootRat
  | .mean => meanOf? l
  | .largest => if l.isEmpty then Option.none else some (l.foldl max 0)
  | _ => Option.none

/-- The root of the sum of the squares of the ratios of orders 2 to 50 to order 1, in per cent (R192). -/
def distortion (g : Nat → Option Rat) : Option Rat :=
  match g 1 with
  | none => none
  | some f =>
    let hs := (List.range 49).map (fun k => g (k + 2))
    if hs.all (fun x => x.isSome) then
      some (rootRat (hs.foldl (fun (a : Rat) x => a + quotient 1 (x.getD 0) f * quotient 1 (x.getD 0) f) 0) * 100)
    else none

/-- The derived powers of U, I, U1, I1, P and P1 (R208). -/
def derivedPower (q : Nat) (u i u1 i1 p p1 : Rat) : Rat :=
  let s := u * i
  let s1 := u1 * i1
  let thdu := quotient 2 (rootRat (u * u - u1 * u1)) u1
  let thdi := quotient 2 (rootRat (i * i - i1 * i1)) i1
  match q with
  | 0x0B => s
  | 0x0C => s1
  | 0x0D => rootRat (s * s - s1 * s1)
  | 0x0E => rootRat (s * s - p * p)
  | 0x0F => quotient 3 p s
  | 0x10 => quotient 3 p1 s1
  | 0x11 => s1 * thdi
  | 0x12 => s1 * thdu
  | _ => s1 * thdu * thdi

/-- A derived quantity from the values of its object (R187, R192, R208, R209). -/
def MeasConfig.derived (c : MeasConfig) (l : List MeasValue) (kind object q : Nat) : Option Rat :=
  let get := lookUp l kind object
  match kind with
  | 0 =>
    let udin := f32Val (nth c.systems (nth c.channels object).system).udin
    if q = 4 then distortion (fun h => lookUp l 16 object h)
    else if q = qThdg then distortion (fun h => lookUp l 17 object h)
    else if q = 5 then (get qUunder).map (fun x => quotient 4 (udin - x) udin * 100)
    else (get qUover).map (fun x => quotient 4 (x - udin) udin * 100)
  | 1 =>
    match get qUe, get qIe with
    | some u, some i => if q = 0x19 then some (3 * u * i) else (get 0x18).map (fun p => quotient 3 p (3 * u * i))
    | _, _ => none
  | _ =>
    match get qU, get qI, get qU1, get qI1, get 8, get 9 with
    | some u, some i, some u1, some i1, some p, some p1 => some (derivedPower q u i u1 i1 p p1)
    | _, _, _, _, _, _ => none

/-- The derived values of a list computed again from the others (R183). -/
def MeasConfig.withDerived (c : MeasConfig) (l : List MeasValue) : List MeasValue :=
  l.map (fun v => if aggRule v.kind v.quantity = .derived then { v with exact := c.derived l v.kind v.object v.quantity } else v)

/-- One value of an aggregation from its constituents (R183): the OR of their flags (R184), and of those not formed none takes part
(R185). -/
def aggregateValue (parts : List (List MeasValue)) (v : MeasValue) : MeasValue :=
  let mine := parts.flatMap (fun p => p.filter (fun x => x.same v))
  { v with
    flags := orAll (mine.map (fun x => x.flags)), parts := mine.length
    exact := (aggRule v.kind v.quantity).combine (mine.filterMap (fun x => x.exact)) }

/-- The values of an aggregation. -/
def MeasConfig.aggregate (c : MeasConfig) (parts : List (List MeasValue)) : List MeasValue :=
  let keys := parts.flatten.foldl (fun (l : List MeasValue) v =>
    if l.any (fun x => x.same v) || aggRule v.kind v.quantity = .none then l else l ++ [v]) []
  c.withDerived (keys.map (aggregateValue parts))

/-- A block of an aggregation: its values carry the flags that `own` gives them besides. -/
def MeasConfig.block (c : MeasConfig) (parts : List MeasBlock) (start stop tick sequence : Nat) (own : MeasValue → Nat) : MeasBlock :=
  let values := (c.aggregate (parts.map (fun p => p.values))).map (fun v => { v with flags := v.flags ||| own v })
  { sequence := sequence, start := start, stop := stop, tick := tick, parts := parts.length, values := values
    flags := orAll (values.map (fun v => v.flags)) }

/-- The number of the next value of a level. -/
def MeasState.nextSequence (m : MeasState) (level : Nat) : Nat := nth m.formed level + 1

/-- A level's count of values formed goes up by one. -/
def MeasState.count (m : MeasState) (level : Nat) : MeasState := { m with formed := alter m.formed level (fun n => n + 1) }

/-- Blocks of one history, newest first: as many as it holds of every object (Table 6.9). -/
def keepBlocks (n : Nat) (l : List MeasBlock) : List MeasBlock :=
  (l.zipIdx.filter (fun b => b.1.values.any (fun v =>
    ((l.take b.2).filter (fun x => x.values.any (fun y => y.kind = v.kind && y.object = v.object))).length < n))).map (fun b => b.1)

/-- A block joins the history of its level (Table 6.9); levels 7, 8 and 9 of `formed` are the supraharmonics' levels 1, 3 and 4. -/
def MeasState.push (m : MeasState) (level : Nat) (b : MeasBlock) : MeasState :=
  let m := m.count level
  match level with
  | 1 => { m with basic := keepBlocks 16 (b :: m.basic) }
  | 2 => { m with group := keepBlocks 16 (b :: m.group) }
  | 3 => { m with ten := keepBlocks 144 (b :: m.ten) }
  | 4 => { m with two := keepBlocks 12 (b :: m.two) }
  | 7 => { m with supra := keepBlocks 16 (b :: m.supra) }
  | 8 => { m with supraTen := keepBlocks 144 (b :: m.supraTen) }
  | 9 => { m with supraTwo := keepBlocks 12 (b :: m.supraTwo) }
  | _ => { m with second := keepBlocks 64 (b :: m.second) }

/-- PARTIAL for the first value of a level after start-up (R185). -/
def MeasState.firstFlag (m : MeasState) (level : Nat) : Nat := flagIf (nth m.formed level = 0) qfPartial

/-- Whether an event of a system overlaps a period (R184, R199). -/
def MeasState.disturbed (m : MeasState) (sys start stop : Nat) : Bool :=
  m.running.any (fun d => d.system = sys && decide (d.start < stop)) ||
  m.past.any (fun e => e.1 = sys && decide (e.2.1 < stop) && decide (start < e.2.2))

/-- Ten minutes, two hours and ten seconds in ticks. -/
def tenTicks : Nat := 10 * minTicks
def twoTicks : Nat := 120 * minTicks
def tenSecTicks : Nat := 10 * secTicks

/-- The first multiple of a length after an instant. -/
def multipleAfter (length u : Nat) : Nat := (u / length + 1) * length

end Sys2Proof.Machine
end

