-- ==== Sys2Proof/Machine/Streams.lean ====
section
/-! DEFINITION. What the sample streams share (chapters 03 and 04): indices, settling suppression (R127, R128), window
comparators (R94-R99), cross-fades (R116-R118), and the transient buffers (R136-R139). -/

namespace Sys2Proof.Machine

/-- The least integer not below `n / d`. -/
def cdiv (n : Int) (d : Nat) : Int := -((-n) / d)

/-! ### Indices (R106, Table 4.5) -/

/-- Ticks from raw instant 0 of a unit's die to a tick. -/
def State.sinceEpoch (s : State) (u : Nat) (tick : Nat) : Int := (tick : Int) - (s.die (dieOfUnit u)).epochTick

/-- The raw index of a tick on a unit's die. -/
def State.rawIndex (s : State) (u tick : Nat) : Int := s.sinceEpoch u tick / 4

/-- The wideband sample a unit delivers at a tick: latency 97.5 µs, and 320 ns (128/25 ticks) more for each slot (R103, Table 4.5). -/
def State.wideAt (s : State) (u tick : Nat) : Int := (25 * (s.sinceEpoch u tick - 1560) - 128 * (u % 6 : Nat)) / 800

/-- The narrowband sample a unit delivers at a tick: latency 353.5 µs, and 320 ns more for each slot (R103, Table 4.5). -/
def State.narrowAt (s : State) (u tick : Nat) : Int := (25 * (s.sinceEpoch u tick - 5656) - 128 * (u % 6 : Nat)) / 3200

/-- The tick that a raw index represents. -/
def State.tickOfRaw (s : State) (u : Nat) (index : Int) : Nat :=
  (((s.die (dieOfUnit u)).epochTick : Int) + 4 * index).toNat

/-- The tick at which a unit delivers narrowband sample `v`: the first from which `narrowAt` gives it (R103, Table 4.5). -/
def State.narrowDue (s : State) (u : Nat) (v : Int) : Int :=
  (s.die (dieOfUnit u)).epochTick + 128 * v + 5656 + cdiv (128 * (u % 6 : Nat)) 25

/-- The channel a unit works for: its own, or the one a lane selects. -/
def State.worksFor (s : State) (u : Nat) : Option Nat := if u < 24 then some u else (s.conv u).selects

/-! ### Settling suppression (R127, Table 4.10) -/

/-- The first wideband index whose window a cause `x` ticks into the epoch reaches. -/
def wideReached (x : Int) : Int := cdiv (x / 4 - 383) 8

/-- The first wideband index not suppressed after that cause: that sample and the next 95 are. -/
def wideAfter (x : Int) : Int := wideReached x + 96

/-- The first narrowband index delivered 704 µs or more after that cause. -/
def narrowAfter (x : Int) : Int := cdiv (x + 11264 - 5656) 128

/-- A running fade completes at once and a pending swap is dropped (R118). -/
def Channel.completeFade (c : Channel) : Channel :=
  match c.fade with
  | none => { c with swap := none }
  | some f => { c with active := f.target, fade := none, swap := none }

/-- The narrowband and synchronous stages of a unit settle: a load into the active bank (R128). The 48 synchronous samples are the first
that the samples after the gap in the narrowband stream form. -/
def State.disturbNarrow (s : State) (u : Nat) : State :=
  let x := s.sinceEpoch u (s.rawInstant s.now)
  s.setConv u (fun c => { c with narrowFrom := max c.narrowFrom (narrowAfter x) })

/-- Every stage of a unit settles: a change of range mode, an enable, a lane selection, a switch to a three-slice bench
(R128). A fade of the channel it delivers completes (R118). -/
def State.disturb (s : State) (u : Nat) : State :=
  let x := s.sinceEpoch u (s.rawInstant s.now)
  let s := match s.serves u with
    | some n => s.setChan n Channel.completeFade
    | none => s
  let s := s.disturbNarrow u
  s.setConv u (fun c =>
    { c with
      wideSince := if wideReached x ≤ c.wideFrom then c.wideSince else wideReached x
      wideFrom := max c.wideFrom (wideAfter x) })

/-- Whether a wideband sample of a unit is suppressed (R127). -/
def Converter.wideSuppressed (c : Converter) (w : Int) : Bool := c.wideSince ≤ w && w < c.wideFrom

/-- Whether a unit's narrowband output is suppressed (Table 4.6). -/
def State.narrowSuppressed (s : State) (u : Nat) : Bool := s.narrowAt u s.now + 1 < (s.conv u).narrowFrom

/-- Whether every stream of a unit up to the narrowband is valid. -/
def State.unitValid (s : State) (u : Nat) : Bool := (s.conv u).narrowFrom ≤ s.narrowAt u s.now

/-- The tick from which every stream of a unit is valid: the narrowband, and 48 samples of the grid later the synchronous stream, while there
is a grid (R127). The period is the last locked one. -/
def State.streamsFrom (s : State) (u : Nat) : Int :=
  s.narrowDue u (s.conv u).narrowFrom + (if s.tracker.state = 0 then 0 else cdiv (48 * s.tracker.period) 524288)

/-- Ticks after a grid instant within which every narrowband sample is formed that its synchronous sample is computed from (R112, R125):
16 samples ahead and the delivery latency of the last, with both parts of the delay trim. -/
def syncReach : Nat := 8192

/-- The earlier carrier of a channel stops at this instant: the new one gives the samples that the earlier one cannot form any more, those
whose windows reach beyond it, so that each stream changes over at one sample instant and none is lost (R149, log 90). -/
def State.cutOver (s : State) (n old new : Nat) : State :=
  let last := (s.conv old).narrow.head?.map (fun x => s.tickOfRaw old (32 * x.index))
  let from_ := match last with
    | some a => a + 1
    | none => s.now
  let caught := ((s.conv new).narrow.filter (fun x => from_ ≤ s.tickOfRaw new (32 * x.index))).reverse
  s.setChan n (fun c =>
    { c with
      narrow := if c.forwarding then (c.narrow ++ caught).drop (c.narrow.length + caught.length - 4096) else c.narrow
      carriage := alter c.carriage 0 (fun e => { e with wide := s.now - 1532, narrow := from_, sync := s.now - syncReach }) })

/-- Whether a unit can take over a channel whose carrier stops now: its streams have been valid for as long as the cut reaches back. -/
def State.canTakeOver (s : State) (u : Nat) : Bool := decide (s.streamsFrom u + syncReach ≤ (s.now : Int))

/-- Whether every stream of a unit is valid. -/
def State.streamsValid (s : State) (u : Nat) : Bool := decide (s.streamsFrom u ≤ (s.now : Int))

/-- Whether a unit converts at all: the part runs, its die is in reach and supplied, its channel is enabled (R100). A lane that has handed a
channel back goes on for the instants before (R149). -/
def State.converts (s : State) (u : Nat) : Bool :=
  (s.phase = .ready || s.phase = .running) && !s.dieDown (dieOfUnit u) && !s.health.vanaDies.contains (dieOfUnit u) &&
  (if u < 24 then (s.chan u).enabled
   else (s.conv u).inService && (s.conv u).selects.any (fun n => (s.chan n).enabled) && (s.conv u).lingers.all (fun t => decide (s.now < t)))

/-- The channel a lane selects: one that has handed its channel back keeps it until its last samples are formed. -/
def State.selected (s : State) (u : Nat) : Option Nat :=
  if (s.conv u).lingers.any (fun t => decide (t ≤ s.now)) then none else (s.conv u).selects

/-! ### Window comparators (R94-R99) -/

/-- A window re-armed, with its counts cleared (R99). -/
def Window.rearmed (w : Window) : Window := { w with armed := true, count := 0 }

/-- A window of a channel changed. -/
def Channel.setWindow (c : Channel) (slow : Bool) (f : Window → Window) : Channel :=
  if slow then { c with slow := f c.slow } else { c with fast := f c.fast }

/-- A window of a channel. -/
def Channel.window (c : Channel) (slow : Bool) : Window := if slow then c.slow else c.fast

/-- A window of a channel re-arms; ALARM_N follows (R97-R99). -/
def State.rearm (s : State) (n : Nat) (slow : Bool) : State :=
  (s.setChan n (fun c => c.setWindow slow Window.rearmed)).alarmClear n slow

/-- The part's reading of one value by a window: the window after it, and the exit it completes, if any, as the time,
side and value of its first sample (R95-R97). `scale` multiplies the thresholds (R132). -/
def Window.see (w : Window) (value : Int) (time : Nat) (scale : Int) (dwell : Nat) :
    Window × Option (Nat × Bool × Int) :=
  if !w.enable then (w, none)
  else
    let above : Bool := decide (w.high * scale < value)
    let outside : Bool := above || decide (value < w.low * scale)
    if w.armed then
      if !outside then ({ w with count := 0 }, none)
      else
        let w := if w.count > 0 && w.above = above then { w with count := w.count + 1 }
          else { w with count := 1, above := above, firstAt := time, firstCode := value }
        if dwell ≤ w.count then ({ w with armed := false, count := 0 }, some (w.firstAt, above, w.firstCode))
        else (w, none)
    else ({ w with count := if outside then 0 else w.count + 1 }, none)

/-- Whether a disarmed window has spent its hysteresis count inside the band (R97). -/
def Window.due (w : Window) : Bool := w.enable && !w.armed && w.hysteresis ≤ w.count

/-- A window of a channel sees a value; an exit raises event source 2n or 2n + 1 and may assert ALARM_N (R95, R96, R98).
The answer says whether it exited. -/
def State.windowSees (s : State) (n : Nat) (slow : Bool) (value : Int) (time : Nat) : State × Bool :=
  let s := if ((s.chan n).window slow).due then s.rearm n slow else s
  let w := (s.chan n).window slow
  let r := w.see value time (if slow then 256 else 1) (if slow then 1 else w.dwell)
  let s := s.setChan n (fun c => c.setWindow slow (fun _ => r.1))
  match r.2 with
  | none => (s, false)
  | some e =>
    let s := if w.alarm then s.alarmExit n slow else s
    let v := if slow then le 4 e.2.2.toNat else leInt 4 e.2.2
    (s.raise (2 * n + ofBool slow) e.1 (objBody (unitHandle n) (le 1 (ofBool e.2.1) ++ v)), true)

/-! ### Cross-fades (R116, R117) -/

/-- A fade that has delivered its N samples ends: its target is active, and a pending swap runs, unless it names that
bank (R117). -/
def Channel.endFade (c : Channel) : Channel :=
  match c.fade with
  | none => c
  | some f =>
    if f.done < f.length then c
    else
      let c := { c with active := f.target, fade := none }
      match c.swap with
      | none => c
      | some w =>
        let c := { c with swap := none }
        if w.target = c.active then c
        else if w.length = 0 then { c with active := w.target }
        else { c with fade := some { target := w.target, length := w.length } }

/-- A bank of a channel. -/
def Channel.bank (c : Channel) (k : Nat) : List Int := if k = 0 then c.bankA else c.bankB

/-! ### Transient buffers (R136-R139) -/

/-- The unit bits set. -/
def unitsOf (mask : Nat) : List Nat := (List.range 6).filter (fun k => bit mask k)

/-- Whether a bench of a captured unit runs on three slices (R136). -/
def State.threeSlice (s : State) (die mask : Nat) : Bool :=
  (unitsOf mask).any (fun k => !(s.conv ((die - 1) * 6 + k)).excluded.isEmpty)

/-- Raw samples of each unit in a capture: 4, 8 or 24 ms (R136). -/
def captureSamples (mask : Nat) : Nat :=
  if (unitsOf mask).length = 6 then 16000 else if (unitsOf mask).length = 3 then 32000 else 96000

/-- Its length in raw instants, 4/3 as long on a three-slice bench, and whole, so that each unit has all its samples (R136, R137). -/
def State.captureLength (s : State) (c : Capture) : Nat :=
  if s.threeSlice c.die c.units then (captureSamples c.units * 4 + 2) / 3 else captureSamples c.units

/-- A capture changed. -/
def State.setCapture (s : State) (r : Nat) (f : Capture → Capture) : State :=
  { s with captures := alter s.captures r f }

/-- A trigger of a capture acts at a tick: the first one fixes the post-trigger length; while draining it counts as
missed (R136, R138). -/
def State.captureTrigger (s : State) (r cause tick : Nat) : State :=
  let c := nth s.captures r
  if c.phase = 3 then s.setCapture r (fun c => { c with missed := sat 16 (c.missed + 1) })
  else if c.phase ≠ 1 then s
  else
    let len := s.captureLength c
    let d := s.die c.die
    let index : Nat := (tick - d.epochTick) / 4
    let before := len * c.pre / 16
    let held := c.buffer.foldl (fun a x => min a x.index) index
    s.setCapture r (fun c =>
      { c with phase := 2, cause := cause, actedAt := tick, firstIndex := max held (index - before)
               lastIndex := index + len - before - 1, epoch := d.epoch, epochTick := d.epochTick })

/-- Instants that an armed buffer holds: its longest length before a trigger, and what three slices add (R136, R137). -/
def captureReach (mask : Nat) : Nat := captureSamples mask * 4 / 3 + 128

/-- The buffer with one more sample: what no capture can reach any more goes. -/
def Capture.store (c : Capture) (x : RawStored) : List RawStored :=
  let from_ := if c.phase = 2 then c.firstIndex else x.index - captureReach c.units
  x :: c.buffer.filter (fun y => from_ ≤ y.index)

/-- The captures that record a unit. -/
def State.capturesOf (s : State) (u : Nat) : List Nat :=
  (List.range 8).filter (fun r =>
    let c := nth s.captures r
    (c.phase = 1 || c.phase = 2) && c.die = dieOfUnit u && bit c.units (u % 6))

/-- The captures that a window exit or an over-range episode of a channel may trigger: those that capture the channel, or the lane that
carries it; one that drains counts it as missed (R136, R138). -/
def State.capturesSeeing (s : State) (u n : Nat) : List Nat :=
  (List.range 8).filter (fun r =>
    let c := nth s.captures r
    c.phase ≠ 0 && ((c.die = dieOfUnit u && bit c.units (u % 6)) || (c.die = dieOfUnit n && bit c.units (n % 6))))

/-- A raw sample of a unit is recorded by every armed buffer that captures it. -/
def State.record (s : State) (u index : Nat) (code : Int) (flags : Nat) : State :=
  (s.capturesOf u).foldl (fun s r =>
    s.setCapture r (fun c =>
      if c.phase = 2 && c.lastIndex < index then c
      else
        { c with
          buffer := c.store { index := index, unit := u % 6, code := code, ranged := has flags 3 }
          subst := c.subst || decide (24 ≤ u) })) s

/-- One block of Table 4.13. -/
def blockBytes (unit : Nat) (l : List RawStored) : List Byte :=
  let e := if l.all (fun x => -32768 ≤ x.code && x.code ≤ 32767) then 0 else 1
  let first := (l.findIdx? (fun x => x.ranged)).getD 255
  let last := match l.reverse.findIdx? (fun x => x.ranged) with
    | some k => l.length - 1 - k
    | none => 255
  le 1 e ++ le 1 unit ++ le 1 first ++ le 1 last ++ (l.map (fun x => leInt 2 (x.code / (2 ^ e : Nat)))).flatten

/-- The whole blocks of 128 samples of a unit, in order. -/
def chunk128 : Nat → List RawStored → List (List RawStored)
  | 0, _ => []
  | k + 1, l => if l.length < 128 then [] else l.take 128 :: chunk128 k (l.drop 128)

/-- The blocks of one captured unit, oldest first. Beside a unit on three slices, whose pattern makes the capture 4/3 as long, a unit on four
gives the first of its samples, as many as the other has (DESIGN CHOICE, log 91). -/
def Capture.unitBlocks (c : Capture) (k : Nat) : List (List RawStored) :=
  chunk128 (captureSamples c.units / 128)
    ((c.buffer.filter (fun x => x.unit = k && c.firstIndex ≤ x.index && x.index ≤ c.lastIndex)).reverse)

/-- The blocks of a capture, interleaved in channel order (R137): as many rows as every unit fills, so that a unit that is disabled, and has no
samples, leaves the capture without blocks (DESIGN CHOICE, log 91). -/
def Capture.blocks (c : Capture) : List (List Byte) :=
  let us := unitsOf c.units
  let rows := (us.map (fun k => (c.unitBlocks k).length)).foldl min (captureSamples c.units / 128)
  ((List.range rows).map (fun b => us.map (fun k => blockBytes k ((c.unitBlocks k).getD b [])))).flatten

/-! ### Synchronising resets (R128, R106, R135, R139) -/

/-- A unit's stages at a synchronising reset. -/
def Converter.synced (c : Converter) : Converter :=
  { c with
    index := 0, held := none, prevHighSat := false, overSpans := [], clipSpans := [], wideSince := wideReached 0
    wideFrom := wideAfter 0, narrowFrom := narrowAfter 0, runs := [], syncRun := none, wideIndex := -47, narrowIndex := -32, taps := []
    envelope := 0, envelopeAny := false, envelopeMax := 0, envelopeFlags := 0, envelopeAt := 0, raw := [], narrow := [] }

/-- A channel's histories on S, its fade and its windows at a synchronising reset of the die that carries it. -/
def Channel.synced (c : Channel) : Channel :=
  { c.completeFade with
    wide := [], narrow := [], sync := [], halfPeaks := [], windowPeaks := [], rms := [], envelopes := []
    fast := c.fast.rearmed, slow := c.slow.rearmed, windowPeak := {}, cycleRaw := [] }

/-- The channels that a die carries. -/
def State.carriedBy (s : State) (d : Nat) : List Nat :=
  (List.range 24).filter (fun n => (s.carrierUnit n).any (fun u => dieOfUnit u = d))

/-- The excluded grid position of each unit of a die, or FFh (Table 12.20). -/
def State.excludedPositions (s : State) (d : Nat) : List Nat :=
  (List.range 6).map (fun k =>
    match (s.conv ((d - 1) * 6 + k)).excluded with
    | [] => 255
    | e :: _ => e % 4)

/-- The contents are frozen and drain from now on (R138); what is left counts in quarter bits. What the record says of the slices is as of
now (Table 12.20). -/
def State.freeze (s : State) (c : Capture) (now : Nat) : Capture :=
  let c := { c with phase := 3, sliced := s.threeSlice c.die c.units, excluded := s.excludedPositions c.die }
  { c with drainLeft := 32 * (c.blocks.flatten).length, drainAt := now }

/-- Quarter bits that drain in one tick: 900 Mb/s on two lanes, 500 Mb/s on one (R26). -/
def drainRate (lanes : Nat) : Nat := if lanes = 2 then 225 else if lanes = 1 then 125 else 0

/-- Lanes of the link to a die that work. -/
def State.lanesUp (s : State) (d : Nat) : Nat := ((s.die d).link.lanes.filter (fun l => l.up)).length

/-- What is still to drain now (R26). -/
def State.drained (s : State) (c : Capture) : Capture :=
  { c with drainLeft := c.drainLeft - drainRate (s.lanesUp c.die) * (s.now - c.drainAt), drainAt := s.now }

/-- The drains of a die are settled, before the lanes of its link change. -/
def State.settleDrains (s : State) (d : Nat) : State :=
  { s with captures := s.captures.map (fun (c : Capture) => if c.phase = 3 && c.die = d then s.drained c else c) }

/-- Captures of a die at its synchronising reset (R139). -/
def State.syncCapture (s : State) (c : Capture) (d index now : Nat) : Capture :=
  if c.die ≠ d then c
  else if c.phase = 1 then { c with buffer := [] }
  else if c.phase = 2 then s.freeze { c with truncated := true, lastIndex := min c.lastIndex (index - 1) } now
  else c

/-- One die starts a new epoch whose raw instant 0 is at tick `c`. -/
def State.syncDie (s : State) (d c : Nat) : State :=
  let index := (c - (s.die d).epochTick) / 4
  let s := { s with captures := s.captures.map (fun (x : Capture) => s.syncCapture x d index c) }
  let ns := s.carriedBy d
  let s := ns.foldl (fun (s : State) n => ((s.setChan n Channel.synced).alarmClear n false).alarmClear n true) s
  let s := (List.range 6).foldl (fun (s : State) k => s.setConv ((d - 1) * 6 + k) Converter.synced) s
  let s := { s with meas := { s.meas with
    supraIndex := alter s.meas.supraIndex (d - 1) (fun _ => 0)
    wide := s.meas.wide.mapIdx (fun n l => if ns.contains n then [] else l) } }
  s.setDie d (fun x => { x with epoch := x.epoch + 1, epochTick := c, cycleBase := none })

/-- A SYNC of the tracker's die returns it to acquiring (R128), and cuts the basic interval in progress (R185); every channel has lost its
samples until it locks, which flags the voltage events in progress GAP (R204). The tracker's die is the one that carries the channel in use at
that instant: a lane's is A4 (DESIGN CHOICE, log 89). -/
def State.syncTracker (s : State) (dies : List Nat) : State :=
  let hit := s.tracker.channel < 24 && dies.any (fun d => (s.carriedBy d).contains s.tracker.channel)
  if hit then
    { s with
      tracker := { s.tracker with state := 0, channel := 255, chains := [], leaving := none, ends := [] }
      meas := { s.meas with
        running := s.meas.running.map (fun (d : Disturbance) => { d with flags := d.flags ||| qfGap })
        basics := (s.meas.basics.filter (fun b => b.cycles > 0)).map (fun b => { b with cut := true }) } }
  else s

/-- A synchronising reset of the dies named, at tick `c` (R128). -/
def State.syncAt (s : State) (dies : List Nat) (c : Nat) : State :=
  dies.foldl (fun s d => s.syncDie d c) (s.syncTracker dies)

end Sys2Proof.Machine
end

