-- ==== Sys2Proof/Machine/Lanes.lean ====
section
/-! DEFINITION. The belvedere's lanes and their jobs (R341-R345, Table 11.2), slices and benches taken out of service
(R340, R342), and channels lost and carried again (R352). -/

namespace Sys2Proof.Machine

/-! ### Health entries -/

/-- A repair action at the present instant, with the detail it is for. -/
def State.noteOf (s : State) (kind outcome handle carrier rung detail : Nat) : State :=
  s.repair
    { kind := kind, outcome := outcome, handle := handle, time := s.stampNow, carrier := carrier, rung := rung
      detail := detail % 4294967296 }

/-- A repair action at the present instant; a detail no rule states is a free value (log 11, log 32). -/
def State.note (s : State) (kind outcome handle carrier rung : Nat) : State :=
  let d := s.draw
  d.2.repair
    { kind := kind, outcome := outcome, handle := handle, time := s.stampNow, carrier := carrier, rung := rung
      detail := d.1 }

/-- The handle of a lane. -/
def laneHandle (k : Nat) : Nat := unitHandle (24 + k)

/-- The range mode of a channel: that of its failed bench, which repair holds, else the one it is configured for (R77, R100, R342). -/
def State.modeOf (s : State) (n : Nat) : Nat :=
  if (s.chan n).repairMode then (if (s.conv n).lowFailed then 2 else 1) else (s.chan n).rangeMode

/-! ### Carriers (R352) -/

/-- A channel has no carrier: event source 163, outcome started. -/
def State.lose (s : State) (n : Nat) : State :=
  if (s.chan n).lost then s
  else
    ((s.setCarrier n .none false).setChan n (fun c => { c with lost := true, lostSince := s.stampNow })).note
      163 1 (unitHandle n) 0 9

/-- A channel takes a carrier; a lost one is carried again: event source 163, outcome ended. -/
def State.carry (s : State) (n : Nat) (c : Carrier) : State :=
  let was := (s.chan n).lost
  let s := (s.setCarrier n c (s.chan n).interrupted).setChan n (fun x => { x with lost := false })
  if was then s.note 163 2 (unitHandle n) (match c with | .lane k => laneHandle k | _ => 0) 9 else s

/-- Whether the home die can carry a channel: in reach, with a working bench, not confirmed faulty (Table 11.2). -/
def State.canGoHome (s : State) (n : Nat) : Bool :=
  !s.dieDown (dieOfUnit n) && !((s.conv n).lowFailed && (s.conv n).highFailed) && !(s.chan n).faulty

/-- A channel returns to its home die, or is lost. -/
def State.goHome (s : State) (n : Nat) : State := if s.canGoHome n then s.carry n .home else s.lose n

/-! ### Lanes (R344) -/

/-- The belvedere is in service. -/
def State.belvedereUp (s : State) : Bool := !s.dieDown 5 && !s.health.vanaDies.contains 5

/-- A lane is free: in service, without a job of precedence 1-4 (R344), and not still forming the last samples of a channel that it has handed
back (R149). -/
def State.laneFree (s : State) (k : Nat) : Bool :=
  s.belvedereUp && (s.conv (24 + k)).inService && (s.conv (24 + k)).job.all (fun j => j.prec = 5) &&
  (s.conv (24 + k)).lingers.all (fun t => decide (t ≤ s.now))

/-- The free lanes. -/
def State.freeLanes (s : State) : List Nat := (List.range 6).filter (fun k => s.laneFree k)

/-- Lanes a job of precedence `p` may take: free ones, otherwise those of the lowest precedence below it. -/
def State.lanesFor (s : State) (p : Nat) : List Nat :=
  let at_ := fun (q : Nat) => (List.range 6).filter (fun k =>
    s.belvedereUp && (s.conv (24 + k)).inService && (s.conv (24 + k)).job.any (fun j => j.prec = q))
  if !s.freeLanes.isEmpty then s.freeLanes
  else if p < 4 && !(at_ 4).isEmpty then at_ 4
  else if p < 3 then at_ 3
  else []

/-- One of several lanes: which one, no rule states (log 11). -/
def State.pick (s : State) (l : List Nat) : Option Nat × State :=
  if l.length ≤ 1 then (l.head?, s)
  else
    let d := s.draw
    (some (l.getD (d.1 % l.length) 0), d.2)

/-- A checker dwell on a lane is paused (Table 11.2). -/
def State.pauseChecker (s : State) (k : Nat) : State :=
  if s.health.dwelling.any (fun d => d.2.1 = k) then { s with health := { s.health with dwelling := none } } else s

/-- A lane has no job and selects nothing. -/
def State.release (s : State) (k : Nat) : State :=
  s.setConv (24 + k) (fun c => { c with job := none, selects := none, lingers := none })

/-- A lane has no job; it goes on until it has formed the samples of the channel it has handed back for the instants before (R149). -/
def State.letGo (s : State) (k : Nat) : State :=
  s.setConv (24 + k) (fun c => { c with job := none, lingers := some (s.now + syncReach) })

/-- The checker rotation pauses, whichever lane it has (R151). -/
def State.pauseRotation (s : State) : State :=
  match s.health.dwelling with
  | none => s
  | some d => State.release { s with health := { s.health with dwelling := none } } d.2.1

/-- A lane takes a job and selects its channel: every stage of the lane settles (R128). -/
def State.assign (s : State) (k n prec : Nat) : State :=
  let s := s.pauseChecker k
  (s.setConv (24 + k) (fun c =>
    { c with job := some { prec := prec, channel := n }, selects := some n, lingers := none, envelopeAny := false })).disturb (24 + k)

/-! ### Channel substitution (R345) -/

/-- A channel is to be carried by a lane: it is handed over once the lane's streams are valid (R149), at once if it has
no carrier. Event source 166, outcome started. -/
def State.substitute (s : State) (n k : Nat) : State :=
  let s := s.assign k n 2
  let s := { s with health := { s.health with
    substituted := if s.health.substituted.contains n then s.health.substituted else s.health.substituted ++ [n] } }
  let s := if (s.chan n).carrier = .home then
      { s with health := { s.health with bridges := s.health.bridges ++ [(n, s.now, 2)] } }
    else (s.setChan n Channel.completeFade).carry n (.lane k)
  s.note 166 1 (unitHandle n) (laneHandle k) 7

/-- The lane that bridges a channel for a slice exclusion or a restart, or whose sweep it carries (Table 11.2). -/
def State.bridging (s : State) (n : Nat) : Option Nat :=
  (List.range 6).find? (fun k =>
    (s.conv (24 + k)).job.any (fun j => j.channel = n && j.prec = 3) &&
    ((s.chan n).carrier = .lane k || s.health.bridges.any (fun x => x.1 = n)))

/-- A bridge becomes a channel substitution on the same lane, which goes on or, if it has not been handed over yet, is still handed over
(R343, R345, R357). -/
def State.keepLane (s : State) (n k : Nat) : State :=
  let s := s.setConv (24 + k) (fun c => { c with job := some { prec := 2, channel := n } })
  let s := if s.sweep.lane = some k then { s with sweep := { s.sweep with lane := none } } else s
  let waits := s.health.bridges.any (fun x => x.1 = n && x.2.2 = 0)
  let rest := s.health.bridges.filter (fun x => x.1 ≠ n)
  { s with health := { s.health with
    substituted := if s.health.substituted.contains n then s.health.substituted else s.health.substituted ++ [n]
    bridges := if waits then rest ++ [(n, s.now, 2)] else rest } }

/-- A channel whose home cannot do is substituted if a lane is free (R343). -/
def State.substituteIfFree (s : State) (n : Nat) : State :=
  match s.pick s.freeLanes with
  | (none, s) => s
  | (some k, s) => s.substitute n k

/-! ### Slices and benches (R340-R342) -/

/-- Elements of a bench: 0 low, 1 high. -/
def benchElements (b : Nat) (l : List Nat) : List Nat := l.filter (fun e => e / 4 = b)

/-- A bench of a unit fails: repair holds the range mode from now on (R342), and its windows re-arm if that is a change (R99); event
source 157. With a failed low bench a lane carries the channel: the one that bridges it, or a free one (R343). With both failed, the channel
has a lane or is lost (R352). -/
def State.benchFails (s : State) (u b : Nat) : State :=
  let old := s.modeOf u
  let s := s.setConv u (fun c =>
    { c with lowFailed := c.lowFailed || b = 0, highFailed := c.highFailed || b = 1 })
  let s := if u < 24 then
      let s := s.setChan u (fun c => { c with repairMode := true })
      if s.modeOf u = old then s else (s.rearm u false).rearm u true
    else s
  let s := s.note 157 0 (unitHandle u) 0 7
  if u < 24 then
    let dead := (s.conv u).lowFailed && (s.conv u).highFailed
    let s := if b = 0 || dead then
        (match s.bridging u with
         | some k => (s.keepLane u k).note 166 1 (unitHandle u) (laneHandle k) 7
         | none => if (s.chan u).carrier = .home then s.substituteIfFree u else s)
      else s
    if dead && (s.chan u).carrier = .home then
      (match (List.range 6).find? (fun k => (s.conv (24 + k)).job = some { prec := 2, channel := u }) with
       | some k => State.carry { s with health := { s.health with bridges := s.health.bridges.filter (fun x => x.1 ≠ u) } } u (.lane k)
       | none => s.lose u)
    else s
  else s

/-- The failed slices of one bench of a unit are excluded, or the bench fails (R340, R342). -/
def State.settleBench (s : State) (u b : Nat) (failing : List Nat) : State :=
  match benchElements b failing with
  | [] => s
  | e :: more =>
    if !more.isEmpty || !(benchElements b (s.conv u).excluded).isEmpty then s.benchFails u b
    else
      (s.setConv u (fun c => { c with excluded := c.excluded ++ [e] })).note 156 0
        (handleOf (dieOfUnit u) (u % 6) e) 0 6

/-- A unit switches to three-slice benches: every stage settles (R128). -/
def State.settleSlices (s : State) (u : Nat) : State :=
  let f := (s.conv u).failing
  if f.isEmpty then s
  else
    let s := s.setConv u (fun c => { c with failing := [], held := none })
    ((s.disturb u).settleBench u 0 f).settleBench u 1 f

/-- A slice has failed: a free lane bridges the channel, otherwise the exclusion takes place at once (R341). -/
def State.sliceFails (s : State) (u e : Nat) : State :=
  if (s.conv u).failing.contains e || (s.conv u).excluded.contains e ||
      (if e < 4 then (s.conv u).lowFailed else (s.conv u).highFailed) then s
  else
    let s := s.setConv u (fun c => { c with failing := c.failing ++ [e] })
    if u < 24 && (s.chan u).carrier = .home && !(s.chan u).interrupted &&
        !s.health.bridges.any (fun x => x.1 = u) then
      match s.pick s.freeLanes with
      | (none, s) => s.settleSlices u
      | (some k, s) =>
        let s := s.assign k u 3
        { s with health := { s.health with bridges := s.health.bridges ++ [(u, s.now, 0)] } }
    else if s.health.bridges.any (fun x => x.1 = u && x.2.2 = 0) then s
    else s.settleSlices u

/-! ### A sweep without results (R158, R162) -/

/-- The calibration of a unit changed. -/
def State.setCal (s : State) (u : Nat) (f : Calibration → Calibration) : State :=
  s.setConv u (fun c => { c with cal := f c.cal })

/-- The recorded excitation: the smallest of the kinds' (R154). -/
def Calibration.recorded (c : Calibration) : Nat := (c.excite.drop 1).foldl min (nth c.excite 0)

/-- Whether a kind is not swept because repair took its bench out (R158). Encoding 7 of Table 5.4 names an excluded slice too; beside one, the
other slices of its bench are swept, so their kind takes its own outcome, and 7 stays with a failed bench (DESIGN CHOICE, log 94). -/
def Converter.kindOut (c : Converter) (kind : Nat) : Bool :=
  if kind < 6 then (if kind % 2 = 0 then c.lowFailed else c.highFailed)
  else kind = 6 && (c.lowFailed || c.highFailed)

/-- The outcomes as the nibbles of Table 12.6. -/
def outcomeWord (o : List Nat) : List Byte :=
  (List.range 4).map (fun i => BitVec.ofNat 8 (nth o (2 * i) + 16 * nth o (2 * i + 1)))

/-- Event source 77 + (d - 1), kind 0 or 1 (Table 12.6). -/
def State.sweepEvent (s : State) (u kind : Nat) (outcomes : List Byte) (rms slope : Nat) : State :=
  s.raise (76 + dieOfUnit u) s.stampNow
    (le 2 (unitHandle u) ++ le 1 kind ++ zeros 1 ++ outcomes ++ le 4 rms ++ le 4 slope ++ le 4 (s.conv u).cal.recorded)

/-- A unit takes outcome 6 for every kind, 7 for those of a failed bench (R158), and its result event is raised; the RMS
and slope of a capture that was not made are free values (log 11). -/
def State.abortUnit (s : State) (u : Nat) : State :=
  let o := (List.range 8).map (fun k => if (s.conv u).kindOut k then 7 else 6)
  let a := s.draw
  let b := a.2.draw
  (b.2.setCal u (fun c => { c with outcomes := o })).sweepEvent u 0 (outcomeWord o) a.1 b.1

/-! ### Interruption of a swept channel (R147, R150) -/

/-- Ticks of the capture of a sweep: 2P or 47.0 ms, whichever is shorter (R147). -/
def State.captureTicks (s : State) : Nat :=
  let p := if s.tracker.state = 0 then 20 * Config.ms else s.tracker.period / 512
  min (2 * p) (47 * Config.ms)

/-- The interruption of the unit under sweep starts: 2 ms of reconfiguration, then the capture (R147). With a bridge,
the lane carries the channel; without one, it delivers nothing (R150). A channel that a lane carries for another reason stays with it. -/
def State.interrupt (s : State) (u : Nat) (bridge : Option Nat) : State :=
  let s := if u < 24 && (s.chan u).carrier = .home then
      (match bridge with
       | some k => (s.carry u (.lane k)).cutOver u u (24 + k)
       | none => s.setCarrier u .home true)
    else s
  { s with sweep := { s.sweep with
      phase := 2, lane := bridge, since := s.now, dueAt := s.now + 2 * Config.ms + s.captureTicks / 2, moments := {} } }

/-- The lane that bridges or correlates for a sweep is taken away (R162, Table 5.6). The next channel of a die sweep keeps its turn: its
interruption starts unbridged when the current one has ended, since one channel is swept at a time (R145, log 76). A lane under its own sweep
ends it with outcome 6, and the operation goes on with the next lane as where a lane substitutes when its turn comes (R145). -/
def State.sweepLosesLane (s : State) (k : Nat) : State :=
  let s := { s with sweep := { s.sweep with next := s.sweep.next.map (fun x => if x.lane = some k then { x with lane := none } else x) } }
  if s.sweep.lane = some k then
    match s.sweep.unit with
    | none => s
    | some u =>
      if s.sweep.phase = 1 then s.interrupt u none
      else if 24 ≤ u then
        let s := { s with sweep := { s.sweep with unit := none, phase := 0, lane := none, aborted := false } }
        if s.sweep.running.isSome then s.abortUnit u else s
      else
        let s := { s with sweep := { s.sweep with lane := none } }
        if u < 24 && (s.chan u).carrier = .lane k then s.setCarrier u .home true else s
  else s

/-! ### Preemption (Table 11.2) -/

/-- A lane's job ends because the lane is taken or leaves service. -/
def State.evict (s : State) (k : Nat) : State :=
  match (s.conv (24 + k)).job with
  | none => s
  | some j =>
    let n := j.channel
    if j.prec = 5 then (s.pauseChecker k).release k
    else if j.prec = 4 then
      let again := s.health.confirming.map (fun x => (x.1, x.2.1))
      State.release { s with health := { s.health with confirming := none, unconfirmed := again } } k
    else if j.prec = 3 then
      let own : Bool := s.sweep.unit = some (24 + k)
      let s := s.sweepLosesLane k
      let s := if !own && s.health.bridges.any (fun x => x.1 = n) then
          let s := { s with health := { s.health with bridges := s.health.bridges.filter (fun x => x.1 ≠ n) } }
          let s := if (s.chan n).carrier = .lane k then s.carry n .home else s
          s.settleSlices n
        else s
      s.release k
    else if j.prec = 2 then
      let s := { s with health := { s.health with bridges := s.health.bridges.filter (fun x => x.1 ≠ n) } }
      let s := if (s.chan n).carrier = .lane k then (if s.canGoHome n then (s.goHome n).cutOver n (24 + k) n else s.goHome n) else s
      let s := { s with health := { s.health with substituted := s.health.substituted.filter (fun x => x ≠ n) } }
      (s.release k).note 166 2 (unitHandle n) 0 7
    else
      let s := if (s.chan n).carrier = .lane k then s.lose n else s
      s.release k

/-- A checker setting that waits takes effect at the next dwell (R356). -/
def HealthState.takeConfig (h : HealthState) : HealthState :=
  match h.nextConfig with
  | none => h
  | some c =>
    { h with nextConfig := none, rotation := c.1, dwell := c.2.1, rmsLimit := c.2.2.1, delayLimit := c.2.2.2.1
             waveLimit := c.2.2.2.2 }

/-- A confirming dwell starts on a lane, with the checker settings that wait (R348, R356). -/
def State.startConfirming (s : State) (n first k : Nat) : State :=
  let s := (s.assign k n 4).setChan n (fun x => { x with compared := {} })
  { s with health := { s.health.takeConfig with unconfirmed := none, confirming := some (n, first, k, s.now) } }

/-- Lanes that become free take the jobs that wait: channels with a failed low bench (R343) or confirmed faulty (R348), then a confirming
dwell to be repeated, on a lane other than the first (R344, R348). -/
def State.lanesFreed (s : State) : State :=
  let s := (List.range 24).foldl (fun (s : State) n =>
    if ((s.conv n).lowFailed || (s.chan n).faulty) && (s.chan n).enabled && !s.health.substituted.contains n && !s.health.released.contains n &&
        ((s.chan n).carrier = .home || (s.chan n).lost) && !s.health.bridges.any (fun x => x.1 = n) then
      s.substituteIfFree n
    else s) s
  match s.health.unconfirmed with
  | none => s
  | some c =>
    match s.pick (s.freeLanes.filter (fun k => k ≠ c.2)) with
    | (none, s) => s
    | (some k, s) => s.startConfirming c.1 c.2 k

/-! ### Die substitution (R350) -/

/-- The belvedere substitutes for a die: every other lane job ends in order of precedence, and the lanes in service
select its units in ascending order; units without a lane are lost (R348, R350). -/
def State.substituteDie (s : State) (d : Nat) : State :=
  let s := (List.range 6).foldl (fun (s : State) k =>
    match (s.conv (24 + k)).job with
    | some j =>
      if j.prec = 2 && dieOfUnit j.channel = d then
        let s := s.setCarrier j.channel .home (s.chan j.channel).interrupted
        State.release { s with health := { s.health with
          substituted := s.health.substituted.filter (fun x => x ≠ j.channel)
          bridges := s.health.bridges.filter (fun x => x.1 ≠ j.channel) } } k
      else s
    | none => s) s
  let s := [5, 4, 3, 2].foldl (fun (s : State) p => (List.range 6).foldl (fun (s : State) k =>
    if (s.conv (24 + k)).job.any (fun j => j.prec = p) then s.evict k else s) s) s
  let lanes := (List.range 6).filter (fun k => (s.conv (24 + k)).inService)
  let s := (List.range 6).foldl (fun (s : State) j =>
    let n := 6 * (d - 1) + j
    match lanes[j]? with
    | some k =>
      if (s.chan n).enabled then
        let s := (s.assign k n 1).setChan n (fun c => { c.completeFade with replaying := true })
        (s.setCarrier n (s.chan n).carrier false).carry n (.lane k)
      else s.assign k n 1
    | none => s.lose n) s
  let s := { s with health := { s.health with substituting := some d, settling := true, replayFrom := s.tracker.start } }
  s.note 160 1 (dieHandle d) (dieHandle 5) 8

end Sys2Proof.Machine
end

