-- ==== Sys2Proof/Machine/Raw.lean ====
section
/-! DEFINITION. RAW_SAMPLE: the combine rule (R75-R77), the pair check and its patches (R339, R340), over-range (R79-R82),
and what a raw sample does to windows, peaks and transient buffers. -/

namespace Sys2Proof.Machine

/-! ### Combine (R75-R77) -/

/-- The code a slice returns: at the end of its range, by the sign of the held input, when it is saturated (R74). -/
def sliceCode (saturated negative : Bool) (code : BitVec 12) : Int :=
  if saturated then (if negative then -2048 else 2047) else code.toInt

/-- The high-bench code h of a sample. -/
def highCode (b : BenchSample) : Int := sliceCode b.highSat b.negative b.high

/-- The low-bench code l of a sample. -/
def lowCode (b : BenchSample) : Int := sliceCode b.lowSat b.negative b.low

/-- The full-scale code of a saturated low bench (R75). -/
def fullScale (b : BenchSample) : Int := if lowCode b > 0 then 65535 else -65536

/-- The raw code in combined mode; `after` says that the high bench saturated on the previous sample (R76). -/
def combined (after : Bool) (b : BenchSample) : Int :=
  let h := highCode b
  let l := lowCode b
  let m : Int := h.natAbs
  if b.lowSat then fullScale b
  else if after then 32 * l
  else if m ≤ 1700 && !b.highSat then h
  else if m < 1900 && !b.highSat then h + roundDiv ((32 * l - h) * (m - 1700)) 200
  else 32 * l

/-- The raw code of a range mode (Table 3.3). -/
def rawCode (mode : Nat) (after : Bool) (b : BenchSample) : Int :=
  if mode = 1 then (if b.lowSat then fullScale b else 32 * lowCode b)
  else if mode = 2 then highCode b
  else combined after b

/-- CLIP of a range mode (Table 3.3). -/
def rawClips (mode : Nat) (b : BenchSample) : Bool := if mode = 2 then b.highSat else b.lowSat

/-- The range mode a unit converts in: that of a failed bench of its own (R342), else the one its channel is configured for (R100). -/
def State.convMode (s : State) (u : Nat) : Nat :=
  let c := s.conv u
  if c.lowFailed then 2
  else if c.highFailed then 1
  else if u < 24 then (s.chan u).rangeMode
  else match c.selects with
    | some n => (s.chan n).rangeMode
    | none => 0

/-! ### Pair check (R339, R340) -/

/-- The pair disagrees (R339). -/
def disagrees (b : BenchSample) : Bool :=
  (!b.lowSat && !b.highSat && decide (96 < (32 * lowCode b - highCode b).natAbs)) || (b.lowSat && !b.highSat)

/-- Blames of an element within 4,096 of its conversions: 16,384 raw periods. -/
def Converter.recentBlames (c : Converter) (e now : Nat) : Nat :=
  (c.blames.filter (fun x => x.element = e && now < x.index + 16384)).length

/-- An element is blamed; 16 blames within 4,096 conversions fail it (R340). -/
def State.blame (s : State) (u e now : Nat) : State :=
  let s := s.setConv u (fun c =>
    { c with
      blames := { element := e, index := now } :: c.blames.filter (fun x => now < x.index + 16384)
      blamed := alter c.blamed e (fun n => sat 32 (n + 1)) })
  if 16 ≤ (s.conv u).recentBlames e now then s.sliceFails u e else s

/-- The run of equal codes of an element and the spread of the others of its bench during it (R340). -/
def Converter.watch (c : Converter) (e : Nat) (code : Int) : Converter :=
  let old := nth c.stuck e
  let same := old.2 > 0 && old.1 = code
  let others := (List.range 8).filter (fun x => x / 4 = e / 4 && x ≠ e)
  let spread := alter c.spread e (fun p => if same then p else (4095, -4096))
  { c with
    stuck := alter c.stuck e (fun _ => (code, if same then sat 32 (old.2 + 1) else 1))
    spread := others.foldl (fun l x => alter l x (fun p => (min p.1 code, max p.2 code))) spread }

/-- A slice that returns the same code for 65,536 conversions while the others vary by more than 8 LSB fails (R340). -/
def Converter.stuckAt (c : Converter) (e : Nat) : Bool :=
  65536 ≤ (nth c.stuck e).2 && decide (8 < (nth c.spread e).2 - (nth c.spread e).1)

/-! ### Delivery of one raw sample -/

/-- A span of consecutive indices grows, or a new one starts; spans no later sample can reach go. -/
def growSpan (l : List Span) (index : Nat) : List Span :=
  let l := l.filter (fun x => index ≤ x.last + 262144)
  match l with
  | [] => [{ first := index, last := index }]
  | x :: rest =>
    if index ≤ x.last + 1 then { x with last := index } :: rest else { first := index, last := index } :: x :: rest

/-- A running peak sees a code (R131). -/
def Peak.see (p : Peak) (index : Nat) (code : Int) (flags : Nat) : Peak :=
  { any := true
    high := if p.any then max p.high code else code
    low := if p.any then min p.low code else code
    highAt := if p.any && code ≤ p.high then p.highAt else index
    lowAt := if p.any && p.low ≤ code then p.lowAt else index
    flags := p.flags ||| flags }

/-- What every unit keeps of a raw sample. -/
def Converter.take (c : Converter) (x : RawSeen) : Converter :=
  { c with
    prevCode := x.code
    overSpans := if has x.flags 3 then growSpan c.overSpans x.index else c.overSpans
    clipSpans := if has x.flags 4 then growSpan c.clipSpans x.index else c.clipSpans
    raw := (x :: c.raw).take 2048 }

/-- What the peak detectors of a channel keep of a raw sample that its carrier delivers (R131). -/
def Channel.takeRaw (c : Channel) (x : RawSeen) : Channel :=
  { c with cycleRaw := (x :: c.cycleRaw).take 262144, windowPeak := c.windowPeak.see x.index x.code x.flags }

/-- A raw sample of a unit goes to the filter chain, the fast window, the detectors and the transient buffers (R78). -/
def State.deliverRaw (s : State) (u index : Nat) (code : Int) (flags : Nat) : State :=
  let tick := s.tickOfRaw u index
  let x : RawSeen := { index := index, tick := tick, code := code, flags := flags }
  let s := s.setConv u (fun c => c.take x)
  let s := s.record u index code flags
  match s.delivers u with
  | none => s
  | some n =>
    let s := s.setChan n (fun c =>
      { c.takeRaw x with clips := if has flags 4 then sat 32 (c.clips + 1) else c.clips })
    let r := s.windowSees n false code (s.stamp tick)
    if r.2 then
      (r.1.capturesSeeing u n).foldl (fun (s : State) k =>
        if has (nth s.captures k).options 1 then s.captureTrigger k 1 tick else s) r.1
    else r.1

/-- The sample held back is delivered with its neighbours' mean; on a disagreement the code farther from that mean is blamed (R339); between
two codes equally far, which one is a free value. -/
def State.patchHeld (s : State) (u : Nat) (next : Int) : State :=
  match (s.conv u).held with
  | none => s
  | some h =>
    let mean := roundDiv ((s.conv u).prevCode + next) 2
    let pos := h.index % 4
    let s := s.setConv u (fun c => { c with held := none })
    let s := match s.serves u with
      | some n => s.setChan n (fun c => { c with patched := sat 32 (c.patched + 1) })
      | none => s
    let s := if !h.disagrees then s
      else
        let dl := (h.low32 - mean).natAbs
        let dh := (h.high - mean).natAbs
        let d := if dl = dh then s.draw else (0, s)
        let low := decide (dh < dl) || (dl = dh && d.1 % 2 = 0)
        d.2.blame u (if low then pos else 4 + pos) (h.tick / 4)
    s.deliverRaw u h.index mean h.flags

/-! ### Over-range (R79-R82) -/

/-- Event source 48 + n at the start of an episode, unless it merges with the previous one (R82). -/
def State.overRangeStarts (s : State) (n tick : Nat) (negative : Bool) : State :=
  let c := s.chan n
  let s := s.setChan n (fun c => { c with inEpisode := true, episodes := sat 32 (c.episodes + 1) })
  if c.lastOver.any (fun x => tick < x + 10 * Config.ms) then
    s.setChan n (fun c => { c with merged := sat 32 (c.merged + 1), mergedSince := c.mergedSince + 1 })
  else
    (s.setChan n (fun c => { c with lastOver := some tick, mergedSince := 0 })).raise (48 + n) (s.stamp tick)
      (objBody (unitHandle n) (le 1 (ofBool negative) ++ countItem c.mergedSince))

/-- An episode starts at its first over-range sample and ends before the first sample without OVR and RCV (R80); its start
may trigger a capture (R136). -/
def State.overRange (s : State) (u tick flags : Nat) (negative : Bool) : State :=
  match s.serves u with
  | none => s
  | some n =>
    if !has flags 3 then s.setChan n (fun c => { c with inEpisode := false })
    else if (s.chan n).inEpisode then s
    else
      let s := s.overRangeStarts n tick negative
      (s.capturesSeeing u n).foldl (fun (s : State) k =>
        if has (nth s.captures k).options 2 then s.captureTrigger k 2 tick else s) s

/-! ### The sample -/

/-- Whether a sweep has the benches of a unit reconfigured: no raw sample is delivered (R147). -/
def State.swept (s : State) (u : Nat) : Bool := s.sweep.unit = some u && (s.sweep.phase = 2 || s.sweep.phase = 3)

/-- OVR and RCV of a sample, and the RCV samples still to come (R79, R80). -/
def overFlags (left : Nat) (beyond : Bool) : Nat × Nat :=
  if beyond then (1, 20) else if left > 0 then (2, left - 1) else (0, 0)

/-! ### The capture of a sweep (R142, R152) -/

/-- A code joins the distribution of an element. -/
def countCode (x : Nat × Int × Int) (code : Int) : Nat × Int × Int := (x.1 + 1, x.2.1 + code, x.2.2 + code * code)

/-- The moments of a capture take one pair of codes of the slices at a grid position: high-bench results use samples whose saturation bit is
clear, the ratio those with a high-bench magnitude of 512-2,000 and neither bit set (R142). `code` is the combined code, `flags` its OVR and
RCV. At a position with an excluded slice there is no sample, only the codes of the companion, which goes on converting (R340, log 76). -/
def SweepMoments.take (m : SweepMoments) (second : Bool) (pos : Nat) (gone : List Nat) (b : BenchSample) (code : Int) (flags : Nat) :
    SweepMoments :=
  let h := highCode b
  let l := lowCode b
  let overlap : Bool := !b.highSat && !b.lowSat && 512 ≤ h.natAbs && h.natAbs ≤ 2000
  let low : Bool := !gone.contains pos
  let high : Bool := !gone.contains (4 + pos) && !b.highSat
  let skews := if low then alter m.skews pos (fun x => Config.skewMoment second pos x l) else m.skews
  let skews := if high then alter skews (4 + pos) (fun x => Config.skewMoment second (4 + pos) x h) else skews
  let codes := if second || !low then m.codes else alter m.codes pos (fun x => countCode x l)
  let codes := if second || !high then codes else alter codes (4 + pos) (fun x => countCode x h)
  if !gone.isEmpty then { m with codes := codes, skews := skews }
  else
  { samples := m.samples + 1, clipped := m.clipped + ofBool b.lowSat, overRange := m.overRange || has flags 3
    squares := m.squares + code.natAbs ^ 2, highValid := m.highValid + ofBool !b.highSat, overlap := m.overlap + ofBool overlap
    ratio := if overlap then (m.ratio.1 + 32 * l * h, m.ratio.2 + h * h) else m.ratio
    codes := codes, skews := skews }

/-- A sample of the unit under sweep: after 2 ms of reconfiguration, the capture's moments take it (R147). -/
def State.captureSample (s : State) (u pos tick flags : Nat) (b : BenchSample) : State :=
  let w := s.sweep
  let code := rawCode (s.convMode u) (s.conv u).prevHighSat b
  let s := s.setConv u (fun c => { c with prevHighSat := b.highSat })
  if tick < w.since + 2 * Config.ms || (w.phase = 3 && w.dueAt ≤ tick) then s
  else
    let second : Bool := w.phase = 3 || w.dueAt ≤ tick
    let gone := (s.conv u).excluded.filter (fun e => e % 4 = pos)
    { s with sweep := { s.sweep with moments := w.moments.take second pos gone b code flags } }

/-- One sample of a unit at raw index `index`. The over-range comparator watches every instant of the grid, so on a three-slice bench an
excluded position counts among the 20 instants of RCV and can start an episode and give its time (R79, R80, R82, log 36). -/
def State.sampleUnit (s : State) (u index tick : Nat) (b : BenchSample) : State :=
  let c := s.conv u
  let pos := index % 4
  let f := overFlags c.rcvLeft b.beyond
  let s := s.setConv u (fun c => { c with index := index + 1, rcvLeft := f.2 })
  let s := s.overRange u tick f.1 b.negative
  if s.swept u then s.captureSample u pos tick f.1 b
  else if c.excluded.any (fun e => e % 4 = pos) then s
  else
    let mode := s.convMode u
    let code := rawCode mode c.prevHighSat b
    let flags := f.1 + (if rawClips mode b then 4 else 0)
    let s := s.patchHeld u code
    let s := s.setConv u (fun c => ({ c with prevHighSat := b.highSat }.watch pos (lowCode b)).watch (4 + pos) (highCode b))
    let s := if (s.conv u).stuckAt pos then s.sliceFails u pos else s
    let s := if (s.conv u).stuckAt (4 + pos) then s.sliceFails u (4 + pos) else s
    let c := s.conv u
    let apart : Bool := !c.lowFailed && !c.highFailed && f.1 = 0 && disagrees b
    if c.excluded.any (fun e => e % 4 = pos) then s
    else if apart || c.failing.any (fun e => e % 4 = pos) then
      s.setConv u (fun c =>
        { c with held := some { index := index, tick := tick, low32 := 32 * lowCode b, high := highCode b, flags := flags, disagrees := apart } })
    else s.deliverRaw u index code flags

/-- In gatehouse mode the lanes of the belvedere convert for the vault (R360). -/
def State.gates (s : State) (u : Nat) : Bool := s.phase = .gatehouse && !s.gate.fault && decide (24 ≤ u)

/-- A sample of a belvedere lane in gatehouse mode: it feeds the decimators and the fast window of the channel the lane selects, with its copied
settings (R360, R362). -/
def State.gateSample (s : State) (u index : Nat) (b : BenchSample) : State :=
  let c := s.conv u
  let code := combined c.prevHighSat b
  let x : RawSeen := { index := index, tick := s.tickOfRaw u index, code := code, flags := 0 }
  let s := s.setConv u (fun c => Converter.take { c with index := index + 1, prevHighSat := b.highSat } x)
  match s.serves u with
  | some n => (s.windowSees n false code s.rtcNow).1
  | none => s

/-- RAW_SAMPLE (R75): `t` is the sample instant. A sample that is not later than the last one has no effect. -/
def execRawSample (t unit : Nat) (sample : BenchSample) (s : State) : Out :=
  let s := s.tickTo t
  let index := s.rawIndex unit s.now
  guarded (unit < 30)
    (if s.converts unit && decide (((s.conv unit).index : Int) ≤ index) then
      s.sampleUnit unit index.toNat s.now sample
    else if s.gates unit && decide (((s.conv unit).index : Int) ≤ index) then
      s.gateSample unit index.toNat sample
    else s)

end Sys2Proof.Machine
end

