-- ==== Sys2Proof/Machine/Sweep.lean ====
section
/-! DEFINITION. Calibration sweeps (R144-R164): the sequencer's rows, the outcomes of Table 5.4, ramps and aborts. -/

namespace Sys2Proof.Machine

/-! ### Trims (R140, R160) -/

/-- The value of a ramp from `old` to `new` that has reached a step and started at a tick, as of a tick: its last step at or before it
(R160). -/
def rampValue (old new : Int) (step start tick : Nat) : Int :=
  old + roundDiv ((min step ((tick - start) / (4 * Config.ms)) : Nat) * (new - old)) 64

/-- The delay as of a tick: what a cycle takes that starts there. A ramp that began later does not act on it; the one before it does, as far
as it had come (R160, R161). -/
def Calibration.delayAt (c : Calibration) (tick : Nat) : Int :=
  if nth c.rampAt 25 ≤ tick then rampValue (nth c.old 25) (nth c.target 25) (nth c.step 25) (nth c.rampAt 25) tick
  else
    match c.prior.find? (fun r => r.2.2.2 ≤ tick) with
    | some r => rampValue r.1 r.2.1 r.2.2.1 r.2.2.2 tick
    | none => nth c.old 25

/-- The value in force of trim `i`: the step of its ramp reached (R160). -/
def Calibration.value (c : Calibration) (i : Nat) : Int :=
  nth c.old i + roundDiv (nth c.step i * (nth c.target i - nth c.old i)) 64

/-- The 26 values in force. -/
def Calibration.values (c : Calibration) : List Int := (List.range 26).map c.value

/-- Whether a ramp runs. -/
def Calibration.ramping (c : Calibration) : Bool := c.step.any (fun k => k < 64)

/-- New targets: each trim that changes starts a ramp of 64 steps from the value reached (R160, R161). -/
def Calibration.rampTo (c : Calibration) (target : List Int) (now : Nat) : Calibration :=
  let new := fun (i : Nat) => nth target i ≠ nth c.target i
  let at_ := fun (f : Nat → Int) (g : Nat → Int) => (List.range 26).map (fun i => if new i then f i else g i)
  let nats := fun (f : Nat → Nat) (g : Nat → Nat) => (List.range 26).map (fun i => if new i then f i else g i)
  { c with
    prior := if new 25 then ((nth c.old 25, nth c.target 25, nth c.step 25, nth c.rampAt 25) :: c.prior).take 8 else c.prior
    old := at_ c.value (fun i => nth c.old i), target := target
    step := nats (fun i => if nth target i = c.value i then 64 else 0) (fun i => nth c.step i)
    rampAt := nats (fun _ => now) (fun i => nth c.rampAt i) }

/-- The excitation reported for some of the kinds: the smallest of theirs, where the last sweeps left them different (log 76). -/
def Calibration.excited (c : Calibration) (kinds : List Nat) : Nat :=
  (kinds.drop 1).foldl (fun a k => min a (nth c.excite k)) (nth c.excite (nth kinds 0))

/-- The slope reported for the skews in force: the smaller of the two benches', where the last sweeps left them different (log 76). -/
def Calibration.slopeSkew (c : Calibration) : Nat := min (nth c.slopes 0) (nth c.slopes 1)

/-- The excitation of offset and gain, and of skew (Table 5.12). -/
def Calibration.exciteGain (c : Calibration) : Nat := c.excited [0, 1, 2, 3]
def Calibration.exciteSkew (c : Calibration) : Nat := c.excited [4, 5]

/-! ### Outcomes (R152, R153, R156-R158) -/

/-- The trims of a kind: low and high offsets, gains and skews, bench ratio, delay. -/
def kindTrims (kind : Nat) : List Nat :=
  if kind < 6 then (List.range 4).map (fun i => 8 * (kind / 2) + 4 * (kind % 2) + i) else [18 + kind]

/-- The absolute and change limits of a kind among the thirteen of Table 5.8. -/
def kindLimit (limits : List Nat) (kind : Nat) : Nat × Nat :=
  let i := if kind < 6 then kind / 2 else kind - 3
  (nth limits (2 * i), nth limits (2 * i + 1))

/-- The trims of a kind that a sweep may change: an excluded slice keeps its values (R158). -/
def Converter.kindFree (c : Converter) (kind : Nat) : List Nat :=
  (kindTrims kind).filter (fun i => kind ≥ 6 || !c.excluded.contains (i % 8))

/-- The RMS of a capture in 1/256 raw LSB (R152, R154). -/
def SweepMoments.rms (m : SweepMoments) : Nat :=
  if m.samples = 0 then 0
  else
    let n := 65536 * m.squares
    if n % m.samples = 0 then openSqrt 16 (n / m.samples) else isqrt (n / m.samples) + (if Config.roundsUp 17 (n : Nat) then 1 else 0)

/-- What a sweep found of a unit: the trims that would result, the RMS and the slope of its capture, and the capture's moments. -/
structure SweepMeasure where
  trims : List Int
  rms : Nat
  slope : Nat
  moments : SweepMoments
  deriving DecidableEq, Repr, Inhabited

/-- The numbers from which a trim is estimated (Table 5.2): the code distributions of its bench, the skew moments of its bench, or the
overlap sums. -/
def SweepMoments.about (m : SweepMoments) (i : Nat) : List Int :=
  if i < 16 then ((m.codes.drop (i % 8 / 4 * 4)).take 4).flatMap (fun x => [(x.1 : Int), x.2.1, x.2.2])
  else if i < 24 then ((m.skews.drop (i % 8 / 4 * 4)).take 4).map (fun x => (x : Int))
  else [(m.overlap : Int), m.ratio.1, m.ratio.2]

/-- Offsets or gains of one bench brought to the factory sum over its slices in service: the mean stays unchanged (R141, R158). What the
estimates of the others leave goes to the last. -/
def balanced (unit : Nat) (slices : List Nat) (l : List Int) : List Int :=
  match slices.getLast? with
  | none => l
  | some k =>
    let total := slices.foldl (fun (a : Int) i => a + Config.factoryTrim unit i) 0
    let rest := (slices.filter (fun i => i ≠ k)).foldl (fun (a : Int) i => a + nth l i) 0
    alter l k (fun _ => total - rest)

/-- What a unit's sweep gives (R141, R142): each trim is its target at the start plus the change its moments give, the delay that of the
correlation. -/
def SweepDone.measure (d : SweepDone) (c : Converter) : SweepMeasure :=
  let raw := (List.range 26).map (fun i =>
    if i = 25 then d.delay.getD (nth d.base 25)
    else if i < 24 && c.excluded.contains (i % 8) then nth d.base i
    else nth d.base i + Config.trimChange i (d.moments.about i))
  { trims := [0, 1, 2, 3].foldl (fun l kind => balanced d.unit (c.kindFree kind) l) raw
    rms := d.moments.rms, slope := d.slope, moments := d.moments }

/-- The signal fails the excitation test (R152). -/
def poorSignal (m : SweepMeasure) (limits : List Nat) : Bool :=
  m.rms < nth limits 10 * 256 || m.slope < nth limits 11 * 100 || m.moments.overRange ||
  decide (m.moments.samples < m.moments.clipped * 1000)

/-- The outcome of a kind (Table 5.4). -/
def kindOutcome (c : Converter) (limits : List Nat) (d : SweepDone) (force : Bool) (m : SweepMeasure) (kind : Nat) : Nat :=
  let l := kindLimit limits kind
  let trims := c.kindFree kind
  if c.kindOut kind then 7
  else if poorSignal m limits then 5
  else if kind = 7 && (d.delay.isNone || 24 ≤ d.unit) then 1
  else if kind = 6 && m.moments.overlap < 1000 then 1
  else if (kind = 1 || kind = 3) && m.moments.highValid < 2000 then 1
  else if (kind = 4 || kind = 5) && m.slope < nth limits 12 * 1000 then 4
  else if trims.any (fun i => decide (l.1 < (nth m.trims i).natAbs)) then 2
  else if !force && trims.any (fun i => decide (l.2 < (nth m.trims i - nth d.base i).natAbs)) then 3
  else 0

/-- The eight outcomes of a unit. -/
def sweepOutcomes (c : Converter) (limits : List Nat) (d : SweepDone) (force : Bool) (m : SweepMeasure) : List Nat :=
  (List.range 8).map (kindOutcome c limits d force m)

/-- The trims of the kinds with a given property of their outcome, taken from the measured values. -/
def Converter.taken (c : Converter) (outcomes : List Nat) (p : Nat → Bool) (old new : List Int) : List Int :=
  let which := ((List.range 8).filter (fun k => p (nth outcomes k))).flatMap c.kindFree
  (List.range 26).map (fun i => if which.contains i then nth new i else nth old i)

/-- The measured results come into force (R154, R159, R160). The generation counts each unit that takes a value, also within the sweep of a die
(R167; DESIGN CHOICE, log 93). -/
def State.applySweep (s : State) (d : SweepDone) (o : List Nat) (m : SweepMeasure) : State :=
  let u := d.unit
  let c := s.conv u
  let target := c.taken o (fun x => x = 0) c.cal.target m.trims
  let any := fun (ks : List Nat) => ks.any (fun k => nth o k = 0)
  let now := s.stampNow
  let time := fun (l : List Nat) (i : Nat) (ks : List Nat) => if any ks then alter l i (fun _ => now) else l
  let changed := target ≠ c.cal.target
  let s := s.setCal u (fun k =>
    { (k.rampTo target s.now) with
      source := if any (List.range 8) then 1 else k.source
      outcomes := o
      last := c.taken o (fun x => x = 0 || x = 2 || x = 3 || x = 4) k.last m.trims
      excite := (List.range 8).map (fun i => if nth o i = 0 then m.rms else nth k.excite i)
      slopes := [if any [4] then m.slope else nth k.slopes 0, if any [5] then m.slope else nth k.slopes 1]
      overlap := if any [6] then m.moments.overlap else k.overlap
      times := time (time (time (time k.times 0 [0, 1, 2, 3]) 1 [4, 5]) 2 [6]) 3 [7]
      temperature := d.temperature
      setTemperature := if any [0, 1, 2, 3] then d.temperature else k.setTemperature
      withheld := nth o 4 = 4 || nth o 5 = 4
      factory := k.factory && !any (List.range 8) })
  let s := if changed && decide (u < 24) then s.setChan u (fun x => { x with recommended := false, excessRun := 0 }) else s
  if any (List.range 8) then { s with cal := { s.cal with generation := (s.cal.generation + 1) % 4294967296 } } else s

/-! ### Operations (R145, R159) -/

/-- The operation running changed. -/
def State.setRunning (s : State) (f : SweepOp → SweepOp) : State :=
  { s with sweep := { s.sweep with running := s.sweep.running.map f } }

/-- The operation running completes: event source 186 (Table 16.3). -/
def State.endSweepOp (s : State) (status : Nat) : State :=
  match s.sweep.running with
  | none => s
  | some o =>
    State.completeOp { s with sweep := { s.sweep with running := none } } o.tag status
      (le 1 o.completed ++ le 1 o.passed ++ zeros 2 ++ le 4 s.cal.generation)

/-- The operation running completes once nothing of it is left (Table 5.5). -/
def State.finishSweepOp (s : State) : State :=
  match s.sweep.running with
  | none => s
  | some o =>
    if o.units.isEmpty && s.sweep.unit.isNone && s.sweep.next.isNone && s.sweep.computing.isNone then
      s.endSweepOp (if o.passed > 0 then stOk else if o.swept > 0 then stExcitation else stWrongState)
    else s

/-! ### Aborts (R162) -/

/-- The streams of a unit go on after an interruption: the home die carries a channel that it carried before (R147, R149). -/
def State.resume (s : State) (u : Nat) : State :=
  if 24 ≤ u then s
  else if (s.chan u).interrupted then s.setCarrier u (s.chan u).carrier false
  else if s.sweep.lane.any (fun k => (s.chan u).carrier = .lane k) then s.carry u .home
  else s

/-- The running sweep aborts, and its operation completes with a status; `restore` says that a channel in its
interruption is restored (R162). -/
def State.abortSweep (s : State) (status : Nat) (restore : Bool) : State :=
  match s.sweep.running with
  | none => s
  | some _ =>
    let w := s.sweep
    let started := w.computing.toList.map (fun d => d.unit) ++ w.unit.toList ++ w.next.toList.map (fun x => x.unit)
    let s := started.foldl (fun (s : State) u => s.abortUnit u) s
    let s := match w.next.bind (fun x => x.lane) with
      | some k => s.release k
      | none => s
    let s := { s with sweep := { s.sweep with next := none, computing := none } }
    let s := s.endSweepOp status
    match w.unit with
    | none => s
    | some u =>
      if w.phase = 1 then
        let s := match w.lane with
          | some k => s.release k
          | none => s
        { s with sweep := { s.sweep with unit := none, phase := 0, lane := none } }
      else if restore then
        let s := if w.phase = 4 then s
          else ({ s with sweep := { s.sweep with phase := 4, dueAt := s.now + 4 * Config.ms } }).disturb u
        { s with sweep := { s.sweep with aborted := true } }
      else
        let s := s.resume u
        let s := match w.lane with
          | some k => s.release k
          | none => s
        { s with sweep := { s.sweep with unit := none, phase := 0, lane := none } }

/-- The units of the sweep running or restoring. -/
def State.sweepUnits (s : State) : List Nat :=
  s.sweep.unit.toList ++ s.sweep.next.toList.map (fun x => x.unit) ++ s.sweep.computing.toList.map (fun d => d.unit)

/-- A sweep runs on a die, between two of its units too (R144, Table 5.6). -/
def State.sweepRuns (s : State) (d : Nat) : Bool :=
  s.sweepUnits.any (fun u => dieOfUnit u = d) || s.sweep.running.any (fun o => hDie o.handle = d)

/-- A channel is under sweep (Table 5.6). -/
def State.underSweep (s : State) (n : Nat) : Bool := s.sweepUnits.contains n

/-- A sweep runs or waits on a die (R168). -/
def State.sweepOn (s : State) (d : Nat) : Bool :=
  s.sweepRuns d ||
  (s.sweep.running.toList ++ s.sweep.queue).any (fun o => o.units.any (fun u => dieOfUnit u = d))

/-! ### Turns (R145-R147, R151) -/

/-- The enabled channel with the largest one-cycle RMS, for an excitation of FFh (R144). -/
def State.loudest (s : State) : Option Nat :=
  ((List.range 24).filter (fun n => (s.chan n).enabled)).foldl (fun best n =>
    let v := fun (m : Nat) => ((s.chan m).rms.getLast?.map (fun r => r.high)).getD 0
    match best with
    | none => some n
    | some m => if v m < v n then some n else best) none

/-- The unit's turn is spent without a sweep: outcome 6 and its result event (R145). -/
def State.skipUnit (s : State) (u : Nat) : State := s.abortUnit u

/-- The lane of a lane sweep can be swept: in service and not substituting (R145). -/
def State.laneSweepable (s : State) (k : Nat) : Bool :=
  s.belvedereUp && (s.conv (24 + k)).inService && (s.conv (24 + k)).job.all (fun j => j.prec ≥ 3)

/-- The sweep of a unit starts at its turn (R147). -/
def State.startUnit (s : State) (u temperature reference excitation : Nat) : State :=
  let s := s.setRunning (fun o => { o with swept := o.swept + 1 })
  let s := s.setSide (dieOfUnit u) (fun x => { x with freeAt := s.now + 32 })
  let s := { s with sweep := { s.sweep with
    unit := some u, limits := s.cal.limits, base := (s.conv u).cal.target, temperature := temperature, reference := reference
    delay := none, aborted := false } }
  if u < 24 then
    match s.pick (s.lanesFor 3) with
    | (none, s) => s.interrupt u none
    | (some k, s) =>
      let s := (((s.evict k).pauseRotation).assign k u 3).setRunning (fun o => { o with selected := true })
      { s with sweep := { s.sweep with phase := 1, lane := some k, heard := s.sweep.heard.filter (fun x => x.1 ≠ u && x.1 ≠ 24 + k) } }
  else
    let s := (s.evict (u - 24)).assign (u - 24) excitation 3
    s.interrupt u (some (u - 24))

/-- The next unit of the operation running, at its turn: disabled channels and lanes that cannot be swept are passed
over; a ramp or a busy side slice is waited for (R145, R146). -/
def turnFrom : Nat → Nat → Nat → State → State
  | 0, _, _, s => s
  | fuel + 1, reference, temperature, s =>
    match s.sweep.running with
    | none => s
    | some o =>
      match o.units with
      | [] => s.finishSweepOp
      | u :: rest =>
        let pass := s.setRunning (fun o => { o with units := rest })
        if u < 24 && !(s.chan u).enabled then turnFrom fuel reference temperature pass
        else
          let exc := if o.excitation = 255 then s.loudest else some o.excitation
          if 24 ≤ u && (!s.laneSweepable (u - 24) || exc.isNone) then
            turnFrom fuel reference temperature (pass.skipUnit u)
          else if (s.conv u).cal.ramping || !(s.die (dieOfUnit u)).side.queue.isEmpty ||
              (24 ≤ u && (s.conv u).job.any (fun j => j.prec = 3)) then s
          else pass.startUnit u temperature reference (exc.getD 0)

/-- The next channel of a bridged die sweep, whose turn comes during the interruption of the current one, correlates on a second lane: the
side slice has finished what is queued and converts for it (R146, R151). Disabled channels are passed over (R145). -/
def correlateFrom : Nat → Nat → Nat → State → State
  | 0, _, _, s => s
  | fuel + 1, reference, temperature, s =>
    match s.sweep.running with
    | none => s
    | some o =>
      match o.units with
      | [] => s
      | u :: rest =>
        if 24 ≤ u || s.sweep.lane.isNone then s
        else if !(s.chan u).enabled then correlateFrom fuel reference temperature (s.setRunning (fun o => { o with units := rest }))
        else if (s.conv u).cal.ramping || !(s.die (dieOfUnit u)).side.queue.isEmpty then s
        else
          match s.pick (s.lanesFor 3) with
          | (none, s) => s
          | (some k, s) =>
            let s := s.setRunning (fun o => { o with units := rest, swept := o.swept + 1, selected := true })
            let s := ((s.setSide (dieOfUnit u) (fun x => { x with freeAt := s.now + 32 })).evict k).pauseRotation.assign k u 3
            let x : SweepNext :=
              { unit := u, lane := some k, base := (s.conv u).cal.target, limits := s.cal.limits, temperature := temperature
                reference := reference }
            { s with sweep := { s.sweep with next := some x, heard := s.sweep.heard.filter (fun x => x.1 ≠ u && x.1 ≠ 24 + k) } }

/-- SWEEP_TURN (R145): a sweep's turn comes; `reference` and `temperature` are the side-slice codes of R146. Queued sweeps wait from a power
warning until a ride-through (R432, Table 14.2). -/
def execSweepTurn (t : Nat) (reference temperature : SideCode) (s : State) : Out :=
  let s := s.tickTo t
  .next
    (match s.sweep.unit with
     | some _ =>
       (if s.sweep.phase ≥ 2 && !s.sweep.aborted && s.sweep.next.isNone then correlateFrom 7 reference temperature s else s)
     | none =>
       (match s.sweep.running, s.sweep.queue with
        | some _, _ => turnFrom 7 reference temperature s
        | none, o :: rest =>
          if s.power.warning.isSome then s
          else turnFrom 7 reference temperature { s with sweep := { s.sweep with queue := rest, running := some o } }
        | none, [] => s))

/-- The tick at which the correlation of a lane ends: 2P after its narrowband stream is valid (R147). -/
def State.correlationEnd (s : State) (k : Nat) : Nat :=
  let p := if s.tracker.state = 0 then 20 * Config.ms else s.tracker.period / 512
  s.tickOfRaw (24 + k) (32 * (s.conv (24 + k)).narrowFrom) + 5656 + 2 * p

/-- The narrowband samples of a unit in the correlation phase, as ticks and values. -/
def State.narrowSpan (s : State) (u from_ stop : Nat) : List (Nat × Int) :=
  (s.sweep.heard.filter (fun x => x.1 = u && decide (from_ ≤ x.2.1) && decide (x.2.1 < stop))).map (fun x => x.2)

/-- The delay trim with which a channel lands on a lane's timeline: the lane's own part plus the home die's delay behind the lane over the
correlation phase (R143). -/
def State.correlated (s : State) (u k : Nat) : Int :=
  let p := if s.tracker.state = 0 then 20 * Config.ms else s.tracker.period / 512
  let from_ := s.correlationEnd k - 5656 - 2 * p
  let stop := from_ + 2 * p
  Config.laneDelay k u + Config.correlate (s.narrowSpan u from_ stop) (s.narrowSpan (24 + k) from_ stop)

/-- CORRELATION_PHASE_END (R147): the interruption starts, bridged by the lane. -/
def execCorrelationPhaseEnd (t : Nat) (s : State) : Out :=
  let s := s.tickTo t
  .next
    (match s.sweep.unit, s.sweep.lane with
     | some u, some k =>
       if s.sweep.phase = 1 && s.correlationEnd k ≤ s.now then
         (State.interrupt { s with sweep := { s.sweep with delay := some (s.correlated u k) } } u (some k))
       else s
     | _, _ => s)

/-- SWEEP_CAPTURE_HALF (R147): the skew trims move by the known offsets. -/
def execSweepCaptureHalf (t : Nat) (s : State) : Out :=
  let s := s.tickTo t
  .next
    (if s.sweep.phase = 2 && s.sweep.dueAt ≤ s.now then
      { s with sweep := { s.sweep with phase := 3, dueAt := 2 * s.sweep.dueAt - s.sweep.since - 2 * Config.ms } }
    else s)

/-- The span of the capture that ends, as ticks; without a lane the channel's stream has no samples in it, so the span of the same length
before the interruption stands for it (log 76). -/
def SweepState.slopeSpan (w : SweepState) (u : Nat) : Nat × Nat :=
  let start := w.since + 2 * Config.ms
  let stop := w.dueAt - 4 * Config.ms
  if 24 ≤ u || w.lane.isSome then (start, stop) else (w.since - (stop - start), w.since)

/-- The RMS slope of the capture's input in mV/s, from the channel's wideband stream over the capture: one step of 2^-22 V in 2 µs is
500,000,000 / 2^22 mV/s (R152, log 76). -/
def State.inputSlope (s : State) (u : Nat) (span : Nat × Nat) : Nat :=
  let l : List (Nat × Nat) := match s.worksFor u with
    | some n => (s.chan n).steps.filter (fun (x : Nat × Nat) => decide (span.1 ≤ x.1) && decide (x.1 < span.2))
    | none => []
  if l.isEmpty then 0
  else
    let sum : Nat := l.foldl (fun (a : Nat) (d : Nat × Nat) => a + d.2) 0
    let x : Rat := ((sum * 500000000 ^ 2 : Nat) : Rat) / ((l.length * 4194304 ^ 2 : Nat) : Rat)
    let whole := x.floor.toNat
    if x = (whole : Rat) then openSqrt 18 whole else isqrt whole + (if Config.roundsUp 19 (sum : Nat) then 1 else 0)

/-- SWEEP_CAPTURE_END (R147): 4 ms of restoration, during which the unit's stages settle. -/
def execSweepCaptureEnd (t : Nat) (s : State) : Out :=
  let s := s.tickTo t
  .next
    (match s.sweep.unit with
     | some u =>
       if s.sweep.phase = 3 && s.sweep.dueAt ≤ s.now then
         State.disturb { s with sweep := { s.sweep with phase := 4, dueAt := s.sweep.dueAt + 4 * Config.ms } } u
       else s
     | none => s)

/-- The next channel, already correlating, becomes the unit under sweep; one whose lane has been taken is interrupted at once, unbridged
(R151, R162). -/
def State.promoteNext (s : State) : State :=
  match s.sweep.next with
  | none => s
  | some x =>
    let s := { s with sweep := { s.sweep with
      unit := some x.unit, phase := 1, lane := x.lane, next := none, limits := x.limits, base := x.base
      temperature := x.temperature, reference := x.reference, delay := none } }
    if x.lane.isSome then s else s.interrupt x.unit none

/-- The interruption of a unit ends: its home die carries the channel again, the lane returns (R147). -/
def State.endInterruption (s : State) (u : Nat) : State :=
  let w := s.sweep
  let slope := s.inputSlope u (w.slopeSpan u)
  let s := s.resume u
  let s := match w.lane with
    | some k => if 24 ≤ u then s.release k else s.letGo k
    | none => s
  let s := { s with sweep := { s.sweep with unit := none, phase := 0, lane := none } }
  if w.aborted then { s with sweep := { s.sweep with aborted := false } }
  else
    State.promoteNext { s with sweep := { s.sweep with
      computing := some { unit := u, limits := w.limits, base := w.base, delay := w.delay, slope := slope, moments := w.moments
                          temperature := w.temperature } } }

/-- INTERRUPTION_END (R147). -/
def execInterruptionEnd (t : Nat) (s : State) : Out :=
  let s := s.tickTo t
  .next
    (match s.sweep.unit with
     | some u =>
       if s.sweep.phase = 4 && s.sweep.dueAt ≤ s.now && s.sweep.computing.isNone then
         (s.endInterruption u).lanesFreed
       else s
     | none => s)

/-- SWEEP_RESULT (R159): the outcome of the unit swept is known. -/
def execSweepResult (t : Nat) (s : State) : Out :=
  let s := s.tickTo t
  .next
    (match s.sweep.computing, s.sweep.running with
     | some d, some o =>
       let measure := d.measure (s.conv d.unit)
       let out := sweepOutcomes (s.conv d.unit) d.limits d o.force measure
       let s := s.applySweep d out measure
       let s := s.sweepEvent d.unit 0 (outcomeWord out) measure.rms measure.slope
       let s := s.setRunning (fun o =>
         { o with completed := o.completed + 1
                  passed := o.passed + ofBool (!poorSignal measure d.limits) })
       State.finishSweepOp { s with sweep := { s.sweep with computing := none } }
     | _, _ => s)

/-- RAMP_STEP (R160): step k takes place 4k ms after the outcome is known. -/
def execRampStep (t : Nat) (s : State) : Out :=
  let s := s.tickTo t
  .next { s with converters := s.converters.map (fun c =>
    if c.cal.ramping then
      { c with cal := { c.cal with step := List.zipWith (fun k a =>
          if k < 64 then max k (min 64 ((s.now - a) / (4 * Config.ms))) else k) c.cal.step c.cal.rampAt } }
    else c) }

/-- NEW_SWEEP_RECOMMENDED (R155): 20 consecutive one-cycle RMS results above four times the recorded excitation. -/
def execNewSweepRecommended (t channel : Nat) (s : State) : Out :=
  let s := s.tickTo t
  let c := s.chan channel
  guarded (channel < 24)
    (if 20 ≤ c.excessRun && !c.recommended then
      let r := nth c.rms.reverse (c.excessRun - 20)
      (s.setChan channel (fun c => { c with recommended := true })).sweepEvent channel 1 (zeros 4) r.high.toNat 0
    else s)

end Sys2Proof.Machine
end

