-- ==== Sys2Proof/WellFormed.lean ====
section
/-! DEFINITION. Which commands name objects that the part has (Table 1.5, chapter 15): the ones no fault stops. -/

namespace Sys2Proof

/-- An acquisition die, 1-5 (Table 1.1). -/
def isAcquisition (die : Nat) : Bool := 1 ≤ die && die ≤ 5

/-- A die with a Varfin link, 1-7 (R21). -/
def isLinked (die : Nat) : Bool := 1 ≤ die && die ≤ 7

/-- A trigger consumer the part has (R89). -/
def Consumer.exists (c : Consumer) : Bool :=
  match c with
  | .sideSlice d => isAcquisition d
  | .ring r => r < 8

/-- A memory place the part has (R336). -/
def MemWhere.exists (m : MemWhere) : Bool :=
  match m with
  | .contextSection k => k < 160
  | .checkpoint k => k < 2
  | .processorOther k => k < 2
  | .filterState u => u < 30
  | .modemSlot h => 0xC000 ≤ h && h ≤ 0xC7FF
  | .gatehouseTotals => true

/-- Whether every object the command names exists. A command that carries a request names its object in the request's
handle, which check 9 of Table 2.5 judges. -/
def Instr.wf (i : Instr) : Bool :=
  match i with
  | .newSweepRecommended _ c => c < 24
  | .rawSample _ u _ => u < 30
  | .windowRearm _ c _ => c < 24
  | .widebandSample _ u => u < 30
  | .narrowbandSample _ u _ => u < 30
  | .fadeEnd _ c => c < 24
  | .peakWindowEnd _ c => c < 24
  | .sideSliceConversion _ d _ => isAcquisition d
  | .triggerTimerFiring _ k => k < 8
  | .pwminEdge _ k _ _ => k < 2
  | .triggerAction _ c => c.exists
  | .postTriggerEnd _ r => r < 8
  | .drainEnd _ r => r < 8
  | .captureRecordComplete _ r => r < 8
  | .tariffPinCode _ c => c < 8
  | .tamperSwitch _ k _ => k < 4
  | .groupIntervalEnd _ g => g < 16
  | .groupIntervalFinal _ g => g < 16
  | .vanaSupplyFault _ ds _ => ds.all isAcquisition
  | .varfinFrame _ l k _ _ => isLinked l && k < 2
  | .varfinResendTimeout _ l => isLinked l
  | .laneLoss _ d k => isLinked d && k < 2
  | .laneRetrain _ d k => isLinked d && k < 2
  | .laneReturn _ d k => isLinked d && k < 2
  | .scrub _ d _ _ => d < 8
  | .uncorrectableError _ m => m.exists
  | .lockstepMismatch _ k => k < 2
  | .bridgeHandover _ c => c < 24
  | .bridgeHandback _ c => c < 24
  | .dieFailure _ d _ => isAcquisition d
  | .dieReturnTry _ d _ => isAcquisition d
  | .dieReturn _ d => isAcquisition d
  | .fenceMarker _ k => k < 8
  | .blockRetire _ k _ => k < 2
  | _ => true

end Sys2Proof
end

