-- ==== Sys2Proof/Machine/Triggers.lean ====
section
/-! DEFINITION. Triggers, the side slice and the capture rings: R83-R93, R136-R138, R394-R397. -/

namespace Sys2Proof.Machine

/-! ### Trigger sources and actions (R89-R93) -/

/-- The trigger settings of a consumer. -/
def State.triggerOf (s : State) (c : Consumer) : Trigger :=
  match c with
  | .sideSlice d => (s.die d).side.trigger
  | .ring r => (nth s.captures r).trigger

/-- The trigger settings of a consumer changed. -/
def State.setTrigger (s : State) (c : Consumer) (f : Trigger → Trigger) : State :=
  match c with
  | .sideSlice d => s.setSide d (fun x => { x with trigger := f x.trigger })
  | .ring r => s.setCapture r (fun x => { x with trigger := f x.trigger })

/-- A trigger firing that a consumer misses (R85, R93); a ring carries its count in the capture record. -/
def State.missTrigger (s : State) (c : Consumer) : State :=
  match c with
  | .sideSlice d => s.setSide d (fun x => { x with missed := sat 32 (x.missed + 1), missedSince := x.missedSince + 1 })
  | .ring r => s.setCapture r (fun x => if x.phase = 0 then x else { x with missed := sat 16 (x.missed + 1) })

/-- Every consumer: the side slices of A0-A4 and the eight rings. -/
def consumers : List Consumer :=
  [1, 2, 3, 4, 5].map Consumer.sideSlice ++ (List.range 8).map Consumer.ring

/-- A list of conversions that reaches a side slice at a tick, as queue entries (R85). -/
def conversions (codes : List Nat) (injected : Bool) (session at_ : Nat) : List Conv :=
  let n := codes.length
  codes.mapIdx (fun i k => { input := k, injected := injected, last := i + 1 = n, at_ := at_, session := session })

/-- Entries join a side slice's queue, whole (R85). -/
def SideSlice.enqueue (x : SideSlice) (l : List Conv) (at_ : Nat) : SideSlice :=
  { x with freeAt := if x.queue.isEmpty then max x.freeAt at_ else x.freeAt, queue := x.queue ++ l }

/-- Whether an entry stands behind a trigger's list of tick `a`: a later one, or an INJECT of the same tick (R87). -/
def Conv.behind (c : Conv) (a : Nat) : Bool := a < c.at_ || (c.injected && c.at_ = a)

/-- The request whose INJECT asked for an entry, if its session still waits for it. -/
def State.injecting (s : State) (c : Conv) : Option Request :=
  (s.session c.session).busy.filter (fun q => q.rxAt ≤ c.at_ && byteAt q.bytes 1 = c.session)

/-- The reply of an INJECT that an entry belongs to (R86). -/
def State.endInject (s : State) (c : Conv) (status : Nat) (payload : List Byte) : State :=
  match s.injecting c with
  | none => s
  | some q =>
    (s.setSession c.session (fun x => { x with busy := none })).answer (Req.of (if c.session ≤ 3 then .h0 else .h1) q) status payload

/-- A trigger's list joins a queue before the entries behind it; of the INJECT lists of its tick, those that no longer fit leave the queue with
BUSY (R85, R87, log 36). -/
def State.enqueueTrigger (s : State) (d a : Nat) (codes : List Nat) : State :=
  let q := (s.die d).side.queue
  let kept := q.filter (fun c => !(c.injected && c.at_ = a))
  let mine := q.filter (fun c => c.injected && c.at_ = a)
  if 4 < kept.length + codes.length then s.missTrigger (.sideSlice d)
  else
    let list := conversions codes false 0 a
    let r := ((mine.map (fun c => c.session)).eraseDups).foldl (fun (r : State × List Conv) k =>
      let l := mine.filter (fun c => c.session = k)
      if r.2.length + l.length + list.length + kept.length ≤ 4 then (r.1, r.2 ++ l)
      else (l.head?.elim r.1 (fun c => r.1.endInject c stBusy []), r.2)) (s, [])
    r.1.setSide d (fun x =>
      ({ x with queue := [] } : SideSlice).enqueue
        (kept.filter (fun c => !c.behind a) ++ list ++ r.2 ++ kept.filter (fun c => c.behind a))
        (if x.queue.isEmpty then a else x.freeAt))

/-- A consumer's action, when its delay is over (R85, R90, R136). On a side slice out of service it is dropped and not counted as missed; R88
states no more than that nothing is converted (log 36). -/
def State.triggerActs (s : State) (c : Consumer) : State :=
  match (s.triggerOf c).actAt with
  | none => s
  | some a =>
    if s.now < a then s
    else
      let g := s.triggerOf c
      let s := s.setTrigger c (fun x => { x with actAt := none, acted := 4 * a })
      match c with
      | .sideSlice d => if s.outOfService d then s else s.enqueueTrigger d a g.codes
      | .ring r => s.captureTrigger r 0 a

/-- A source fires at an instant in quarter ticks: each consumer that names it starts its delay, or misses the firing while a delay runs
(R90, R93). An action due by that instant comes first; an edge that is older than an action already taken fell into its delay. -/
def State.fireSource (s : State) (sources : List Nat) (quarter : Nat) : State :=
  consumers.foldl (fun (s : State) c =>
    if !sources.contains (s.triggerOf c).source then s
    else
      let s := if (s.triggerOf c).actAt.any (fun a => 4 * a ≤ quarter) then s.triggerActs c else s
      let g := s.triggerOf c
      if g.actAt.isSome || quarter < g.acted then s.missTrigger c
      else s.setTrigger c (fun x =>
        { x with actAt := some (s.rawInstant ((quarter + 3) / 4 + 4 * x.delay)), sourceAt := quarter })) s

/-! ### PWMIN edges (R92) -/

/-- The source encodings an edge of a pin fires (Table 3.7). -/
def edgeSources (pin : Nat) (rising : Bool) : List Nat :=
  let b := 0x20 + 4 * pin
  [if rising then b else b + 1, b + 2]

/-- An edge that has stood for 100 ns by an instant in quarter ticks is no part of a pulse shorter than that: it fires, as of its own
instant (R92). -/
def State.settlePin (s : State) (pin quarter : Nat) : State :=
  match nth s.pins.pwm pin with
  | some (q, rising) =>
    if q + 7 ≤ quarter then
      State.fireSource { s with pins := { s.pins with pwm := alter s.pins.pwm pin (fun _ => none) } } (edgeSources pin rising) q
    else s
  | none => s

/-- The edges that have stood for 100 ns fire. -/
def State.settlePwm (s : State) : State := (s.settlePin 0 (4 * s.now)).settlePin 1 (4 * s.now)

/-- PWMIN_EDGE (R92): `quarter` is the capture instant in periods of 15.625 ns, a quarter of a tick. Two edges less than 100 ns apart are a
pulse that the part ignores. -/
def execPwminEdge (t pin : Nat) (rising : Bool) (quarter : Nat) (s : State) : Out :=
  let s := s.tickTo t
  guarded (pin < 2)
    (if s.phase ≠ .ready && s.phase ≠ .running then s
    else
      let s := s.settlePwm.settlePin pin quarter
      let held := match nth s.pins.pwm pin with
        | some _ => none
        | none => some (quarter, rising)
      { s with pins := { s.pins with pwm := alter s.pins.pwm pin (fun _ => held) } })

/-! ### Rows of triggers -/

/-- TRIGGER_TIMER_FIRING (R91). -/
def execTriggerTimerFiring (t timer : Nat) (s : State) : Out :=
  let s := s.tickTo t
  let s := s.settlePwm
  let x := nth s.timers timer
  guarded (timer < 8)
    (if x.mode ≠ 0 && x.next ≤ s.now then
      let s := { s with timers := alter s.timers timer (fun x =>
        if x.mode = 2 then { x with next := x.next + x.period } else { x with mode := 0 }) }
      s.fireSource [0x10 + timer] (4 * x.next)
    else s)

/-- TRIGGER_ACTION (R90). -/
def execTriggerAction (t : Nat) (consumer : Consumer) (s : State) : Out :=
  let s := s.tickTo t
  guarded consumer.exists (s.settlePwm.triggerActs consumer)

/-! ### Side slice (R84-R86) -/

/-- The four 16-byte entries of the INJECT reply, after its count (Table 16.7). -/
def injectReply (l : List ConvResult) : List Byte :=
  le 1 l.length ++ zeros 7 ++
  fit 64 ((l.map (fun x => le 1 x.input ++ zeros 1 ++ le 2 x.code ++ zeros 4 ++ le 8 x.time)).flatten)

/-- The reply of an INJECT, once its last conversion has finished (R86). -/
def State.answerInject (s : State) (d : Nat) (c : Conv) : State :=
  let payload := injectReply (s.die d).side.injected
  (s.setSide d (fun x => { x with injected := [] })).endInject c stOk payload

/-- The side slice of a die out of service converts nothing: the lists in its queue leave it, and an INJECT is answered DEGRADED (R88,
log 36). -/
def State.dropSide (s : State) (d : Nat) : State :=
  let q := (s.die d).side.queue
  let s := s.setSide d (fun x => { x with queue := [], injected := [], triggered := [] })
  (q.filter (fun c => c.injected && c.last)).foldl (fun (s : State) c => s.endInject c stDegraded []) s

/-- Event source 72 + (d - 1), once the last conversion of a triggered list has finished (R86). -/
def State.conversionEvent (s : State) (d : Nat) : State :=
  let x := (s.die d).side
  let time := (x.triggered.head?.map (fun r => r.time)).getD 0
  let body := objBody (handleOf d 0 8)
    (fit 4 (x.triggered.flatMap (fun r => le 1 r.input)) ++ fit 8 (x.triggered.flatMap (fun r => le 2 r.code)) ++
      countItem x.missedSince)
  (s.setSide d (fun x => { x with triggered := [], missedSince := 0 })).raise (71 + d) time body

/-- SIDE_SLICE_CONVERSION (R84): the conversion at the head of the queue, sampled at the first raw instant from which the
side slice is free, finishes 1.0 µs later. -/
def execSideSliceConversion (t die : Nat) (code : SideCode) (s : State) : Out :=
  let s := (s.tickTo t).settlePwm
  let x := (s.die die).side
  let at_ := s.rawInstant x.freeAt
  guarded (isAcquisition die)
    (match x.queue with
     | [] => s
     | c :: rest =>
       if s.outOfService die then s.dropSide die
       else if s.now < at_ + 16 then s
       else
         let r : ConvResult := { input := c.input, code := code % 4096, time := s.stamp at_ }
         let s := s.setSide die (fun x => { x with
           queue := rest, freeAt := at_ + 16
           injected := if c.injected then x.injected ++ [r] else x.injected
           triggered := if c.injected then x.triggered else x.triggered ++ [r] })
         if !c.last then s
         else if c.injected then s.answerInject die c
         else s.conversionEvent die)

/-! ### Capture rings (R137, R138, R394-R397) -/

/-- POST_TRIGGER_END (R138): the buffer is frozen once its post-trigger length is complete. A sample whose pair disagrees is delivered with the
next sample, on a three-slice bench up to two instants later (R339). -/
def execPostTriggerEnd (t ring : Nat) (s : State) : Out :=
  let s := s.tickTo t
  let c := nth s.captures ring
  guarded (ring < 8)
    (if c.phase = 2 && c.lastIndex + 2 < (s.now - c.epochTick) / 4 then s.setCapture ring (fun c => s.freeze c s.now)
    else s)

/-- The record a drained capture becomes (R395). -/
def Capture.pendingRecord (c : Capture) : PendingRecord :=
  { die := c.die, epoch := c.epoch, units := c.units, pre := c.pre, cause := c.cause
    flags := ofBool c.truncated + 2 * ofBool c.sliced + 4 * ofBool (bit c.options 2) + 8 * ofBool c.subst
    firstIndex := c.firstIndex, firstTick := c.epochTick + 4 * c.firstIndex, actedAt := c.actedAt
    missed := c.missed, excluded := c.excluded, blocks := c.blocks }

/-- DRAIN_END (R138): the frozen contents have crossed the link at the rates of R26; the buffer re-arms if it repeats, or stays idle. -/
def execDrainEnd (t ring : Nat) (s : State) : Out :=
  let s := s.tickTo t
  let c := nth s.captures ring
  guarded (ring < 8)
    (if c.phase = 3 && !s.dieDown c.die && (s.drained c).drainLeft = 0 then
      s.setCapture ring (fun c =>
        { c with
          phase := if bit c.options 2 then 1 else 0, buffer := [], missed := 0, truncated := false, subst := false
          writing := c.writing ++ [c.pendingRecord] })
    else s)

/-- The header of Table 12.20. -/
def State.ringHeader (s : State) (r number position : Nat) (x : PendingRecord) : List Byte :=
  withCrc (le 2 1 ++ le 1 r ++ le 1 x.die ++ le 4 number ++ le 8 position ++ le 4 x.epoch ++ le 1 x.units ++ le 1 x.pre ++
    le 1 x.cause ++ le 1 x.flags ++ le 8 x.firstIndex ++ le 8 (s.stamp x.firstTick) ++ le 8 (s.stamp x.actedAt) ++
    le 2 x.blocks.length ++ le 2 x.missed ++ x.excluded.flatMap (le 1) ++ zeros 2 ++ le 4 (crc32c x.blocks.flatten))

/-- The bytes padded to whole pages of 4,096 (R394). -/
def padPage (l : List Byte) : List Byte := fit ((l.length + 4095) / 4096 * 4096) l

/-- The first position that survives when the newest position is `newest`: the block it lies in has been erased. -/
def survivesFrom (size newest : Nat) : Nat := newest / 262144 * 262144 + 262144 - size * 4194304

/-- A record joins a ring; records that overlap the erased block are discarded (R394). -/
def Ring.append (x : Ring) (bytes : List Byte) : Ring :=
  let newest := x.newest + bytes.length
  let l := (x.records ++ [({ position := x.newest, bytes := bytes } : RingRecord)]).filter
    (fun (r : RingRecord) => survivesFrom x.size newest ≤ r.position)
  { x with
    newest := newest, written := x.written + 1, records := l
    oldest := match l with
      | [] => newest
      | r :: _ => r.position }

/-- The handle of a ring. -/
def ringHandle (r : Nat) : Nat := 0x0400 + r

/-- Marks the writer has passed are overtaken: event source 142 once for each (R397). -/
def State.overtakeMarks (s : State) (r : Nat) : State :=
  let oldest := (nth s.store.rings r).oldest
  (List.range 8).foldl (fun (s : State) k =>
    let hit := (s.session k).marks.filter (fun m => m.ring = r && !m.lost && m.pos < oldest)
    let s := s.setSession k (fun x => { x with
      marks := alterWhere x.marks (fun m => m.ring = r && m.pos < oldest) (fun m => { m with lost := true }) })
    hit.foldl (fun (s : State) m =>
      s.raise 142 s.stampNow (objBody (ringHandle r) (le 1 m.index ++ le 8 m.pos))) s) s

/-- A capture record is written to its ring: event source 143 (Table 12.21). -/
def State.writeCapture (s : State) (r : Nat) (x : PendingRecord) : State :=
  let g := nth s.store.rings r
  let number := g.written + 1
  let bytes := padPage (s.ringHeader r number g.newest x ++ x.blocks.flatten)
  let s := { s with store := { s.store with rings := alter s.store.rings r (fun g => g.append bytes) } }
  let s := s.overtakeMarks r
  s.raise 143 s.stampNow
    (le 2 (ringHandle r) ++ le 1 x.die ++ le 1 x.flags ++ le 4 number ++ le 8 g.newest ++ le 4 bytes.length ++
      le 2 x.missed ++ zeros 2 ++ le 8 (s.stamp x.actedAt))

/-- CAPTURE_RECORD_COMPLETE (R395): the oldest drained capture of a ring is complete in it, or is discarded because the
store cannot take it: event source 144. While a commit runs it goes first (Table 12.22). -/
def execCaptureRecordComplete (t ring : Nat) (s : State) : Out :=
  let s := s.tickTo t
  guarded (ring < 8)
    (match (nth s.captures ring).writing with
     | [] => s
     | x :: rest =>
       if s.power.commit.isSome then s
       else
       let s := s.setCapture ring (fun c => { c with writing := rest })
       if s.storeWrites then s.writeCapture ring x else s.raise 144 s.stampNow (objBody (ringHandle ring) []))

end Sys2Proof.Machine
end

