-- ==== Sys2Proof/Machine/Acquisition.lean ====
section
/-! DEFINITION. Group 02h: CH_CONFIG, CH_QUERY, TRIG_CONFIG, INJECT, WINDOW_SET, SYNC, CAPTURE_ARM, CAPTURE_STOP
(chapter 03, R128, R136, R483-R485). -/

namespace Sys2Proof.Machine

/-- Every unit that works for a channel settles: its home converter and a lane that selects it (R128). -/
def State.disturbChannel (s : State) (n : Nat) : State :=
  (List.range 6).foldl (fun (s : State) k => if (s.conv (24 + k)).selects = some n then s.disturb (24 + k) else s) (s.disturb n)

/-! ### CH_CONFIG (R100) -/

/-- The lane that is free for a channel of the die the belvedere substitutes for: kept for it while it was disabled (R350). -/
def State.keptLane (s : State) (n : Nat) : Option Nat :=
  if s.health.substituting = some (dieOfUnit n) then
    (List.range 6).find? (fun k => (s.conv (24 + k)).job = some { prec := 1, channel := n } && (s.chan n).carrier ≠ .lane k)
  else none

/-- The setting of a channel. Repair's range mode is not a setting of the channel, which keeps the one in force before (R100, R342). A channel
enabled while its die is substituted takes its lane (R350), and one with a failed low bench takes a free one (R343). What S holds of the
narrowband stream stays while forwarding is off, and STREAM_READ shows it again once it is on (DESIGN CHOICE, log 89). -/
def State.configure (s : State) (n : Nat) (enabled : Bool) (mode : Nat) (forwarding : Bool) : State :=
  let c := s.chan n
  let changes := mode ≠ s.modeOf n
  let s := s.setChan n (fun c => { c with
    enabled := enabled, rangeMode := if c.repairMode then c.rangeMode else mode, forwarding := forwarding })
  let s := if changes then (s.rearm n false).rearm n true else s
  let s := if changes || (enabled && !c.enabled) then s.disturbChannel n else s
  match enabled && !c.enabled, s.keptLane n with
  | true, some k => (s.assign k n 1).carry n (.lane k)
  | true, none => s.lanesFreed
  | false, _ => s

def chConfigRow : Row where
  opcode := 0x0201
  valid := fun r _ => r.u 0 1 ≤ 1 && r.u 1 1 ≤ 2 && r.u 2 1 ≤ 1 && r.zero 3 5
  body := fun r s =>
    let n := unitOf r.handle
    let c := s.chan n
    let mine := s.modeOf n
    let enabled : Bool := r.u 0 1 = 1
    let mode := r.u 1 1
    judged
      [ (24 ≤ n || (!enabled && s.bound n) || (c.repairMode && mode ≠ mine), stWrongState),
        (s.underSweep n && (enabled ≠ c.enabled || mode ≠ mine), stBusy),
        (c.lost, stDegraded) ] s
      (.done stOk [] (s.configure n enabled mode (r.u 2 1 = 1)))

def execChConfig (t : Nat) (p : Port) (s : State) : Out := .next (chConfigRow.serve t p s)

/-! ### CH_QUERY (R101, R119, R485) -/

/-- The byte of a carrier (Table 16.8). -/
def Carrier.byte : Carrier → Nat
  | .home => 0
  | .lane k => 0x10 + k
  | .none => 0xFF

/-- The excluded elements as bits (Table 16.8). -/
def Converter.sliceBits (c : Converter) : Nat := orAll (c.excluded.map (fun e => 2 ^ e))

/-- Enabled and armed bits of a window (Table 16.8). -/
def Window.bits (w : Window) : Nat := ofBool w.enable + 2 * ofBool w.armed

/-- P_L in nanoseconds: 1/512 tick is 125/1,024 ns. -/
def Tracker.periodNs (x : Tracker) : Nat := (openDiv 7 (x.period * 125 : Nat) 1024).toNat

/-- Bytes 8-43 of the reply for a channel (Table 16.8). -/
def State.channelItems (s : State) (c : Channel) : List Byte :=
  le 4 c.episodes ++ le 4 c.merged ++ le 4 c.clips ++ le 1 c.fast.bits ++ le 1 c.slow.bits ++ zeros 2 ++
  le 4 c.fast.count ++ le 4 c.slow.count ++ le 1 c.active ++ le 1 ((c.swap.map (fun w => w.target)).getD 255) ++
  le 2 ((c.fade.map (fun f => f.length - f.done)).getD 0) ++ le 2 ((c.swap.map (fun w => w.length)).getD 0) ++
  le 1 s.tracker.state ++ le 1 s.tracker.channel ++ le 4 s.tracker.periodNs

/-- The 64 bytes of Table 16.8. A lane handle shows the over-range, CLIP and window items of the channel the lane carries, and zeros while it
carries none (DESIGN CHOICE, log 88). -/
def State.queryBytes (s : State) (h : Nat) : List Byte :=
  let d := hDie h
  let u := unitOf h
  let tail := fun (missed fill : Nat) => le 4 missed ++ le 1 fill ++ zeros 7 ++ le 4 (s.die d).epoch ++ zeros 4
  if hElem h = 8 then
    le 1 3 ++ zeros 2 ++ le 1 s.samplePhase ++ zeros 40 ++ tail (s.die d).side.missed (s.die d).side.queue.length
  else if hElem h < 8 then
    le 1 2 ++ zeros 2 ++ le 1 s.samplePhase ++ le 1 (ofBool ((s.conv u).excluded.contains (hElem h))) ++ zeros 39 ++ tail 0 0
  else if 24 ≤ u then
    let c := s.conv u
    let on := ((s.selected u).map (fun n => (s.chan n).enabled)).getD false
    let head := le 1 1 ++ le 1 (ofBool on) ++ le 1 (s.convMode u) ++ le 1 s.samplePhase ++ le 1 c.sliceBits ++
      zeros 1 ++ le 1 ((s.selected u).getD 255) ++
      le 1 (ofBool (((s.selected u).map (fun n => (s.chan n).forwarding)).getD false))
    head ++ (match s.serves u with | some n => s.channelItems (s.chan n) | none => zeros 36) ++ tail 0 0
  else
    let c := s.chan u
    le 1 0 ++ le 1 (ofBool c.enabled) ++ le 1 (s.modeOf u) ++ le 1 s.samplePhase ++ le 1 (s.conv u).sliceBits ++
    le 1 c.carrier.byte ++ zeros 1 ++ le 1 (ofBool c.forwarding) ++ s.channelItems c ++ tail 0 0

def chQueryRow : Row where
  opcode := 0x0202
  body := fun r s =>
    let s := s.settlePwm
    .done stOk (s.queryBytes r.handle) s

def execChQuery (t : Nat) (p : Port) (s : State) : Out := .next (chQueryRow.serve t p s)

/-! ### TRIG_CONFIG (R89-R91) -/

/-- A trigger source encoding (Table 3.7). -/
def validSource (k : Nat) : Bool :=
  k = 0 || (0x10 ≤ k && k ≤ 0x17) || (0x20 ≤ k && k ≤ 0x22) || (0x24 ≤ k && k ≤ 0x26)

/-- An input code a die accepts (Table 3.6, R18). -/
def validInput (die k : Nat) : Bool := (k ≤ 3 && die ≤ 4) || (8 ≤ k && k ≤ 10)

/-- A list of input codes in bytes 4-7: the first `n` valid, the rest 0. -/
def Req.codesValid (r : Req) (die n : Nat) : Bool :=
  (List.range 4).all (fun i => if i < n then validInput die (r.u (4 + i) 1) else r.u (4 + i) 1 = 0)

/-- The input codes of a list. -/
def Req.codes (r : Req) (n : Nat) : List Nat := (List.range n).map (fun i => r.u (4 + i) 1)

/-- The firings of a timer scheduled before an instant occur (R91). -/
def State.fireUntil (s : State) (k tick : Nat) : State :=
  let x := nth s.timers k
  if x.mode = 0 || tick < x.next then s
  else
    let n := if x.mode = 2 then (tick - x.next) / x.period + 1 else 1
    (List.range n).foldl (fun (s : State) i => s.fireSource [0x10 + k] (4 * (x.next + i * x.period))) s

/-- TRIG_CONFIG on a side slice or a timer. It replaces the settings of the side slice, and drops an action whose delay already runs; R91
states only a timer's case (log 36). -/
def trigConfigRow : Row where
  opcode := 0x0203
  valid := fun r _ =>
    if hElem r.handle = 8 then
      validSource (r.u 0 1) && (if r.u 0 1 = 0 then r.u 1 1 = 0 else 1 ≤ r.u 1 1 && r.u 1 1 ≤ 4) &&
      r.codesValid (hDie r.handle) (r.u 1 1) && r.zero 8 8
    else
      r.u 0 1 ≤ 2 && r.zero 1 3 && (if r.u 0 1 = 2 then 160 ≤ r.u 4 4 else r.u 4 4 = 0) &&
      (if r.u 0 1 = 0 then r.u 8 8 = 0 else r.rxAt + 1600 ≤ r.u 8 8)
  body := fun r s =>
    let s := s.settlePwm
    if hElem r.handle = 8 then
      let d := hDie r.handle
      judged [(s.outOfService d, stDegraded)] s
        (.done stOk [] (s.setSide d (fun x => { x with trigger :=
          { source := r.u 0 1, delay := r.u 2 2, codes := r.codes (r.u 1 1) } })))
    else
      let k := hElem r.handle
      let s := s.fireUntil k r.rxAt
      .done stOk [] { s with timers := alter s.timers k (fun _ => { mode := r.u 0 1, next := r.u 8 8, period := r.u 4 4 }) }

def execTrigConfig (t : Nat) (p : Port) (s : State) : Out := .next (trigConfigRow.serve t p s)

/-! ### INJECT (R85-R88) -/

def injectRow : Row where
  opcode := 0x0204
  valid := fun r _ =>
    1 ≤ r.u 0 1 && r.u 0 1 ≤ 4 && r.zero 1 3 && r.codesValid (hDie r.handle) (r.u 0 1)
  body := fun r s =>
    let d := hDie r.handle
    let s' := s.settlePwm.triggerActs (.sideSlice d)
    judged
      [ (4 < (s'.die d).side.queue.length + r.u 0 1, stBusy), (s.outOfService d, stDegraded) ] s
      (.defer (s'.setSide d (fun x => x.enqueue (conversions (r.codes (r.u 0 1)) true r.session s.now) s.now)))

def execInject (t : Nat) (p : Port) (s : State) : Out := .next (injectRow.serve t p s)

/-! ### WINDOW_SET (R94, R99) -/

def windowSetRow : Row where
  opcode := 0x0205
  valid := fun r _ =>
    let low := r.i 4 4
    let high := r.i 8 4
    r.u 0 1 ≤ 1 && r.u 1 1 ≤ 1 && r.u 2 1 ≤ 1 && 1 ≤ r.u 12 2 && r.zero 14 2 && decide (low < high) &&
    (if r.u 0 1 = 0 then
      1 ≤ r.u 3 1 && decide (-65536 ≤ low) && decide (low ≤ 65534) && decide (-65535 ≤ high) && decide (high ≤ 65535)
    else r.u 3 1 = 0 && decide (0 ≤ low) && decide (low ≤ 65534) && decide (1 ≤ high) && decide (high ≤ 65535))
  body := fun r s =>
    let n := unitOf r.handle
    let slow : Bool := r.u 0 1 = 1
    judged [((s.chan n).lost, stDegraded)] s
      (.done stOk [] ((s.setChan n (fun c => c.setWindow slow (fun w =>
        { w with enable := r.u 1 1 = 1, alarm := r.u 2 1 = 1, dwell := r.u 3 1, low := r.i 4 4, high := r.i 8 4
                 hysteresis := r.u 12 2 }))).rearm n slow))

def execWindowSet (t : Nat) (p : Port) (s : State) : Out := .next (windowSetRow.serve t p s)

/-! ### SYNC (R128) -/

/-- The dies a SYNC names. -/
def syncDies (h : Nat) : List Nat := if h = 0x1FFF then [1, 2, 3, 4, 5] else [hDie h]

/-- A SYNC of dies: a sweep on one of them aborts (Table 5.6), then each starts a new epoch. -/
def State.synchronise (s : State) (dies : List Nat) : State :=
  let s := if dies.any s.sweepRuns then s.abortSweep stWrongState true else s
  s.syncAt dies (s.rawInstant s.now)

def syncRow : Row where
  opcode := 0x0206
  body := fun r s =>
    judged [((syncDies r.handle).any (fun d => s.dieDown d), stDegraded)] s
      (.done stOk [] (s.synchronise (syncDies r.handle)))

def execSync (t : Nat) (p : Port) (s : State) : Out := .next (syncRow.serve t p s)

/-! ### CAPTURE_ARM and CAPTURE_STOP (R136, R138) -/

/-- The ring of a ring handle. -/
def ringOf (h : Nat) : Nat := h - 0x0400

def captureArmRow : Row where
  opcode := 0x0207
  writes := true
  valid := fun r _ =>
    isAcquisition (r.u 0 1) && r.u 1 1 < 64 && [1, 3, 6].contains (unitsOf (r.u 1 1)).length && r.u 2 1 ≤ 16 && r.u 3 1 < 8 &&
    validSource (r.u 4 1) && r.zero 5 1 && r.zero 8 8
  body := fun r s =>
    let k := ringOf r.handle
    let d := r.u 0 1
    let s := s.settlePwm
    judged
      [ ((nth s.store.rings k).size = 0, stWrongState),
        ((nth s.captures k).phase ≠ 0 || s.captures.any (fun c => c.phase ≠ 0 && c.die = d) || s.sweepRuns d, stBusy),
        (s.dieDown d, stDegraded) ] s
      (.done stOk [] (s.setCapture k (fun c =>
        { c with
          phase := 1, die := d, units := r.u 1 1, pre := r.u 2 1, options := r.u 3 1, buffer := [], missed := 0
          truncated := false, subst := false, trigger := { source := r.u 4 1, delay := r.u 6 2 } })))

def execCaptureArm (t : Nat) (p : Port) (s : State) : Out := .next (captureArmRow.serve t p s)

/-- CAPTURE_STOP: an armed or triggered buffer goes idle; a drain that has started completes, and does not re-arm. From then on firings of
the trigger source are not counted as missed, window exits and over-range episodes still are (DESIGN CHOICE, log 92). -/
def Capture.stopped (c : Capture) : Capture :=
  if c.phase = 3 then { c with options := c.options % 4, trigger := {} }
  else { c with phase := 0, buffer := [], trigger := {} }

def captureStopRow : Row where
  opcode := 0x0208
  body := fun r s =>
    let k := ringOf r.handle
    let s := s.settlePwm
    judged [((nth s.captures k).phase = 0, stWrongState)] s (.done stOk [] (s.setCapture k Capture.stopped))

def execCaptureStop (t : Nat) (p : Port) (s : State) : Out := .next (captureStopRow.serve t p s)

end Sys2Proof.Machine
end

