-- ==== Sys2Proof/Machine/Calendar.lean ====
section
/-! DEFINITION. Calendars: civil dates, the DST rules, the tariff of a calendar section (R227), its checks (R228),
billing boundaries (R233) and local midnights (R257). Offsets into the section count from byte 1,792 (Table 7.6).
Local instants are counted in minutes. -/

namespace Sys2Proof.Machine

/-! ### Dates: day 0 is 1 January 2000, a Saturday (R8) -/

/-- Days from 1 March of year 0 to 1 January 2000, in the proleptic Gregorian calendar. -/
def epochDays : Nat := 730425

/-- The day number, counted from 1 March of year 0, of a date; the year starts in March. -/
def marchDays (y m d : Nat) : Nat :=
  let y' := if m ≤ 2 then y - 1 else y
  let mp := if m ≤ 2 then m + 9 else m - 3
  365 * y' + y' / 4 - y' / 100 + y' / 400 + (153 * mp + 2) / 5 + d - 1

/-- The day number of a date. -/
def dayOfDate (y m d : Nat) : Int := (marchDays y m d : Int) - (epochDays : Int)

/-- Year, month and day of a day number. -/
def dateOfDay (n : Int) : Nat × Nat × Nat :=
  let z := (n + (epochDays : Int)).toNat
  let era := z / 146097
  let doe := z % 146097
  let yoe := (doe - doe / 1460 + doe / 36524 - doe / 146096) / 365
  let doy := doe - (365 * yoe + yoe / 4 - yoe / 100)
  let mp := (5 * doy + 2) / 153
  let m := if mp < 10 then mp + 3 else mp - 9
  (yoe + 400 * era + (if m ≤ 2 then 1 else 0), m, doy - (153 * mp + 2) / 5 + 1)

/-- Weekday of a day number, Sunday 0 (Table 7.6). -/
def weekdaySun (n : Int) : Nat := ((n + 6) % 7).toNat

/-- Weekday of a day number, Monday 0 (Tables 7.6 and 8.3). -/
def weekdayMon (n : Int) : Nat := ((n + 5) % 7).toNat

/-- Days in a month. -/
def monthDays (y m : Nat) : Nat :=
  ((if m = 12 then dayOfDate (y + 1) 1 1 else dayOfDate y (m + 1) 1) - dayOfDate y m 1).toNat

/-! ### Local time (R227) -/

/-- Standard offset, minutes. -/
def calStd (cal : List Byte) : Int := if field cal 0 2 = 1 then fieldInt cal 2 2 else 0

/-- DST offset, minutes. -/
def calDst (cal : List Byte) : Int := if field cal 0 2 = 1 then byteAt cal 4 else 0

/-- The local minute of a DST rule in a year; the rule's four bytes stand at `off`. -/
def ruleMinute (cal : List Byte) (off y : Nat) : Int :=
  let m := byteAt cal off
  let w := byteAt cal (off + 1)
  let wd := byteAt cal (off + 2)
  let last := dayOfDate y m (monthDays y m)
  let first := dayOfDate y m 1
  let day : Int :=
    if w = 5 then last - ((weekdaySun last + 7 - wd) % 7 : Nat)
    else first + ((wd + 7 - weekdaySun first) % 7 + 7 * (w - 1) : Nat)
  day * 1440 + 60 * byteAt cal (off + 3)

/-- Start and end of DST in a year, in local standard minutes: the end rule is in local daylight time. -/
def dstSpan (cal : List Byte) (y : Nat) : Int × Int := (ruleMinute cal 6 y, ruleMinute cal 10 y - calDst cal)

/-- The latest of a list of instants that lies at or before `x`. -/
def latestBy (l : List Int) (x : Int) : Option Int :=
  l.foldl (fun (a : Option Int) v => if v ≤ x then some (max v (a.getD v)) else a) none

/-- Whether DST applies at an instant given in local standard minutes: a start has come since the last end. -/
def dstApplies (cal : List Byte) (x : Int) : Bool :=
  if calDst cal = 0 then false
  else
    let y := (dateOfDay (x / 1440)).1
    let spans := [y - 1, y, y + 1].map (dstSpan cal)
    match latestBy (spans.map (fun p => p.1)) x, latestBy (spans.map (fun p => p.2)) x with
    | some a, some b => decide (b < a)
    | some _, none => true
    | none, _ => false

/-- The local minute of a UTC instant, rounded down (R227). -/
def localMinute (cal : List Byte) (utc : Int) : Int :=
  let x := utc / (minTicks : Int) + calStd cal
  if dstApplies cal x then x + calDst cal else x

/-- UTC, in minutes, of a local minute: the first occurrence where it occurs twice, the DST jump where it does not
occur (R233). -/
def utcMinute (cal : List Byte) (l : Int) : Int :=
  if dstApplies cal (l - calDst cal) then l - calDst cal - calStd cal
  else if !dstApplies cal l then l - calStd cal
  else
    let y := (dateOfDay (l / 1440)).1
    ((latestBy ([y - 1, y, y + 1].map (fun k => (dstSpan cal k).1)) l).getD l) - calStd cal

/-! ### The tariff of a calendar (R227) -/

/-- Month and day of a season's start; month 0 marks it unused. -/
def seasonStart (cal : List Byte) (k : Nat) : Nat × Nat := (byteAt cal (16 + 2 * k), byteAt cal (17 + 2 * k))

/-- A start date as a number that orders dates. -/
def dateKey (d : Nat × Nat) : Nat := 32 * d.1 + d.2

/-- The used season with the latest start among those given. -/
def latestSeason (cal : List Byte) (l : List Nat) : Option Nat :=
  l.foldl (fun (a : Option Nat) k =>
    match a with
    | none => some k
    | some b => if dateKey (seasonStart cal b) < dateKey (seasonStart cal k) then some k else some b) none

/-- The season in force on a date. -/
def seasonAt (cal : List Byte) (m d : Nat) : Nat :=
  let used := (List.range 4).filter (fun k => (seasonStart cal k).1 ≠ 0)
  let started := used.filter (fun k => dateKey (seasonStart cal k) ≤ dateKey (m, d))
  (latestSeason cal (if started.isEmpty then used else started)).getD 0

/-- The special day of a date: its index. -/
def specialOf (cal : List Byte) (y m d : Nat) : Option Nat :=
  (List.range 32).find? (fun k =>
    byteAt cal (249 + 4 * k) ≠ 0 && byteAt cal (249 + 4 * k) = m && byteAt cal (250 + 4 * k) = d &&
    (byteAt cal (248 + 4 * k) = 0 || byteAt cal (248 + 4 * k) + 2000 = y))

/-- The day type of a local day. -/
def dayTypeOf (cal : List Byte) (day : Int) : Nat :=
  let c := dateOfDay day
  match specialOf cal c.1 c.2.1 c.2.2 with
  | some k => byteAt cal (251 + 4 * k)
  | none => byteAt cal (24 + 7 * seasonAt cal c.2.1 c.2.2 + weekdayMon day)

/-- The used switch points of a day type: minute and tariff. -/
def switchPoints (cal : List Byte) (type : Nat) : List (Nat × Nat) :=
  ((List.range 12).map (fun k => field cal (56 + 24 * type + 2 * k) 2)).filterMap (fun v =>
    if v ≥ 32768 then some (v % 2048, v / 2048 % 8) else none)

/-- The tariff of a calendar section at a UTC instant; the default tariff without a calendar. -/
def calendarTariff (cal : List Byte) (default : Nat) (utc : Int) : Nat :=
  if field cal 0 2 ≠ 1 then default
  else
    let l := localMinute cal utc
    (switchPoints cal (dayTypeOf cal (l / 1440))).foldl (fun (a : Nat) p => if (p.1 : Int) ≤ l % 1440 then p.2 else a) default

/-! ### The checks of R228 -/

/-- Whether a list of numbers ascends strictly. -/
def ascending : List Nat → Bool
  | a :: b :: l => decide (a < b) && ascending (b :: l)
  | _ => true

/-- The used seasons of a section. -/
def usedSeasons (cal : List Byte) : List Nat := (List.range 4).filter (fun k => (seasonStart cal k).1 ≠ 0)

/-- The used special days of a section. -/
def usedSpecials (cal : List Byte) : List Nat := (List.range 32).filter (fun k => byteAt cal (249 + 4 * k) ≠ 0)

/-- The day types that a used season's week profile, or a used special day, names. -/
def usedDayTypes (cal : List Byte) : List Nat :=
  (usedSeasons cal).flatMap (fun k => (List.range 7).map (fun w => byteAt cal (24 + 7 * k + w))) ++
  (usedSpecials cal).map (fun k => byteAt cal (251 + 4 * k))

/-- Ranges of a DST rule (Table 7.6). -/
def ruleValid (cal : List Byte) (off : Nat) : Bool :=
  1 ≤ byteAt cal off && byteAt cal off ≤ 12 && 1 ≤ byteAt cal (off + 1) && byteAt cal (off + 1) ≤ 5 &&
  byteAt cal (off + 2) ≤ 6 && byteAt cal (off + 3) ≤ 23

/-- Whether a day type's used switch points are in range, ascending, and start at minute 0. -/
def dayTypeValid (cal : List Byte) (type : Nat) : Bool :=
  let raw := ((List.range 12).map (fun k => field cal (56 + 24 * type + 2 * k) 2)).filter (fun v => v ≥ 32768)
  raw.all (fun v => v / 16384 % 2 = 0 && v % 2048 ≤ 1439) && ascending (raw.map (fun v => v % 2048)) &&
  raw.head?.any (fun v => v % 2048 = 0)

/-- Reserved bytes of a section carry zero (R6). -/
def calendarReserved (cal : List Byte) : Bool :=
  field cal 5 1 = 0 && field cal 14 2 = 0 && field cal 52 4 = 0 && field cal 376 136 = 0

/-- Whether CTX_TARIFF_TABLE takes a calendar section (R228). -/
def calendarValid (cal : List Byte) : Bool :=
  calendarReserved cal &&
  (field cal 0 2 = 0 ||
    (field cal 0 2 = 1 && decide (-720 ≤ fieldInt cal 2 2) && decide (fieldInt cal 2 2 ≤ 840) && byteAt cal 4 ≤ 120 &&
     (byteAt cal 4 = 0 || (ruleValid cal 6 && ruleValid cal 10)) &&
     (usedSeasons cal).contains 0 &&
     (usedSeasons cal).all (fun k => (seasonStart cal k).1 ≤ 12 && 1 ≤ (seasonStart cal k).2 && (seasonStart cal k).2 ≤ 31) &&
     ((usedSeasons cal).map (fun k => dateKey (seasonStart cal k))).eraseDups.length = (usedSeasons cal).length &&
     (usedSpecials cal).all (fun k =>
       byteAt cal (249 + 4 * k) ≤ 12 && 1 ≤ byteAt cal (250 + 4 * k) && byteAt cal (250 + 4 * k) ≤ 31) &&
     (usedDayTypes cal).all (fun t => t ≤ 7 && dayTypeValid cal t)))

/-! ### Billing boundaries (R233) -/

/-- The local minute of the billing boundary of month `k`, counted from January of year 0. -/
def billingMinute (day hour k : Nat) : Int :=
  let y := k / 12
  let m := k % 12 + 1
  dayOfDate y m (if day = 0 then monthDays y m else day) * 1440 + 60 * hour

/-- UTC instants of the billing boundaries after `lo` and at or before `hi`, in order. -/
def billingBoundaries (cal : List Byte) (day hour lo hi : Nat) : List Nat :=
  let key := fun (u : Nat) => let d := dateOfDay (localMinute cal u / 1440); 12 * d.1 + d.2.1 - 1
  if hi ≤ lo then []
  else
    ((List.range (key hi + 3 - key lo)).map (fun i =>
      ((utcMinute cal (billingMinute day hour (key lo - 1 + i))).toNat) * minTicks)).filter (fun b => lo < b && b ≤ hi)

/-- UTC instants of the local midnights after `lo` and at or before `hi`, in order (R257). -/
def localMidnights (cal : List Byte) (lo hi : Nat) : List Nat :=
  if hi ≤ lo then []
  else
    let first := localMinute cal lo / 1440
    let last := localMinute cal hi / 1440
    ((List.range (last + 2 - first).toNat).map (fun i =>
      (utcMinute cal ((first + i) * 1440)).toNat * minTicks)).filter (fun b => lo < b && b ≤ hi)

/-! ### Friendly hours (R262) -/

/-- A window of Table 8.3 is active at a local minute. -/
def windowActive (windows : List Byte) (l : Int) (k : Nat) : Bool :=
  let mask := byteAt windows (8 * k)
  let minute := l % 1440
  128 ≤ mask && bit mask (weekdayMon (l / 1440)) && decide ((field windows (8 * k + 2) 2 : Int) ≤ minute) &&
  decide (minute < (field windows (8 * k + 4) 2 : Int))

/-- A holiday of Table 8.3 is the local day. -/
def holidayActive (holidays : List Byte) (l : Int) (k : Nat) : Bool :=
  let d := dateOfDay (l / 1440)
  byteAt holidays (4 * k + 1) ≠ 0 && byteAt holidays (4 * k + 1) = d.2.1 && byteAt holidays (4 * k + 2) = d.2.2 &&
  (byteAt holidays (4 * k) = 0 || byteAt holidays (4 * k) + 2000 = d.1)

/-- The friendly byte of Table 8.3 at a UTC instant: bit 0 in a window, bit 1 a holiday. -/
def friendlyAt (cal windows holidays : List Byte) (utc : Int) : Nat :=
  let l := localMinute cal utc
  ofBool ((List.range 8).any (windowActive windows l)) + 2 * ofBool ((List.range 32).any (holidayActive holidays l))

end Sys2Proof.Machine
end

