-- ==== Sys2Proof/Machine/Records.lean ====
section
/-! DEFINITION. The bytes of billing records: the context record (Tables 7.2-7.8, 7.17, 8.3, 8.6), load-profile entries
(Table 7.9), snapshots (Tables 7.10 and 8.8) and tamper records (Table 8.7). -/

namespace Sys2Proof.Machine

/-- A list of unsigned 64-bit values. -/
def words (l : List Nat) : List Byte := (l.map (le 8)).flatten

/-! ### The context record (Table 7.2) -/

/-- The header (Table 7.3). -/
def Context.header (c : Context) : List Byte :=
  le 4 c.serial ++ octets [c.kind, c.state] ++ le 2 (ctxHandle c) ++ le 8 c.created ++
  octets [c.source, c.defaultTariff, c.tariff, c.method] ++ octets c.currents ++ octets c.voltages ++
  octets [c.orientation, c.feederOf] ++ le 2 c.node ++ le 8 c.folded ++ le 4 c.journal ++ le 2 c.flags ++
  octets [c.day, c.hour] ++ le 4 c.period ++ le 4 c.snapshots ++ le 8 c.periodStart ++ le 8 c.lastBilling ++
  le 4 c.entries ++ zeros 52

/-- Registers and residues (R221). -/
def Context.energySection (c : Context) : List Byte :=
  words c.regs ++ (c.residues.map (le 2)).flatten ++ zeros 10

/-- The maximum demand entries (Table 7.7). -/
def Demand.maximaBytes (d : Demand) : List Byte := (d.maxima.map (fun m => le 8 m.1 ++ le 8 m.2)).flatten

/-- Demand and load profile (Table 7.8). -/
def Demand.bytes (d : Demand) : List Byte :=
  octets [d.mode, d.length, d.n, 0] ++ le 4 d.count ++ le 8 d.openStart ++ le 8 d.openEnd ++ le 2 d.openFlags ++
  le 2 d.filled ++ zeros 4 ++ words d.energies ++ (d.window.map words).flatten ++ words d.last ++ le 8 d.lastEnd ++
  d.maximaBytes ++ le 8 d.profStart ++ words d.profBase ++ zeros 80

/-- Shadow state (Table 7.17). -/
def Shadow.bytes (x : Shadow) : List Byte :=
  octets [x.length, 0] ++ le 2 x.status ++ le 4 x.applied ++ le 4 x.duplicates ++ le 4 x.rejected ++
  le 4 x.discontinuities ++ le 2 x.pending.length ++ le 2 x.refused ++ le 8 x.lastEnd ++ words x.lastRegs ++ zeros 424

/-- The open record of a kind. -/
def Tamper.openOf (x : Tamper) (kind : Nat) : Option TamperOpen := x.opened.find? (fun o => o.kind = kind)

/-- The tamper section (Table 8.6). -/
def Tamper.bytes (x : Tamper) : List Byte :=
  octets [x.enables, x.importOnly] ++ zeros 2 ++ f32Bytes x.reverse ++ f32Bytes x.ratio ++ f32Bytes x.magnitude ++
  f32Bytes x.displacement ++ f32Bytes x.imbalance ++ zeros 8 ++ (x.counts.map (le 2)).flatten ++
  (x.durations.map (le 4)).flatten ++ le 1 (orAll (x.opened.map (fun o => 2 ^ o.kind))) ++ zeros 3 ++ le 4 x.written ++
  ((List.range 8).map (fun k => le 8 (((x.openOf k).map (fun o => o.start)).getD 0))).flatten ++
  ((List.range 8).map (fun k =>
    let b := ((x.openOf k).map (fun o => o.base)).getD (0, 0)
    le 4 b.1 ++ le 4 b.2)).flatten ++ zeros 40

/-- The prepayment section (Table 8.3). -/
def Prepay.bytes (x : Prepay) : List Byte :=
  octets [x.mode, x.relay, x.state, x.options, x.friendly, x.hold] ++ zeros 2 ++ leInt 8 x.credit ++ leInt 8 x.low ++
  le 8 x.ceiling ++ le 8 x.emergency ++ words x.prices ++ le 8 x.standing ++ le 8 x.remainder ++ le 8 x.charged ++
  le 8 x.standingCharged ++ leInt 8 x.added ++ fit 64 (x.transactions.map (le 4)).flatten ++ le 2 x.grants ++
  le 2 x.disconnections ++ zeros 4 ++ le 8 x.lastDay ++ le 8 x.lastChange ++ x.windows ++ x.holidays ++ le 2 x.mask ++
  le 2 x.openValue ++ octets [x.mismatchRun, 0, 0, 0] ++ le 4 x.mismatches ++ zeros 76

/-- Bytes 0 to 4,091 of the record. -/
def Context.body (c : Context) : List Byte :=
  c.header ++ c.energySection ++ c.demand.bytes ++ c.calendar ++ c.shadow.bytes ++ c.tamper.bytes ++ c.prepay.bytes ++
  zeros 508

/-- The CRC of a record as it was last written to the store (R220): that of the record the pool holds. -/
def State.recordCrc (s : State) (serial : Nat) : Nat :=
  match s.store.pool.find? (fun p => p.1.serial = serial) with
  | some p => crc32c p.1.body
  | none => 0

/-- The 4,096 bytes of a context. -/
def State.contextBytes (s : State) (c : Context) : List Byte := c.body ++ le 4 (s.recordCrc c.serial)

/-! ### Load-profile entries (Table 7.9) -/

/-- The total register (q, 8). -/
def Context.total (c : Context) (q : Nat) : Nat := nth c.regs (9 * q + 8)

/-- The entry for the span from the profile start to `stop`. -/
def Context.profileBytes (c : Context) (stop flags : Nat) : List Byte :=
  let b := le 8 stop ++ le 2 flags ++ octets [c.tariff, 0] ++ le 2 (min 3600 ((stop - c.demand.profStart) / secTicks)) ++ zeros 2 ++
    ((List.range 7).map (fun q => le 4 (sat 32 (c.total q - nth c.demand.profBase q)))).flatten
  b ++ le 4 (crc32c b)

/-! ### Snapshots (Tables 7.10 and 8.8) -/

/-- The relay level of a context's summary: 0 open, 1 closed, FFh none. -/
def State.relayLevel (s : State) (c : Context) : Nat :=
  if c.prepay.mode = 1 && c.prepay.relay < 4 then ofBool (nth s.bill.relays c.prepay.relay).closed else 255

/-- The summary of Table 8.8. -/
def State.summary (s : State) (c : Context) : List Byte :=
  leInt 8 c.prepay.credit ++ le 8 c.prepay.charged ++ le 8 c.prepay.standingCharged ++ leInt 8 c.prepay.added ++
  le 2 c.prepay.grants ++ le 2 c.prepay.disconnections ++ (c.tamper.counts.map (le 2)).flatten ++
  le 4 (sat 32 (c.tamper.durations.foldl (fun a b => a + b) 0)) ++ octets [c.prepay.state, s.relayLevel c] ++ zeros 6

/-- A snapshot record with signature state 0. -/
def State.snapshotBytes (s : State) (c : Context) (flags boundaries stop taken : Nat) : List Byte :=
  le 2 1 ++ le 2 flags ++ le 4 c.serial ++ le 4 c.period ++ le 4 boundaries ++ le 8 c.periodStart ++ le 8 stop ++
  le 8 taken ++ octets [c.tariff, c.kind] ++ zeros 6 ++ words c.regs ++ c.demand.maximaBytes ++ s.summary c ++
  zeros 8 ++ zeros 512

/-- A record with its signature in place: the signed part, signature state 1, the signature (R235, R270). -/
def signedRecord (cut : Nat) (b signature : List Byte) : List Byte := b.take cut ++ le 1 1 ++ zeros 7 ++ fit 512 signature

/-! ### Tamper records (Table 8.7) -/

/-- Energy of a record: the movement of a low register word, modulo 2^32. -/
def movement (base stop : Nat) : Nat := (stop + 4294967296 - base) % 4294967296

/-- A tamper record with signature state 0. -/
def tamperBytes (serial number : Nat) (o : TamperOpen) (stop : Nat) (last : Nat × Nat) : List Byte :=
  le 2 1 ++ octets [o.kind, o.flags] ++ le 4 serial ++ le 4 number ++ octets [o.source, 0, 0, 0] ++ le 8 o.start ++
  le 8 stop ++ le 8 (movement o.base.1 last.1) ++ le 8 (movement o.base.2 last.2) ++ f32Bytes (toF32 o.extreme) ++
  le 4 ((stop - o.start) / secTicks) ++ le 2 o.billing ++ zeros 62 ++ zeros 8 ++ zeros 512

end Sys2Proof.Machine
end

