-- ==== Sys2Proof/Machine/Journal.lean ====
section
/-! DEFINITION. What billing writes to the store: journal records (R244, R387), context records in the pool (R246, R387),
snapshots, load-profile entries and tamper records with their depths (R232, R235, R270), and the requests for their
signatures (R404, R405). -/

namespace Sys2Proof.Machine

/-! ### Live contexts -/

/-- The live context of a serial. -/
def State.live (s : State) (serial : Nat) : Option Context := s.bill.live.find? (fun c => c.serial = serial)

/-- A live context changed. -/
def State.setCtx (s : State) (serial : Nat) (f : Context → Context) : State :=
  { s with bill := { s.bill with live := alterWhere s.bill.live (fun c => c.serial = serial) f } }

/-- A context put back under its serial. -/
def State.putCtx (s : State) (c : Context) : State := s.setCtx c.serial (fun _ => c)

/-- The serials of the live contexts. -/
def State.serials (s : State) : List Nat := s.bill.live.map (fun c => c.serial)

/-- A change made to each live context in turn, which may change the rest of the state too. -/
def State.eachCtx (s : State) (f : State → Context → State) : State :=
  s.serials.foldl (fun (s : State) n =>
    match s.live n with
    | some c => f s c
    | none => s) s

/-- The body of an event about a context by serial; handle 0000h when it is not live. -/
def State.serialBody (s : State) (serial : Nat) (items : List Byte) : List Byte :=
  match s.live serial with
  | some c => ctxBody c items
  | none => le 2 0 ++ zeros 2 ++ le 4 serial ++ items

/-! ### The journal (R387) -/

/-- Bytes of the body of a journal record (Table 12.17); those of the settings record are the model's (DESIGN CHOICE, log 99). -/
def JournalRecord.bodySize (r : JournalRecord) : Nat :=
  match r.type with
  | 2 => 2796
  | 3 => if r.code = 2 then 1028 else if r.code = 3 then 8 else 236
  | 4 => r.data.length
  | 6 => 8
  | 7 => 16
  | 8 => 156
  | _ => 2792

/-- Bytes a record takes in the journal (Table 12.16). -/
def JournalRecord.size (r : JournalRecord) : Nat := 28 + r.bodySize

/-- Bytes of the journal ring (Table 12.14). -/
def journalRoom : Nat := 134217728

/-- The complete commits of a journal: first record, end marker, PROVISIONAL. -/
def commitMarks (j : List JournalRecord) : List (Nat × Nat × Bool) :=
  (j.filter (fun r => r.type = 6)).map (fun r => (nth r.data 1, r.sequence, r.provisional))

/-- The commit a record belongs to, if its end marker is written. -/
def commitOf (j : List JournalRecord) (r : JournalRecord) : Option (Nat × Nat × Bool) :=
  if r.type = 5 then (commitMarks j).find? (fun m => m.1 ≤ r.sequence && r.sequence < m.2.1) else none

/-- A record a context may start from: a checkpoint, a boundary record or a record of a complete commit (R246). -/
def startsContext (j : List JournalRecord) (r : JournalRecord) : Bool :=
  r.type = 1 || r.type = 2 || (commitOf j r).isSome

/-- The newest record of a kind, if it is this one. -/
def newestIs (j : List JournalRecord) (p : JournalRecord → Bool) (r : JournalRecord) : Bool :=
  (j.filter p).getLast?.any (fun x => x.sequence = r.sequence)

/-- The balance interval of a group that is still open or provisional. -/
def Group.holds (g : Group) (number : Nat) : Bool :=
  g.opened.any (fun x => x.number = number) || g.provisional.any (fun x => x.number = number)

/-- Restore may need a record (R389): of a context, its newest start and every later record, a feed only where it is not written again
later; the newest settings; the newest balance record of an interval still open or provisional. -/
def State.needs (s : State) (r : JournalRecord) : Bool :=
  let j := s.store.journal
  match r.type with
  | 6 => false
  | 7 => newestIs j (fun x => x.type = 7) r
  | 8 => r.balance.any (fun b => (nth s.bill.groups b.1).holds b.2.number &&
      newestIs j (fun x => x.balance.any (fun y => y.1 = b.1 && y.2.number = b.2.number)) r)
  | _ =>
    s.store.pool.any (fun p => p.1.serial = r.serial && p.1.parkedSeq < r.sequence) &&
      !(r.type = 4 && j.any (fun x => x.type = 4 && x.serial = r.serial && r.sequence < x.sequence && x.data = r.data)) &&
      (((j.filter (fun x => x.serial = r.serial && startsContext j x)).getLast?.map JournalRecord.sequence).getD 0) ≤ r.sequence

/-- The records of the journal without those that begin below a ring position, up to the first that restore may need. -/
def State.trimJournal (s : State) (low : Nat) : Nat → List JournalRecord → Nat × List JournalRecord
  | p, [] => (p, [])
  | p, r :: l => if p < low && !s.needs r then s.trimJournal low (p + r.size) l else (p, r :: l)

/-- The end of the journal, bytes since format. -/
def StoreState.journalStop (x : StoreState) : Nat := x.journalStart + (x.journal.map JournalRecord.size).sum

/-- A record joins the journal; the ring's oldest blocks are erased ahead of it, but no record that restore may need (R389). -/
def State.journalAdd (s : State) (r : JournalRecord) : State :=
  if s.storeWrites then
    let s := { s with store := { s.store with
        journal := s.store.journal ++ [{ r with sequence := s.store.nextJournal }]
        nextJournal := s.store.nextJournal + 1 } }
    let held := s.trimJournal (erasedBelow journalRoom s.store.journalStop) s.store.journalStart s.store.journal
    { s with store := { s.store with journal := held.2, journalStart := held.1 } }
  else s

/-- A record of a context joins the journal; the header keeps its sequence (Table 7.3). -/
def State.journalCtx (s : State) (c : Context) (type code time : Nat) (provisional : Bool) : State :=
  if s.storeWrites then
    let c := { c with journal := s.store.nextJournal }
    (s.putCtx c).journalAdd
      { type := type, provisional := provisional, serial := c.serial, time := time, context := some c, code := code }
  else s

/-- The numbers of a feed record (Table 7.16) in the journal. -/
def State.journalFeed (s : State) (serial : Nat) (bytes : List Byte) : State :=
  if s.storeWrites then
    let s' := s.setCtx serial (fun c => { c with journal := s.store.nextJournal })
    s'.journalAdd { type := 4, serial := serial, time := s.stampNow, data := bytes.map (fun b => b.toNat) }
  else s

/-- The settings record: clock policy and limit, polling state and in-flight limit, mesh frame counter (type 7). -/
def State.journalSettings (s : State) : State :=
  s.journalAdd { type := 7, time := s.stampNow
                 data := [s.clock.policy, s.clock.limit, ofBool s.mesh.running, s.mesh.limit, s.mesh.journaled] }

/-- A balance record (type 8). -/
def State.journalBalance (s : State) (group : Nat) (x : GroupInterval) : State :=
  s.journalAdd { type := 8, time := s.stampNow, balance := some (group, x) }

/-- Records that restore may need are written again before the ring reaches them (R389): the settings, the balance records and the feeds held
for parked contexts whose records lie in the next 4 MiB to be erased; each live context has its new checkpoint. -/
def State.renewJournal (s : State) : State :=
  let low := erasedBelow journalRoom (s.store.journalStop + 4194304)
  let held := dropBelow JournalRecord.size low s.store.journalStart s.store.journal
  let old := s.store.journal.take (s.store.journal.length - held.2.length)
  let s := old.foldl (fun (s : State) r =>
    if !s.needs r then s
    else
      match r.type, r.balance with
      | 7, _ => s.journalSettings
      | 8, some b => s.journalBalance b.1 (((nth s.bill.groups b.1).opened.toList ++ (nth s.bill.groups b.1).provisional).find?
          (fun x => x.number = b.2.number) |>.getD b.2)
      | 4, _ => if (s.live r.serial).isSome then s else s.journalAdd r
      | _, _ => s) s
  let now := s.trimJournal low s.store.journalStart s.store.journal
  { s with store := { s.store with journal := now.2, journalStart := now.1 } }

/-! ### The pool (R246, R383) -/

/-- The full record of a context is written to the pool. -/
def State.poolWrite (s : State) (c : Context) : State :=
  if s.storeWrites then
    { s with store := { s.store with
        pool := s.store.pool.filter (fun p => p.1.serial ≠ c.serial) ++ [(c, s.stampNow)] } }
  else s

/-- The pool record of a live context is rewritten. -/
def State.poolKeep (s : State) (serial : Nat) : State :=
  match s.live serial with
  | some c => s.poolWrite c
  | none => s

/-- The parked contexts as the pool holds them. -/
def State.parkedContexts (s : State) : List Context :=
  (s.store.pool.map (fun p => p.1)).filter (fun c => s.store.parked.contains c.serial)

/-- The record of a context in the pool changed in place. -/
def State.setPool (s : State) (serial : Nat) (f : Context → Context) : State :=
  { s with store := { s.store with
      pool := alterWhere s.store.pool (fun p => p.1.serial = serial) (fun p => (f p.1, p.2)) } }

/-- A context changed where it stands: live, or parked in the pool. -/
def State.setAnyCtx (s : State) (serial : Nat) (f : Context → Context) : State :=
  if s.store.parked.contains serial then s.setPool serial f else s.setCtx serial f

/-! ### The keys of the vault and the crypto engine (R400, R402) -/

/-- K_dev as vault OTP holds it. -/
def State.rootKey (s : State) : List Byte := if s.sec.rootErased then List.replicate 32 0xFF#8 else le 32 Config.rootKey

/-- An identity key: modulus and private exponent, 512 octets each. -/
def identityPlain (draw : Nat) : List Byte := be 512 (Config.rsaModulus draw) ++ be 512 (Config.rsaPrivate draw)

/-- The OTP area of the identity key: wrapped under K_dev, unprogrammed in BLANK, all ones once zeroised (R400, R409). -/
def State.identityOtp (s : State) : List Byte :=
  if s.sec.identity then aesWrap s.rootKey (identityPlain s.sec.identityDraw)
  else if s.sec.lifecycle = 0 then zeros 1032 else List.replicate 1032 0xFF#8

/-- The store key: 512 bits of the random source. -/
def State.storeKey (s : State) : List Byte := le 64 (Config.random s.sec.storeKey)

/-- What crosses the link to S: a key wrapped under K_link, which the engine unwraps (R402). -/
def crossLink (linkKey key : List Byte) : Option (List Byte) := aesUnwrap linkKey (aesWrap linkKey key)

/-- The vault can be reached for a signature: there is a key, no warning has stopped it (R404), and its link is up (Table 1.2). -/
def State.canSign (s : State) : Bool := s.firmware && s.sec.identity && !s.sec.stopped && !s.linkLost 7

/-- The identity key as it reaches the engine, under the K_link of this boot (R402). -/
def State.identityAcross (s : State) : Option (List Byte) :=
  (aesUnwrap s.rootKey s.identityOtp).bind (fun key => s.sec.linkKey.bind (fun link => crossLink link key))

/-- The identity key is loaded into slot 0 for the request at the head of the queue (R404). -/
def State.takeUp (s : State) : State :=
  if s.canSign && !s.sec.signing.isEmpty then { s with sec := { s.sec with engine := alter s.sec.engine 0 (fun _ => s.identityAcross) } } else s

/-! ### Signatures (R403-R405) -/

/-- A signature by the key in slot 0, with a fresh salt, and the slot cleared as the operation ends (R402, R403). -/
def State.signature (s : State) (message : List Byte) : List Byte × State :=
  ((match nth s.sec.engine 0 with
    | some k => rsaSign (beNat (k.take 512)) (beNat (k.drop 512)) (le 64 (Config.random s.draws)) message
    | none => []),
   { s with draws := s.draws + 1, sec := { s.sec with engine := alter s.sec.engine 0 (fun _ => none) } })

/-- The snapshot and the tamper record that a job names. -/
def State.snapshotOf (s : State) (serial period : Nat) : Option Snapshot :=
  s.store.snapshots.find? (fun x => x.serial = serial && x.period = period)

def State.tamperOf (s : State) (serial number : Nat) : Option TamperRecord :=
  s.store.tampers.find? (fun x => x.serial = serial && x.number = number)

/-- The bytes that the signature of a job covers (R235, R270, R392, R421). -/
def State.messageOf (s : State) (job : SignJob) : List Byte :=
  match job with
  | .snapshot serial period => ((s.snapshotOf serial period).map (fun x => x.bytes.take 1048)).getD []
  | .tamper serial number => ((s.tamperOf serial number).map (fun x => x.bytes.take 120)).getD []
  | .checkpoint n => ((s.store.log.find? (fun r => r.sequence = n)).map (fun r => r.body.take 88)).getD []
  | .quote k tag => ((((s.session k).quote).filter (fun q => q.tag = tag)).map (fun q => q.bytes)).getD []

/-- What the record of a signing job becomes once its signature is in place, and the event that follows (R235, R270).
Checkpoints and quotes have their own (R392, R421). -/
def State.recordSigned (s : State) (job : SignJob) (signature : Option (List Byte)) : State :=
  match job with
  | .snapshot serial period =>
    match s.snapshotOf serial period with
    | none => s
    | some x =>
      let s := match signature with
        | some g =>
          { s with store := { s.store with
              snapshots := alterWhere s.store.snapshots (fun y => y.serial = serial && y.period = period)
                (fun y => { y with bytes := signedRecord 1048 y.bytes g }) } }
        | none => s
      s.raise 91 s.stampNow (s.serialBody serial (countItem period ++ le 2 (field x.bytes 2 2)))
  | .tamper serial number =>
    match s.tamperOf serial number with
    | none => s
    | some x =>
      let s := match signature with
        | some g =>
          { s with store := { s.store with
              tampers := alterWhere s.store.tampers (fun y => y.serial = serial && y.number = number)
                (fun y => { y with bytes := signedRecord 120 y.bytes g }) } }
        | none => s
      s.raise (100 + byteAt x.bytes 2) s.stampNow (s.serialBody serial (le 1 1))
  | .checkpoint _ => s
  | .quote _ _ => s

/-- A record of the store asks for the signature, and not a quote. -/
def SignJob.isRecord (j : SignJob) : Bool :=
  match j with
  | .quote _ _ => false
  | _ => true

/-- Records that await their signature. -/
def State.unsignedRecords (s : State) : Nat := ((s.sec.signing ++ s.sec.backlog).filter SignJob.isRecord).length

/-- Event source 181 with the count pending. -/
def State.backlogEvent (s : State) : State := s.raise 181 s.stampNow (objBody 0 (countItem s.unsignedRecords))

/-- Event source 181: more than 256 records await signing. It comes once for each backlog. -/
def State.raiseBacklog (s : State) : State :=
  if s.sec.backlogRaised || s.unsignedRecords ≤ 256 then s
  else ({ s with sec := { s.sec with backlogRaised := true } } : State).backlogEvent

/-- A request for a signature joins the queue of 256, or waits for room (R404); the key of the request at the head is taken up. -/
def State.queueJob (s : State) (job : SignJob) : State :=
  let s := if s.sec.signing.length < 256 then { s with sec := { s.sec with signing := s.sec.signing ++ [job] } }
    else { s with sec := { s.sec with backlog := s.sec.backlog ++ [job] } }
  s.takeUp.raiseBacklog

/-- A record in the store asks for its signature; without an identity key its event is raised at once (R405). -/
def State.signRecord (s : State) (job : SignJob) : State :=
  if s.sec.identity then s.queueJob job else s.recordSigned job none

/-! ### Records of a context in the store -/

/-- The newest `n` entries of a serial in a list that is newest first. -/
def keepNewest {α : Type} (l : List α) (mine : α → Bool) (n : Nat) : List α :=
  (l.foldl (fun (a : List α × Nat) x =>
    if mine x then (if a.2 < n then (x :: a.1, a.2 + 1) else a) else (x :: a.1, a.2)) ([], 0)).1.reverse

/-- A snapshot is written to the store, 36 for each context (R235). A replayed one replaces its copy. -/
def State.storeSnapshot (s : State) (x : Snapshot) : State :=
  if s.storeWrites then
    let l := s.store.snapshots.filter (fun y => y.serial ≠ x.serial || y.period ≠ x.period)
    ({ s with store := { s.store with snapshots := keepNewest (x :: l) (fun y => y.serial = x.serial) 36 } } : State).signRecord
      (.snapshot x.serial x.period)
  else s

/-- A load-profile entry is written to the store: 35,136 of a local or feeder context, 5,952 of a shadow context (R232). -/
def State.storeProfile (s : State) (c : Context) (bytes : List Byte) : State :=
  if s.storeWrites then
    { s with store := { s.store with
        profiles := keepNewest ({ serial := c.serial, bytes := bytes } :: s.store.profiles) (fun y => y.serial = c.serial)
          (if c.kind = 1 then 5952 else 35136) } }
  else s

/-- A tamper record is written to the store, 256 for each context (R270). -/
def State.storeTamper (s : State) (x : TamperRecord) : State :=
  if s.storeWrites then
    ({ s with store := { s.store with
        tampers := keepNewest (x :: s.store.tampers) (fun y => y.serial = x.serial) 256 } } : State).signRecord
      (.tamper x.serial x.number)
  else s

end Sys2Proof.Machine
end

