-- ==== Sys2Proof/Machine/Balance.lean ====
section
/-! DEFINITION. Balance groups: what the members and the feeder report (R274), the life of a group interval (R273, R275), the
alerts (R276), and the records of Table 8.10. -/

namespace Sys2Proof.Machine

/-- Flags of Table 8.10. -/
def gfGap : Nat := 1
def gfLumped : Nat := 2
def gfFeeder : Nat := 4
def gfParked : Nat := 8
def gfLate : Nat := 16
def gfPower : Nat := 32
def gfClock : Nat := 64
def gfAlert : Nat := 128
def gfNegAlert : Nat := 256

/-- The handle of a group. -/
def groupHandle (g : Nat) : Nat := 0x0300 + g

/-- A context by its serial, live or parked. -/
def State.ctxAny (s : State) (serial : Nat) : Option Context :=
  match s.live serial with
  | some c => some c
  | none =>
    if s.store.parked.contains serial then (s.store.pool.find? (fun p => p.1.serial = serial)).map (fun p => p.1) else none

/-- A change of a group. -/
def State.setGroup (s : State) (g : Nat) (f : Group → Group) : State :=
  { s with bill := { s.bill with groups := alter s.bill.groups g f } }

/-- UTC of the last tick boundary folded. -/
def State.foldUtc (s : State) : Nat := s.stamp (tickStart s.bill.nextFold)

/-! ### Columns (R273, R274) -/

/-- The phase of a current channel's element: 0 to 2, by the position of Table 6.2. -/
def MeasConfig.phaseOf (c : MeasConfig) (n : Nat) : Nat := (nth c.channels n).position

/-- The columns of a context's elements, with the total. -/
def State.columnsOf (s : State) (c : Context) : Nat :=
  orAll (8 :: (usedChannels c.currents).map (fun i => 2 ^ (min 3 (s.meas.config.phaseOf i))))

/-- Energies by column from a context's oriented element energies, with the total last. -/
def columnEnergies (l : List (Nat × Int)) : List Int :=
  [0, 1, 2].map (fun k => (l.filter (fun x => x.1 = k)).foldl (fun (a : Int) x => a + x.2) 0) ++
  [l.foldl (fun (a : Int) x => a + x.2) 0]

/-- Two lists of column energies added. -/
def addColumns (a b : List Int) : List Int := a.zipWith (fun x y => x + y) b

/-- A tick of a local or feeder context enters the open intervals (R274). -/
def State.groupTick (s : State) (serial : Nat) (energy : List Int) (flags : Nat) : State :=
  { s with bill := { s.bill with groups := s.bill.groups.map (fun g =>
      match g.opened with
      | none => g
      | some x =>
        let x := if g.feeder = serial then { x with feeder := addColumns x.feeder energy, ticks := x.ticks ||| flags } else x
        { g with opened := some { x with
            reports := alterWhere x.reports (fun m => m.serial = serial) (fun m => { m with energy := addColumns m.energy energy }) } }) } }

/-! ### Shadow feeds (R274) -/

/-- A feed reports to an interval that is not final. -/
def GroupInterval.feed (x : GroupInterval) (f : GroupFeed) : GroupInterval :=
  { x with reports := alterWhere x.reports (fun m => m.serial = f.serial) (fun m =>
      if x.start < f.stop && f.stop ≤ x.stop then
        if f.broken then { m with missing := true }
        else { m with energy := addColumns m.energy [0, 0, 0, f.net], through := max m.through f.stop, lumped := m.lumped || f.lumped }
      else if x.stop < f.stop && f.prev < x.stop then
        if f.lumped then { m with missing := true } else { m with through := max m.through f.stop }
      else m) }

/-- Whether a group has a context among its members, in force or accepted. -/
def Group.hasMember (g : Group) (serial : Nat) : Bool :=
  g.members.any (fun m => m.serial = serial) || (g.next.any (fun n => n.members.any (fun m => m.serial = serial)))

/-- A feed reports to one group: its open and provisional intervals; a final one counts it as late (R275), and energy for an interval
older than the 96 held is late too. -/
def State.groupFeedTo (s : State) (k : Nat) (f : GroupFeed) : State :=
  let g := nth s.bill.groups k
  let s := if f.broken && g.hasMember f.serial then s.raise 113 s.stampNow (objBody (groupHandle k) []) else s
  let late := fun (x : GroupInterval) =>
    !f.broken && x.start < f.stop && f.stop ≤ x.stop && x.reports.any (fun m => m.serial = f.serial)
  let older := !f.broken && g.members.any (fun m => m.serial = f.serial) && g.final.length = 96 &&
    ((g.opened.toList ++ g.provisional ++ g.final).all (fun x => f.stop ≤ x.start))
  let s := if g.final.any late || older then s.raise 112 s.stampNow (objBody (groupHandle k) []) else s
  s.setGroup k (fun g => { g with
    opened := g.opened.map (fun x => x.feed f), provisional := g.provisional.map (fun x => x.feed f)
    final := alterWhere g.final late (fun x => { x with late := sat 16 (x.late + 1), flags := x.flags ||| gfLate })
    early := if g.hasMember f.serial && g.opened.all (fun x => x.stop < f.stop) then g.early ++ [f] else g.early })

/-- A feed reports to every group. -/
def State.groupFeed (s : State) (f : GroupFeed) : State :=
  (List.range 16).foldl (fun (s : State) k => s.groupFeedTo k f) s

/-! ### Missing members (R273, R274) -/

/-- A member counts as missing in the open interval, and in provisional ones it has not reported. -/
def Group.miss (g : Group) (serial flags : Nat) (provisional : Bool) : Group :=
  let lose := fun (x : GroupInterval) => if x.reports.any (fun m => m.serial = serial) then
      { x with flags := x.flags ||| flags
               reports := alterWhere x.reports (fun m => m.serial = serial) (fun m => { m with missing := true }) }
    else x
  { g with
    opened := g.opened.map lose
    provisional := if provisional then
        g.provisional.map (fun x => if x.reports.any (fun m => m.serial = serial && m.through < x.stop) then lose x else x)
      else g.provisional }

/-- CTX_DELETE of a member (R273). -/
def State.groupDelete (s : State) (serial : Nat) : State :=
  { s with bill := { s.bill with groups := s.bill.groups.map (fun g =>
      { g.miss serial 0 true with
        members := g.members.filter (fun m => m.serial ≠ serial)
        next := g.next.map (fun n => { n with members := n.members.filter (fun m => m.serial ≠ serial) }) }) } }

/-- A local member that is parked counts as missing (R274). -/
def State.groupPark (s : State) (serial : Nat) : State :=
  { s with bill := { s.bill with groups := s.bill.groups.map (fun g => g.miss serial gfParked false) } }

/-! ### Records (Table 8.10) -/

/-- Whether a member of an interval counts as missing: while the interval is open only what has been found so. -/
def GroupInterval.lacks (x : GroupInterval) (m : MemberReport) : Bool := m.missing || (x.state ≠ 0 && m.through < x.stop)

/-- A member's energy in a column 0 to 2: whole where the phase was declared, by element under FFh. -/
def MemberReport.column (m : MemberReport) (k : Nat) : Int :=
  if m.phase = k then nth m.energy 3 else if m.phase = 255 then nth m.energy k else 0

/-- The sum of the members' energies in a column, 3 for all. -/
def GroupInterval.memberSum (x : GroupInterval) (k : Nat) : Int :=
  x.reports.foldl (fun (a : Int) m => a + (if k = 3 then nth m.energy 3 else m.column k)) 0

/-- Unaccounted energy of a column; a phase without a feeder element reports 0 (R274). -/
def GroupInterval.unaccounted (x : GroupInterval) (k : Nat) : Int :=
  if k = 3 || bit x.phases k then nth x.feeder k - x.memberSum k else 0

/-- The GAP bits of the columns: those of the members missing, and the total (R275). -/
def GroupInterval.gapMask (x : GroupInterval) : Nat :=
  orAll ((x.reports.filter (fun m => x.lacks m)).map (fun m => m.columns ||| 8))

/-- The ratio of Table 8.10; where the feeder's total is 0 the spec states no value. -/
def GroupInterval.ratio (x : GroupInterval) : F32 :=
  if nth x.feeder 3 = 0 then Config.binary32 (x.unaccounted 3) 0
  else toF32 ((x.unaccounted 3 : Rat) * 100 / (nth x.feeder 3 : Rat))

/-- A record of Table 8.10. -/
def GroupInterval.bytes (x : GroupInterval) (group : Nat) : List Byte :=
  let lumped := (x.reports.filter (fun m => m.lumped)).length
  let columns := fun (f : Nat → Int) => ((List.range 4).map (fun k => leInt 8 (f k))).flatten
  octets [group, x.state] ++ le 2 (x.flags ||| (if lumped > 0 then gfLumped else 0)) ++ octets [x.gaps, 0, 0, 0] ++ le 8 x.start ++
  le 8 x.stop ++ le 4 x.number ++ le 2 x.reports.length ++ le 2 (x.reports.filter (fun m => x.lacks m)).length ++ le 2 lumped ++
  le 2 x.late ++ zeros 4 ++ columns (fun k => nth x.feeder k) ++ columns x.memberSum ++
  leInt 8 ((x.reports.filter (fun m => m.phase = 3)).foldl (fun (a : Int) m => a + nth m.energy 3) 0) ++
  columns x.unaccounted ++ f32Bytes x.ratio ++ zeros 4

/-! ### Intervals (R273-R275) -/

/-- A context that group `k` named as reference returns to local, also where it has been parked since (R216). -/
def State.dropFeeder (s : State) (serial k : Nat) : State :=
  s.setAnyCtx serial (fun c => if c.feederOf = k then { c with kind := 0, feederOf := 255 } else c)

/-- A context becomes feeder of group `k`. -/
def State.nameFeeder (s : State) (serial k : Nat) : State := s.setAnyCtx serial (fun c => { c with kind := 2, feederOf := k })

/-- A group's feeder changes hands: the old one returns to local when no group names it (R216). -/
def State.setFeeder (s : State) (old new k : Nat) : State := (if old ≠ new then s.dropFeeder old k else s).nameFeeder new k

/-- A configuration accepted takes effect at the start of a group interval (R273). -/
def State.applyGroup (s : State) (k : Nat) : State :=
  let g := nth s.bill.groups k
  match g.next with
  | none => s
  | some n =>
    let s := (s.setFeeder g.feeder n.feeder k).setGroup k (fun g =>
      let g := { g with
        feeder := n.feeder, length := n.length, k := n.k, hold := n.hold, relative := n.relative, absolute := n.absolute
        members := n.members, next := none }
      if n.feeder = 0 then { g with count := 0, runs := List.replicate 4 (0, 0, 0), alerts := List.replicate 4 0, early := [] } else g)
    s.raise 115 s.stampNow (objBody (groupHandle k) [])

/-- What a member's report starts from: a parked local member counts as missing. -/
def State.newReport (s : State) (m : Member) : MemberReport :=
  let c := s.ctxAny m.serial
  let local_ := c.any (fun c => c.kind ≠ 1)
  { serial := m.serial, phase := m.phase
    columns := if m.phase < 3 then 2 ^ m.phase + 8 else if m.phase = 255 then (c.map (fun c => s.columnsOf c)).getD 8 else 8
    missing := local_ && (s.live m.serial).isNone }

/-- A group interval opens (R273, R274). -/
def State.openGroup (s : State) (k start flags : Nat) : State :=
  let g := nth s.bill.groups k
  if g.feeder = 0 then s
  else
    let reports := g.members.map (fun m => s.newReport m)
    let parked := if reports.any (fun m => m.missing) then gfParked else 0
    let x : GroupInterval :=
      { number := g.count + 1, place := g.places, start := start, stop := (max start s.foldUtc / (g.length * minTicks) + 1) * (g.length * minTicks)
        flags := flags ||| parked, phases := ((s.live g.feeder).map (fun c => s.columnsOf c)).getD 8 % 8, hold := g.hold, k := g.k
        relative := g.relative, absolute := g.absolute, reports := reports }
    let x := g.early.foldl (fun (x : GroupInterval) f => x.feed f) x
    s.setGroup k (fun g => { g with
      count := g.count + 1, places := g.places + 1, opened := some x, early := g.early.filter (fun f => x.stop < f.stop) })

/-- The open interval ends: local members have reported, the record is written, the interval is provisional (R275, R388). -/
def State.endGroup (s : State) (k flags : Nat) : State :=
  match (nth s.bill.groups k).opened with
  | none => s
  | some x =>
    let flagged := has x.ticks (bfCarried + bfGap + bfSubst + bfReplay + bfQuality)
    let x := { x with
      state := 1, flags := x.flags ||| flags ||| (if flagged then gfFeeder else 0)
      reports := x.reports.map (fun m => if (s.live m.serial).any (fun c => c.kind ≠ 1) then { m with through := x.stop } else m) }
    let s := s.setGroup k (fun g => { g with opened := none, provisional := x :: g.provisional })
    let s := if flagged then s.raise 114 s.stampNow (objBody (groupHandle k) []) else s
    s.journalBalance k x

/-- A group whose interval has ended, or whose first interval is due, takes its turn at the last tick boundary folded. -/
def State.groupTurn (s : State) (k : Nat) : State :=
  let g := nth s.bill.groups k
  match g.opened with
  | some x =>
    if x.stop ≤ s.foldUtc then ((s.endGroup k 0).applyGroup k).openGroup k x.stop 0 else s
  | none => if g.next.isSome && g.startAt ≤ s.foldUtc then (s.applyGroup k).openGroup k g.startAt 0 else s

/-- Every group takes its turn. -/
def State.groupTurns (s : State) : State := (List.range 16).foldl (fun (s : State) k => s.groupTurn k) s

/-- A split adjustment cuts the open intervals at A and restarts them at A′, flagged CLOCK (R239, R275); one whose end is A is whole. -/
def State.cutGroups (s : State) (a a' : Nat) : State :=
  (List.range 16).foldl (fun (s : State) k =>
    match (nth s.bill.groups k).opened with
    | none => s
    | some x =>
      let s := s.setGroup k (fun g => { g with opened := g.opened.map (fun x => { x with stop := min x.stop a }) })
      ((s.endGroup k (if a < x.stop then gfClock else 0)).applyGroup k).openGroup k a' gfClock) s

/-! ### Finalisation and alerts (R275, R276) -/

/-- Whether a provisional interval is final: every member has reported it, or the hold time has passed. -/
def GroupInterval.done (x : GroupInterval) (now : Nat) : Bool :=
  x.reports.all (fun m => !x.lacks m) || x.stop + x.hold * minTicks ≤ now

/-- The alert test of one column (R276): runs above, below and within, the alert, and the event raised. -/
def alertStep (x : GroupInterval) (k : Nat) (run : Nat × Nat × Nat) (alert : Nat) : (Nat × Nat × Nat) × Nat × Option Nat :=
  let u := x.unaccounted k
  let limit : Rat := max ((x.absolute : Rat) * 1000000) ((x.relative : Rat) * ((nth x.feeder k).natAbs : Rat) / 1000)
  if has x.gaps (2 ^ k) || (k < 3 && !bit x.phases k) then (run, alert, none)
  else if limit < (u : Rat) then
    let n := run.1 + 1
    if x.k ≤ n && alert ≠ 1 then ((n, 0, 0), 1, some 108) else ((n, 0, 0), alert, none)
  else if (u : Rat) < -limit then
    let n := run.2.1 + 1
    if x.k ≤ n && alert ≠ 2 then ((0, n, 0), 2, some 110) else ((0, n, 0), alert, none)
  else
    let n := run.2.2 + 1
    if x.k ≤ n && alert ≠ 0 then ((0, 0, n), 0, some 109) else ((0, 0, n), alert, none)

/-- A provisional interval becomes final. -/
def State.finaliseGroup (s : State) (k : Nat) (x : GroupInterval) : State :=
  let g := nth s.bill.groups k
  let x := { x with gaps := x.gapMask, state := 2, flags := x.flags ||| (if x.gapMask ≠ 0 then gfGap else 0) }
  let steps := (List.range 4).map (fun c => alertStep x c (nth g.runs c) (nth g.alerts c))
  let alerts := steps.map (fun r => r.2.1)
  let x := { x with flags := x.flags ||| (if alerts.contains 1 then gfAlert else 0) ||| (if alerts.contains 2 then gfNegAlert else 0) }
  let s := s.setGroup k (fun g => { g with
    provisional := g.provisional.filter (fun y => y.number ≠ x.number || y.start ≠ x.start)
    final := (x :: g.final).take 96, runs := steps.map (fun r => r.1), alerts := alerts })
  let s := if x.gaps ≠ 0 then s.raise 111 s.stampNow (objBody (groupHandle k) []) else s
  (steps.filterMap (fun r => r.2.2)).foldl (fun (s : State) e => s.raise e s.stampNow (objBody (groupHandle k) [])) s

/-- GROUP_INTERVAL_END (R274). -/
def execGroupIntervalEnd (t group : Nat) (s : State) : Out :=
  let s := s.tickTo t
  guarded (group < 16) (if s.phase = .running then s.groupTurn group else s)

/-- GROUP_INTERVAL_FINAL (R275): the oldest provisional interval that is final becomes so. -/
def execGroupIntervalFinal (t group : Nat) (s : State) : Out :=
  let s := s.tickTo t
  guarded (group < 16)
    (match (nth s.bill.groups group).provisional.reverse.find? (fun x => x.done s.stampNow) with
     | some x => if s.phase = .running then s.finaliseGroup group x else s
     | none => s)

end Sys2Proof.Machine
end

