-- ==== Sys2Proof/Machine/Pq.lean ====
section
/-! DEFINITION. Voltage events on half-cycle values (R201-R206) and limit events (R207). -/

namespace Sys2Proof.Machine

/-- A half-cycle value of a voltage channel: volts and the flags of Table 6.3. -/
structure HalfValue where
  channel : Nat
  volts : Rat
  flags : Nat
  deriving DecidableEq, Repr, Inhabited

/-- The physical value of a one-cycle RMS of 1/256 raw LSB (R176, R187): 2^-24 times the scale. -/
def MeasConfig.halfVolts (c : MeasConfig) (n : Nat) (rms : Int) : Rat :=
  (rms : Rat) * f32Val (nth c.channels n).scale / 16777216

/-- Udin of a system. -/
def MeasConfig.udin (c : MeasConfig) (sys : Nat) : Rat := f32Val (nth c.systems sys).udin

/-- The voltage channels of a system on which its events are detected (R202). -/
def MeasConfig.detects (c : MeasConfig) (sys : Nat) : List Nat :=
  (c.members sys).filter (fun n => (nth c.channels n).role = 1 || (nth c.channels n).role = 2)

/-! ### Dips, swells and interruptions (R202-R205, Table 6.5) -/

/-- The reference of a dip on a channel (R205). -/
def State.dipReference (s : State) (sys n : Nat) : Rat :=
  if (nth s.meas.pq sys).sliding = 1 then nth s.meas.sliding n else s.meas.config.udin sys

/-- Whether an event of a kind starts at these values (Table 6.5). -/
def State.pqStarts (s : State) (kind sys : Nat) (vals : List HalfValue) : Bool :=
  let p := nth s.meas.pq sys
  let u := s.meas.config.udin sys
  match kind with
  | 0 => vals.any (fun v => decide (v.volts * 1000 < p.dip * s.dipReference sys v.channel))
  | 1 => vals.any (fun v => decide (p.swell * u < v.volts * 1000))
  | _ => !vals.isEmpty && vals.all (fun v => decide (v.volts * 1000 < p.interruption * u))

/-- Whether it ends at these values (Table 6.5). -/
def State.pqEnds (s : State) (kind sys : Nat) (vals : List HalfValue) : Bool :=
  let p := nth s.meas.pq sys
  let u := s.meas.config.udin sys
  match kind with
  | 0 => vals.all (fun v => decide ((p.dip + p.hysteresis) * s.dipReference sys v.channel ≤ v.volts * 1000))
  | 1 => vals.all (fun v => decide (v.volts * 1000 ≤ (p.swell - p.hysteresis) * u))
  | _ => vals.any (fun v => decide ((p.interruption + p.hysteresis) * u ≤ v.volts * 1000))

/-- The extreme of the values: the largest for a swell, the smallest otherwise. -/
def extremeOf (kind : Nat) (v : HalfValue) (rest : List HalfValue) : HalfValue :=
  rest.foldl (fun a b => if (if kind = 1 then decide (a.volts < b.volts) else decide (b.volts < a.volts)) then b else a) v

/-- An event in progress sees the values of an instant. -/
def State.pqSees (s : State) (d : Disturbance) (vals : List HalfValue) : Disturbance :=
  match vals with
  | [] => { d with flags := d.flags ||| qfGap }
  | v :: rest =>
    let e := extremeOf d.kind v rest
    let d := { d with flags := d.flags ||| orAll (vals.map (fun x => x.flags)) }
    if (if d.kind = 1 then decide (d.extreme < e.volts) else decide (e.volts < d.extreme)) then
      { d with
        extreme := e.volts, channel := e.channel
        reference := if d.kind = 0 then s.dipReference d.system e.channel else s.meas.config.udin d.system }
    else d

/-- The event source of a kind, if its enable bit is set (R201). -/
def State.raisePq (s : State) (sys source time handle : Nat) (items : List Byte) : State :=
  if bit (nth s.meas.pq sys).enables (source - 82) then s.raise source time (objBody handle items) else s

/-- The items of an end event (R203; for a dip, whether an interruption lay within it, R204). -/
def Disturbance.endItems (d : Disturbance) (stop : Nat) : List Byte :=
  le 8 d.start ++ le 8 stop ++ le 4 (sat 32 ((stop - d.start) / 16)) ++ f32Bytes (toF32 d.extreme) ++
  f32Bytes (toF32 (if d.reference = 0 then 0 else d.extreme / d.reference * 100)) ++ le 1 d.channel ++ le 2 d.flags ++
  (if d.kind = 0 then le 1 (ofBool d.held) else [])

/-- One kind of event on one system at an instant. -/
def State.pqKind (s : State) (kind sys : Nat) (vals : List HalfValue) (stamp : Nat) : State :=
  match s.meas.running.find? (fun d => d.kind = kind && d.system = sys) with
  | some d =>
    let d' := s.pqSees d vals
    let others := s.meas.running.filter (fun x => !(x.kind = kind && x.system = sys))
    if !vals.isEmpty && s.pqEnds kind sys vals then
      State.raisePq { s with meas := { s.meas with running := others, past := s.meas.past ++ [(sys, d.start, stamp)] } } sys
        (82 + kind) stamp 0 (le 1 sys ++ le 1 1 ++ d'.endItems stamp)
    else { s with meas := { s.meas with running := others ++ [d'] } }
  | none =>
    match vals with
    | [] => s
    | v :: rest =>
      if s.pqStarts kind sys vals then
        let e := extremeOf kind v rest
        let d : Disturbance :=
          { kind := kind, system := sys, start := stamp, extreme := e.volts, channel := e.channel
            reference := if kind = 0 then s.dipReference sys e.channel else s.meas.config.udin sys
            flags := orAll (vals.map (fun x => x.flags)) }
        let running := if kind = 2 then
            alterWhere s.meas.running (fun x => x.kind = 0 && x.system = sys) (fun x => { x with held := true })
          else s.meas.running
        State.raisePq { s with meas := { s.meas with running := running ++ [d] } } sys (82 + kind) stamp 0
          (le 1 sys ++ le 1 0)
      else s

/-! ### Rapid voltage changes (R206) -/

/-- Half-cycle values a steady channel has kept. -/
def MeasConfig.steadyCount (c : MeasConfig) : Nat := if c.nominal = 0 then 100 else 120

/-- The arithmetic mean of a list of values. -/
def meanOf (l : List Rat) : Rat := l.foldl (fun a b => a + b) 0 / (l.length : Rat)

/-- Whether the kept values all lie within a limit of their mean. -/
def RvcState.within (r : RvcState) (count : Nat) (limit : Rat) : Bool :=
  r.last.length = count && r.last.all (fun v => decide (|v - meanOf r.last| ≤ limit))

/-- A dip or swell runs on a system. -/
def State.dipOrSwell (s : State) (sys : Nat) : Bool := s.meas.running.any (fun d => d.kind ≠ 2 && d.system = sys)

/-- A voltage channel of a system sees a half-cycle value; `spoiled` says that a dip or swell runs, which discards the
RVC (R206). -/
def State.rvcSees (s : State) (sys : Nat) (v : HalfValue) (stamp : Nat) (spoiled : Bool) : State :=
  let p := nth s.meas.pq sys
  let u := s.meas.config.udin sys
  let n := s.meas.config.steadyCount
  let r := nth s.meas.rvc v.channel
  let steady := r.within n (p.rvc * u / 1000)
  let away : Rat := |v.volts - meanOf r.last|
  let r := if r.running then { r with deviation := max r.deviation (|v.volts - r.mean|) }
    else if steady && decide (p.rvc * u / 1000 < away) then
      { r with running := true, start := stamp, mean := meanOf r.last, deviation := away }
    else r
  let r := { r with last := (v.volts :: r.last).take n, running := r.running && !spoiled }
  let ends := r.running && r.within n ((p.rvc - p.rvcHysteresis : Nat) * u / 1000)
  let put := fun (s : State) (r : RvcState) =>
    { s with meas := { s.meas with rvc := alter s.meas.rvc v.channel (fun _ => r) } }
  if ends then
    (put s { r with running := false }).raisePq sys 85 stamp (unitHandle v.channel)
      (le 8 r.start ++ le 4 (sat 32 ((stamp - r.start) / 16)) ++ f32Bytes (toF32 r.deviation) ++
        f32Bytes (toF32 (|meanOf r.last - r.mean|)))
  else put s r

/-- One system at the instant of a half-cycle value: dip, swell, interruption, then rapid voltage changes. -/
def State.pqHalf (s : State) (sys : Nat) (vals : List HalfValue) (stamp : Nat) : State :=
  if (nth s.meas.config.systems sys).connection = 0 then s
  else
    let before := s.dipOrSwell sys
    let s := ((s.pqKind 0 sys vals stamp).pqKind 1 sys vals stamp).pqKind 2 sys vals stamp
    vals.foldl (fun (s : State) v => s.rvcSees sys v stamp (before || s.dipOrSwell sys)) s

/-! ### Limit events (R207) -/

/-- A value is tested against its limit: raised at the first value outside, armed again by one inside. -/
def State.limitEvent (s : State) (source key handle : Nat) (enabled : Bool) (out : Bool) (value limit : F32)
    (who : List Byte) (stop : Nat) : State :=
  if !out then { s with meas := { s.meas with outside := s.meas.outside.filter (fun x => x ≠ (source, key)) } }
  else if s.meas.outside.contains (source, key) then s
  else
    let s := { s with meas := { s.meas with outside := s.meas.outside ++ [(source, key)] } }
    if enabled then s.raise source s.stampNow (objBody handle (f32Bytes value ++ f32Bytes limit ++ who ++ le 8 stop)) else s

end Sys2Proof.Machine
end

