-- ==== Sys2Proof/Machine/Spectrum.lean ====
section
/-! DEFINITION. What the DSP computes from synchronous samples: physical series (R175, R176), RMS and DC (R187), the DFT and its groups
(R190-R194), unbalance (R200), and the powers of elements and systems (R208, R209). Values rest on the samples present (R185). -/

namespace Sys2Proof.Machine

/-- Physical values of consecutive sample instants; none where a sample is missing. -/
abbrev Series := List (Option Rat)

/-- The values present. -/
def Series.present (x : Series) : List Rat := x.filterMap id

/-- The sum of two series, where both have their values. -/
def Series.add (x y : Series) : Series := List.zipWith (fun a b => a.bind (fun u => b.map (fun v => u + v))) x y

/-- A series inverted. -/
def Series.neg (x : Series) : Series := x.map (fun a => a.map (fun v => -v))

/-- The mean of the products of two series, over the instants at which both are present. -/
def Series.meanProduct (x y : Series) : Option Rat :=
  meanOf? (Series.present (List.zipWith (fun a b => a.bind (fun u => b.map (fun v => u * v))) x y))

/-- The mean (R187). -/
def Series.mean (x : Series) : Option Rat := meanOf? x.present

/-- The RMS, DC included (R183). -/
def Series.rms (x : Series) : Option Rat := (x.meanProduct x).map rootRat

/-! ### Phasors and bins (R190, R193) -/

/-- A component a cos + b sin of a series. -/
structure Phasor where
  a : Rat
  b : Rat
  deriving DecidableEq, Repr, Inhabited

/-- The component of `k` periods in `m` samples: twice the mean of the products with the cosine and the sine (R190). -/
def Series.phasor (x : Series) (k m : Nat) : Option Phasor :=
  let l := x.zipIdx
  match meanOf? (l.filterMap (fun v => v.1.map (fun u => u * cosTurn (k * v.2) m))),
      meanOf? (l.filterMap (fun v => v.1.map (fun u => u * sinTurn (k * v.2) m))) with
  | some a, some b => some { a := 2 * a, b := 2 * b }
  | _, _ => none

/-- The square of the RMS magnitude. -/
def Phasor.square (p : Phasor) : Rat := (p.a * p.a + p.b * p.b) / 2

/-- C_k squared; C_0 is the DC value (R190). -/
def Series.bin (x : Series) (m k : Nat) : Option Rat :=
  if k = 0 then x.mean.map (fun v => v * v) else (x.phasor k m).map Phasor.square

/-- The angle of a component of the form sin(... + phi), in degrees within -180.000 to +179.999 (R193). -/
def Phasor.angle (p : Phasor) : Rat :=
  let d : Rat := if p.a = 0 && 0 ≤ p.b then 0 else if p.a = 0 then -180 else if p.b = 0 then (if 0 < p.a then 90 else -90)
    else angleDegrees p.a p.b
  min (d - 360 * ((d + 180) / 360).floor) (179999 / 1000)

/-- The sum of bins from `a` on, `n` of them. -/
def binSum (bins : List Rat) (a n : Nat) : Rat := (List.range n).foldl (fun t i => t + nth bins (a + i)) 0

/-- The groups of R191 for an order, by HARMONIC_READ type 0-3, from the squares of the bins of N cycles. -/
def groupOf (bins : List Rat) (n type h : Nat) : Rat :=
  rootRat (match type with
    | 0 => binSum bins (n * h - 1) 3
    | 1 => nth bins (n * h - n / 2) / 2 + binSum bins (n * h - n / 2 + 1) (n - 1) + nth bins (n * h + n / 2) / 2
    | 2 => binSum bins (n * h + 2) (n - 3)
    | _ => binSum bins (n * h + 1) (n - 1))

/-- The signalling voltage of a frequency: the root of the sum of the four bins nearest it, where `place` is the frequency in bins; of two
bins equally near, which one is a free value (R194, log 12). -/
def signallingVolts (bins : List Rat) (place : Rat) : Rat :=
  let low := place.floor.toNat
  let from_ := if place = (low : Rat) && Config.roundsUp 20 low then low - 2 else low - 1
  rootRat (binSum bins from_ 4)

/-! ### Series of channels and systems (R175, R176) -/

/-- The physical values of a channel over cycles (R176). -/
def MeasConfig.series (c : MeasConfig) (rs : List CycleRecord) (n : Nat) : Series :=
  rs.flatMap (fun r => (nth r.samples n).map (fun x => x.map (fun y => (y.value : Rat) * c.factor n)))

/-- A voltage of a system; a three-wire system without U31 has -(U12 + U23) (R175). -/
def MeasConfig.volts (c : MeasConfig) (rs : List CycleRecord) (sys p : Nat) : Option Series :=
  match c.at sys p true with
  | some n => some (c.series rs n)
  | none =>
    match (nth c.systems sys).connection = 3 && p = 2, c.at sys 0 true, c.at sys 1 true with
    | true, some u, some v => some (((c.series rs u).add (c.series rs v)).neg)
    | _, _, _ => none

/-- A current of a system; a three-wire system without I_L2 has -(I_L1 + I_L3), a four-wire one without a neutral channel
-(I_L1 + I_L2 + I_L3) (R175, R209). -/
def MeasConfig.amps (c : MeasConfig) (rs : List CycleRecord) (sys p : Nat) : Option Series :=
  match c.at sys p false with
  | some n => some (c.series rs n)
  | none =>
    match (nth c.systems sys).connection, p, c.at sys 0 false, c.at sys 1 false, c.at sys 2 false with
    | 3, 1, some i, _, some k => some (((c.series rs i).add (c.series rs k)).neg)
    | 2, 3, some i, some j, some k => some ((((c.series rs i).add (c.series rs j)).add (c.series rs k)).neg)
    | _, _, _, _, _ => none

/-! ### Unbalance (R200) -/

/-- A phasor turned by a third of a turn, forwards or backwards. -/
def Phasor.turn (p : Phasor) (forwards : Bool) : Phasor :=
  let r := rootRat 3 / 2 * (if forwards then 1 else -1)
  { a := -p.a / 2 + r * p.b, b := -p.b / 2 - r * p.a }

/-- The sum of three phasors. -/
def sum3 (x y z : Phasor) : Phasor := { a := x.a + y.a + z.a, b := x.b + y.b + z.b }

/-- u2 and u0 of three phasors: the ratios of the negative- and the zero-sequence component to the positive-sequence one, in per cent. -/
def unbalance (x y z : Phasor) : Rat × Rat :=
  let pos := sum3 x (y.turn true) (z.turn false)
  let ratio := fun (p : Phasor) => rootRat (quotient 5 p.square pos.square) * 100
  (ratio (sum3 x (y.turn false) (z.turn true)), ratio (sum3 x y z))

/-- The unbalance of three series over N cycles, from bin N. -/
def unbalanceOf (n : Nat) (x y z : Option Series) : Option (Rat × Rat) :=
  match x.bind (fun s => s.phasor n (1024 * n)), y.bind (fun s => s.phasor n (1024 * n)), z.bind (fun s => s.phasor n (1024 * n)) with
  | some a, some b, some d => some (unbalance a b d)
  | _, _, _ => none

/-! ### Powers of a cycle (R208, R209) -/

/-- A value of an object. -/
def formed (kind object quantity : Nat) (x : Option Rat) : MeasValue :=
  { kind := kind, object := object, quantity := quantity, exact := x }

/-- What an element forms in one cycle besides the derived quantities: P, P1, Q1 and the RMS values (R208). A component a cos + b sin
leads by the angle whose sine is a, so Q1 is positive where the current lags. -/
def MeasConfig.elementCycle (c : MeasConfig) (r : CycleRecord) (e : Element) : List MeasValue :=
  let v := if e.inverted then (c.series [r] e.voltage).neg else c.series [r] e.voltage
  let i := c.series [r] e.current
  let put := formed 4 e.current
  let pair := fun (f : Phasor → Phasor → Rat) =>
    (v.phasor 1 1024).bind (fun x => (i.phasor 1 1024).map (fun y => f x y))
  [ put 8 (v.meanProduct i), put 9 (pair (fun x y => (x.a * y.a + x.b * y.b) / 2)), put 0x0A (pair (fun x y => (x.a * y.b - x.b * y.a) / 2)),
    put qU v.rms, put qI i.rms, put qU1 ((v.phasor 1 1024).map (fun x => rootRat x.square)),
    put qI1 ((i.phasor 1 1024).map (fun x => rootRat x.square)) ]

/-- The derived quantities of an element, still to be computed. -/
def elementDerived (e : Element) : List MeasValue := (List.range 9).map (fun k => formed 4 e.current (0x0B + k) none)

/-- Ue of a system in one cycle (R209). -/
def MeasConfig.effectiveVolts (c : MeasConfig) (r : CycleRecord) (sys : Nat) : Option Rat :=
  let square := fun (x : Option Series) => x.bind (fun s => s.meanProduct s)
  let minus := fun (x y : Option Series) => x.bind (fun a => y.map (fun b => a.add b.neg))
  let u := fun (p : Nat) => c.volts [r] sys p
  if (nth c.systems sys).connection = 3 then
    match square (u 0), square (u 1), square (u 2) with
    | some a, some b, some d => some (rootRat ((a + b + d) / 9))
    | _, _, _ => none
  else
    match square (u 0), square (u 1), square (u 2), square (minus (u 0) (u 1)), square (minus (u 1) (u 2)), square (minus (u 2) (u 0)) with
    | some a, some b, some d, some ab, some bd, some da => some (rootRat ((3 * (a + b + d) + ab + bd + da) / 18))
    | _, _, _, _, _, _ => none

/-- Ie of a system in one cycle (R209). -/
def MeasConfig.effectiveAmps (c : MeasConfig) (r : CycleRecord) (sys : Nat) : Option Rat :=
  let square := fun (p : Nat) => (c.amps [r] sys p).bind (fun s => s.meanProduct s)
  match square 0, square 1, square 2 with
  | some a, some b, some d =>
    if (nth c.systems sys).connection = 3 then some (rootRat ((a + b + d) / 3))
    else (square 3).map (fun n => rootRat ((a + b + d + n) / 3))
  | _, _, _ => none

/-- What a system forms in one cycle: P_sys, the sum of its elements' P, and Ue, Ie, Se and PFe where they are formed (R209). -/
def MeasConfig.systemCycle (c : MeasConfig) (r : CycleRecord) (elements : List MeasValue) (sys : Nat) : List MeasValue :=
  let ps := (c.elementsOf sys).map (fun e => lookUp elements 4 e.current 8)
  let total := if ps.all (fun p => p.isSome) then some (ps.foldl (fun (a : Rat) p => a + p.getD 0) 0) else none
  (if ps.isEmpty then [] else [formed 1 sys 0x18 total]) ++
  (if c.seSystems.contains sys then
    [ formed 1 sys qUe (c.effectiveVolts r sys), formed 1 sys qIe (c.effectiveAmps r sys), formed 1 sys 0x19 none, formed 1 sys 0x1A none ]
  else [])

/-- The values of every element and system in one cycle, derived ones included. -/
def MeasConfig.cycleValues (c : MeasConfig) (r : CycleRecord) : List MeasValue :=
  let es := c.elements.flatMap (fun e => c.elementCycle r e ++ elementDerived e)
  c.withDerived (es ++ (List.range 8).flatMap (c.systemCycle r es))

/-! ### Values of a basic interval (R187, R191-R194) -/

/-- The bins' squares of a series of N cycles that the orders up to 100 reach. -/
def Series.bins (x : Series) (n : Nat) : List Rat := (List.range (101 * n)).map (fun k => (x.bin (1024 * n) k).getD 0)

/-- The orders of a type: 1-100 for harmonics and angles, 0-99 for interharmonics (R191). -/
def ordersOf (type : Nat) : List Nat := (List.range 100).map (fun k => if type = 2 || type = 3 then k else k + 1)

/-- What a channel forms over an interval of N cycles: RMS, DC, the deviations of a voltage channel in a system, and from the DFT, where
`whole` says that it is formed, groups, angles, THDS, THDG and the signalling voltages; `spacing` is f1 / N (R187, R190-R194). -/
def MeasConfig.channelInterval (c : MeasConfig) (x : Series) (n ch : Nat) (spacing : Rat) (whole : Bool) : List MeasValue :=
  let k := nth c.channels ch
  let put := formed 0 ch
  let inSystem : Bool := isVoltage k.role && decide (k.system < 8)
  let udin := f32Val (nth c.systems k.system).udin
  let ok := whole && !x.present.isEmpty
  let bins := if ok then x.bins n else []
  let dft := fun (v : Rat) => if ok then some v else none
  [put 1 x.rms, put 2 (dft (groupOf bins n 0 1)), put 3 x.mean, put 4 none, put qThdg none] ++
  (if inSystem then
    [ put qUunder (x.rms.map (fun u => min u udin)), put qUover (x.rms.map (fun u => max u udin)), put 5 none, put 6 none ] ++
    (List.range 4).flatMap (fun f =>
      if nth c.signalling f = 0 then []
      else [put (0x20 + f) (dft (signallingVolts bins (quotient 6 ((nth c.signalling f : Rat) / 10) spacing)))])
  else []) ++
  [0, 1, 2, 3].flatMap (fun ty => (ordersOf ty).map (fun h => formed (16 + ty) ch h (dft (groupOf bins n ty h)))) ++
  (ordersOf 4).map (fun h => formed 20 ch h (if ok then (x.phasor (n * h) (1024 * n)).map Phasor.angle else none))

/-- The unbalance of a system over an interval of N cycles (R200). -/
def MeasConfig.unbalances (c : MeasConfig) (rs : List CycleRecord) (n sys : Nat) (whole : Bool) : List MeasValue :=
  let three := (nth c.systems sys).connection = 3
  let u := if whole then unbalanceOf n (c.volts rs sys 0) (c.volts rs sys 1) (c.volts rs sys 2) else none
  let i := if whole then unbalanceOf n (c.amps rs sys 0) (c.amps rs sys 1) (c.amps rs sys 2) else none
  let put := fun (q : Nat) (x : Option (Rat × Rat)) =>
    formed 1 sys q (x.map (fun v => v.1)) :: (if three then [] else [formed 1 sys (q + 1) (x.map (fun v => v.2))])
  (if 2 ≤ (nth c.systems sys).connection then put 0x14 u else []) ++
  (if c.seSystems.contains sys then put 0x16 i else [])

/-! ### Supraharmonic bands (R195, R196) -/

/-- The values of a block at 25 kS/s: each of 5,000 from the block's wideband samples, by their distance from its instant (log 74). -/
def slowBlock (l : List (Nat × Rat)) : Series :=
  (List.range 5000).map (fun i => some (l.foldl (fun (a : Rat) x => a + Config.bandTap ((x.1 : Int) - 20 * i) * x.2) 0))

/-- Band b from 2 kHz to 9 kHz: the 40 bins of 5 Hz from f_b - 95 Hz to f_b + 100 Hz (R195). -/
def lowBand (x : Series) (b : Nat) : Rat :=
  rootRat ((List.range 40).foldl (fun (a : Rat) k => a + (x.bin 5000 ((2100 + 200 * b - 95) / 5 + k)).getD 0) 0)

/-- The window values of a band from 9 kHz to 151 kHz: the magnitude of bin 5 + b in each of 400 windows (R196). -/
def windowValues (x : Series) (b : Nat) : List Rat :=
  (List.range 400).filterMap (fun w => (Series.bin ((x.drop (250 * w)).take 250) 250 (5 + b)).map rootRat)

/-- The values of a block of 100,000 wideband samples of a channel (R195, R196). -/
def bandValues (ch : Nat) (x : Series) : List MeasValue :=
  let l := x.zipIdx.filterMap (fun v => v.1.map (fun u => (v.2, u)))
  let slow := slowBlock l
  (List.range 35).map (fun b => formed 21 ch b (if l.isEmpty then none else some (lowBand slow b))) ++
  (List.range 71).map (fun b => formed 22 ch b (AggRule.rms.combine (windowValues x b))) ++
  (List.range 71).map (fun b => formed 23 ch b (AggRule.largest.combine (windowValues x b)))

end Sys2Proof.Machine
end

