-- ==== Sys2Proof/Machine/Periods.lean ====
section
/-! DEFINITION. The measurement periods (R179-R186): how basic intervals, 150/180-cycle values, 10-minute and 2-hour values and
supraharmonic blocks are formed and closed, Pst and Plt (R198, R199), the limit events (R207), and what a MEAS_CONFIG and a clock
adjustment do to the periods in progress (R177, R186). -/

namespace Sys2Proof.Machine

/-- The timestamp of an instant in 1/512 tick. -/
def State.stamp512 (s : State) (a : Nat) : Nat := s.stamp (a / 512)

/-! ### Flags (R184) -/

/-- HOLD and ALT of a cycle. -/
def CycleRecord.common (r : CycleRecord) : Nat := flagIf r.hold qfHold ||| flagIf r.alt qfAlt

/-- The flags of a channel's samples over cycles, and GAP where one is missing (Table 6.3). -/
def sampleQuality (rs : List CycleRecord) (n : Nat) : Nat :=
  orAll (rs.map (fun r => (nth r.samples n).foldl (fun a x =>
    a ||| (match x with
      | some y => qualityOf y.flags
      | none => qfGap)) 0))

/-- The channels whose samples a value rests on; the residual current of a context rests on its phase and neutral currents. -/
def State.channelsOf (s : State) (kind object q : Nat) : List Nat :=
  let c := s.meas.config
  match kind with
  | 1 =>
    if q = 0x18 then (c.elementsOf object).flatMap (fun e => [e.voltage, e.current])
    else if q = 0x14 || q = 0x15 then [0, 1, 2].flatMap (fun p => (c.at object p true).toList)
    else if q = 0x16 || q = 0x17 then [0, 1, 2].flatMap (fun p => (c.at object p false).toList)
    else c.seUses object
  | 4 => c.uses false object
  | 3 =>
    match s.bill.live.find? (fun x => x.slot = object) with
    | some x => usedChannels x.currents ++ s.neutralsOf x
    | none => []
  | _ => [object]

/-- The systems whose voltage events flag a value PQFLAG. -/
def State.systemsBehind (s : State) (kind object q : Nat) : List Nat :=
  if kind = 1 then [object]
  else ((s.channelsOf kind object q).map (fun n => (nth s.meas.config.channels n).system)).filter (fun k => k < 8)

/-- PQFLAG of a value over a period (R184). -/
def State.pqFlag (s : State) (kind object q start stop : Nat) : Nat :=
  flagIf ((s.systemsBehind kind object q).any (fun k => s.meas.disturbed k start stop)) qfPq

/-- A value formed over cycles with the flags of its samples, HOLD, ALT and PQFLAG, and flags of its own. -/
def State.flagged (s : State) (rs : List CycleRecord) (start stop own : Nat) (v : MeasValue) : MeasValue :=
  { v with
    flags := v.flags ||| orAll (rs.map CycleRecord.common) ||| own ||| s.pqFlag v.kind v.object v.quantity start stop |||
      orAll ((s.channelsOf v.kind v.object v.quantity).map (sampleQuality rs)) }

/-! ### Limit events on 10-minute values (R207) -/

/-- A value of a voltage channel against a limit in steps (Table 6.7); its object is the channel. -/
def State.channelLimit (s : State) (source n key : Nat) (bitNo : Nat) (v limit : Rat) (stop : Nat) : State :=
  let sys := (nth s.meas.config.channels n).system
  s.limitEvent source key (unitHandle n) (bit (nth s.meas.pq sys).enables bitNo) (decide (limit < v)) (toF32 v) (toF32 limit) (le 1 n) stop

/-- Event source 87 (R207). -/
def State.pstLimits (s : State) (vs : List MeasValue) (stop : Nat) : State :=
  vs.foldl (fun (s : State) v =>
    let sys := (nth s.meas.config.channels v.object).system
    match v.exact with
    | none => s
    | some x => if sys < 8 then s.channelLimit 87 v.object v.object 5 x ((nth s.meas.pq sys).pst / 100) stop else s) s

/-- A subgroup of a channel, in per cent of G_sg,1. -/
def MeasBlock.orderPercent (b : MeasBlock) (n h : Nat) : Option Rat :=
  match b.number 16 n h, b.number 16 n 1 with
  | some x, some y => if y = 0 then none else some (x * 100 / y)
  | _, _ => none

/-- Event source 88 for one channel: THDS, then the subgroups whose order limit is on (R207). -/
def State.harmonicLimits (s : State) (b : MeasBlock) (n : Nat) : State :=
  let p := nth s.meas.pq (nth s.meas.config.channels n).system
  let s := match b.number 0 n 4 with
    | none => s
    | some x => s.channelLimit 88 n (n * 64) 6 x ((p.thd : Rat) / 10) b.stop
  (List.range 24).foldl (fun (s : State) k =>
    match b.orderPercent n (k + 2) with
    | none => s
    | some x => if nth p.orders k = 0 then s else s.channelLimit 88 n (n * 64 + k + 2) 6 x ((nth p.orders k : Rat) / 10) b.stop) s

/-- Event source 89 for one system (R207). -/
def State.unbalanceLimit (s : State) (b : MeasBlock) (k : Nat) : State :=
  match b.number 1 k 0x14 with
  | none => s
  | some x =>
    let limit : Rat := ((nth s.meas.pq k).unbalance : Rat) / 10
    s.limitEvent 89 k 0 (bit (nth s.meas.pq k).enables 7) (decide (limit < x)) (toF32 x) (toF32 limit) (le 1 k) b.stop

/-- The limit events of a 10-minute value. -/
def State.tenLimits (s : State) (b : MeasBlock) : State :=
  let s := (List.range 24).foldl (fun (s : State) n =>
    let x := nth s.meas.config.channels n
    if isVoltage x.role && x.system < 8 then s.harmonicLimits b n else s) s
  (List.range 8).foldl (fun (s : State) k => s.unbalanceLimit b k) s

/-! ### Tracks (R177) -/

/-- The object of a value, as a track names it. -/
def MeasValue.objectKey (v : MeasValue) : Nat × Nat := (if v.kind = 1 then 1 else if v.kind = 4 then 4 else 0, v.object)

/-- Whether a track holds a value's object; residual currents (kind 3) are not aggregated. -/
def Track.holds (t : Track) (v : MeasValue) : Bool := v.kind ≠ 3 && t.objects.contains v.objectKey

/-- The constituents of a track among blocks. -/
def Track.among (t : Track) (l : List MeasBlock) : List MeasBlock :=
  (l.filter (fun b => t.since ≤ b.tick)).map (fun b => { b with values := b.values.filter t.holds })

/-- A block of a track at a level joins the level's history, unless it holds no value. -/
def MeasState.pushTrack (m : MeasState) (level : Nat) (parts : List MeasBlock) (start stop : Nat) (own : MeasValue → Nat) :
    MeasState × Option MeasBlock :=
  if parts.all (fun b => b.values.isEmpty) then (m, none)
  else
    let b := m.config.block parts start stop ((parts.head?.map (fun x => x.tick)).getD 0) (m.nextSequence level) own
    (m.push level b, some b)

/-! ### 150/180 cycles (R181) -/

/-- A 150/180-cycle value of a track from its basic intervals; fewer than 15 make it PARTIAL. -/
def MeasState.closeGroup (m : MeasState) (t : Track) (mine : List MeasBlock) (own : Nat) : MeasState :=
  match mine with
  | [] => m
  | b :: _ =>
    (m.pushTrack 2 mine (t.start.getD b.start) ((mine.getLast?.map (fun x => x.stop)).getD b.stop) (fun v =>
      own ||| flagIf (v.parts < 15) qfPartial ||| m.firstFlag 2)).1

/-! ### Pst (R198, R199) -/

/-- The channels with flicker on. -/
def State.flickerChannels (s : State) : List Nat :=
  (List.range 24).filter (fun n => (nth s.meas.config.channels n).flicker ≠ 0 && s.formsChannel n)

/-- The samples of a flickermeter end before `stop`, though those of every instant before it, and of every instant more than 100 µs ago, have
been delivered (R184). -/
def State.meterEndsBefore (s : State) (m : FlickerMeter) (stop : Nat) : Bool :=
  m.next.all (fun x => decide (s.stamp x + 2 < min stop (s.stampNow - 1664)))

/-- The Pst of a channel over a period, from the counts of the ten minutes that `keys` picks. -/
def State.pstValue (s : State) (n start stop own : Nat) (keys : Nat → Bool) : MeasValue :=
  let m := nth s.meas.meters n
  let counts := (m.counts.filter (fun x => keys x.1)).map (fun x => x.2)
  { kind := 0, object := n, quantity := 0, exact := if counts.isEmpty then none else some (Config.multipoint counts)
    flags := own ||| orAll ((m.flags.filter (fun x => keys x.1)).map (fun x => x.2)) ||| flagIf m.fresh qfPartial |||
      s.pqFlag 0 n 0 start stop ||| flagIf (counts.isEmpty || s.meterEndsBefore m stop) qfGap }

/-- A flicker value takes its place as the latest, with the end of its period. -/
def MeasState.putFlicker (m : MeasState) (v : MeasValue) (stop : Nat) : MeasState :=
  { m with
    flicker := putValue m.flicker v
    flickerTimes := (v.object, v.quantity, stop) :: m.flickerTimes.filter (fun x => !(x.1 = v.object && x.2.1 = v.quantity)) }

/-- The period of a flickermeter closes. -/
def State.closePst (s : State) (n start stop own : Nat) (keys : Nat → Bool) : State :=
  let v := s.pstValue n start stop own keys
  let m := s.meas.putFlicker v stop
  let s := { s with meas := { m with
    psts := m.psts ++ [(start, v)]
    meters := alter m.meters n (fun x => { x with
      counts := x.counts.filter (fun y => !keys y.1), flags := x.flags.filter (fun y => !keys y.1), fresh := false }) } }
  s.pstLimits [v] stop

/-- The flickermeters of a track's channels close their period, which began at `start` where the track has no start of its own. -/
def State.closePsts (s : State) (t : Track) (start stop own : Nat) (keys : Nat → Bool) : State :=
  let start := t.start.getD start
  let own := own ||| t.flags
  (s.flickerChannels.filter (fun n => t.objects.contains (0, n))).foldl (fun (s : State) n => s.closePst n start stop own keys) s

/-! ### 10 minutes (R180, R197) -/

/-- The 10-minute period of a track closes at `stop`, with the basic intervals and supraharmonic blocks that `take` picks. -/
def State.closeTenTrack (s : State) (t : Track) (take : MeasBlock → Bool) (stop own : Nat) : State :=
  let start := t.start.getD (s.meas.tenStart.getD stop)
  let m := s.meas
  let own := own ||| t.flags ||| m.tenFlags
  let r := m.pushTrack 3 (t.among (m.tenParts.filter take)) start stop (fun _ => own ||| m.firstFlag 3)
  let r' := r.1.pushTrack 8 (t.among (m.tenSupra.filter take)) start stop (fun _ => own ||| m.firstFlag 8)
  let s := { s with meas := { r'.1 with twoParts := m.twoParts ++ r.2.toList, twoSupra := m.twoSupra ++ r'.2.toList } }
  match r.2 with
  | some b => s.tenLimits b
  | none => s

/-- Every 10-minute period in progress closes; the next starts at `next` with flags of its own. -/
def State.closeTen (s : State) (take : MeasBlock → Bool) (stop next own after : Nat) : State :=
  let s := s.meas.tens.foldl (fun (s : State) t => s.closeTenTrack t take stop own) s
  { s with meas := { s.meas with
      tens := [{ objects := everyObject }], tenStart := some next, tenFlags := after
      tenParts := s.meas.tenParts.filter (fun b => !take b), tenSupra := s.meas.tenSupra.filter (fun b => !take b)
      past := s.meas.past.filter (fun e => stop < e.2.2 + tenTicks) } }

/-! ### 2 hours (R182, R198) -/

/-- The Plt of a channel: the cube root of the mean of the cubes of its Pst values, PARTIAL if fewer than 12 were formed (R198, R199). -/
def pltValue (n own : Nat) (mine : List MeasValue) : MeasValue :=
  let good := mine.filterMap (fun v => v.exact)
  { kind := 0, object := n, quantity := 1, exact := (meanOf? (good.map (fun x => x * x * x))).map cubeRootRat
    flags := own ||| orAll (mine.map (fun v => v.flags)) ||| flagIf (good.length < 12) qfPartial }

/-- The 2-hour window of a track closes at `stop`. -/
def State.closeTwoTrack (s : State) (t : Track) (take : MeasBlock → Bool) (stop own : Nat) : State :=
  let start := t.start.getD (s.meas.twoStart.getD stop)
  let m := s.meas
  let own := own ||| t.flags ||| m.twoFlags
  let few := fun (v : MeasValue) => flagIf (v.parts < 12) qfPartial
  let r := (m.pushTrack 4 (t.among (m.twoParts.filter take)) start stop (fun v => own ||| few v ||| m.firstFlag 4)).1
  let r := (r.pushTrack 9 (t.among (m.twoSupra.filter take)) start stop (fun v => own ||| few v ||| m.firstFlag 9)).1
  let ns := ((m.psts.filter (fun x => x.1 < stop && t.objects.contains (0, x.2.object))).map (fun x => x.2.object)).eraseDups
  let r := ns.foldl (fun (r : MeasState) n =>
    r.putFlicker (pltValue n own ((m.psts.filter (fun x => x.1 < stop && x.2.object = n)).map (fun x => x.2))) stop) r
  { s with meas := { r with psts := m.psts.filter (fun x => !(x.1 < stop && t.objects.contains (0, x.2.object))) } }

/-- Every 2-hour window in progress closes; the next starts at `next`. -/
def State.closeTwo (s : State) (take : MeasBlock → Bool) (stop next own after : Nat) : State :=
  let s := s.meas.twos.foldl (fun (s : State) t => s.closeTwoTrack t take stop own) s
  { s with meas := { s.meas with
      twos := [{ objects := everyObject }], twoStart := some next, twoFlags := after
      twoParts := s.meas.twoParts.filter (fun b => !take b), twoSupra := s.meas.twoSupra.filter (fun b => !take b) } }

/-! ### Supraharmonic blocks (R195-R197) -/

/-- A supraharmonic block's length: 100,000 wideband samples, in indices and in ticks. -/
def supraLength : Nat := 100000
def supraTicks : Nat := supraLength * 32

/-- Samples from an index on as a series; none where one is missing. -/
def fillSeries : Nat → Int → List StreamSample → List (Option StreamSample)
  | 0, _, _ => []
  | k + 1, i, [] => none :: fillSeries k (i + 1) []
  | k + 1, i, x :: l => if x.index = i then some x :: fillSeries k (i + 1) l else none :: fillSeries k (i + 1) (x :: l)

/-- The tick of raw instant 0 of the block in progress on a die. -/
def State.blockTick (s : State) (d : Nat) : Nat := (s.die d).epochTick + nth s.meas.supraIndex (d - 1) * 32

/-- The channels whose blocks a die forms. -/
def State.blockChannels (s : State) (d : Nat) : List Nat := (s.carriedBy d).filter s.formsChannel

/-- The values of a channel's block, with the OR of the flags of its samples, GAP where some are missing (R197). -/
def State.blockValues (s : State) (n first : Nat) (own : Nat) : List MeasValue :=
  let l := (nth s.meas.wide n).reverse.filter (fun x => decide ((first : Int) ≤ x.index) && decide (x.index < ((first + supraLength : Nat) : Int)))
  let x := fillSeries supraLength first l
  let flags := own ||| orAll (l.map (fun x => qualityOf x.flags)) ||| flagIf (x.any (fun y => y.isNone)) qfGap
  (bandValues n (x.map (fun y => y.map (fun z => (z.value : Rat) * s.meas.config.factor n)))).map (fun v => { v with flags := flags })

/-- The block in progress on a die ends once its last wideband sample has been delivered. -/
def State.endBlock (s : State) (d : Nat) : State :=
  let first := nth s.meas.supraIndex (d - 1)
  let tick := s.blockTick d
  let ns := s.blockChannels d
  if (s.die d).epoch = 0 || s.now < tick + supraTicks + 1600 then s
  else
    let own := s.meas.firstFlag 7
    let vs := ns.flatMap (fun n => s.blockValues n first own)
    let b : MeasBlock :=
      { sequence := s.meas.nextSequence 7, start := s.stamp tick, stop := s.stamp (tick + supraTicks), tick := tick, parts := 1, values := vs
        flags := orAll (vs.map (fun v => v.flags)) }
    let m := if ns.isEmpty then s.meas else { (s.meas.push 7 b) with tenSupra := s.meas.tenSupra ++ [b] }
    { s with meas := { m with
        supraIndex := alter m.supraIndex (d - 1) (fun i => i + supraLength)
        wide := m.wide.mapIdx (fun n l =>
          if (s.carriedBy d).contains n then l.filter (fun x => decide (((first + supraLength : Nat) : Int) ≤ x.index)) else l) } }

/-! ### Clock adjustments (R186) -/

/-- The basic intervals and blocks that began before a cut have ended. -/
def State.cutReady (s : State) (c : ClockCut) : Bool :=
  !(s.meas.basics.any (fun b => decide (b.from_ < 512 * c.tick)) ||
    [1, 2, 3, 4, 5].any (fun d => !(s.blockChannels d).isEmpty && (s.die d).epoch ≠ 0 && decide (s.blockTick d < c.tick)))

/-- The 2-hour window whose end lies at or before an instant closes (R182). -/
def State.closePassedTwo (s : State) (stop : Nat) : State :=
  match s.meas.twoStart with
  | none => s
  | some a =>
    let e := multipleAfter twoTicks a
    if e ≤ stop then s.closeTwo (fun b => b.start < e) e e 0 0 else s

/-- The oldest cut closes its values: at a boundary the 10-minute values, at an adjustment the 10-minute and 2-hour values at A, flagged
CLOCK, and the next start at A' flagged CLOCK and PARTIAL (R186). -/
def State.closeCut (s : State) (c : ClockCut) : State :=
  let take := fun (b : MeasBlock) => decide (b.tick < c.tick)
  let s := { s with meas := { s.meas with cut := s.meas.cut.tail } }
  if c.step then
    let s := if s.meas.tenStart.isSome then s.closeTen take c.stop c.start qfClock (qfClock + qfPartial) else s
    let s := s.closePassedTwo c.stop
    if s.meas.twoStart.isSome then s.closeTwo (fun _ => true) c.stop c.start qfClock (qfClock + qfPartial) else s
  else s.closeTen take c.stop c.stop 0 0

/-- The cuts that wait close in turn, each once the basic interval and the blocks in progress at it have ended (R180, R186). -/
def State.settleCut (s : State) : State :=
  s.meas.cut.foldl (fun (s : State) c => if s.meas.cut.head? = some c && s.cutReady c then s.closeCut c else s) s

/-- The boundaries of 10 minutes that the period in progress has passed at A. -/
def boundariesPassed (start a : Nat) : List Nat :=
  (List.range (a / tenTicks - start / tenTicks)).map (fun k => (start / tenTicks + 1 + k) * tenTicks)

/-- The flickermeters close the periods that lie between the boundaries passed, and the one that the adjustment at A cuts (R186, R198). -/
def State.cutPsts (s : State) (start flags a : Nat) (tracks : List Track) : State :=
  let l := boundariesPassed start a
  let s := l.foldl (fun (s : State) x =>
    (if x = l.headD 0 then tracks else [{ objects := everyObject }]).foldl (fun (s : State) t =>
      s.closePsts t (if x = l.headD 0 then start else x - tenTicks) x (if x = l.headD 0 then flags else 0)
        (fun k => k < x / tenTicks)) s) s
  (if l.isEmpty then tracks else [{ objects := everyObject }]).foldl (fun (s : State) t =>
    s.closePsts t (l.getLast?.getD start) a (qfClock ||| (if l.isEmpty then flags else 0)) (fun _ => true)) s

/-- A step of more than 1 ms at the tick `b`, from A to A': the flickermeters' periods close at once and the 150/180-cycle count restarts,
what it held being reported PARTIAL; the interval in progress goes on, stamped in new time (log 75). A boundary that the period in progress
has passed closes first, in its own turn. -/
def State.clockCut (s : State) (b a a' : Nat) : State :=
  let waiting := s.meas.cut.getLast?
  let start := (waiting.map (fun c => c.start)).getD (s.meas.tenStart.getD a)
  let s := match waiting with
    | none => s.cutPsts start s.meas.tenFlags a s.meas.tens
    | some _ => s.cutPsts start (qfClock + qfPartial) a [{ objects := everyObject }]
  let m := s.meas.groups.foldl (fun (m : MeasState) t => m.closeGroup t (t.among m.groupParts) qfPartial) s.meas
  let passed := (boundariesPassed start a).map (fun x =>
    ({ step := false, tick := b - (((a - x : Nat) : Rat) * (1 + s.clock.eps)).floor.toNat, stop := x, start := x } : ClockCut))
  ({ s with meas := { m with
      groupParts := [], groups := [{ objects := everyObject }]
      basics := m.basics.map (fun x => if x.from_ < 512 * b then { x with start := x.start + a' - a } else x)
      cut := m.cut ++ passed ++ [{ tick := b, stop := a, start := a' }] } } : State).settleCut

/-! ### MEAS_CONFIG takes effect (R177, R201, R205) -/

/-- The channels a change of configuration touches: their own fields, or those of a system they are in. -/
def touchedChannels (a b : MeasConfig) : List Nat :=
  let sys := fun (k : Nat) => nth a.systems k ≠ nth b.systems k
  (List.range 24).filter (fun n =>
    let x := nth a.channels n
    let y := nth b.channels n
    x ≠ y || (x.system < 8 && sys x.system) || (y.system < 8 && sys y.system))

/-- The systems it touches (R205). -/
def touchedSystems (a b : MeasConfig) : List Nat :=
  (List.range 8).filter (fun k =>
    nth a.systems k ≠ nth b.systems k ||
    (List.range 24).any (fun n =>
      let x := nth a.channels n
      let y := nth b.channels n
      x.core ≠ y.core && ((x.role ≠ 0 && x.system = k) || (y.role ≠ 0 && y.system = k))))

/-- The objects it touches: a change of the nominal frequency every one, a change of a signalling frequency the voltage channels of systems,
and an element with either of its channels. -/
def touchedObjects (a b : MeasConfig) : List (Nat × Nat) :=
  let signals := fun (n : Nat) => a.signalling ≠ b.signalling &&
    [a, b].any (fun c => isVoltage (nth c.channels n).role && (nth c.channels n).system < 8)
  if a.nominal ≠ b.nominal then everyObject
  else
    let ns := touchedChannels a b
    ((List.range 24).filter (fun n => signals n && !ns.contains n)).map (fun n => (0, n)) ++
    ns.map (fun n => (0, n)) ++ (touchedSystems a b).map (fun k => (1, k)) ++
    ((List.range 24).filter (fun n => ns.contains n ||
      (a.elements ++ b.elements).any (fun e => e.current = n && ns.contains e.voltage))).map (fun n => (4, n))

/-- A track without the objects touched, and the one of those alone that starts at the change. -/
def Track.split (t : Track) (hit : List (Nat × Nat)) (stamp tick flags : Nat) : List Track :=
  let kept := t.objects.filter (fun o => !hit.contains o)
  let cut := t.objects.filter (fun o => hit.contains o)
  (if kept.isEmpty then [] else [{ t with objects := kept }]) ++
  (if cut.isEmpty then [] else [{ objects := cut, start := some stamp, since := tick, flags := flags }])

/-- The part of a track that a change touches. -/
def Track.hit (t : Track) (hit : List (Nat × Nat)) : Track := { t with objects := t.objects.filter (fun o => hit.contains o) }

/-- The accepted configuration takes effect at an instant: what it touches closes at the 150/180-cycle, 10-minute and 2-hour levels, flagged
PARTIAL, and starts afresh; flickermeters whose field, or the nominal frequency, changes restart (R177, R199). -/
def State.applyConfig (s : State) (stamp tick : Nat) : State :=
  let old := s.meas.config
  let new := s.meas.accepted
  let hit := touchedObjects old new
  let all := fun (_ : MeasBlock) => true
  let m := s.meas.groups.foldl (fun (m : MeasState) t => m.closeGroup (t.hit hit) ((t.hit hit).among m.groupParts) qfPartial) s.meas
  let s := { s with meas := m }
  let s := m.tens.foldl (fun (s : State) t =>
    if (t.hit hit).objects.isEmpty then s
    else ((s.closeTenTrack (t.hit hit) all stamp qfPartial).closePsts (t.hit hit) (s.meas.tenStart.getD stamp) stamp
      (qfPartial ||| s.meas.tenFlags) (fun _ => true))) s
  let s := m.twos.foldl (fun (s : State) t =>
    if (t.hit hit).objects.isEmpty then s else s.closeTwoTrack (t.hit hit) all stamp qfPartial) s
  let m := s.meas
  let restarts := fun (n : Nat) => old.nominal ≠ new.nominal || (nth old.channels n).flicker ≠ (nth new.channels n).flicker
  { s with meas := { m with
      groups := m.groups.flatMap (fun t => t.split hit stamp tick 0)
      tens := m.tens.flatMap (fun t => t.split hit stamp tick qfPartial)
      twos := m.twos.flatMap (fun t => t.split hit stamp tick qfPartial)
      config := new, acceptedAt := none
      meters := m.meters.mapIdx (fun n x => if restarts n then {} else x)
      wide := m.wide.mapIdx (fun n l => if (nth new.channels n).role = 0 then [] else l)
      integrators := m.integrators.filter (fun x => keepsIntegrator old new x.system x.object)
      rvc := m.rvc.mapIdx (fun n r => if (nth old.channels n).core = (nth new.channels n).core then r else {})
      latest := m.latest.filter (fun v => !hit.contains v.value.objectKey) } }

/-! ### Basic intervals (R179, R183-R185) -/

/-- Quantities built on the DFT of R190. -/
def usesDft (kind q : Nat) : Bool :=
  16 ≤ kind || (kind = 0 && (q = 2 || q = 4 || q = qThdg || (0x20 ≤ q && q ≤ 0x23))) || (kind = 1 && 0x14 ≤ q && q ≤ 0x17)

/-- The cycles of a basic interval, oldest first. -/
def MeasState.cyclesOf (m : MeasState) (b : BasicOpen) : List CycleRecord :=
  (m.cycles.filter (fun r => b.first ≤ r.number && r.number < b.first + b.cycles)).reverse

/-- The residual current of a context over cycles: the RMS of the sample sum of its phase and neutral currents (Table 8.5, kind 1). -/
def State.residual (s : State) (rs : List CycleRecord) (c : Context) : MeasValue :=
  let l := (usedChannels c.currents ++ s.neutralsOf c).map (fun n => s.meas.config.series rs n)
  match l with
  | [] => formed 3 c.slot 0 none
  | x :: more => formed 3 c.slot 0 ((more.foldl Series.add x).rms)

/-- The block of a basic interval; one cut short by a SYNC forms nothing built on the DFT (R185). -/
def State.basicBlock (s : State) (b : BasicOpen) : MeasBlock :=
  let c := s.meas.config
  let rs := s.meas.cyclesOf b
  let n := c.cyclesN
  let short := decide (b.cycles < n)
  let own := flagIf short qfPartial ||| s.meas.firstFlag 1
  let f1 := (meanOf? (rs.map (fun r => 8192000000 * (1 + s.clock.eps) / (r.len : Rat)))).getD 0
  let chans := ((List.range 24).filter s.formsChannel).flatMap (fun k =>
    c.channelInterval (c.series rs k) n k (f1 / (n : Rat)) (!short))
  let systems := (List.range 8).flatMap (fun k => c.unbalances rs n k (!short))
  let powers := c.aggregate (rs.map (fun r => r.values))
  let residuals := (s.localContexts.filter (fun x => !(s.neutralsOf x).isEmpty)).map (fun x => s.residual rs x)
  let vs := (c.withDerived (chans ++ systems ++ powers) ++ residuals).map (fun v =>
    { (s.flagged rs b.start b.stop own v) with parts := b.cycles })
  { sequence := s.meas.nextSequence 1, start := b.start, stop := b.stop, tick := b.from_ / 512, parts := b.cycles, values := vs
    flags := orAll (own :: vs.map (fun v => v.flags)) }

/-- U_sr after an interval's RMS (R205). -/
def slideTo (old u : Rat) : Rat := 9967 / 10000 * old + 33 / 10000 * u

/-- The sliding references follow an interval's RMS values, except those flagged PQFLAG. -/
def MeasState.slide (m : MeasState) (b : MeasBlock) : MeasState :=
  { m with sliding := m.sliding.mapIdx (fun n old =>
      match b.values.find? (fun v => v.kind = 0 && v.object = n && v.quantity = 1) with
      | some v => if has v.flags qfPq then old else (v.exact.map (slideTo old)).getD old
      | none => old) }

/-- A basic interval ends: its block, its part in the longer levels, the sliding references, and P0's tamper tests to come (R270). Values that
a short interval does not form take no part in longer levels (R185). An interval without a value, as before the first MEAS_CONFIG, is no value
of its level. -/
def State.endBasic (s : State) (b : BasicOpen) : State :=
  let block := s.basicBlock b
  let short := decide (b.cycles < s.meas.config.cyclesN)
  let part := { block with values := block.values.filter (fun v => !(short && usesDft v.kind v.quantity)) }
  let m := s.meas
  let held := block.values.filter (fun v => v.kind ≠ 3)
  ({ s with meas := ({ (if held.isEmpty then m else m.push 1 { block with values := held }) with
      basics := m.basics.tail, groupParts := m.groupParts ++ [part], tenParts := m.tenParts ++ [part]
      toFold := m.toFold ++ [block] } : MeasState).slide block } : State).settleCut

/-- The oldest basic interval ends if it is complete or was cut; one cut without a cycle is discarded (R185). -/
def State.endOldestBasic (s : State) : State :=
  match s.meas.basics with
  | [] => s
  | b :: l =>
    if b.cut && b.cycles = 0 then { s with meas := { s.meas with basics := l } }
    else if b.cut || s.meas.config.cyclesN ≤ b.cycles then s.endBasic b
    else s

/-- While the tracker acquires and no basic interval runs, an accepted configuration takes effect 1 ms after the reply (R177). -/
def State.settleConfig (s : State) : State :=
  match s.meas.acceptedAt with
  | none => s
  | some a =>
    if s.tracker.state = 0 && s.meas.basics.isEmpty && a + Config.ms ≤ s.now then
      s.applyConfig (s.stamp (a + Config.ms)) (a + Config.ms)
    else s

end Sys2Proof.Machine
end

