-- ==== Sys2Proof/Machine/Energy.lean ====
section
/-! DEFINITION. Energy of elements and systems: the DSP's integrators (R210-R212) and the closing of a tick (R211). -/

namespace Sys2Proof.Machine

/-- The unit of grid instants: 1/1,024 of the tracker's 1/512 tick, so that every C + j x P / 1,024 is whole. -/
def gridUnit : Nat := 524288

/-- A processing tick in grid units. -/
def tickGrid : Nat := gridUnit * Config.tickLen

/-- Micro-units of energy of a power over a span of grid units: W x s x 10^6 / 3,600. -/
def spanEnergy (power : Rat) (len : Nat) : Rat := power * len / 30198988800

/-- What one grid interval of a cycle gives an integrator: the power v x i of its sample, and the flags of its samples. -/
structure GridPower where
  power : Rat
  flags : Nat
  deriving DecidableEq, Repr, Inhabited

/-- A tick's sums changed. -/
def Integrator.addTick (x : Integrator) (k : Nat) (f : TickAcc → TickAcc) : Integrator :=
  if x.ticks.any (fun a => a.tick = k) then { x with ticks := alterWhere x.ticks (fun a => a.tick = k) f }
  else { x with ticks := x.ticks ++ [f { tick := k }] }

/-- Flags join the ticks that a span meets. -/
def Integrator.flagSpan (x : Integrator) (a b flags : Nat) : Integrator :=
  if b ≤ a || flags = 0 then x
  else
    (List.range ((b - 1) / tickGrid + 1 - a / tickGrid)).foldl (fun (x : Integrator) i =>
      x.addTick (a / tickGrid + i) (fun t => { t with flags := t.flags ||| flags })) x

/-- Powers P, Q1 and S over a span are split over the ticks that it overlaps (R210). -/
def Integrator.addSpan (x : Integrator) (a b : Nat) (p q s : Rat) : Integrator :=
  if b ≤ a then x
  else
    (List.range ((b - 1) / tickGrid + 1 - a / tickGrid)).foldl (fun (x : Integrator) i =>
      let k := a / tickGrid + i
      let len := min b ((k + 1) * tickGrid) - max a (k * tickGrid)
      x.addTick k (fun t =>
        { t with
          active := t.active + spanEnergy p len, reactive := t.reactive + spanEnergy q len
          apparent := t.apparent + spanEnergy s len })) x

/-- A gap is carried from the last complete cycle, or gives zero where there is none (R212); from `gapFrom` on it gives zero
(R429). -/
def Integrator.carryTo (x : Integrator) (stop : Nat) : Integrator :=
  let cut := min stop (x.gapFrom.getD stop)
  if stop ≤ x.covered then x
  else if cut ≤ x.covered then { x.flagSpan x.covered stop tfGap with covered := stop }
  else
    let y := match x.last with
      | some l => (x.addSpan x.covered cut l.1 l.2.1 l.2.2).flagSpan x.covered cut tfCarried
      | none => x.flagSpan x.covered cut tfGap
    { (if cut < stop then y.flagSpan cut stop tfGap else y) with covered := stop }

/-- A span of an element with a lost channel gives zero and GAP (R212). -/
def Integrator.gapTo (x : Integrator) (stop : Nat) : Integrator :=
  if stop ≤ x.covered then x else { x.flagSpan x.covered stop tfGap with covered := stop }

/-- Instants without samples up to `stop`: carried, or zero where a channel is lost (R212). -/
def Integrator.missTo (x : Integrator) (lost : Bool) (stop : Nat) : Integrator := if lost then x.gapTo stop else x.carryTo stop

/-- One grid interval of a cycle, from `a` to `b`: measured, or without a sample. The sample's energy belongs to the tick in which its instant
lies. -/
def Integrator.addGrid (x : Integrator) (lost : Bool) (a b : Nat) (g : Option GridPower) (q s : Option Rat) : Integrator :=
  if b ≤ x.covered then x
  else if a < x.covered then x.missTo lost b
  else
    match g with
    | none => x.missTo lost b
    | some g =>
      let l := x.last.getD (0, 0, 0)
      let x := x.addSpan a b 0 (q.getD l.2.1) (s.getD l.2.2)
      let x := x.addTick (a / tickGrid) (fun t =>
        { t with active := t.active + spanEnergy g.power (b - a), flags := t.flags ||| g.flags })
      { x with covered := b }

/-- Grid instant `j` of a cycle that starts at `c` and is `p` long, both in 1/512 tick, in grid units. -/
def gridAt (c p j : Nat) : Nat := 1024 * c + j * p

/-- A cycle of 1,024 grid intervals; `last` becomes this cycle's if it is complete. What was measured before a channel was lost counts. -/
def Integrator.addCycle (x : Integrator) (lost : Bool) (c p : Nat) (grid : List (Option GridPower)) (q s : Option Rat) : Integrator :=
  let x := x.missTo lost (gridAt c p 0)
  let x := (grid.zipIdx).foldl (fun (x : Integrator) g => x.addGrid lost (gridAt c p g.2) (gridAt c p (g.2 + 1)) g.1 q s) x
  let x := x.missTo lost (gridAt c p 1024)
  if grid.length = 1024 && grid.all (fun g => g.isSome) then
    let mean := (grid.foldl (fun (a : Rat) g => a + (g.map (fun g => g.power)).getD 0) 0) / 1024
    { x with last := some (mean, q.getD 0, s.getD 0) }
  else x

/-! ### TICK_CLOSE (R211) -/

/-- Whether a channel of an integrator is lost. -/
def State.integratorLost (s : State) (system : Bool) (object : Nat) : Bool :=
  (s.meas.config.uses system object).any (fun n => (s.chan n).lost)

/-- A sum in whole micro-units, rounded towards minus infinity, and its remainder (R210). -/
def wholeUnits (r : Rat) : Int × Rat := (r.floor, r - r.floor)

/-- An integrator gives up the sums of one tick. -/
def Integrator.close (x : Integrator) (k : Nat) : TickEnergy × Integrator :=
  let t := (x.ticks.find? (fun a => a.tick = k)).getD { tick := k }
  let p := wholeUnits (t.active + x.rest.1)
  let q := wholeUnits (t.reactive + x.rest.2.1)
  let s := wholeUnits (t.apparent + x.rest.2.2)
  ({ system := x.system, object := x.object, active := p.1, reactive := q.1, apparent := s.1, flags := t.flags },
   { x with ticks := x.ticks.filter (fun a => k < a.tick), rest := (p.2, q.2, s.2) })

/-- The elements and systems for which no integrator runs deliver zero and GAP (R212). -/
def MeasState.idleEnergies (m : MeasState) : List TickEnergy :=
  (m.config.elements.filter (fun e => !m.integrators.any (fun x => !x.system && x.object = e.current))).map (fun e =>
    { object := e.current, flags := tfGap }) ++
  (m.config.seSystems.filter (fun k => !m.integrators.any (fun x => x.system && x.object = k))).map (fun k =>
    { system := true, object := k, flags := tfGap })

/-- The tick in progress closes: what is not covered is carried or GAP, and its energies go to P0. -/
def State.closeTick (s : State) : State :=
  let k := s.meas.nextTick
  let stop := (k + 1) * tickGrid
  let xs := s.meas.integrators.map (fun x =>
    x.missTo (s.integratorLost x.system x.object) stop)
  let r := xs.map (fun x => x.close k)
  { s with meas := { s.meas with
      integrators := r.map (fun x => x.2), nextTick := k + 1
      queue := s.meas.queue ++ [{ tick := k, energies := r.map (fun x => x.1) ++ s.meas.idleEnergies }] } }

/-- Whether the tick in progress may close: every integrator has its samples, or 30 ms have passed since its end. -/
def State.tickReady (s : State) : Bool :=
  let stop := (s.meas.nextTick + 1) * tickGrid
  decide (stop ≤ gridUnit * s.now) &&
  (s.meas.integrators.all (fun x => decide (stop ≤ x.covered) || s.integratorLost x.system x.object) ||
   decide (stop + gridUnit * 30 * Config.ms ≤ gridUnit * s.now))

end Sys2Proof.Machine
end

