-- ==== Sys2Proof/Machine/StreamRows.lean ====
section
/-! DEFINITION. The wideband and narrowband streams, the frequency tracker, fades and the window peak: WIDEBAND_SAMPLE,
NARROWBAND_SAMPLE, TRACKER_HOLDOVER, FADE_END, PEAK_WINDOW_END, WINDOW_REARM (chapter 04). -/

namespace Sys2Proof.Machine

/-- A value held at the 24-bit limits (R104). -/
def hold24 (v : Int) : Int := max (-8388608) (min 8388607 v)

/-- SAT: the value was held (R104). -/
def satFlag (v : Int) : Nat := flagIf (hold24 v ≠ v) flSat

/-- Whether a span meets the raw indices `a` to `b`. -/
def meets (l : List Span) (a b : Int) : Bool := l.any (fun x => decide (a ≤ (x.last : Int)) && decide ((x.first : Int) ≤ b))

/-- TAINT and CLIPPED of a sample whose window is the raw indices `a` to `b` (R129, Table 4.2). -/
def Converter.windowFlags (c : Converter) (a b : Int) : Nat :=
  flagIf (meets c.overSpans a b) flTaint + flagIf (meets c.clipSpans a b) flClipped

/-- The last `n` entries of a history with one more. -/
def keep {α : Type} (n : Nat) (l : List α) (x : α) : List α := (l ++ [x]).drop (l.length + 1 - n)

/-- WINDOW_REARM (R97). -/
def execWindowRearm (t channel : Nat) (slow : Bool) (s : State) : Out :=
  let s := s.tickTo t
  guarded (channel < 24) (if ((s.chan channel).window slow).due then s.rearm channel slow else s)

/-! ### Stage 1 and the decimators (R107-R109) -/

/-- The stage 1 value of a raw code: multiplied by the unit's scale factor, in steps of 2^-24, and brought to the stream step, 1/64 of a raw
LSB (R104, R107). -/
def stage1 (unit : Nat) (code : Int) : Rat := ((code * 64 * (Config.scaleFactor unit : Int) : Int) : Rat) / 16777216

/-- The 767-tap sum of a decimator around the raw instant `at_`, over the samples its unit took: linear phase, so a coefficient depends on
the distance from the middle; on three slices a set for that pattern serves (R107-R109). The coefficients are free (log 72). -/
def Converter.decimate (c : Converter) (unit : Nat) (narrow : Bool) (at_ : Int) : Rat :=
  let missing := c.excluded.map (fun e => e % 4)
  c.raw.foldl (fun (a : Rat) x =>
    let d : Int := (x.index : Int) - at_
    if d.natAbs ≤ 383 then
      a + (if missing.isEmpty then Config.decimatorTap narrow d.natAbs
        else Config.threeSliceTap narrow missing (d.natAbs) (x.index % 4)) * stage1 unit x.code
    else a) 0

/-! ### Wideband (R108, R133) -/

/-- The envelope after one wideband value (R133). -/
def envelopeStep (attack decay : Nat) (e : Rat) (v : Int) : Rat :=
  let m : Rat := ((v.natAbs : Int) : Rat)
  if e < m then e + (m - e) / ((2 ^ attack : Nat) : Rat) else e + (m - e) / ((2 ^ decay : Nat) : Rat)

/-- The block of 256 that ends with a wideband index gives its result, if it has a sample. -/
def Converter.envelopeBlock (c : Converter) (w : Int) : Converter × Option (Rat × Nat) :=
  if w % 256 = 255 then
    ({ c with envelopeAny := false }, if c.envelopeAny && c.envelopeAt = w / 256 then some (c.envelopeMax, c.envelopeFlags) else none)
  else (c, none)

/-- The envelope of a unit takes a wideband value with the shifts of the channel it works for (R133); the first sample of a block starts its
maximum, and the second part is the block's result, if it ends with this sample. -/
def Converter.envelopeTake (c : Converter) (ch : Channel) (x : StreamSample) : Converter × Option (Rat × Nat) :=
  let e := envelopeStep ch.attack ch.decay c.envelope x.value
  let on : Bool := c.envelopeAny && c.envelopeAt = x.index / 256
  Converter.envelopeBlock
    { c with
      envelope := e, envelopeAny := true, envelopeAt := x.index / 256, envelopeMax := if on then max c.envelopeMax e else e
      envelopeFlags := if on then c.envelopeFlags ||| x.flags else x.flags } x.index

/-- The envelope's result for a block reaches the channel's history (R133, R134). -/
def State.putEnvelope (s : State) (u n : Nat) (w : Int) (block : Option (Rat × Nat)) : State :=
  match block with
  | none => s
  | some b =>
    s.setChan n (fun ch => { ch with
      envelopes := keep 64 ch.envelopes
        { index := (w / 256).toNat, high := openRat 3 b.1, highAt := s.stamp (s.tickOfRaw u (8 * (w / 256 * 256))), flags := b.2 } })

/-! #### Flickermeter (R198) -/

/-- The class of a Pinst: the edges 10^(k/512 - 4), k from 1 to 4,095, at or below it (R198). -/
def pinstClass (p : Rat) : Nat :=
  let x := (10000 * max 0 p) ^ 512
  ((List.range 4095).filter (fun k => decide (10 ^ (k + 1) ≤ x))).length

/-- One more count for a key. -/
def countUp (l : List (Nat × Nat × Nat)) (period cls : Nat) : List (Nat × Nat × Nat) :=
  if l.any (fun x => x.1 = period && x.2.1 = cls) then
    alterWhere l (fun x => x.1 = period && x.2.1 = cls) (fun x => (x.1, x.2.1, x.2.2 + 1))
  else l ++ [(period, cls, 1)]

/-- The largest Pinst of a second takes one more value. -/
def secondUp (l : List (Nat × Rat)) (second : Nat) (p : Rat) : List (Nat × Rat) :=
  if l.any (fun x => x.1 = second) then alterWhere l (fun x => x.1 = second) (fun x => (x.1, max x.2 p)) else l ++ [(second, p)]

/-- Flags join a period's. -/
def flagsUp (l : List (Nat × Nat)) (period flags : Nat) : List (Nat × Nat) :=
  if l.any (fun x => x.1 = period) then alterWhere l (fun x => x.1 = period) (fun x => (x.1, x.2 ||| flags))
  else l ++ [(period, flags)]

/-- Flags join those of the second and of the ten minutes that hold an instant. -/
def FlickerMeter.mark (m : FlickerMeter) (stamp flags : Nat) : FlickerMeter :=
  { m with
    flags := flagsUp m.flags (stamp / (10 * minTicks)) flags, secondFlags := flagsUp m.secondFlags (stamp / secTicks) flags }

/-- A sample that does not follow the last one: what holds the instants between lacks samples (R184). -/
def FlickerMeter.skip (m : FlickerMeter) (tick stamp : Nat) (stampOf : Nat → Nat) : FlickerMeter :=
  match m.next with
  | none => m
  | some x => if x = tick then m else (m.mark (stampOf x) qfGap).mark stamp qfGap

/-- The flickermeter takes one wideband sample, of the instant `tick`; 250 of them give one input at 2,000 S/s (R198). -/
def FlickerMeter.take (m : FlickerMeter) (lamp nominal : Nat) (x : StreamSample) (tick : Nat) (stampOf : Nat → Nat) : FlickerMeter :=
  let place := (x.index % 250).toNat
  let stamp := stampOf tick
  let held := if m.input.head?.any (fun y => place ≤ y.1) then [] else m.input
  let m := { (m.skip tick stamp stampOf).mark stamp (qualityOf x.flags) with input := (place, x.value) :: held, next := some (tick + 32) }
  if place ≠ 249 then m
  else
    let input := m.input.foldl (fun (a : Rat) y => a + Config.flickerTap y.1 * y.2) 0
    let r := Config.flickerStep lamp nominal m.filter input
    { m with
      filter := r.1, input := [], counts := countUp m.counts (stamp / (10 * minTicks)) (pinstClass r.2)
      seconds := secondUp m.seconds (stamp / secTicks) r.2 }

/-- The step to a wideband sample from the one before it joins those that the slope of a capture is taken from (R152). -/
def Channel.stepTo (c : Channel) (x : StreamSample) (tick : Nat) : Channel :=
  match c.wide.getLast? with
  | some y => if y.index = x.index - 1 then { c with steps := ((tick, (x.value - y.value).natAbs ^ 2) :: c.steps).take 24576 } else c
  | none => c

/-- A delivered wideband sample on S: the channel's history, the supraharmonic block and the flickermeter (R134, R195, R198). -/
def State.deliverWide (s : State) (u n : Nat) (x : StreamSample) : State :=
  let s := s.setChan n (fun ch => { ch.stepTo x (s.tickOfRaw u (8 * x.index)) with wide := keep 4096 ch.wide x })
  let cfg := nth s.meas.config.channels n
  if !(s.chan n).enabled || cfg.role = 0 then s
  else
    { s with meas := { s.meas with
        wide := alter s.meas.wide n (fun l => x :: l)
        meters := if cfg.flicker = 0 then s.meas.meters
          else alter s.meas.meters n (fun m => m.take cfg.flicker s.meas.config.nominal x (s.tickOfRaw u (8 * x.index)) s.stamp) } }

/-- Whether a unit delivers a channel for the instant of wideband sample `w`, or of narrowband sample `v` (R149, R150). -/
def State.deliversWide (s : State) (u n : Nat) (w : Int) : Bool := s.deliveredBy Carriage.wide n (s.tickOfRaw u (8 * w)) = some u
def State.deliversNarrow (s : State) (u n : Nat) (v : Int) : Bool := s.deliveredBy Carriage.narrow n (s.tickOfRaw u (32 * v)) = some u

/-- A wideband sample that is not suppressed: the unit's envelope takes it, and the unit that delivers the channel sends it to S. -/
def State.formWide (s : State) (u n : Nat) (w : Int) : State :=
  let c := s.conv u
  let y := openRat 14 (c.decimate u false (8 * w))
  let x : StreamSample :=
    { index := w, value := hold24 y
      flags := c.windowFlags (8 * w - 383) (8 * w + 383) + satFlag y + flagIf (24 ≤ u) flSubst }
  let r := c.envelopeTake (s.chan n) x
  let s := s.setConv u (fun _ => r.1)
  if s.deliversWide u n w then (s.deliverWide u n x).putEnvelope u n w r.2 else s

/-- A suppressed wideband sample: e restarts at 0 after it, and a block that ends with it gives its result (R127, R133). -/
def State.skipWide (s : State) (u n : Nat) (w : Int) : State :=
  let r := (s.conv u).envelopeBlock w
  let s := s.setConv u (fun _ => { r.1 with envelope := 0 })
  if s.deliversWide u n w then s.putEnvelope u n w r.2 else s

/-- A sweep has reconfigured the benches of a unit and a window that ends at a raw index reaches into it. -/
def State.sweptBy (s : State) (u : Nat) (index : Int) : Bool := s.swept u && decide (s.sweep.since ≤ s.tickOfRaw u index)

/-- WIDEBAND_SAMPLE (R108): the decimator's sample due at `t`, delivered unless it is suppressed (R127). -/
def execWidebandSample (t unit : Nat) (s : State) : Out :=
  let s := s.tickTo t
  let w := s.wideAt unit s.now
  let c := s.conv unit
  guarded (unit < 30)
    (if !s.converts unit || s.sweptBy unit (8 * w + 383) || decide (w < c.wideIndex) then s
    else
      let s := s.setConv unit (fun c => { c with wideIndex := w + 1 })
      match s.worksFor unit with
      | none => s
      | some n => if c.wideSuppressed w then s.skipWide unit n w else s.formWide unit n w)

/-! ### Tracker (R121-R124) -/

/-- The candidates in order: the reference, then the fallbacks. -/
def Tracker.candidates (x : Tracker) : List Nat := (x.reference :: x.fallbacks).filter (fun n => n < 24)

/-- The crossings of a channel that the tracker knows, newest first. -/
def Tracker.chain (x : Tracker) (n : Nat) : List (Nat × Bool) := ((x.chains.find? (fun c => c.1 = n)).map (fun c => c.2)).getD []

/-- An interval within 14.4928-23.5294 ms, in 1/512 tick (R121). -/
def validInterval (d : Nat) : Bool := 1187250176 ≤ 10 * d && 10 * d ≤ 1927528448

/-- Whether the RMS of narrowband samples between two instants, in 1/512 tick, is at least a threshold in raw LSB: 64 stream steps each.
`origin` is the tick of raw instant 0 of their epoch. -/
def levelReached (l : List StreamSample) (origin a b threshold : Nat) : Bool :=
  let l := l.filter (fun x =>
    let i : Int := 512 * ((origin : Int) + 128 * x.index)
    decide ((a : Int) ≤ i) && decide (i < (b : Int)))
  !l.isEmpty && decide ((64 * threshold) ^ 2 * l.length ≤ l.foldl (fun (t : Nat) x => t + x.value.natAbs ^ 2) 0)

/-- A crossing is valid (R121): its interval, and the level of the channel's narrowband stream over it. -/
def Tracker.valid (x : Tracker) (n k : Nat) (narrow : List StreamSample) (origin : Nat) : Bool :=
  match x.chain n with
  | [] => false
  | p :: _ => p.1 ≤ k && validInterval (k - p.1) && levelReached narrow origin p.1 k x.threshold

/-- Three consecutive crossings, the last two valid, whose periods agree within 1 % (Table 4.8); the spec does not say of which, and the
model takes 1 % of C0 to C1 (log 73). -/
def qualifies (l : List (Nat × Bool)) : Bool :=
  match l with
  | [(c2, v2), (c1, v1), (c0, _)] =>
    v2 && v1 && decide ((((c2 - c1 : Nat) : Int) - ((c1 - c0 : Nat) : Int)).natAbs * 100 ≤ c1 - c0)
  | _ => false

/-- The end of the last holdover cycle already produced (R124). -/
def Tracker.reached (x : Tracker) : Nat := (x.ends.getLast?.map (fun e => e.at512)).getD x.start

/-- Holdover ends once C of R124 is known: the interval from B to C is one holdover cycle, and locked cycles start
at C. -/
def Tracker.leave (x : Tracker) : Tracker :=
  match x.leaving with
  | none => x
  | some (n, b) =>
    let l := (((x.chain n).map (fun c => c.1)).reverse).filter (fun c => b ≤ c)
    let usable := match l with
      | [] => []
      | c :: rest => if x.period ≤ 2 * (c - b) then c :: rest else rest
    match usable with
    | [] => x
    | c :: rest =>
      let alt : Bool := n ≠ x.reference
      { x with
        state := 1, channel := n, leaving := none, lastCrossing := rest.getLast?.getD c
        ends := x.ends ++ [{ at512 := c, hold := true, alt := x.alt }] ++
          rest.map (fun k => { at512 := k, hold := false, alt := alt }) }

/-- The tracker finds a crossing on a channel, at an instant in 1/512 tick (R121, R123, R124). -/
def Tracker.see (x : Tracker) (n k : Nat) (narrow : List StreamSample) (origin : Nat) : Tracker :=
  let v := x.valid n k narrow origin
  let l := ((k, v) :: x.chain n).take 3
  let x := { x with chains := (n, l) :: x.chains.filter (fun c => c.1 ≠ n) }
  let alt : Bool := n ≠ x.reference
  if x.state = 1 then
    if n = x.channel && v then
      { x with ends := x.ends ++ [{ at512 := k, hold := false, alt := alt }], lastCrossing := k }
    else x
  else if x.state = 0 then
    if x.candidates.contains n && qualifies l then
      { x with
        state := 1, channel := n, start := ((l.getLast?).map (fun c => c.1)).getD 0, lastCrossing := k, hold := false
        ends := (l.take 2).reverse.map (fun c => { at512 := c.1, hold := false, alt := alt }), alt := alt }
    else x
  else if x.leaving.isSome then x.leave
  else if x.candidates.contains n && qualifies l then Tracker.leave { x with leaving := some (n, x.reached) }
  else x

/-- A locked tracker goes to holdover and tests its candidates afresh: crossings seen before holdover do not count towards the three (R123,
log 73). -/
def Tracker.toHoldover (x : Tracker) : Tracker := { x with state := 2, chains := [], leaving := none }

/-- No valid crossing within 23.5294 ms of `last`, in 1/512 tick. -/
def crossingLate (now last : Nat) : Bool := 1927528448 < 10 * (512 * now - last)

/-- TRACKER_HOLDOVER (R123); in holdover, a candidate that falls silent before C is known is given up. -/
def execTrackerHoldover (t : Nat) (s : State) : Out :=
  let s := s.tickTo t
  let x := s.tracker
  .next
    (if x.state = 1 && crossingLate s.now x.lastCrossing then { s with tracker := x.toHoldover }
    else
      match x.leaving with
      | none => s
      | some (n, _) =>
        if crossingLate s.now (((x.chain n).head?.map (fun c => c.1)).getD 0) then { s with tracker := x.toHoldover }
        else s)

/-! ### Narrowband (R109, R112, R116) -/

/-- The sum of R112 over a bank, in units of 2^-29 of the stream step; `taps` holds x[v + 32] first. -/
def bankSum (bank : List Int) (taps : List Rat) : Rat :=
  (List.zipWith (fun (a : Int) (b : Rat) => (a : Rat) * b) bank taps).foldl (fun a b => a + b) 0

/-- The equaliser's output, before the 24-bit hold: within a fade, the blend of R116. -/
def Channel.equalised (c : Channel) (taps : List Rat) : Int :=
  let y := bankSum (c.bank c.active) taps
  match c.fade with
  | none => openRat 4 (y / 536870912)
  | some f =>
    let a : Rat := ((f.done + 1 : Nat) : Rat) / f.length
    openRat 4 (((1 - a) * y + a * bankSum (c.bank f.target) taps) / 536870912)

/-- A fade advances by one delivered sample. -/
def Channel.fadeStep (c : Channel) : Channel := { c with fade := c.fade.map (fun f => { f with done := f.done + 1 }) }

/-- A narrowband sample of a unit whose delay a correlation phase measures, or of the lane that it is measured against, joins that phase
(R142, R147). -/
def State.correlates (s : State) (u : Nat) (x : StreamSample) : State :=
  let w := s.sweep
  let now : List Nat := if w.phase = 1 then w.unit.toList ++ w.lane.toList.map (fun k => 24 + k) else []
  let next : List Nat := w.next.toList.flatMap (fun y => y.unit :: y.lane.toList.map (fun k => 24 + k))
  if (now ++ next).contains u then { s with sweep := { w with heard := w.heard ++ [(u, s.tickOfRaw u (32 * x.index), x.value)] } } else s

/-- A crossing that the tracker can have found with narrowband sample `v` of a unit: the sample's instant is the latest it has seen, and the
die sends a crossing within 3 ms (R121, R124). -/
def State.crossingSeen (s : State) (u : Nat) (v : Int) (k : Nat) : Bool :=
  decide (k ≤ 512 * s.tickOfRaw u (32 * v)) && decide (512 * s.now ≤ k + 512 * (3 * Config.ms))

/-- A narrowband sample that is not suppressed: the die keeps it; the unit that delivers the channel forwards it and
shows its crossings to the tracker (R112, R124, R135). -/
def State.formNarrow (s : State) (u n : Nat) (v : Int) (crossing : Option Nat) : State :=
  let c := s.conv u
  let on := s.deliversNarrow u n v
  let s := s.setChan n (fun x => if on then x.endFade else x)
  let ch := s.chan n
  let y := ch.equalised c.taps
  let x : StreamSample :=
    { index := v, value := hold24 y
      flags := c.windowFlags (32 * v - 1375) (32 * v + 1407) + satFlag y + flagIf ch.fade.isSome flFade +
        flagIf (24 ≤ u) flSubst }
  let s := s.setConv u (fun c => { c with
    narrow := (x :: c.narrow).take 4096
    runs := if c.narrow.head?.any (fun y => y.index = v - 1) then c.runs else (v :: c.runs).take 8 })
  let s := s.correlates u x
  if on then
    let s := s.setChan n (fun ch =>
      let ch := ch.fadeStep
      if ch.forwarding then { ch with narrow := keep 4096 ch.narrow x } else ch)
    match crossing with
    | some k =>
      if s.crossingSeen u v k then { s with tracker := s.tracker.see n k (s.conv u).narrow (s.die (dieOfUnit u)).epochTick } else s
    | none => s
  else s

/-! ### The tally's samples (R361) -/

/-- A narrowband value of lane `k` in gatehouse mode: its square joins the second in progress, and its product with the value of the same index
on the other lane of its element joins the tick in progress. -/
def State.tallySample (s : State) (k : Nat) (x : StreamSample) : State :=
  let pair := (s.conv (24 + (k + 3) % 6)).narrow.find? (fun y => y.index = x.index)
  let work : Int := (pair.map (fun y => x.value * y.value)).getD 0
  { s with gate := { s.gate with
      work := alter s.gate.work (k % 3) (fun w => w + work)
      squares := alter s.gate.squares k (fun w => w + x.value.natAbs ^ 2), counted := alter s.gate.counted k (fun w => w + 1) } }

/-- A narrowband value of a lane in gatehouse mode: equalised by the copy of the active bank. -/
def State.gateNarrow (s : State) (u n : Nat) (v : Int) : State :=
  let x : StreamSample := { index := v, value := hold24 ((s.chan n).equalised (s.conv u).taps), flags := 0 }
  (s.setConv u (fun c => { c with narrow := (x :: c.narrow).take 4096 })).tallySample (u - 24) x

/-- NARROWBAND_SAMPLE (R112): sample v, due at `t`, is formed with the decimator output x[v + 32], which is neither rounded nor held
(log 72). `crossing` is the positive-going zero crossing of the fundamental that the tracker finds with it, in 1/512 tick, 1/65,536 of a
narrowband period; the spec gives no method of finding it and states ±2 µs of it as accuracy (R121, log 10). -/
def execNarrowbandSample (t unit : Nat) (crossing : Option Nat) (s : State) : Out :=
  let s := s.tickTo t
  let v := s.narrowAt unit s.now
  let c := s.conv unit
  guarded (unit < 30)
    (if !(s.converts unit || s.gates unit) || s.swept unit || decide (v < c.narrowIndex) then s
    else
      let x := c.decimate unit true (32 * (v + 32))
      let taps := if v = c.narrowIndex then (x :: c.taps).take 64 else [x]
      let s := s.setConv unit (fun c => { c with narrowIndex := v + 1, taps := taps })
      if decide (v < c.narrowFrom) || taps.length < 64 then s
      else
        match s.worksFor unit with
        | none => s
        | some n => if s.gates unit then s.gateNarrow unit n v else s.formNarrow unit n v crossing)

/-- FADE_END (R117). -/
def execFadeEnd (t channel : Nat) (s : State) : Out :=
  let s := s.tickTo t
  guarded (channel < 24) (s.setChan channel Channel.endFade)

/-! ### Window peak (R131) -/

/-- PEAK_WINDOW_END (R131): the window of W ms that ended at the last whole multiple of W ms, over the samples the channel's carriers
delivered in it. -/
def execPeakWindowEnd (t channel : Nat) (s : State) : Out :=
  let s := s.tickTo t
  let c := s.chan channel
  let len := c.peakMs * Config.ms
  let k := s.stampNow / len
  let p := c.windowPeak
  guarded (channel < 24)
    (if k * len ≤ c.windowAt then s
    else
      s.setChan channel (fun c =>
        { c with
          windowAt := k * len, windowPeak := {}
          windowPeaks := if p.any then
              keep 16 c.windowPeaks { index := k - 1, high := p.high, low := p.low, highAt := p.highAt, lowAt := p.lowAt, flags := p.flags }
            else c.windowPeaks }))

end Sys2Proof.Machine
end

