-- ==== Sys2Proof/Machine/Cycle.lean ====
section
/-! DEFINITION. SYNCHRONOUS_CYCLE: the samples of one cycle of the tracker's grid (R122-R127), the half-cycle peaks (R131),
the one-cycle RMS (R132), and what chapter 06 forms from them. -/

namespace Sys2Proof.Machine

/-- The cycle in progress if it ends at `next`: the known end, or in holdover one more period (R122, R123). -/
def Tracker.cycleTo (x : Tracker) (next : Nat) : Option CycleRecord :=
  match x.ends with
  | e :: _ =>
    if e.at512 = next && x.start < next then
      some { number := x.cycle, start := x.start, len := next - x.start, hold := e.hold, alt := e.alt }
    else none
  | [] =>
    if x.state = 2 && x.leaving.isNone && next = x.start + x.period && 0 < x.period then
      some { number := x.cycle, start := x.start, len := x.period, hold := true, alt := x.alt }
    else none

/-- The end of a cycle, in 1/512 tick. -/
def CycleRecord.stop (c : CycleRecord) : Nat := c.start + c.len

/-- HOLD and ALT of a cycle's samples. -/
def CycleRecord.flags (c : CycleRecord) : Nat := flagIf c.hold flHold + flagIf c.alt flAlt

/-- The grid instant of sample `j`, in 1/512 tick (R122). -/
def CycleRecord.instant (c : CycleRecord) (j : Nat) : Rat := (c.start : Rat) + (j : Rat) * c.len / 1024

/-- The tick in which the grid instant of sample `j` lies. -/
def CycleRecord.tickOf (c : CycleRecord) (j : Nat) : Nat := (c.start * 1024 + j * c.len) / 524288

/-! ### Synchronous samples (R122, R125-R127) -/

/-- The delay trim of a channel on a unit for a cycle that starts at a tick, in steps of 0.25 ns (R126, R160). -/
def State.delayTrim (s : State) (n u tick : Nat) : Int :=
  (if u < 24 then (s.conv u).cal.delayAt tick else Config.laneDelay (u - 24) n) + (s.chan n).hostDelay

/-- The resampler's coefficient for tap `i` of phase `k`; phase 256 is phase 0 of the next sample (R125). -/
def resamplerCoefficient (k i : Nat) : Rat :=
  if k < 256 then Config.resamplerTap k i else if i = 0 then 0 else Config.resamplerTap 0 (i - 1)

/-- The 32 narrowband values from v0 - 15 on, weighted for the place `p` between v0 and the next, in 1/256 (R125). -/
def resample (l : List StreamSample) (p : Rat) : Rat :=
  let k := p.floor.toNat
  let w : Rat := p - k
  l.zipIdx.foldl (fun (a : Rat) x =>
    a + ((1 - w) * resamplerCoefficient k x.2 + w * resamplerCoefficient (k + 1) x.2) * x.1.value) 0

/-- The channel that a unit worked for at a grid instant. -/
def State.workedFor (s : State) (u tick : Nat) : Option Nat :=
  match (List.range 24).find? (fun n => s.deliveredBy Carriage.sync n tick = some u) with
  | some n => some n
  | none => s.worksFor u

/-- Number of sample 0 of a cycle on a die (R106). -/
def State.cycleIndex (s : State) (d : Nat) (c : CycleRecord) : Option Int :=
  (s.die d).cycleBase.map (fun b => 1024 * ((c.number : Int) - b))

/-- Sample `j` of a cycle on a unit, with v0, if the die holds its 32 inputs (R122, R125). A die that is down delivers nothing any more, not
even for instants before (R349, R351). -/
def State.formSync (s : State) (u : Nat) (c : CycleRecord) (j : Nat) : Option (Int × StreamSample) :=
  if s.dieDown (dieOfUnit u) then none
  else
  match s.workedFor u (c.tickOf j), s.cycleIndex (dieOfUnit u) c with
  | some n, some base =>
    let x : Rat := (c.instant j + (s.delayTrim n u (cdiv c.start 512).toNat : Rat) * 256 / 125 -
      512 * ((s.die (dieOfUnit u)).epochTick : Rat)) / 65536
    let v := x.floor
    let l := ((s.conv u).narrow.filter (fun y => decide (v - 15 ≤ y.index) && decide (y.index ≤ v + 16))).reverse
    if l.length = 32 then
      let y := openRat 15 (resample l (256 * (x - v)))
      some (v, { index := base + j, value := hold24 y
                 flags := orAll (l.map (fun x => x.flags)) ||| satFlag y ||| c.flags ||| flagIf (24 ≤ u) flSubst })
    else none
  | _, _ => none

/-- Samples that a unit forms from a run of narrowband samples without a gap: suppressed until the narrowband is valid, and then the next 48,
or samples 0-47 of the first locked cycle (R127, Table 11.4). `tick` is the grid instant, `first` says that the cycle is the first
locked one. -/
def State.spend (s : State) (u : Nat) (v : Int) (tick : Nat) (first : Bool) : State × Bool :=
  let k := s.conv u
  let run := k.runs.find? (fun r => decide (r ≤ v - 15))
  let k := if run = k.syncRun then k else { k with syncRun := run, syncLeft := 48 }
  if !first && run.any (fun r => decide ((tick : Int) < s.narrowDue u r)) then (s.setConv u (fun _ => k), false)
  else (s.setConv u (fun _ => { k with syncLeft := k.syncLeft - 1 }), k.syncLeft = 0)

/-- The 1,024 samples of a cycle on a unit; none where one is not formed or is suppressed. -/
def State.unitCycle (s : State) (c : CycleRecord) (u : Nat) : State × List (Option StreamSample) :=
  let first : Bool := (s.die (dieOfUnit u)).cycleBase = some c.number
  (List.range 1024).foldl (fun (a : State × List (Option StreamSample)) j =>
    match a.1.formSync u c j with
    | none => (a.1, a.2 ++ [none])
    | some x =>
      let k := a.1.spend u x.1 (c.tickOf j) first
      (k.1, a.2 ++ [if k.2 then some x.2 else none])) (s, [])

/-- A new host part of the delay comes into force with the first cycle that starts after its tick (R126). -/
def Channel.takeDelay (x : Channel) (start : Nat) : Channel :=
  let due := x.nextDelay.filter (fun d => 512 * d.2 < start)
  { x with hostDelay := (due.getLast?.map (fun d => d.1)).getD x.hostDelay
           nextDelay := x.nextDelay.filter (fun d => start ≤ 512 * d.2) }

/-- A missing sample of a channel whose die has been substituted is replayed from the latest cycle that has it (R351); HOLD and ALT are
those of the cycle it now belongs to (R105). -/
def Channel.replayed (x : Channel) (c : CycleRecord) (base : Int) (j : Nat) : Option StreamSample :=
  match x.sync.reverse.find? (fun y => y.index % 1024 = (j : Int)) with
  | some y =>
    if x.replaying then
      some { y with index := base + j, flags := (without y.flags (flHold + flAlt) ||| c.flags) ||| (flReplay + flSubst) }
    else none
  | none => none

/-- Sample `j` of a channel: from the unit that delivered it at the sample's grid instant (R149, R150), or replayed. -/
def State.channelSample (s : State) (c : CycleRecord) (units : List (List (Option StreamSample))) (n j : Nat) : Option StreamSample :=
  let u := s.deliveredBy Carriage.sync n (c.tickOf j)
  match u.bind (fun u => nth (nth units u) j) with
  | some x => some x
  | none =>
    let d := dieOfUnit ((u <|> s.carrierUnit n).getD n)
    (s.cycleIndex d c).bind (fun base => (s.chan n).replayed c base j)

/-- The samples of a cycle join a channel's history; replaying ends with a last sample that is measured (R351). -/
def Channel.takeSync (x : Channel) (l : List (Option StreamSample)) : Channel :=
  { x with
    sync := (l.filterMap id).foldl (fun h y => keep 4096 h y) x.sync
    replaying := x.replaying && !((nth l 1023).any (fun y => !has y.flags flReplay)) }

/-- The samples of a cycle on every unit. -/
def State.unitCycles (s : State) (c : CycleRecord) : State × List (List (Option StreamSample)) :=
  (List.range 30).foldl (fun (a : State × List (List (Option StreamSample))) u =>
    let r := a.1.unitCycle c u
    (r.1, a.2 ++ [r.2])) (s, [])

/-- The RMS of 1,024 consecutive synchronous samples, if all were delivered: the index of the last, the value, the flags. 1/256 raw LSB is
1/4 of the stream step, so the value is the root of the sum of the squares over 64. -/
def rmsOver (l : List (Option StreamSample)) : Option (Int × Nat × Nat) :=
  let l := l.filterMap id
  if l.length = 1024 then
    let sum : Nat := l.foldl (fun (a : Nat) y => a + y.value.natAbs * y.value.natAbs) 0
    let root := if sum % 64 = 0 then openSqrt 6 (sum / 64) else isqrt (sum / 64) + (if Config.roundsUp 5 sum then 1 else 0)
    some ((l.getLast?.map (fun y => y.index)).getD 0, root, orAll (l.map (fun y => y.flags)))
  else none

/-! ### Home and lane compared (R346, R347, R353) -/

/-- Whether a channel's home and a lane are compared over a cycle, and which lane: it lies wholly inside the dwell, or in a probation. -/
def State.comparedLane (s : State) (n : Nat) (c : CycleRecord) : Option Nat :=
  let inside := fun (since : Nat) => decide (512 * since ≤ c.start) && decide (c.stop ≤ 512 * (since + s.health.dwell * 100 * Config.ms))
  let d := s.die (dieOfUnit n)
  match s.health.dwelling, s.health.confirming, s.carrierUnit n with
  | some (m, k, since), _, some _ => if m = n && inside since then some (24 + k) else none
  | none, some (m, _, k, since), some _ => if m = n && inside since then some (24 + k) else none
  | none, none, some u => if 24 ≤ u && d.state = 2 && 512 * d.tryAt ≤ c.start then some u else none
  | _, _, none => none

/-- The sums of two whole cycles of samples join a comparison. -/
def Comparison.add (r : Comparison) (home lane : List StreamSample) (a b : Nat) : Comparison :=
  let x := home.map (fun y => y.value)
  let y := lane.map (fun y => y.value)
  let sum := fun (l : List Int) => l.foldl (fun (t : Int) v => t + v) 0
  { cycles := r.cycles + 1, homeRms := r.homeRms + a, laneRms := r.laneRms + b, home := r.home + sum x, lane := r.lane + sum y
    homeSquares := r.homeSquares + sum (x.map (fun v => v * v)), laneSquares := r.laneSquares + sum (y.map (fun v => v * v))
    products := r.products + sum (List.zipWith (fun v w => v * w) x y), moment := Config.delayMoment r.moment x y }

/-- A cycle that home and lane formed whole joins the comparison of the channel. -/
def State.compare (s : State) (c : CycleRecord) (units : List (List (Option StreamSample))) (n : Nat) : State :=
  match s.comparedLane n c with
  | none => s
  | some u =>
    match rmsOver (nth units n), rmsOver (nth units u) with
    | some a, some b =>
      s.setChan n (fun x => { x with compared := x.compared.add ((nth units n).filterMap id) ((nth units u).filterMap id) a.2.1 b.2.1 })
    | _, _ => s

/-- The samples of a cycle: the host parts of the delays that it brings into force, the units' samples, and each channel's. -/
def State.samples (s : State) (c : CycleRecord) : State × CycleRecord :=
  let s := { s with channels := s.channels.map (fun (k : Channel) => k.takeDelay c.start) }
  let r := s.unitCycles c
  let c := { c with samples := (List.range 24).map (fun n => (List.range 1024).map (fun j =>
    if (s.chan n).enabled then s.channelSample c r.2 n j else none)) }
  let s := (List.range 24).foldl (fun (s : State) n => s.compare c r.2 n) r.1
  ((List.range 24).foldl (fun (s : State) n => s.setChan n (fun k => k.takeSync (nth c.samples n))) s, c)

/-! ### Half-cycle peaks (R131) -/

/-- The peak of the raw samples of a channel whose instants lie in a span, in halves of 1/512 tick. -/
def Channel.spanPeak (x : Channel) (a b : Nat) : Peak :=
  x.cycleRaw.reverse.foldl (fun (p : Peak) r => if a ≤ 1024 * r.tick && 1024 * r.tick < b then p.see r.index r.code r.flags else p) {}

/-- Both half-cycle peaks of a channel, reported with its cycle's samples; the grid is that of R122 without the delay trim. -/
def State.halfCyclePeaks (s : State) (c : CycleRecord) (n : Nat) : State :=
  let mid := 2 * c.start + c.len
  let put := fun (s : State) (half : Nat) (p : Peak) =>
    let d := dieOfUnit ((s.deliveredBy Carriage.sync n (c.tickOf (512 * half + 511)) <|> s.carrierUnit n).getD n)
    match p.any, s.cycleIndex d c with
    | true, some base =>
      let r : DetectorResult :=
        { index := (base / 512).toNat + half, high := p.high, low := p.low, highAt := p.highAt, lowAt := p.lowAt
          flags := p.flags ||| flagIf c.hold 8 ||| flagIf c.alt 16 }
      s.setChan n (fun k => { k with halfPeaks := keep 64 k.halfPeaks r })
    | _, _ => s
  let x := s.chan n
  let s := put (put s 0 (x.spanPeak (2 * c.start) mid)) 1 (x.spanPeak mid (2 * c.stop))
  s.setChan n (fun k => { k with cycleRaw := k.cycleRaw.filter (fun r => c.stop ≤ 512 * r.tick) })

/-! ### One-cycle RMS (R132) -/

/-- The window of a channel that ends with half `half` of a cycle: samples 512 of the previous cycle to 511 of this one, or this cycle's. -/
def MeasState.rmsWindow (m : MeasState) (c : CycleRecord) (n half : Nat) : List (Option StreamSample) :=
  if half = 1 then nth c.samples n
  else
    match m.cycles with
    | [] => []
    | p :: _ => if p.number + 1 = c.number && p.stop = c.start then (nth p.samples n).drop 512 ++ (nth c.samples n).take 512 else []

/-- One RMS result of a channel: its history, the slow window (R96) and the recommendation of a sweep by the channel's recorded excitation
(R155). -/
def State.rmsResult (s : State) (n index time value flags : Nat) : State :=
  let s := s.setChan n (fun k =>
    { k with
      rms := keep 64 k.rms { index := index, high := value, highAt := time, flags := flags }
      excessRun := if 4 * (s.conv n).cal.recorded < value then sat 6 (k.excessRun + 1) else 0 })
  (s.windowSees n true value time).1

/-- The half-cycle value of a channel at an instant, which ends its window (R187). -/
def State.halfValue (s : State) (c : CycleRecord) (n half start stop : Nat) : State × Option HalfValue :=
  match rmsOver (s.meas.rmsWindow c n half) with
  | none => (s, none)
  | some (i, v, f) =>
    (s.rmsResult n (i / 512).toNat stop v f,
     if s.formsChannel n then
       some { channel := n, volts := s.meas.config.halfVolts n v
              flags := qualityOf f ||| s.meas.firstFlag 6 ||| s.pqFlag 0 n 1 start stop }
     else none)

/-- One half of a cycle: every channel's value in turn, then the voltage events of each system (R202) and the level-0 values (R187). -/
def State.halfCycle (s : State) (c : CycleRecord) (half : Nat) : State :=
  let end_ := c.start + (if half = 0 then c.len / 2 else c.len)
  let stop := s.stamp512 end_
  let start := s.stamp512 (end_ - c.len)
  let r := (List.range 24).foldl (fun (a : State × List HalfValue) n =>
    let x := a.1.halfValue c n half start stop
    (x.1, a.2 ++ x.2.toList)) (s, [])
  let s := (List.range 8).foldl (fun (s : State) k =>
    s.pqHalf k (r.2.filter (fun v => (s.meas.config.detects k).contains v.channel)) stop) r.1
  if r.2.isEmpty then s
  else
    { s with meas := { (s.meas.count 6) with
      latest := r.2.foldl (fun l v => putLatest l
        { value := { kind := 0, object := v.channel, quantity := 1, flags := v.flags, exact := some v.volts }
          sequence := s.meas.nextSequence 6, start := start, stop := stop }) s.meas.latest } }

/-! ### Powers and energies (R208-R212) -/

/-- The powers of an element at the grid instants of a cycle (R210). -/
def MeasConfig.elementGrid (c : MeasConfig) (r : CycleRecord) (e : Element) : List (Option GridPower) :=
  let k := c.factor e.voltage * c.factor e.current * (if e.inverted then -1 else 1)
  List.zipWith (fun (v i : Option StreamSample) =>
    match v, i with
    | some v, some i => some { power := k * (v.value * i.value : Int), flags := v.flags ||| i.flags }
    | _, _ => none) (nth r.samples e.voltage) (nth r.samples e.current)

/-- The grid of a system's Se: the channels it uses all have their samples. -/
def MeasConfig.systemGrid (c : MeasConfig) (r : CycleRecord) (sys : Nat) : List (Option GridPower) :=
  (List.range 1024).map (fun j =>
    let l := (c.seUses sys).map (fun n => nth (nth r.samples n) j)
    if l.all (fun x => x.isSome) then some { power := 0, flags := orAll (l.map (fun x => (x.map (fun y => y.flags)).getD 0)) }
    else none)

/-- An integrator over the cycle that has ended, with the cycle's Q1 and S; a new one covers from the start of the oldest tick that is
open. -/
def State.integrate (s : State) (c : CycleRecord) (system : Bool) (object : Nat) (grid : List (Option GridPower)) (q a : Option Rat) : State :=
  let x := (s.meas.integrators.find? (fun x => x.system = system && x.object = object)).getD
    { system := system, object := object, covered := s.meas.nextTick * tickGrid }
  let y := x.addCycle (s.integratorLost system object) c.start c.len grid q a
  { s with meas := { s.meas with
      integrators := s.meas.integrators.filter (fun x => !(x.system = system && x.object = object)) ++ [y] } }

/-- The energies of every element and system over the cycle (R210). -/
def State.integrateAll (s : State) (c : CycleRecord) : State :=
  let cfg := s.meas.config
  let s := cfg.elements.foldl (fun (s : State) e =>
    s.integrate c false e.current (cfg.elementGrid c e) (lookUp c.values 4 e.current 0x0A) (lookUp c.values 4 e.current 0x0B)) s
  cfg.seSystems.foldl (fun (s : State) k => s.integrate c true k (cfg.systemGrid c k) (some 0) (lookUp c.values 1 k 0x19)) s

/-- The frequency of a locked cycle (R188). -/
def State.frequencyOf (s : State) (c : CycleRecord) : List MeasValue :=
  if c.hold then []
  else
    [{ kind := 2, object := 255, quantity := 7
       flags := flagIf (!s.clock.epsValid) qfNoPps ||| flagIf c.alt qfAlt ||| s.meas.firstFlag 0
       exact := some (16000000 * 512 * (1 + s.clock.eps) / c.len) }]

/-- The level-0 values of the cycle: powers of elements and systems, and the frequency of a locked cycle (R188, R208, R209). -/
def State.cycleLatest (s : State) (c : CycleRecord) : State :=
  let seq := s.meas.nextSequence 0
  let vs := c.values ++ s.frequencyOf c
  { s with meas := { (if vs.isEmpty then s.meas else s.meas.count 0) with
      latest := vs.foldl (fun l v =>
        putLatest l { value := v, sequence := seq, start := s.stamp512 c.start, stop := s.stamp512 c.stop }) s.meas.latest } }

/-! ### Basic intervals (R179, R180) -/

/-- Whether a boundary of 10 minutes lies after an instant and at or before another. -/
def tenBoundaryBetween (a b : Nat) : Bool := a / tenTicks < b / tenTicks

/-- A basic interval starts with a cycle: after N cycles, after one that a SYNC cut, and with the first cycle at or after a boundary of 10
minutes (R179, R180, R185). -/
def State.basicStarts (s : State) (c : CycleRecord) : Bool :=
  match s.meas.basics.getLast?, s.meas.cycles with
  | some b, p :: _ =>
    let start := s.stamp512 c.start
    b.cut || s.meas.config.cyclesN ≤ b.cycles || tenBoundaryBetween (start - (c.start - p.start) / 512) start
  | _, _ => true

/-- The start of a basic interval, at which an accepted configuration may take effect, after the intervals complete by then (R177). -/
def State.openBasic (s : State) (c : CycleRecord) : State :=
  if s.basicStarts c then
    let s := match s.meas.acceptedAt with
      | some a =>
        if 512 * (a + Config.ms) < c.start then s.endOldestBasic.endOldestBasic.applyConfig (s.stamp512 c.start) (c.start / 512) else s
      | none => s
    { s with meas := { s.meas with basics := s.meas.basics ++
        [{ start := s.stamp512 c.start, from_ := c.start, stop := s.stamp512 c.start, first := c.number }] } }
  else s

/-- A cycle joins every basic interval in progress that is not full, and the cycles that the DSP holds for them and for the next RMS
window. -/
def State.growBasics (s : State) (c : CycleRecord) : State :=
  let n := s.meas.config.cyclesN
  let basics := s.meas.basics.map (fun (b : BasicOpen) =>
    if b.cut || n ≤ b.cycles then b else { b with cycles := b.cycles + 1, stop := s.stamp512 c.stop })
  { s with meas := { s.meas with
      basics := basics, cycles := c :: s.meas.cycles.filter (fun r => basics.any (fun b => b.first ≤ r.number)) } }

/-! ### The row -/

/-- The first locked cycle of a die's epoch numbers its synchronous samples (R106). -/
def State.baseCycles (s : State) (c : CycleRecord) : State :=
  { s with dies := s.dies.map (fun (d : Die) =>
      if d.cycleBase.isNone && !c.hold && decide (512 * d.epochTick ≤ c.start) then { d with cycleBase := some s.tracker.cycle }
      else d) }

/-- The tracker moves on to the next cycle. -/
def Tracker.advance (x : Tracker) (c : CycleRecord) : Tracker :=
  { x with
    start := c.stop, ends := x.ends.tail, cycle := x.cycle + 1, hold := c.hold, alt := c.alt
    before := if c.hold then x.before else x.period, period := if c.hold then x.period else c.len }

/-- One cycle of the grid. -/
def State.cycle (s : State) (c : CycleRecord) : State :=
  let r := ((s.baseCycles c).openBasic c).samples c
  let c := r.2
  let s := (List.range 24).foldl (fun (s : State) n => s.halfCyclePeaks c n) r.1
  let s := (s.halfCycle c 0).halfCycle c 1
  let values := (s.meas.config.cycleValues c).map (s.flagged [c] (s.stamp512 c.start) (s.stamp512 c.stop) (s.meas.firstFlag 0))
  let c := { c with values := values }
  let s := (((s.integrateAll c).cycleLatest c).growBasics c)
  { s with
    tracker := s.tracker.advance c
    meas := { s.meas with freq := s.meas.freq ++ [(c.start, c.stop, c.common)] } }

/-- SYNCHRONOUS_CYCLE (R122): the cycle in progress, once its end `next512` is known and every narrowband sample it is computed from has been
delivered. -/
def execSynchronousCycle (t next512 : Nat) (s : State) : Out :=
  let s := s.tickTo t
  .next
    (if s.tracker.state = 0 || 512 * s.now < next512 + 512 * syncReach then s
    else
      match s.tracker.cycleTo next512 with
      | none => s
      | some c => s.cycle c)

end Sys2Proof.Machine
end

