-- ==== Sys2Proof/Machine/Measure.lean ====
section
/-! DEFINITION. Group 05h: MEAS_CONFIG, MEAS_READ, PQ_EVENT_CONFIG, HARMONIC_READ, FLICKER_READ (chapter 06, R489-R491). -/

namespace Sys2Proof.Machine

/-! ### MEAS_CONFIG (R174-R177, R506) -/

/-- A binary32 field of the payload. -/
def Req.f32 (r : Req) (off : Nat) : F32 := BitVec.ofNat 32 (r.u off 4)

/-- A binary32 number lies within two bounds. -/
def f32Within (x : F32) (a b : Rat) : Bool := (ofF32 x).any (fun v => decide (a ≤ v) && decide (v ≤ b))

/-- The configuration of Table 16.13. -/
def Req.measConfig (r : Req) : MeasConfig :=
  { nominal := r.u 0 1
    signalling := (List.range 4).map (fun k => r.u (4 + 2 * k) 2)
    systems := (List.range 8).map (fun k => { connection := r.u (12 + 8 * k) 1, udin := r.f32 (12 + 8 * k + 4) })
    channels := (List.range 24).map (fun n =>
      let b := 76 + 12 * n
      { role := r.u b 1, polarity := r.u (b + 1) 1, system := r.u (b + 2) 1, position := r.u (b + 3) 1
        flicker := r.u (b + 4) 1, scale := r.f32 (b + 8) }) }

/-- The ranges of Table 6.1, and reserved bytes zero. -/
def Req.measRanges (r : Req) : Bool :=
  let c := r.measConfig
  c.nominal ≤ 1 && r.zero 1 3 && c.signalling.all (fun f => f = 0 || (1000 ≤ f && f ≤ 30000)) &&
  (List.range 8).all (fun k => r.zero (12 + 8 * k + 1) 3) && (List.range 24).all (fun n => r.zero (76 + 12 * n + 5) 3) &&
  c.systems.all (fun x => x.connection ≤ 3 && (x.connection = 0 || f32Within x.udin 1 1000000)) &&
  c.channels.all (fun x =>
    x.role ≤ 5 && x.polarity ≤ 1 && (x.system ≤ 7 || x.system = 255) && x.position ≤ 3 && x.flicker ≤ 2 &&
    f32Within x.scale (1 / 1000) 1000000)

/-- The role a position takes in a system (Table 6.2): 0 voltage, 1 current. -/
def allowedRole (connection position : Nat) (volt : Bool) : Option Nat :=
  match connection, position, volt with
  | 1, 0, true => some 1
  | 1, 0, false => some 4
  | 1, 3, true => some 3
  | 1, 3, false => some 5
  | 2, 3, true => some 3
  | 2, 3, false => some 5
  | 2, _, true => some 1
  | 2, _, false => some 4
  | 3, 3, _ => none
  | 3, _, true => some 2
  | 3, _, false => some 4
  | _, _, _ => none

/-- The positions a system must fill: position and voltage or current. -/
def requiredPositions (connection : Nat) : List (Nat × Bool) :=
  match connection with
  | 1 => [(0, true), (0, false)]
  | 2 => [(0, true), (1, true), (2, true)]
  | 3 => [(0, true), (1, true), (0, false), (2, false)]
  | _ => []

/-- The composition of one system (R175, Table 6.2). -/
def MeasConfig.composed (c : MeasConfig) (sys : Nat) : Bool :=
  let k := (nth c.systems sys).connection
  (c.members sys).all (fun n =>
    let x := nth c.channels n
    allowedRole k x.position (isVoltage x.role) = some x.role &&
    (c.members sys).all (fun m => m = n || !((nth c.channels m).position = x.position &&
      isVoltage (nth c.channels m).role = isVoltage x.role))) &&
  (requiredPositions k).all (fun p => (c.at sys p.1 p.2).isSome)

/-- Whether flicker is on only for channels of role 1 or 2 (R177). -/
def MeasConfig.flickerRoles (c : MeasConfig) : Bool := c.channels.all (fun x => x.flicker = 0 || x.role = 1 || x.role = 2)

/-- A bound channel would change from the configuration last accepted (R177), unless its role there is 0 (R506, log 102). -/
def State.changesBound (s : State) (c : MeasConfig) : Bool :=
  (List.range 24).any (fun n =>
    s.bound n && (nth s.meas.accepted.channels n).role ≠ 0 && (nth s.meas.accepted.channels n).core ≠ (nth c.channels n).core)

/-- A live local context binds a channel without a role, and the request does not give every context its elements
(R506). -/
def State.missesElements (s : State) (c : MeasConfig) : Bool :=
  (List.range 24).any (fun n => s.bound n && (nth s.meas.accepted.channels n).role = 0) &&
  !s.localContexts.all (fun x => c.fits x.currents x.voltages x.method)

/-- What an accepted request sets at once: event parameters of systems whose connection changes (R201), and U_sr of the
systems it touches (R205). -/
def State.acceptConfig (s : State) (c : MeasConfig) : State :=
  let old := s.meas.accepted
  let touched := touchedSystems old c
  { s with meas := { s.meas with
      accepted := c, acceptedAt := some s.now
      pq := s.meas.pq.mapIdx (fun k p => if (nth old.systems k).connection ≠ (nth c.systems k).connection then {} else p)
      sliding := s.meas.sliding.mapIdx (fun n u =>
        let k := (nth c.channels n).system
        if touched.contains k then f32Val (nth c.systems k).udin else u) } }

def measConfigRow : Row where
  opcode := 0x0501
  valid := fun r _ =>
    r.measRanges && (List.range 8).all (fun k => r.measConfig.composed k) && r.measConfig.flickerRoles
  body := fun r s =>
    let c := r.measConfig
    judged
      [ (s.changesBound c || s.missesElements c, stWrongState),
        (8 < (c.channels.filter (fun x => x.flicker ≠ 0)).length, stNoResource) ] s
      (.done stOk [] (s.acceptConfig c))

def execMeasConfig (t : Nat) (p : Port) (s : State) : Out := .next (measConfigRow.serve t p s)

/-! ### Reading blocks (R213, R214, Tables 6.9-6.12) -/

/-- The history of a level (Table 6.9). -/
def historySize (level : Nat) : Nat :=
  match level with
  | 0 => 1
  | 1 => 16
  | 2 => 16
  | 3 => 144
  | 4 => 12
  | _ => 64

/-- The blocks held of a level, newest first; the supraharmonics have their own at levels 1, 3 and 4 (R197). -/
def MeasState.blocks (m : MeasState) (level : Nat) (supra : Bool) : List MeasBlock :=
  match level with
  | 0 => []
  | 1 => if supra then m.supra else m.basic
  | 2 => m.group
  | 3 => if supra then m.supraTen else m.ten
  | 4 => if supra then m.supraTwo else m.two
  | _ => m.second

/-- The blocks of a level that hold a value which `mine` accepts. Level 0 has the latest values, with the period of the first of them. -/
def MeasState.blocksOf (m : MeasState) (level : Nat) (supra : Bool) (mine : MeasValue → Bool) : List MeasBlock :=
  if level = 0 then
    match m.latest.find? (fun v => mine v.value) with
    | some v => [{ sequence := v.sequence, start := v.start, stop := v.stop, parts := 1, values := m.latest.map (fun x => x.value) }]
    | none => []
  else (m.blocks level supra).filter (fun b => b.values.any mine)

/-- The header of Table 6.11 for the values read; a value of an aggregation knows its constituents. -/
def MeasBlock.header (b : MeasBlock) (level kind object : Nat) (vs : List MeasValue) : List Byte :=
  le 1 level ++ le 1 kind ++ le 1 object ++ zeros 1 ++ le 4 b.sequence ++ le 8 b.start ++ le 8 b.stop ++
  le 2 (vs.foldl (fun a v => max a v.parts) 0) ++
  le 2 (orAll (vs.map (fun v => v.flags))) ++ le 2 vs.length ++ zeros 2

/-- A value of a block; one it does not hold is not formed. -/
def MeasBlock.find (b : MeasBlock) (kind object quantity : Nat) : MeasValue :=
  (b.values.find? (fun v => v.kind = kind && v.object = object && v.quantity = quantity)).getD
    { kind := kind, object := object, quantity := quantity, flags := qfGap, parts := 0 }

/-- The quantities a channel has at a level (Table 6.10, R187, R194, R213). -/
def MeasConfig.channelHas (c : MeasConfig) (n level q : Nat) : Bool :=
  let x := nth c.channels n
  let inSystem : Bool := isVoltage x.role && decide (x.system ≤ 7)
  x.role ≠ 0 &&
  (if level = 0 then q = 1
  else level ≤ 4 && ((1 ≤ q && q ≤ 4) || (inSystem && (q = 5 || q = 6)) ||
    (inSystem && 0x20 ≤ q && q ≤ 0x23 && nth c.signalling (q - 0x20) ≠ 0)))

/-- The quantities of an element, named by its current channel. -/
def MeasConfig.elementHas (c : MeasConfig) (n level q : Nat) : Bool :=
  (c.elementOf n).isSome && level ≤ 4 && 8 ≤ q && q ≤ 0x13

/-- The quantities of a system (R200, R209). -/
def MeasConfig.systemHas (c : MeasConfig) (k level q : Nat) : Bool :=
  let conn := (nth c.systems k).connection
  let phases := [0, 1, 2].all (fun p => (c.at k p false).isSome)
  level ≤ 4 &&
  ((q = 0x18 && !(c.elementsOf k).isEmpty) || ((q = 0x19 || q = 0x1A) && c.seSystems.contains k) ||
   (level ≠ 0 && ((q = 0x14 && (conn = 2 || conn = 3)) || (q = 0x15 && conn = 2) ||
     (q = 0x16 && ((conn = 2 && phases) || conn = 3)) || (q = 0x17 && conn = 2 && phases))))

/-- Whether the object of a MEAS_READ has a quantity at a level. -/
def MeasConfig.has (c : MeasConfig) (kind object level q : Nat) : Bool :=
  match kind with
  | 0 => c.channelHas object level q || c.elementHas object level q
  | 1 => c.systemHas object level q
  | 2 => q = 7 && (level = 0 || level = 5)
  | _ => level ≤ 4 && 8 ≤ q && q ≤ 0x10

/-- A quantity of a context (R213, Table 6.10): P, P1 and Q1 summed over its elements with its orientation (R9), S and S1 summed, and SN, N,
PF and PF1 of those sums. -/
def MeasBlock.contextValue (b : MeasBlock) (c : Context) (q : Nat) : MeasValue :=
  let is := (c.currents.zipIdx).filter (fun x => x.1 < 24)
  let part := fun (q : Nat) => is.map (fun x => (b.find 4 x.1 q, x.2))
  let signed := fun (q : Nat) => 8 ≤ q && q ≤ 0x0A
  let sum := fun (q : Nat) =>
    let l := part q
    if l.all (fun v => v.1.exact.isSome) then
      some (l.foldl (fun (a : Rat) v => a + (if signed q && bit c.orientation v.2 then -(v.1.exact.getD 0) else v.1.exact.getD 0)) 0)
    else none
  let both := fun (x y : Nat) (f : Rat → Rat → Rat) => (sum x).bind (fun u => (sum y).map (fun v => f u v))
  let r : List Nat × Option Rat :=
    match q with
    | 0x0D => ([0x0B, 0x0C], both 0x0B 0x0C (fun u v => rootRat (u * u - v * v)))
    | 0x0E => ([0x0B, 8], both 0x0B 8 (fun u v => rootRat (u * u - v * v)))
    | 0x0F => ([8, 0x0B], both 8 0x0B (quotient 3))
    | 0x10 => ([9, 0x0C], both 9 0x0C (quotient 3))
    | _ => ([q], sum q)
  { kind := 3, object := c.slot, quantity := q, exact := r.2
    flags := orAll (r.1.flatMap (fun q => (part q).map (fun v => v.1.flags)))
    parts := (r.1.flatMap (fun q => (part q).map (fun v => v.1.parts))).foldl max 0 }

/-- A quantity of the object read. -/
def MeasBlock.read (b : MeasBlock) (c : MeasConfig) (ctx : Option Context) (kind object q : Nat) : MeasValue :=
  match ctx with
  | some x => b.contextValue x q
  | none => if kind = 0 && 8 ≤ q && q ≤ 0x13 && (c.elementOf object).isSome then b.find 4 object q else b.find kind object q

/-- The record of Table 6.12. -/
def MeasValue.record (v : MeasValue) : List Byte := le 2 v.quantity ++ le 2 v.flags ++ f32Bytes v.value

/-- The live context of a handle. -/
def State.ctxOf (s : State) (h : Nat) : Option Context := s.bill.live.find? (fun c => ctxHandle c = h)

/-- Until a park completes, every request on the handle but CTX_READ receives BUSY (R253). -/
def unparked (f : Req → State → Answer) (r : Req) (s : State) : Answer :=
  match s.ctxOf r.handle with
  | some c => if bit c.state 1 then refuse stBusy s else f r s
  | none => f r s

/-- The quantity codes of a MEAS_READ. -/
def Req.quantities (r : Req) : List Nat := (List.range (r.u 4 1)).map (fun k => r.u (8 + k) 1)

/-- The object named fits the handle (R490). -/
def Req.measObject (r : Req) : Bool :=
  if r.handle ≠ 0 then r.u 0 1 = 3 && r.u 1 1 = hElem r.handle
  else
    match r.u 0 1 with
    | 0 => r.u 1 1 < 24
    | 1 => r.u 1 1 < 8
    | 2 => r.u 1 1 = 255
    | _ => false

/-- The kind of the values that a quantity of a MEAS_READ is read from: an element's are named by its current channel. -/
def Req.valueKind (r : Req) (q : Nat) : Nat :=
  if r.handle ≠ 0 || (r.u 0 1 = 0 && 8 ≤ q && q ≤ 0x13) then 4 else r.u 0 1

/-- The blocks that a MEAS_READ may name by age for a quantity, newest first: those of its level that hold a value of its object and kind. -/
def State.blocksRead (s : State) (r : Req) (q : Nat) : List MeasBlock :=
  s.meas.blocksOf (r.u 2 1) false (fun v => v.kind = r.valueKind q &&
    (match s.ctxOf r.handle with
     | some c => c.currents.contains v.object
     | none => r.u 0 1 = 2 || v.object = r.u 1 1))

/-- A quantity at the age that a MEAS_READ names. A change of configuration may have closed an element's values apart from its channel's
(R177), so each kind has its own age. -/
def State.readQuantity (s : State) (r : Req) (q : Nat) : MeasValue :=
  (((s.blocksRead r q)[r.u 3 1]?).getD {}).read s.meas.accepted (s.ctxOf r.handle) (r.u 0 1) (r.u 1 1) q

def measReadRow : Row where
  opcode := 0x0502
  valid := fun r s =>
    r.measObject && r.u 2 1 ≤ 5 && r.u 3 1 < historySize (r.u 2 1) && 1 ≤ r.u 4 1 && r.u 4 1 ≤ 32 && r.zero 5 3 &&
    (match s.ctxOf r.handle with
     | some c => c.kind ≠ 1
     | none => true) &&
    r.quantities.all (fun q => s.meas.accepted.has (r.u 0 1) (r.u 1 1) (r.u 2 1) q)
  body := unparked (fun r s =>
    match (s.blocksRead r (nth r.quantities 0))[r.u 3 1]? with
    | none => refuse stWrongState s
    | some b =>
      let vs := r.quantities.map (fun q => s.readQuantity r q)
      .done stOk (b.header (r.u 2 1) (r.u 0 1) (r.u 1 1) vs ++ vs.flatMap MeasValue.record) s)

def execMeasRead (t : Nat) (p : Port) (s : State) : Out := .next (measReadRow.serve t p s)

/-- The orders or bands of a HARMONIC_READ type. -/
def orderRange (type : Nat) : Nat × Nat :=
  match type with
  | 0 => (1, 100)
  | 1 => (1, 100)
  | 4 => (1, 100)
  | 5 => (0, 34)
  | 6 => (0, 70)
  | 7 => (0, 70)
  | _ => (0, 99)

/-- The levels of a type (R490). -/
def typeLevel (type level : Nat) : Bool :=
  if type ≤ 3 then 1 ≤ level && level ≤ 4
  else if type = 4 then level = 1
  else level = 1 || level = 3 || level = 4

def harmonicReadRow : Row where
  opcode := 0x0504
  valid := fun r s =>
    let ty := r.u 3 1
    let g := orderRange ty
    r.u 0 1 < 24 && ty ≤ 7 && typeLevel ty (r.u 1 1) && r.u 2 1 < historySize (r.u 1 1) && r.zero 6 2 &&
    1 ≤ r.u 5 1 && r.u 5 1 ≤ 100 && g.1 ≤ r.u 4 1 && r.u 4 1 + r.u 5 1 ≤ g.2 + 1 &&
    (nth s.meas.accepted.channels (r.u 0 1)).role ≠ 0
  body := fun r s =>
    match (s.meas.blocksOf (r.u 1 1) (decide (5 ≤ r.u 3 1)) (fun v => 16 ≤ v.kind && v.object = r.u 0 1))[r.u 2 1]? with
    | none => refuse stWrongState s
    | some b =>
      let vs := (List.range (r.u 5 1)).map (fun k => b.find (16 + r.u 3 1) (r.u 0 1) (r.u 4 1 + k))
      .done stOk (b.header (r.u 1 1) 0 (r.u 0 1) vs ++ vs.flatMap (fun v => f32Bytes v.value)) s

def execHarmonicRead (t : Nat) (p : Port) (s : State) : Out := .next (harmonicReadRow.serve t p s)

/-- The latest flicker value of a channel (R199). -/
def MeasState.flickerOf (m : MeasState) (n q : Nat) : MeasValue :=
  (m.flicker.find? (fun v => v.object = n && v.quantity = q)).getD { object := n, quantity := q }

/-- The end of its period. -/
def MeasState.flickerTime (m : MeasState) (n q : Nat) : Nat :=
  ((m.flickerTimes.find? (fun x => x.1 = n && x.2.1 = q)).map (fun x => x.2.2)).getD 0

def flickerReadRow : Row where
  opcode := 0x0505
  body := fun r s =>
    let n := unitOf r.handle
    let vs := [0, 1, 2].map (fun q => s.meas.flickerOf n q)
    judged [((nth s.meas.accepted.channels n).flicker = 0, stWrongState)] s
      (.done stOk (vs.flatMap (fun v => f32Bytes v.value) ++ vs.flatMap (fun v => le 2 v.flags) ++ zeros 6 ++
        [0, 1, 2].flatMap (fun q => le 8 (s.meas.flickerTime n q))) s)

def execFlickerRead (t : Nat) (p : Port) (s : State) : Out := .next (flickerReadRow.serve t p s)

/-! ### PQ_EVENT_CONFIG (R201, R491) -/

/-- The parameters of Table 16.15. -/
def Req.pqParams (r : Req) : PqParams :=
  { dip := r.u 4 2, swell := r.u 6 2, interruption := r.u 8 2, hysteresis := r.u 10 2, sliding := r.u 1 1, rvc := r.u 12 2
    rvcHysteresis := r.u 14 2, pst := r.u 16 2, thd := r.u 18 2, orders := (List.range 24).map (fun h => r.u (24 + 2 * h) 2)
    unbalance := r.u 20 2, enables := r.u 2 1 }

/-- The ranges of Table 6.4 and the conditions of R201. -/
def PqParams.valid (p : PqParams) : Bool :=
  500 ≤ p.dip && p.dip ≤ 990 && 1010 ≤ p.swell && p.swell ≤ 2000 && 10 ≤ p.interruption && p.interruption ≤ 500 &&
  1 ≤ p.hysteresis && p.hysteresis ≤ 100 && p.sliding ≤ 1 && 10 ≤ p.rvc && p.rvc ≤ 100 && 1 ≤ p.rvcHysteresis &&
  p.rvcHysteresis ≤ 99 && 10 ≤ p.pst && p.pst ≤ 2000 && 1 ≤ p.thd && p.thd ≤ 1000 && 1 ≤ p.unbalance && p.unbalance ≤ 200 &&
  p.orders.all (fun o => o ≤ 1000) && p.interruption + p.hysteresis < p.dip && p.rvcHysteresis < p.rvc && p.rvc + p.dip < 1000

def pqEventConfigRow : Row where
  opcode := 0x0503
  valid := fun r _ =>
    if r.u 0 1 = 255 then
      r.u 2 1 &&& 0xEF = 0 && r.zero 1 1 && r.zero 3 19 && 1 ≤ r.u 22 2 && r.u 22 2 ≤ 500 && r.zero 24 48
    else r.u 0 1 ≤ 7 && !bit (r.u 2 1) 4 && r.zero 3 1 && r.zero 22 2 && r.pqParams.valid
  body := fun r s =>
    if r.u 0 1 = 255 then .done stOk [] { s with meas := { s.meas with band := r.u 22 2, bandOn := bit (r.u 2 1) 4 } }
    else
      let k := r.u 0 1
      judged [((nth s.meas.accepted.systems k).connection = 0, stWrongState)] s
        (.done stOk [] { s with meas := { s.meas with pq := alter s.meas.pq k (fun _ => r.pqParams) } })

def execPqEventConfig (t : Nat) (p : Port) (s : State) : Out := .next (pqEventConfigRow.serve t p s)

end Sys2Proof.Machine
end

