-- ==== Sys2Proof/Machine/Intervals.lean ====
section
/-! DEFINITION. The rows that end measurement periods: BASIC_INTERVAL_END (R183), AGGREGATE_150_180_CYCLE (R181), TEN_MINUTE_PERIOD_END
(R180), TWO_HOUR_WINDOW_END (R182), TEN_SECOND_FREQUENCY (R189), SUPRAHARMONIC_BLOCK_END (R195) and PINST_SECOND (R198). -/

namespace Sys2Proof.Machine

/-- BASIC_INTERVAL_END (R183). -/
def execBasicIntervalEnd (t : Nat) (s : State) : Out := .next (s.tickTo t).endOldestBasic

/-! ### 150/180 cycles (R181) -/

/-- The basic intervals that complete a track's 150/180-cycle value: 15 consecutive ones, or what a 10-minute boundary leaves once no later
one can join. -/
def MeasState.groupDone (m : MeasState) (t : Track) : List MeasBlock :=
  match m.groupParts.filter (fun b => t.since ≤ b.tick) with
  | [] => []
  | b :: l =>
    let period := b.start / tenTicks
    let mine := ((b :: l).takeWhile (fun x => x.start / tenTicks = period)).take 15
    let later := (b :: l).any (fun x => period < x.start / tenTicks) || m.basics.any (fun x => period < x.start / tenTicks)
    let left := m.basics.any (fun x => x.start / tenTicks = period)
    if mine.length = 15 || (later && !left) then mine else []

/-- A track's 150/180-cycle value, if it is complete; the count goes on after its last interval. -/
def MeasState.closeGroupOf (m : MeasState) (t : Track) : MeasState × Track :=
  match (m.groupDone t).getLast? with
  | none => (m, t)
  | some b => (m.closeGroup t (t.among (m.groupDone t)) 0, { t with start := none, since := b.tick + 1 })

/-- The tracks that count from the same interval become one again. -/
def joinTracks (l : List Track) : List Track :=
  l.foldl (fun (a : List Track) t =>
    match a.find? (fun x => x.since = t.since && x.start = t.start && x.flags = t.flags) with
    | some x => a.filter (fun y => y ≠ x) ++ [{ x with objects := x.objects ++ t.objects }]
    | none => a ++ [t]) []

/-- AGGREGATE_150_180_CYCLE (R181). -/
def execAggregate150180 (t : Nat) (s : State) : Out :=
  let s := s.tickTo t
  let r := s.meas.groups.foldl (fun (a : MeasState × List Track) t =>
    let x := a.1.closeGroupOf t
    (x.1, a.2 ++ [x.2])) (s.meas, [])
  let groups := joinTracks r.2
  .next { s with meas := { r.1 with
    groups := groups, groupParts := r.1.groupParts.filter (fun b => groups.any (fun t => t.since ≤ b.tick)) } }

/-! ### 10 minutes and 2 hours (R180, R182) -/

/-- While the tracker acquires, a lock may still start at a crossing before a stamp: crossings within 3 ms are still to come, and a valid one
that is held goes on for an interval of 23.53 ms at most (R121, R123). -/
def State.mayLockBefore (s : State) (stop : Nat) : Bool :=
  decide (s.stampNow < stop + 3 * Config.ms) ||
  s.tracker.chains.any (fun c =>
    s.tracker.candidates.contains c.1 && (c.2.take 2).any (fun x => x.2 && decide (s.stamp512 x.1 < stop)) &&
    c.2.head?.any (fun x => decide (512 * s.now ≤ x.1 + 512 * 27 * Config.ms)))

/-- Every cycle that starts before a stamp has been produced, so that none can start a basic interval before it. -/
def State.cyclesReach (s : State) (stop : Nat) : Bool :=
  if s.tracker.state = 0 then !s.mayLockBefore stop else decide (stop ≤ s.stamp512 s.tracker.start)

/-- Every supraharmonic block that starts before a stamp has ended. -/
def State.blocksReach (s : State) (stop : Nat) : Bool :=
  [1, 2, 3, 4, 5].all (fun d => (s.blockChannels d).isEmpty || (s.die d).epoch = 0 || decide (stop ≤ s.stamp (s.blockTick d)))

/-- TEN_MINUTE_PERIOD_END (R180): every basic interval and every block that started in the period has ended. -/
def execTenMinutePeriodEnd (t : Nat) (s : State) : Out :=
  let s := s.tickTo t
  .next
    (match s.meas.tenStart with
     | none => s
     | some a =>
       let stop := multipleAfter tenTicks a
       if stop ≤ s.stampNow && s.meas.cut.isEmpty && s.meas.basics.all (fun b => stop ≤ b.start) && s.cyclesReach stop &&
           s.blocksReach stop then
         (s.meas.tens.foldl (fun (s : State) t => s.closePsts t a stop s.meas.tenFlags (fun k => k < stop / tenTicks)) s).closeTen
           (fun b => b.start < stop) stop stop 0 0
       else s)

/-- TWO_HOUR_WINDOW_END (R182): every 10-minute period that started in the window has ended. -/
def execTwoHourWindowEnd (t : Nat) (s : State) : Out :=
  let s := s.tickTo t
  .next
    (match s.meas.twoStart with
     | none => s
     | some a =>
       let stop := multipleAfter twoTicks a
       if stop ≤ s.stampNow && s.meas.cut.isEmpty && s.meas.tenStart.all (fun x => stop ≤ x) then
         s.closeTwo (fun b => b.start < stop) stop stop 0 0
       else s)

/-! ### 10-second frequency (R189, R207) -/

/-- The block of a window from the cycles that lie wholly within it. -/
def State.frequencyBlock (s : State) (start stop : Nat) : MeasBlock :=
  let inside := s.meas.freq.filter (fun c => start ≤ s.stamp512 c.1 && s.stamp512 c.2.1 ≤ stop)
  let locked := inside.filter (fun c => !has c.2.2 qfHold)
  let sum : Nat := locked.foldl (fun (a : Nat) c => a + (c.2.1 - c.1)) 0
  let flags := orAll (inside.map (fun c => c.2.2)) ||| flagIf (!s.clock.epsValid) qfNoPps ||| s.meas.firstFlag 5
  let f : Rat := (locked.length : Rat) * 16000000 * 512 * (1 + s.clock.eps) / (sum : Rat)
  { sequence := s.meas.nextSequence 5, start := start, stop := stop, parts := locked.length, flags := flags
    values := [{ kind := 2, object := 255, quantity := 7, flags := flags, parts := locked.length
                 exact := if locked.isEmpty then none else some f }] }

/-- Event source 86: the frequency outside nominal ± the band (R207). -/
def State.bandLimit (s : State) (b : MeasBlock) : State :=
  match b.number 2 255 7 with
  | none => s
  | some f =>
    let nominal : Rat := if s.meas.config.nominal = 0 then 50 else 60
    let band : Rat := (s.meas.band : Rat) / 100
    s.limitEvent 86 0 0 s.meas.bandOn (decide (f < nominal - band) || decide (nominal + band < f)) (toF32 f)
      (toF32 (if f < nominal then nominal - band else nominal + band)) [] b.stop

/-- No further cycle can lie wholly within a window that ends at `stop`. -/
def State.cyclesPast (s : State) (stop : Nat) : Bool :=
  (s.tracker.state = 0 && !s.mayLockBefore stop) || (s.tracker.state ≠ 0 && stop ≤ s.stamp512 s.tracker.start) || s.tracker.ends.head?.any (fun e => stop < s.stamp512 e.at512)

/-- The window in progress closes, and the next starts at `next`. -/
def State.closeSecond (s : State) (start next : Nat) : State :=
  let stop := start + tenSecTicks
  let b := s.frequencyBlock start stop
  State.bandLimit { s with meas := { (s.meas.push 5 b) with
    secondStart := some next, freq := s.meas.freq.filter (fun c => stop < s.stamp512 c.2.1) } } b

/-- The start of the 10-second window in progress: that of the first cycle's at first. -/
def State.secondFrom (s : State) : Option Nat :=
  match s.meas.secondStart with
  | some x => some x
  | none => s.meas.freq.head?.map (fun c => s.stamp512 c.1 / tenSecTicks * tenSecTicks)

/-- TEN_SECOND_FREQUENCY (R189). -/
def execTenSecondFrequency (t : Nat) (s : State) : Out :=
  let s := s.tickTo t
  .next
    (match s.secondFrom with
     | none => s
     | some start =>
       if start + tenSecTicks ≤ s.stampNow && s.cyclesPast (start + tenSecTicks) then s.closeSecond start (start + tenSecTicks) else s)

/-- A clock adjustment to A': the 10-second windows go on in new time; one that A' has left behind closes first (R189, log 75). -/
def State.cutSecond (s : State) (a' : Nat) : State :=
  let next := a' / tenSecTicks * tenSecTicks
  match s.secondFrom with
  | none => s
  | some start => if start < next then s.closeSecond start next else { s with meas := { s.meas with secondStart := some next } }

/-- A clock adjustment to A': the UTC seconds from A' on come again, or for the first time, and their largest Pinst is taken afresh (R198). -/
def State.cutPinst (s : State) (a a' : Nat) : State :=
  if a / secTicks ≤ a' / secTicks then s
  else
    { s with meas := { s.meas with
        pinstAt := min s.meas.pinstAt (a' / secTicks * secTicks)
        meters := s.meas.meters.map (fun x => { x with
          seconds := x.seconds.filter (fun y => y.1 < a' / secTicks)
          secondFlags := x.secondFlags.filter (fun y => y.1 < a' / secTicks) }) } }

/-! ### Supraharmonics and Pinst (R195-R198) -/

/-- SUPRAHARMONIC_BLOCK_END (R195): on each die, the block whose last wideband sample has been delivered. -/
def execSupraharmonicBlockEnd (t : Nat) (s : State) : Out :=
  let s := s.tickTo t
  .next (State.settleCut ([1, 2, 3, 4, 5].foldl (fun (s : State) d => s.endBlock d) s))

/-- The largest Pinst of a channel over the UTC second that ends at `second`, with the flags of every sample of the second and PQFLAG
(R184, R198). -/
def State.pinstMax (s : State) (n second : Nat) : MeasValue :=
  let m := nth s.meas.meters n
  let x := m.seconds.find? (fun y => (y.1 + 1) * secTicks = second)
  let flags := orAll ((m.secondFlags.filter (fun y => (y.1 + 1) * secTicks = second)).map (fun y => y.2))
  { kind := 0, object := n, quantity := 2, exact := x.map (fun y => y.2)
    flags := flags ||| s.pqFlag 0 n 2 (second - secTicks) second ||| flagIf (x.isNone || s.meterEndsBefore m second) qfGap }

/-- PINST_SECOND (R198): the largest Pinst of the last UTC second whose wideband samples have been delivered. -/
def execPinstSecond (t : Nat) (s : State) : Out :=
  let s := s.tickTo t
  let second := (s.stampNow - 1600) / secTicks * secTicks
  .next
    (if s.meas.pinstAt < second then
      let m := s.flickerChannels.foldl (fun (m : MeasState) n => m.putFlicker (s.pinstMax n second) second) s.meas
      { s with meas := { m with
          pinstAt := second
          meters := m.meters.map (fun x => { x with
            seconds := x.seconds.filter (fun y => second ≤ y.1 * secTicks)
            secondFlags := x.secondFlags.filter (fun y => second ≤ y.1 * secTicks) }) } }
    else s)

end Sys2Proof.Machine
end

