-- ==== Sys2Proof/Machine/Prepay.lean ====
section
/-! DEFINITION. Prepayment: charges (R256, R257), the states of Table 8.1, emergency credit (R260), friendly hours (R262) and
the relays (R263, R264). -/

namespace Sys2Proof.Machine

/-! ### Charges -/

/-- The charge for import active energy `e` in µWh at tariff `t` (R256). -/
def Prepay.charge (p : Prepay) (t e : Nat) : Prepay :=
  let r := p.remainder + nth p.prices t * e
  let c := r / 1000000000
  { p with remainder := r % 1000000000, credit := p.credit - c, charged := p.charged + c }

/-- One day's standing charge, for the local midnight given (R257). -/
def Prepay.standDay (p : Prepay) (midnight : Nat) : Prepay :=
  { p with credit := p.credit - p.standing, standingCharged := p.standingCharged + p.standing, lastDay := midnight }

/-! ### Relays (R263, R264) -/

/-- The context a relay is bound to: prepayment on, and the relay named (R255). -/
def State.boundTo (s : State) (relay : Nat) : Option Context :=
  s.bill.live.find? (fun c => c.kind ≠ 1 && c.prepay.mode = 1 && c.prepay.relay = relay)

/-- A relay takes a level; a change raises event source 98 with its cause: 0 credit, 1 friendly end, 2 command, 3 button.
Relays hold their level from a power warning until the commit has ended (Table 14.2). -/
def State.setRelay (s : State) (k : Nat) (closed : Bool) (cause : Nat) : State :=
  if k ≥ 4 || s.warned || (nth s.bill.relays k).closed = closed then s
  else
    let bound := s.boundTo k
    let s := { s with bill := { s.bill with
      relays := alter s.bill.relays k (fun r => { r with closed := closed, lastChange := s.stampNow }) } }
    let s := match bound with
      | some c => s.setCtx c.serial (fun c => { c with prepay := { c.prepay with lastChange := s.stampNow } })
      | none => s
    let items := octets [k, ofBool closed, cause]
    s.raise 98 s.stampNow (match bound with
      | some c => ctxBody c items
      | none => objBody 0 items)

/-! ### States (Table 8.1) -/

/-- What a context may consume before it is disconnected: C + G. -/
def Prepay.left (p : Prepay) : Int := p.credit + p.emergency

/-- The state that the credit gives while C + G > 0 (R259). -/
def Prepay.creditState (p : Prepay) : Nat := if p.emergency > 0 then 3 else if p.credit < p.low then 2 else 1

/-- The state that a re-evaluation gives (R259). -/
def Prepay.decide (p : Prepay) : Nat :=
  if p.mode = 0 then 0
  else if p.hold = 1 then 5
  else if p.state = 5 then (if p.left > 0 then 6 else 5)
  else if p.state = 6 then (if p.left > 0 then 6 else 5)
  else if p.left > 0 then p.creditState
  else if p.friendly ≠ 0 then 4
  else 5

/-- The items of events 95 to 97: C, G, state. -/
def Prepay.items (p : Prepay) : List Byte := leInt 8 p.credit ++ le 8 p.emergency ++ le 1 p.state

/-- An event about a context by its serial. -/
def State.raiseCtx (s : State) (source serial : Nat) (items : Context → List Byte) : State :=
  match s.live serial with
  | some c => s.raise source s.stampNow (ctxBody c (items c))
  | none => s

/-- A prepayment context enters a state: its count, its events, and the relay that the state gives (Table 8.1). -/
def State.enterState (s : State) (serial new cause : Nat) : State :=
  match s.live serial with
  | none => s
  | some c =>
    let old := c.prepay.state
    let s := s.setCtx serial (fun c =>
      { c with prepay := { c.prepay with
          state := new, disconnections := if new = 5 && old ≠ 5 then sat 16 (c.prepay.disconnections + 1)
            else c.prepay.disconnections } })
    let s := if old = new then s
      else if new = 2 then s.raiseCtx 95 serial (fun c => c.prepay.items)
      else if new = 4 || (new = 5 && c.prepay.hold = 0) then s.raiseCtx 96 serial (fun c => c.prepay.items)
      else s
    if c.prepay.mode = 1 && c.kind ≠ 1 && new ≠ 0 then s.setRelay c.prepay.relay (1 ≤ new && new ≤ 4) cause else s

/-- The relay of a prepayment context takes the level of its state. -/
def State.driveRelay (s : State) (c : Context) (cause : Nat) : State :=
  if c.prepay.mode = 1 && c.kind ≠ 1 && c.prepay.state ≠ 0 then
    s.setRelay c.prepay.relay (1 ≤ c.prepay.state && c.prepay.state ≤ 4) cause
  else s

/-- The state is re-evaluated (R259). -/
def State.reevaluate (s : State) (serial cause : Nat) : State :=
  match s.live serial with
  | some c => if c.prepay.mode = 0 then s else s.enterState serial c.prepay.decide cause
  | none => s

/-- Event source 97: a grant (start) or its end, with the state that follows (R260). -/
def State.grantEvent (s : State) (serial : Nat) (ended : Bool) : State :=
  s.raiseCtx 97 serial (fun c => c.prepay.items ++ le 1 (ofBool ended))

/-- An emergency grant raises G (R260). -/
def State.grant (s : State) (serial amount cause : Nat) : State :=
  let s := s.setCtx serial (fun c => { c with prepay := { c.prepay with
    emergency := c.prepay.emergency + amount, grants := sat 16 (c.prepay.grants + 1) } })
  (s.reevaluate serial cause).grantEvent serial false

/-- A reconnection: a context in state 5 or 6 leaves for the state that its credit gives, and a hold clears (R263). -/
def State.reconnect (s : State) (serial cause : Nat) : State :=
  match s.live serial with
  | none => s
  | some c =>
    let s := s.setCtx serial (fun c => { c with prepay := { c.prepay with hold := 0 } })
    s.enterState serial c.prepay.creditState cause

/-! ### Friendly hours (R262) -/

/-- The friendly byte of a context at an instant. -/
def Context.friendly (c : Context) (utc : Int) : Nat := friendlyAt c.calendar c.prepay.windows c.prepay.holidays utc

/-- The friendly byte is brought up to an instant; entering or leaving friendly time raises event source 99. -/
def State.setFriendly (s : State) (serial new : Nat) : State :=
  match s.live serial with
  | none => s
  | some c =>
    let s := s.setCtx serial (fun c => { c with prepay := { c.prepay with friendly := new } })
    if (c.prepay.friendly = 0) ≠ (new = 0) then s.raiseCtx 99 serial (fun _ => le 1 (ofBool (decide (new = 0)))) else s

/-- Every prepayment decision of a context at an instant: friendly time, then the state (R257, R259). -/
def State.prepayDecide (s : State) (c : Context) (utc : Int) : State :=
  if c.prepay.mode = 0 then s
  else
    let new := c.friendly utc
    (s.setFriendly c.serial new).reevaluate c.serial (if c.prepay.friendly ≠ 0 && new = 0 then 1 else 0)

/-! ### Configuration (R255, R262) -/

/-- PREPAY_CONFIG takes effect (Table 16.18). -/
def Prepay.configure (p : Prepay) (b : List Byte) : Prepay :=
  let on := byteAt b 0
  let q := { p with
    mode := on, relay := byteAt b 1, options := byteAt b 2, low := fieldInt b 4 8, ceiling := field b 12 8
    prices := (List.range 8).map (fun k => field b (20 + 8 * k) 8), standing := field b 84 8
    mask := field b 92 2, openValue := field b 94 2 }
  if p.mode = 0 && on = 1 then { q with credit := 0, emergency := 0, remainder := 0 }
  else if on = 0 then { q with state := 0, hold := 0 }
  else q

/-- The settings that wait for a tick boundary take effect at it: tariff table, prepayment, friendly hours. -/
def Context.applyPending (c : Context) (boundary : Nat) : Context :=
  let c := match c.newTable with
    | some (b, x) => if b ≤ boundary then
        { c with newTable := none, source := byteAt x 0, defaultTariff := byteAt x 1, day := byteAt x 2, hour := byteAt x 3
                 calendar := (x.drop 4).take 512, billingFrom := field x 516 8 } else c
    | none => c
  let c := match c.newPrepay with
    | some (b, x) => if b ≤ boundary then
        { c with newPrepay := none, prepay := c.prepay.configure x } else c
    | none => c
  match c.newFriendly with
  | some (b, x) => if b ≤ boundary then
      { c with newFriendly := none, prepay := { c.prepay with windows := x.take 64, holidays := x.drop 64 } } else c
  | none => c

end Sys2Proof.Machine
end

