-- ==== Sys2Proof/Machine/Tamper.lean ====
section
/-! DEFINITION. Tamper detection: the runs of Table 8.5 (R268), the opening and closing of records (R270), the switch inputs. -/

namespace Sys2Proof.Machine

/-! ### Register words (R270) -/

/-- The low words of registers (0, 8) and (1, 8). -/
def Context.lowWords (c : Context) : Nat × Nat := (c.total 0 % 4294967296, c.total 1 % 4294967296)

/-- The words before the tick that contains an instant: those of the newest tick that ended at or before it. -/
def Context.wordsBefore (c : Context) (time : Nat) : Nat × Nat :=
  match c.tamper.trail.find? (fun e => e.1 ≤ time) with
  | some e => (e.2.1, e.2.2.1)
  | none => (c.tamper.trail.getLast?.map (fun e => (e.2.1, e.2.2.1))).getD c.lowWords

/-- The end of the tick that contains an instant, and the words after it. -/
def Context.wordsThrough (c : Context) (time : Nat) : Nat × Nat × Nat :=
  match c.tamper.trail.reverse.find? (fun e => time < e.1) with
  | some e => (e.1, e.2.1, e.2.2.1)
  | none => (c.folded, c.lowWords.1, c.lowWords.2)

/-- Whether detection needs the trail of recent ticks. -/
def Context.watched (c : Context) : Bool := c.tamper.enables ≠ 0 || !c.tamper.opened.isEmpty

/-- A folded tick joins the trail; the flags of the tick that leaves it go to the open records that cover it. -/
def Tamper.trailPush (x : Tamper) (stop : Nat) (words : Nat × Nat) (flags : Nat) : Tamper :=
  let l := (stop, words.1, words.2, flags) :: x.trail
  match l.drop 1200 with
  | [] => { x with trail := l }
  | e :: _ =>
    { x with trail := l.take 1200
             opened := x.opened.map (fun o => if o.start < e.1 then { o with billing := o.billing ||| e.2.2.2 } else o) }

/-- Detection begins for a context: its trail starts with the present words. -/
def Context.startTrail (c : Context) : Context :=
  if c.watched && c.tamper.trail.isEmpty then
    { c with tamper := c.tamper.trailPush c.folded c.lowWords 0 } else c

/-- The tick boundary at which a parking context stops (R253). -/
def State.parkAt (s : State) (serial : Nat) : Option Nat :=
  (s.bill.parking.find? (fun p => p.1 = serial)).map (fun p => p.2.2.2)

/-! ### Runs (R268) -/

/-- The worse of two extremes: the more negative for kind 0, the larger for the others. -/
def worse (kind : Nat) (a b : Rat) : Rat := if kind = 0 then min a b else max a b

/-- A run sees one tick or basic interval: `starts` in a row that are bad make it active, `stops` that are good end it. -/
def TamperRun.see (r : TamperRun) (bad : Bool) (starts stops time : Nat) (mark : Nat × Nat) (x : Rat) : TamperRun :=
  if bad ≠ r.active then
    let r' := { r with
      count := r.count + 1, since := if r.count = 0 then time else r.since, base := if r.count = 0 then mark else r.base
      extreme := if bad then (if r.count = 0 then x else worse r.kind r.extreme x) else r.extreme }
    if (if bad then starts else stops) ≤ r'.count then { r' with active := bad, count := 0 } else r'
  else { r with count := 0, extreme := if bad then worse r.kind r.extreme x else r.extreme }

/-- The run of a kind and element, fresh where there is none. -/
def Tamper.runOf (x : Tamper) (kind element : Nat) : TamperRun :=
  (x.runs.find? (fun r => r.kind = kind && r.element = element)).getD { kind := kind, element := element }

/-- A run takes the place of the one of its kind and element. -/
def Tamper.putRun (x : Tamper) (r : TamperRun) : Tamper :=
  { x with runs := x.runs.filter (fun y => y.kind ≠ r.kind || y.element ≠ r.element) ++ [r] }

/-! ### Records (R270) -/

/-- A record opens: counted, its start and bases kept, its event raised (start). -/
def State.openTamper (s : State) (serial kind source start : Nat) (base : Nat × Nat) (extreme : Rat) (flags : Nat) : State :=
  match s.live serial with
  | none => s
  | some c =>
    if (c.tamper.openOf kind).isSome then s
    else
      let s := s.setCtx serial (fun c => { c with tamper := { c.tamper with
        counts := alter c.tamper.counts kind (fun n => sat 16 (n + 1))
        opened := c.tamper.opened ++
          [{ kind := kind, source := source, start := start, base := base, extreme := extreme, flags := flags }] } })
      s.raise (100 + kind) s.stampNow (s.serialBody serial (le 1 0))

/-- A record closes and is written; the end event follows its signature. -/
def State.closeTamper (s : State) (serial kind stop : Nat) (last : Nat × Nat) (through flags : Nat) : State :=
  match s.live serial with
  | none => s
  | some c =>
    match c.tamper.openOf kind with
    | none => s
    | some o =>
      let stop := max stop o.start
      let covered := c.tamper.trail.filter (fun e => o.start < e.1 && e.1 ≤ through)
      let o := { o with flags := o.flags ||| flags, billing := o.billing ||| orAll (covered.map (fun e => e.2.2.2)) }
      let number := c.tamper.written + 1
      let s := s.setCtx serial (fun c => { c with tamper := { c.tamper with
        opened := c.tamper.opened.filter (fun x => x.kind ≠ kind), written := number
        durations := alter c.tamper.durations kind (fun n => sat 32 (n + (stop - o.start) / secTicks)) } })
      s.storeTamper { serial := serial, number := number, bytes := tamperBytes serial number o stop last }

/-- A record closes at an instant of the data, or at the present one. -/
def State.closeTamperAt (s : State) (serial kind stop flags : Nat) : State :=
  match s.live serial with
  | none => s
  | some c =>
    let w := c.wordsThrough stop
    s.closeTamper serial kind stop (w.2.1, w.2.2) w.1 flags

/-- Every open record of a context among the kinds given closes at an instant. -/
def State.closeTampers (s : State) (serial stop flags : Nat) (kinds : List Nat) : State :=
  kinds.foldl (fun (s : State) k => s.closeTamperAt serial k stop flags) s

/-! ### Reversed current (kind 0) -/

/-- The level of R268 in µWh for one tick: −threshold × 10 ms. -/
def Tamper.reverseLevel (x : Tamper) : Rat := -(f32Val x.reverse) * 25 / 9

/-- One element's oriented tick energy goes through its run, and what follows for the record of kind 0. -/
def State.tamperElement (s : State) (serial element : Nat) (energy : Int) (start : Nat) (before after : Nat × Nat) : State :=
  match s.live serial with
  | none => s
  | some c =>
    let old := c.tamper.runOf 0 element
    let bad := decide ((energy : Rat) < c.tamper.reverseLevel)
    let r := old.see bad 1000 100 start (if bad then before else after) ((energy : Rat) * 9 / 25)
    let s := s.setCtx serial (fun c => { c with tamper := c.tamper.putRun r })
    let s := if r.active then
        (s.openTamper serial 0 element r.since r.base r.extreme 0).setCtx serial (fun c => { c with tamper := { c.tamper with
          opened := alterWhere c.tamper.opened (fun o => o.kind = 0) (fun o => { o with extreme := min o.extreme r.extreme }) } })
      else s
    if old.active && !r.active && !((s.live serial).any (fun c => c.tamper.runs.any (fun x => x.kind = 0 && x.active))) then
      s.closeTamper serial 0 r.since r.base ((s.live serial).map (fun c => (c.wordsThrough r.since).1) |>.getD 0) 0
    else s

/-! ### Switch inputs (kinds 3-6) -/

/-- An input is at its active level. -/
def TampInput.atActive (x : TampInput) : Bool := x.level = x.activeHigh

/-- The records of kinds 3 to 6 of a context follow the inputs. -/
def State.tamperSwitches (s : State) (serial : Nat) : State :=
  [0, 1, 2, 3].foldl (fun (s : State) k =>
    match s.live serial with
    | none => s
    | some c =>
      let x := nth s.bill.tamp k
      let time := s.stamp x.since
      if !bit c.tamper.enables (3 + k) then s
      else if x.active then
        if (c.tamper.openOf (3 + k)).isSome then s
        else
          let start := max time ((c.tamper.trail.getLast?.map (fun e => e.1)).getD 0)
          s.openTamper serial (3 + k) k start (c.wordsBefore start) 0 0
      else if (c.tamper.openOf (3 + k)).isSome then s.closeTamperAt serial (3 + k) time 0
      else s) s

/-! ### Bypass and missing neutral (kinds 1 and 2) -/

/-- The four-wire system of a context, if any. -/
def State.fourWire (s : State) (c : Context) : Option Nat :=
  (s.systemsOf c).find? (fun k => (nth s.meas.config.systems k).connection = 2)

/-- The test of bypass in a basic interval: I_res and whether it fails the tests. -/
def State.bypassTest (s : State) (b : MeasBlock) (c : Context) (residual : Option Rat) : Option (Bool × Rat) :=
  let rms := (usedChannels c.currents ++ s.neutralsOf c).filterMap (fun n => b.number 0 n 1)
  match residual with
  | none => none
  | some i =>
    let top := rms.foldl (fun (a b : Rat) => max a b) 0
    some (decide (f32Val c.tamper.magnitude < i) && decide (f32Val c.tamper.ratio * top < i), i)

/-- The test of a missing neutral in a basic interval (R268). -/
def State.neutralTest (s : State) (b : MeasBlock) (c : Context) : Option (Bool × Rat) :=
  match s.fourWire c with
  | none => none
  | some k =>
    let members := s.meas.config.members k
    let earth := members.find? (fun n => (nth s.meas.config.channels n).role = 3)
    let shift := match earth with
      | some n => b.number 0 n 1
      | none => b.number 1 k 0x15
    let phases := (members.filter (fun n => (nth s.meas.config.channels n).role = 1)).filterMap (fun n => b.number 0 n 1)
    let udin := f32Val (nth s.meas.config.systems k).udin
    let f := f32Val c.tamper.imbalance
    match shift with
    | none => none
    | some d =>
      some (decide (f32Val c.tamper.displacement < d) && phases.any (fun v => decide ((1 + f) * udin < v)) &&
        phases.any (fun v => decide (v < (1 - f) * udin)), d)

/-- A basic interval goes through the run of kind 1 or 2; one flagged GAP breaks a run of either kind. -/
def State.tamperRunInterval (s : State) (serial kind : Nat) (b : MeasBlock) (test : Option (Bool × Rat)) (need : Nat) : State :=
  match s.live serial with
  | none => s
  | some c =>
    if !bit c.tamper.enables kind then s
    else
      let old := c.tamper.runOf kind 0
      match test with
      | none => s.setCtx serial (fun c => { c with tamper := c.tamper.putRun { old with count := 0 } })
      | some (bad, x) =>
        let w := c.wordsThrough b.start
        let r := old.see bad need need b.start (if bad then c.wordsBefore b.start else (w.2.1, w.2.2)) x
        let s := s.setCtx serial (fun c => { c with tamper := c.tamper.putRun r })
        if r.active then
          (s.openTamper serial kind 255 r.since r.base r.extreme 0).setCtx serial (fun c => { c with tamper := { c.tamper with
            opened := alterWhere c.tamper.opened (fun o => o.kind = kind)
              (fun o => { o with extreme := max o.extreme r.extreme }) } })
        else if old.active then s.closeTamper serial kind r.since r.base ((c.wordsThrough r.since).1) 0
        else s

/-- A basic interval goes through the tests of kinds 1 and 2 of every context that has not stopped for a park. The residual current of a
context is the value of kind 3, object slot, quantity 0. -/
def State.tamperInterval (s : State) (b : MeasBlock) : State :=
  s.eachCtx (fun (s : State) c =>
    if c.kind = 1 || (s.parkAt c.serial).any (fun p => decide (s.stamp p < b.stop)) then s
    else
      let gap := has b.flags qfGap
      let s := s.tamperRunInterval c.serial 1 b (if gap then none else s.bypassTest b c (b.number 3 c.slot 0)) 5
      s.tamperRunInterval c.serial 2 b (if gap then none else s.neutralTest b c) 25)

/-- The basic intervals that ended at or before a tick boundary are tested when the tick that ends there is folded (R270). -/
def State.tamperIntervals (s : State) (u : Nat) : State :=
  let ended := s.meas.toFold.filter (fun b => b.stop ≤ u)
  ended.foldl (fun (s : State) b => s.tamperInterval b)
    { s with meas := { s.meas with toFold := s.meas.toFold.filter (fun b => u < b.stop) } }

/-- The kinds that apply to a context (Table 8.5), as an enable mask. -/
def State.tamperKinds (s : State) (c : Context) : Nat :=
  if c.kind = 1 then 0x78
  else 1 + (if (s.neutralsOf c).isEmpty then 0 else 2) + (if (s.fourWire c).isSome then 4 else 0) + 0x78

end Sys2Proof.Machine
end

