-- ==== Sys2Proof/Machine/Billing.lean ====
section
/-! DEFINITION. Billing: folding a tick (R222), the actions due at a tick boundary in the order of Table 7.11 (R229-R236, R257,
R244), clock adjustments (R237-R242), and the rows of those actions. -/

namespace Sys2Proof.Machine

/-! ### Step 1: folding (R222) -/

/-- Adding energy to the registers (q, t) and (q, 8) with their residues (R222). -/
def Context.add (c : Context) (q t e : Nat) : Context :=
  let put := fun (c : Context) (x : Nat) =>
    let r := nth c.residues (9 * q + x) + e
    { c with regs := alter c.regs (9 * q + x) (fun v => v + r / 1000), residues := alter c.residues (9 * q + x) (fun _ => r % 1000) }
  put (put c t) 8

/-- The registers after a tick's P, Q and S at the tariff in force (R222). -/
def Context.fold (c : Context) (p q : Int) (s : Nat) : Context :=
  let t := c.tariff
  let c := if p ≥ 0 then c.add 0 t p.toNat else c.add 1 t (-p).toNat
  let c :=
    if p ≥ 0 && q ≥ 0 then c.add 2 t q.toNat
    else if p < 0 && q ≥ 0 then c.add 3 t q.toNat
    else if p < 0 then c.add 4 t (-q).toNat
    else c.add 5 t (-q).toNat
  c.add 6 t s

/-- What a tick holds for a context. -/
structure CtxTick where
  /-- entry of Table 8.6, channel, phase and oriented active energy of each element -/
  elements : List (Nat × Nat × Nat × Int)
  p : Int
  q : Int
  s : Nat
  /-- billing flags -/
  flags : Nat
  deriving DecidableEq, Repr, Inhabited

/-- A tick's energies of a context's elements, oriented (R222); an element the tick does not hold gives zero and GAP. -/
def State.ctxTick (s : State) (c : Context) (k : ClosedTick) : CtxTick :=
  let of := fun (system : Bool) (n : Nat) =>
    (k.energies.find? (fun e => e.system = system && e.object = n)).getD { system := system, object := n, flags := tfGap }
  let es := ((c.currents.zipIdx).filter (fun x => x.1 < 24)).map (fun x => (of false x.1, x.2))
  let turn := fun (k : Nat) (v : Int) => if bit c.orientation k then -v else v
  let total := of true ((s.systemsOf c).headD 0)
  { elements := es.map (fun e => (e.2, e.1.object, s.meas.config.phaseOf e.1.object, turn e.2 e.1.active))
    p := es.foldl (fun (a : Int) e => a + turn e.2 e.1.active) 0
    q := es.foldl (fun (a : Int) e => a + turn e.2 e.1.reactive) 0
    s := if c.method = 1 then total.apparent.toNat else (es.foldl (fun (a : Int) e => a + e.1.apparent) 0).toNat
    flags := billingOf (orAll (es.map (fun e => e.1.flags)) ||| (if c.method = 1 then total.flags else 0)) }

/-- The clock policy, limit and RTC validity that rule a timebase tick (R237, R243): a change rules no tick before it. -/
def State.clockRule (s : State) (tick : Nat) : ClockRule :=
  (s.clock.past.find? (fun x => decide (tick < x.until_))).getD
    { valid := s.clock.rtcValid, validFrom := s.clock.rtcValidFrom, policy := s.clock.policy, limit := s.clock.limit }

/-- The clock's settings kept for the ticks not yet folded, before a change of them now. -/
def State.keptRules (s : State) : List ClockRule :=
  s.clock.past.filter (fun x => decide (tickStart s.bill.nextFold < x.until_)) ++
    [{ s.clockRule s.now with until_ := s.now }]

/-- Whether the RTC counts as valid for a tick that starts at a timebase tick (R243). -/
def State.rtcGood (s : State) (tick : Nat) : Bool :=
  let r := s.clockRule tick
  r.valid && r.validFrom ≤ tick

/-- The RTC flags of energy that a context takes at a timebase tick (Tables 7.5 and 7.12). -/
def State.rtcFlags (s : State) (c : Context) (tick : Nat) : Nat :=
  if s.rtcGood tick then 0
  else bfRtcInvalid + flagIf (c.source = 1 && (s.clockRule tick).policy = 1) bfDefaultTariff

/-- A tick joins the open demand interval and profile entry, and is charged (R224, R256). -/
def Context.take (c : Context) (x : CtxTick) (flags stop : Nat) : Context :=
  let imported := if x.p ≥ 0 then x.p.toNat else 0
  let exported := if x.p < 0 then (-x.p).toNat else 0
  let d := c.demand
  let energies := if d.mode = 0 then d.energies else (d.energies.zip [imported, exported, x.s]).map (fun e => e.1 + e.2)
  let c := c.fold x.p x.q x.s
  let c := { c with
    folded := stop, flags := c.flags ||| flags
    demand := { d with
      energies := energies, openFlags := d.openFlags ||| flags, profFlags := d.profFlags ||| flags, tariff := c.tariff }
    prepay := if c.prepay.mode = 1 then c.prepay.charge c.tariff imported else c.prepay }
  if c.watched then { c with tamper := c.tamper.trailPush stop c.lowWords flags } else c

/-- The tick that ends at timebase tick `b`, from UTC `u0` to `u`, is folded into one context; `own` flags what it says besides. -/
def State.foldCtx (s : State) (c : Context) (k : ClosedTick) (u0 u own : Nat) : State :=
  if (s.parkAt c.serial).any (fun b => b < tickStart (k.tick + 1)) then s
  else if c.kind = 1 then (if c.tamper.enables / 8 ≠ 0 then s.tamperSwitches c.serial else s)
  else if k.tick < c.firstTick then s
  else
    let x := s.ctxTick c k
    let flags := x.flags ||| own ||| s.rtcFlags c (tickStart k.tick)
    let c' := c.take x flags u
    let s := s.putCtx c'
    let s := if bit c.tamper.enables 0 then
        x.elements.foldl (fun (s : State) e =>
          if bit c.tamper.importOnly e.1 then s.tamperElement c.serial e.2.1 e.2.2.2 u0 c.lowWords c'.lowWords else s) s
      else s
    let s := if c.tamper.enables / 8 ≠ 0 then s.tamperSwitches c.serial else s
    s.groupTick c.serial (columnEnergies (x.elements.map (fun e => e.2.2))) flags

/-! ### Step 2: demand and load profile (R229-R232) -/

/-- The demands of energies over a nominal length in minutes (R230). -/
def demandsOf (energies : List Nat) (length : Nat) : List Nat := energies.map (fun e => e * 3 / (50 * length))

/-- The sums of the last `n` sub-intervals of a window whose newest is `count` (R230). -/
def windowSums (window : List (List Nat)) (count n : Nat) : List Nat :=
  [0, 1, 2].map (fun q => (List.range n).foldl (fun a i => a + nth (nth window ((count + 15 - i) % 15)) q) 0)

/-- The maxima after an interval's demands at a tariff (R231): replaced only by a strictly greater demand. -/
def raiseMaxima (maxima : List (Nat × Nat)) (demands : List Nat) (tariff stop : Nat) : List (Nat × Nat) :=
  maxima.mapIdx (fun i m =>
    let d := nth demands (i / 9)
    if (i % 9 = tariff || i % 9 = 8) && m.1 < d then (d, stop) else m)

/-- A new open interval from an instant; it is scheduled to end at the first boundary after `now`. -/
def Demand.restart (d : Demand) (start now flags : Nat) : Demand :=
  { d with
    openStart := start, openEnd := if d.mode = 0 then start else multipleAfter (d.length * minTicks) (max start now)
    openFlags := flags, energies := [0, 0, 0] }

/-- The demand interval or sub-interval of a context closes (R230, R231), and event source 90 is raised. One of zero length is
discarded (R246). -/
def State.closeDemand (s : State) (serial stop flags now : Nat) : State :=
  match s.live serial with
  | none => s
  | some c =>
    let d := c.demand
    if d.mode = 0 then s
    else if stop ≤ d.openStart then s.setCtx serial (fun c => { c with demand := c.demand.restart stop now 0 })
    else
      let short := flagIf (stop - d.openStart < d.length * minTicks) bfShort
      let count := d.count + 1
      let sliding := d.mode = 2
      let window := if sliding then alter d.window (count % 15) (fun _ => d.energies) else d.window
      let filled := if sliding then min 15 (d.filled + 1) else d.filled
      let energies := if sliding then windowSums window count (min filled d.n) else d.energies
      let partial_ := sliding && filled < d.n
      let fl := d.openFlags ||| flags ||| short ||| flagIf partial_ bfPartial
      let demands := demandsOf energies (if sliding then d.n * d.length else d.length)
      let d' := { d with
        count := count, window := window, filled := filled, last := demands, lastEnd := stop
        maxima := if partial_ then d.maxima else raiseMaxima d.maxima demands d.tariff stop }
      let s := s.setCtx serial (fun c => { c with flags := c.flags ||| fl, demand := d'.restart stop now 0 })
      s.raiseCtx 90 serial (fun _ => le 8 stop ++ words demands ++ le 2 fl)

/-- Nominal length of a load-profile entry: a quarter-hour, or the remote interval (R232). -/
def Context.entryTicks (c : Context) : Nat := (if c.kind = 1 then c.shadow.length else 15) * minTicks

/-- The open load-profile entry restarts. -/
def Context.restartProfile (c : Context) (start now flags : Nat) : Context :=
  { c with demand := { c.demand with
      profStart := start, profEnd := multipleAfter (15 * minTicks) (max start now), profFlags := flags
      profBase := (List.range 7).map c.total } }

/-- The load-profile entry of a context closes and is written (R232). -/
def State.closeProfile (s : State) (serial stop flags now : Nat) : State :=
  match s.live serial with
  | none => s
  | some c =>
    let d := c.demand
    if stop ≤ d.profStart then s.setCtx serial (fun c => c.restartProfile stop now 0)
    else
      let fl := d.profFlags ||| flags ||| flagIf (stop - d.profStart < c.entryTicks) bfShort
      let s := s.storeProfile c (c.profileBytes stop fl)
      s.setCtx serial (fun c => { c with flags := c.flags ||| fl, entries := c.entries + 1 }.restartProfile stop now 0)

/-- The open interval and profile entry close at an instant (R239, R246, R253). -/
def State.closeOpen (s : State) (serial stop flags : Nat) : State :=
  (s.closeDemand serial stop flags stop).closeProfile serial stop flags stop

/-- Both series start afresh at an instant, the sliding window empty (R239, R247, R254). -/
def Context.restartSeries (c : Context) (start flags : Nat) : Context :=
  ({ c with demand := { c.demand.restart start start flags with filled := 0, window := List.replicate 15 [0, 0, 0] } } :
    Context).restartProfile start start flags

/-- A demand setting takes effect (R229): the open interval closes flagged SHORT, the window is emptied, the new series starts. -/
def State.applyDemand (s : State) (serial now : Nat) (mode length n : Nat) : State :=
  match s.live serial with
  | none => s
  | some c =>
    let s := if c.demand.openEnd ≤ now then s.closeDemand serial c.demand.openEnd 0 now else s.closeDemand serial now bfShort now
    s.setCtx serial (fun c => { c with
      newDemand := none
      demand := ({ c.demand with mode := mode, length := length, n := n, filled := 0
                                 window := List.replicate 15 [0, 0, 0] } : Demand).restart now now 0 })

/-! ### Steps 3 and 4: tariff and snapshot (R225-R227, R234) -/

/-- The pin code in force at a tick boundary (R226). -/
def State.pinCodeAt (s : State) (boundary : Nat) : Option Nat :=
  (s.bill.pinCodes.find? (fun p => p.1 ≤ boundary)).map (fun p => p.2)

/-- The tariff of a context from a boundary on (R225-R227, Table 7.12), where the RTC counts as valid or not. -/
def State.tariffBy (s : State) (good : Bool) (c : Context) (boundary instant : Nat) : Nat :=
  match c.source with
  | 0 => (s.pinCodeAt boundary).getD c.defaultTariff
  | 1 =>
    if !good && (s.clockRule boundary).policy = 1 then c.defaultTariff
    else calendarTariff c.calendar c.defaultTariff instant
  | _ => c.tariff

/-- The tariff of a context from a boundary on (R225-R227, Table 7.12). -/
def State.tariffOf (s : State) (c : Context) (boundary instant : Nat) : Nat :=
  s.tariffBy (s.rtcGood boundary) c boundary instant

/-- The tariff that step 3 gives a context (Table 7.11): in old time at a boundary whose adjustment makes the RTC valid, the RTC
is not yet valid (R243, R508). -/
def State.dueTariff (s : State) (d : DueActions) (c : Context) : Nat :=
  let awaits := s.bill.adjustments.any (fun a => decide (a.boundary = d.boundary ∧ s.clock.rtcValidFrom = d.boundary))
  s.tariffBy (s.rtcGood d.boundary && !awaits) c d.boundary d.instant

/-- A context's tariff changes: event source 92 with the old and new tariff and the boundary. -/
def State.changeTariff (s : State) (serial new instant : Nat) : State :=
  match s.live serial with
  | none => s
  | some c =>
    if c.tariff = new then s
    else
      (s.setCtx serial (fun c => { c with tariff := new })).raiseCtx 92 serial
        (fun _ => octets [c.tariff, new] ++ le 8 instant)

/-- A context takes the tariff its source gives from a boundary on (R225, R247). -/
def State.sourceTariff (s : State) (serial boundary instant : Nat) : State :=
  match s.live serial with
  | none => s
  | some c => s.changeTariff serial (s.tariffOf c boundary instant) instant

/-- The prepayment decisions of a context at an instant. -/
def State.decideAt (s : State) (serial instant : Nat) : State :=
  match s.live serial with
  | none => s
  | some c => s.prepayDecide c instant

/-- A context after its snapshot (R234, R272): maxima, flags and period fields cleared, the next period. -/
def Context.nextPeriod (c : Context) (boundaries stop : Nat) : Context :=
  { c with
    period := c.period + boundaries, periodStart := stop, flags := 0, snapshots := c.snapshots + 1
    demand := { c.demand with maxima := List.replicate 27 (0, 0) }
    prepay := { c.prepay with charged := 0, standingCharged := 0, added := 0, grants := 0, disconnections := 0 }
    tamper := { c.tamper with counts := List.replicate 8 0, durations := List.replicate 8 0 } }

/-- A snapshot is taken for the boundaries up to `last` (R233-R235); the pool record is rewritten (R246). -/
def State.takeSnapshot (s : State) (serial flags boundaries stop last : Nat) : State :=
  match s.live serial with
  | none => s
  | some c =>
    let s := s.storeSnapshot
      { serial := serial, period := c.period, bytes := s.snapshotBytes c (c.flags ||| flags) boundaries stop s.stampNow }
    (s.setCtx serial (fun c => { c.nextPeriod boundaries stop with lastBilling := last })).poolKeep serial

/-- The billing boundaries of a context after `lo` and at or before `hi` that it has not acted on (R233, R228). -/
def Context.boundaries (c : Context) (lo hi : Nat) : List Nat :=
  billingBoundaries c.calendar c.day c.hour (max lo (max c.lastBilling c.billingFrom)) hi

/-- One snapshot for each boundary of a list, in order (R234); beyond 36, the 36th covers every later one (R247). -/
def State.snapshotEach (s : State) (serial flags : Nat) (bs : List Nat) : State :=
  let last := bs.getLastD 0
  ((bs.take 36).zipIdx).foldl (fun (s : State) b =>
    if b.2 = 35 && 36 < bs.length then s.takeSnapshot serial flags (bs.length - 35) last last
    else s.takeSnapshot serial flags 1 b.1 b.1) s

/-- One FORCED snapshot for the boundaries a forward adjustment passed (R242). -/
def State.snapshotForced (s : State) (serial stop : Nat) (bs : List Nat) : State :=
  if bs.isEmpty then s else s.takeSnapshot serial bfForced bs.length stop (bs.getLastD 0)

/-! ### What is due at a boundary (R236, R244, Table 7.11) -/

/-- The local midnights of a context for which the standing charge is due (R257). -/
def Context.midnights (c : Context) (lo hi : Nat) : List Nat :=
  if c.prepay.mode = 1 then localMidnights c.calendar (max lo c.prepay.lastDay) hi else []

/-- The demand interval ends, or a demand setting takes effect. -/
def Context.demandDue (c : Context) (d : DueActions) : Bool :=
  c.newDemand.any (fun x => x.1 ≤ d.boundary) || (c.demand.mode ≠ 0 && c.demand.openEnd ≤ d.instant)

/-- A parking context stops at the boundary (R253). -/
def State.stopsAt (s : State) (d : DueActions) (c : Context) : Bool := !d.after && s.parkAt c.serial = some d.boundary

/-- A local or feeder context takes part in the actions of a boundary: its ticks have begun, and no park has stopped it before. -/
def State.takesPart (s : State) (d : DueActions) (c : Context) : Bool :=
  c.kind ≠ 1 && tickStart c.firstTick ≤ d.boundary &&
  (s.parkAt c.serial).all (fun b => if d.after then decide (d.boundary < b) else decide (d.boundary ≤ b))

/-- The billing boundaries of a context among the actions due; a boundary before its creation is none of its own. -/
def Context.boundariesDue (c : Context) (d : DueActions) : List Nat :=
  c.boundaries (if tickStart c.firstTick = d.boundary && !d.after then max d.since (min c.created d.instant) else d.since) d.instant

/-- The open interval and entry of a context are cut at the boundary: by a split adjustment (R239) or by its park (R253). The flags of the
cut; none where nothing cuts. -/
def State.cutFlags (s : State) (d : DueActions) (c : Context) : Option Nat :=
  if s.stopsAt d c then some (bfShort + bfParked) else if d.cut then some (bfShort + bfClock) else none

/-- The action of a step is due for a local or feeder context: 2 demand, 3 profile, 4 tariff, 5 snapshot, 6 standing charge,
7 friendly change. -/
def State.ctxDue (s : State) (d : DueActions) (k : Nat) (c : Context) : Bool :=
  s.takesPart d c &&
  (match k with
   | 2 => c.demandDue d || (c.demand.mode ≠ 0 && (s.cutFlags d c).isSome)
   | 3 => decide (c.demand.profEnd ≤ d.instant) || (s.cutFlags d c).isSome
   | 4 => s.dueTariff d c ≠ c.tariff
   | 5 => !(c.boundariesDue d).isEmpty
   | 6 => !(c.midnights d.since d.instant).isEmpty
   | 7 => c.prepay.mode = 1 && (c.friendly d.instant = 0) ≠ (c.prepay.friendly = 0)
   | _ => false)

/-- A step has something to do: step 8 is the minute's checkpoint (R244). Minutes that a forward adjustment skips have none (log 45). -/
def State.stepDue (s : State) (d : DueActions) (k : Nat) : Bool :=
  if k = 8 then
    !s.bill.live.isEmpty && d.since / minTicks < d.instant / minTicks && (!d.forced || d.instant % minTicks = 0)
  else s.bill.live.any (fun c => s.ctxDue d k c)

/-- The action mask of a boundary record (Table 12.17). -/
def State.maskOf (s : State) (d : DueActions) (c : Context) : Nat :=
  ofBool (s.ctxDue d 2 c || s.ctxDue d 3 c) + 2 * ofBool (s.ctxDue d 4 c) + 4 * ofBool (s.ctxDue d 5 c) + 8 * ofBool (s.ctxDue d 6 c)

/-- A boundary record of one context: the state and the mask of actions due (R244). -/
def State.journalDue (s : State) (serial mask instant : Nat) : State :=
  match s.live serial with
  | some c => s.journalCtx c 2 mask instant false
  | none => s

/-- A Done record of one context: the step and the state it left (R244). -/
def State.journalDone (s : State) (serial code : Nat) : State :=
  match s.live serial with
  | some c => s.journalCtx c 3 code s.stampNow false
  | none => s

/-- The boundary records are written and the steps begin (R244). -/
def State.startDue (s : State) (d : DueActions) : State :=
  let masks := (s.bill.live.map (fun c => (c.serial, s.maskOf d c))).filter (fun m => m.2 ≠ 0)
  let s := masks.foldl (fun (s : State) m => s.journalDue m.1 m.2 d.instant) s
  { s with bill := { s.bill with due := some { d with masks := masks } } }

/-- Done records for the contexts whose mask has a bit (R244). -/
def State.writeDone (s : State) (d : DueActions) (maskBit code : Nat) : State :=
  d.masks.foldl (fun (s : State) m => if bit m.2 maskBit then s.journalDone m.1 code else s) s

/-- Step 2, first half: the demand interval that ends, or the setting that takes effect; then what a park or a split adjustment cuts. -/
def State.demandStep (s : State) (d : DueActions) (c : Context) : State :=
  let due := s.ctxDue d 2 c
  let closed := if !(due && c.demandDue d) then s
    else
      match c.newDemand with
      | some (b, mode, length, n) =>
        if b ≤ d.boundary then s.applyDemand c.serial d.instant mode length n
        else s.closeDemand c.serial c.demand.openEnd 0 d.instant
      | none => s.closeDemand c.serial c.demand.openEnd 0 d.instant
  match s.cutFlags d c with
  | some f => if due then closed.closeDemand c.serial d.instant f d.instant else closed
  | none => closed

/-- Step 2, second half: the load-profile entry. A local member of a group that stops for its park counts as missing (R274). -/
def State.profileStep (s : State) (d : DueActions) (c : Context) : State :=
  if !s.ctxDue d 3 c then s
  else
    let closed := if c.demand.profEnd ≤ d.instant then s.closeProfile c.serial c.demand.profEnd 0 d.instant else s
    let cut := match s.cutFlags d c with
      | some f => closed.closeProfile c.serial d.instant f d.instant
      | none => closed
    if s.stopsAt d c then cut.groupPark c.serial else cut

/-- Checkpoints of every live context, and of the groups' open intervals (R244, R388); what else the ring comes near is written again
(R389). -/
def State.checkpointAll (s : State) (time : Nat) : State :=
  let s := s.eachCtx (fun s c => s.journalCtx c 1 0 time false)
  ((List.range 16).foldl (fun (s : State) k =>
    match (nth s.bill.groups k).opened with
    | some x => s.journalBalance k x
    | none => s) s).renewJournal

/-- One step of Table 7.11, for every context. -/
def State.runStep (s : State) (d : DueActions) (k : Nat) : State :=
  match k with
  | 2 => s.eachCtx (fun s c => s.demandStep d c)
  | 3 => (s.eachCtx (fun s c => s.profileStep d c)).writeDone d 0 2
  | 4 =>
    (s.eachCtx (fun s c => if s.ctxDue d 4 c then s.changeTariff c.serial (s.dueTariff d c) d.instant else s)).writeDone
      d 1 3
  | 5 =>
    s.eachCtx (fun s c =>
      if !s.ctxDue d 5 c then s
      else if d.forced then s.snapshotForced c.serial d.instant (c.boundariesDue d)
      else s.snapshotEach c.serial 0 (c.boundariesDue d))
  | 6 =>
    (s.eachCtx (fun s c =>
      if s.ctxDue d 6 c then
        s.setCtx c.serial (fun c => { c with prepay := (c.midnights d.since d.instant).foldl (fun (p : Prepay) m => p.standDay m) c.prepay })
      else s)).writeDone d 3 6
  | 7 => s.eachCtx (fun s c => if s.takesPart d c then s.prepayDecide c d.instant else s)
  | _ =>
    if s.stepDue d 8 then
      let s := s.checkpointAll d.instant
      { s with bill := { s.bill with checkpointed := d.instant / minTicks } }
    else s

/-- The step at hand is run and the next one comes up; after step 8 nothing is due any more. -/
def State.stepOnce (s : State) : State :=
  match s.bill.due with
  | none => s
  | some d =>
    let s := s.runStep d d.step
    { s with bill := { s.bill with due := if d.step ≥ 8 then none else some { d with step := d.step + 1 } } }

/-- Steps that have nothing to do pass by; the first that has waits for its row. -/
def State.advance : Nat → State → State
  | 0, s => s
  | n + 1, s =>
    match s.bill.due with
    | none => s
    | some d => if s.stepDue d d.step then s else State.advance n s.stepOnce

/-- Every step up to `k` is carried out, in order. -/
def State.settleThrough (k : Nat) : Nat → State → State
  | 0, s => s
  | n + 1, s =>
    match s.bill.due with
    | none => s
    | some d => if d.step ≤ k then State.settleThrough k n s.stepOnce else s

/-- Every action still due is carried out (R236). -/
def State.finishDue (s : State) : State := State.settleThrough 8 8 s

/-! ### Clock adjustments (R238-R242) -/

/-- UTC at a tick boundary before an adjustment made there (R508: reckoned in old time). -/
def State.utcBefore (s : State) (b : Nat) : Nat :=
  (s.bill.adjustments.foldl (fun (u : Int) a => if a.boundary < b then u + a.step else u) (s.utcOld b)).toNat

/-- The mapping is stepped: from A on UTC reads the old mapping plus d (R508). -/
def State.commitStep (s : State) (a : Adjustment) : State :=
  { s with
    clock := { s.clock with mapUtc := s.clock.mapUtc + a.step, lastStep := a.step }
    bill := { s.bill with adjustments := s.bill.adjustments.filter (fun x => x ≠ a) } }

/-- Whether an adjustment passes a billing boundary of any context (R240). -/
def State.passesBoundary (s : State) (a a' : Nat) : Bool :=
  (s.bill.live ++ s.parkedContexts).any (fun c =>
    !(billingBoundaries c.calendar c.day c.hour (min a a') (max a a')).isEmpty)

/-- Event source 173 (Table 14.9): the state, the rate error in ppm and a step in microseconds. -/
def State.ppsEvent (s : State) (state : Nat) (step : Int) : State :=
  s.raise 173 s.stampNow
    (objBody 0 (le 1 state ++ f32Bytes (toF32 (s.clock.eps * 1000000)) ++ f32Bytes (toF32 ((step : Rat) / 16))))

/-- An adjustment is split: it is larger than the limit (Table 7.12). -/
def State.splits (s : State) (b : Nat) (x : Adjustment) : Bool := (s.clockRule b).limit * secTicks < x.step.natAbs

/-- Both series of a context restart under new time (R239); a reply of R228 that lies after A' keeps its place before what comes next. -/
def State.restartAfter (s : State) (b : Nat) (split : Bool) (a' : Nat) (c : Context) : State :=
  s.setCtx c.serial (fun c =>
    let c := { c with billingFrom := min c.billingFrom a' }
    if split && s.takesPart { boundary := b, after := true } c then c.restartSeries a' (bfShort + bfClock) else c)

/-- An adjustment at the tick boundary `b`, whose actions due in old time are done (R237-R242, R186, R450). -/
def State.adjust (s : State) (b : Nat) (x : Adjustment) : State :=
  let a := (s.utcOld b).toNat
  let s := s.cutSecond ((s.utcOld b + x.step).toNat)
  let s := s.commitStep x
  let a' := (s.utcOld b).toNat
  let s := if x.pps then s.ppsEvent 2 x.step else s
  let split := s.splits b x
  let s := (if Config.ms < x.step.natAbs then s.clockCut b a a' else s).cutPinst a a'
  let s := s.eachCtx (fun s c => s.restartAfter b split a' c)
  let s := if split then s.cutGroups a a' else s
  let s := if split || s.passesBoundary a a' then
      s.raise 93 s.stampNow (objBody 0 (le 8 a ++ le 8 a' ++ leInt 8 x.step ++ le 1 (ofBool split)))
    else s
  (s.startDue { boundary := b, instant := a', since := a, after := true, forced := decide (0 < x.step) }).advance 8

/-- The adjustments whose instant is the boundary `b`, or lies before it. -/
def State.adjustmentsAt (s : State) (b : Nat) : List Adjustment := s.bill.adjustments.filter (fun a => a.boundary ≤ b)

/-- Every adjustment whose instant is the boundary `b`, or lies before it, is made. -/
def State.adjustAll (s : State) (b : Nat) : State :=
  (s.adjustmentsAt b).foldl (fun (s : State) a => s.finishDue.adjust b a) s

/-! ### The fold (R16, R222, R236) -/

/-- Folding may go on: not past T_pf while a commit runs (R432, R436), nor once a lifecycle transition is accepted (R409, step 1). -/
def State.mayFold (s : State) (k : ClosedTick) : Bool :=
  s.phase = .running && s.sec.transition.isNone && s.power.commit.all (fun b => tickStart (k.tick + 1) ≤ b)

/-- The oldest closed tick is folded, after every action still due at the boundary before it. Step 1 covers the tick and the basic
intervals that ended with it (R270); ticks lost before it are flagged POWER and their boundaries are due with its own (log 77). -/
def State.foldTick (s : State) : State :=
  match s.meas.queue with
  | [] => s
  | k :: rest =>
    let s := s.finishDue.groupTurns
    let b := tickStart (k.tick + 1)
    let u0 := (s.utcOld (tickStart k.tick)).toNat
    let u := s.utcBefore b
    let lost := s.bill.nextFold < k.tick
    let since := (s.utcOld (tickStart (min k.tick s.bill.nextFold))).toNat
    let s := { s with meas := { s.meas with queue := rest }, bill := { s.bill with nextFold := k.tick + 1 } }
    let s := (s.eachCtx (fun s c => s.foldCtx c k u0 u (flagIf lost bfPower))).tamperIntervals u
    let s := { s with bill := { s.bill with live := s.bill.live.map (fun (c : Context) => c.applyPending b) } }
    let xs := s.adjustmentsAt b
    let s := s.startDue { boundary := b, instant := u, since := since, cut := xs.any (fun x => s.splits b x) }
    if xs.isEmpty then s.advance 8 else s.adjustAll b

/-- The tick in progress closes. The queue holds 64 ticks (R17): while it is full the oldest is folded first, and where folding may not
go on the new tick is not kept (log 77). -/
def State.queueTick (s : State) : State :=
  let full := decide (64 ≤ s.meas.queue.length)
  let folds := s.meas.queue.head?.any (fun k => s.mayFold k)
  let s := (if full && folds then s.foldTick else s).closeTick
  let s := if full && !folds then { s with meas := { s.meas with queue := s.meas.queue.dropLast } } else s
  s.settleConfig

/-- TICK_CLOSE (R211). -/
def execTickClose (t : Nat) (s : State) : Out :=
  let s := s.tickTo t
  .next (if (s.phase = .ready || s.phase = .running) && s.tickReady then s.queueTick else s)

/-- TICK_FOLD (R222). -/
def execTickFold (t : Nat) (s : State) : Out :=
  let s := s.tickTo t
  .next
    (match s.meas.queue with
     | [] => s
     | k :: _ => if s.mayFold k then s.foldTick else s)

/-- The row of a step of Table 7.11: the steps before it come first (R236). -/
def State.dueRow (s : State) (k : Nat) : State :=
  match s.bill.due with
  | none => s
  | some d => if d.step ≤ k && s.stepDue d k then (State.settleThrough k 8 s).advance 8 else s

/-- DEMAND_INTERVAL_END (R230). -/
def execDemandIntervalEnd (t : Nat) (s : State) : Out := .next ((s.tickTo t).dueRow 2)

/-- LOAD_PROFILE_ENTRY (R232). -/
def execLoadProfileEntry (t : Nat) (s : State) : Out := .next ((s.tickTo t).dueRow 3)

/-- TARIFF_CHANGE (R225). -/
def execTariffChange (t : Nat) (s : State) : Out := .next ((s.tickTo t).dueRow 4)

/-- BILLING_BOUNDARY (R234). -/
def execBillingBoundary (t : Nat) (s : State) : Out := .next ((s.tickTo t).dueRow 5)

/-- STANDING_CHARGE (R257). -/
def execStandingCharge (t : Nat) (s : State) : Out := .next ((s.tickTo t).dueRow 6)

/-- FRIENDLY_TIME_CHANGE (R262). -/
def execFriendlyTimeChange (t : Nat) (s : State) : Out := .next ((s.tickTo t).dueRow 7)

/-- CHECKPOINT (R244). -/
def execCheckpoint (t : Nat) (s : State) : Out := .next ((s.tickTo t).dueRow 8)

/-- The pin codes that a tick not yet folded may need: those accepted after its boundary, and the one before them. -/
def State.keptCodes (s : State) : List (Nat × Nat) :=
  let b := tickStart s.bill.nextFold
  s.bill.pinCodes.takeWhile (fun p => b < p.1) ++ ((s.bill.pinCodes.find? (fun p => p.1 ≤ b)).toList)

/-- TARIFF_PIN_CODE (R226): the three pins have held a code for 20 ms, which they cannot have done where another code, or the reset, held
in those 20 ms. A new code is accepted, and the acceptance is the decision instant. -/
def execTariffPinCode (t code : Nat) (s : State) : Out :=
  let s := s.tickTo t
  guarded (code < 8)
    (if s.phase = .held || (code ≠ s.pins.tariff || s.bill.pinCodes.isEmpty) && s.now < s.pins.tariffAt + 20 * Config.ms then s
     else
       let s := { s with pins := { s.pins with tariff := code, tariffAt := s.now } }
       if s.bill.pinCodes.head?.any (fun p => p.2 = code) then s
       else { s with bill := { s.bill with pinCodes := (s.now, code) :: s.keptCodes } })

end Sys2Proof.Machine
end

