-- ==== Sys2Proof/Machine/Calibrate.lean ====
section
/-! DEFINITION. Group 04h: CAL_SWEEP, CAL_STATUS, the images, the store slots and the limits (R144, R163-R173, R487, R488),
with CAL_STORE_COMPLETE and CAL_RESTORE_COMPLETE. -/

namespace Sys2Proof.Machine

/-! ### CAL_SWEEP (R144, Table 5.3) -/

/-- The converter units of a channel, lane or die handle. -/
def unitsOfHandle (h : Nat) : List Nat :=
  if hUnit h = 0x1F then (List.range 6).map (fun k => 6 * (hDie h - 1) + k) else [unitOf h]

/-- A channel or lane handle of A4, or its die handle: the sweep has an excitation channel. -/
def sweepsLanes (h : Nat) : Bool := hDie h = 5

/-- A lane carries a channel under substitution (Table 5.3). -/
def State.laneSubstitutes (s : State) (u : Nat) : Bool := 24 ≤ u && (s.conv u).job.any (fun j => j.prec ≤ 2)

/-- A unit belongs to the channel set of an armed capture. -/
def State.unitArmed (s : State) (u : Nat) : Bool :=
  s.captures.any (fun c => (c.phase = 1 || c.phase = 2) && c.die = dieOfUnit u && bit c.units (u % 6))

/-- A sweep that covers a unit is accepted and not complete. -/
def State.unitSweeping (s : State) (u : Nat) : Bool :=
  (s.sweep.running.toList ++ s.sweep.queue).any (fun o => (unitsOfHandle o.handle).contains u)

def calSweepRow : Row where
  opcode := 0x0401
  valid := fun r _ =>
    r.u 0 1 ≤ 1 && (if sweepsLanes r.handle then r.u 1 1 < 24 || r.u 1 1 = 255 else r.u 1 1 = 0) && r.zero 2 2
  body := fun r s =>
    let us := unitsOfHandle r.handle
    judged
      [ (!sweepsLanes r.handle && us.all (fun u => !(s.chan u).enabled), stWrongState),
        (us.any (fun u => s.laneSubstitutes u), stWrongState),
        (s.dieDown (hDie r.handle), stDegraded),
        (us.any (fun u => s.unitArmed u), stBusy),
        (us.any (fun u => s.unitSweeping u), stBusy),
        (8 ≤ s.sweep.queue.length, stNoResource) ] s
      (accept r s (fun tag s =>
        { s with sweep := { s.sweep with queue := s.sweep.queue ++
          [{ tag := tag, handle := r.handle, session := r.session, force := r.u 0 1 = 1, excitation := r.u 1 1, units := us }] } }))

def execCalSweep (t : Nat) (p : Port) (s : State) : Out := .next (calSweepRow.serve t p s)

/-! ### CAL_STATUS (R163, R488, Table 16.12) -/

/-- The position in the queue of the first waiting sweep of a unit, from 1; a unit whose turn is still to come in the sweep
running has position 1. -/
def State.queuePosition (s : State) (u : Nat) : Option Nat :=
  if s.sweep.running.any (fun o => o.units.contains u) then some 1
  else (s.sweep.queue.findIdx? (fun o => o.units.contains u)).map (fun k => k + 1)

/-- The sweep state of a unit and its queue position. -/
def State.sweepStateOf (s : State) (u : Nat) : Nat × Nat :=
  let w := s.sweep
  if u < 24 && !(s.chan u).enabled then (0, 0)
  else if w.unit = some u then (if w.phase = 1 then 2 else 3, 0)
  else if w.next.any (fun x => x.1 = u) then (2, 0)
  else if w.computing.any (fun d => d.unit = u) then (4, 0)
  else
    match s.queuePosition u with
    | some k => (1, k)
    | none => (if (s.conv u).cal.ramping then 5 else 0, 0)

/-- The ramp step reported: that of the trim least advanced, 0 before the first ramp. -/
def Calibration.rampStep (c : Calibration) : Nat :=
  if c.rampAt.all (fun a => a = 0) then 0 else c.step.foldl min 64

/-- 26 trims as bytes 16-71 of Table 16.12. -/
def trimBytes (l : List Int) : List Byte := (List.range 26).flatMap (fun i => leInt 2 (nth l i)) ++ zeros 4

/-- The 160 bytes of Table 16.12. -/
def State.calRecord (s : State) (u : Nat) : List Byte :=
  let c := (s.conv u).cal
  let w := s.sweepStateOf u
  le 1 (u % 6) ++ le 1 c.source ++ le 1 w.1 ++ le 1 w.2 ++ le 1 c.rampStep ++
  le 1 (ofBool (decide (u < 24) && (s.chan u).recommended)) ++ le 2 c.temperature ++ le 4 s.cal.generation ++
  outcomeWord c.outcomes ++ trimBytes c.last ++ trimBytes c.target ++ le 4 c.exciteGain ++ le 4 c.exciteSkew ++
  le 4 c.slopeSkew ++ le 4 c.overlap ++ le 4 c.recorded ++ zeros 12

def calStatusRow : Row where
  opcode := 0x0402
  body := fun r s =>
    let us := unitsOfHandle r.handle
    .done stOk (le 2 r.handle ++ le 1 us.length ++ zeros 1 ++ us.flatMap (fun u => s.calRecord u)) s

def execCalStatus (t : Nat) (p : Port) (s : State) : Out := .next (calStatusRow.serve t p s)

/-! ### Images (R166-R168, Tables 5.11 and 5.12) -/

/-- The part tag: the low 32 bits of the unique part identifier (R166). -/
def partTag : Nat := Config.partId % 4294967296

/-- The 128 bytes of Table 5.12. -/
def Calibration.imageRecord (c : Calibration) (unit : Nat) : List Byte :=
  le 1 unit ++ le 1 (ofBool c.factory + 2 * ofBool c.withheld) ++ zeros 2 ++
  (List.range 26).flatMap (fun i => leInt 2 (nth c.target i)) ++ le 4 c.exciteGain ++ le 4 c.exciteSkew ++ le 4 c.slopeSkew ++
  le 4 c.overlap ++ c.times.flatMap (le 8) ++ le 2 c.setTemperature ++ zeros 22

/-- The 2,048 bytes of Table 5.11. -/
def calImage (die generation time : Nat) (units : List Calibration) : List Byte :=
  withCrc (le 2 1 ++ le 1 die ++ zeros 1 ++ le 4 generation ++ le 8 time ++ le 4 partTag ++ zeros 4 ++
    (units.zipIdx).flatMap (fun x => x.1.imageRecord x.2) ++ zeros 1252)

/-- The calibrations of the units of a die. -/
def State.calsOf (s : State) (d : Nat) : List Calibration := (List.range 6).map (fun k => (s.conv (6 * (d - 1) + k)).cal)

def calImageReadRow : Row where
  opcode := 0x0403
  body := fun r s =>
    let d := hDie r.handle
    .done stOk (calImage d s.cal.generation s.stampNow (s.calsOf d)) s

def execCalImageRead (t : Nat) (p : Port) (s : State) : Out := .next (calImageReadRow.serve t p s)

/-- The trims in the record of a unit. -/
def Req.imageTrims (r : Req) (k : Nat) : List Int := (List.range 26).map (fun i => r.i (24 + 128 * k + 4 + 2 * i) 2)

/-- Check 3 of R168. -/
def Req.imageRanges (r : Req) : Bool :=
  r.zero 3 1 && r.zero 20 4 && r.zero 792 1252 &&
  (List.range 6).all (fun k =>
    let b := 24 + 128 * k
    r.u b 1 = k && r.u (b + 1) 1 ≤ 3 && r.zero (b + 2) 2 && r.zero (b + 106) 22 &&
    (List.range 26).all (fun i => decide ((nth (r.imageTrims k) i).natAbs ≤ Config.trimRange i)))

/-- The excitation of each kind that an image gives: it holds that of offset and gain and that of skew, and none of ratio and delay of their
own, which take the former (log 18). -/
def imageExcite (gain skew : Nat) : List Nat := [gain, gain, gain, gain, skew, skew, gain, gain]

/-- A unit takes the values of an image record (R168): its ramps start, and the channel's recommendation is armed if a value
changes (R155). The delay of a lane stays 0 (R143). -/
def State.takeImage (s : State) (r : Req) (u k : Nat) : State :=
  let b := 24 + 128 * k
  let trims := if u < 24 then r.imageTrims k else alter (r.imageTrims k) 25 (fun _ => 0)
  let changed := trims ≠ (s.conv u).cal.target
  let s := s.setCal u (fun c =>
    { (c.rampTo trims s.now) with
      source := 2, factory := bit (r.u (b + 1) 1) 0, withheld := bit (r.u (b + 1) 1) 1
      excite := imageExcite (r.u (b + 56) 4) (r.u (b + 60) 4), slopes := [r.u (b + 64) 4, r.u (b + 64) 4], overlap := r.u (b + 68) 4
      times := [r.u (b + 72) 8, r.u (b + 80) 8, r.u (b + 88) 8, r.u (b + 96) 8], setTemperature := r.u (b + 104) 2 })
  if changed && decide (u < 24) then s.setChan u (fun x => { x with recommended := false, excessRun := 0 }) else s

def calImageWriteRow : Row where
  opcode := 0x0404
  body := fun r s =>
    let d := hDie r.handle
    judged
      [ (r.u 0 2 ≠ 1 || r.u 2 1 ≠ d || r.u 2044 4 ≠ crc32c (r.payload.take 2044), stBadParam),
        (r.u 16 4 ≠ partTag, stDenied),
        (!r.imageRanges, stBadParam),
        (s.sweepOn d, stBusy) ] s
      (let s := (List.range 6).foldl (fun (s : State) k => s.takeImage r (6 * (d - 1) + k) k) s
       .done stOk [] { s with cal := { s.cal with generation := (s.cal.generation + 1) % 4294967296 } })

def execCalImageWrite (t : Nat) (p : Port) (s : State) : Out := .next (calImageWriteRow.serve t p s)

/-! ### Store slots (R169-R173) -/

/-- The newest valid slot: the higher store count. -/
def CalState.newest (c : CalState) : Option Nat :=
  match nth c.slots 0, nth c.slots 1 with
  | some a, some b => some (if a.count < b.count then 1 else 0)
  | some _, none => some 0
  | none, some _ => some 1
  | none, none => none

/-- The highest store count of a valid slot. -/
def CalState.topCount (c : CalState) : Nat := (c.slots.map (fun x => (x.map (fun y => y.count)).getD 0)).foldl max 0

/-- The bytes of a slot as the store holds it (Table 5.13). -/
def CalSlot.bytes (c : CalSlot) (slot : Nat) : List Byte :=
  withCrc (le 2 1 ++ le 1 slot ++ le 1 (ofBool c.atBoot) ++ le 4 c.count ++ le 4 c.generation ++ le 4 partTag ++
    le 8 c.time ++ zeros 8 ++ (List.range 5).flatMap (fun d => calImage (d + 1) c.generation c.time ((c.units.drop (6 * d)).take 6)))

def calStoreRow : Row where
  opcode := 0x0405
  writes := true
  valid := fun r _ => r.u 0 1 ≤ 1 && r.zero 1 3
  body := fun r s =>
    judged [(s.cal.storing.isSome || !s.cal.restoring.isEmpty, stBusy)] s
      (accept r s (fun tag s =>
        let k := match s.cal.newest with
          | some 0 => 1
          | _ => 0
        let c : CalSlot :=
          { atBoot := r.u 0 1 = 1, count := s.cal.topCount + 1, generation := s.cal.generation, time := s.stampNow
            units := s.converters.map (fun c => c.cal) }
        { s with cal := { s.cal with
            slots := alter s.cal.slots k (fun _ => none), storing := some (tag, k, c), abandoned := false } }))

def execCalStore (t : Nat) (p : Port) (s : State) : Out := .next (calStoreRow.serve t p s)

/-- CAL_STORE_COMPLETE (R170): the final CRC is written, and the slot is valid. -/
def execCalStoreComplete (t : Nat) (s : State) : Out :=
  let s := s.tickTo t
  .next
    (match s.cal.storing with
     | none => s
     | some (tag, k, c) =>
       if s.cal.abandoned then s
       else
         let detail := le 1 k ++ zeros 3 ++ le 4 c.count
         let s := { s with cal := { s.cal with storing := none } }
         if s.store.state ≠ 1 then s.completeOp tag stDegraded detail
         else
           State.completeOp { s with cal := { s.cal with slots := alter s.cal.slots k (fun _ => some c) } } tag stOk detail)

/-- The slot a CAL_RESTORE names. -/
def State.restoreSlot (s : State) (k : Nat) : Option Nat :=
  if k = 255 then s.cal.newest else if (nth s.cal.slots k).isSome then some k else none

def calRestoreRow : Row where
  opcode := 0x0406
  valid := fun r _ => (r.u 0 1 ≤ 1 || r.u 0 1 = 255) && r.zero 1 3
  body := fun r s =>
    match s.restoreSlot (r.u 0 1) with
    | none => refuse stWrongState s
    | some k =>
      judged [([1, 2, 3, 4, 5].any (fun d => s.sweepOn d), stBusy)] s
        (accept r s (fun tag s =>
          { s with cal := { s.cal with restoring := s.cal.restoring ++ [(tag, k, (nth s.cal.slots k).getD {}, decide (s.store.state = 1))] } }))

def execCalRestore (t : Nat) (p : Port) (s : State) : Out := .next (calRestoreRow.serve t p s)

/-- A calibration takes the values stored for its unit; `ramp` says whether they ramp (R165, R172). An image holds no
excitation of ratio and delay of its own. -/
def Calibration.restored (c k : Calibration) (ramp : Bool) (now : Nat) : Calibration :=
  let r := if ramp then c.rampTo k.target now
    else { c with old := k.target, target := k.target, step := List.replicate 26 64, prior := [] }
  { r with
    source := 3, factory := k.factory, withheld := k.withheld, excite := imageExcite k.exciteGain k.exciteSkew, slopes := [k.slopeSkew, k.slopeSkew], overlap := k.overlap
    times := k.times, setTemperature := k.setTemperature }

/-- All five images of a slot are applied. -/
def State.restoreCal (s : State) (k : CalSlot) (ramp : Bool) : State :=
  { s with
    converters := s.converters.mapIdx (fun u (c : Converter) =>
      match k.units[u]? with
      | some x => { c with cal := c.cal.restored x ramp s.now }
      | none => c)
    cal := { s.cal with generation := k.generation } }

/-- CAL_RESTORE_COMPLETE (R172): the images are applied and their ramps have started; DEGRADED where the store has become read-only while it
ran (Table 16.3). -/
def execCalRestoreComplete (t : Nat) (s : State) : Out :=
  let s := s.tickTo t
  .next
    (match s.cal.restoring with
     | [] => s
     | (tag, k, c, writable) :: rest =>
       let detail := le 1 k ++ zeros 3 ++ le 4 c.generation
       let s := { s with cal := { s.cal with restoring := rest } }
       if writable && s.store.state ≠ 1 then s.completeOp tag stDegraded detail
       else (s.restoreCal c true).completeOp tag stOk detail)

/-! ### CAL_LIMITS (R164, R487) -/

/-- The ranges of the thirteen limits (Table 5.8, Table 16.11). -/
def limitRanges : List (Nat × Nat) :=
  [(1, 255), (1, 256), (1, 999), (1, 1000), (1, 799), (1, 800), (1, 999), (1, 1000), (1, 399), (1, 400), (328, 32768),
   (10, 1000), (40, 1000)]

/-- The limits a request carries. -/
def Req.limits (r : Req) : List Nat := (List.range 13).map (fun i => r.u (2 + 2 * i) 2)

/-- The reply: the limits in force. -/
def State.limitBytes (s : State) : List Byte := s.cal.limits.flatMap (le 2)

def calLimitsReadRow : Row where
  opcode := 0x0407
  picks := fun r _ => r.u 0 1 ≠ 1
  valid := fun r _ => r.u 0 1 = 0 && r.zero 1 27
  body := fun _ s => .done stOk s.limitBytes s

def execCalLimitsRead (t : Nat) (p : Port) (s : State) : Out := .next (calLimitsReadRow.serve t p s)

def calLimitsWriteRow : Row where
  opcode := 0x0407
  picks := fun r _ => r.u 0 1 = 1
  valid := fun r _ =>
    r.zero 1 1 && (List.range 13).all (fun i =>
      (nth limitRanges i).1 ≤ nth r.limits i && nth r.limits i ≤ (nth limitRanges i).2)
  body := fun r s =>
    let s := { s with cal := { s.cal with limits := r.limits } }
    .done stOk s.limitBytes s

def execCalLimitsWrite (t : Nat) (p : Port) (s : State) : Out := .next (calLimitsWriteRow.serve t p s)

end Sys2Proof.Machine
end

