-- ==== Sys2Proof/Machine/Clock.lean ====
section
/-! DEFINITION. The clocks: SET_TIME, GET_TIME and SET_CLOCK_POLICY (R508, R237, R480), PPS and the rate estimate
(R448-R452), the vault's RTC (R453, R454, R243), the SYNC pin (R447) and the timing messages of the modem clock (R32). -/

namespace Sys2Proof.Machine

/-! ### SET_TIME, GET_TIME, SET_CLOCK_POLICY -/

/-- 1 January 2020 and 1 January 2100, 00:00:00 UTC, under R8: 7,305 and 36,525 days after 1 January 2000. -/
def timeFloor : Nat := 7305 * dayTicks
def timeCeiling : Nat := 36525 * dayTicks

/-- The nearest whole number of seconds (R451). -/
def wholeSeconds (d : Int) : Int := roundDiv d secTicks * (secTicks : Nat)

/-- The step of SET_TIME (R508): the time carried less the UTC of the old mapping at the instant of receipt. -/
def State.timeStep (s : State) (time rxAt : Nat) : Int :=
  let d : Int := (time : Int) - s.utcAt rxAt
  if s.clock.ppsLocked then wholeSeconds d else d

/-- A step joins the adjustments; it replaces an earlier SET_TIME for the same tick boundary, measured from the same old
mapping. -/
def State.planStep (s : State) (a : Adjustment) : State :=
  { s with bill := { s.bill with
      adjustments := s.bill.adjustments.filter (fun x => x.boundary ≠ a.boundary || x.pps ≠ a.pps) ++ [a] } }

def setTimeRow : Row where
  opcode := 0x0006
  valid := fun r _ => timeFloor ≤ r.u 0 8 && r.u 0 8 < timeCeiling
  body := fun r s =>
    let b := nextBoundary r.rxAt
    let d := s.timeStep (r.u 0 8) r.rxAt
    let a := s.utcBefore b
    let fresh := !s.clock.rtcValid
    let flags := ofBool (decide (s.clock.limit * secTicks < d.natAbs)) + 2 * ofBool fresh + 4 * ofBool s.clock.ppsLocked
    let s := s.planStep { boundary := b, step := d }
    let s := if fresh then { s with clock := { s.clock with rtcValid := true, rtcValidFrom := b } } else s
    .done stOk (le 8 a ++ leInt 8 d ++ le 1 flags ++ zeros 7) s

/-- SET_TIME (R508, R451, R243). -/
def execSetTime (t : Nat) (p : Port) (s : State) : Out := .next (setTimeRow.serve t p s)

/-- The step of the last adjustment whose instant has come. -/
def State.lastAdjustment (s : State) : Int :=
  match (s.bill.adjustments.filter (fun a => a.boundary ≤ s.now)).getLast? with
  | some a => a.step
  | none => s.clock.lastStep

/-- A phase error is still being slewed away (R450). -/
def State.slewing (s : State) : Bool := decide (s.slewGone s.now < s.clock.slew.natAbs)

def getTimeRow : Row where
  opcode := 0x0007
  body := fun _ s =>
    let c := s.clock
    .done stOk
      (le 8 s.stampNow ++ le 8 s.now ++ f32Bytes (toF32 (c.eps * 1000000)) ++
        le 1 (ofBool c.ppsLocked + 2 * ofBool c.epsValid + 4 * ofBool (!c.rtcValid) + 8 * ofBool s.slewing) ++ zeros 3 ++
        leInt 8 s.lastAdjustment) s

/-- GET_TIME (R480, Table 16.4). -/
def execGetTime (t : Nat) (p : Port) (s : State) : Out := .next (getTimeRow.serve t p s)

def setClockPolicyRow : Row where
  opcode := 0x0008
  valid := fun r _ => r.u 0 1 ≤ 1 && r.zero 1 1 && 1 ≤ r.u 2 2 && r.u 2 2 ≤ 3600
  body := fun r s =>
    .done stOk [] ({ s with clock := { s.clock with policy := r.u 0 1, limit := r.u 2 2, past := s.keptRules } } : State).journalSettings

/-- SET_CLOCK_POLICY (R237). -/
def execSetClockPolicy (t : Nat) (p : Port) (s : State) : Out := .next (setClockPolicyRow.serve t p s)

/-! ### PPS (R448-R452) -/

/-- A PPS step waits while a warning is latched or its commit runs (R452). -/
def State.stepsDeferred (s : State) : Bool := s.power.warning.isSome || s.power.commit.isSome

/-- A PPS step is made at the next tick boundary, or deferred (R450, R452). -/
def State.ppsStep (s : State) (d : Int) : State :=
  if s.stepsDeferred then { s with clock := { s.clock with deferred := some d } }
  else s.planStep { boundary := nextBoundary s.now, step := d, pps := true }

/-- A deferred step is released once the warning has cleared and the commit has ended (R452). -/
def State.releaseStep (s : State) : State :=
  match s.clock.deferred with
  | some d =>
    if s.stepsDeferred then s
    else ({ s with clock := { s.clock with deferred := none } } : State).ppsStep d
  | none => s

/-- The phase error of an edge in quarter ticks: its UTC less the nearest whole second (R450). -/
def State.phaseError (s : State) (quarter : Nat) : Int :=
  let u : Int := 4 * s.utcAt (quarter / 4) + (quarter % 4 : Nat)
  let r := u % (4 * secTicks : Nat)
  if r ≤ (2 * secTicks : Nat) then r else r - (4 * secTicks : Nat)

/-- The phase error is slewed away up to 1 ms, stepped away above (R450). -/
def State.correctPhase (s : State) (quarter : Nat) : State :=
  let e4 := s.phaseError quarter
  let e := openDiv 9 e4 4
  let s := s.reanchor
  let s := { s with clock := { s.clock with deferred := none } }
  if e4.natAbs ≤ 4 * Config.ms then { s with clock := { s.clock with slew := e } }
  else ({ s with clock := { s.clock with slew := 0 } } : State).ppsStep (-e)

/-- The rate estimate after another accepted interval (R449). -/
def State.estimate (s : State) (length : Nat) : State :=
  let lens := (length :: s.clock.ppsLens).take 64
  let s := { s with clock := { s.clock with ppsLens := lens } }
  if lens.length < 16 then s
  else
    let s := s.reanchor
    { s with clock := { s.clock with
        eps := ((lens.sum : Nat) : Rat) / ((4 * secTicks * lens.length : Nat) : Rat) - 1
        epsValid := true, epsExpiry := none } }

/-- The length of an accepted interval: 16,000,000 ticks within 1,600, in quarter ticks (R448). -/
def ppsAccepts (length : Nat) : Bool := 63993600 ≤ length && length ≤ 64006400

/-- A PPS edge with the mapping set. -/
def State.ppsSeen (s : State) (quarter : Nat) : State :=
  let length := (s.clock.ppsLast.map (fun q => quarter - q)).getD 0
  let good := ppsAccepts length
  let s := { s with clock := { s.clock with ppsLast := some quarter } }
  if s.clock.ppsLocked then
    if good then
      (({ s with clock := { s.clock with ppsAccepted := s.now } } : State).estimate length).correctPhase quarter
    else { s with clock := { s.clock with ppsRejected := sat 32 (s.clock.ppsRejected + 1) } }
  else if !good then { s with clock := { s.clock with ppsRun := 0 } }
  else if s.clock.ppsRun < 3 then { s with clock := { s.clock with ppsRun := s.clock.ppsRun + 1 } }
  else
    (({ s with clock := { s.clock with ppsLocked := true, ppsRun := 0, ppsAccepted := s.now, ppsLens := [] } } : State).ppsEvent
      1 0).correctPhase quarter

/-- PPS_EDGE (R448-R452): `quarter` is the capture instant in periods of 15.625 ns, a quarter of a tick; no edge is captured later than it is
seen. -/
def execPpsEdge (t quarter : Nat) (s : State) : Out :=
  let s := s.tickTo t
  .next (if s.firmware && s.clock.mapSet && decide (quarter / 4 ≤ s.now) then s.ppsSeen quarter else s)

/-- PPS_UNLOCK (R448): 3 s without an accepted edge; the estimate then stays valid for 3,600 s (R449). -/
def execPpsUnlock (t : Nat) (s : State) : Out :=
  let s := s.tickTo t
  .next
    (if s.firmware && s.clock.ppsLocked && s.clock.ppsAccepted + 3 * secTicks ≤ s.now then
      ({ s with clock := { s.clock with
          ppsLocked := false, ppsRun := 0
          epsExpiry := if s.clock.epsValid then some (s.clock.epsExpiry.getD (s.now + 3600 * secTicks)) else none } }
        : State).ppsEvent 0 0
    else s)

/-- RATE_ESTIMATE_EXPIRY (R449): the rate error becomes 0 and NOPPS is set. -/
def execRateEstimateExpiry (t : Nat) (s : State) : Out :=
  let s := s.tickTo t
  .next
    (if s.clock.epsExpiry.any (fun x => x ≤ s.now) then
      let s := s.reanchor
      { s with clock := { s.clock with eps := 0, epsValid := false, epsExpiry := none } }
    else s)

/-! ### The RTC (R453, R454, R243) -/

/-- RTC_WRITE (R453): at a whole UTC second S writes the RTC; it waits while the link to V is lost (Table 1.2). -/
def execRtcWrite (t : Nat) (s : State) : Out :=
  let s := s.tickTo t
  let u := s.stampNow
  let whole := u / secTicks * secTicks
  .next
    (if s.firmware && s.clock.mapSet && !s.linkLost 7 && whole ≠ s.clock.rtcCount then
      { s with clock := { s.clock with rtcCount := whole, rtcAt := s.now - u % secTicks } }
    else s)

/-- The vault marks the RTC invalid: S raises event source 94, at the next start-up where it is in reset (R243). -/
def State.rtcLost (s : State) : State :=
  let s := { s with clock := { s.clock with rtcValid := false, past := s.keptRules } }
  if s.firmware then s.raise 94 s.stampNow (objBody 0 []) else { s with power := { s.power with rtcMark := true } }

/-- RTC_CRYSTAL_STOP (R454): the count holds its value (R453), the RTC is invalid, and event source 175 is raised. -/
def execRtcCrystalStop (t : Nat) (s : State) : Out :=
  let s := s.tickTo t
  .next
    (if s.clock.rtcRuns then
      let s := ({ s with clock := { s.clock with rtcCount := s.rtcNow, rtcAt := s.now, rtcRuns := false } } : State).rtcLost
      if s.firmware then s.raise 175 s.stampNow (objBody 0 (le 1 1)) else s
    else s)

/-- RTC_OSCILLATOR_RESTART (R453): the count runs on from the value it held. -/
def execRtcOscillatorRestart (t : Nat) (s : State) : Out :=
  let s := s.tickTo t
  .next (if s.clock.rtcRuns then s else { s with clock := { s.clock with rtcRuns := true, rtcAt := s.now } })

/-! ### The SYNC pin (R447) and the modem clock (R32) -/

/-- SYNC_EDGE (R447): a pulse of at least 1 us acts as SYNC on handle 1FFFh at the first raw sample instant at least 10 us
later, unless one acted on less than 10 ms before. Where a die is down, SYNC on 1FFFh is
DEGRADED, so the edge has no effect. -/
def execSyncEdge (t widthNs : Nat) (s : State) : Out :=
  let s := s.tickTo t
  let dies := [1, 2, 3, 4, 5]
  .next
    (if (s.phase = .ready || s.phase = .running) && 1000 ≤ widthNs &&
        !s.clock.syncEdgeAt.any (fun x => s.now < x + 10 * Config.ms) && !dies.any (fun d => s.dieDown d) then
      let s := { s with clock := { s.clock with syncEdgeAt := some s.now } }
      let s := if dies.any s.sweepRuns then s.abortSweep stWrongState true else s
      s.syncAt dies (s.rawInstant (s.now + 160))
    else s)

/-- TIMING_MESSAGE (R32, Table 1.6): every 10 ms, the hardware captures that map the modem clock to the timebase. -/
def execTimingMessage (t modemCount : Nat) (s : State) : Out :=
  let s := s.tickTo t
  .next
    (if (s.phase = .ready || s.phase = .running) && !s.linkLost 6 && !s.clock.modemLost &&
        (s.clock.modemTick = 0 || s.clock.modemTick + 10 * Config.ms ≤ s.now) then
      { s with clock := { s.clock with
          modemCount := modemCount, modemTick := s.now
          modemBefore := if s.clock.modemTick = 0 then none else some (s.clock.modemCount, s.clock.modemTick) } }
    else s)

end Sys2Proof.Machine
end

