-- ==== Sys2Proof/Machine/Shadow.lean ====
section
/-! DEFINITION. Shadow contexts: applying a feed record (R250-R253), their prepayment (R266, R267) and the feeds held while
parked. -/

namespace Sys2Proof.Machine

/-! ### The feed record (Table 7.16) -/

def feedNode (b : List Byte) : Nat := field b 0 2
def feedLength (b : List Byte) : Nat := byteAt b 2
def feedTariff (b : List Byte) : Nat := byteAt b 3
def feedStatus (b : List Byte) : Nat := field b 4 2
def feedEnd (b : List Byte) : Nat := field b 8 8
def feedReg (b : List Byte) (q : Nat) : Nat := field b (16 + 8 * q) 8

/-- Whether a record follows Table 7.16 (R492). -/
def feedValid (b : List Byte) : Bool :=
  1 ≤ feedNode b && 1 ≤ feedLength b && feedLength b ≤ 60 && (feedTariff b ≤ 7 || feedTariff b = 255) && field b 6 2 = 0

/-- The live shadow context of a node address (R250). -/
def State.liveNode (s : State) (node : Nat) : Option Context := s.bill.live.find? (fun c => c.kind = 1 && c.node = node)

/-- The parked shadow context of a node address. -/
def State.parkedNode (s : State) (node : Nat) : Option Context :=
  (s.store.pool.find? (fun p => p.1.kind = 1 && p.1.node = node && s.store.parked.contains p.1.serial)).map (fun p => p.1)

/-! ### Boundaries and midnights between feeds (R252, R266) -/

/-- An instant placed in a list that ascends. -/
def insertBy (x : Nat × Bool) : List (Nat × Bool) → List (Nat × Bool)
  | [] => [x]
  | y :: l => if x.1 < y.1 then x :: y :: l else y :: insertBy x l

/-- Billing boundaries (false) and midnights (true) in order; a boundary comes before a midnight of the same instant (R257). -/
def mergeInstants (bs ms : List Nat) : List (Nat × Bool) :=
  ms.foldl (fun (l : List (Nat × Bool)) m => insertBy (m, true) l) (bs.map (fun b => (b, false)))

/-- The snapshots and standing charges of a span of time, in order; each with its boundary record where `own` says so (R244). -/
def State.passInstants (s : State) (serial flags : Nat) (own : Bool) (l : List (Nat × Bool)) : State :=
  l.foldl (fun (s : State) x =>
    let s := if own then s.journalDue serial (if x.2 then 8 else 4) x.1 else s
    if x.2 then (s.setCtx serial (fun c => { c with prepay := c.prepay.standDay x.1 })).journalDone serial 6
    else s.takeSnapshot serial flags 1 x.1 x.1) s

/-! ### Prepayment of shadow contexts (R267) -/

/-- Whether a remote status disagrees with the expected state (R267). -/
def Prepay.disagrees (p : Prepay) (status : Nat) : Bool :=
  let isOpen : Bool := (status &&& p.mask) == p.openValue
  (p.state = 5 && !isOpen) || (1 ≤ p.state && p.state ≤ 4 && isOpen)

/-- A feed's remote status is compared; two disagreements in a row open a record of kind 7, an agreement ends it. -/
def State.compareRelay (s : State) (serial : Nat) (b : List Byte) : State :=
  match s.live serial with
  | none => s
  | some c =>
    let start := feedEnd b - feedLength b * minTicks
    if c.prepay.mask = 0 then s
    else if c.prepay.disagrees (feedStatus b) then
      let run := min 2 (c.prepay.mismatchRun + 1)
      let first := if c.prepay.mismatchRun = 0 then start else (c.tamper.runOf 7 0).since
      let s := s.setCtx serial (fun c => { c with
        prepay := { c.prepay with mismatchRun := run }
        tamper := c.tamper.putRun { kind := 7, since := first, count := run } })
      if run = 2 && (c.tamper.openOf 7).isNone then
        (s.setCtx serial (fun c => { c with prepay := { c.prepay with mismatches := sat 32 (c.prepay.mismatches + 1) } })).openTamper
          serial 7 255 first (c.wordsBefore first) 0 0
      else s
    else
      (s.setCtx serial (fun c => { c with prepay := { c.prepay with mismatchRun := 0 } })).closeTamperAt serial 7 start 0

/-! ### Applying a feed (R251) -/

/-- The tariff of a feed (R251, Table 7.12). -/
def State.feedTariffOf (s : State) (c : Context) (b : List Byte) : Nat :=
  if c.source = 1 then
    if !s.rtcGood s.now && (s.clockRule s.now).policy = 1 then c.defaultTariff
    else calendarTariff c.calendar c.defaultTariff ((feedEnd b : Int) - 10 * Config.ms)
  else if feedTariff b = 255 then c.defaultTariff
  else feedTariff b

/-- Register differences join (q, t) and (q, 8) with residue 0 (R251). -/
def Context.addUnits (c : Context) (t : Nat) (diffs : List Nat) : Context :=
  { c with regs := c.regs.mapIdx (fun i v => if i % 9 = t || i % 9 = 8 then v + nth diffs (i / 9) else v) }

/-- What applying a feed does, found before anything changes. -/
structure FeedPlan where
  /-- result code of Table 16.16: 0 applied, 3 baseline, 4 discontinuity -/
  result : Nat
  /-- start of its interval: the end of the feed before it; of a baseline one remote interval before its end -/
  start : Nat
  stop : Nat
  /-- it follows the feed before it by more than the remote interval -/
  gap : Bool
  /-- it takes part in demand -/
  demand : Bool
  /-- differences of the seven registers that it bills -/
  diffs : List Nat
  /-- flags of its interval and entry (Table 7.5) -/
  flags : Nat
  deriving DecidableEq, Repr, Inhabited

/-- The plan of a feed record for a context (R251). -/
def State.feedPlan (s : State) (c : Context) (b : List Byte) (parked : Nat) : FeedPlan :=
  let stop := feedEnd b
  let based := decide (0 < c.shadow.applied)
  let nominal := c.shadow.length * minTicks
  let start := if based then c.shadow.lastEnd else stop - nominal
  let diffs := (List.range 7).map (fun q => (feedReg b q : Int) - (nth c.shadow.lastRegs q : Int))
  let result := if !based then 3 else if diffs.any (fun d => d < 0) then 4 else 0
  let gap := decide (start + nominal < stop)
  { result := result, start := start, stop := stop, gap := gap
    demand := result = 0 && !gap && feedLength b = c.shadow.length && c.demand.mode = 1
    diffs := if result = 0 then diffs.map (fun (d : Int) => d.toNat) else List.replicate 7 0
    flags := parked ||| flagIf (gap || result = 4) bfGap ||| flagIf (stop - start < nominal) bfShort |||
      (if result = 0 then s.rtcFlags c s.now else s.rtcFlags c s.now &&& bfRtcInvalid) }

/-- Step 1 of a feed: registers, charge, shadow section, and the interval and entry it opens (R251, R266). -/
def Context.takeFeed (c : Context) (x : FeedPlan) (b : List Byte) : Context :=
  let before := (List.range 7).map c.total
  let c := if x.result = 0 then c.addUnits c.tariff x.diffs else c
  let d := { c.demand with
    profStart := x.start, profEnd := x.stop, profBase := before, profFlags := c.demand.profFlags ||| x.flags, tariff := c.tariff }
  { c with
    folded := x.stop, flags := c.flags ||| x.flags
    demand := if x.demand then
        { d with
          openStart := x.stop - d.length * minTicks, openEnd := x.stop, openFlags := d.openFlags ||| x.flags
          energies := [nth x.diffs 0 * 1000, nth x.diffs 1 * 1000, nth x.diffs 6 * 1000] }
      else d
    prepay := if c.prepay.mode = 1 then c.prepay.charge c.tariff (nth x.diffs 0 * 1000) else c.prepay
    shadow := { c.shadow with
      status := feedStatus b, applied := sat 32 (c.shadow.applied + 1), lastEnd := x.stop
      lastRegs := (List.range 7).map (fun q => feedReg b q)
      discontinuities := if x.result = 4 then sat 32 (c.shadow.discontinuities + 1) else c.shadow.discontinuities }
    tamper := if c.prepay.mask ≠ 0 || c.watched then c.tamper.trailPush x.stop c.lowWords x.flags else c.tamper }

/-- Between feeds a shadow context holds no open interval (R253). -/
def Context.noInterval (c : Context) : Context := { c with demand := { c.demand with openEnd := c.demand.openStart } }

/-- Steps 2 to 4 of a feed, with their boundary and Done records (R244, R252): the demand interval and the entry close, a change of
tariff has been made, a boundary and a midnight equal to the end follow. -/
def State.feedSteps (s : State) (serial : Nat) (x : FeedPlan) (changed : Bool) (at_ : List (Nat × Bool)) : State :=
  let has := fun (m : Bool) => ofBool (at_.any (fun y => y.2 = m))
  let s := s.journalDue serial (1 + 2 * ofBool changed + 4 * has false + 8 * has true) x.stop
  let s := if x.demand then (s.closeDemand serial x.stop 0 x.stop).setCtx serial Context.noInterval else s
  let s := (s.closeProfile serial x.stop 0 x.stop).journalDone serial 2
  let s := if changed then s.journalDone serial 3 else s
  s.passInstants serial 0 false at_

/-- A feed for a live context that is neither a duplicate nor late. Result codes of Table 16.16. Settings whose tick boundary has passed are
in force for it (R228, log 45). -/
def State.useFeed (s : State) (c : Context) (b : List Byte) (parked : Nat) (journal : Bool) : Nat × State :=
  let n := c.serial
  let c := c.applyPending s.now
  let x := s.feedPlan c b parked
  let s := s.setCtx n (fun c =>
    let c := c.applyPending s.now
    if (c.prepay.mask ≠ 0 || c.watched) && c.tamper.trail.isEmpty then
      { c with tamper := c.tamper.trailPush x.start c.lowWords 0 } else c)
  let before := if x.result = 3 then [] else mergeInstants (c.boundaries x.start (x.stop - 1)) (c.midnights x.start (x.stop - 1))
  let at_ := if x.result = 3 then [] else mergeInstants (c.boundaries (x.stop - 1) x.stop) (c.midnights (x.stop - 1) x.stop)
  let s := s.passInstants n bfGap true before
  let s := if journal then s.journalFeed n b else s
  let tariff := if x.result = 0 then s.feedTariffOf c b else c.tariff
  let s := (s.changeTariff n tariff x.stop).setCtx n (fun c => c.takeFeed x b)
  let s := if x.result = 3 then s
    else s.groupFeed { serial := n, prev := x.start, stop := x.stop, lumped := x.gap, broken := x.result = 4
                       net := 1000 * ((nth x.diffs 0 : Int) - (nth x.diffs 1 : Int)) }
  let s := s.compareRelay n b
  let s := s.feedSteps n x (tariff ≠ c.tariff) at_
  (x.result, s.decideAt n x.stop)

/-- A feed for a live context (R251). -/
def State.feedLive (s : State) (c : Context) (b : List Byte) (parked : Nat) (journal : Bool) : Nat × State :=
  if c.shadow.applied > 0 && feedEnd b = c.shadow.lastEnd then
    (1, s.setCtx c.serial (fun c => { c with shadow := { c.shadow with duplicates := sat 32 (c.shadow.duplicates + 1) } }))
  else if c.shadow.applied > 0 && feedEnd b < c.shadow.lastEnd then
    (2, s.setCtx c.serial (fun c => { c with shadow := { c.shadow with rejected := sat 32 (c.shadow.rejected + 1) } }))
  else s.useFeed c b parked journal

/-- A feed for a parked context, or for one that its park has stopped, is held, or refused and counted when 96 are held (R253). -/
def State.feedParked (s : State) (c : Context) (b : List Byte) : Nat × State :=
  if c.shadow.pending.length < 96 then
    (5, (s.setAnyCtx c.serial (fun c => { c with shadow := { c.shadow with pending := c.shadow.pending ++ [b] } })).journalFeed c.serial b)
  else (6, s.setAnyCtx c.serial (fun c => { c with shadow := { c.shadow with refused := sat 16 (c.shadow.refused + 1) } }))

/-- One feed record, from a request or from a poll (R250). -/
def State.feed (s : State) (b : List Byte) : Nat × State :=
  match s.liveNode (feedNode b) with
  | some c => if (s.parkAt c.serial).any (fun x => decide (x ≤ s.now)) then s.feedParked c b else s.feedLive c b 0 true
  | none =>
    match s.parkedNode (feedNode b) with
    | some c => s.feedParked c b
    | none => (7, s)

/-- Records applied in the order sent, with their results. -/
def State.feedAll (s : State) (l : List (List Byte)) : List Nat × State :=
  l.foldl (fun (a : List Nat × State) b =>
    let r := a.2.feed b
    (a.1 ++ [r.1], r.2)) ([], s)

/-- The pending feeds of a context just unparked are applied in order (R254). -/
def State.feedPending (s : State) (serial : Nat) : State :=
  match s.live serial with
  | none => s
  | some c =>
    let s := s.setCtx serial (fun c => { c with state := c.state ||| 1, shadow := { c.shadow with pending := [] } })
    let s := c.shadow.pending.foldl (fun (s : State) b =>
      match s.live serial with
      | some c => (s.feedLive c b bfParked true).2
      | none => s) s
    s.setCtx serial (fun c => { c with state := without c.state 1 })

end Sys2Proof.Machine
end

