-- ==== Sys2Proof/Machine/ContextRows.lean ====
section
/-! DEFINITION. Group 06h: contexts and balance groups (R216-R220, R228, R229, R235, R253, R254, R273, Table 16.16,
Table 16.17). -/

namespace Sys2Proof.Machine

/-! ### The pool (R382, R383) -/

/-- Bytes in the blocks of a device: capacity less its factory bad blocks and its spare blocks. The rounding of 2 % is open
(log 12). -/
def Device.room (d : Device) : Nat :=
  let blocks := d.capacity / 262144
  if d.present then (blocks - d.bad - max 16 (openDiv 8 (blocks * 2 : Nat) 100).toNat) * 262144 else 0

/-- Size of the context pool: what no other region takes (R382). -/
def State.poolSize (s : State) : Nat :=
  (s.store.devices.foldl (fun a d => a + d.room) 0) - (64 + 16 + 128) * 1048576 - 2 * 262144 -
  (s.store.boot.layout.foldl (fun a n => a + n) 0) * 4194304

/-- Bytes reserved for a context (R383). -/
def reservation (kind : Nat) : Nat := if kind = 1 then 524288 else 2097152

/-- Bytes of the pool reserved. -/
def State.poolUsed (s : State) : Nat :=
  (s.bill.live ++ s.parkedContexts).foldl (fun a c => a + reservation c.kind) 0

/-- Event source 150 when the free part of the pool has fallen below 5 %. -/
def State.poolLow (s : State) (before : Nat) : State :=
  let low := fun (used : Nat) => (s.poolSize - used) * 20 < s.poolSize
  if low s.poolUsed && !low before then s.raise 150 s.stampNow (objBody 0 []) else s

/-! ### Contexts by handle -/

/-- The context of a request that check 9 let through. -/
def withCtx (f : Context → Req → State → Answer) : Req → State → Answer :=
  unparked (fun r s =>
    match s.ctxOf r.handle with
    | some c => f c r s
    | none => refuse stBadHandle s)

/-! ### CTX_CREATE (R217, R218) -/

/-- The first processing tick that starts after an instant. -/
def firstTickAfter (t : Nat) : Nat := t / Config.tickLen + 1

/-- Whether the payload of CTX_CREATE follows Table 16.16. -/
def Req.createValid (r : Req) : Bool :=
  let is := [0, 1, 2, 3].map (fun k => r.u (4 + k) 1)
  let us := [0, 1, 2, 3].map (fun k => r.u (8 + k) 1)
  r.zero 3 1 && r.zero 16 4 && r.u 2 1 ≤ 7 &&
  (if r.u 0 1 = 1 then
    r.zero 1 1 && (is ++ us).all (fun n => n = 255) && r.zero 12 1 && 1 ≤ r.u 13 1 && r.u 13 1 ≤ 60 && 1 ≤ r.u 14 2
  else
    r.zero 0 1 && r.u 1 1 ≤ 1 && (is ++ us).all (fun n => n < 24 || n = 255) && r.u 12 1 < 16 && r.zero 13 3)

/-- The refusals of R217 for a local context. -/
def Req.createFits (r : Req) (s : State) : Bool :=
  let is := [0, 1, 2, 3].map (fun k => r.u (4 + k) 1)
  let us := [0, 1, 2, 3].map (fun k => r.u (8 + k) 1)
  let i := usedChannels is
  let v := usedChannels us
  !i.isEmpty && !v.isEmpty && i.eraseDups.length = i.length && v.eraseDups.length = v.length &&
  s.meas.accepted.fits is us (r.u 1 1) && (is.zipIdx).all (fun x => x.1 < 24 || !bit (r.u 12 1) x.2)

/-- The new context of a request. -/
def Req.newContext (r : Req) (s : State) : Context :=
  let kind := r.u 0 1
  let tick := firstTickAfter r.rxAt
  let start := s.utcBefore (tickStart tick)
  let created := s.stamp r.rxAt
  let c : Context :=
    { serial := s.store.nextSerial, kind := kind, slot := s.bill.free.headD 0, created := created
      source := if kind = 1 then 2 else 0, defaultTariff := r.u 2 1, tariff := r.u 2 1, method := r.u 1 1
      currents := [0, 1, 2, 3].map (fun k => r.u (4 + k) 1), voltages := [0, 1, 2, 3].map (fun k => r.u (8 + k) 1)
      orientation := r.u 12 1, node := r.u 14 2, periodStart := created, firstTick := tick
      shadow := { length := r.u 13 1 } }
  if kind = 1 then c
  else
    ({ c with folded := start, tariff := s.tariffOf c (tickStart tick) start } : Context).restartSeries start 0

/-- A context enters the live list. -/
def State.addLive (s : State) (c : Context) : State :=
  { s with bill := { s.bill with live := s.bill.live ++ [c], free := s.bill.free.filter (fun k => k ≠ c.slot) } }

def ctxCreateRow : Row where
  opcode := 0x0601
  valid := fun r _ => r.createValid
  writes := true
  body := fun r s =>
    let shadow : Bool := r.u 0 1 = 1
    let listed := usedChannels ((List.range 8).map (fun k => r.u (4 + k) 1))
    judged
      [ (!shadow && !r.createFits s, stBadParam),
        (if shadow then (s.bill.live ++ s.parkedContexts).any (fun c => c.kind = 1 && c.node = r.u 14 2)
          else listed.any (fun n => !(s.chan n).enabled), stWrongState),
        (160 ≤ s.bill.live.length || s.poolSize < s.poolUsed + reservation (r.u 0 1), stNoResource) ] s
      (let c := r.newContext s
       let before := s.poolUsed
       let s := s.addLive c
       let s := ({ s with store := { s.store with nextSerial := s.store.nextSerial + 1 } } : State).poolWrite c
       .done stOk (le 2 (ctxHandle c) ++ zeros 2 ++ le 4 c.serial) (s.poolLow before))

def execCtxCreate (t : Nat) (p : Port) (s : State) : Out := .next (ctxCreateRow.serve t p s)

/-! ### CTX_DELETE (R219) -/

/-- A live context leaves its slot, which becomes the last to be reused (R30). -/
def State.freeSlot (s : State) (c : Context) : State :=
  { s with bill := { s.bill with live := s.bill.live.filter (fun x => x.serial ≠ c.serial), free := s.bill.free ++ [c.slot] } }

/-- A context goes, with everything the store holds of it; the event log keeps the record of kind 0100h (Table 12.18). -/
def State.deleteContext (s : State) (c : Context) : State :=
  let s := s.logAppend 0x0100 s.stampNow
    (le 4 c.serial ++ octets [c.kind, 0, 0, 0] ++ le 8 c.created ++ words ((List.range 7).map c.total))
  let s := s.groupDelete c.serial
  let s := if s.bill.live.any (fun x => x.serial = c.serial) then s.freeSlot c else s
  { s with store := { s.store with
      pool := s.store.pool.filter (fun p => p.1.serial ≠ c.serial), parked := s.store.parked.filter (fun n => n ≠ c.serial)
      snapshots := s.store.snapshots.filter (fun x => x.serial ≠ c.serial)
      profiles := s.store.profiles.filter (fun x => x.serial ≠ c.serial)
      tampers := s.store.tampers.filter (fun x => x.serial ≠ c.serial) } }

def ctxDeleteRow : Row where
  opcode := 0x0602
  writes := true
  body := unparked (fun r s =>
    let c := if r.handle = 0 then s.parkedContexts.find? (fun c => c.serial = r.u 0 4)
      else (s.ctxOf r.handle).filter (fun c => c.serial = r.u 0 4)
    match c with
    | none => refuse stBadParam s
    | some c => judged [(c.kind = 2, stWrongState)] s (.done stOk [] (s.deleteContext c)))

def execCtxDelete (t : Nat) (p : Port) (s : State) : Out := .next (ctxDeleteRow.serve t p s)

/-! ### CTX_READ (R220) -/

def ctxReadRow : Row where
  opcode := 0x0603
  valid := fun r _ => r.u 0 2 ≤ 4095 && 1 ≤ r.u 2 2 && r.u 0 2 + r.u 2 2 ≤ 4096
  body := fun r s =>
    match s.ctxOf r.handle with
    | some c => .done stOk (((s.contextBytes c).drop (r.u 0 2)).take (r.u 2 2)) s
    | none => refuse stBadHandle s

def execCtxRead (t : Nat) (p : Port) (s : State) : Out := .next (ctxReadRow.serve t p s)

/-! ### CTX_TARIFF_TABLE and CTX_DEMAND_CONFIG (R228, R229) -/

def ctxTariffTableRow : Row where
  opcode := 0x0604
  valid := fun r s =>
    (match s.ctxOf r.handle with
     | some c => if c.kind = 1 then 1 ≤ r.u 0 1 && r.u 0 1 ≤ 2 else r.u 0 1 ≤ 1
     | none => false) &&
    r.u 1 1 ≤ 7 && r.u 2 1 ≤ 28 && r.u 3 1 ≤ 23 && calendarValid (r.payload.drop 4)
  writes := true
  body := withCtx (fun c r s =>
    let s := s.setCtx c.serial (fun c => { c with newTable := some (nextBoundary s.now, r.payload ++ le 8 s.stampNow) })
    .done stOk [] (s.poolKeep c.serial))

def execCtxTariffTable (t : Nat) (p : Port) (s : State) : Out := .next (ctxTariffTableRow.serve t p s)

/-- The demand modes of R229. -/
def demandValid (c : Context) (mode length n : Nat) : Bool :=
  if c.kind = 1 then mode = 1 && n = 1 && length = c.shadow.length && [1, 5, 10, 15, 30, 60].contains length
  else
    (mode = 0 && length = 0 && n = 0) || (mode = 1 && n = 1 && [1, 5, 10, 15, 30, 60].contains length) ||
    (mode = 2 && [1, 5, 10, 15, 30].contains length && 2 ≤ n && n ≤ 15 && n * length ≤ 60)

def ctxDemandConfigRow : Row where
  opcode := 0x0605
  valid := fun r s =>
    r.zero 3 1 && (match s.ctxOf r.handle with
      | some c => demandValid c (r.u 0 1) (r.u 1 1) (r.u 2 1)
      | none => false)
  body := withCtx (fun c r s =>
    let s := s.setCtx c.serial (fun c =>
      if c.kind = 1 then { c with demand := { c.demand with mode := r.u 0 1, length := r.u 1 1, n := r.u 2 1 } }
      else { c with newDemand := some (nextBoundary s.now, r.u 0 1, r.u 1 1, r.u 2 1) })
    .done stOk [] (s.poolKeep c.serial))

def execCtxDemandConfig (t : Nat) (p : Port) (s : State) : Out := .next (ctxDemandConfigRow.serve t p s)

/-! ### CTX_SNAPSHOT_READ (R235) -/

def ctxSnapshotReadRow : Row where
  opcode := 0x0606
  body := withCtx (fun c r s =>
    match s.store.snapshots.find? (fun x => x.serial = c.serial && (r.u 0 4 = 0 || x.period = r.u 0 4)) with
    | some x => .done stOk x.bytes s
    | none => refuse stBadParam s)

def execCtxSnapshotRead (t : Nat) (p : Port) (s : State) : Out := .next (ctxSnapshotReadRow.serve t p s)

/-! ### CTX_PARK (R253) -/

def ctxParkRow : Row where
  opcode := 0x0607
  writes := true
  body := fun r s =>
    match s.ctxOf r.handle with
    | none => refuse stBadHandle s
    | some c =>
      judged [(c.kind = 2, stWrongState), (bit c.state 1, stBusy), (8192 ≤ s.store.parked.length, stNoResource)] s
        (accept r s (fun tag s =>
          let s := s.setCtx c.serial (fun c => { c with state := c.state ||| 2 })
          { s with bill := { s.bill with parking := s.bill.parking ++ [(c.serial, tag, r.session, nextBoundary s.now)] } }))

def execCtxPark (t : Nat) (p : Port) (s : State) : Out := .next (ctxParkRow.serve t p s)

/-- The billing boundaries and midnights of a span the context did not run through: snapshots under R247, 36 at most, each
midnight charged (R257). -/
def State.catchUp (s : State) (serial lo hi flags : Nat) : State :=
  match s.live serial with
  | none => s
  | some c =>
    let bs := c.boundaries lo hi
    let last := bs.getLastD 0
    let some_ := if bs.length ≤ 36 then bs else bs.take 35 ++ [last]
    (mergeInstants some_ (c.midnights lo hi)).foldl (fun (s : State) x =>
      if x.2 then s.setCtx serial (fun c => { c with prepay := c.prepay.standDay x.1 })
      else s.takeSnapshot serial flags (if x.1 = last then bs.length + 1 - some_.length else 1) x.1 x.1) s

/-- A context that a park stopped runs again from an instant on: a shadow context applies the feeds held, a local one starts its series anew
with the next tick (R254). -/
def State.runAgain (s : State) (c : Context) (at_ : Nat) : State :=
  if c.kind = 1 then s.feedPending c.serial
  else
    let tick := firstTickAfter at_
    let start := s.utcBefore (tickStart tick)
    let s := s.catchUp c.serial c.folded start (bfLate + bfParked)
    let s := s.setCtx c.serial (fun c =>
      let c := { c with
        firstTick := tick, folded := start, flags := c.flags ||| bfParked, tamper := { c.tamper with runs := [], trail := [] } }
      (c.restartSeries start (bfShort + bfParked)).startTrail)
    (s.sourceTariff c.serial (tickStart tick) start).decideAt c.serial start

/-- The park of a context that has stopped at an instant completes: its open records close, its record is written, its slot is freed. Its
interval and entry have closed at the boundary (R253). Where the store has become read-only the record cannot be written: the park ends
DEGRADED (Table 16.3), and the context keeps its slot and runs again (DESIGN CHOICE, log 96). -/
def State.finishPark (s : State) (serial tag instant : Nat) : State :=
  match s.live serial with
  | none => s
  | some c =>
    let parking := s.bill.parking.filter (fun p => p.1 ≠ serial)
    if s.storeWrites then
      let s := s.closeTampers serial (if c.kind = 1 then instant else c.folded) 8 [0, 1, 2, 3, 4, 5, 6, 7]
      let s := s.setCtx serial (fun c => { c with
        state := 0, flags := c.flags ||| bfParked, parkedSeq := s.store.nextJournal - 1, prepay := { c.prepay with mismatchRun := 0 } })
      let s := (s.poolKeep serial).freeSlot c
      let s := { s with store := { s.store with parked := s.store.parked ++ [serial] }, bill := { s.bill with parking := parking } }
      s.completeOp tag stOk (le 4 serial)
    else
      let s := ({ s with bill := { s.bill with parking := parking } } : State).setCtx serial (fun c => { c with state := 0 })
      (s.runAgain c s.now).completeOp tag stDegraded (le 4 serial)

/-- CTX_PARK_COMPLETE (R253): once the fold has reached the park's tick boundary and its actions are done. -/
def execCtxParkComplete (t serial : Nat) (s : State) : Out :=
  let s := s.tickTo t
  .next
    (match s.bill.parking.find? (fun p => p.1 = serial) with
     | some p => if p.2.2.2 ≤ tickStart s.bill.nextFold && !s.warned then s.finishDue.finishPark serial p.2.1 (s.stamp p.2.2.2) else s
     | none => s)

/-! ### CTX_UNPARK (R254, R247) -/

/-- A parked context takes a slot again. -/
def State.unpark (s : State) (c : Context) (rxAt : Nat) : State :=
  let c := { c with slot := s.bill.free.headD 0, state := 0, flags := c.flags ||| bfParked }
  let s := (s.addLive c)
  ({ s with store := { s.store with parked := s.store.parked.filter (fun n => n ≠ c.serial) } } : State).runAgain c rxAt

def ctxUnparkRow : Row where
  opcode := 0x0608
  body := fun r s =>
    match s.parkedContexts.find? (fun c => c.serial = r.u 0 4) with
    | none => refuse stBadParam s
    | some c =>
      judged [(160 ≤ s.bill.live.length, stNoResource)] s
        (.done stOk (le 2 (0x0200 + s.bill.free.headD 0) ++ zeros 2) (s.unpark c r.rxAt))

def execCtxUnpark (t : Nat) (p : Port) (s : State) : Out := .next (ctxUnparkRow.serve t p s)

/-! ### CTX_SHADOW_FEED (R251) -/

/-- The records of a feed request. -/
def Req.feeds (r : Req) : List (List Byte) := (List.range (r.u 0 1)).map (fun k => (r.payload.drop (4 + 72 * k)).take 72)

def ctxShadowFeedRow : Row where
  opcode := 0x0609
  valid := fun r _ => 1 ≤ r.u 0 1 && r.u 0 1 ≤ 56 && r.zero 1 3 && r.feeds.all feedValid
  body := fun r s =>
    let a := s.feedAll r.feeds
    .done stOk (octets [r.u 0 1, 0, 0, 0] ++ octets a.1) a.2

def execCtxShadowFeed (t : Nat) (p : Port) (s : State) : Out := .next (ctxShadowFeedRow.serve t p s)

/-! ### BALANCE_CONFIG (R273, R493) -/

/-- The group of a handle. -/
def Req.group (r : Req) : Nat := r.handle - 0x0300

/-- The configuration of a group last accepted. -/
def Group.accepted (g : Group) : GroupChange :=
  match g.next with
  | some n => n
  | none =>
    { feeder := g.feeder, length := g.length, k := g.k, hold := g.hold, relative := g.relative, absolute := g.absolute
      members := g.members }

/-- Member entries of a request. -/
def Req.members (r : Req) : List Member :=
  (List.range (r.u 16 2)).map (fun k => { serial := r.u (20 + 5 * k) 4, phase := r.u (24 + 5 * k) 1 })

/-- Header and entries follow Table 16.17. -/
def Req.balanceValid (r : Req) : Bool :=
  r.zero 3 1 && r.zero 18 2 && r.u 16 2 ≤ 800 &&
  (if r.u 0 1 = 0 then
    [15, 30, 60].contains (r.u 1 1) && 1 ≤ r.u 2 1 && r.u 2 1 ≤ 16 && 15 ≤ r.u 8 2 && r.u 8 2 ≤ 2880 && 1 ≤ r.u 10 2 &&
    r.u 10 2 ≤ 1000 && 1 ≤ r.u 12 4 && r.u 12 4 ≤ 10000000 && r.zero 16 2
  else r.u 0 1 ≤ 3 && r.zero 1 2 && r.zero 4 12 && (r.u 0 1 ≠ 3 || r.zero 16 2)) &&
  r.members.all (fun m => m.phase ≤ 3 || m.phase = 255)

/-- A member that a group of a feeder and an interval length may have (R273). -/
def State.memberFits (s : State) (feeder length : Nat) (m : Member) : Bool :=
  match s.ctxAny m.serial with
  | none => false
  | some c => m.serial ≠ feeder && (c.kind ≠ 1 || (m.phase ≠ 255 && 1 ≤ c.shadow.length && length % c.shadow.length = 0))

/-- Member entries of every group but one. -/
def State.otherMembers (s : State) (g : Nat) : Nat :=
  (s.bill.groups.zipIdx).foldl (fun (a : Nat) x => if x.2 = g then a else a + x.1.accepted.members.length) 0

/-- UTC at which the first interval of a group starts: the next multiple of its length. -/
def State.groupStart (s : State) (length : Nat) : Nat := multipleAfter (length * minTicks) s.foldUtc

/-- A configuration is accepted for a group. -/
def State.acceptGroup (s : State) (g : Nat) (n : GroupChange) : State :=
  let old := (nth s.bill.groups g).accepted
  let s := s.setGroup g (fun x => { x with
    next := some n
    startAt := if x.opened.isNone && (x.next.isNone || old.length ≠ n.length) then s.groupStart n.length else x.startAt })
  let s := if old.feeder ≠ n.feeder && old.feeder ≠ (nth s.bill.groups g).feeder then
      s.dropFeeder old.feeder g
    else s
  if n.feeder = 0 then s else s.nameFeeder n.feeder g

/-- Members after an addition: one added again takes its new phase. -/
def addMembers (l new : List Member) : List Member :=
  new.foldl (fun (l : List Member) m => l.filter (fun x => x.serial ≠ m.serial) ++ [m]) l

def balanceParametersRow : Row where
  opcode := 0x060A
  picks := fun r _ => r.u 0 1 = 0 || 3 < r.u 0 1
  valid := fun r _ => r.balanceValid
  body := fun r s =>
    let g := r.group
    let old := (nth s.bill.groups g).accepted
    let feeder := r.u 4 4
    judged
      [ (!old.members.all (fun m => s.memberFits feeder (r.u 1 1) m), stBadParam),
        (match s.live feeder with
         | some c => c.kind = 1 || (c.kind = 2 && c.feederOf ≠ g)
         | none => true, stWrongState) ] s
      (.done stOk [] (s.acceptGroup g { old with
        feeder := feeder, length := r.u 1 1, k := r.u 2 1, hold := r.u 8 2, relative := r.u 10 2, absolute := r.u 12 4 }))

def execBalanceConfigParameters (t : Nat) (p : Port) (s : State) : Out := .next (balanceParametersRow.serve t p s)

def balanceAddRow : Row where
  opcode := 0x060A
  picks := fun r _ => r.u 0 1 = 1
  valid := fun r _ => r.balanceValid
  body := fun r s =>
    let g := r.group
    let old := (nth s.bill.groups g).accepted
    let new := addMembers old.members r.members
    judged
      [ (!r.members.all (fun m => s.memberFits old.feeder old.length m), stBadParam), (old.feeder = 0, stWrongState),
        (4096 < new.length || 16384 < s.otherMembers g + new.length, stNoResource) ] s
      (.done stOk [] (s.acceptGroup g { old with members := new }))

def execBalanceConfigAdd (t : Nat) (p : Port) (s : State) : Out := .next (balanceAddRow.serve t p s)

def balanceRemoveRow : Row where
  opcode := 0x060A
  picks := fun r _ => r.u 0 1 = 2
  valid := fun r _ => r.balanceValid
  body := fun r s =>
    let g := r.group
    let old := (nth s.bill.groups g).accepted
    judged
      [ (!r.members.all (fun m => old.members.any (fun x => x.serial = m.serial)) && old.feeder ≠ 0, stBadParam),
        (old.feeder = 0, stWrongState) ] s
      (.done stOk [] (s.acceptGroup g { old with
        members := old.members.filter (fun x => !r.members.any (fun m => m.serial = x.serial)) }))

def execBalanceConfigRemove (t : Nat) (p : Port) (s : State) : Out := .next (balanceRemoveRow.serve t p s)

def balanceDissolveRow : Row where
  opcode := 0x060A
  picks := fun r _ => r.u 0 1 = 3
  valid := fun r _ => r.balanceValid
  body := fun r s =>
    let g := r.group
    .done stOk [] (if (nth s.bill.groups g).accepted.feeder = 0 then s else s.acceptGroup g { })

def execBalanceConfigDissolve (t : Nat) (p : Port) (s : State) : Out := .next (balanceDissolveRow.serve t p s)

/-! ### BALANCE_READ (R275, R493) -/

/-- The intervals of a group by age, the latest opened first. Without an open interval age 0 is the newest. -/
def Group.byAge (g : Group) : List GroupInterval :=
  (g.opened.toList ++ g.provisional ++ g.final).foldl (fun (l : List GroupInterval) x =>
    l.takeWhile (fun y => x.place < y.place) ++ x :: l.dropWhile (fun y => x.place < y.place)) []

def balanceReadResultsRow : Row where
  opcode := 0x060B
  picks := fun r _ => r.u 0 1 ≠ 1
  valid := fun r _ => r.u 0 1 = 0 && 1 ≤ r.u 1 1 && r.u 1 1 ≤ 26
  body := fun r s =>
    let g := nth s.bill.groups r.group
    let l := ((g.byAge).drop (r.u 2 2)).take (r.u 1 1)
    .done stOk (octets [l.length, 0] ++ le 2 g.accepted.members.length ++ zeros 4 ++ l.flatMap (fun x => x.bytes r.group)) s

def execBalanceReadResults (t : Nat) (p : Port) (s : State) : Out := .next (balanceReadResultsRow.serve t p s)

def balanceReadMembersRow : Row where
  opcode := 0x060B
  picks := fun r _ => r.u 0 1 = 1
  valid := fun r _ => 1 ≤ r.u 1 1
  body := fun r s =>
    let ms := (nth s.bill.groups r.group).accepted.members
    let l := (ms.drop (r.u 2 2)).take (r.u 1 1)
    .done stOk (octets [l.length, 0] ++ le 2 ms.length ++ zeros 4 ++ l.flatMap (fun m => le 4 m.serial ++ le 1 m.phase)) s

def execBalanceReadMembers (t : Nat) (p : Port) (s : State) : Out := .next (balanceReadMembersRow.serve t p s)

end Sys2Proof.Machine
end

