-- ==== Sys2Proof/Machine/Owner.lean ====
section
/-! DEFINITION. What follows when ownership moves or a session ends: elections (R60, R61), handovers (R66, R67), loss of
ownership (R64), and the firmware update that belongs to a session (R417). -/

namespace Sys2Proof.Machine

/-! ### Firmware update of a session (R417) -/

/-- An open update is abandoned: event source 176 with outcome 2; no rule says which status of Table 2.6 it carries
(log 11). -/
def State.abandonUpdate (s : State) : State :=
  match s.sec.update with
  | none => s
  | some u =>
    let d := s.draw
    let s := { d.2 with sec := { d.2.sec with update := none } }
    s.raise 176 s.stampNow (objBody 0 (le 1 u.slot ++ le 1 2 ++ le 2 (d.1 % 17)))

/-- The update of a session that ended or lost ownership is abandoned. -/
def State.abandonUpdateOf (s : State) (k : Nat) : State :=
  if s.sec.update.any (fun u => u.session = k) then s.abandonUpdate else s

/-! ### Handover -/

/-- A pending handover ends: its YIELD completes with this status (R66, R67). -/
def State.endHandover (s : State) (status : Nat) : State :=
  match s.host.handover with
  | none => s
  | some h =>
    State.completeOp { s with host := { s.host with handover := none } } h.tag status (le 1 h.successor)

/-- The owner loses ownership: a pending handover is denied, its update is abandoned, and nobody owns the part
(R64, R67, R417). -/
def State.loseOwner (s : State) (cause : Nat) : State :=
  match s.host.owner with
  | none => s
  | some k => ((s.endHandover stDenied).abandonUpdateOf k).setOwner none cause

/-! ### Elections (R60, R61) -/

/-- The priority by which a session is judged: that of its last claim. -/
def Election.priorityOf (e : Election) (k : Nat) : Option Nat :=
  ((e.claims.filter (fun c => c.session = k)).getLast?).map (fun c => c.priority)

/-- Winner of a window: highest priority, then lowest session number (R61). -/
def Election.winner (e : Election) : Option (Nat × Nat) :=
  (List.range 8).foldl (fun best k =>
    match e.priorityOf k with
    | none => best
    | some p =>
      match best with
      | none => some (k, p)
      | some b => if b.2 < p then some (k, p) else best) none

/-- The window ends: every CLAIM completes, and the winner becomes the owner as of that end (R61, R63). -/
def State.endElection (s : State) : State :=
  match s.host.election with
  | none => s
  | some e =>
    let s := { s with host := { s.host with election := none } }
    match e.winner with
    | none => s
    | some w =>
      let s := e.claims.foldl (fun s c =>
        s.completeOp c.tag (if c.session = w.1 then stOk else stDenied) (le 1 w.1 ++ le 1 w.2)) s
      let s := s.setOwner (some w.1) 0
      { s with host := { s.host with keepAt := e.endAt } }

/-- A session withdraws its claims as it closes; a window without claims ends (R61). -/
def State.withdraw (s : State) (k : Nat) : State :=
  match s.host.election with
  | none => s
  | some e =>
    let gone := e.claims.filter (fun c => c.session = k)
    let left := e.claims.filter (fun c => c.session ≠ k)
    let s := gone.foldl (fun s c => s.completeOp c.tag stDenied []) s
    { s with host := { s.host with election := if left.isEmpty then none else some { e with claims := left } } }

/-- A session closes: its queue, marks, stored reply and signed quote go (R57, R421); its claims are withdrawn; ownership and a handover
that names it end (R57, R61, R64, R67); the completion of its operations is discarded (R56). -/
def State.closeSession (s : State) (k : Nat) : State :=
  let s := s.setSession k (fun _ => {})
  let s := s.withdraw k
  let s := if s.host.owner = some k then s.loseOwner 2 else s
  let s := if s.host.handover.any (fun h => h.successor = k) then s.endHandover stDenied else s
  let s := s.abandonUpdateOf k
  { s with host := { s.host with
      ops := alterWhere s.host.ops (fun o => o.session = k) (fun o => { o with session := 255 }) } }

end Sys2Proof.Machine
end

