-- ==== Sys2Proof/Machine/Session.lean ====
section
/-! DEFINITION. Group 01h: sessions and ownership (R57-R68, Table 16.4). -/

namespace Sys2Proof.Machine

/-- Bytes 0-3 of the OPEN and WHO_OWNS replies: owner, named successor, election window (Table 16.4). -/
def State.ownership (s : State) : List Byte :=
  le 1 (orFF s.host.owner) ++ le 1 (orFF (s.host.handover.map (fun h => h.successor))) ++
  le 1 (ofBool s.host.election.isSome) ++ zeros 1

/-- The events every session receives at its OPEN: sources 172, 167 and 179 (R445, R365, R409). -/
def State.openEvents (s : State) (k : Nat) : State :=
  let s := s.raiseTo k 172 s.stampNow (objBody 0 (le 1 s.power.cause ++ le 2 s.power.causeFlags))
  let s := if s.gate.episodeEnded then s.raiseTo k 167 s.stampNow (objBody 0 []) else s
  match s.sec.advanced with
  | none => s
  | some a => s.raiseTo k 179 s.stampNow (objBody 0 (le 1 a.1 ++ le 1 a.2))

/-- OPEN (R57). -/
def openRow : Row where
  opcode := 0x0101
  body := fun r s =>
    if (s.session r.session).isOpen then refuse stWrongState s
    else
      let s := s.setSession r.session (fun _ => { isOpen := true, queue := { mask := defaultMask } })
      let s := s.openEvents r.session
      .done stOk (s.ownership ++ le 1 s.power.cause ++ zeros 3) s

def execOpenSession (t : Nat) (p : Port) (s : State) : Out := .next (openRow.serve t p s)

/-- CLOSE (R57). -/
def closeRow : Row where
  opcode := 0x0102
  body := fun r s => .done stOk [] (s.closeSession r.session)

def execCloseSession (t : Nat) (p : Port) (s : State) : Out := .next (closeRow.serve t p s)

/-- A claim taken in the election window, which it opens if none runs (R60). -/
def State.addClaim (s : State) (r : Req) (tag : Nat) : State :=
  let c : Claim := { session := r.session, priority := r.u 0 1, tag := tag }
  let e : Election :=
    match s.host.election with
    | none => { endAt := r.rxAt + 50 * Config.ms, claims := [c] }
    | some e => { e with claims := e.claims ++ [c] }
  { s with host := { s.host with election := some e } }

/-- A window that ended before a request was received ends first (R60). -/
def State.electionBefore (s : State) (rxAt : Nat) : State :=
  if s.host.election.any (fun e => e.endAt ≤ rxAt) then s.endElection else s

/-- CLAIM (R60-R62). One received at or after the end of the window waits for those received before it, which the window takes. -/
def claimRow : Row where
  opcode := 0x0103
  waits := fun r s => s.host.election.any (fun e => e.endAt ≤ r.rxAt && s.waits 0x0103 e.endAt (fun _ => true))
  valid := fun r _ => r.zero 1 3
  body := fun r s =>
    let s := s.electionBefore r.rxAt
    match s.host.owner with
    | some k => if k = r.session then .done stOk [] s else refuse stDenied s
    | none => accept r s (fun tag s => s.addClaim r tag)

def execClaim (t : Nat) (p : Port) (s : State) : Out := .next (claimRow.serve t p s)

/-- YIELD (R65). -/
def yieldRow : Row where
  opcode := 0x0104
  valid := fun r _ => r.zero 1 3 && r.u 0 1 ≤ 7 && r.u 0 1 ≠ r.session
  body := fun r s =>
    if !(s.session (r.u 0 1)).isOpen then refuse stWrongState s
    else if s.host.handover.isSome then refuse stBusy s
    else
      accept r s (fun tag s =>
        { s with host := { s.host with
            handover := some { successor := r.u 0 1, endAt := r.rxAt + Config.ticksPerSecond, tag := tag } } })

def execYield (t : Nat) (p : Port) (s : State) : Out := .next (yieldRow.serve t p s)

/-- Ownership moves to the named successor (R66). -/
def State.handOver (s : State) (k : Nat) : State :=
  let old := s.host.owner
  let s := s.endHandover stOk
  let s := match old with
    | some o => s.abandonUpdateOf o
    | none => s
  s.setOwner (some k) 1

/-- ACCEPT (R66, R68). One received after the pending second waits for the successor's that was received within it. -/
def acceptRow : Row where
  opcode := 0x0105
  waits := fun r s => s.host.handover.any (fun h => h.endAt ≤ r.rxAt && s.waits 0x0105 h.endAt (fun k => k = h.successor))
  body := fun r s =>
    match s.host.handover with
    | none => refuse stWrongState s
    | some h =>
      if h.endAt ≤ r.rxAt then refuse stWrongState (s.endHandover stTimeout)
      else if h.successor ≠ r.session then refuse stDenied s
      else .done stOk [] (s.handOver r.session)

def execAccept (t : Nat) (p : Port) (s : State) : Out := .next (acceptRow.serve t p s)

/-- KEEPALIVE (R63). -/
def keepaliveRow : Row where
  opcode := 0x0106
  body := fun r s =>
    .done stOk []
      (if s.host.owner = some r.session then { s with host := { s.host with keepAt := max s.host.keepAt r.rxAt } } else s)

def execKeepalive (t : Nat) (p : Port) (s : State) : Out := .next (keepaliveRow.serve t p s)

/-- Milliseconds left in the election window or the pending handover, or 0 (Table 16.4). -/
def State.remaining (s : State) : Nat :=
  let left := fun (e : Nat) => (openDiv 2 (((e - s.now : Nat)) : Int) Config.ms).toNat
  match s.host.election with
  | some e => left e.endAt
  | none =>
    match s.host.handover with
    | some h => left h.endAt
    | none => 0

/-- WHO_OWNS (R480). -/
def whoOwnsRow : Row where
  opcode := 0x0107
  body := fun _ s => .done stOk (s.ownership ++ le 2 s.remaining ++ zeros 2) s

def execWhoOwns (t : Nat) (p : Port) (s : State) : Out := .next (whoOwnsRow.serve t p s)

/-- ELECTION_WINDOW_END (R61), once every CLAIM received before the end has been taken (R60). -/
def execElectionWindowEnd (t : Nat) (s : State) : Out :=
  let s := s.tickTo t
  .next (if s.host.election.any (fun e => s.waits 0x0103 e.endAt (fun _ => true)) then s else s.electionBefore s.now)

/-- The instant at which the owner has been silent for 2 s (R63). -/
def State.silentAt (s : State) : Nat := s.host.keepAt + 2 * Config.ticksPerSecond

/-- OWNERSHIP_SILENCE (R63): 2 s without the receipt of a KEEPALIVE. -/
def execOwnershipSilence (t : Nat) (s : State) : Out :=
  let s := s.tickTo t
  .next (if s.silentAt ≤ s.now && !s.waits 0x0106 s.silentAt (fun k => s.host.owner = some k) then s.loseOwner 3 else s)

/-- HANDOVER_TIMEOUT (R67): no ACCEPT of the successor was received within 1 s. -/
def execHandoverTimeout (t : Nat) (s : State) : Out :=
  let s := s.tickTo t
  .next
    (match s.host.handover with
    | none => s
    | some h => if h.endAt ≤ s.now && !s.waits 0x0105 h.endAt (fun k => k = h.successor) then s.endHandover stTimeout else s)

end Sys2Proof.Machine
end

