-- ==== Sys2Proof/Machine/EventRows.lean ====
section
/-! DEFINITION. EVENT_READ with and without FLUSH, EVENT_MASK, WATERMARK_SET and FENCE, and the fence marker (R372-R380, R498). -/

namespace Sys2Proof.Machine

/-! ### EVENT_READ (R375, R379) -/

/-- The queue of a session changes. -/
def State.setQueue (s : State) (k : Nat) (f : EventQueue → EventQueue) : State :=
  s.setSession k (fun x => { x with queue := f x.queue })

def eventReadRow : Row where
  opcode := 0x0901
  picks := fun r _ => r.u 1 1 ≠ 1
  valid := fun r _ => 1 ≤ r.u 0 1 && r.u 0 1 ≤ 127 && r.u 1 1 = 0 && r.zero 2 2
  body := fun r s =>
    let d := EventQueue.deliverMany (r.u 0 1) (s.session r.session).queue
    .done stOk (le 1 d.1.length ++ zeros 1 ++ le 2 d.2.fill ++ d.1.flatten) (s.setQueue r.session (fun _ => d.2))

/-- EVENT_READ (R375). -/
def execEventRead (t : Nat) (p : Port) (s : State) : Out := .next (eventReadRow.serve t p s)

/-- A flush: every entry held is discarded, and the flushed marker of Table 12.12 is held, or takes up the new counts
(R379). -/
def EventQueue.flush (q : EventQueue) (now : Nat) : EventQueue :=
  let old := (q.flushed.map QEvent.body).getD []
  let entries := q.items.foldl (fun (n : Nat) e => n + (if isMark e.source then 1 else e.left)) (field old 0 4)
  let events := (q.items.filter (fun e => !isMark e.source)).length + field old 4 4
  let fence := (q.items.filter (fun e => e.source = 185)).foldl (fun (n : Nat) e => max n (field e.body 0 4)) (field old 8 4)
  let number := (q.flushed.map QEvent.number).getD q.next
  { q with
    items := []
    flushed := some { source := 187, cls := 0, number := number, time := now
                      body := countItem entries ++ countItem events ++ le 4 fence ++ zeros 4 }
    next := if q.flushed.isSome then q.next else q.next + 1 }

def eventReadFlushRow : Row where
  opcode := 0x0901
  picks := fun r _ => r.u 1 1 = 1
  valid := fun r _ => 1 ≤ r.u 0 1 && r.u 0 1 ≤ 127 && r.zero 2 2
  body := fun r s =>
    .done stOk (zeros 4) (s.setQueue r.session (fun q => q.flush s.stampNow))

/-- EVENT_READ with FLUSH (R379). -/
def execEventReadFlush (t : Nat) (p : Port) (s : State) : Out := .next (eventReadFlushRow.serve t p s)

/-! ### EVENT_MASK and WATERMARK_SET (R374, R380) -/

/-- A setting of one source: bits 6-2 clear, and a fixed source admitted in its own class. -/
def maskGood (source b : Nat) : Bool :=
  b &&& 0x7C = 0 && (!fixedSource source || b = 0x80 + defaultClass source)

def eventMaskRow : Row where
  opcode := 0x0902
  valid := fun r _ =>
    1 ≤ r.u 1 1 && r.u 0 1 + r.u 1 1 ≤ 192 && r.zero 2 2 &&
    (List.range (r.u 1 1)).all (fun k => maskGood (r.u 0 1 + k) (r.u (4 + k) 1))
  body := fun r s =>
    .done stOk [] (s.setQueue r.session (fun q => { q with
      mask := (List.range (r.u 1 1)).foldl (fun (m : List Nat) k => m.set (r.u 0 1 + k) (r.u (4 + k) 1)) q.mask }))

/-- EVENT_MASK (R374). -/
def execEventMask (t : Nat) (p : Port) (s : State) : Out := .next (eventMaskRow.serve t p s)

def watermarkSetRow : Row where
  opcode := 0x0903
  valid := fun r _ => r.u 0 2 ≤ 1024 && r.zero 2 2
  body := fun r s => .done stOk [] (s.setQueue r.session (fun q => { q with mark := r.u 0 2 }))

/-- WATERMARK_SET (R380). -/
def execWatermarkSet (t : Nat) (p : Port) (s : State) : Out := .next (watermarkSetRow.serve t p s)

/-! ### FENCE (R376) -/

/-- Fences whose markers have not been delivered. -/
def EventQueue.openFences (q : EventQueue) : Nat := q.fences.length + (q.items.filter (fun e => e.source = 185)).length

def fenceRow : Row where
  opcode := 0x0009
  body := fun r s =>
    let q := (s.session r.session).queue
    judged [(8 ≤ q.openFences, stNoResource)] s
      (let instant := s.stamp r.rxAt
       .done stOk (le 4 q.nextFence ++ le 8 instant)
        (s.setQueue r.session (fun q => { q with
          fences := q.fences ++ [{ number := q.nextFence, instant := instant, due := r.rxAt + 20 * Config.ms }]
          nextFence := q.nextFence + 1 })))

/-- FENCE (R376). -/
def execFence (t : Nat) (p : Port) (s : State) : Out := .next (fenceRow.serve t p s)

/-- The marker of a fence joins the queue (Table 12.10). -/
def EventQueue.markFence (q : EventQueue) (f : Fence) : EventQueue :=
  { q with
    items := q.items ++ [{ source := 185, cls := 0, number := q.next, time := f.instant
                           body := le 4 f.number ++ countItem (q.drops.filter (fun d => d < f.instant)).length ++ zeros 8 }]
    next := q.next + 1 }

/-- The fences due are marked, in order. -/
def EventQueue.markDue (q : EventQueue) (now : Nat) : EventQueue :=
  (q.fences.filter (fun f => f.due ≤ now)).foldl EventQueue.markFence { q with fences := q.fences.filter (fun f => now < f.due) }

/-- FENCE_MARKER (R376): the timebase passes F + 20 ms. -/
def execFenceMarker (t session : Nat) (s : State) : Out :=
  let s := s.tickTo t
  guarded (session < 8) (s.setQueue session (fun q => q.markDue s.now))

end Sys2Proof.Machine
end

