-- ==== Sys2Proof/Machine/Filter.lean ====
section
/-! DEFINITION. Group 03h: BANK_LOAD, BANK_SWAP, DETECTOR_SET, RESAMPLER_SET, STREAM_READ (chapter 04, R483-R486). -/

namespace Sys2Proof.Machine

/-! ### Equaliser banks (R113-R118) -/

/-- The 64 coefficients of a BANK_LOAD. -/
def Req.coefficients (r : Req) : List Int := (List.range 64).map (fun k => r.i (4 + 4 * k) 4)

/-- The narrowband and synchronous stages of a channel settle, on its home and on a lane that selects it (R128). -/
def State.disturbBank (s : State) (n : Nat) : State :=
  (List.range 6).foldl (fun (s : State) k =>
    if (s.conv (24 + k)).selects = some n then s.disturbNarrow (24 + k) else s) (s.disturbNarrow n)

/-- A bank of a channel is written; a load into the active bank settles (R114). -/
def State.loadBank (s : State) (n bank : Nat) (l : List Int) : State :=
  let s := s.setChan n (fun c => if bank = 0 then { c with bankA := l } else { c with bankB := l })
  if (s.chan n).active = bank then s.disturbBank n else s

def bankLoadRow : Row where
  opcode := 0x0301
  valid := fun r _ => r.u 0 1 ≤ 1 && r.zero 1 3
  body := fun r s =>
    let n := unitOf r.handle
    let c := s.chan n
    judged [(c.fade.isSome || c.swap.isSome, stBusy), (c.lost, stDegraded)] s
      (.done stOk [] (s.loadBank n (r.u 0 1) r.coefficients))

def execBankLoad (t : Nat) (p : Port) (s : State) : Out := .next (bankLoadRow.serve t p s)

/-- A swap with no fade running (Table 4.6). -/
def Channel.swapTo (c : Channel) (target length : Nat) (suppressed : Bool) : Channel :=
  if target = c.active then c
  else if length = 0 || suppressed then { c with active := target }
  else { c with fade := some { target := target, length := length } }

def bankSwapRow : Row where
  opcode := 0x0302
  valid := fun r _ => r.u 0 1 ≤ 1 && r.zero 1 1 && r.u 2 2 ≤ 4096
  body := fun r s =>
    let n := unitOf r.handle
    let s' := s.setChan n Channel.endFade
    if (s'.chan n).fade.isSome then
      .done stPending [] (s'.setChan n (fun c => { c with swap := some { target := r.u 0 1, length := r.u 2 2 } }))
    else if (s.chan n).lost then refuse stDegraded s
    else
      let quiet := match s.carrierUnit n with
        | some u => s.narrowSuppressed u
        | none => false
      .done stOk [] (s'.setChan n (fun c => c.swapTo (r.u 0 1) (r.u 2 2) quiet))

def execBankSwap (t : Nat) (p : Port) (s : State) : Out := .next (bankSwapRow.serve t p s)

/-! ### DETECTOR_SET (R130) -/

/-- A new length of the peak window: the peak in progress starts afresh, since its window is no more (R131). -/
def Channel.newPeakWindow (c : Channel) (ms utc : Nat) : Channel :=
  if ms = c.peakMs then c else { c with peakMs := ms, windowPeak := {}, windowAt := utc }

def detectorSetRow : Row where
  opcode := 0x0303
  valid := fun r _ => 1 ≤ r.u 0 2 && r.u 0 2 ≤ 60000 && r.u 2 1 ≤ 15 && r.u 3 1 ≤ 23
  body := fun r s =>
    let n := unitOf r.handle
    judged [((s.chan n).lost, stDegraded)] s
      (.done stOk [] (s.setChan n (fun c =>
        { c.newPeakWindow (r.u 0 2) s.stampNow with attack := r.u 2 1, decay := r.u 3 1 })))

def execDetectorSet (t : Nat) (p : Port) (s : State) : Out := .next (detectorSetRow.serve t p s)

/-! ### RESAMPLER_SET (R120, R124, R126) -/

/-- A channel the tracker may use: enabled, with role 1 or 2 (R484). -/
def State.tracks (s : State) (n : Nat) : Bool :=
  n < 24 && (s.chan n).enabled && ((nth s.meas.accepted.channels n).role = 1 || (nth s.meas.accepted.channels n).role = 2)

/-- The form on handle 0000h. -/
def resamplerSetRow : Row where
  opcode := 0x0304
  picks := fun r _ => !(1 ≤ hDie r.handle)
  valid := fun r s =>
    let a := r.u 0 1
    let b := r.u 1 1
    let c := r.u 2 1
    s.tracks a && (b = 255 || s.tracks b) && (c = 255 || s.tracks c) && !(b = 255 && c ≠ 255) && a ≠ b && a ≠ c &&
    (b ≠ c || b = 255) && r.zero 3 1 && 1 ≤ r.u 4 4 && r.u 4 4 ≤ 46341
  body := fun r s =>
    let x := s.tracker
    let fallbacks := [r.u 1 1, r.u 2 1]
    let moved : Bool := x.reference ≠ r.u 0 1 || x.fallbacks ≠ fallbacks
    let x := if moved && decide (x.state = 1) then x.toHoldover else x
    .done stOk [] { s with tracker := { x with reference := r.u 0 1, fallbacks := fallbacks, threshold := r.u 4 4 } }

def execResamplerSet (t : Nat) (p : Port) (s : State) : Out := .next (resamplerSetRow.serve t p s)

/-- The form on a channel handle: the host part of the delay, from the first cycle that starts more than 1 ms later. -/
def resamplerSetDelayRow : Row where
  opcode := 0x0304
  picks := fun r _ => 1 ≤ hDie r.handle
  valid := fun r _ => decide (-79600 ≤ r.i 0 4) && decide (r.i 0 4 ≤ 79600) && r.zero 4 4
  body := fun r s =>
    .done stOk [] (s.setChan (unitOf r.handle) (fun c => { c with nextDelay := c.nextDelay ++ [(r.i 0 4, s.now + Config.ms)] }))

def execResamplerSetDelay (t : Nat) (p : Port) (s : State) : Out := .next (resamplerSetDelayRow.serve t p s)

/-! ### STREAM_READ (R134, R135, R486) -/

/-- A record with its index. -/
abbrev Record := Int × List Byte

/-- A Table 4.1 record. -/
def StreamSample.record (x : StreamSample) : Record := (x.index, leInt 3 x.value ++ le 1 x.flags)

/-- A peak record of Table 16.10. -/
def DetectorResult.peakRecord (x : DetectorResult) : Record :=
  (x.index, leInt 4 x.high ++ leInt 4 x.low ++ le 8 x.highAt ++ le 8 x.lowAt ++ le 1 x.flags ++ zeros 7)

/-- An RMS or envelope record of Table 16.10. -/
def DetectorResult.rmsRecord (x : DetectorResult) : Record :=
  (x.index, leInt 4 x.high ++ le 1 x.flags ++ zeros 3 ++ le 8 x.highAt)

/-- The records held of a stream (Table 4.12). -/
def Channel.records (c : Channel) (code : Nat) : List Record :=
  match code with
  | 0 => c.wide.map StreamSample.record
  | 1 => c.narrow.map StreamSample.record
  | 2 => c.sync.map StreamSample.record
  | 3 => c.halfPeaks.map DetectorResult.peakRecord
  | 4 => c.windowPeaks.map DetectorResult.peakRecord
  | 5 => c.rms.map DetectorResult.rmsRecord
  | _ => c.envelopes.map DetectorResult.rmsRecord

/-- Bytes of a record of a stream. -/
def recordSize (code : Nat) : Nat := if code ≤ 2 then 4 else if code ≤ 4 then 32 else 16

/-- The contiguous run from the first record at or after an index (R134). -/
def runFrom (start : Int) (l : List Record) : List Record :=
  (l.foldl (fun (a : List Record) x =>
    if decide (x.1 < start) then a
    else
      match a with
      | [] => [x]
      | y :: _ => if x.1 = y.1 + 1 then x :: a else a) []).reverse

/-- The channel whose streams a handle names: a lane shows the one it carries, and nothing while it carries none, in a dwell or a correlation
(DESIGN CHOICE, log 89). -/
def State.streamChannel (s : State) (h : Nat) : Option Nat :=
  if 24 ≤ unitOf h then s.serves (unitOf h) else some (unitOf h)

/-- The die whose epoch counts for a channel's streams. -/
def State.streamDie (s : State) (h : Nat) : Nat :=
  if 24 ≤ unitOf h then 5 else ((s.carrierUnit (unitOf h)).map dieOfUnit).getD (hDie h)

def streamReadRow : Row where
  opcode := 0x0305
  valid := fun r _ =>
    r.u 0 1 ≤ 6 && r.zero 1 1 && r.zero 4 4 && 1 ≤ r.u 2 2 &&
    r.u 2 2 ≤ (if r.u 0 1 ≤ 2 then 1020 else if r.u 0 1 ≤ 4 then 127 else 255)
  body := fun r s =>
    let n := s.streamChannel r.handle
    judged [(r.u 0 1 = 1 && n.any (fun n => !(s.chan n).forwarding), stWrongState)] s
      (let l := match n with
        | some n => (runFrom (r.u 8 8) ((s.chan n).records (r.u 0 1))).take (r.u 2 2)
        | none => []
       let d := if l.isEmpty then s.draw else (0, s)
       let first : Nat := match l with
        | [] => d.1
        | x :: _ => x.1.toNat
       .done stOk (le 4 (s.die (s.streamDie r.handle)).epoch ++ le 2 l.length ++ le 2 (recordSize (r.u 0 1)) ++ le 8 first ++
          l.flatMap (fun x => x.2)) d.2)

def execStreamRead (t : Nat) (p : Port) (s : State) : Out := .next (streamReadRow.serve t p s)

end Sys2Proof.Machine
end

