-- ==== Sys2Proof/Machine/Coding.lean ====
section
/-! DEFINITION. What a native frame is on the wire: the header (R287), Reed-Solomon blocks and the convolutional code
(R288), the interleaver (R289), the slots and segments of a half cycle (R284), and the tone of every slot (R286). -/

namespace Sys2Proof.Machine

/-! ### Reed-Solomon over GF(256) (R288) -/

/-- Times alpha = 02h in GF(256) with field polynomial 11Dh. -/
def gfDouble (a : Nat) : Nat := if a ≥ 128 then (2 * a) ^^^ 0x11D else 2 * a

/-- The product of two field elements, by the bits of the second. -/
def gfMul (a b : Nat) : Nat :=
  ((List.range 8).foldl (fun (x : Nat × Nat) k => (if bit b k then x.1 ^^^ x.2 else x.1, gfDouble x.2)) (0, a)).1

/-- alpha to the power `k`. -/
def gfPow (k : Nat) : Nat := (List.range k).foldl (fun a _ => gfDouble a) 1

/-- A polynomial, highest coefficient first, times x - r. -/
def polyTimes (p : List Nat) (r : Nat) : List Nat :=
  List.zipWith (fun a b => a ^^^ b) (p ++ [0]) (0 :: p.map (fun c => gfMul c r))

/-- The generator: the product of x - alpha^i for i = 0-15. -/
def rsGenerator : List Nat := (List.range 16).foldl (fun p i => polyTimes p (gfPow i)) [1]

/-- One data byte enters the remainder. -/
def rsStep (rem : List Nat) (b : Byte) : List Nat :=
  let f := b.toNat ^^^ rem.headD 0
  List.zipWith (fun a g => a ^^^ gfMul f g) (rem.drop 1 ++ [0]) (rsGenerator.drop 1)

/-- A block with its 16 parity bytes. -/
def rsBlock (data : List Byte) : List Byte :=
  data ++ (data.foldl rsStep (List.replicate 16 0)).map (BitVec.ofNat 8)

/-- The data cut into blocks of 239 bytes, each encoded. -/
def rsEncode (data : List Byte) : List Byte :=
  (List.range ((data.length + 238) / 239)).flatMap (fun k => rsBlock ((data.drop (239 * k)).take 239))

/-! ### Convolutional code (R288) -/

/-- The bits of a byte string, bit 0 first. -/
def bitsOf (bs : List Byte) : List Bool := bs.flatMap (fun b => (List.range 8).map (fun k => bit b.toNat k))

/-- Whether an odd number of the seven bits of `n` is set. -/
def parity7 (n : Nat) : Bool :=
  let x := n ^^^ (n / 16)
  let y := x ^^^ (x / 4)
  (y ^^^ (y / 2)) % 2 = 1

/-- The coded symbols: rate 1/2, constraint length 7, generators 171 and 133 octal, the 171 output as the high bit. The
register holds the newest bit as bit 6. -/
def convolve (bits : List Bool) : List Nat :=
  ((bits.foldl (fun (x : List Nat × Nat) b =>
    let reg := x.2 / 2 + (if b then 64 else 0)
    ((2 * ofBool (parity7 (reg &&& 0o171)) + ofBool (parity7 (reg &&& 0o133))) :: x.1, reg)) ([], 0)).1).reverse

/-- The symbols of a byte string followed by six zero tail bits. -/
def codedSymbols (bs : List Byte) : List Nat := convolve (bitsOf bs ++ List.replicate 6 false)

/-! ### Interleaver (R289) -/

/-- S and a of Table 9.5. -/
def interleaver (sixty long : Bool) : Nat × Nat :=
  (if sixty then (if long then 128 else 32) else (if long then 152 else 38), if long then 41 else 7)

/-- One block: the symbol at input position i goes to output position (a i) mod S. -/
def interleaveBlock (size a : Nat) (l : List Nat) : List Nat :=
  (List.range size).foldl (fun (acc : List Nat) i => acc.set (a * i % size) (l.getD i 0)) (List.replicate size 0)

/-- Symbols padded with symbol 0 to whole blocks, and interleaved. -/
def interleave (size a : Nat) (l : List Nat) : List Nat :=
  (List.range ((l.length + size - 1) / size)).flatMap (fun k => interleaveBlock size a ((l.drop (size * k)).take size))

/-- Payload symbols of a frame (R288). -/
def payloadSymbols (sixty long : Bool) (data : List Byte) : List Nat :=
  interleave (interleaver sixty long).1 (interleaver sixty long).2 (codedSymbols (rsEncode data))

/-- The padded symbol count Y of a payload of `n` data bytes (R328). -/
def paddedCount (sixty long : Bool) (n : Nat) : Nat :=
  let size := (interleaver sixty long).1
  (8 * (n + 16 * ((n + 238) / 239)) + 6 + size - 1) / size * size

/-! ### Header (R287) -/

/-- The eight header bytes, with the CRC-16. -/
def frameHeader (isMap link long : Bool) (version source attenuation length : Nat) : List Byte :=
  let blocks := (length + 238) / 239
  let b := octets [1 + 4 * ofBool isMap + 8 * ofBool link + 16 * ofBool long, version] ++ le 2 source ++
    octets [attenuation + 32 * ((blocks - 1) % 8), length - 239 * (blocks - 1)]
  b ++ le 2 (crc16 b)

/-- A header whose CRC holds, with format 01b and every reserved bit clear. -/
def headerGood (h : List Byte) : Bool :=
  field h 6 2 = crc16 (h.take 6) && byteAt h 0 % 4 = 1 && byteAt h 0 / 32 = 0 && byteAt h 1 / 16 = 0 && byteAt h 4 / 128 = 0

/-- The CRC of a header holds. -/
def headerCrc (h : List Byte) : Bool := field h 6 2 = crc16 (h.take 6)

def headerIsMap (h : List Byte) : Bool := bit (byteAt h 0) 2
def headerLink (h : List Byte) : Bool := bit (byteAt h 0) 3
def headerVersion (h : List Byte) : Nat := byteAt h 1
def headerSource (h : List Byte) : Nat := field h 2 2
def headerAttenuation (h : List Byte) : Nat := byteAt h 4 % 32

/-! ### Slots (R284) -/

/-- Slots of a half cycle of `half` ticks: n = floor((H - 50 us) / 0.5 ms). -/
def slotsIn (half : Rat) : Nat := ((half - 800) / 8000).floor.toNat

/-- The segment of slot `k`. -/
def segmentOf (half : Rat) (k : Nat) : Nat := (((8000 * k + 4000 : Nat) : Rat) * 8 / half).floor.toNat

/-! ### Tones (R286, R291) -/

/-- The quads D1 and D2 of the default map. -/
def quad1 : List Nat := [1, 5, 9, 13]
def quad2 : List Nat := [15, 19, 23, 27]

/-- A symbol on the default map: D1, then D2. -/
def defaultTones (l : List Nat) : List Nat := l.flatMap (fun v => [nth quad1 v, nth quad2 v])

/-- Preamble, delimiter and header: 172 slots (Table 9.3). -/
def openingTones (header : List Byte) : List Nat :=
  List.range 28 ++ [nth quad1 3, nth quad2 0, nth quad1 2, nth quad2 1] ++ defaultTones (codedSymbols header)

/-- What a frame still has to send: tones for every slot, then symbols for the slots of unmuted segments. -/
structure Unsent where
  /-- the tones laid out -/
  tones : List Nat := []
  /-- tones for every slot -/
  fixed : List Nat := []
  /-- payload symbols on the link map -/
  symbols : List Nat := []

/-- The slots of a half cycle from slot `k` on: FFh where the segment is muted. -/
def layHalf (half : Rat) (map : List (Option (List Nat))) : Nat → Nat → Unsent → Unsent
  | 0, _, x => x
  | n + 1, k, x =>
    match x.fixed, x.symbols with
    | t :: rest, _ => layHalf half map n (k + 1) { x with tones := x.tones ++ [t], fixed := rest }
    | [], [] => x
    | [], v :: rest =>
      match nth map (segmentOf half k) with
      | some quad => layHalf half map n (k + 1) { x with tones := x.tones ++ [nth quad v], symbols := rest }
      | none => layHalf half map n (k + 1) { x with tones := x.tones ++ [255] }

/-- What a frame sends (R286, R288): on the default map tones only. -/
def frameUnsent (sixty long : Bool) (map : Option (List (Option (List Nat)))) (header data : List Byte) : Unsent :=
  let l := payloadSymbols sixty long data
  match map with
  | none => { fixed := openingTones header ++ defaultTones l }
  | some _ => { fixed := openingTones header, symbols := l }

/-! ### Map entries (R291) -/

/-- The four bytes of a map entry. -/
def entryOctets (e : Option (List Nat)) : List Byte := octets (e.getD [255, 255, 255, 255])

/-- The eight entries of 32 bytes: `none` where they break R291. -/
def readMap (bs : List Byte) : Option (List (Option (List Nat))) :=
  let es := (List.range 8).map (fun k => (List.range 4).map (fun v => byteAt bs (4 * k + v)))
  let muted := fun (e : List Nat) => e.all (fun x => x = 255)
  let good := fun (e : List Nat) => muted e || (e.all (fun x => x < 28) && e.eraseDups.length = 4)
  if es.all good && !es.all muted then some (es.map (fun e => if muted e then none else some e)) else none

/-- The tones a map uses. -/
def mapTones (m : List (Option (List Nat))) : List Nat := m.flatMap (fun e => e.getD [])

/-- Segments a map leaves unmuted. -/
def unmutedCount (m : List (Option (List Nat))) : Nat := (m.filter Option.isSome).length

end Sys2Proof.Machine
end

