-- ==== Sys2Proof/Machine/Network.lean ====
section
/-! DEFINITION. What the line modem and P1 share: neighbour slots and their link cost (R309, R316), frames of the network
layer (R311-R315), transactions and their attempts (R327-R331), and the route pass (R319-R321). -/

namespace Sys2Proof.Machine

/-! ### Pieces of state -/

def State.setLine (s : State) (f : LineState → LineState) : State := { s with line := f s.line }
def State.setMesh (s : State) (f : MeshState → MeshState) : State := { s with mesh := f s.mesh }

/-- A part counter of Table 9.13 grows. -/
def State.lineCount (s : State) (index n : Nat) : State :=
  s.setLine (fun l => { l with counters := alter l.counters index (fun c => sat 32 (c + n)) })

/-- A mesh counter of R496 grows. -/
def State.meshCount (s : State) (index n : Nat) : State :=
  s.setMesh (fun m => { m with counters := alter m.counters index (fun c => sat 32 (c + n)) })

/-- The line functions are stopped: the link to M or the modem crystal is lost (Table 1.2, R454). -/
def State.lineDown (s : State) : Bool := s.linkLost 6 || s.clock.modemLost

/-- P1 and M run. -/
def State.lineRuns (s : State) : Bool := s.phase = .ready || s.phase = .running

def State.node (s : State) (address : Nat) : Option Node := s.mesh.nodes.find? (fun n => n.address = address)
def State.admitted (s : State) (address : Nat) : Bool := s.mesh.nodes.any (fun n => n.address = address)

def State.setNode (s : State) (address : Nat) (f : Node → Node) : State :=
  s.setMesh (fun m => { m with nodes := alterWhere m.nodes (fun n => n.address = address) f })

/-- The neighbour slot a node holds. -/
def State.neighbour (s : State) (address : Nat) : Option Neighbour := s.line.neighbours.find? (fun n => n.node = address)

/-- The handle of a neighbour slot. -/
def Neighbour.handle (n : Neighbour) : Nat := 0xC000 + n.slot

/-- The handle of the slot a node holds, or 0000h. -/
def State.nodeHandle (s : State) (address : Nat) : Nat := ((s.neighbour address).map Neighbour.handle).getD 0

/-! ### Link cost (R316) -/

/-- The least receive SNR over the unmuted segments. -/
def Neighbour.rxMin (n : Neighbour) : Int :=
  ((n.rxSnr.zip ((n.rxMap.map ToneMap.entries).getD [])).filter (fun p => p.2.isSome)).foldl (fun (a : Int) p => min a p.1) 127

/-- The lesser unmuted segment count of the two maps, or that of the one known; none where no map is known in either direction. -/
def Neighbour.unmuted (n : Neighbour) : Option Nat :=
  match n.txMap.toList ++ n.rxMap.toList with
  | [] => none
  | l => some (l.foldl (fun (u : Nat) m => min u (unmutedCount m.entries)) 8)

/-- The lesser of the receive map's minimum SNR and the minimum reported of the transmit map, as far as there are such maps (R316). -/
def Neighbour.leastSnr (n : Neighbour) : Int := min n.rxMin (if n.txMap.isSome then n.reported else 127)

/-- The cost of the part's link to a neighbour (R316). -/
def Neighbour.cost (n : Neighbour) : Nat :=
  if n.retry = 255 || n.silent then 255
  else
    match n.unmuted with
    | some u => min 254 (4 + 2 * (24 - n.leastSnr).toNat + 6 * (8 - u) + n.retry / 8)
    | none => min 254 (64 + n.retry / 8)

/-- A neighbour slot changes; a changed cost asks for a route pass (R316, R321). -/
def State.setNeighbour (s : State) (address : Nat) (f : Neighbour → Neighbour) : State :=
  match s.neighbour address with
  | none => s
  | some n =>
    let s := s.setLine (fun l => { l with neighbours := alterWhere l.neighbours (fun x => x.node = address) f })
    if (f n).cost = n.cost then s else s.setMesh (fun m => { m with dirty := true })

/-- A slot has maps cached. -/
def Neighbour.cached (n : Neighbour) : Bool := n.txMap.isSome || n.rxMap.isSome

/-- More than 1,024 slots with cached maps: the one used least recently, other than `keep`, loses its maps (R31, R295). -/
def State.evictMaps (s : State) (keep : Nat) : State :=
  let l := s.line.neighbours.filter Neighbour.cached
  if l.length ≤ 1024 then s
  else
    match l.foldl (fun (a : Option Neighbour) n =>
      if n.node = keep || a.any (fun x => x.usedAt ≤ n.usedAt) then a else some n) none with
    | none => s
    | some n =>
      (s.setNeighbour n.node (fun n => { n with txMap := none, rxMap := none, rxOld := none })).lineCount 9 1

/-! ### Slots (R309) -/

/-- The first hop of a route. -/
def firstHop (relays : List Nat) (node : Nat) : Nat := relays.headD node

/-- Whether a node is the first hop of a route. -/
def State.isFirstHop (s : State) (address : Nat) : Bool :=
  s.mesh.nodes.any (fun n => n.route.any (fun r => firstHop r.relays n.address = address))

/-- A node heard directly for the first time receives a slot: the lowest free one, or that of the neighbour heard longest ago
that is the first hop of no route (R309, log 69). -/
def State.assignSlot (s : State) (address : Nat) : State :=
  if (s.neighbour address).isSome || !s.admitted address then s
  else
    let fresh := fun (slot : Nat) => ({ slot := slot, node := address } : Neighbour)
    if s.line.neighbours.length < 2048 then
      let slot := ((List.range 2048).find? (fun k => !s.line.neighbours.any (fun n => n.slot = k))).getD 0
      (s.setLine (fun l => { l with neighbours := l.neighbours ++ [fresh slot] })).setMesh (fun m => { m with dirty := true })
    else
      match (s.line.neighbours.filter (fun n => !s.isFirstHop n.node)).foldl (fun (a : Option Neighbour) n =>
        if a.any (fun x => x.lastValid ≤ n.lastValid) then a else some n) none with
      | none => s
      | some old =>
        let s := s.setLine (fun l => { l with
          neighbours := l.neighbours.map (fun n => if n.slot = old.slot then fresh old.slot else n) })
        (s.setMesh (fun m => { m with dirty := true })).raise 135 s.stampNow
          (objBody old.handle (le 2 old.node ++ le 2 address))

/-! ### Network frames (R311-R314) -/

/-- The key of a node or of broadcasts (R311). -/
def nodeKey (net : List Byte) (address : Nat) : List Byte := deriveKey net (octets [0x6E, 0x6F, 0x64, 0x65]) (le 2 address)
def broadcastKey (net : List Byte) : List Byte := deriveKey net (octets [0x62, 0x63, 0x73, 0x74]) (zeros 2)

/-- Bytes 0-25 of the network header (Table 10.1). -/
def netHeader (format hops origin dest number : Nat) (relays : List Nat) (counter : Nat) : List Byte :=
  octets [format, hops] ++ le 2 origin ++ le 2 dest ++ octets [number, 0] ++ fit 14 (relays.flatMap (le 2)) ++ le 4 counter

def netFormat (h : List Byte) : Nat := byteAt h 0
def netHops (h : List Byte) : Nat := byteAt h 1 % 16
def netIndex (h : List Byte) : Nat := byteAt h 1 / 16
def netOrigin (h : List Byte) : Nat := field h 2 2
def netDest (h : List Byte) : Nat := field h 4 2
def netNumber (h : List Byte) : Nat := byteAt h 6
def netRelays (h : List Byte) : List Nat := (List.range (netHops h - 1)).map (fun k => field h (8 + 2 * k) 2)
def netCounter (h : List Byte) : Nat := field h 22 4

/-- The additional data of R312: the hop index taken as 0, and the relays as zero in a broadcast. -/
def netAssociated (h : List Byte) : List Byte :=
  h.take 1 ++ octets [netHops h] ++ (h.drop 2).take 6 ++ (if bit (netFormat h) 4 then zeros 14 else (h.drop 8).take 14) ++
  (h.drop 22).take 4

/-- The nonce of R312. -/
def netNonce (h : List Byte) : List Byte :=
  (h.drop 2).take 4 ++ (h.drop 22).take 4 ++ (h.drop 6).take 1 ++ h.take 1 ++ zeros 3

/-- The part may originate frames: a network key is installed and its counter has not run out (R313). -/
def State.canOriginate (s : State) : Bool := s.sec.network.isSome && s.mesh.counter ≤ 0xFFFFFFFF

/-- A frame the part originates takes the next counter, which is journaled every 4,096 frames (R313). -/
def State.countFrame (s : State) : State :=
  let s := s.setMesh (fun m => { m with counter := m.counter + 1 })
  if s.mesh.journaled + 4096 ≤ s.mesh.counter then
    (s.setMesh (fun m => { m with journaled := m.counter })).journalSettings
  else s

/-- The payload of a data frame: header, ciphertext and MIC, CRC-32C (R314). -/
def sealFrame (key header plain : List Byte) : List Byte :=
  withCrc (header ++ fit (plain.length + 8) (ccmSeal key (netNonce header) (netAssociated header) plain))

/-- Data frames waiting in the modem (R302). -/
def State.dataQueue (s : State) : Nat := (s.line.queue.filter (fun f => !f.isMap)).length

def State.enqueueFrame (s : State) (f : TxFrame) : State := s.setLine (fun l => { l with queue := l.queue ++ [f] })

/-! ### Transactions (R327-R331) -/

def State.flight (s : State) (id : Nat) : Option Transaction := s.mesh.flights.find? (fun x => x.id = id)

def State.setFlight (s : State) (id : Nat) (f : Transaction → Transaction) : State :=
  s.setMesh (fun m => { m with flights := alterWhere m.flights (fun x => x.id = id) f })

def State.dropFlight (s : State) (id : Nat) : State :=
  s.setMesh (fun m => { m with flights := m.flights.filter (fun x => x.id ≠ id) })

/-- The detail of a LINE_SEND completion (Table 16.3). -/
def sendDetail (node length attempts : Nat) : List Byte := le 2 node ++ le 2 length ++ le 1 attempts

/-- The route score after a completed transaction, and after a failed attempt (R317). -/
def scoreDown (n : Nat) : Nat := n - (n + 7) / 8
def scoreUp (n : Nat) : Nat := min 255 (n + 40)

/-- A node enters discovery, last in order (R322). -/
def State.discover (s : State) (address : Nat) : State :=
  let s := s.setNode address (fun n => if n.state = 2 then n else { n with state := 3 })
  if s.mesh.discoveries.contains address then s
  else s.setMesh (fun m => { m with discoveries := m.discoveries ++ [address] })

/-- A transaction completes (R317, R329, R331); `length` is that of the response data. -/
def State.completeFlight (s : State) (x : Transaction) (length : Nat) : State :=
  let s := s.dropFlight x.id
  let s := s.setNeighbour (firstHop x.route.relays x.node) (fun n => { n with retry := scoreDown n.retry })
  let back := (s.node x.node).any (fun n => n.state = 2)
  let s := s.setNode x.node (fun n => { n with
    lastSuccess := s.stampNow, failures := 0, completed := sat 32 (n.completed + 1)
    state := if n.state = 2 then (if n.route.isSome then 1 else 0) else n.state })
  let s := if back then s.raise 130 s.stampNow (objBody (s.nodeHandle x.node) []) else s
  match x.op with
  | some (tag, _) => s.completeOp tag stOk (sendDetail x.node length x.attempts)
  | none => s

/-- A transaction fails after its last attempt (R329). -/
def State.failFlight (s : State) (x : Transaction) (status : Nat) : State :=
  let s := s.dropFlight x.id
  let item := match x.op with
    | some (tag, _) => tag
    | none => x.entry.getD 0xFFFF
  let s := s.raise 132 s.stampNow (objBody (s.nodeHandle x.node) (le 2 x.node ++ le 2 item))
  let s := s.setNode x.node (fun n => { n with failed := sat 32 (n.failed + 1), failures := sat 16 (n.failures + 1) })
  let s :=
    if (s.node x.node).any (fun n => 3 ≤ n.failures && n.state ≠ 2) then
      let s := s.setNode x.node (fun n => { n with state := 2 })
      (s.raise 129 s.stampNow (objBody (s.nodeHandle x.node) [])).discover x.node
    else s
  match x.op with
  | some (tag, _) => s.completeOp tag status (sendDetail x.node 0 x.attempts)
  | none => s

/-- The transmit level cannot rise: every tone of the transmit map is at its ceiling (R301). -/
def State.atCeiling (s : State) (n : Neighbour) : Bool :=
  match n.txMap with
  | some m => (mapTones m.entries).all (fun i => n.aLink ≤ nth s.line.config.ceiling i)
  | none => false

/-- a_link falls by `by_` (R301). -/
def State.raiseLevel (s : State) (address by_ : Nat) : State :=
  match s.neighbour address with
  | none => s
  | some n =>
    let s := if s.atCeiling n then s.raise 119 s.stampNow (objBody n.handle []) else s
    s.setNeighbour address (fun n => { n with aLink := n.aLink - by_ })

/-- An attempt fails: the score rises unless a route error named a later link, and the next attempt waits for the pass after a
route error (R317, R329). -/
def State.failAttempt (s : State) (x : Transaction) (routeError : Bool) : State :=
  let hop := firstHop x.route.relays x.node
  let s := if routeError then s else s.setNeighbour hop (fun n => { n with retry := scoreUp n.retry })
  if x.allowed ≤ x.attempts then s.failFlight x stTimeout
  else
    let quiet := (s.neighbour hop).any (fun n => nth n.counters 5 = x.mapsSeen)
    let s := s.setNeighbour hop (fun n => { n with counters := alter n.counters 3 (fun c => sat 32 (c + 1)) })
    let s := if quiet then s.raiseLevel hop 3 else s
    s.setFlight x.id (fun x => { x with queued := false, deadline := none, waits := routeError })

/-- The route of a node is loaded into the cache of 8,192 on S (R321). -/
def State.loadRoute (s : State) (address : Nat) : State :=
  let had := (s.node address).any Node.cached
  let s := s.setNode address (fun n => { n with cached := true, usedAt := s.now })
  if had || (s.mesh.nodes.filter Node.cached).length ≤ 8192 then s
  else
    match s.mesh.nodes.foldl (fun (a : Option Node) n =>
      if !n.cached || n.address = address || s.mesh.flights.any (fun x => x.node = n.address) ||
        a.any (fun y => y.usedAt ≤ n.usedAt) then a else some n) none with
    | none => s
    | some n => s.setNode n.address (fun n => { n with cached := false })

/-- The route an attempt takes: the one in force, or, for a node removed meanwhile, the one the transaction started with (R308, R321). -/
def State.attemptRoute (s : State) (x : Transaction) : Option Route :=
  match s.node x.node with
  | some n => n.route
  | none => if 0 < x.attempts then some x.route else none

/-- The frame of an attempt is formed and passed to the modem (R313, R321, R328). -/
def State.sendAttempt (s : State) (x : Transaction) : State :=
  match s.attemptRoute x, s.sec.network with
  | some r, some net =>
    let s := s.loadRoute x.node
    let c := s.mesh.counter
    let hop := firstHop r.relays x.node
    let header := netHeader (1 + 64 * ofBool x.long) (r.relays.length + 1) 0 x.node x.number r.relays c
    let s := s.countFrame
    let s := s.setFlight x.id (fun x => { x with
      route := r, attempts := x.attempts + 1, counter := c, queued := true, deadline := none, waits := false
      mapsSeen := ((s.neighbour hop).map (fun n => nth n.counters 5)).getD 0 })
    s.enqueueFrame { node := hop, data := sealFrame (nodeKey net x.node) header x.message, long := x.long, transaction := x.id }
  | _, _ => s.failFlight x (if s.canOriginate then stTimeout else stDegraded)

/-- Every attempt not yet passed to the modem is, while its queue has room (R328); while the vault cannot be reached they wait for its keys
(Table 1.2). -/
def State.pump (s : State) : State :=
  s.mesh.flights.foldl (fun (s : State) x =>
    match s.flight x.id with
    | some x =>
      if x.queued || x.waits || 4 ≤ s.dataQueue || s.lineDown || s.linkLost 7 || s.power.warning.isSome || s.line.config.mode ≠ 1 then s
      else if !s.canOriginate then s.failFlight x stDegraded
      else s.sendAttempt x
    | none => s) s

/-- The identifier after one: never 0, which marks a frame of no transaction. -/
def idAfter (n : Nat) : Nat := if n ≥ 0xFFFF then 1 else n + 1

/-- A transaction joins those in flight (R327). -/
def State.startFlight (s : State) (x : Transaction) : State :=
  let x := { x with id := s.mesh.nextId, number := s.mesh.nextNumber }
  s.setMesh (fun m => { m with flights := m.flights ++ [x], nextId := idAfter m.nextId, nextNumber := (m.nextNumber + 1) % 256 })

/-- Transactions in flight end without a change of costs or failure counts (Table 10.8): the link to M is lost, or a power
warning abandons them. -/
def State.endFlights (s : State) : State :=
  let xs := s.mesh.flights
  let s := s.setMesh (fun m => { m with flights := [] })
  let s := s.setLine (fun l => { l with queue := l.queue.filter (fun f => f.transaction = 0) })
  xs.foldl (fun (s : State) x =>
    match x.op with
    | some (tag, _) => s.completeOp tag stTimeout (sendDetail x.node 0 x.attempts)
    | none => s) s

/-! ### Routes (R318-R321) -/

/-- The cost of a link between two remote nodes: the larger of the two reported, 128 where only discovery recorded it
(R318). -/
def State.remoteCost (s : State) (a b : Nat) : Option Nat :=
  let l := s.mesh.links.filter (fun x => (x.a = a && x.b = b) || (x.a = b && x.b = a))
  let reported := l.filter RemoteLink.reported
  if l.isEmpty then none
  else if reported.isEmpty then some 128
  else some (reported.foldl (fun (c : Nat) x => max c x.cost) 0)

/-- The cost of a link of a path: the first is the part's own. -/
def State.linkCost (s : State) (a b : Nat) : Nat :=
  if a = 0 then ((s.neighbour b).map Neighbour.cost).getD 255 else (s.remoteCost a b).getD 255

/-- The present link costs of a path. -/
def State.pathCosts (s : State) (relays : List Nat) (node : Nat) : List Nat :=
  let stops := relays ++ [node]
  (((0 : Nat) :: stops).zip stops).map (fun p => s.linkCost p.1 p.2)

/-- Lower relay addresses first (R319). -/
def lexLess : List Nat → List Nat → Bool
  | [], [] => false
  | [], _ => true
  | _, [] => false
  | a :: l, b :: m => a < b || (a = b && lexLess l m)

/-- A candidate path: destination, cost, relays. -/
structure PathTo where
  node : Nat
  cost : Nat
  relays : List Nat

/-- The better of two paths to a node: least cost, then fewer hops, then lower relays (R319). -/
def PathTo.better (a b : PathTo) : Bool :=
  a.cost < b.cost || (a.cost = b.cost && (a.relays.length < b.relays.length ||
    (a.relays.length = b.relays.length && lexLess a.relays b.relays)))

/-- A path joins the best known ones. -/
def offerPath (l : List PathTo) (p : PathTo) : List PathTo :=
  if l.any (fun x => x.node = p.node && !p.better x) then l else p :: l.filter (fun x => x.node ≠ p.node)

/-- The paths of one link more, over the links between remote nodes (both ways). -/
def State.extendPaths (s : State) (l : List PathTo) : List PathTo :=
  s.mesh.links.foldl (fun (acc : List PathTo) k =>
    [(k.a, k.b), (k.b, k.a)].foldl (fun (acc : List PathTo) e =>
      match l.find? (fun x => x.node = e.1) with
      | some p =>
        let c := s.linkCost e.1 e.2
        if c < 255 && p.relays.length < 7 && e.2 ≠ 0 then
          offerPath acc { node := e.2, cost := p.cost + c, relays := p.relays ++ [e.1] }
        else acc
      | none => acc) acc) l

/-- The paths of one link: to every neighbour of usable cost. -/
def State.firstPaths (s : State) : List PathTo :=
  (s.line.neighbours.filter (fun n => n.cost < 255)).map (fun n => { node := n.node, cost := n.cost, relays := [] })

/-- The best paths of at most 8 links. -/
def State.bestPaths (s : State) : List PathTo := (List.range 7).foldl (fun l _ => s.extendPaths l) s.firstPaths

/-- Whether a node's route is replaced by the best path found, or lost (R320). -/
def State.replaces (s : State) (n : Node) (best : Option PathTo) : Bool :=
  match n.route, best with
  | none, b => b.isSome
  | some r, b =>
    let costs := s.pathCosts r.relays n.address
    costs.any (fun c => 255 ≤ c) || b.any (fun p => 10 * p.cost ≤ 9 * costs.sum && p.relays ≠ r.relays)

/-- One node in a route pass: the route, and whether it changed. -/
def State.routeNode (s : State) (paths : List PathTo) (n : Node) : Node × Bool :=
  let best := paths.find? (fun p => p.node = n.address)
  if !s.replaces n best then (n, false)
  else
    match best with
    | some p =>
      ({ n with
          route := some { relays := p.relays, costs := s.pathCosts p.relays n.address, computed := s.stampNow }
          state := if n.state = 2 then 2 else 1 }, true)
    | none => ({ n with route := none, state := if n.state = 2 then 2 else 0 }, true)

/-- Every admitted node without a route is in discovery, or enters it; one that is reached again after an hour keeps its place in time
(R322). -/
def State.discoverRouteless (s : State) : State :=
  (s.mesh.nodes.filter (fun n => n.route.isNone && !s.mesh.discoveries.contains n.address &&
    !s.mesh.discovering.any (fun d => d.1 = n.address))).foldl (fun (s : State) n => s.discover n.address) s

/-- The route pass: every admitted node, then the nodes without route enter discovery, at once where they have just lost it, then the
attempts that waited (R320-R322, R329). -/
def State.routePass (s : State) : State :=
  let paths := s.bestPaths
  let l := s.mesh.nodes.map (s.routeNode paths)
  let lost := (s.mesh.nodes.zip l).filter (fun p => p.1.route.isSome && p.2.1.route.isNone)
  let found := (l.filter (fun p => p.1.route.isSome && p.1.state ≠ 2)).map (fun p => p.1.address)
  let s := s.setMesh (fun m => { m with
    nodes := l.map (fun p => p.1), dirty := false, urgent := false, passAt := some s.now
    discoveries := m.discoveries.filter (fun a => !found.contains a)
    flights := m.flights.map (fun x => { x with waits := false }) })
  let s := (lost.foldl (fun (s : State) p => s.setNode p.1.address (fun n => { n with nextTry := 0 })) s).discoverRouteless
  (s.raise 138 s.stampNow (objBody 0 (countItem (l.filter (fun p => p.2)).length))).pump

/-! ### Received data frames (R310, R313, R315, R328) -/

/-- Event source 133, at most once per node per 10 s (R313). -/
def State.authFails (s : State) (origin : Nat) : State :=
  let s := s.meshCount 1 1
  if (s.node origin).any (fun n => n.authAt.any (fun a => s.now < a + 10 * secTicks)) then s
  else (s.setNode origin (fun n => { n with authAt := some s.now })).raise 133 s.stampNow (objBody (s.nodeHandle origin) [])

/-- P1 opens a data frame with the keys of the vault: addressed to the part, from a node it exchanges frames with, with a MIC that holds and a
counter above the highest accepted (R308, R312, R313, R315). -/
def State.openFrame (s : State) (data : List Byte) : State :=
  let h := data.take 26
  let sealed := (data.drop 26).take (data.length - 30)
  let origin := netOrigin h
  let known := s.admitted origin || s.mesh.flights.any (fun x => x.node = origin)
  if data.length < 39 || netFormat h % 16 ≠ 1 || bit (netFormat h) 4 || bit (netFormat h) 7 || netDest h ≠ 0 ||
      netHops h = 0 || 8 < netHops h || netIndex h + 1 ≠ netHops h || !known then s
  else
    match s.sec.network with
    | none => s.authFails origin
    | some net =>
      match ccmOpen (nodeKey net origin) (netNonce h) (netAssociated h) sealed with
      | none => s.authFails origin
      | some plain =>
        if (s.node origin).any (fun n => n.counter.any (fun c => netCounter h ≤ c)) then s.authFails origin
        else
          (s.setNode origin (fun n => { n with counter := some (netCounter h) })).setLine
            (fun l => { l with inbox := l.inbox ++ [(h, fit (sealed.length - 8) plain)] })

/-- P1 takes a valid data frame; while the vault cannot be reached it waits for the keys (Table 1.2). -/
def State.acceptFrame (s : State) (data : List Byte) : State :=
  if s.linkLost 7 then s.setLine (fun l => { l with keyless := l.keyless ++ [data] }) else s.openFrame data

/-- The frames that waited for the vault's keys are opened in their order (Table 1.2). -/
def State.openKeyless (s : State) : State :=
  s.line.keyless.foldl State.openFrame (s.setLine (fun l => { l with keyless := [] }))

end Sys2Proof.Machine
end

