-- ==== Sys2Proof/Machine/Receiver.lean ====
section
/-! DEFINITION. The line receiver: impulse blanking and erasures (R297), the DFT of a slot and its metrics (R280), the decoders of the
convolutional code and of Reed-Solomon blocks (R288, R290), noise levels and SNR (R292), and the S-FSK demodulator (R304). -/

namespace Sys2Proof.Machine

/-! ### Blanking (R297) -/

/-- What the receiver carries from sample to sample: the running mean square of the line, none before the first sample, and how many samples
of a blanking tail are left. -/
abbrev LineLevel := Option Rat × Nat

/-- A sample exceeds a level, given as its square, by more than the blanking threshold: both sides to the power 20. -/
def exceeds (threshold : Nat) (square : Rat) (x : Int) : Bool := decide (square ^ 10 * 10 ^ threshold < (x : Rat) ^ 20)

/-- One sample: the level after it, and whether it is blanked. The running level itself is a free value (log 78). -/
def LineConfig.blankSample (c : LineConfig) (b : LineLevel) (x : Int) : LineLevel × Bool :=
  let above := c.blanking ≠ 0 && b.1.any (fun m => exceeds c.blanking m x)
  let blanked := above || decide (0 < b.2)
  ((some (Config.lineSquare b.1 x blanked), if above then 4 * c.tail else b.2 - 1), blanked)

/-- A slot as it reaches the DFT: its samples, blanked ones zero, and how many were blanked. -/
structure RxSlot where
  samples : List Int := []
  blanked : Nat := 0
  deriving DecidableEq, Repr, Inhabited

/-- The samples of a slot go through blanking. -/
def LineConfig.blankSlot (c : LineConfig) (b : LineLevel) (xs : List Int) : LineLevel × RxSlot :=
  let r := xs.foldl (fun (a : LineLevel × List Int × Nat) x =>
    let y := c.blankSample a.1 x
    (y.1, (if y.2 then 0 else x) :: a.2.1, a.2.2 + ofBool y.2)) (b, [], 0)
  (r.1, { samples := r.2.1.reverse, blanked := r.2.2 })

/-- Consecutive slots go through blanking. -/
def LineConfig.blankSlots (c : LineConfig) (b : LineLevel) (l : List (List Int)) : LineLevel × List RxSlot :=
  let r := l.foldl (fun (a : LineLevel × List RxSlot) xs =>
    let y := c.blankSlot a.1 xs
    (y.1, y.2 :: a.2)) (b, [])
  (r.1, r.2.reverse)

/-- A slot whose share of blanked samples exceeds the erasure fraction, in sixteenths of 200 samples. -/
def LineConfig.erases (c : LineConfig) (x : RxSlot) : Bool := decide (200 * c.erasure < 16 * x.blanked)

/-! ### The DFT and the metrics (R280) -/

/-- The square of the magnitude of the component of `k / n` of a turn per sample, in steps of 2^-128. -/
def componentSquare (samples : List Int) (k n : Nat) : Nat :=
  let l := samples.zipIdx.filter (fun x => x.1 ≠ 0)
  let a := l.foldl (fun (t : Int) x => t + x.1 * cosSteps (k * x.2) n) 0
  let b := l.foldl (fun (t : Int) x => t + x.1 * sinSteps (k * x.2) n) 0
  (a * a + b * b).toNat

/-- The magnitude of tone i, in steps of 2^-64: bin 18 + i of the slot's 200 samples. -/
def RxSlot.tone (x : RxSlot) (i : Nat) : Nat := isqrt (componentSquare x.samples (18 + i) 200)

/-- The bits of the binary logarithm of a number from 1 to 2, in steps of 2^-64, one for each squaring. -/
def log2Bits : Nat → Nat → Nat → Nat
  | 0, _, bits => bits
  | k + 1, x, bits =>
    let y := x * x / 2 ^ 64
    if 2 ^ 65 ≤ y then log2Bits k (y / 2) (2 * bits + 1) else log2Bits k y (2 * bits)

/-- The binary logarithm of a number from 1 on, in steps of 2^-24 (log 14). -/
def log2Steps (n : Nat) : Nat := log2Bits 24 (n * 2 ^ 64 / 2 ^ n.log2) (0) + n.log2 * 2 ^ 24

/-- That magnitude as a level in dB above its step: 20 log10, of which only differences are used (log 80). -/
def toneDb (magnitude : Nat) : Rat :=
  if magnitude = 0 then Config.levelOfZero else mkRat (log2Steps magnitude * 6020599913279624 : Nat) (2 ^ 24 * 10 ^ 15)

/-- The level of a tone in a slot without its blanked samples (R292): what the others give, for a whole slot. -/
def RxSlot.level (x : RxSlot) (i : Nat) : Rat := toneDb (x.tone i * 200 / (200 - x.blanked))

/-- The four metrics of a slot for the tones of a map entry; zero in an erasure (R297). -/
def LineConfig.metrics (c : LineConfig) (x : RxSlot) (quad : List Nat) : List Nat :=
  if c.erases x then [0, 0, 0, 0] else quad.map x.tone

/-- The metrics of a symbol sent on both quads of the default map: those of its two slots together. -/
def LineConfig.metricsTwice (c : LineConfig) (x y : RxSlot) : List Nat :=
  List.zipWith (fun a b => a + b) (c.metrics x quad1) (c.metrics y quad2)

/-- The symbol decided among four metrics: the one of the largest; of equal ones the lowest (log 79). -/
def decideSymbol (m : List Nat) : Nat :=
  (List.range 4).foldl (fun b v => if nth m b < nth m v then v else b) 0

/-! ### The convolutional code (R288) -/

/-- A path through the code: its sum of metrics and its bits, newest first. -/
abbrev CodePath := Option (Nat × List Bool)

/-- The symbol that a register of seven bits gives. -/
def registerSymbol (reg : Nat) : Nat := 2 * ofBool (parity7 (reg &&& 0o171)) + ofBool (parity7 (reg &&& 0o133))

/-- A path goes on with the newest bit of a register. -/
def CodePath.step (p : CodePath) (reg : Nat) (m : List Nat) : CodePath :=
  p.map (fun x => (x.1 + nth m (registerSymbol reg), decide (64 ≤ reg) :: x.2))

/-- The better of two paths into one state; of equal ones the first (log 79). -/
def CodePath.better (a b : CodePath) : CodePath :=
  match a, b with
  | some x, some y => if x.1 < y.1 then b else a
  | none, _ => b
  | _, none => a

/-- The best path into each state from the two that lead there: a register's upper six bits are the next state, its lower six the last. -/
def trellisPairs (m : List Nat) : Nat → List CodePath → List CodePath
  | reg, a :: b :: rest => (a.step reg m).better (b.step (reg + 1) m) :: trellisPairs m (reg + 2) rest
  | _, _ => []

/-- The best path into each of the 64 states, one symbol on. -/
def trellisStep (l : List CodePath) (m : List Nat) : List CodePath := trellisPairs m 0 (l ++ l)

/-- The bits of the code path of the largest sum of metrics that starts and ends in state 0, without the six tail bits (R288). -/
def decodeConvolution (metrics : List (List Nat)) : List Bool :=
  let start : List CodePath := some (0, []) :: List.replicate 63 none
  match (metrics.foldl trellisStep start).headD none with
  | some p => (p.2.drop 6).reverse
  | none => []

/-- Bytes from bits, bit 0 first. -/
def bytesOf (bits : List Bool) : List Byte :=
  (List.range (bits.length / 8)).map (fun k =>
    BitVec.ofNat 8 ((List.range 8).foldl (fun (a : Nat) j => a + ofBool (bits.getD (8 * k + j) false) * 2 ^ j) 0))

/-- The metrics of one interleaver block in the order of its symbols (R289). -/
def deinterleaveBlock (size a : Nat) (l : List (List Nat)) : List (List Nat) :=
  (List.range size).map (fun i => l.getD (a * i % size) [0, 0, 0, 0])

/-- The metrics of a payload in the order of its symbols. -/
def deinterleave (size a : Nat) (l : List (List Nat)) : List (List Nat) :=
  (List.range ((l.length + size - 1) / size)).flatMap (fun k => deinterleaveBlock size a ((l.drop (size * k)).take size))

/-! ### Reed-Solomon (R288, R290) -/

/-- The inverse of a field element: its power 254. -/
def gfInv (a : Nat) : Nat := (List.range 253).foldl (fun x _ => gfMul x a) a

/-- The value of a polynomial, highest coefficient first. -/
def gfEval (p : List Nat) (x : Nat) : Nat := p.foldl (fun v c => gfMul v x ^^^ c) 0

/-- The 16 syndromes of a block. -/
def syndromes (block : List Nat) : List Nat := (List.range 16).map (fun i => gfEval block (gfPow i))

/-- The state of the search for the error locator: locator and auxiliary, lowest coefficient first, its length, the shift and the last
discrepancy. -/
structure Locator where
  c : List Nat := [1]
  b : List Nat := [1]
  len : Nat := 0
  m : Nat := 1
  last : Nat := 1
  deriving DecidableEq, Repr, Inhabited

/-- A polynomial, lowest coefficient first, plus `k` x^m times another. -/
def polyAdd (p : List Nat) (k m : Nat) (q : List Nat) : List Nat :=
  let r := List.replicate m 0 ++ q.map (gfMul k)
  (List.range (max p.length r.length)).map (fun i => p.getD i 0 ^^^ r.getD i 0)

/-- One syndrome more (Berlekamp and Massey). -/
def Locator.step (x : Locator) (s : List Nat) (n : Nat) : Locator :=
  let d := (List.range (x.len + 1)).foldl (fun v i => v ^^^ gfMul (x.c.getD i 0) (s.getD (n - i) 0)) 0
  if d = 0 then { x with m := x.m + 1 }
  else
    let c := polyAdd x.c (gfMul d (gfInv x.last)) x.m x.b
    if 2 * x.len ≤ n then { c := c, b := x.c, len := n + 1 - x.len, m := 1, last := d }
    else { x with c := c, m := x.m + 1 }

/-- The error of a block at the power `j` of x: none where the locator has no root (Forney). -/
def errorAt (locator omega : List Nat) (j : Nat) : Nat :=
  let x := gfPow j
  let inv := gfInv x
  if gfEval locator.reverse inv ≠ 0 then 0
  else
    let slope := (locator.zipIdx.filter (fun c => c.2 % 2 = 1)).foldl (fun (v : Nat) c =>
      v ^^^ gfMul c.1 ((List.range (c.2 - 1)).foldl (fun a _ => gfMul a inv) 1)) 0
    gfMul x (gfMul (gfEval omega.reverse inv) (gfInv slope))

/-- A received block with up to 8 byte errors corrected; none where that gives no code word. The last 16 bytes are parity. -/
def correctBlock (block : List Nat) : Option (List Nat) :=
  let s := syndromes block
  if s.all (fun x => x = 0) then some block
  else
    let l := (List.range 16).foldl (fun (x : Locator) n => x.step s n) {}
    let omega := (List.range 16).map (fun k => (List.range (k + 1)).foldl (fun v i => v ^^^ gfMul (l.c.getD i 0) (s.getD (k - i) 0)) 0)
    let fixed := block.mapIdx (fun i v => v ^^^ errorAt l.c omega (block.length - 1 - i))
    if l.len ≤ 8 && (syndromes fixed).all (fun x => x = 0) then some fixed else none

/-- The data of a frame from its received bytes: `length` data bytes in blocks of 239 (R288); none where a block does not decode. -/
def rsDecode (bytes : List Byte) (length : Nat) : Option (List Byte) :=
  (List.range ((length + 238) / 239)).foldl (fun (a : Option (List Byte)) k =>
    a.bind (fun data =>
      let d := min 239 (length - 239 * k)
      (correctBlock (((bytes.drop (255 * k)).take (d + 16)).map (fun b => b.toNat))).map (fun x =>
        data ++ (x.take d).map (BitVec.ofNat 8)))) (some [])

/-! ### A native frame (R286-R290) -/

/-- A frame as far as it is read without a map. -/
structure RxFrame where
  /-- its slots after blanking -/
  slots : List RxSlot := []
  /-- the delimiter's symbols are 3, 0, 2, 1 -/
  delimiter : Bool := false
  /-- the 8 header bytes -/
  header : List Byte := []
  /-- R(i): the magnitude of each tone in its preamble slot -/
  levels : List Nat := []
  /-- slots that were erasures, and samples blanked -/
  erased : Nat := 0
  blanked : Nat := 0
  deriving DecidableEq, Repr, Inhabited

/-- The opening of a frame is read: preamble, delimiter and header (Table 9.3). -/
def LineConfig.readFrame (c : LineConfig) (slots : List RxSlot) : RxFrame :=
  let slot := fun (k : Nat) => slots.getD k {}
  let symbols := [(28, quad1), (29, quad2), (30, quad1), (31, quad2)].map (fun x => decideSymbol (c.metrics (slot x.1) x.2))
  let header := (List.range 70).map (fun k => c.metricsTwice (slot (32 + 2 * k)) (slot (33 + 2 * k)))
  { slots := slots, delimiter := symbols == [3, 0, 2, 1], header := bytesOf (decodeConvolution header)
    levels := (List.range 28).map (fun j => (slot j).tone j)
    erased := (slots.filter c.erases).length, blanked := (slots.map (fun x => x.blanked)).sum }

/-- Data bytes that a header announces; none where its last length is out of range (Table 9.4). -/
def headerLength (h : List Byte) : Option Nat :=
  let blocks := byteAt h 4 / 32 % 4
  let last := byteAt h 5
  if (if blocks = 0 then 5 else 1) ≤ last && last ≤ 239 then some (239 * blocks + last) else none

/-- Where each slot of a frame lies: the length of its half cycle and its number there (R284); half cycles beyond those known have the last
length. -/
def slotPlaces : Nat → List Rat → Rat → List (Rat × Nat)
  | 0, _, _ => []
  | k + 1, [], last => (List.range (slotsIn last)).map (fun j => (last, j)) ++ slotPlaces k [] last
  | k + 1, h :: rest, last => (List.range (slotsIn h)).map (fun j => (h, j)) ++ slotPlaces k rest last

/-- The metrics of payload symbols on a link map: one for each slot of an unmuted segment (R286). -/
def LineConfig.linkMetrics (c : LineConfig) (places : List (Rat × Nat)) (map : List (Option (List Nat))) (slots : List RxSlot) : List (List Nat) :=
  (((slots.zip places).drop 172).filterMap (fun x =>
    (nth map (segmentOf x.2.1 x.2.2)).map (fun quad => c.metrics x.1 quad)))

/-- The metrics of payload symbols on the default map. -/
def LineConfig.defaultMetrics (c : LineConfig) (slots : List RxSlot) : List (List Nat) :=
  let l := slots.drop 172
  (List.range (l.length / 2)).map (fun k => c.metricsTwice (l.getD (2 * k) {}) (l.getD (2 * k + 1) {}))

/-- The payload data of a frame on a map, the default map for none (R288-R290), its slots at their places; none where a block does not
decode. -/
def LineConfig.readPayload (c : LineConfig) (places : List (Rat × Nat)) (sixty : Bool) (map : Option (List (Option (List Nat)))) (f : RxFrame) :
    Option (List Byte) :=
  let long := bit (byteAt f.header 0) 4
  (headerLength f.header).bind (fun length =>
    let metrics := match map with
      | some m => c.linkMetrics places m f.slots
      | none => c.defaultMetrics f.slots
    let size := interleaver sixty long
    let ordered := deinterleave size.1 size.2 (metrics.take (paddedCount sixty long length))
    let coded := 8 * (length + 16 * ((length + 238) / 239)) + 6
    if ordered.length < coded then none else rsDecode (bytesOf (decodeConvolution (ordered.take coded))) length)

/-- Samples go through the receiver in force. -/
def State.receiveSlots (s : State) (l : List (List Int)) : List RxSlot × State :=
  let r := s.line.config.blankSlots s.line.level l
  (r.2, s.setLine (fun x => { x with level := r.1 }))

/-! ### Noise levels and SNR (R292) -/

/-- N(s, i) of a neighbour, in dB; before its first idle half cycle a free value. -/
def Neighbour.noiseAt (n : Neighbour) (segment tone : Nat) : Rat :=
  match n.noise with
  | [] => Config.startNoise n.slot segment tone
  | l => nth (nth l segment) tone

/-- Each level takes 1/64 of the way to what the idle slots of its segment show in a half cycle; a slot without a sample shows nothing. -/
def Neighbour.hearIdle (n : Neighbour) (slots : List (Nat × RxSlot)) : Neighbour :=
  { n with noise := (List.range 8).map (fun g =>
      let mine := (slots.filter (fun x => x.1 = g && x.2.blanked < 200)).map (fun x => x.2)
      (List.range 28).map (fun i =>
        let old := n.noiseAt g i
        match mine with
        | [] => old
        | _ => old + ((mine.foldl (fun (t : Rat) x => t + x.level i) 0) / (mine.length : Rat) - old) / 64)) }

/-- Whether a frame is on the line in the slot from a tick on. -/
def LineState.slotBusy (l : LineState) (tick : Nat) : Bool :=
  l.busy.any (fun b => b.2.1 < tick + 8000 && b.2.2.all (fun e => tick < e))

/-- The idle slots of a half cycle, each with its segment and its samples (R284, R292). -/
def LineState.idleSlots (l : LineState) (h : Nat × Rat × List Int) : List (Nat × List Int) :=
  ((List.range (min (slotsIn h.2.1) (h.2.2.length / 200))).filter (fun k => !l.slotBusy (h.1 + 8000 * k))).map (fun k =>
    (segmentOf h.2.1 k, (h.2.2.drop (200 * k)).take 200))

/-- The idle slots of a half cycle go through blanking, and every neighbour's noise levels follow (R292, R297). -/
def State.judgeHalf (s : State) (h : Nat × Rat × List Int) : State :=
  let l := s.line.idleSlots h
  let r := s.receiveSlots (l.map (fun x => x.2))
  let slots := (l.map (fun x => x.1)).zip r.1
  (r.2.lineCount 7 ((r.1.map (fun x => x.blanked)).sum)).setLine (fun l => { l with neighbours := l.neighbours.map (fun n => n.hearIdle slots) })

/-- Every half cycle that began before a tick is judged, before a frame that starts there. -/
def State.judgeBefore (s : State) (tick : Nat) : State :=
  let now := s.line.heard.filter (fun h => h.1 < tick)
  now.foldl State.judgeHalf (s.setLine (fun l => { l with heard := l.heard.filter (fun h => tick ≤ h.1) }))

/-- The samples of the half cycle that ends, from its anchor on. Its idle slots are judged three half cycles later, when it is known
whether they were the opening of a frame; in the other modes the receiver has no noise levels and no blanking (log 78). -/
def State.hearHalfCycle (s : State) (samples : List Int) : State :=
  match s.line.anchor with
  | some a =>
    if s.line.config.mode ≠ 1 then s.setLine (fun l => { l with heard := [] })
    else
      let s := s.setLine (fun l => { l with heard := l.heard ++ [(a.1, l.half, samples)] })
      if s.line.heard.length ≤ 3 then s
      else ((s.line.heard.take (s.line.heard.length - 3)).foldl State.judgeHalf s).setLine (fun l => { l with heard := l.heard.drop (l.heard.length - 3) })
  | none => s

/-- A frame is on the line from a tick on. -/
def LineState.occupied (l : LineState) (own : Bool) (from_ : Nat) : LineState :=
  { l with busy := ((own, from_, none) :: l.busy).take 16 }

/-- The frames on the line of that kind have ended. -/
def LineState.vacated (l : LineState) (own : Bool) (end_ : Nat) : LineState :=
  { l with busy := l.busy.map (fun b => if b.1 = own && b.2.2.isNone then (own, b.2.1, some end_) else b) }

/-- The part itself was sending within a span (Table 9.9). -/
def LineState.sentWithin (l : LineState) (from_ end_ : Nat) : Bool :=
  l.busy.any (fun b => b.1 && decide (b.2.1 < end_) && b.2.2.all (fun e => from_ < e))

/-- The lengths of the half cycles from the anchor nearest a tick on, oldest first (R284). -/
def LineState.halvesFrom (l : LineState) (tick : Nat) : List Rat :=
  ((l.halves.filter (fun h => decide ((tick : Rat) < (h.1 : Rat) + h.2 / 2))).map (fun h => h.2)).reverse

/-- The places of a frame's slots. -/
def State.placesOf (s : State) (f : LineFrame) : List (Rat × Nat) :=
  slotPlaces (f.slots.length / 14 + 1) (s.line.halvesFrom f.start) s.line.half

/-- Where a run of slots from a tick on ends, half cycles at the present length. -/
def State.spanOf (s : State) (start slots : Nat) : Nat :=
  let n := max 1 (slotsIn s.line.half)
  let whole := (slots - 1) / n
  start + ((whole : Rat) * s.line.half).floor.toNat + (slots - whole * n) * 8000

/-- SNR(s, i) = R(i) - N(s, i), with R(i) corrected by the header's attenuation, in whole dB of a signed byte (R292). -/
def Neighbour.snr (n : Neighbour) (levels : List Nat) (attenuation : Nat) : List (List Int) :=
  (List.range 8).map (fun g => (List.range 28).map (fun i =>
    max (-127) (min 127 (openRat 22 (Config.levelCorrected (toneDb (nth levels i)) attenuation - n.noiseAt g i)))))

/-! ### S-FSK (R304) -/

/-- Energies of a bit at the mark and at the space frequency. -/
def LineConfig.bitEnergies (c : LineConfig) (samples : List Int) : Nat × Nat :=
  (componentSquare samples c.mark 40000, componentSquare samples c.space 40000)

/-- The bits decided: each energy against its mean over the last 32 bits; 1 where mark exceeds space. -/
def decideBits (l : List (Nat × Nat)) : List Bool :=
  l.zipIdx.map (fun x =>
    let last := (l.take (x.2 + 1)).drop (x.2 + 1 - 32)
    let mark : Nat := (last.map (fun e => e.1)).sum
    let space : Nat := (last.map (fun e => e.2)).sum
    decide (x.1.2 * mark < x.1.1 * space))

/-- The sync pattern, most significant bit first. -/
def LineConfig.syncBits (c : LineConfig) : List Bool := (List.range c.syncLength).map (fun k => bit c.sync (c.syncLength - 1 - k))

/-- The data bits after the sync pattern: the pattern stands just before the last `8 n` bits. -/
def LineConfig.captured (c : LineConfig) (bits : List Bool) : Option (List Bool) :=
  let at_ := bits.length - 8 * c.frameLength
  if 8 * c.frameLength + c.syncLength ≤ bits.length && (bits.take at_).drop (at_ - c.syncLength) == c.syncBits then some (bits.drop at_)
  else none

/-- Bytes from bits, most significant bit first. -/
def bytesMsb (bits : List Bool) : List Byte :=
  (List.range (bits.length / 8)).map (fun k =>
    BitVec.ofNat 8 ((List.range 8).foldl (fun (a : Nat) j => 2 * a + ofBool (bits.getD (8 * k + j) false)) 0))

end Sys2Proof.Machine
end

