-- ==== Sys2Proof/Machine/Modem.lean ====
section
/-! DEFINITION. The line modem's own events: anchors and ZC_OUT (R281-R285), frames sent and received (R286-R290, R302), tone
maps (R291-R295), transmit level (R299, R301), the driver's protection, and the S-FSK mode (R303, R304). -/

namespace Sys2Proof.Machine

/-! ### Configuration that waits (R278) -/

/-- A configuration takes effect; another coupling channel discards every map and link phase. -/
def LineState.apply (l : LineState) (c : LineConfig) : LineState :=
  { l with
    config := c, next := none
    neighbours := if c.coupling = l.config.coupling then l.neighbours
      else l.neighbours.map (fun n => { n with txMap := none, rxMap := none, rxOld := none, delta := 0 }) }

/-- An S-FSK transmission that has ended leaves the line free, and a configuration that waited takes effect. -/
def State.settleLine (s : State) : State :=
  let s := match s.line.sfskFlight with
    | some f => if f.endAt ≤ s.now then s.setLine (fun l => { l.vacated true f.endAt with sfskFlight := none }) else s
    | none => s
  match s.line.next with
  | some c =>
    if s.line.flight.isSome || s.line.sfskFlight.isSome then s
    else (s.setLine (fun l => l.apply c)).setMesh (fun m => { m with dirty := m.dirty || c.coupling ≠ s.line.config.coupling })
  | none => s

/-! ### Anchors (R281-R285) -/

/-- The least whole number at or above a ratio. -/
def ceilRat (x : Rat) : Int := -((-x).floor)

/-- Counts of M's 24 MHz clock in a timebase tick, as the last two timing messages show it (Table 1.6). -/
def State.modemRate (s : State) : Rat :=
  match s.clock.modemBefore with
  | some (c, t) =>
    if t < s.clock.modemTick && c < s.clock.modemCount then
      ((s.clock.modemCount - c : Nat) : Rat) / ((s.clock.modemTick - t : Nat) : Rat)
    else 3 / 2
  | none => 3 / 2

/-- A timebase count on M's clock (R282). -/
def State.toModem (s : State) (tick : Nat) : Nat :=
  ((s.clock.modemCount : Rat) + ((tick : Rat) - (s.clock.modemTick : Rat)) * s.modemRate).floor.toNat

/-- The first timebase tick at or after a count of M's clock. -/
def State.ofModem (s : State) (count : Nat) : Nat :=
  (ceilRat ((s.clock.modemTick : Rat) + ((count : Rat) - (s.clock.modemCount : Rat)) / s.modemRate)).toNat

/-- The mean length of the last two cycles, 1/512 tick (R282). -/
def Tracker.meanPeriod (x : Tracker) : Rat := if x.before = 0 then (x.period : Rat) else ((x.period + x.before : Nat) : Rat) / 2

/-- frac(-phi1 / 360 degrees) of the coupling channel over the latest basic interval (R281, R193). -/
def State.anchorPhase (s : State) : Option Rat :=
  (s.meas.basic.findSome? (fun b => b.number 20 s.line.config.coupling 1)).map (fun phi => -phi / 360 - ((-phi / 360).floor : Rat))

/-- The anchor S predicts next, 1/512 tick, with its polarity: the first of the series from the latest known cycle start that
follows the last one and lies at least 5 ms ahead (R281, R282). -/
def State.nextAnchor (s : State) (phase : Rat) : Rat × Bool :=
  let x := s.tracker
  let period := x.meanPeriod
  let origin : Rat := ((((x.ends.getLast?).map CycleEnd.at512).getD x.start : Nat) : Rat) + phase * period
  let last : Rat := match s.line.predicted.getLast? with
    | some p => (512 * s.ofModem p.1 : Nat)
    | none => match s.line.anchor with
      | some p => (512 * p.1 : Nat)
      | none => 0
  let least := max ((512 * (s.now + 5 * Config.ms) : Nat) : Rat) (last + period / 4)
  let j := max 0 (ceilRat ((least - origin) * 2 / period))
  (origin + (j : Rat) * period / 2, j % 2 = 0)

/-- S can predict an anchor: line functions run, the tracker is locked, and a basic interval holds the coupling channel's angle. -/
def State.canPredict (s : State) : Bool :=
  s.lineRuns && !s.lineDown && s.tracker.state = 1 && 0 < s.tracker.period && s.line.predicted.length < 8

/-- ANCHOR_PREDICTION (R281, R282): the anchor goes to M as a timebase count, which M converts to its own clock, with the length predicted
of the half cycle that begins there (R284). -/
def execAnchorPrediction (t : Nat) (s : State) : Out :=
  let s := (s.tickTo t).settleLine
  .next
    (match s.anchorPhase with
     | none => s
     | some phase =>
       if !s.canPredict then s
       else
         let a := s.nextAnchor phase
         s.setLine (fun l => { l with
           predicted := l.predicted ++ [(s.toModem (a.1 / 512).floor.toNat, a.2, s.tracker.meanPeriod / 1024)] }))

/-- The predicted anchor that comes next, as a tick with its polarity and its half cycle's length, and what follows it; none where the prediction of the next anchor is
missing, though a later one may wait. -/
def State.predictedNext (s : State) : Option ((Nat × Bool × Rat) × List (Nat × Bool × Rat)) :=
  let rest := match s.line.anchor with
    | some a => s.line.predicted.dropWhile (fun (p : Nat × Bool × Rat) => decide (s.ofModem p.1 ≤ a.1))
    | none => s.line.predicted
  match rest with
  | [] => none
  | p :: l =>
    let tick := s.ofModem p.1
    if s.line.anchor.all (fun (a : Nat × Bool) => decide ((tick : Rat) < (a.1 : Rat) + s.line.half * 3 / 2)) then some ((tick, p.2), l) else none

/-- A frame in flight goes on in the half cycle that begins for it at a tick: its slots there lie in the segments of that half cycle's own
length (R284). -/
def Flight.continue_ (x : Flight) (start : Nat) (half : Rat) (ceiling : List Nat) : Flight :=
  if x.fixed.isEmpty && x.symbols.isEmpty then x
  else
    let y := layHalf half x.map (slotsIn half) 0 { fixed := x.fixed, symbols := x.symbols }
    { x with
      tones := x.tones ++ y.tones, fixed := y.fixed, symbols := y.symbols
      levels := x.levels ++ y.tones.map (fun i => if i < 28 then max x.aLink (nth ceiling i) else 0)
      endAt := start + 8000 * y.tones.length }

/-- A link phase as ticks of a half cycle (R286). -/
def phaseTicks (shift : Nat) (half : Rat) : Nat := ((shift : Rat) * half / 1024).floor.toNat

/-- The anchor is reached: the next half cycle begins, and with it, moved by its link phase, that of the frame in flight (R286). -/
def State.passAnchor (s : State) (a : Nat) (positive : Bool) (half : Rat) : State :=
  s.setLine (fun l => { l with
    anchor := some (a, positive), zcOut := positive, half := half, halves := ((a, half) :: l.halves).take 8192
    flight := l.flight.map (fun x => x.continue_ (a + phaseTicks x.shift half) half l.config.ceiling) })

/-- ANCHOR (R283, R285): the next predicted anchor, or, where it is missing, the one that free-running continues at the last half-cycle
length. `line` holds the receiver's samples of the half cycle that ends. -/
def execAnchor (t : Nat) (positive : Bool) (line : List Int) (s : State) : Out :=
  let s := (s.tickTo t).settleLine
  .next
    (if !s.lineRuns then s
     else
      match s.predictedNext, s.line.anchor with
      | some ((a, p, h), rest), _ =>
        if a ≤ s.now && p = positive then
          ((s.hearHalfCycle line).passAnchor a p h).setLine (fun l => { l with
            predicted := rest, freeRun := false, validRun := min 10 (l.validRun + 1) })
        else s
      | none, some (a, p) =>
        let due := a + s.line.half.floor.toNat
        if due ≤ s.now && positive = !p then
          ((s.hearHalfCycle line).passAnchor due (!p) s.line.half).setLine (fun l => { l with
            validRun := 0, freeSince := if l.freeRun then l.freeSince else due, freeRun := true })
        else s
      | none, none => s)

/-- FREE_RUN_TIMEOUT (R285): from 2 s of free-running on, default-map frames only. -/
def execFreeRunTimeout (t : Nat) (s : State) : Out :=
  let s := s.tickTo t
  .next
    (if s.lineRuns && s.line.freeRun && !s.line.defaultOnly && s.line.freeSince + 2 * secTicks ≤ s.now then
      (s.setLine (fun l => { l with defaultOnly := true })).raise 120 s.stampNow (objBody 0 [])
    else s)

/-- ANCHOR_RESUME (R285): after ten half cycles of valid predictions link maps resume. -/
def execAnchorResume (t : Nat) (s : State) : Out :=
  let s := s.tickTo t
  .next
    (if s.lineRuns && s.line.defaultOnly && 10 ≤ s.line.validRun then
      (s.setLine (fun l => { l with defaultOnly := false })).raise 121 s.stampNow (objBody 0 [])
    else s)

/-! ### Sending (R286, R302) -/

/-- Nothing keeps the transmitter: mode, link, protection, supply, anchors, no frame in flight. -/
def State.mayTransmit (s : State) : Bool :=
  s.lineRuns && !s.lineDown && s.line.flight.isNone && s.line.sfskFlight.isNone && !s.line.protection &&
  s.line.holdUntil ≤ s.now && s.power.warning.isNone && s.line.anchor.isSome && decide (8800 ≤ s.line.half)

/-- The map a frame to a node goes out on: the link map, unless there is none, it mutes every segment, the link has fallen back, or only
default-map frames are sent. A pinned map stays in use (R296). A broadcast has no link. -/
def State.sendMap (s : State) (f : TxFrame) : Option ToneMap :=
  if f.isMap || s.line.defaultOnly then none
  else (((s.neighbour f.node).filter (fun n => n.pinned || !n.fallen)).bind Neighbour.txMap).filter (fun m => m.entries.any Option.isSome)

/-- The instant a frame may start: the anchor, moved by the link phase on a link map (R286). -/
def State.startOf (s : State) (f : TxFrame) : Option Nat :=
  s.line.anchor.map (fun a =>
    if (s.sendMap f).isSome then
      a.1 + phaseTicks (((s.neighbour f.node).map Neighbour.delta).getD 0) s.line.half
    else a.1)

/-- Airtime of one traversal in half cycles (R328): opening and payload, for `u` unmuted segments of `n` slots. -/
def airtime (n u y : Nat) : Nat :=
  let q := n * u / 8
  (172 + n - 1) / n + (if q = 0 then 0 else (y + q - 1) / q)

/-- The unmuted segments known of a link, lesser of both ends; `none` where no map is known or anchors free-run. -/
def State.linkUnmuted (s : State) (a b : Nat) : Option Nat :=
  if s.line.freeRun then none
  else if a = 0 then (s.neighbour b).bind Neighbour.unmuted
  else
    let l := s.mesh.links.filter (fun x => x.reported && ((x.a = a && x.b = b) || (x.a = b && x.b = a)))
    if l.isEmpty then none else some (l.foldl (fun (u : Nat) x => min u x.unmuted) 8)

/-- Plaintext bytes of the largest response a request allows. -/
def responseSize (x : Transaction) : Nat :=
  if x.type = 1 then 4 + 72 * byteAt x.message 2 else if x.type = 2 then 4 + 4 * 32 else 4 + 914

/-- The deadline of an attempt from the start of its preamble, in ticks (R328). The request's first traversal is long also where its
first hop is privileged (R298). -/
def State.deadlineOf (s : State) (x : Transaction) : Nat :=
  let n := slotsIn s.line.half
  let sixty := s.meas.config.nominal = 1
  let stops := x.route.relays ++ [x.node]
  let privileged := (s.neighbour (firstHop x.route.relays x.node)).any Neighbour.privileged
  let cost := fun (request : Bool) (plain : Nat) (e : Nat × Nat) =>
    let y := paddedCount sixty (x.long || (request && privileged && e.1 = 0)) (plain + 38)
    match s.linkUnmuted e.1 e.2 with
    | some u => airtime n u y
    | none => airtime n 8 (2 * y)
  let halves := (((0 : Nat) :: stops).zip stops).foldl (fun (a : Nat) e => a + cost true x.message.length e + cost false (responseSize x) e) 0
  ((halves : Rat) * s.line.half).floor.toNat + 2 * stops.length * 150 * Config.ms

/-- A frame starts on the line, in the half cycle that has begun (R284, R286). -/
def State.launch (s : State) (f : TxFrame) : State :=
  let n := s.neighbour f.node
  let map := s.sendMap f
  let long := !f.isMap && (f.long || n.any Neighbour.privileged)
  let aLink := (n.map Neighbour.aLink).getD 0
  let header := frameHeader f.isMap map.isSome long ((map.map ToneMap.version).getD 0) 0 aLink f.data.length
  let x := frameUnsent (s.meas.config.nominal = 1) long (map.map ToneMap.entries) header f.data
  let x : Flight := {
    frame := f, header := header, aLink := aLink, startAt := s.now, link := map.isSome, fixed := x.fixed, symbols := x.symbols
    map := (map.map ToneMap.entries).getD [], shift := if map.isSome then (n.map Neighbour.delta).getD 0 else 0 }
  let s := s.setLine (fun l => { l.occupied true s.now with
    queue := l.queue.erase f
    flight := some (x.continue_ s.now l.half l.config.ceiling) })
  let s := s.setNeighbour f.node (fun n => { n with usedAt := s.now })
  match s.flight f.transaction with
  | some x => s.setFlight x.id (fun y => { y with deadline := some (s.now + s.deadlineOf x) })
  | none => s

/-- The map frame that goes next, once its 20 ms have passed. -/
def State.dueMap (s : State) : Option TxFrame := s.line.queue.find? (fun f => f.isMap && f.notBefore ≤ s.now)

/-- FRAME_TRANSMIT (R286, R302): the oldest data frame starts at its anchor, after every map frame that is due; while a
frame is being received it waits. -/
def execFrameTransmit (t : Nat) (s : State) : Out :=
  let s := (s.tickTo t).settleLine
  .next
    (match s.line.queue.find? (fun f => !f.isMap) with
     | none => s
     | some f =>
       if s.line.config.mode = 1 && s.mayTransmit && s.dueMap.isNone && s.startOf f = some s.now then
         if s.line.receiving then s.lineCount 8 1 else (s.launch f).pump
       else s)

/-- MAP_FRAME_SEND (R294): a map frame starts at an anchor of the sender's own. -/
def execMapFrameSend (t : Nat) (s : State) : Out :=
  let s := (s.tickTo t).settleLine
  .next
    (match s.dueMap with
     | none => s
     | some f =>
       if s.line.config.mode = 1 && s.mayTransmit && s.startOf f = some s.now then
         if s.line.receiving then s.lineCount 8 1 else s.launch f
       else s)

/-- FRAME_SENT (R286, R331, R278): the last slot of the frame in flight is sent. -/
def execFrameSent (t : Nat) (s : State) : Out :=
  let s := s.tickTo t
  .next
    (match s.line.flight with
     | none => s
     | some x =>
       if s.now < x.endAt || !x.fixed.isEmpty || !x.symbols.isEmpty then s
       else
         let s := (s.setLine (fun l => { l.vacated true x.endAt with flight := none })).lineCount 0 1
         let s := if x.frame.isMap then s.lineCount 4 1 else s
         let s := s.setNeighbour x.frame.node (fun n => { n with counters := alter n.counters 0 (fun c => sat 32 (c + 1)) })
         let s := match s.flight x.frame.transaction with
           | some y => if y.expect then s else s.completeFlight y 0
           | none => s
         s.settleLine.pump)

/-- The frame in flight stops, and counts as a transmit failure: the attempt it belongs to fails (Table 9.9). A configuration that waited
for it takes effect (R278). -/
def State.stopFlight (s : State) : State :=
  let s' := (s.setLine (fun l => { l.vacated true s.now with flight := none, sfskFlight := none })).settleLine
  match s.line.flight with
  | none => s'
  | some x =>
    match s'.flight x.frame.transaction with
    | some y => s'.failAttempt y false
    | none => s'

/-- DRIVER_PROTECTION (R302): the current limit trips, or VLINE falls below 8 V. -/
def execDriverProtection (t : Nat) (s : State) : Out :=
  let s := s.tickTo t
  .next
    (if s.lineRuns && !s.line.protection then
      let s := ((s.setLine (fun l => { l with protection := true })).stopFlight.lineCount 10 1).settleLine
      s.raise 123 s.stampNow (objBody 0 (le 1 0))
    else s)

/-- DRIVER_PROTECTION_CLEAR (R302): the cause clears; sending resumes 1 s later. -/
def execDriverProtectionClear (t : Nat) (s : State) : Out :=
  let s := s.tickTo t
  .next
    (if s.lineRuns && s.line.protection then
      (s.setLine (fun l => { l with protection := false, holdUntil := s.now + secTicks })).raise 123 s.stampNow (objBody 0 (le 1 1))
    else s)

/-! ### Tone maps (R291-R295) -/

/-- A tone enters a list ordered by falling SNR, lower tones first at equal SNR. -/
def insertTone (snr : List Int) (i : Nat) : List Nat → List Nat
  | [] => [i]
  | j :: l => if nth snr j < nth snr i then i :: j :: l else j :: insertTone snr i l

/-- The four tones of the highest SNR among those allowed, in ascending order, with the fourth-best SNR; `none` where it lies
below the mute SNR (R292). -/
def chooseEntry (c : LineConfig) (snr : List Int) : Option (List Nat) × Int :=
  let best := ((List.range 28).filter (fun i => bit c.tones i)).foldl (fun l i => insertTone snr i l) []
  let fourth := nth snr (nth best 3)
  if fourth < c.mute then (none, -128)
  else (some ((List.range 28).filter (fun i => (best.take 4).contains i)), fourth)

/-- The SNR of the fourth-best tone of an entry, as measured now. -/
def entrySnr (snr : List Int) (e : Option (List Nat)) : Int :=
  match e with
  | some l => l.foldl (fun (a : Int) i => min a (nth snr i)) 127
  | none => -128

/-- Some segment's tones would change for 3 dB or more (R293). -/
def improves (old : List (Option (List Nat))) (new : List (Option (List Nat) × Int)) (snr : List (List Int)) : Bool :=
  (List.range 8).any (fun k =>
    (nth new k).1 ≠ nth old k && (nth new k).1.isSome && decide (entrySnr (nth snr k) (nth old k) + 3 ≤ (nth new k).2))

/-- The map frame payload of Table 9.6. -/
def mapPayload (version phase : Nat) (map : List (Option (List Nat))) (snr : List Int) (attenuation : Nat) : List Byte :=
  withCrc (octets [1, version] ++ le 2 phase ++ map.flatMap entryOctets ++ snr.flatMap (leInt 1) ++
    leInt 1 ((snr.filter (fun x => x ≠ -128)).foldl min 127) ++ octets [attenuation] ++ zeros 2)

/-- A new receive map is issued to a neighbour (R293, R294): `forced` after a failure, otherwise for better tones, at most once
in 60 s. -/
def State.issueMap (s : State) (address : Nat) (f : RxFrame) (forced : Bool) : State :=
  match s.neighbour address with
  | none => s
  | some n =>
    let snr := n.snr f.levels (headerAttenuation f.header)
    let new := snr.map (chooseEntry s.line.config)
    let old := (n.rxMap.map ToneMap.entries).getD (List.replicate 8 none)
    let free := !n.issuedAt.any (fun a => s.now < a + 60 * secTicks)
    if !(forced || (free && improves old new snr)) then s
    else if new.all (fun e => e.1.isNone) then
      (s.setNeighbour address (fun n => { n with fallen := true })).raise 117 s.stampNow (objBody n.handle [])
    else
      let version := (n.rxVersion + 1) % 16
      let map := new.map (fun e => e.1)
      let frame : TxFrame := {
        isMap := true, node := address, notBefore := s.now + 20 * Config.ms
        data := mapPayload version ((1024 - n.delta) % 1024) map (new.map (fun e => e.2)) (headerAttenuation f.header) }
      let s := s.setNeighbour address (fun n => { n with
        rxOld := n.rxMap, rxMap := some { version := version, entries := map }, rxVersion := version
        rxSnr := new.map (fun e => e.2), updated := s.stampNow, usedAt := s.now, fallen := false
        issuedAt := if forced then n.issuedAt else some s.now
        counters := alter n.counters 4 (fun c => sat 32 (c + 1)) })
      let s := s.setLine (fun l => { l with
        queue := (l.queue.filter (fun q => !(q.isMap && q.node = address))) ++ [frame] })
      (s.evictMaps address).raise 116 s.stampNow (objBody n.handle (octets [0, version]))

/-- A map frame from a neighbour: its map, link phase and reported SNR, and the level that follows (R294, R296, R301). -/
def State.mapReceived (s : State) (address : Nat) (data : List Byte) : State :=
  match s.neighbour address, readMap ((data.drop 4).take 32) with
  | some n, some map =>
    if data.length ≠ 52 || byteAt data 0 ≠ 1 then s
    else
      let s := s.lineCount 5 1
      let version := byteAt data 1 % 16
      let least := fieldInt data 44 1
      let s := s.setNeighbour address (fun n => { n with
        delta := field data 2 2 % 1024, counters := alter n.counters 5 (fun c => sat 32 (c + 1)) })
      if n.pinned then s
      else
        let s := s.setNeighbour address (fun n => { n with
          txMap := some { version := version, entries := map }, txVersion := version, reported := least
          txSnr := (List.range 8).map (fun k => fieldInt data (36 + k) 1), updated := s.stampNow, usedAt := s.now, fallen := false })
        let s := (s.evictMaps address).raise 116 s.stampNow (objBody n.handle (octets [1, version]))
        let target : Int := s.line.config.target
        if least < target then s.raiseLevel address (target - least).toNat
        else if target + 6 < least then s.setNeighbour address (fun n => { n with aLink := min 31 (n.aLink + 1) })
        else s
  | _, _ => s

/-! ### Receiving (R287, R290, R293, R302) -/

/-- DELIMITER_DETECTED (R302): the modem is receiving, and the line has not been idle since the preamble, 32 slots before (Table 9.3). -/
def execDelimiterDetected (t : Nat) (s : State) : Out :=
  let s := (s.tickTo t).settleLine
  .next
    (if s.lineRuns && s.line.config.mode = 1 && s.line.flight.isNone then
      s.setLine (fun l => { l.occupied false (s.now - s.spanOf 0 32) with receiving := true })
    else s)

/-- A frame from a node that is not admitted: counted, event source 134 at most once an hour (R310). -/
def State.stranger (s : State) (address : Nat) : State :=
  let s := s.meshCount 0 1
  let recent := s.mesh.strangers.filter (fun p => s.now < p.2 + 3600 * secTicks)
  if recent.any (fun p => p.1 = address) then s.setMesh (fun m => { m with strangers := recent })
  else (s.setMesh (fun m => { m with strangers := recent ++ [(address, s.now)] })).raise 134 s.stampNow (objBody 0 (le 2 address))

/-- The receive map a header names is held: the current or the previous version, with its map cached (R293, R295). -/
def Neighbour.holdsMap (n : Neighbour) (version : Nat) : Bool :=
  n.rxMap.any (fun m => m.version = version) || n.rxOld.any (fun m => m.version = version)

/-- The held receive map of a version (R293). -/
def Neighbour.mapOf (n : Neighbour) (version : Nat) : Option (List (Option (List Nat))) :=
  ((n.rxMap.toList ++ n.rxOld.toList).find? (fun m => m.version = version)).map ToneMap.entries

/-- A frame's data ends with its CRC-32C (R288, R290, Table 9.6). -/
def frameWhole (data : List Byte) : Bool :=
  5 ≤ data.length && crc32c (data.take (data.length - 4)) = field data (data.length - 4) 4

/-- Where an instant lies after the part's last anchor, 0-1,023 in 1/1,024 of a half cycle (R294, Table 9.11). -/
def State.phaseOf (s : State) (tick : Nat) : Nat :=
  match s.line.anchor with
  | none => 0
  | some a =>
    let x := ((tick : Rat) - (a.1 : Rat)) / s.line.half
    ((x - (x.floor : Rat)) * 1024).floor.toNat

/-- The link phase of a neighbour, measured from the start of a default-map frame, which lies on the sender's own anchor (R294). -/
def State.measureDelta (s : State) (address start : Nat) (f : RxFrame) : State :=
  if headerLink f.header then s else s.setNeighbour address (fun n => { n with delta := s.phaseOf start })

/-- A valid frame from an admitted node. -/
def State.heard (s : State) (address start : Nat) (f : RxFrame) (data : List Byte) : State :=
  let s := (((s.lineCount 1 1).assignSlot address).measureDelta address start f).setNeighbour address (fun n => { n with
    lastValid := s.stampNow, validAt := s.now, silent := false, usedAt := s.now
    counters := alter n.counters 1 (fun c => sat 32 (c + 1)) })
  let s := s.issueMap address f false
  if headerIsMap f.header then s.mapReceived address data else s.acceptFrame data

/-- A frame that failed: recorded against its source, and answered with a new map (R290, R293). -/
def State.misheard (s : State) (address start : Nat) (f : RxFrame) : State :=
  (((s.lineCount 3 1).measureDelta address start f).setNeighbour address (fun n =>
    { n with counters := alter n.counters 2 (fun c => sat 32 (c + 1)) })).issueMap address f true

/-- A frame whose opening is read: its header, then its payload on the map that the header names (R287, R290, R293, R295). A node removed
while its transaction is in flight is still heard (R308). -/
def State.takeFrame (s : State) (start : Nat) (places : List (Rat × Nat)) (f : RxFrame) : State :=
  let s := s.setLine (fun l => { l with window := (l.window.1 + f.slots.length, l.window.2 + f.erased) })
  let s := (s.lineCount 6 f.erased).lineCount 7 f.blanked
  let source := headerSource f.header
  if !f.delimiter then s
  else if !headerCrc f.header then s.lineCount 2 1
  else if !headerGood f.header || (headerLink f.header && s.line.defaultOnly) then s
  else if !s.admitted source && !s.mesh.flights.any (fun x => x.node = source) then s.stranger source
  else
    let map := (s.neighbour source).bind (fun n => n.mapOf (headerVersion f.header))
    let data := if headerLink f.header && map.isNone then none
      else s.line.config.readPayload places (s.meas.config.nominal = 1) (if headerLink f.header then map else none) f
    match data with
    | some x => if frameWhole x then s.heard source start f x else s.misheard source start f
    | none => s.misheard source start f

/-- The receiver's reading of a frame on the line. -/
def State.readFrame (s : State) (f : LineFrame) : RxFrame := s.line.config.readFrame (s.receiveSlots f.slots).1

/-- A frame has been on the line, from its first slot to its last. -/
def State.meets (s : State) (f : LineFrame) : State :=
  s.setLine (fun l => { (l.occupied false f.start).vacated false (s.spanOf f.start f.slots.length) with receiving := false })

/-- A frame heard on the line; none is heard that fell into a transmission of the part, or while its link to M is lost (Table 9.9). The idle
slots before it reach the receiver first. -/
def State.hear (s : State) (f : LineFrame) : State :=
  let sent := s.line.sentWithin f.start (s.spanOf f.start f.slots.length)
  let s := s.meets f
  if !s.lineRuns || s.line.config.mode ≠ 1 || sent || s.lineDown then s
  else
    let s := s.judgeBefore f.start
    (s.receiveSlots f.slots).2.takeFrame f.start (s.placesOf f) (s.readFrame f)

/-- FRAME_RECEIVED (R290). -/
def execFrameReceived (t : Nat) (frame : LineFrame) (s : State) : Out := .next ((s.tickTo t).settleLine.hear frame)

/-- MAP_FRAME_RECEIVED (R294): a frame whose header names a map frame. -/
def execMapFrameReceived (t : Nat) (frame : LineFrame) (s : State) : Out :=
  let s := (s.tickTo t).settleLine
  .next (if headerIsMap (((s.meets frame).judgeBefore frame.start).readFrame frame).header then s.hear frame else s)

/-- ERASURE_RATE_WINDOW (R305): above 10 % raises event source 118 once; 10 s below 5 % re-arm it. -/
def execErasureRateWindow (t : Nat) (s : State) : Out :=
  let s := s.tickTo t
  .next
    (if s.lineRuns && s.line.windowAt + 10 * secTicks ≤ s.now then
      let w := s.line.window
      let s := s.setLine (fun l => { l with window := (0, 0), windowAt := s.now })
      if w.1 < 10 * w.2 && !s.line.erasureRaised then
        (s.setLine (fun l => { l with erasureRaised := true })).raise 118 s.stampNow (objBody 0 [])
      else if 20 * w.2 < w.1 || w.1 = 0 then s.setLine (fun l => { l with erasureRaised := false })
      else s
    else s)

/-! ### S-FSK (R303, R304) -/

/-- The length of `n` bits in ticks: 1 / rate, or H / k in a mains-locked rate (R303). -/
def State.bitTicks (s : State) (n : Nat) : Nat :=
  let c := s.line.config.rate
  if c ≤ 3 then n * secTicks / (300 * 2 ^ c) else ((n : Rat) * s.line.half / ((c - 128 : Nat) : Rat)).floor.toNat

/-- The native tone nearest a frequency in 10 Hz steps, a tie going to the higher (R303). -/
def nearestTone (f : Nat) : Nat := min 27 ((f - 3500) / 200)

/-- The attenuation of an S-FSK frequency (R303). -/
def LineConfig.sfskLevel (c : LineConfig) (f : Nat) : Nat := max c.attenuation (nth c.ceiling (nearestTone f))

/-- The frequency and the attenuation of each bit of a transmission, most significant bit of each byte first: a 1 on the mark, a 0 on the
space frequency (R303). -/
def LineConfig.sfskTones (c : LineConfig) (bits : Nat) (data : List Byte) : List (Nat × Nat) :=
  (List.range bits).map (fun k =>
    let f := if bit (byteAt data (k / 8)) (7 - k % 8) then c.mark else c.space
    (f, c.sfskLevel f))

/-- SFSK_TRANSMIT (R303): the oldest transmission starts at the first anchor at least 5 ms after its OK reply, plus the
offset. -/
def execSfskTransmit (t : Nat) (s : State) : Out :=
  let s := (s.tickTo t).settleLine
  .next
    (match s.line.sfskQueue, s.line.anchor with
     | (bits, data, ok) :: rest, some (a, _) =>
       let start := a + ((s.line.config.offset : Rat) * s.line.half / 1024).floor.toNat
       if s.line.config.mode = 2 && s.mayTransmit && ok + 5 * Config.ms ≤ a && s.now = start then
         s.setLine (fun l => { l with
           sfskQueue := rest, busy := (l.occupied true s.now).busy
           sfskFlight := some { tones := l.config.sfskTones bits data, startAt := s.now, endAt := s.now + s.bitTicks bits } })
       else s
     | _, _ => s)

/-- SFSK_FRAME_RECEIVED (R304): `t` is the end of the captured bytes, and `bits` holds the samples of each bit up to it, from at least
32 bits before the sync pattern on. A frame that fell into a transmission of the part is not received (Table 9.9), and one that finds 16
held is dropped. -/
def execSfskFrameReceived (t : Nat) (bits : List (List Int)) (s : State) : Out :=
  let s := (s.tickTo t).settleLine
  let c := s.line.config
  let energies := bits.map c.bitEnergies
  .next
    (match c.captured (decideBits energies) with
     | none => s
     | some data =>
       if !s.lineRuns || s.lineDown || c.mode ≠ 2 || s.line.sentWithin (s.now - s.bitTicks (c.syncLength + 8 * c.frameLength)) s.now then s
       else if 16 ≤ s.line.sfsk.length then s.lineCount 12 1
       else
         let start := s.now - s.bitTicks (8 * c.frameLength)
         let f : SfskFrame := {
           time := s.stamp start, mark := sat 8 (Config.sfskLevel (energies.map (fun e => e.1)))
           space := sat 8 (Config.sfskLevel (energies.map (fun e => e.2))), phase := s.phaseOf start, data := bytesMsb data }
         ((s.setLine (fun l => { l with sfsk := l.sfsk ++ [f] })).lineCount 11 1).raise 122 s.stampNow (objBody 0 []))

end Sys2Proof.Machine
end

