-- ==== Sys2Proof/Machine/MeshRows.lean ====
section
/-! DEFINITION. The events of P1: polling (R325-R330), responses, route errors, neighbour reports, discovery (R322), the route
pass (R321) and silent links (R316). -/

namespace Sys2Proof.Machine

/-! ### Poll entries (R326, R327) -/

/-- The latest due instant of an entry at or before a UTC instant: a whole multiple of its period, plus its offset. -/
def PollEntry.dueBefore (e : PollEntry) (utc : Nat) : Nat :=
  let off := e.offset * minTicks
  (utc - off) / (e.period * minTicks) * (e.period * minTicks) + off

/-- The entry counts due instants from now on: those that have passed are not made up. -/
def PollEntry.from_ (e : PollEntry) (utc : Nat) : PollEntry := { e with readyAt := none, lastDue := e.dueBefore utc }

def State.setPoll (s : State) (index : Nat) (f : PollEntry → PollEntry) : State :=
  s.setMesh (fun m => { m with polls := alterWhere m.polls (fun e => e.index = index) f })

/-- The entry has a transaction in flight. -/
def State.polling (s : State) (index : Nat) : Bool := s.mesh.flights.any (fun x => x.entry = some index)

/-- An occurrence is skipped: counted, with event source 136 at most once a minute, which carries how many were skipped in the last minute
(R327, R333). -/
def State.skipPoll (s : State) : State :=
  let s := (s.meshCount 2 1).setMesh (fun m => { m with skipped := s.now :: m.skipped.filter (fun a => s.now < a + minTicks) })
  if s.mesh.skipAt.any (fun a => s.now < a + minTicks) then s
  else (s.setMesh (fun m => { m with skipAt := some s.now })).raise 136 s.stampNow (objBody 0 (countItem s.mesh.skipped.length))

/-- The node of an entry cannot be polled: unreachable, or discovering (R327, Table 10.8). -/
def State.offLimits (s : State) (node : Nat) : Bool := (s.node node).any (fun n => n.state = 2 || n.state = 3)

/-- POLL_ENTRY_DUE (R327). Polling that has resumed in a line mode that is not native skips each occurrence (R507). -/
def execPollEntryDue (t index : Nat) (s : State) : Out :=
  let s := s.tickTo t
  .next
    (match s.mesh.polls.find? (fun e => e.index = index) with
     | none => s
     | some e =>
       let due := e.dueBefore s.stampNow
       if s.phase = .running && s.mesh.running && has e.flags 1 && s.admitted e.node && e.lastDue < due && e.offset * minTicks ≤ s.stampNow then
         let s := s.setPoll index (fun e => { e with lastDue := due })
         if e.readyAt.isSome || s.polling index || s.line.config.mode ≠ 1 then s.skipPoll
         else if s.offLimits e.node then s.meshCount 3 1
         else s.setPoll index (fun e => { e with readyAt := some due })
       else s)

/-- The entry taken first: PRIORITY, then the earlier due instant, then the lower index (R327). -/
def PollEntry.before (a b : PollEntry) : Bool :=
  let pa := ofBool (!has a.flags 2)
  let pb := ofBool (!has b.flags 2)
  let ra := a.readyAt.getD 0
  let rb := b.readyAt.getD 0
  pa < pb || (pa = pb && (ra < rb || (ra = rb && a.index < b.index)))

/-- Ready entries whose node has become unreachable are skipped and counted (R327). -/
def State.dropUnreachable (s : State) : State :=
  let n := (s.mesh.polls.filter (fun e => e.readyAt.isSome && s.offLimits e.node)).length
  (s.meshCount 3 n).setMesh (fun m => { m with
    polls := alterWhere m.polls (fun e => e.readyAt.isSome && s.offLimits e.node) (fun e => { e with readyAt := none }) })

/-- The first ready entry whose node has no transaction in flight. -/
def State.readyEntry (s : State) : Option PollEntry :=
  s.mesh.polls.foldl (fun (a : Option PollEntry) e =>
    if e.readyAt.isSome && s.admitted e.node && !s.mesh.flights.any (fun x => x.node = e.node) && !a.any (fun b => b.before e) then some e
    else a) none

/-- The "since" of a request: the last end applied to the node's shadow context, or the last pending for a parked one (R330). -/
def State.sinceOf (s : State) (node : Nat) : Nat :=
  match s.liveNode node with
  | some c => c.shadow.lastEnd
  | none =>
    match s.parkedNode node with
    | some c => match c.shadow.pending.getLast? with
      | some b => feedEnd b
      | none => c.shadow.lastEnd
    | none => 0

/-- The plaintext of a poll (Table 10.6). -/
def State.pollMessage (s : State) (e : PollEntry) : List Byte :=
  if e.type = 1 then octets [1, 0, e.records, 0] ++ le 8 (s.sinceOf e.node) ++ zeros 4 else octets [2, 0, 0, 0]

/-- TRANSACTION_START (R327): what waits for the modem goes first, then the neighbour reports asked for by discovery, then the
first ready entry within the limit. -/
def execTransactionStart (t : Nat) (s : State) : Out :=
  let s := (s.tickTo t).settleLine
  .next
    (if s.lineRuns && !s.lineDown && s.power.warning.isNone && s.line.config.mode = 1 then
      let s := s.pump
      if 64 ≤ s.mesh.flights.length then s
      else
        match s.mesh.reports.find? (fun a =>
            (s.node a).any (fun n => n.route.isSome) && !s.mesh.flights.any (fun x => x.node = a)) with
        | some a =>
          let s := s.setMesh (fun m => { m with reports := m.reports.filter (fun x => x ≠ a) })
          (s.startFlight { node := a, type := 2, message := octets [2, 0, 0, 0] }).pump
        | none =>
          if s.phase = .running && s.mesh.running && s.mesh.flights.length < s.mesh.limit && s.canOriginate then
            let s := s.dropUnreachable
            match s.readyEntry with
            | some e =>
              let s := s.setPoll e.index (fun x => { x with readyAt := none, takenDue := e.readyAt.getD 0 })
              (s.startFlight { node := e.node, type := e.type, entry := some e.index, due := e.readyAt.getD 0, message := s.pollMessage e
                               long := has e.flags 4, allowed := 1 + e.retries }).pump
            | none => s
          else s
    else s)

/-- TRANSACTION_DEADLINE (R329): the attempt's deadline has passed. -/
def execTransactionDeadline (t id : Nat) (s : State) : Out :=
  let s := s.tickTo t
  .next
    (match s.flight id with
     | some x => if x.deadline.any (fun d => d ≤ s.now) then (s.failAttempt x false).pump else s
     | none => s)

/-! ### Messages received (R324, R328-R331) -/

/-- The oldest message of a type, taken from the modem's inbox. -/
def State.takeMessage (s : State) (type : Nat) : Option ((List Byte × List Byte) × State) :=
  match s.line.inbox.find? (fun m => byteAt m.2 0 = type) with
  | some m => some (m, s.setLine (fun l => { l with inbox := l.inbox.erase m }))
  | none => none

/-- The transaction a response answers: RESPONSE set, from its node, with its number (R328). -/
def State.answered (s : State) (h : List Byte) (type : Nat) : Option Transaction :=
  if bit (netFormat h) 5 then
    s.mesh.flights.find? (fun x => x.node = netOrigin h && x.number = netNumber h && x.type = type && 0 < x.attempts)
  else none

/-- The records of an 81h message that it holds whole. -/
def recordsOf (m : List Byte) : List (List Byte) :=
  (List.range (min (byteAt m 2) ((m.length - 4) / 72))).map (fun k => (m.drop (4 + 72 * k)).take 72)

/-- One record of a response (R330). -/
def State.pollRecord (s : State) (origin : Nat) (b : List Byte) : State :=
  if feedNode b ≠ origin || feedLength b = 0 || 60 < feedLength b then s.meshCount 4 1
  else
    let r := s.feed b
    if r.1 = 7 then r.2.meshCount 4 1 else r.2

/-- The entry of an interval-data response with MORE is ready again, with its original due instant: a response in time names it by its
transaction, a late one by its node, whose one entry of type 1 it is (R325, R330). -/
def State.readyAgain (s : State) (origin : Nat) (x : Option Transaction) : State :=
  let ready (e : PollEntry) : PollEntry :=
    { e with readyAt := some (e.readyAt.getD ((x.map Transaction.due).getD e.takenDue)) }
  let own (e : PollEntry) : Bool :=
    e.node = origin && e.type = 1 && x.all (fun x => x.entry = some e.index)
  s.setMesh (fun m => { m with polls := alterWhere m.polls own ready })

/-- INTERVAL_DATA_RESPONSE (R330): its records are applied, those of a node removed meanwhile discarded (R308). -/
def execIntervalDataResponse (t : Nat) (s : State) : Out :=
  let s := s.tickTo t
  .next
    (match s.takeMessage 0x81 with
     | none => s
     | some ((h, m), s) =>
       let x := s.answered h 1
       let s := match x with
         | some x => s.completeFlight x 0
         | none => s
       let s := if s.admitted (netOrigin h) && bit (netFormat h) 5 then (recordsOf m).foldl (fun (s : State) b => s.pollRecord (netOrigin h) b) s else s
       let s := if has (byteAt m 1) 1 && bit (netFormat h) 5 then s.readyAgain (netOrigin h) x else s
       s.pump)

/-- ROUTE_ERROR (R318, R329): the link named costs 255 until its reporter reports again, a pass starts at once, and the
attempt whose frame was lost fails. -/
def execRouteError (t : Nat) (s : State) : Out :=
  let s := s.tickTo t
  .next
    (match s.takeMessage 0x04 with
     | none => s
     | some ((h, m), s) =>
       let relay := netOrigin h
       let next := field m 4 2
       let lost := field m 6 4
       let s := s.raise 131 s.stampNow (objBody (s.nodeHandle relay) (le 2 relay ++ le 2 next ++ countItem lost))
       let old := s.mesh.links.find? (fun x => x.a = relay && x.b = next)
       let s := s.setMesh (fun k => { k with
         links := k.links.filter (fun x => !(x.a = relay && x.b = next)) ++
           [{ a := relay, b := next, cost := 255, unmuted := (old.map RemoteLink.unmuted).getD 8, reported := true }]
         dirty := true, urgent := true })
       match s.mesh.flights.find? (fun x => x.queued && x.counter = lost && x.route.relays.contains relay) with
       | some x => s.failAttempt x true
       | none => s)

/-- The entries of an 82h message: address, cost, unmuted segments. -/
def reportEntries (m : List Byte) : List (Nat × Nat × Nat) :=
  (List.range (min (byteAt m 2) ((m.length - 4) / 4))).map (fun k =>
    (field m (4 + 4 * k) 2, byteAt m (6 + 4 * k), byteAt m (7 + 4 * k)))

/-- A node's report takes the place of what it reported before (R318). -/
def State.applyReport (s : State) (origin : Nat) (m : List Byte) : State :=
  let new := ((reportEntries m).filter (fun e => e.1 ≠ 0)).map (fun e =>
    ({ a := origin, b := e.1, cost := e.2.1, unmuted := e.2.2, reported := true } : RemoteLink))
  let s := s.setMesh (fun k => { k with
    links := k.links.filter (fun x => !(x.a = origin && x.reported)) ++ new, dirty := true })
  s.setNode origin (fun n => { n with reported := true })

/-- The path a discovery recorded: the relays of its answer, reversed (R322). A node that the answer gives no route is sought again an hour
after that discovery began (log 85). -/
def State.recordPath (s : State) (relays : List Nat) (target : Nat) : State :=
  let stops := relays ++ [target]
  let new := (stops.zip (stops.drop 1)).filter (fun p =>
    !s.mesh.links.any (fun x => !x.reported && ((x.a = p.1 && x.b = p.2) || (x.a = p.2 && x.b = p.1))))
  let since := (s.mesh.discovering.map (fun d => d.2.1)).getD s.now
  let s := s.setNode target (fun n => { n with nextTry := since + 3600 * secTicks })
  let ask := relays.filter (fun a => (s.node a).any (fun n => !n.reported) && !s.mesh.reports.contains a)
  s.setMesh (fun m => { m with
    links := m.links ++ new.map (fun p => ({ a := p.1, b := p.2, cost := 128, reported := false } : RemoteLink))
    reports := m.reports ++ ask, dirty := true
    discovering := none, discoveries := m.discoveries.filter (fun a => a ≠ target) })

/-- NEIGHBOUR_REPORT (R318, R322): the answer to a poll or to the discovery that runs. -/
def execNeighbourReport (t : Nat) (s : State) : Out :=
  let s := s.tickTo t
  .next
    (match s.takeMessage 0x82 with
     | none => s
     | some ((h, m), s) =>
       let origin := netOrigin h
       let s := match s.answered h 2 with
         | some x => s.completeFlight x 0
         | none => s
       if !s.admitted origin then s
       else
         let s := s.applyReport origin m
         let s := match s.mesh.discovering with
           | some (target, _, number) =>
             if target = origin && bit (netFormat h) 5 && netNumber h = number then s.recordPath (netRelays h).reverse origin else s
           | none => s
         s.pump)

/-- HOST_RESPONSE (R331): the LINE_SEND completes, and its response is held, unless 16 are. -/
def execHostResponse (t : Nat) (s : State) : Out :=
  let s := s.tickTo t
  .next
    (match s.takeMessage 0x83 with
     | none => s
     | some ((h, m), s) =>
       match s.answered h 3 with
       | none => s
       | some x =>
         let data := m.drop 4
         let kept := s.admitted x.node
         let s := s.completeFlight x (if kept then data.length else 0)
         match x.op with
         | none => s.pump
         | some (tag, _) =>
           if !kept then s.pump
           else if 16 ≤ s.mesh.responses.length then (s.meshCount 5 1).pump
           else
             let s := s.setMesh (fun k => { k with
               responses := k.responses ++ [{ tag := tag, node := x.node, data := data }]
               tags := k.tags.filter (fun a => a ≠ tag) })
             (s.raise 139 s.stampNow (objBody 0 (le 2 tag))).pump)

/-! ### Discovery (R322) -/

/-- The discovery request: a broadcast with h = 8, j = 0 (Tables 10.1 and 10.6). -/
def State.sendDiscovery (s : State) (net : List Byte) (target : Nat) : State :=
  let c := s.mesh.counter
  let number := s.mesh.nextNumber
  let header := netHeader (1 + 16) 8 0 0 number [] c
  let plain := octets [5, 0, 0, 0] ++ le 2 target ++ zeros 2
  let s := s.countFrame
  let s := s.setMesh (fun m => { m with discovering := some (target, s.now, number), nextNumber := (number + 1) % 256 })
  s.enqueueFrame { node := 0, data := sealFrame (broadcastKey net) header plain }

/-- DISCOVERY_START (R322): one at a time, in order, where its hour has passed; its frame needs the vault's keys (Table 1.2). -/
def execDiscoveryStart (t : Nat) (s : State) : Out :=
  let s := (s.tickTo t).settleLine
  .next
    (if s.lineRuns && !s.lineDown && !s.linkLost 7 && s.power.warning.isNone && s.line.config.mode = 1 && s.mesh.discovering.isNone && s.canOriginate &&
        s.dataQueue < 4 then
      match s.mesh.discoveries.find? (fun a => (s.node a).any (fun n => n.nextTry ≤ s.now)), s.sec.network with
      | some a, some net =>
        (s.setNode a (fun n => { n with state := if n.state = 2 then 2 else 3 })).sendDiscovery net a
      | _, _ => s
    else s)

/-- DISCOVERY_TIMEOUT (R322): after 60 s without an answer it ends, to be repeated after an hour while the node has no
route. -/
def execDiscoveryTimeout (t : Nat) (s : State) : Out :=
  let s := s.tickTo t
  .next
    (match s.mesh.discovering with
     | some (a, since, _) =>
       if since + 60 * secTicks ≤ s.now then
         let s := s.setNode a (fun n => { n with
           state := if n.state = 3 then (if n.route.isSome then 1 else 0) else n.state, nextTry := since + 3600 * secTicks })
         let again := (s.node a).any (fun n => n.route.isNone)
         s.setMesh (fun m => { m with
           discovering := none
           discoveries := m.discoveries.filter (fun x => x ≠ a) ++ (if again then [a] else []) })
       else s
     | none => s)

/-- ROUTE_PASS (R321): after a cost change, 10 s after the last pass, or at once after a route error. -/
def execRoutePass (t : Nat) (s : State) : Out :=
  let s := s.tickTo t
  .next
    (if s.lineRuns && (s.mesh.urgent || (s.mesh.dirty && !s.mesh.passAt.any (fun a => s.now < a + 10 * secTicks))) then s.routePass
    else s)

/-- LINK_SILENCE (R316): no valid frame for 30 min makes a link unusable. -/
def execLinkSilence (t handle : Nat) (s : State) : Out :=
  let s := s.tickTo t
  .next
    (match s.line.neighbours.find? (fun n => n.handle = handle) with
     | some n =>
       if n.validAt + 30 * minTicks ≤ s.now && !n.silent then s.setNeighbour n.node (fun n => { n with silent := true }) else s
     | none => s)

end Sys2Proof.Machine
end

