-- ==== Sys2Proof/Machine/Store.lean ====
section
/-! DEFINITION. The store: checkpoints of the event log (R392), block retirement (R385), the format (R386), and the opcodes of
group 0Ah (R396-R398, R498, R499). -/

namespace Sys2Proof.Machine

/-! ### Log checkpoints (R392) -/

/-- The body of a checkpoint with a zero signature (Table 12.19). -/
def State.checkpointBody (s : State) : List Byte :=
  le 8 (s.store.lastCheckpoint + 1) ++ le 8 (s.store.nextLog - 1) ++ fit 64 s.store.chain ++ le 4 partTag ++ zeros 4 ++ zeros 512

/-- A checkpoint is written into the chain and asks for its signature; without an identity key event source 149 is raised when it is
written (R392, R405). -/
def State.writeCheckpoint (s : State) : State :=
  if s.storeWrites then
    let n := s.store.nextLog
    let s := s.logAppend 0x0101 s.stampNow s.checkpointBody
    let s := { s with store := { s.store with lastCheckpoint := n, uncovered := none } }
    if s.sec.identity then s.queueJob (.checkpoint n) else s.raise 149 s.stampNow (objBody 0 [])
  else s

/-- A checkpoint is due: 4,096 records, or 10 min after the first record that none covers. -/
def State.checkpointDue (s : State) : Bool :=
  s.store.lastCheckpoint + 4096 < s.store.nextLog || s.store.uncovered.any (fun a => a + 10 * minTicks ≤ s.now)

/-- LOG_CHECKPOINT (R392); a commit that runs goes first (Table 12.22). -/
def execLogCheckpoint (t : Nat) (s : State) : Out :=
  let s := s.tickTo t
  .next (if s.checkpointDue && s.power.commit.isNone then s.writeCheckpoint else s)

/-! ### Read-only, blocks (R385) -/

/-- The store becomes read-only: event source 147, and an open update is abandoned (Table 13.12). -/
def State.storeReadOnly (s : State) : State :=
  if s.store.state = 1 then
    let s := { s with store := { s.store with state := 2 } }
    s.abandonUpdate.raise 147 s.stampNow (objBody 0 (le 1 0))
  else s

/-- The spare pool of a device: 2 % of its blocks, at least 16. The rounding is open (log 12). -/
def Device.spares (d : Device) : Nat := max 16 (openDiv 8 (d.capacity / 262144 * 2 : Nat) 100).toNat

/-! ### The pages of an encrypted region (R384) -/

/-- What the store holds of a page, by its logical number; the regions in State are as the vault decrypts them (log 101). -/
def State.storedPage (s : State) (page : Nat) (plain : List Byte) : List Byte := xtsEncrypt s.storeKey page (fit 4096 plain)

/-- What a page reads as once its bytes in the store have gone wrong. -/
def State.spoiltPage (s : State) (page draw : Nat) (plain : List Byte) : List Byte :=
  xtsDecrypt s.storeKey page (fit 4096 (Config.unreadable draw (s.storedPage page plain)))

/-- The logical number of the page of ring `k` at a position. -/
def State.ringPage (s : State) (k pos : Nat) : Nat :=
  Config.regionBlock s.store.boot.layout (5 + k) * 64 + pos % ((nth s.store.rings k).size * 4194304) / 4096

/-- The blocks of a capture record that one of its pages spoils: they read as other bytes, so that the data CRC of the record fails (R385,
Table 12.20). -/
def State.spoilRecord (s : State) (k draw : Nat) (x : RingRecord) : RingRecord :=
  let at_ := 4096 * (draw % max 1 (x.bytes.length / 4096))
  let page := s.spoiltPage (s.ringPage k (x.position + at_)) draw (x.bytes.drop at_)
  let data := fit (x.bytes.length - 68) ((x.bytes.take at_ ++ page ++ x.bytes.drop (at_ + 4096)).drop 68)
  let whole := crc32c (data.take (260 * field x.bytes 48 2)) = field x.bytes 60 4
  { x with bytes := x.bytes.take 68 ++ (if whole then alter data 0 (fun b => b ^^^ 1#8) else data) }

/-- A page that on-die ECC cannot correct (R385): a journal record counts as incomplete, so restore does not find it (R246); the second copy
of a context record is used; a log record is lost to reads; a capture record fails its data CRC. -/
def State.losePage (s : State) (x : LostPage) : State :=
  match x with
  | .journal n => { s with store := { s.store with journal := s.store.journal.filter (fun r => r.sequence ≠ n) } }
  | .context _ => s
  | .log n => { s with store := { s.store with log := alterWhere s.store.log (fun r => r.sequence = n) (fun r => { r with lost := true }) } }
  | .capture k pos =>
    let d := s.draw
    { d.2 with store := { d.2.store with
        rings := alter d.2.store.rings k (fun g =>
          { g with records := alterWhere g.records (fun r => r.position = pos) (fun r => s.spoilRecord k d.1 r) }) } }

/-- BLOCK_RETIRE (R385): a block whose program or erase failed is retired to a spare with its valid pages; with no spare left the store
becomes read-only. -/
def execBlockRetire (t device : Nat) (lost : List LostPage) (s : State) : Out :=
  let s := s.tickTo t
  let d := nth s.store.devices device
  guarded (device < 2)
    (if s.firmware && d.present then
      let s := lost.foldl State.losePage s
      if d.spare = 0 then s.storeReadOnly
      else
        let s := { s with store := { s.store with
          devices := alter s.store.devices device (fun d => { d with retired := sat 16 (d.retired + 1), spare := d.spare - 1 }) } }
        let s := s.raise 145 s.stampNow (objBody 0 [])
        let s := if 4 * (d.spare - 1) < d.spares && d.spares ≤ 4 * d.spare then s.raise 146 s.stampNow (objBody 0 []) else s
        if d.spare = 1 then s.storeReadOnly else s
    else s)

/-! ### The bytes of a journal record (R387) -/

/-- Context record bytes 0-1,791 and 2,304-3,303. -/
def Context.checkpointBody (c : Context) : List Byte := fit 1792 c.body ++ fit 1000 (c.body.drop 2304)

/-- The body by its type (Table 12.17); that of the settings record is laid out as the model chooses (DESIGN CHOICE, log 99). -/
def JournalRecord.body (r : JournalRecord) : List Byte :=
  let c := r.context.getD {}
  match r.type with
  | 2 => le 4 r.code ++ c.checkpointBody
  | 3 => le 4 r.code ++ (if r.code = 2 then fit 1024 (c.body.drop 768) else if r.code = 3 then le 4 c.tariff else fit 232 (c.body.drop 3072))
  | 4 => octets r.data
  | 6 => le 4 (nth r.data 0) ++ le 4 (nth r.data 1)
  | 7 => le 1 (nth r.data 0) ++ le 4 (nth r.data 1) ++ le 1 (nth r.data 2) ++ le 2 (nth r.data 3) ++ le 8 (nth r.data 4)
  | 8 => match r.balance with
    | some b => le 4 b.1 ++ fit 152 (b.2.bytes b.1)
    | none => []
  | _ => c.checkpointBody

/-- Header, body and CRC (Table 12.16). -/
def JournalRecord.bytes (r : JournalRecord) : List Byte :=
  withCrc (le 2 1 ++ octets [r.type, ofBool r.provisional] ++ le 4 r.sequence ++ le 4 r.serial ++ le 2 r.body.length ++ zeros 2 ++
    le 8 r.time ++ r.body)

/-! ### Format (R386, R409, R401) -/

/-- The boot table is written: the copy with the next sequence governs, and what governed is the other copy (R412). -/
def State.setBoot (s : State) (f : BootTable → BootTable) : State :=
  { s with store := { s.store with
      boot := { f s.store.boot with sequence := s.store.boot.sequence + 1 }, bootSpare := some s.store.boot
      bootWrite := some { at_ := s.now } } }

/-- Everything the format empties, with the layout given: contexts, groups, mesh, slots, journal, logs, rings and marks; serials and
sequences restart at 1, and the store key is new (R386). The settings record that follows holds the frame counter as it stands, so that a
reset finds it (R313). The slots of the live contexts are freed at one instant: they join the free slots in the order of the list
(DESIGN CHOICE, log 86). A store that was read-only is writable again: event source 147 (R385, Table 12.2). -/
def State.formatStore (s : State) (layout : List Nat) : State :=
  let key := s.draws
  let slots := s.bill.live.map Context.slot
  let was := s.store.state
  let s := s.setBoot (fun b => { b with layout := layout })
  let s := { s with
    draws := s.draws + 1
    bill := { s.bill with
      live := [], free := s.bill.free ++ slots, parking := [], due := none, groups := List.replicate 16 {} }
    mesh := { s.mesh with
      nodes := [], links := [], polls := [], running := false, limit := 0, discoveries := [], discovering := none, reports := [] }
    line := { s.line with neighbours := [] }
    cal := { s.cal with slots := [none, none] }
    clock := { s.clock with policy := 0, limit := 30 }
    health := { s.health with log := [], next := 1 }
    sec := { s.sec with
      storeKey := key, storeKeyCopy := key, storeKeyState := s.sec.lifecycle
      signing := s.sec.signing.filter (fun j => !j.isRecord), backlog := s.sec.backlog.filter (fun j => !j.isRecord) }
    host := { s.host with sessions := s.host.sessions.map (fun (x : Session) => { x with marks := [] }) }
    store := { s.store with
      state := 1, vioOnly := false, formatting := none, unfinished := none, journal := [], nextJournal := 1, journalStart := 0
      pool := [], parked := [], nextSerial := 1, snapshots := [], profiles := [], tampers := [], log := [], nextLog := 1, logStart := 0
      chain := List.replicate 64 0, lastCheckpoint := 0, uncovered := none
      rings := (List.range 8).map (fun k => ({ size := layout.getD (k + 1) 0 } : Ring)) } }
  let s := s.logAppend 0x0102 s.stampNow []
  let s := if was = 2 then s.raise 147 s.stampNow (objBody 0 (le 1 1)) else s
  { s with mesh := { s.mesh with journaled := s.mesh.counter } }.journalSettings

/-- The layout a STORE_FORMAT asks for: event log and rings, in 4 MiB units. -/
def Req.layout (r : Req) : List Nat := (16 * r.u 2 2) :: (List.range 8).map (fun k => r.u (4 + 2 * k) 2)

/-- The regions of a layout fit the devices. -/
def State.layoutFits (s : State) (layout : List Nat) : Bool :=
  (64 + 16 + 128) * 1048576 + 2 * 262144 + (layout.foldl (fun a n => a + n) 0) * 4194304 ≤
    s.store.devices.foldl (fun a d => a + d.room) 0

/-- What keeps STORE_FORMAT and LIFECYCLE_ADVANCE away: polling, a capture, a sweep, CAL_STORE or CAL_RESTORE (R386, R408). -/
def State.storeBusy (s : State) : Bool :=
  s.mesh.running || s.captures.any (fun c => c.phase ≠ 0 || !c.writing.isEmpty) || !s.sweep.queue.isEmpty || s.sweep.running.isSome ||
  s.cal.storing.isSome || !s.cal.restoring.isEmpty

def storeFormatRow : Row where
  opcode := 0x0A06
  valid := fun r s =>
    r.u 0 2 = 0x5AA5 && 1 ≤ r.u 2 2 && r.u 2 2 ≤ 16 && (List.range 8).all (fun k => r.u (4 + 2 * k) 2 ≤ 512) && s.layoutFits r.layout
  body := fun r s =>
    judged [(s.storeBusy, stWrongState)] s
      (accept r s (fun tag s => { s with store := { s.store with formatting := some (tag, r.session, r.layout) } }))

/-- STORE_FORMAT (R386). -/
def execStoreFormat (t : Nat) (p : Port) (s : State) : Out := .next (storeFormatRow.serve t p s)

/-- Parks in progress end with the contexts they were to write. -/
def State.endParks (s : State) : State :=
  s.bill.parking.foldl (fun (s : State) p => s.completeOp p.2.1 stDegraded (le 4 p.1)) s

/-- STORE_FORMAT_COMPLETE (R386). -/
def execStoreFormatComplete (t : Nat) (s : State) : Out :=
  let s := s.tickTo t
  .next
    (match s.store.formatting with
     | none => s
     | some (tag, _, layout) =>
       if s.firmware then
         let s := s.endParks.formatStore layout
         s.completeOp tag stOk (le 4 (s.poolSize / 1048576))
       else s)

/-! ### STORE_INFO (R499) -/

/-- The 24 bytes of a device. -/
def Device.info (d : Device) : List Byte :=
  le 1 (ofBool d.present) ++ zeros 3 ++ le 8 d.capacity ++ le 4 (d.capacity / 262144) ++ le 2 d.bad ++ le 2 d.retired ++
  le 2 d.spare ++ zeros 2

/-- Sizes of the 14 regions in blocks: firmware, calibration, mesh, journal, event log, rings, pool. -/
def State.regionSizes (s : State) : List Nat :=
  [256, 2, 64, 512] ++ (List.range 9).map (fun k => s.store.boot.layout.getD k 0 * 16) ++ [s.poolSize / 262144]

def storeInfoRow : Row where
  opcode := 0x0A01
  body := fun _ s =>
    let st := s.store
    .done stOk
      (le 1 st.state ++ zeros 3 ++ st.devices.flatMap Device.info ++
        (s.regionSizes.zipIdx).flatMap (fun p => le 4 (if p.2 = 0 then 0 else Config.regionBlock st.boot.layout p.2) ++ le 4 p.1) ++
        le 8 s.poolUsed ++ le 8 (s.poolSize - s.poolUsed) ++
        le 2 ((s.bill.live ++ s.parkedContexts).filter (fun c => c.kind ≠ 1)).length ++
        le 2 ((s.bill.live ++ s.parkedContexts).filter (fun c => c.kind = 1)).length ++
        le 4 ((st.journal.head?.map JournalRecord.sequence).getD 0) ++ le 4 ((st.journal.getLast?.map JournalRecord.sequence).getD 0) ++
        le 8 ((st.log.head?.map LogRecord.sequence).getD 0) ++ le 8 ((st.log.getLast?.map LogRecord.sequence).getD 0) ++
        le 8 st.lastCheckpoint ++
        st.rings.flatMap (fun g => le 8 (g.size * 4194304) ++ le 8 g.oldest ++ le 8 g.newest ++ le 4 g.written ++ zeros 4)) s

/-- STORE_INFO (R499). -/
def execStoreInfo (t : Nat) (p : Port) (s : State) : Out := .next (storeInfoRow.serve t p s)

/-! ### Rings and marks (R396, R397) -/

/-- The ring of a request's handle. -/
def State.ringOfReq (s : State) (r : Req) : Ring := nth s.store.rings (ringOf r.handle)

/-- Mark `k` of a session on a ring. -/
def Session.markOn (x : Session) (ring k : Nat) : Option Mark := x.marks.find? (fun m => m.ring = ring && m.index = k)

/-- A mark takes a place on a ring. -/
def State.placeMark (s : State) (session : Nat) (m : Mark) : State :=
  s.setSession session (fun x => { x with
    marks := x.marks.filter (fun y => !(y.ring = m.ring && y.index = m.index)) ++ [m] })

/-- Ring bytes from a position up to the newest. -/
def Ring.read (g : Ring) (pos n : Nat) : List Byte :=
  ((g.records.flatMap RingRecord.bytes).drop (pos - g.oldest)).take (min n (g.newest - pos))

/-- The reply of CAPTURE_READ. -/
def captureReply (pos : Nat) (bytes : List Byte) : List Byte := le 8 pos ++ le 2 bytes.length ++ zeros 2 ++ bytes

def captureReadRow : Row where
  opcode := 0x0A02
  valid := fun r s =>
    let g := s.ringOfReq r
    r.u 0 1 ≤ 1 && r.u 1 1 ≤ 7 && r.u 2 1 ≤ 1 && r.zero 3 1 && 1 ≤ r.u 4 2 && r.u 4 2 ≤ 4000 && r.zero 6 2 &&
    (if r.u 0 1 = 0 then r.u 1 1 = 0 && r.u 2 1 = 0 && g.oldest ≤ r.u 8 8
     else r.zero 8 8 && ((s.session r.session).markOn (ringOf r.handle) (r.u 1 1)).isSome)
  body := fun r s =>
    let g := s.ringOfReq r
    if r.u 0 1 = 0 then .done stOk (captureReply (r.u 8 8) (g.read (r.u 8 8) (r.u 4 2))) s
    else
      match (s.session r.session).markOn (ringOf r.handle) (r.u 1 1) with
      | none => refuse stBadParam s
      | some m =>
        let pos := if m.lost then g.oldest else m.pos
        let bytes := g.read pos (r.u 4 2)
        let m' := { m with lost := false, pos := if r.u 2 1 = 1 then pos + bytes.length else pos }
        .done (if m.lost then stMarkLost else stOk) (captureReply pos bytes) (s.placeMark r.session m')

/-- CAPTURE_READ (R396, R397). -/
def execCaptureRead (t : Nat) (p : Port) (s : State) : Out := .next (captureReadRow.serve t p s)

def markSetRow : Row where
  opcode := 0x0A03
  valid := fun r s =>
    let g := s.ringOfReq r
    r.u 0 1 ≤ 7 && r.u 1 1 ≤ 3 && r.zero 3 5 && (r.u 1 1 = 3 || r.zero 2 1) && (r.u 1 1 = 0 || r.zero 8 8) &&
    (r.u 1 1 ≠ 0 || (g.oldest ≤ r.u 8 8 && r.u 8 8 ≤ g.newest)) &&
    (r.u 1 1 ≠ 3 || (r.u 2 1 ≤ 7 && ((s.session r.session).markOn (ringOf r.handle) (r.u 2 1)).isSome))
  body := fun r s =>
    let g := s.ringOfReq r
    let ring := ringOf r.handle
    let source := (s.session r.session).markOn ring (r.u 2 1)
    let pos := match r.u 1 1 with
      | 0 => r.u 8 8
      | 1 => g.oldest
      | 2 => g.newest
      | _ => (source.map Mark.pos).getD 0
    .done stOk (le 8 pos)
      (s.placeMark r.session { ring := ring, index := r.u 0 1, pos := pos, lost := r.u 1 1 = 3 && source.any Mark.lost })

/-- MARK_SET (R396). -/
def execMarkSet (t : Nat) (p : Port) (s : State) : Out := .next (markSetRow.serve t p s)

def markClearRow : Row where
  opcode := 0x0A04
  valid := fun r _ => r.u 0 1 ≤ 7 && r.zero 1 3
  body := fun r s =>
    .done stOk [] (s.setSession r.session (fun x => { x with
      marks := x.marks.filter (fun m => !(m.ring = ringOf r.handle && m.index = r.u 0 1)) }))

/-- MARK_CLEAR (R396, R498). -/
def execMarkClear (t : Nat) (p : Port) (s : State) : Out := .next (markClearRow.serve t p s)

/-! ### LOG_READ (R393) -/

/-- Whole records that fit the payload, in order. -/
def fitRecords (room : Nat) (l : List (List Byte)) : List (List Byte) :=
  (l.foldl (fun (a : List (List Byte) × Nat × Bool) b =>
    if a.2.2 && a.2.1 + b.length ≤ room then (a.1 ++ [b], a.2.1 + b.length, true) else (a.1, a.2.1, false)) ([], 0, true)).1

/-- A log record as LOG_READ gives it: a lost one is a record of kind 0103h that names it, whose time no rule states (R393, Table 12.18). -/
def LogRecord.served (x : LogRecord) (time : Nat) : LogRecord :=
  if x.lost then { sequence := x.sequence, time := time % 2 ^ 64, kind := 0x0103, body := le 8 x.sequence ++ le 8 x.sequence } else x

def logReadRow : Row where
  opcode := 0x0A05
  valid := fun r _ => 1 ≤ r.u 8 1 && r.zero 9 3
  body := fun r s =>
    let l := s.store.log.filter (fun x => r.u 0 8 ≤ x.sequence)
    let d := if l.isEmpty || (l.take (r.u 8 1)).any LogRecord.lost then s.draw else (0, s)
    let out := fitRecords 4084 ((l.take (r.u 8 1)).map (fun x => withCrc (x.served d.1).bytes))
    .done stOk (le 8 ((l.head?.map LogRecord.sequence).getD d.1) ++ le 1 out.length ++ zeros 1 ++ le 2 out.flatten.length ++ out.flatten)
      d.2

/-- LOG_READ (R393, R498). -/
def execLogRead (t : Nat) (p : Port) (s : State) : Out := .next (logReadRow.serve t p s)

end Sys2Proof.Machine
end

