-- ==== Sys2Proof/Machine/Firmware.lean ====
section
/-! DEFINITION. Firmware images and their checks (R412-R415), firmware update (R417-R419), provisioning (R420), attestation (R421)
and signatures (R404). -/

namespace Sys2Proof.Machine

/-! ### Images (Tables 13.5 and 13.6) -/

/-- The silicon revision, B1: letter, then digit (Table 16.6). -/
def silicon : Nat := 0x4231

def imageVersion (b : List Byte) : Nat := byteAt b 10
def imageKey (b : List Byte) : Nat := byteAt b 11
def imageRelease (b : List Byte) : Nat := field b 8 2
def imageBuild (b : List Byte) : Nat := field b 12 4

/-- The status of the first check of Table 13.6 that an image fails, or OK. -/
def imageStatus (b : List Byte) (counter revoked : Nat) : Nat :=
  (firstOf
    [ (b.take 4 ≠ octets [0x55, 0x5A, 0x4E, 0x46] || field b 4 2 ≠ 1 || field b 6 2 ≠ 1536 || field b 16 4 < 1536 ||
        16777216 < field b 16 4 || field b 16 4 ≠ b.length, stBadParam),
      (3 < imageKey b || bit revoked (imageKey b) || sha512 ((b.drop 96).take 516) ≠ Config.romKeyHash (imageKey b), stDenied),
      (silicon < byteAt b 20 * 256 + byteAt b 21, stWrongState),
      (imageVersion b < counter, stDenied),
      (!rsaVerify (beNat ((b.drop 96).take 512)) (field b 608 4) (b.take 1024) ((b.drop 1024).take 512), stDenied),
      (sha512 (b.drop 1536) ≠ (b.drop 32).take 64, stDenied) ]).getD stOk

/-- The descriptor of a slot in the boot table. -/
def FwSlot.bytes (x : FwSlot) : List Byte :=
  octets [x.state, x.version] ++ le 2 x.release ++ le 4 x.build ++ le 4 x.length ++ fit 64 x.hash

/-- The 256 bytes of a copy of the boot table, the CRC last (Table 13.4). -/
def BootTable.bytes (b : BootTable) : List Byte :=
  withCrc (le 2 1 ++ zeros 2 ++ le 4 b.sequence ++ octets [b.active, b.trial, b.trialState, 0] ++
    (List.range 2).flatMap (fun k => (nth b.slots k).bytes) ++ le 2 b.certificate.length ++ zeros 2 ++ le 4 (crc32c b.certificate) ++
    (List.range 9).flatMap (fun k => le 2 (nth b.layout k)) ++ zeros 62)

/-- A slot of the boot table. -/
def State.slot (s : State) (k : Nat) : FwSlot := nth s.store.boot.slots k

/-- The slot whose image runs: the one booted in place of another, else the trial booted, else the active one (R414). -/
def State.runningSlot (s : State) : Nat :=
  match s.power.notBooted with
  | some (_, b, _) => b
  | none => if s.store.boot.trialState = 2 then s.store.boot.trial else s.store.boot.active

/-- The image that runs. -/
def State.image (s : State) : FwSlot := s.slot s.runningSlot

/-- The slot that is not active: the target of an update (R417). -/
def State.spareSlot (s : State) : Nat := if s.store.boot.active = 0 then 1 else 0

/-! ### FW_BEGIN (R417) -/

def fwBeginRow : Row where
  opcode := 0x0B02
  recovers := true
  writes := true
  valid := fun r _ => 1536 ≤ r.u 0 4 && r.u 0 4 ≤ 16777216
  body := fun r s =>
    judged
      [ (s.store.boot.trialState ≠ 0, stWrongState), (s.sec.update.isSome || s.sec.ending.isSome, stBusy),
        (s.sec.lifecycle = 4, stDenied) ] s
      (accept r s (fun tag s =>
        let k := s.spareSlot
        let s := s.setBoot (fun b => { b with slots := alter b.slots k (fun _ => {}) })
        { s with sec := { s.sec with update := some { session := r.session, length := r.u 0 4, slot := k, tag := tag } } }))

/-- FW_BEGIN (R417). -/
def execFwBegin (t : Nat) (p : Port) (s : State) : Out := .next (fwBeginRow.serve t p s)

/-- FW_BEGIN_COMPLETE (R417): the slot is erased; DEGRADED where the store has become read-only. -/
def execFwBeginComplete (t : Nat) (s : State) : Out :=
  let s := s.tickTo t
  .next
    (match s.host.ops.find? (fun o => o.opcode = 0x0B02) with
     | none => s
     | some o =>
       let s := { s with sec := { s.sec with update := s.sec.update.map (fun (u : Update) => { u with erased := true }) } }
       s.completeOp o.tag (if s.store.state = 2 then stDegraded else stOk) (le 1 s.spareSlot))

/-! ### FW_DATA (R418) -/

/-- The data offered follow what the update has received and stay within its length. -/
def Update.fits (u : Update) (r : Req) : Bool := r.u 0 4 = u.data.length && r.u 0 4 + (r.len - 4) ≤ u.length

def fwDataRow : Row where
  opcode := 0x0B03
  recovers := true
  body := fun r s =>
    match s.sec.update with
    | none => refuse stWrongState s
    | some u =>
      let d := if u.data.length < 65536 then (0, s) else s.draw
      judged
        [ (!u.fits r, stBadParam), (s.sec.ending.isSome, stWrongState), (!u.erased, stBusy), (d.1 % 2 = 1, stBusy) ] d.2
        (let u := { u with data := u.data ++ r.payload.drop 4 }
         .done stOk (le 4 u.data.length) { d.2 with sec := { d.2.sec with update := some u } })

/-- FW_DATA (R418): whether 64 KiB of the data received remain unwritten is a free value once so many have come. -/
def execFwData (t : Nat) (p : Port) (s : State) : Out := .next (fwDataRow.serve t p s)

/-! ### FW_END (R419) -/

/-- Verification starts. -/
def startVerify (r : Req) (s : State) (slot : Nat) (retry : Bool) : Answer :=
  accept r s (fun tag s => { s with sec := { s.sec with ending := some (tag, r.session, slot, bit (r.u 0 1) 0, retry) } })

/-- FW_END acts on the open update, whatever RETRY says. -/
def endUpdate (r : Req) (s : State) : Answer :=
  match s.sec.update with
  | some u => if s.sec.ending.isSome then refuse stWrongState s else startVerify r s u.slot false
  | none => refuse stWrongState s

def fwEndRow : Row where
  opcode := 0x0B04
  recovers := true
  picks := fun r _ => !bit (r.u 0 1) 1
  valid := fun r _ => r.u 0 1 ≤ 1 && r.zero 1 3
  body := endUpdate

/-- FW_END (R419). -/
def execFwEnd (t : Nat) (p : Port) (s : State) : Out := .next (fwEndRow.serve t p s)

def fwEndRetryRow : Row where
  opcode := 0x0B04
  recovers := true
  picks := fun r _ => bit (r.u 0 1) 1
  valid := fun r _ => r.u 0 1 ≤ 3 && r.zero 1 3
  body := fun r s =>
    if s.sec.update.isSome then endUpdate r s
    else judged [((s.slot s.spareSlot).state ≠ 1 || s.sec.ending.isSome, stWrongState)] s (startVerify r s s.spareSlot true)

/-- FW_END with RETRY (R419): the non-active valid slot is verified again. -/
def execFwEndRetry (t : Nat) (p : Port) (s : State) : Out := .next (fwEndRetryRow.serve t p s)

/-- The status of a slot verified again; what the factory image holds is not known, so whether it passes is a free value above the
anti-rollback counter. -/
def State.retryStatus (s : State) (slot : Nat) : Nat × State :=
  let x := s.slot slot
  if x.image.isEmpty then
    let d := s.draw
    (if x.version < s.sec.counter || d.1 % 2 = 1 then stDenied else stOk, d.2)
  else (imageStatus x.image s.sec.counter s.sec.revoked, s)

/-- The descriptor of an image (Table 13.4). -/
def describe (b : List Byte) : FwSlot :=
  { state := 1, version := imageVersion b, release := imageRelease b, build := imageBuild b, length := b.length
    hash := sha512 b, image := b }

/-- Verification has ended with a status. -/
def State.verified (s : State) (tag slot : Nat) (x : FwSlot) (status : Nat) : State :=
  let s := if status = stOk then
      s.setBoot (fun b => { b with slots := alter b.slots slot (fun _ => { x with state := 1 }), trial := slot, trialState := 1 })
    else s
  let s := s.raise 176 s.stampNow (objBody 0 (octets [slot, if status = stOk then 0 else 1] ++ le 2 status))
  s.completeOp tag status (octets [slot, x.version] ++ le 2 x.release ++ le 4 x.build)

/-! ### ATTEST (R421) -/

/-- Bytes 0-255 of a quote (Table 13.9). -/
def State.quoteBytes (s : State) (nonce : List Byte) : List Byte :=
  let x := s.image
  le 2 1 ++ octets [s.sec.lifecycle,
    ofBool (s.store.boot.trialState = 2 && s.runningSlot = s.store.boot.trial) + 2 * ofBool (s.sec.debugOpen || s.sec.lifecycle = 0) +
      4 * ofBool (s.store.state = 2) + 8 * ofBool s.sec.keysLost] ++
  le 16 Config.partId ++ octets [0x42, 0x31] ++ le 2 x.release ++ le 4 x.build ++ octets [x.version, s.sec.counter, 0, 0] ++
  fit 64 x.hash ++ le 8 s.stampNow ++ le 4 s.cal.generation ++ le 4 s.gate.episodes ++ le 8 (s.store.nextLog - 1) ++
  fit 64 s.store.chain ++ octets [nonce.length] ++ zeros 7 ++ fit 64 nonce

def attestQuoteRow : Row where
  opcode := 0x0B01
  picks := fun r _ => r.u 0 1 = 0 || 3 < r.u 0 1
  valid := fun r _ =>
    r.u 0 1 = 0 && 1 ≤ r.u 1 1 && r.u 1 1 ≤ 64 && r.zero 2 2 && r.zero (4 + r.u 1 1) (64 - r.u 1 1)
  body := fun r s =>
    judged [((s.session r.session).quote.isSome, stBusy), (!s.sec.identity, stDenied)] s
      (accept r s (fun tag s =>
        let q : Quote := { tag := tag, bytes := s.quoteBytes ((r.payload.drop 4).take (r.u 1 1)) }
        (s.setSession r.session (fun x => { x with quote := some q })).queueJob (.quote r.session tag)))

/-- ATTEST, action 0 (R421). -/
def execAttestQuote (t : Nat) (p : Port) (s : State) : Out := .next (attestQuoteRow.serve t p s)

def attestFetchRow : Row where
  opcode := 0x0B01
  picks := fun r _ => r.u 0 1 = 1
  valid := fun r s => r.zero 1 1 && r.zero 4 64 && (s.session r.session).quote.any (fun q => q.tag = r.u 2 2)
  body := fun r s =>
    match (s.session r.session).quote with
    | none => refuse stBadParam s
    | some q =>
      if q.signed then .done stOk q.bytes (s.setSession r.session (fun x => { x with quote := none })) else refuse stWrongState s

/-- ATTEST, action 1 (R421). -/
def execAttestFetch (t : Nat) (p : Port) (s : State) : Out := .next (attestFetchRow.serve t p s)

def attestPublicKeyRow : Row where
  opcode := 0x0B01
  picks := fun r _ => r.u 0 1 = 2
  valid := fun r _ => r.zero 1 67
  body := fun _ s =>
    .done stOk
      (le 2 1 ++ zeros 2 ++ le 16 Config.partId ++ le 4 (if s.sec.identity then 65537 else 0) ++
        (if s.sec.identity then be 512 (Config.rsaModulus s.sec.identityDraw) else zeros 512)) s

/-- ATTEST, action 2 (Table 13.10). -/
def execAttestPublicKey (t : Nat) (p : Port) (s : State) : Out := .next (attestPublicKeyRow.serve t p s)

def attestCertificateRow : Row where
  opcode := 0x0B01
  picks := fun r _ => r.u 0 1 = 3
  valid := fun r _ => r.zero 1 67
  body := fun _ s =>
    judged [(s.store.boot.certificate.isEmpty, stWrongState)] s (.done stOk s.store.boot.certificate s)

/-- ATTEST, action 3 (R421). -/
def execAttestCertificate (t : Nat) (p : Port) (s : State) : Out := .next (attestCertificateRow.serve t p s)

/-! ### KEY_PROVISION (R420) -/

/-- Event source 180. -/
def State.provisioned (s : State) (item : Nat) : State := s.raise 180 s.stampNow (objBody 0 (le 1 item))

def keyProvisionTransportKeyRow : Row where
  opcode := 0x0B06
  picks := fun r _ => r.u 0 1 = 1
  waits := fun _ s => s.linkLost 7
  valid := fun r _ => r.zero 1 1 && r.u 2 2 = 32
  body := fun r s =>
    judged [(s.sec.lifecycle = 1 && s.sec.transportSet, stWrongState), (s.sec.lifecycle ≠ 1, stDenied)] s
      (.done stOk (zeros 4)
        (({ s with sec := { s.sec with transport := some (r.payload.drop 4), transportSet := true } } : State).provisioned 1))

/-- KEY_PROVISION, item 1 (R420); it waits while the link to the vault is lost (Table 1.2). -/
def execKeyProvisionTransportKey (t : Nat) (p : Port) (s : State) : Out := .next (keyProvisionTransportKeyRow.serve t p s)

/-- A network key is installed: transactions in flight fail, and every frame counter restarts at 0 (R313, Table 10.8). -/
def State.installNetworkKey (s : State) (key : List Byte) : State :=
  let s := s.mesh.flights.foldl (fun (s : State) x => s.failFlight x stTimeout) s
  let s := s.setLine (fun l => { l with queue := l.queue.filter (fun f => f.transaction = 0) })
  let s := s.setMesh (fun m => { m with
    counter := 0, journaled := 0, nodes := m.nodes.map (fun n => { n with counter := some 0 }) })
  (({ s with sec := { s.sec with network := some key, networkCopy := some key } } : State).journalSettings).provisioned 2

def keyProvisionNetworkKeyRow : Row where
  opcode := 0x0B06
  picks := fun r _ => r.u 0 1 = 2
  waits := fun _ s => s.linkLost 7
  valid := fun r _ => r.zero 1 1 && r.u 2 2 = 24
  body := fun r s =>
    let key := s.sec.transport.bind (fun k => aesUnwrap k (r.payload.drop 4))
    judged
      [ ((s.sec.lifecycle = 1 || s.sec.lifecycle = 2) && key.isSome && key = s.sec.network, stWrongState),
        (s.sec.lifecycle = 0 || 3 ≤ s.sec.lifecycle || key.isNone, stDenied) ] s
      (match key with
       | some k => .done stOk (fit 3 (keyCheck k) ++ zeros 1) (s.installNetworkKey k)
       | none => refuse stDenied s)

/-- KEY_PROVISION, item 2 (R420); it waits while the link to the vault is lost (Table 1.2). -/
def execKeyProvisionNetworkKey (t : Nat) (p : Port) (s : State) : Out := .next (keyProvisionNetworkKeyRow.serve t p s)

def keyProvisionCertificateRow : Row where
  opcode := 0x0B06
  picks := fun r _ => r.u 0 1 ≠ 1 && r.u 0 1 ≠ 2
  valid := fun r _ => r.u 0 1 = 3 && r.zero 1 1 && 1 ≤ r.u 2 2 && r.u 2 2 ≤ 3072
  body := fun r s =>
    judged [(s.sec.lifecycle ≠ 1, stDenied)] s
      (.done stOk (zeros 4) ((s.setBoot (fun b => { b with certificate := r.payload.drop 4 })).provisioned 3))

/-- KEY_PROVISION, item 3 (R420). -/
def execKeyProvisionCertificate (t : Nat) (p : Port) (s : State) : Out := .next (keyProvisionCertificateRow.serve t p s)

/-! ### Signatures (R404) -/

/-- A checkpoint whose signature is not in place. -/
def LogRecord.unsigned (r : LogRecord) : Bool := r.kind = 0x0101 && (r.body.drop 88).all (fun b => b = 0)

/-- The hash chain from h over records, whose unsigned checkpoints take the chain value they cover (R392). -/
def rechain (h : List Byte) : List LogRecord → List Byte × List LogRecord
  | [] => (h, [])
  | r :: l =>
    let r := if r.unsigned then { r with body := r.body.take 16 ++ h ++ r.body.drop 80 } else r
    let x := rechain (sha512 (h ++ r.bytes)) l
    (x.1, r :: x.2)

/-- A log checkpoint receives its signature; the chain from it on is that of the records as they now stand (R392). -/
def State.signCheckpoint (s : State) (n : Nat) (signature : List Byte) : State :=
  match s.store.log.find? (fun r => r.sequence = n) with
  | none => s
  | some r =>
    let log := alterWhere s.store.log (fun x => x.sequence = n) (fun x => { x with body := x.body.take 88 ++ fit 512 signature })
    let later := rechain ((r.body.drop 16).take 64) (log.filter (fun x => n ≤ x.sequence))
    ({ s with store := { s.store with log := log.filter (fun x => x.sequence < n) ++ later.2, chain := later.1 } } : State).raise
      149 s.stampNow (objBody 0 [])

/-- A quote receives its signature, and its ATTEST completes. -/
def State.signQuote (s : State) (session tag : Nat) (signature : List Byte) : State :=
  let s := s.setSession session (fun x => { x with
    quote := x.quote.map (fun q => if q.tag = tag then { q with bytes := q.bytes ++ fit 512 signature, signed := true } else q) })
  s.completeOp tag stOk []

/-- The head of the signing queue is signed, a waiting record takes its place, and the key of the next is taken up (R404). -/
def State.signNext (s : State) : State :=
  match s.sec.signing with
  | [] => s
  | j :: rest =>
    let a := s.signature (s.messageOf j)
    let s := a.2
    let s := { s with sec := { s.sec with signing := rest ++ s.sec.backlog.take 1, backlog := s.sec.backlog.drop 1 } }
    let s := if s.unsignedRecords ≤ 256 then { s with sec := { s.sec with backlogRaised := false } } else s
    let s := match j with
      | .checkpoint n => s.signCheckpoint n a.1
      | .quote k tag => s.signQuote k tag a.1
      | j => s.recordSigned j (some a.1)
    s.takeUp

/-- SIGNATURE_COMPLETE (R404): while the link to the vault is lost, signing waits (Table 1.2). -/
def execSignatureComplete (t : Nat) (s : State) : Out :=
  let s := s.tickTo t
  .next (if s.canSign then s.takeUp.signNext else s)

/-! ### Debug access (R422) -/

/-- Event source 182: 0 opened, 1 closed, 2 authentication failed. -/
def State.debugEvent (s : State) (action : Nat) : State := s.raise 182 s.stampNow (objBody 0 (le 1 action))

/-- The challenge that the debug port presents, with the part identifier after it (R422). -/
def State.challenge (s : State) : List Byte := le 32 (Config.random s.sec.debugChallenge) ++ le 16 Config.partId

/-- The next challenge is drawn. -/
def State.nextChallenge (s : State) : State := { s with draws := s.draws + 1, sec := { s.sec with debugChallenge := s.draws } }

/-- DEBUG_AUTHENTICATION (R422): a signature of the debug key over the challenge and the part identifier, in RETURNED; after three invalid
ones the port stays closed until a power-on reset. -/
def execDebugAuthentication (t : Nat) (signature : List Byte) (s : State) : Out :=
  let s := s.tickTo t
  .next
    (if s.sec.lifecycle = 3 && s.phase ≠ .held && !s.sec.debugOpen && s.sec.debugFailures < 3 then
      if rsaVerify Config.debugModulus 65537 s.challenge signature then
        ({ s.nextChallenge with sec := { s.nextChallenge.sec with debugOpen := true } } : State).debugEvent 0
      else
        let s := s.nextChallenge
        let s := ({ s with sec := { s.sec with debugFailures := s.sec.debugFailures + 1 } } : State).debugEvent 2
        if s.sec.debugFailures = 3 then s.debugEvent 1 else s
    else s)

/-! ### Trial confirmation (R415) -/

/-- The firmware keys an image revokes: those its header names, except its own. -/
def imageRevokes (b : List Byte) : Nat := without (byteAt b 22 % 16) (2 ^ imageKey b)

/-- The counter and revocation bits an image asks for are programmed (R415). -/
def State.programOtp (s : State) (x : FwSlot) : State :=
  { s with sec := { s.sec with counter := max s.sec.counter x.version, revoked := s.sec.revoked ||| imageRevokes x.image } }

/-- TRIAL_CONFIRMATION (R415): 60 s after start-up without a pair restart, with the store writable. -/
def execTrialConfirmation (t : Nat) (s : State) : Out :=
  let s := s.tickTo t
  let b := s.store.boot
  .next
    (if s.phase = .running && b.trialState = 2 && s.runningSlot = b.trial && s.store.state = 1 &&
        s.sec.trialFrom.any (fun a => a + 60 * secTicks ≤ s.now) then
      let before := (s.sec.counter, s.sec.revoked, s.store.nextLog, s.store.chain)
      let s := s.setBoot (fun b => { b with active := b.trial, trial := 255, trialState := 0 })
      let s := { s with store := { s.store with bootWrite := some { at_ := s.now, confirms := some before } } }
      let s := s.programOtp (s.slot b.trial)
      s.raise 177 s.stampNow (objBody 0 (octets [b.trial, (s.slot b.trial).version, s.sec.counter]))
    else s)

end Sys2Proof.Machine
end

