-- ==== Sys2Proof/Machine/Repair.lean ====
section
/-! DEFINITION. The repair sequencer's rows (chapter 11): bridges (R341), the checker (R346-R348), die failure,
substitution and return (R349-R353), scrubbing and the vector DSP (R335, R338). -/

namespace Sys2Proof.Machine

/-! ### Bridges (R341) -/

/-- The lane that selects a channel for a job of a precedence. -/
def State.laneOf (s : State) (n prec : Nat) : Option Nat :=
  (List.range 6).find? (fun k => (s.conv (24 + k)).job.any (fun j => j.channel = n && j.prec = prec))

/-- The lane that works for a channel under any of the jobs that carry it. -/
def State.laneFor (s : State) (n : Nat) : Option Nat :=
  ((s.laneOf n 2).orElse (fun _ => s.laneOf n 3)).orElse (fun _ => s.laneOf n 1)

/-- The bridge of a channel leaves the list. -/
def State.dropBridge (s : State) (n : Nat) : State :=
  { s with health := { s.health with bridges := s.health.bridges.filter (fun x => x.1 ≠ n) } }

/-- The home die of a bridged channel switches, or restarts its stages, and settles. -/
def State.homeSettles (s : State) (n : Nat) : State :=
  if (s.conv n).failing.isEmpty then s.disturb n else s.settleSlices n

/-- Whether the home die of a bridged channel stops at the handover: it switches to three slices or restarts its stages (R341). -/
def State.homeStops (s : State) (n kind : Nat) : Bool := kind ≠ 2 || !(s.conv n).failing.isEmpty

/-- The streams of a bridged channel are handed to its lane, each at one sample instant (R149). -/
def State.handOverTo (s : State) (n k kind : Nat) : State :=
  let stops := s.homeStops n kind
  let s := (s.dropBridge n).carry n (.lane k)
  let s := if stops then s.cutOver n n (24 + k) else s
  if kind = 2 then s.settleSlices n
  else
    State.homeSettles { s with health := { s.health with bridges := s.health.bridges ++ [(n, s.now, 1)] } } n

/-- BRIDGE_HANDOVER (R341): the lane's streams have become valid, from the instants on at which the home's end (R149). -/
def execBridgeHandover (t channel : Nat) (s : State) : Out :=
  let s := s.tickTo t
  guarded (channel < 24)
    (match s.health.bridges.find? (fun x => x.1 = channel && x.2.2 ≠ 1), s.laneFor channel with
     | some b, some k =>
       if (if s.homeStops channel b.2.2 then s.canTakeOver (24 + k) else s.streamsValid (24 + k)) then s.handOverTo channel k b.2.2 else s
     | _, _ => s)

/-- BRIDGE_HANDBACK (R341): the home die has settled. -/
def execBridgeHandback (t channel : Nat) (s : State) : Out :=
  let s := s.tickTo t
  guarded (channel < 24)
    (match s.health.bridges.find? (fun x => x.1 = channel && x.2.2 = 1), s.laneOf channel 3 with
     | some _, some k =>
       if s.streamsValid channel then
         (((s.dropBridge channel).carry channel .home).letGo k).lanesFreed
       else s
     | _, _ => s)

/-! ### Checker rotation (R346-R348) -/

/-- Whether the rotation skips a channel (R346). -/
def State.skipped (s : State) (n : Nat) : Bool :=
  !(s.chan n).enabled || bit (s.die (dieOfUnit n)).skip (n % 6) || (s.chan n).lost || (s.chan n).carrier ≠ .home

/-- The rotation is paused from the first lane selection of a sweep until its last lane is released (R151). -/
def State.sweepPauses (s : State) : Bool :=
  s.sweep.lane.isSome || s.sweep.next.any (fun x => x.lane.isSome) ||
  s.sweep.running.any (fun o => o.selected && (!o.units.isEmpty || s.sweep.unit.isSome || s.sweep.next.isSome))

/-- A comparison of a channel starts. -/
def State.compareFrom (s : State) (n : Nat) : State := s.setChan n (fun c => { c with compared := {} })

/-- The checker takes one free lane and dwells on the next channel of the rotation, with the settings that wait (R356); a confirming dwell goes
first. -/
def State.startDwell (s : State) : State :=
  let order := (List.range 24).map (fun i => (s.health.nextChannel + i) % 24)
  if s.health.confirming.isSome || s.health.unconfirmed.isSome || s.phase ≠ .running || s.sweepPauses then s
  else
    let s := { s with health := s.health.takeConfig }
    if !s.health.rotation then s
    else
    match order.find? (fun n => !s.skipped n), s.pick s.freeLanes with
    | some n, (some k, s) =>
      let s := (s.assign k n 5).compareFrom n
      { s with health := { s.health with dwelling := some (n, k, s.now), nextChannel := (n + 1) % 24 } }
    | _, _ => s

/-- Ticks of a dwell. -/
def State.dwellTicks (s : State) : Nat := s.health.dwell * 100 * Config.ms

/-- The covariance of the two streams and the product of their variances, both times the squared number of samples. -/
def Comparison.covariance (r : Comparison) : Int := 1024 * r.cycles * r.products - r.home * r.lane
def Comparison.variances (r : Comparison) : Int :=
  (1024 * r.cycles * r.homeSquares - r.home ^ 2) * (1024 * r.cycles * r.laneSquares - r.lane ^ 2)

/-- 1 - rho exceeds a limit below 1; a stream without variance has no rho that a rule states (log 81). -/
def Comparison.apart (r : Comparison) (limit : Rat) : Bool :=
  if r.variances = 0 then decide (limit < Config.zeroQuotient 8 r.covariance)
  else decide (r.covariance < 0) || decide (((r.covariance ^ 2 : Int) : Rat) < (1 - limit) ^ 2 * (r.variances : Rat))

/-- 1 - rho as HEALTH_READ shows it. -/
def Comparison.rhoDefect (r : Comparison) : Rat :=
  if r.variances = 0 then Config.zeroQuotient 8 r.covariance else 1 - (r.covariance : Rat) / rootRat (r.variances : Rat)

/-- The delay of the lane less the calibration part of the home's delay trim, in nanoseconds (Table 11.3). -/
def State.dwellDelay (s : State) (n : Nat) : Rat :=
  Config.momentDelay (s.chan n).compared.moment - ((s.conv n).cal.delayAt s.now : Rat) / 4

/-- The tests of Table 11.3 that a comparison of a channel's home with its lane fails: the means of the RMS results, and where the home value
is 5 % of full scale or more, the waveform and the delay (R347). -/
def State.failedTests (s : State) (n : Nat) : Bool × Bool × Bool :=
  let h := s.health
  let r := (s.chan n).compared
  let diff : Nat := ((r.homeRms : Int) - r.laneRms).natAbs
  let strong : Bool := 2317 * 256 * r.cycles ≤ r.homeRms
  let delay := s.dwellDelay n
  let limit : Rat := (h.delayLimit : Rat) / 4
  (decide (max (h.rmsLimit * r.homeRms) (4 * 256 * 10000 * r.cycles) < diff * 10000),
   strong && r.apart (f32Val h.waveLimit), strong && (decide (limit < delay) || decide (delay < -limit)))

/-- Whether a dwell mismatches (R347). -/
def State.mismatch (s : State) (n : Nat) : Bool := (s.failedTests n).1 || (s.failedTests n).2.1 || (s.failedTests n).2.2

/-- The results of a dwell that counts (Table 16.24). -/
def State.keepDwell (s : State) (n : Nat) : State :=
  let r := (s.chan n).compared
  s.setChan n (fun c => { c with
    dwell := (toF32 (quotient 9 ((r.laneRms : Rat) - (r.homeRms : Rat)) (r.homeRms : Rat)), toF32 r.rhoDefect, toF32 (s.dwellDelay n))
    dwellTime := s.stampNow })

/-- A confirming dwell starts at once on a lane other than the first, or waits for one (R344, R348). -/
def State.confirm (s : State) (n first : Nat) : State :=
  match s.pick ((s.lanesFor 4).filter (fun k => k ≠ first)) with
  | (none, s) => { s with health := { s.health with unconfirmed := some (n, first) } }
  | (some k, s) =>
    (s.evict k).startConfirming n first k

/-- A dwell ends on a channel and its lane. -/
def State.dwellEnds (s : State) (n k : Nat) : State :=
  let s := State.release { s with health := { s.health with dwelling := none } } k
  if (s.chan n).compared.cycles < 10 then s.startDwell
  else
    let s := s.keepDwell n
    if s.mismatch n then
      let t := s.failedTests n
      ((s.setChan n (fun c => { c with suspect := true })).noteOf 158 0 (unitHandle n) (laneHandle k) 0
        (Config.testDetail t.1 t.2.1 t.2.2)).confirm n k
    else s.lanesFreed.startDwell

/-- CHECKER_DWELL_END (R347): the dwell's time has passed; with none running, lanes that have become free take the jobs that wait, and the
rotation starts or resumes (R346). -/
def execCheckerDwellEnd (t : Nat) (s : State) : Out :=
  let s := s.tickTo t
  .next
    (match s.health.dwelling with
     | none => s.lanesFreed.startDwell
     | some d => if d.2.2 + s.dwellTicks ≤ s.now then s.dwellEnds d.1 d.2.1 else s)

/-- A lane is excluded from every job until reset: event source 164, whose entry names no rung of Table 11.1, so 0 (R348, log 32). -/
def State.excludeLane (s : State) (k : Nat) : State :=
  ((s.evict k).setConv (24 + k) (fun c => { c with inService := false })).note 164 1 (laneHandle k) 0 0

/-- Event source 159 with the outcome of a confirming dwell: 0 it passed, 1 the home channel is faulty, 2 the first lane is; and no rung of
Table 11.1. The rules say neither by which code nor what the rung field holds (log 32). -/
def State.checkerOutcome (s : State) (n outcome : Nat) : State :=
  s.note 159 (Config.checkerCode outcome) (unitHandle n) 0 0

/-- What a confirming dwell decides (R348). A faulty channel without a lane takes one as soon as one is free. -/
def State.confirmed (s : State) (n first k : Nat) (agree : Bool) : State :=
  let s := State.release { s with health := { s.health with confirming := none } } k
  let s := s.keepDwell n
  if !s.mismatch n then
    let s := (s.setChan n (fun c => { c with suspect := false })).checkerOutcome n 0
    { s with health := { s.health with transients := sat 32 (s.health.transients + 1) } }
  else if agree then
    let s := (s.setChan n (fun c => { c with faulty := true })).checkerOutcome n 1
    match s.pick (s.lanesFor 2) with
    | (none, s) => s
    | (some l, s) => (s.evict l).substitute n l
  else (s.checkerOutcome n 2).excludeLane first

/-- CONFIRMING_DWELL_END (R348); one with fewer than 10 cycles does not count and is repeated. The two lanes are seen at different times, and no
rule says how they are held against each other: `lanesAgree` is what the part finds (log 81). -/
def execConfirmingDwellEnd (t : Nat) (lanesAgree : Bool) (s : State) : Out :=
  let s := s.tickTo t
  .next
    (match s.health.confirming with
     | none => s
     | some c =>
       if s.now < c.2.2.2 + s.dwellTicks then s
       else if (s.chan c.1).compared.cycles < 10 then
         State.compareFrom { s with health := { s.health with confirming := some (c.1, c.2.1, c.2.2.1, s.now) } } c.1
       else (s.confirmed c.1 c.2.1 c.2.2.1 lanesAgree).lanesFreed.startDwell)

/-! ### The belvedere out of service (Table 1.2, Table 11.10) -/

/-- A lane's job ends because the belvedere is out: the channels it substitutes for are lost (R366). -/
def State.dropLane (s : State) (k : Nat) : State :=
  match (s.conv (24 + k)).job with
  | none => s
  | some j =>
    if j.prec = 2 then
      let s := if (s.chan j.channel).carrier = .lane k then s.lose j.channel else s
      let s := { s with health := { s.health with substituted := s.health.substituted.filter (fun x => x ≠ j.channel) } }
      ((s.dropBridge j.channel).release k).note 166 2 (unitHandle j.channel) 0 7
    else s.evict k

/-- Operations of CAL_SWEEP that wait for a die end with DEGRADED (Table 5.5). -/
def State.endQueuedSweeps (s : State) (d : Nat) : State :=
  let hit := fun (o : SweepOp) => o.units.any (fun u => dieOfUnit u = d)
  let gone := s.sweep.queue.filter hit
  gone.foldl (fun (s : State) o =>
      s.completeOp o.tag stDegraded (le 1 o.completed ++ le 1 o.passed ++ zeros 2 ++ le 4 s.cal.generation))
    { s with sweep := { s.sweep with queue := s.sweep.queue.filter (fun o => !hit o) } }

/-- The sweeps of a die that fails (Table 5.6). -/
def State.failSweeps (s : State) (d : Nat) : State :=
  (if s.sweepRuns d then s.abortSweep stDegraded false else s).endQueuedSweeps d

/-- The belvedere is out of service: every lane job ends, and event source 164 says so. -/
def State.belvedereOut (s : State) : State :=
  let s := s.failSweeps 5
  let s := [5, 4, 3, 2, 1].foldl (fun (s : State) p => (List.range 6).foldl (fun (s : State) k =>
    if (s.conv (24 + k)).job.any (fun j => j.prec = p) then s.dropLane k else s) s) s
  let s := { s with health := { s.health with substituting := none, settling := false, unconfirmed := none } }
  s.note 164 1 (dieHandle 5) 0 0

/-- Another acquisition die whose channels are lost is substituted once the belvedere can (R353). -/
def State.substituteNext (s : State) : State :=
  if !s.belvedereUp || s.health.substituting.isSome then s
  else
    match [1, 2, 3, 4].find? (fun d => s.dieDown d && (List.range 6).any (fun j => (s.chan (6 * (d - 1) + j)).lost)) with
    | some d => s.substituteDie d
    | none => s

/-- Lost channels whose home die can carry them are carried again (R352). -/
def State.recarry (s : State) : State :=
  (List.range 24).foldl (fun (s : State) n => if (s.chan n).lost && s.canGoHome n then s.carry n .home else s) s

/-- The belvedere is back in service. -/
def State.belvedereBack (s : State) : State := (((s.note 164 2 (dieHandle 5) 0 0).substituteNext).recarry).lanesFreed

/-! ### Die failure and substitution (R349-R352) -/

/-- The channels of a die. -/
def dieChannels (d : Nat) : List Nat := (List.range 6).map (fun j => 6 * (d - 1) + j)

/-- A die A0-A3 fails: its sweeps abort, and the belvedere substitutes for it, or its channels are lost (R350, R352). -/
def State.failHome (s : State) (d : Nat) : State :=
  let s := s.failSweeps d
  if s.health.substituting = some d then s
  else if s.belvedereUp && s.health.substituting.isNone then s.substituteDie d
  else (dieChannels d).foldl (fun (s : State) n => if (s.chan n).carrier = .home then s.lose n else s) s

/-- A die is failed from now on; the first return try comes 60 s later (R353). -/
def State.markFailed (s : State) (d : Nat) : State :=
  s.setDie d (fun x =>
    { x with state := 1, failedSince := s.stampNow, tryAt := s.now + 60 * Config.ticksPerSecond, forced := false })

/-- Whether a cause makes a die fail now (R349): a link that is lost; a VANA fault that is not the supply fault of R429. -/
def State.dieCause (s : State) (d : Nat) (cause : DieFault) : Bool :=
  match cause with
  | .linkLost => s.linkLost d
  | .internalFault => true
  | .vanaLow => !s.health.vanaDies.contains d
  | .noBlocks => true

/-- DIE_FAILURE (R349). In gatehouse mode the belvedere's sets TALLY_FAULT and stops the totals (R360). -/
def execDieFailure (t die : Nat) (cause : DieFault) (s : State) : Out :=
  let s := s.tickTo t
  guarded (isAcquisition die)
    (if (s.phase = .ready || s.phase = .running) && (s.die die).state ≠ 1 && s.dieCause die cause then
      if die = 5 then
        (if s.belvedereUp then s.belvedereOut else s).markFailed 5
      else (s.markFailed die).failHome die
    else if s.phase = .gatehouse && die = 5 then { s with gate := { s.gate with fault := true } }
    else s)

/-- The lanes of a die substitution that deliver. -/
def State.substitutes (s : State) : List Nat :=
  (List.range 6).filter (fun k => (s.conv (24 + k)).job.any (fun j => j.prec = 1 && (s.chan j.channel).enabled))

/-- Every lane of a die substitution delivers valid streams. -/
def State.lanesValid (s : State) : Bool := s.substitutes.all (fun k => s.streamsValid (24 + k))

/-- The replayed span in µs: from the start of the cycle in progress at the substitution, the first grid instant that the die did not deliver,
to the first that the lanes deliver (R351, Table 11.6); 0 without a grid. -/
def State.replayedSpan (s : State) : Nat :=
  let stop : Int := s.substitutes.foldl (fun (a : Int) k => max a (s.streamsFrom (24 + k))) 0
  if s.tracker.state = 0 then 0 else (openDiv 24 (512 * stop - s.health.replayFrom) 8192).toNat

/-- SUBSTITUTION_COMPLETE (R350): event source 161 once every stream is valid. -/
def execSubstitutionComplete (t : Nat) (s : State) : Out :=
  let s := s.tickTo t
  .next
    (match s.health.substituting with
     | some d =>
       if s.health.settling && s.lanesValid then
         State.noteOf { s with health := { s.health with settling := false } } 161 2 (dieHandle d) (dieHandle 5) 8 s.replayedSpan
       else s
     | none => s)

/-! ### Return (R353) -/

/-- The self-test passed: the die computes its channels, and every stage settles. -/
def State.probation (s : State) (d : Nat) : State :=
  (dieChannels d).foldl (fun (s : State) u => (s.disturb u).compareFrom u) (s.setDie d (fun x => { x with state := 2, tryAt := s.now }))

/-- DIE_RETURN_TRY (R353): every 60 s, up to 5 times per reset, once the link has retrained; the belvedere, whose streams no
lane checks, returns at the try that passes. -/
def execDieReturnTry (t die : Nat) (selfTest : Bool) (s : State) : Out :=
  let s := s.tickTo t
  let d := s.die die
  guarded (isAcquisition die)
    (if d.state = 1 && 0 < d.retries && d.tryAt ≤ s.now && !s.linkLost die then
      let s := s.setDie die (fun x => { x with retries := x.retries - 1, tryAt := s.now + 60 * Config.ticksPerSecond })
      if !selfTest then s
      else if die = 5 then (s.setDie 5 (fun x => { x with state := 0 })).belvedereBack
      else s.probation die
    else s)

/-- A die takes its channels back at one sample instant: event source 162, and the lanes are free (R353). Each channel has passed the tests, so
none is faulty any more. -/
def State.dieReturns (s : State) (d : Nat) : State :=
  let s := s.setDie d (fun x => { x with state := 0, forced := false, failedSince := 0 })
  let s := if s.health.substituting = some d then
      (List.range 6).foldl (fun (s : State) k =>
        if (s.conv (24 + k)).job.any (fun j => j.prec = 1) then s.letGo k else s)
        { s with health := { s.health with substituting := none, settling := false } }
    else s
  let s := (dieChannels d).foldl (fun (s : State) n =>
    if (s.chan n).carrier = .home then s
    else (s.setChan n (fun c => { c with replaying := false, faulty := false })).goHome n) s
  ((s.note 162 0 (dieHandle d) 0 8).substituteNext).lanesFreed

/-- The channels of a die that a lane carries while the die computes them again. -/
def State.onProbation (s : State) (d : Nat) : List Nat :=
  (dieChannels d).filter (fun n => (s.chan n).enabled && (s.carrierUnit n).any (fun u => 24 ≤ u))

/-- DIE_RETURN (R353): after 10 s of probation the die takes its channels back if each has passed the tests of Table 11.3 against its lane;
where one has not, the die stays failed until its next try. Without cycles to compare the probation goes on (log 81). -/
def execDieReturn (t die : Nat) (s : State) : Out :=
  let s := s.tickTo t
  let d := s.die die
  guarded (isAcquisition die)
    (if d.state = 2 && d.tryAt + 10 * Config.ticksPerSecond ≤ s.now && !s.linkLost die then
      if (s.onProbation die).any (fun n => (s.chan n).compared.cycles < 10) then s
      else if (s.onProbation die).any (fun n => s.mismatch n) then
        s.setDie die (fun x => { x with state := 1, forced := false, tryAt := x.tryAt + 60 * Config.ticksPerSecond })
      else s.dieReturns die
    else s)

/-! ### Memories and the vector DSP (R335, R338) -/

/-- Ticks in one hour. -/
def hourTicks : Nat := 3600 * Config.ticksPerSecond

/-- Corrected errors join the count of a region for the hour in progress (R335). -/
def Region.add (x : Region) (now corrected : Nat) : Region :=
  if x.since + hourTicks ≤ now then { x with count := corrected, since := now }
  else { x with count := sat 32 (x.count + corrected) }

/-- The region of a die with its errors counted. -/
def Die.region (d : Die) (index now corrected : Nat) : Region :=
  match d.regions.find? (fun x => x.index = index) with
  | some x => x.add now corrected
  | none => { index := index, count := corrected, since := now }

/-- SCRUB (R335): the scrubber has read a region and corrected some words. -/
def execScrub (t die region corrected : Nat) (s : State) : Out :=
  let s := s.tickTo t
  let x := (s.die die).region region s.now corrected
  let high := 16 < x.count && x.raisedAt.all (fun a => a + hourTicks ≤ s.now)
  let x := if high then { x with raisedAt := some s.now } else x
  guarded (die < 8)
    (if corrected = 0 then s
    else
      let s := s.setDie die (fun d =>
        { d with corrected := sat 32 (d.corrected + corrected)
                 regions := d.regions.filter (fun y => y.index ≠ region) ++ [x] })
      if high then s.note 152 0 (dieHandle die) 0 1 else s)

/-- A restart is counted: 0 P0, 1 P1, 2 the vector DSP. -/
def State.countRestart (s : State) (i : Nat) : State :=
  { s with health := { s.health with restarts := alter s.health.restarts i (fun n => sat 32 (n + 1)) } }

/-- Whether the checker's cross-check can have found the vector DSP at fault: a dwell runs, and the home and lane detectors agree so far within
the limits of Table 11.3 (R338). -/
def State.crossChecks (s : State) : Bool :=
  (s.health.dwelling.toList.map (fun d => d.1) ++ s.health.confirming.toList.map (fun c => c.1)).any (fun n =>
    0 < (s.chan n).compared.cycles && !s.mismatch n)

/-- DSP_FAULT (R338): the DSP restarts from its state at the last cycle end and reprocesses the held cycles: event source 165. The commands of a
cycle carry what it forms, so nothing else changes. Its cause is the cross-check of a dwell, or an uncorrectable error in its memories,
which is counted; where both are possible, which of them is a free value (log 11). -/
def execDspFault (t : Nat) (s : State) : Out :=
  let s := s.tickTo t
  .next
    (if s.phase = .ready || s.phase = .running then
      let d := if s.crossChecks then s.draw else (0, s)
      let s := if s.crossChecks && d.1 % 2 = 1 then d.2
        else d.2.setDie 0 (fun x => { x with uncorrectable := sat 32 (x.uncorrectable + 1) })
      (s.countRestart 2).note 165 0 0 0 4
    else s)

/-- PROCESSOR_CHECKPOINT (R337): P1 takes its checkpoint; nothing the host can see changes. -/
def execProcessorCheckpoint (t : Nat) (s : State) : Out := .next (s.tickTo t)

end Sys2Proof.Machine
end

