-- ==== Sys2Proof/Machine/Health.lean ====
section
/-! DEFINITION. Group 0Ch: HEALTH_READ, CHECKER_CONFIG, REPAIR_LOG, FORCE_SUBSTITUTE (R354-R357, R501, R502). -/

namespace Sys2Proof.Machine

/-! ### HEALTH_READ (Table 16.24) -/

/-- The job of a lane as HEALTH_READ gives it (R502). -/
def State.laneJob (s : State) (k : Nat) : Nat :=
  if !s.belvedereUp || !(s.conv (24 + k)).inService then 255 else ((s.conv (24 + k)).job.map (fun j => j.prec)).getD 0

/-- Restarts of a pair in the last 10 s. -/
def State.recentRestarts (s : State) (pair : Nat) : Nat :=
  (s.health.recent.filter (fun x => x.1 = pair && decide (s.now < x.2 + 10 * Config.ticksPerSecond))).length

/-- The bits of the lanes with a property. -/
def laneBits (f : Nat → Bool) : Nat := orAll ((List.range 6).map (fun k => if f k then 2 ^ k else 0))

/-- The part-wide items. -/
def State.healthPart (s : State) : List Byte :=
  le 1 0 ++ le 1 (laneBits (fun k => s.laneJob k ≠ 255)) ++ le 1 (s.recentRestarts 0) ++ le 1 (s.recentRestarts 1) ++
  (s.health.restarts.map (le 4)).flatten ++ le 4 s.health.transients ++
  ((List.range 6).map (fun k => le 1 (s.laneJob k))).flatten ++ zeros 6 ++
  (s.dies.map (fun d => le 4 d.corrected)).flatten ++ (s.dies.map (fun d => le 4 d.uncorrectable)).flatten

/-- The state of a die: A4, M or V is out of service while its link is lost and it is not declared failed (Table 1.2, R354). -/
def State.dieState (s : State) (d : Nat) : Nat := if (s.die d).state = 0 && 5 ≤ d && s.linkLost d then 3 else (s.die d).state

/-- Since when a die is failed or out of service. -/
def State.dieSince (s : State) (d : Nat) : Nat :=
  if s.dieState d = 3 && (s.die d).state = 0 then ((s.die d).link.lostAt.map s.stamp).getD 0 else (s.die d).failedSince

/-- The items of a die; die 0 has no link of its own (R21). -/
def State.healthDie (s : State) (d : Nat) : List Byte :=
  le 1 (s.dieState d) ++ le 1 (s.die d).retries ++ le 1 (if d = 0 then 0 else s.lanesUp d) ++
  le 1 (laneBits (fun k => (s.serves (24 + k)).any (fun n => dieOfUnit n = d))) ++ zeros 4 ++ le 8 (s.dieSince d)

/-- The items of a channel. -/
def State.healthChannel (s : State) (n : Nat) : List Byte :=
  let c := s.chan n
  le 1 c.carrier.byte ++ le 1 (s.modeOf n) ++ le 1 (ofBool c.repairMode) ++ le 1 (ofBool c.suspect) ++
  f32Bytes c.dwell.1 ++ f32Bytes c.dwell.2.1 ++ f32Bytes c.dwell.2.2 ++ le 8 c.dwellTime ++ le 4 c.patched ++
  le 8 (if c.lost then c.lostSince else 0)

/-- The items of a bench slice; blames are held by the tick of their samples, in units of 4 ticks. -/
def State.healthSlice (s : State) (u e : Nat) : List Byte :=
  let c := s.conv u
  le 1 (ofBool (c.excluded.contains e)) ++ zeros 3 ++ le 2 (c.recentBlames e (s.now / 4)) ++ zeros 2 ++ le 4 (nth c.blamed e)

/-- The reply of HEALTH_READ for a handle. -/
def State.healthBytes (s : State) (h : Nat) : List Byte :=
  if h = 0 then s.healthPart
  else if hUnit h = 0x1F then s.healthDie (hDie h)
  else if hElem h = 0xFF then s.healthChannel (unitOf h)
  else s.healthSlice (unitOf h) (hElem h)

def healthReadRow : Row where
  opcode := 0x0C01
  body := fun r s => .done stOk (s.healthBytes r.handle) s

def execHealthRead (t : Nat) (p : Port) (s : State) : Out := .next (healthReadRow.serve t p s)

/-! ### CHECKER_CONFIG (R356) -/

/-- The bounds of the waveform limit, 1 x 10^-6 and 1 x 10^-2, as the binary32 numbers nearest to them (log 13). -/
def waveMin : Rat := f32Val 0x358637BD#32
def waveMax : Rat := f32Val 0x3C23D70A#32

/-- The form on BFFFh. -/
def checkerConfigRow : Row where
  opcode := 0x0C02
  picks := fun r _ => r.handle = 0xBFFF
  valid := fun r _ =>
    r.u 0 1 ≤ 1 && r.zero 1 1 && 5 ≤ r.u 2 2 && r.u 2 2 ≤ 100 && 1 ≤ r.u 4 2 && r.u 4 2 ≤ 100 && 1 ≤ r.u 6 2 &&
    r.u 6 2 ≤ 80 && f32Within (r.f32 8) waveMin waveMax
  body := fun r s =>
    .done stOk [] { s with health := { s.health with
        nextConfig := some (r.u 0 1 = 1, r.u 2 2, r.u 4 2, r.u 6 2, r.f32 8) } }

def execCheckerConfig (t : Nat) (p : Port) (s : State) : Out := .next (checkerConfigRow.serve t p s)

/-- The form on a die handle of A0-A3: a dwell that runs goes on. -/
def checkerConfigSkipMaskRow : Row where
  opcode := 0x0C02
  picks := fun r _ => r.handle ≠ 0xBFFF
  valid := fun r _ => r.u 0 1 ≤ 63 && r.zero 1 3
  body := fun r s => .done stOk [] (s.setDie (hDie r.handle) (fun d => { d with skip := r.u 0 1 }))

def execCheckerConfigSkipMask (t : Nat) (p : Port) (s : State) : Out := .next (checkerConfigSkipMaskRow.serve t p s)

/-! ### REPAIR_LOG (R355) -/

def repairLogRow : Row where
  opcode := 0x0C03
  valid := fun r _ => 1 ≤ r.u 4 1 && r.u 4 1 ≤ 127 && r.zero 5 3
  body := fun r s =>
    let l := ((s.health.log.reverse).filter (fun e => r.u 0 4 ≤ e.sequence)).take (r.u 4 1)
    let d := if l.isEmpty then s.draw else (0, s)
    let first : Nat := match l with
      | [] => d.1
      | e :: _ => e.sequence
    .done stOk (le 4 first ++ le 1 l.length ++ zeros 3 ++ l.flatMap HealthEntry.bytes) d.2

def execRepairLog (t : Nat) (p : Port) (s : State) : Out := .next (repairLogRow.serve t p s)

/-! ### FORCE_SUBSTITUTE (R357) -/

/-- A channel carried or to be carried by a lane under channel or die substitution. -/
def State.isSubstituted (s : State) (n : Nat) : Bool :=
  s.health.substituted.contains n || (s.laneOf n 1).isSome

/-- The home die of a channel has failed: its link is lost, or it is not running. -/
def State.homeFailed (s : State) (n : Nat) : Bool := s.dieDown (dieOfUnit n)

/-- The home die of a channel is substituted by action 2. -/
def State.testedDie (s : State) (n : Nat) : Bool :=
  s.health.substituting = some (dieOfUnit n) && (s.die (dieOfUnit n)).forced

/-- A channel substitution ends by command: the channel goes back to its home die (R357). -/
def State.releaseChannel (s : State) (n : Nat) : State :=
  let s := s.dropBridge n
  let s := { s with health := { s.health with
    substituted := s.health.substituted.filter (fun x => x ≠ n)
    released := if (s.conv n).lowFailed && !s.health.released.contains n then s.health.released ++ [n] else s.health.released } }
  let s := s.setChan n (fun c => { c with faulty := false })
  let carried : Carrier := (s.chan n).carrier
  let s := if carried = Carrier.home then s else s.goHome n
  let s := match s.laneOf n 2 with
    | some k => if carried = Carrier.lane k then s.letGo k else s.release k
    | none => s
  (s.note 166 2 (unitHandle n) 0 0).lanesFreed

/-- Action 0: the handle's channel, or its home die when action 2 substituted it. -/
def forceReleaseRow : Row where
  opcode := 0x0C04
  picks := fun r _ => r.u 0 1 = 0 || 2 < r.u 0 1
  valid := fun r _ => r.u 0 1 = 0 && r.zero 1 3
  body := fun r s =>
    let n := unitOf r.handle
    judged [(!(s.health.substituted.contains n || s.testedDie n) || s.homeFailed n, stWrongState)] s
      (.done stOk []
        (if s.health.substituted.contains n then s.releaseChannel n
         else (s.dieReturns (dieOfUnit n)).note 166 2 (unitHandle n) 0 0))

def execForceSubstituteRelease (t : Nat) (p : Port) (s : State) : Out := .next (forceReleaseRow.serve t p s)

/-- A bridge becomes a channel substitution on the same lane by command (R357). -/
def State.keepOnLane (s : State) (n k : Nat) : State :=
  let s := s.keepLane n k
  let s := { s with health := { s.health with released := s.health.released.filter (fun x => x ≠ n) } }
  s.note 166 1 (unitHandle n) (laneHandle k) 0

/-- Action 1: the channel is substituted (R345). -/
def State.forceChannel (s : State) (n : Nat) : Answer :=
  if s.isSubstituted n then .done stOk [] s
  else
    match s.bridging n with
    | some k => .done stOk [] (s.keepOnLane n k)
    | none =>
      judged [(s.belvedereUp && (s.lanesFor 2).isEmpty, stNoResource), (!s.belvedereUp, stDegraded)] s
        (match s.pick (s.lanesFor 2) with
         | (some k, s) =>
           let s := s.evict k
           .done stOk [] (State.substitute { s with health := { s.health with
             released := s.health.released.filter (fun x => x ≠ n) } } n k)
         | (none, s) => refuse stNoResource s)

def forceChannelRow : Row where
  opcode := 0x0C04
  picks := fun r _ => r.u 0 1 = 1
  valid := fun r _ => r.zero 1 3
  body := fun r s => s.forceChannel (unitOf r.handle)

def execForceSubstituteChannel (t : Nat) (p : Port) (s : State) : Out := .next (forceChannelRow.serve t p s)

/-- Action 2: the channel's home die is substituted as a test; it goes on running, and returns 10 s later (R357). -/
def forceDieRow : Row where
  opcode := 0x0C04
  picks := fun r _ => r.u 0 1 = 2
  valid := fun r _ => r.zero 1 3
  body := fun r s =>
    let d := dieOfUnit (unitOf r.handle)
    judged [(s.belvedereUp && (s.health.substituting.isSome || (List.range 6).all (fun k => !(s.conv (24 + k)).inService)), stNoResource), (!s.belvedereUp, stDegraded)] s
      (let s := if s.dieDown d then s
        else (dieChannels d).foldl (fun (s : State) n => s.compareFrom n)
          (s.setDie d (fun x => { x with state := 2, tryAt := s.now, forced := true }))
       .done stOk [] ((s.substituteDie d).note 166 1 r.handle (dieHandle 5) 0))

def execForceSubstituteDie (t : Nat) (p : Port) (s : State) : Out := .next (forceDieRow.serve t p s)

end Sys2Proof.Machine
end

