-- ==== Sys2Proof/Machine/LineRows.lean ====
section
/-! DEFINITION. The opcodes of group 08h (R495-R497): the line configuration, tone maps, admission, routes, the poll list, LINE_SEND
and the statistics. -/

namespace Sys2Proof.Machine

/-! ### LINE_CONFIG (R277, R278) -/

/-- The fields of a LINE_CONFIG payload (Table 16.19). -/
def Req.lineConfig (r : Req) : LineConfig :=
  { mode := r.u 0 1, coupling := r.u 1 1, tones := r.u 4 4
    ceiling := if r.u 2 1 = 1 then ({} : LineConfig).ceiling else (List.range 28).map (fun k => r.u (8 + k) 1)
    target := r.u 36 1, mute := r.u 37 1, blanking := r.u 38 1, tail := r.u 39 1, erasure := r.u 40 1
    rate := r.u 41 1, syncLength := r.u 42 1, frameLength := r.u 43 1, mark := r.u 44 2, space := r.u 46 2
    sync := r.u 48 4, attenuation := r.u 52 1, offset := r.u 54 2 }

/-- The tones a mask enables. -/
def toneCount (mask : Nat) : Nat := ((List.range 28).filter (fun i => bit mask i)).length

/-- Every field within its range (Table 9.1), and a coupling channel of role 1 or 2 in the configuration last accepted (R277,
R177). -/
def Req.lineConfigGood (r : Req) (s : State) : Bool :=
  let c := r.lineConfig
  let role := (nth s.meas.accepted.channels c.coupling).role
  c.mode ≤ 2 && c.coupling ≤ 23 && r.u 2 1 ≤ 1 && r.zero 3 1 && c.tones < 2 ^ 28 && 8 ≤ toneCount c.tones &&
  (r.u 2 1 = 0 || r.zero 8 28) && c.ceiling.all (fun x => x ≤ 31) && 6 ≤ c.target && c.target ≤ 30 && c.mute + 1 ≤ c.target &&
  (c.blanking = 0 || (6 ≤ c.blanking && c.blanking ≤ 40)) && c.tail ≤ 20 && 1 ≤ c.erasure && c.erasure ≤ 8 &&
  (c.rate ≤ 3 || (0x83 ≤ c.rate && c.rate ≤ 0x98)) && 8 ≤ c.syncLength && c.syncLength ≤ 32 && 1 ≤ c.frameLength &&
  3500 ≤ c.mark && c.mark ≤ 9100 && 3500 ≤ c.space && c.space ≤ 9100 && (c.mark + 200 ≤ c.space || c.space + 200 ≤ c.mark) &&
  c.attenuation ≤ 31 && r.zero 53 1 && c.offset ≤ 1023 && (role = 1 || role = 2)

/-- A LINE_SEND is queued: a native one not complete, or an S-FSK transmission. -/
def State.sendQueued (s : State) : Bool :=
  s.mesh.flights.any (fun x => x.op.isSome) || !s.line.sfskQueue.isEmpty || s.line.sfskFlight.isSome

def lineConfigRow : Row where
  opcode := 0x0801
  valid := fun r s => r.lineConfigGood s
  body := fun r s =>
    let s := s.settleLine
    let c := r.lineConfig
    judged
      [ (!(s.chan c.coupling).enabled || (c.mode ≠ s.line.config.mode && (s.mesh.running || s.sendQueued)), stWrongState),
        (s.lineDown, stDegraded) ] s
      (.done stOk [] (s.setLine (fun l => { l with next := some c })).settleLine)

/-- LINE_CONFIG (R277, R278): a change waits for the end of the frame in flight. -/
def execLineConfig (t : Nat) (p : Port) (s : State) : Out := .next (lineConfigRow.serve t p s)

/-! ### TONEMAP (R296) -/

/-- The neighbour of a handle. -/
def State.neighbourAt (s : State) (handle : Nat) : Option Neighbour := s.line.neighbours.find? (fun n => n.handle = handle)

/-- Eight entries as 32 bytes; with no map, muted. -/
def mapOctets (m : Option ToneMap) : List Byte := ((m.map ToneMap.entries).getD (List.replicate 8 none)).flatMap entryOctets

/-- The record of Table 9.7. -/
def Neighbour.toneRecord (n : Neighbour) : List Byte :=
  le 2 n.node ++
  octets [ofBool n.cached + 2 * ofBool n.pinned + 4 * ofBool n.privileged + 8 * ofBool n.txMap.isNone, 0, n.txVersion,
    n.rxVersion, n.aLink, 0] ++ le 2 n.delta ++ zeros 2 ++ mapOctets n.txMap ++ mapOctets n.rxMap ++ n.rxSnr.flatMap (leInt 1) ++
  n.txSnr.flatMap (leInt 1) ++ leInt 1 n.reported ++ zeros 3 ++ le 8 n.updated ++ zeros 8

/-- The reply of TONEMAP: the record of the handle's slot. -/
def State.toneReply (s : State) (handle : Nat) : List Byte := ((s.neighbourAt handle).map Neighbour.toneRecord).getD []

def tonemapReadRow : Row where
  opcode := 0x0802
  picks := fun r _ => r.u 0 1 = 0 || 2 < r.u 0 1
  valid := fun r _ => r.u 0 1 = 0 && r.zero 1 3 && r.zero 4 32
  body := fun r s => judged [(s.lineDown, stDegraded)] s (.done stOk (s.toneReply r.handle) s)

/-- TONEMAP, action 0 (R296). -/
def execTonemapRead (t : Nat) (p : Port) (s : State) : Out := .next (tonemapReadRow.serve t p s)

def tonemapPinRow : Row where
  opcode := 0x0802
  picks := fun r _ => r.u 0 1 = 1
  valid := fun r s =>
    r.zero 1 3 && (readMap ((r.payload.drop 4).take 32)).any (fun m => (mapTones m).all (fun i => bit s.lineNow.tones i))
  body := fun r s =>
    judged [(s.lineDown, stDegraded)] s
      (match s.neighbourAt r.handle, readMap ((r.payload.drop 4).take 32) with
       | some n, some m =>
         let v := (n.txVersion + 1) % 16
         let s := (s.setNeighbour n.node (fun n => { n with
           pinned := true, txMap := some { version := v, entries := m }, txVersion := v, updated := s.stampNow, usedAt := s.now })).evictMaps
             n.node
         .done stOk (s.toneReply r.handle) s
       | _, _ => .done stOk (s.toneReply r.handle) s)

/-- TONEMAP, action 1 (R296): the part uses the map given, with the next version number. -/
def execTonemapPin (t : Nat) (p : Port) (s : State) : Out := .next (tonemapPinRow.serve t p s)

def tonemapUnpinRow : Row where
  opcode := 0x0802
  picks := fun r _ => r.u 0 1 = 2
  valid := fun r _ => r.zero 1 3 && r.zero 4 32
  body := fun r s =>
    judged [(s.lineDown, stDegraded)] s
      (let s := match s.neighbourAt r.handle with
        | some n => s.setNeighbour n.node (fun n => { n with pinned := false })
        | none => s
       .done stOk (s.toneReply r.handle) s)

/-- TONEMAP, action 2 (R296). -/
def execTonemapUnpin (t : Nat) (p : Port) (s : State) : Out := .next (tonemapUnpinRow.serve t p s)

/-! ### NODE_ADMIT (R308, R309) -/

def nodeAdmitAdmitRow : Row where
  opcode := 0x0803
  picks := fun r _ => r.u 2 1 ≠ 1
  valid := fun r _ => 1 ≤ r.u 0 2 && r.u 2 1 = 0 && r.zero 3 1
  writes := true
  body := fun r s =>
    let a := r.u 0 2
    judged [(!s.admitted a && 65535 ≤ s.mesh.nodes.length, stNoResource), (s.lineDown, stDegraded)] s
      (let s := if s.admitted a then s
        else
          ((s.setMesh (fun m => { m with nodes := m.nodes ++ [{ address := a }], dirty := true })).discover a).raise 128 s.stampNow
            (objBody 0 (le 2 a ++ octets [0]))
       .done stOk (le 2 (s.nodeHandle a) ++ zeros 2) s)

/-- NODE_ADMIT, admit (R308): the node enters discovery. -/
def execNodeAdmitAdmit (t : Nat) (p : Port) (s : State) : Out := .next (nodeAdmitAdmitRow.serve t p s)

/-- A node leaves: its route, receive counter and neighbour slot are discarded (R308). -/
def State.removeNode (s : State) (a : Nat) : State :=
  let s := s.setLine (fun l => { l with neighbours := l.neighbours.filter (fun n => n.node ≠ a) })
  s.setMesh (fun m => { m with
    nodes := m.nodes.filter (fun n => n.address ≠ a), dirty := true
    discoveries := m.discoveries.filter (fun x => x ≠ a), reports := m.reports.filter (fun x => x ≠ a)
    discovering := if m.discovering.any (fun d => d.1 = a) then none else m.discovering })

def nodeAdmitRemoveRow : Row where
  opcode := 0x0803
  picks := fun r _ => r.u 2 1 = 1
  valid := fun r s => 1 ≤ r.u 0 2 && r.zero 3 1 && s.admitted (r.u 0 2)
  writes := true
  body := fun r s =>
    judged [(s.lineDown, stDegraded)] s
      (.done stOk (le 2 (s.nodeHandle (r.u 0 2)) ++ zeros 2)
        ((s.removeNode (r.u 0 2)).raise 128 s.stampNow (objBody 0 (le 2 (r.u 0 2) ++ octets [1]))))

/-- NODE_ADMIT, remove (R308). -/
def execNodeAdmitRemove (t : Nat) (p : Port) (s : State) : Out := .next (nodeAdmitRemoveRow.serve t p s)

/-! ### ROUTE_READ (R323) -/

/-- The serial of the shadow context of a node, live or parked, or 0. -/
def State.shadowSerial (s : State) (node : Nat) : Nat :=
  match s.liveNode node with
  | some c => c.serial
  | none => ((s.parkedNode node).map Context.serial).getD 0

/-- The record of Table 10.2. -/
def State.routeRecord (s : State) (n : Node) : List Byte :=
  let relays := (n.route.map Route.relays).getD []
  let costs := if n.route.isSome then s.pathCosts relays n.address else []
  le 2 n.address ++ octets [n.state, costs.length] ++ le 2 costs.sum ++
  le 2 (if n.route.isSome then s.nodeHandle (firstHop relays n.address) else 0) ++ fit 14 (relays.flatMap (le 2)) ++ fit 8 (octets costs) ++
  octets [ofBool n.cached + 2 * ofBool (s.neighbour n.address).isSome, 0] ++ le 4 (s.shadowSerial n.address) ++
  le 4 (n.counter.getD 0) ++ le 8 n.lastSuccess ++ le 8 ((n.route.map Route.computed).getD 0) ++ le 2 n.failures ++ zeros 2 ++
  le 4 n.completed ++ le 4 n.failed ++ zeros 4

/-- The node a ROUTE_READ names: in its payload, or that of the neighbour slot. -/
def State.routeNodeOf (s : State) (r : Req) : Option Node :=
  if r.handle = 0 then s.node (r.u 0 2) else (s.neighbourAt r.handle).bind (fun n => s.node n.node)

def routeReadRow : Row where
  opcode := 0x0804
  valid := fun r s => r.handle ≠ 0 || (r.zero 2 2 && s.admitted (r.u 0 2))
  body := fun r s => .done stOk (((s.routeNodeOf r).map s.routeRecord).getD []) s

/-- ROUTE_READ (R323). -/
def execRouteRead (t : Nat) (p : Port) (s : State) : Out := .next (routeReadRow.serve t p s)

/-! ### Poll list (R325, R326) -/

/-- Entry `k` of a POLL_LIST_LOAD. -/
def Req.pollEntry (r : Req) (k : Nat) : PollEntry :=
  let o := 4 + 16 * k
  { index := r.u 0 2 + k, node := r.u o 2, type := r.u (o + 2) 1, flags := r.u (o + 3) 1, period := r.u (o + 4) 2
    offset := r.u (o + 6) 2, retries := r.u (o + 8) 1, records := r.u (o + 9) 1 }

def Req.pollEntries (r : Req) : List PollEntry := (List.range (r.u 2 1)).map r.pollEntry

/-- The fields of an entry lie in their ranges, those of an empty one too (R7, R325, Table 10.7). -/
def PollEntry.good (e : PollEntry) : Bool :=
  1 ≤ e.type && e.type ≤ 2 && e.flags < 8 && 1 ≤ e.period && e.period ≤ 1440 && e.offset < e.period && e.retries ≤ 3 &&
  (if e.type = 1 then 1 ≤ e.records && e.records ≤ 12 else e.records = 0)

/-- The pair of node and type stands once in the list that would result. -/
def uniquePolls (old new : List PollEntry) : Bool :=
  let kept := old.filter (fun e => !new.any (fun x => x.index = e.index))
  new.all (fun e => e.node = 0 || !(kept ++ new).any (fun x => x.index ≠ e.index && x.node = e.node && x.type = e.type))

def pollListLoadRow : Row where
  opcode := 0x0805
  valid := fun r s =>
    1 ≤ r.u 2 1 && r.u 0 2 + r.u 2 1 ≤ 65535 && r.zero 3 1 && r.pollEntries.all PollEntry.good &&
    (List.range (r.u 2 1)).all (fun k => r.zero (14 + 16 * k) 6) && uniquePolls s.mesh.polls r.pollEntries
  writes := true
  body := fun r s =>
    judged [(s.lineDown, stDegraded)] s
      (let new := r.pollEntries
       let kept := s.mesh.polls.filter (fun e => !new.any (fun x => x.index = e.index))
       .done stOk [] (s.setMesh (fun m => { m with
         polls := kept ++ (new.filter (fun e => e.node ≠ 0)).map (fun e => e.from_ s.stampNow) })))

/-- POLL_LIST_LOAD (R325): a changed entry counts from its next due instant. -/
def execPollListLoad (t : Nat) (p : Port) (s : State) : Out := .next (pollListLoadRow.serve t p s)

/-- Polling starts: due instants count from now on, and event source 137 says so (R326). -/
def State.startPolling (s : State) (limit : Nat) : State :=
  let was := s.mesh.running
  let s := s.setMesh (fun m => { m with
    running := true, limit := limit, polls := if was then m.polls else m.polls.map (fun e => e.from_ s.stampNow) })
  if was then s else s.raise 137 s.stampNow (objBody 0 (le 1 0))

def pollStartRow : Row where
  opcode := 0x0806
  valid := fun r _ => 1 ≤ r.u 0 1 && r.u 0 1 ≤ 64 && r.zero 1 3
  body := fun r s =>
    let s := s.settleLine
    judged
      [ (s.line.config.mode ≠ 1 || !s.mesh.polls.any (fun e => has e.flags 1), stWrongState),
        (s.lineDown || !s.canOriginate, stDegraded) ] s
      (.done stOk [] (s.startPolling (r.u 0 1)).journalSettings)

/-- POLL_START (R326). -/
def execPollStart (t : Nat) (p : Port) (s : State) : Out := .next (pollStartRow.serve t p s)

/-- Polling stops: no further transaction starts (R326). -/
def State.stopPolling (s : State) : State :=
  if s.mesh.running then
    (s.setMesh (fun m => { m with running := false, polls := m.polls.map (fun e => { e with readyAt := none }) })).raise 137 s.stampNow
      (objBody 0 (le 1 1))
  else s

def pollStopRow : Row where
  opcode := 0x0807
  body := fun _ s => .done stOk [] s.stopPolling.journalSettings

/-- POLL_STOP (R326). -/
def execPollStop (t : Nat) (p : Port) (s : State) : Out := .next (pollStopRow.serve t p s)

/-! ### LINE_SEND (R331, R303) -/

def lineSendRow : Row where
  opcode := 0x0808
  picks := fun _ s => s.lineNow.mode ≠ 2
  valid := fun r _ => 1 ≤ r.u 0 2 && r.u 2 1 ≤ 3 && r.zero 3 1 && r.zero 6 2
  body := fun r s =>
    let s := s.settleLine
    judged
      [ (s.line.config.mode ≠ 1 || !s.admitted (r.u 0 2), stWrongState),
        (!s.opRoom r.session || 64 ≤ s.mesh.flights.length, stNoResource),
        (s.lineDown || !s.canOriginate, stDegraded) ] s
      (accept r s (fun tag s =>
        let s := s.setMesh (fun m => { m with
          tags := m.tags.filter (fun a => a ≠ tag) ++ [tag], responses := m.responses.filter (fun x => x.tag ≠ tag) })
        (s.startFlight { node := r.u 0 2, type := 3, op := some (tag, r.session), expect := bit (r.u 2 1) 1
                         message := octets [3, 0, 0, 0] ++ r.payload.drop 8, long := bit (r.u 2 1) 0, allowed := 3 }).pump))

/-- LINE_SEND in native mode (R331), with 2 retries. -/
def execLineSend (t : Nat) (p : Port) (s : State) : Out := .next (lineSendRow.serve t p s)

def lineSendSfskRow : Row where
  opcode := 0x0808
  picks := fun _ s => s.lineNow.mode = 2
  valid := fun r _ => r.zero 0 2 && r.zero 2 1 && r.zero 3 1 && r.zero 6 2
  body := fun r s =>
    let s := s.settleLine
    judged
      [ (4 + ofBool s.line.sfskFlight.isNone ≤ s.line.sfskQueue.length, stBusy), (s.lineDown, stDegraded) ] s
      (.done stOk [] (s.setLine (fun l => { l with sfskQueue := l.sfskQueue ++ [(r.u 4 2, r.payload.drop 8, s.now)] })))

/-- LINE_SEND in S-FSK mode (R303): one runs or is the next to start, and four more are held. -/
def execLineSendSfsk (t : Nat) (p : Port) (s : State) : Out := .next (lineSendSfskRow.serve t p s)

/-! ### LINE_STATS (R306, R496) -/

def lineStatsNeighbourRow : Row where
  opcode := 0x0809
  picks := fun r _ => r.handle ≠ 0
  body := fun r s =>
    .done stOk
      (match s.neighbourAt r.handle with
       | some n => n.counters.flatMap (le 4) ++ octets [n.aLink] ++ leInt 1 n.reported ++ zeros 2 ++ le 8 n.lastValid
       | none => []) s

/-- LINE_STATS on a neighbour (R306). -/
def execLineStatsNeighbour (t : Nat) (p : Port) (s : State) : Out := .next (lineStatsNeighbourRow.serve t p s)

def lineStatsCountersRow : Row where
  opcode := 0x0809
  picks := fun r _ => r.handle = 0 && r.u 0 1 ≠ 1 && r.u 0 1 ≠ 2
  valid := fun r _ => r.u 0 1 = 0 && r.zero 1 1 && r.zero 2 2
  body := fun _ s => .done stOk (s.line.counters.flatMap (le 4) ++ s.mesh.counters.flatMap (le 4)) s

/-- LINE_STATS, selector 0 (R496). -/
def execLineStatsCounters (t : Nat) (p : Port) (s : State) : Out := .next (lineStatsCountersRow.serve t p s)

/-- A frame of Table 9.11 with its padding byte. -/
def SfskFrame.record (f : SfskFrame) : List Byte :=
  le 8 f.time ++ octets [f.data.length, f.mark, f.space, 0] ++ le 2 f.phase ++ zeros 2 ++ fit 255 f.data ++ zeros 1

def lineStatsSfskFramesRow : Row where
  opcode := 0x0809
  picks := fun r _ => r.handle = 0 && r.u 0 1 = 1
  valid := fun r _ => r.zero 1 1 && r.zero 2 2
  body := fun _ s =>
    judged [(s.lineNow.mode ≠ 2, stWrongState)] s
      (let l := s.line.sfsk.take 15
       .done stOk (octets [l.length] ++ zeros 3 ++ l.flatMap SfskFrame.record) (s.setLine (fun x => { x with sfsk := x.sfsk.drop 15 })))

/-- LINE_STATS, selector 1 (R304, R496): the frames returned are released. -/
def execLineStatsSfskFrames (t : Nat) (p : Port) (s : State) : Out := .next (lineStatsSfskFramesRow.serve t p s)

def lineStatsResponseRow : Row where
  opcode := 0x0809
  picks := fun r _ => r.handle = 0 && r.u 0 1 = 2
  valid := fun r s => r.zero 1 1 && (s.mesh.tags.contains (r.u 2 2) || s.mesh.responses.any (fun x => x.tag = r.u 2 2))
  body := fun r s =>
    match s.mesh.responses.find? (fun x => x.tag = r.u 2 2) with
    | none => refuse stWrongState s
    | some x =>
      .done stOk (le 2 x.tag ++ le 2 x.node ++ le 2 x.data.length ++ zeros 2 ++ x.data)
        (s.setMesh (fun m => { m with responses := m.responses.filter (fun y => y.tag ≠ x.tag) }))

/-- LINE_STATS, selector 2 (R331, R496): the response is released. -/
def execLineStatsResponse (t : Nat) (p : Port) (s : State) : Out := .next (lineStatsResponseRow.serve t p s)

/-! ### PRIVILEGE_SET (R298) -/

def privilegeSetRow : Row where
  opcode := 0x080A
  picks := fun r _ => r.u 0 1 ≠ 0
  valid := fun r _ => r.u 0 1 = 1 && r.zero 1 3
  body := fun r s =>
    judged
      [ (16 ≤ (s.line.neighbours.filter (fun n => n.privileged && n.handle ≠ r.handle)).length, stNoResource),
        (s.lineDown, stDegraded) ] s
      (.done stOk [] (s.setLine (fun l => { l with
        neighbours := alterWhere l.neighbours (fun n => n.handle = r.handle) (fun n => { n with privileged := true }) })))

/-- PRIVILEGE_SET, value 1 (R298). -/
def execPrivilegeSet (t : Nat) (p : Port) (s : State) : Out := .next (privilegeSetRow.serve t p s)

def privilegeClearRow : Row where
  opcode := 0x080A
  picks := fun r _ => r.u 0 1 = 0
  valid := fun r _ => r.zero 1 3
  body := fun r s =>
    judged [(s.lineDown, stDegraded)] s
      (.done stOk [] (s.setLine (fun l => { l with
        neighbours := alterWhere l.neighbours (fun n => n.handle = r.handle) (fun n => { n with privileged := false }) })))

/-- PRIVILEGE_SET, value 0 (R298). -/
def execPrivilegeClear (t : Nat) (p : Port) (s : State) : Out := .next (privilegeClearRow.serve t p s)

end Sys2Proof.Machine
end

