-- ==== Sys2Proof/Machine/Reset.lean ====
section
/-! DEFINITION. The commit (R245), what a reset keeps and loses (R411, R440-R444, Table 14.6), lifecycle transitions (R408-R410) and
the end of FW_END (R419), which may ask for a reset. -/

namespace Sys2Proof.Machine

/-! ### The commit (R245) -/

/-- The DSP delivers every tick that ended at or before a boundary. -/
def State.closeThrough (s : State) (b : Nat) : State :=
  (List.range (b / Config.tickLen - s.meas.nextTick)).foldl (fun (s : State) _ => s.queueTick) s

/-- P0 folds every tick it may. -/
def State.foldThrough (s : State) : State :=
  (List.range s.meas.queue.length).foldl (fun (s : State) _ =>
    match s.meas.queue with
    | [] => s
    | k :: _ => if s.mayFold k then s.foldTick else s) s

/-- The records of the commit: one for each live context, one for each group's open interval, and the settings (R245, R388, R313).
The frame counter is journaled as it stands. -/
def State.writeCommit (s : State) (b : Nat) : State :=
  let first := s.store.nextJournal
  let s := s.eachCtx (fun s c => s.journalCtx c 5 0 (s.stamp b) false)
  let s := (List.range 16).foldl (fun (s : State) k =>
    match (nth s.bill.groups k).opened with
    | some x => s.journalBalance k x
    | none => s) s
  let s := (s.setMesh (fun m => { m with journaled := m.counter })).journalSettings
  { s with power := { s.power with commitFirst := first } }

/-- A commit starts: T_pf is the last tick boundary at or before now; the DSP delivers the ticks up to it, P0 folds them, performs the
actions due, and writes the records (R245). A lifecycle transition writes none (R409). -/
def State.startCommit (s : State) : State :=
  if s.phase = .running && s.power.commit.isNone && s.sec.transition.isNone then
    let b := s.now / Config.tickLen * Config.tickLen
    let s := { s with power := { s.power with commit := some b, commitAt := s.now, committed := false } }
    ((s.closeThrough b).foldThrough.finishDue.groupTurns).writeCommit b
  else s

/-- A CAL_STORE that the warning abandoned completes with WRONG_STATE (R171, Table 14.2). -/
def State.endAbandonedStore (s : State) : State :=
  match s.cal.storing with
  | none => s
  | some (tag, k, c) =>
    if s.cal.abandoned then
      State.completeOp { s with cal := { s.cal with storing := none, abandoned := false } } tag stWrongState
        (le 1 k ++ zeros 3 ++ le 4 c.count)
    else s

/-- The commit has ended, whole or abandoned: BUSY ends, folding resumes, relays follow the states they were held from, and a ride-through
that came before is followed by its checkpoint (R433, R435, R436). -/
def State.commitOver (s : State) : State :=
  let s := s.endAbandonedStore
  let s := { s with power := { s.power with
    commit := none, committed := true, rideCheckpoint := s.power.rideCheckpoint || s.power.rode, rode := false } }
  (s.eachCtx (fun s c => s.driveRelay c 0)).releaseStep

/-- A reset is asked for by RESET or by an image that is to be activated: the commit comes first (R245, R419, R440). -/
def State.askReset (s : State) (cause : Nat) : State :=
  State.startCommit { s with power := { s.power with reset := some { cause := cause, notBefore := s.now } } }

/-! ### What a reset keeps (Table 14.6, R411) -/

/-- A node of the admission table, which the store keeps with its route and counters (R308, R313, R329). -/
def Node.kept (n : Node) : Node :=
  { address := n.address, state := if n.route.isSome then 1 else 0, route := n.route, counter := n.counter, lastSuccess := n.lastSuccess
    failures := n.failures }

/-- A balance group, whose configuration the store keeps (R386); its intervals are rebuilt from the journal at restore (R388). -/
def Group.kept (g : Group) : Group :=
  { g with early := [], final := [], runs := List.replicate 4 (0, 0, 0), alerts := List.replicate 4 0 }

/-- The store as a reset leaves it; a format cut short is completed at start-up (Table 14.10). -/
def StoreState.kept (x : StoreState) : StoreState :=
  match x.formatting with
  | some (_, _, layout) => { x with formatting := none, unfinished := some layout, state := 0, vioOnly := false, bootWrite := none }
  | none => { x with bootWrite := none }

/-- OTP, secure SRAM and what the vault holds; every engine key slot is cleared (R402, R411), an open debug port closes (log 97), and it
will present a fresh challenge (R422). -/
def SecurityState.kept (x : SecurityState) (draw : Nat) : SecurityState :=
  { x with
    link := none, linkKey := none, engine := List.replicate 16 none, signing := [], backlog := [], stopped := false, backlogRaised := false
    update := none, ending := none, trialFrom := none, transition := none, advanced := none
    debugOpen := false, debugClosed := x.debugClosed || x.debugOpen, debugChallenge := draw }

/-- The copies the vault holds of the settings of CH0-CH5: the firmware of S keeps them as its own stand (R360). Only settings are copied,
so a window of a copy is armed. -/
def State.copies (s : State) : GatehouseState :=
  if s.firmware then
    let l := s.channels.take 6
    { s.gate with
      windows := l.map (fun c => { c.fast with armed := true, count := 0, above := false, firstAt := 0, firstCode := 0 })
      channels := s.meas.config.channels.take 6
      banks := l.map (fun c => if c.active = 0 then c.bankA else c.bankB)
      delays := l.map (fun c => c.hostDelay) }
  else s.gate

/-- The gatehouse totals and copies of the vault: a reset ends gatehouse mode (R365). A second reset before the start-up leaves the episode
to be told at that start-up. -/
def GatehouseState.kept (x : GatehouseState) (ended held : Bool) (exit : Nat) : GatehouseState :=
  { x with
    exit := if ended then exit else x.exit, tickAt := 0, unseen := false, episodeEnded := ended || (held && x.episodeEnded)
    rms := List.replicate 6 0, rest := List.replicate 6 0 }

/-- A reset acts: SRAM is zeroed and the vault and the store keep what Table 14.6 gives. It ends no earlier than `until_`. The count of the
timebase runs on through every reset, and while VSYS is absent (DESIGN CHOICE, log 87). -/
def State.enterReset (s : State) (cause until_ : Nat) : State :=
  let ended : Bool := s.phase = .gatehouse
  { now := s.now, draws := s.draws + 1, pending := s.pending
    clock := {
      rtcValid := s.clock.rtcValid, rtcValidFrom := s.clock.rtcValidFrom, rtcRuns := s.clock.rtcRuns, rtcCount := s.clock.rtcCount
      rtcAt := s.clock.rtcAt, referenceLost := s.clock.referenceLost }
    cal := { slots := s.cal.slots }
    bill := { tamp := s.bill.tamp, groups := s.bill.groups.map Group.kept }
    mesh := {
      nodes := s.mesh.nodes.map Node.kept, polls := s.mesh.polls.map (fun e => { e with readyAt := none, lastDue := 0 }) }
    store := s.store.kept
    sec := s.sec.kept s.draws
    health := { log := s.health.log, next := s.health.next }
    gate := s.copies.kept ended (s.phase = .held) s.rtcNow
    power := {
      cause := cause, causeFlags := if ended then 2 else 0, reset := some { cause := cause, notBefore := until_ }
      vbatLow := s.power.vbatLow, vbatMarks := s.power.vbatMarks, vioFault := s.power.vioFault, vioFaultAt := s.power.vioFaultAt
      batteryLost := s.power.batteryLost, rtcMark := s.power.rtcMark } }

/-- A reset from outside the sequence of a lifecycle transition: where one runs, whether step 2 had programmed the OTP bits is open, and
start-up completes it if so (R410). -/
def State.cutTransition (s : State) : State :=
  match s.sec.transition with
  | none => s
  | some (_, new) =>
    let d := s.draw
    if d.1 % 2 = 1 then { d.2 with sec := { d.2.sec with lifecycle := new } } else d.2

/-- A reset of any kind but the one that ends a transition. -/
def State.resetNow (s : State) (cause until_ : Nat) : State := s.cutTransition.enterReset cause until_

/-! ### Lifecycle transitions (R408-R410) -/

/-- The transitions R408 allows. -/
def transitionAllowed (old new : Nat) : Bool :=
  (old = 0 && new = 1) || (old = 1 && (new = 2 || new = 3)) || (old = 2 && new = 3) || (1 ≤ old && old ≤ 3 && new = 4)

def lifecycleAdvanceRow : Row where
  opcode := 0x0B05
  body := fun r s =>
    judged
      [ (r.u 2 2 ≠ 0xC33C || r.u 0 1 = 0 || 4 < r.u 0 1 || !r.zero 1 1, stBadParam), (r.u 4 4 ≠ partTag, stDenied),
        (!transitionAllowed s.sec.lifecycle (r.u 0 1), stDenied),
        (s.storeBusy || s.sec.update.isSome || s.sec.ending.isSome || s.store.boot.trialState ≠ 0, stWrongState),
        (s.store.state = 2, stDegraded) ] s
      (accept r s (fun _ s => { s with sec := { s.sec with transition := some (s.sec.lifecycle, r.u 0 1) } }))

/-- LIFECYCLE_ADVANCE (R408). -/
def execLifecycleAdvance (t : Nat) (p : Port) (s : State) : Out := .next (lifecycleAdvanceRow.serve t p s)

/-- Steps 3 to 7 of Table 13.3 that the OTP state requires: a new identity key, wrapped under K_dev; the keys programmed to all ones or
erased; the format under a new store key; the gatehouse totals, with what they carry, and the episode count cleared. -/
def State.finishTransition (s : State) : State :=
  let l := s.sec.lifecycle
  let s := { s with sec := { s.sec with
    identity := if l = 1 then true else if 3 ≤ l then false else s.sec.identity
    identityDraw := if l = 1 then s.draws else s.sec.identityDraw, rootErased := s.sec.rootErased || l = 4
    transport := if 3 ≤ l then none else s.sec.transport, transportSet := if l = 1 then false else s.sec.transportSet
    network := if 3 ≤ l then none else s.sec.network, networkCopy := if 3 ≤ l then none else s.sec.networkCopy, keysLost := false } }
  let s := { s with draws := s.draws + 1 }
  let s := if 3 ≤ l then s.setBoot (fun b => { b with certificate := [] }) else s
  let s := s.formatStore s.store.boot.layout
  { s with gate := { s.gate with
      episodes := 0, totals := List.replicate 6 0, totalsCopy := List.replicate 6 0, rest := List.replicate 6 0 } }

/-- LIFECYCLE_TRANSITION (R409): steps 2 to 8 of Table 13.3; metering stopped as the transition was accepted. The debug port, open in BLANK,
closes as that state is left (log 97). -/
def execLifecycleTransition (t : Nat) (s : State) : Out :=
  let s := s.tickTo t
  .next
    (match s.sec.transition with
     | none => s
     | some (old, new) =>
       let s := ({ s with sec := { s.sec with lifecycle := new } } : State).finishTransition
       let s := s.enterReset 6 (s.now + Config.ms)
       { s with sec := { s.sec with advanced := some (old, new), debugClosed := s.sec.debugClosed || old = 0 } })

/-! ### The end of FW_END (R419) -/

/-- The status and descriptor that verification of a slot gives: an update that was abandoned, with the loss of ownership or of its
session, is WRONG_STATE. -/
def State.verify (s : State) (slot : Nat) (retry : Bool) : Option (Nat × FwSlot) × State :=
  if retry then
    let a := s.retryStatus slot
    (some (a.1, s.slot slot), a.2)
  else
    match s.sec.update with
    | none => (none, s)
    | some u => (some (imageStatus u.data s.sec.counter s.sec.revoked, describe u.data), s)

/-- FW_END_COMPLETE (R419): the image is verified, the update is closed, and ACTIVATE restarts into the trial. -/
def execFwEndComplete (t : Nat) (s : State) : Out :=
  let s := s.tickTo t
  .next
    (match s.sec.ending with
     | none => s
     | some (tag, _, slot, activate, retry) =>
       if s.phase = .held || s.phase = .gatehouse then s
       else
         let s := { s with sec := { s.sec with ending := none } }
         let a := s.verify slot retry
         match a.1 with
         | none => a.2.completeOp tag stWrongState []
         | some (status, x) =>
           let s := { a.2 with sec := { a.2.sec with update := none } }
           let s := s.verified tag slot x status
           if status = stOk && activate then s.askReset 3 else s)

end Sys2Proof.Machine
end

