-- ==== Sys2Proof/Machine/Restart.lean ====
section
/-! DEFINITION. Uncorrectable memory errors (R336) and restarts of a processor pair (R337, R17). -/

namespace Sys2Proof.Machine

/-- A pair restarts from its checkpoint: it is counted and reported to the vault, the minute without a restart that confirms a trial
starts again (R415), and P0 folds every pending tick before the next command (R17). Requests are executed once (R52), so nothing else
changes. -/
def State.restartPair (s : State) (pair : Nat) : State :=
  let s := s.countRestart pair
  let s := { s with
    health := { s.health with
      recent := s.health.recent.filter (fun (x : Nat × Nat) => decide (s.now < x.2 + 10 * Config.ticksPerSecond)) ++ [(pair, s.now)] }
    sec := { s.sec with trialFrom := s.sec.trialFrom.map (fun _ => s.now) } }
  let s := if pair = 0 && s.phase = .running then s.foldThrough else s
  s.note 154 0 0 0 3

/-- LOCKSTEP_MISMATCH (R337). -/
def execLockstepMismatch (t pair : Nat) (s : State) : Out :=
  let s := s.tickTo t
  guarded (pair < 2) (if s.firmware then s.restartPair pair else s)

/-- An uncorrectable error of a die is counted and its repair is event source 153 (R336, Table 16.24). -/
def State.repaired (s : State) (die handle : Nat) : State :=
  (s.setDie die (fun d => { d with uncorrectable := sat 32 (d.uncorrectable + 1) })).note 153 0 handle 0 2

/-- A unit restarts its stages as after a change of range mode; a free lane bridges a channel that its home die carries (R336, R341). -/
def State.restartStages (s : State) (u : Nat) : State :=
  if u < 24 && (s.chan u).carrier = .home && !(s.chan u).interrupted && !s.health.bridges.any (fun x => x.1 = u) then
    match s.pick s.freeLanes with
    | (none, s) => s.disturb u
    | (some k, s) =>
      let s := s.assign k u 3
      { s with health := { s.health with bridges := s.health.bridges ++ [(u, s.now, 0)] } }
  else s.disturb u

/-- The modem discards a neighbour slot and its maps; its cost is gone, so routes are looked at again (R336, R321). -/
def State.discardSlot (s : State) (slot : Nat) : State :=
  if s.line.neighbours.any (fun n => n.slot = slot) then
    (s.setLine (fun l => { l with neighbours := l.neighbours.filter (fun n => n.slot ≠ slot) })).setMesh (fun m => { m with dirty := true })
  else s

/-- UNCORRECTABLE_ERROR (R336). An error in both copies of a context section moves up to the next rung, the restart of the pair, and is
the command that names other state of P0. -/
def execUncorrectableError (t : Nat) (place : MemWhere) (s : State) : Out :=
  let s := s.tickTo t
  guarded place.exists
    (if !s.firmware then s
    else
      match place with
      | .contextSection k => if s.bill.live.any (fun c => c.slot = k) then s.repaired 0 (0x0200 + k) else s
      | .checkpoint _ => s.repaired 0 0
      | .processorOther pair => (s.repaired 0 0).restartPair pair
      | .filterState u => if s.converts u then (s.repaired (dieOfUnit u) (unitHandle u)).restartStages u else s
      | .modemSlot h => (s.repaired 6 h).discardSlot (h - 0xC000)
      | .gatehouseTotals => s.repaired 7 (dieHandle 7))

end Sys2Proof.Machine
end

