-- ==== Sys2Proof/Machine/Restore.lean ====
section
/-! DEFINITION. CONTEXT_RESTORE: contexts come back from the journal and the pool (R246, R247, R271), actions without their Done are
replayed, balance groups are rebuilt (R388), settings return (R313, R326), and unsigned records ask for signatures again (R404). -/

namespace Sys2Proof.Machine

/-! ### What each context starts from (R246) -/

/-- What a context restarts from. -/
structure Plan where
  /-- the journal record; none: the pool's record -/
  base : Option JournalRecord
  /-- a complete commit that is not provisional -/
  full : Bool
  /-- the restore instant T_r -/
  instant : Nat
  /-- feeds after this sequence are reapplied -/
  from_ : Nat
  /-- the state: that of the record, with what is not journaled from the pool -/
  ctx : Context
  deriving DecidableEq, Repr

/-- The state of a journal record with the sections that only the pool holds (R387), and the settings accepted since. A demand setting that
the record's demand section already has took effect before it. -/
def Context.withPool (c p : Context) : Context :=
  { c with
    calendar := p.calendar, parkedSeq := p.parkedSeq, newTable := p.newTable, newPrepay := p.newPrepay, newFriendly := p.newFriendly
    newDemand := p.newDemand.filter (fun x => (c.demand.mode, c.demand.length, c.demand.n) ≠ x.2)
    prepay := { c.prepay with
      windows := p.prepay.windows, holidays := p.prepay.holidays, mask := p.prepay.mask, openValue := p.prepay.openValue
      mismatchRun := p.prepay.mismatchRun, mismatches := p.prepay.mismatches } }

/-- The plan of a context of the pool. A park's record supersedes the journal records before it. Settings accepted before the instant of a
journal record were in force at it. -/
def State.plan (s : State) (p : Context × Nat) : Plan :=
  let j := s.store.journal
  match (j.filter (fun r => r.serial = p.1.serial && p.1.parkedSeq < r.sequence && startsContext j r)).getLast? with
  | some r =>
    let c := (r.context.getD p.1).withPool p.1
    { base := some r, full := (commitOf j r).any (fun m => !m.2.2), instant := r.time, from_ := r.sequence
      ctx := if p.2 < r.time then c.applyPending (2 ^ 64) else c }
  | none => { base := none, full := false, instant := p.2, from_ := max p.1.journal p.1.parkedSeq, ctx := p.1 }

/-- The plans of the contexts that were live. -/
def State.plans (s : State) : List Plan :=
  (s.store.pool.filter (fun p => !s.store.parked.contains p.1.serial)).map s.plan

/-- The flags of event source 172 that the journal gives (R445): a complete commit is restored; the newest commit was provisional. -/
def State.restoreFlags (s : State) : Nat :=
  ofBool (s.plans.any (fun p => p.full)) + 4 * ofBool ((commitMarks s.store.journal).getLast?.any (fun m => m.2.2))

/-! ### Replaying a boundary record (R246) -/

/-- The Done record of a step of the boundary record a context starts from. -/
def State.doneRecord (s : State) (p : Plan) (code : Nat) : Option JournalRecord :=
  s.store.journal.find? (fun r => r.type = 3 && r.serial = p.ctx.serial && p.from_ < r.sequence && r.code = code)

/-- A context is live again, at its slot. -/
def State.reviveContext (s : State) (c : Context) : State :=
  s.addLive { c with state := 0, shadow := { c.shadow with pending := [] } }

/-- The flag JOURNAL joins those of the context (R246). -/
def State.markJournal (s : State) (serial : Nat) : State :=
  s.setCtx serial (fun c => { c with flags := c.flags ||| bfJournal })

/-- The state that Done records carry: demand and profile after step 2, the tariff after step 3, prepayment after a standing charge. -/
def State.bringForward (s : State) (p : Plan) : State :=
  let put := fun (s : State) (code : Nat) (f : Context → Context → Context) =>
    match (s.doneRecord p code).bind (fun r => r.context) with
    | some d => s.setCtx p.ctx.serial (fun c => f c d)
    | none => s
  let s := put s 2 (fun c d => { c with demand := d.demand, flags := d.flags, entries := d.entries })
  put s 3 (fun c d => { c with tariff := d.tariff })

/-- Step 2 without its Done; an interval that nothing else ends was cut by the context's park, if its record says that one was in progress,
or by a split adjustment. -/
def State.replayDemand (s : State) (serial instant : Nat) (parking : Bool) : State :=
  match s.live serial with
  | none => s
  | some c =>
    let s := s.markJournal serial
    let s := if c.demand.mode ≠ 0 && c.demand.openEnd ≤ instant then s.closeDemand serial c.demand.openEnd bfJournal instant
      else match c.newDemand with
        | some (_, mode, length, n) => s.applyDemand serial instant mode length n
        | none => s
    let s := if c.demand.profEnd ≤ instant then s.closeProfile serial c.demand.profEnd bfJournal instant else s
    if (c.demand.mode = 0 || instant < c.demand.openEnd) && c.newDemand.isNone && instant < c.demand.profEnd then
      s.closeOpen serial instant (bfShort + (if parking then bfParked else bfClock) + bfJournal)
    else s

/-- A snapshot due at the boundary: the record in the store counts as its Done (Table 7.14). -/
def State.replaySnapshot (s : State) (serial flags boundaries stop last : Nat) : State :=
  match s.live serial with
  | none => s
  | some c =>
    let s := if s.store.snapshots.any (fun x => x.serial = serial && x.period = c.period) then
        s.setCtx serial (fun c => { c.nextPeriod boundaries stop with lastBilling := last })
      else s.takeSnapshot serial (flags ||| bfJournal) boundaries stop last
    s

/-- Step 4 of a boundary record; a forward adjustment takes one FORCED snapshot (R242). -/
def State.replaySnapshots (s : State) (serial lo instant : Nat) (forced : Bool) : State :=
  match s.live serial with
  | none => s
  | some c =>
    let bs := c.boundaries lo instant
    if bs.isEmpty then s
    else if forced then s.replaySnapshot serial bfForced bs.length instant (bs.getLastD 0)
    else bs.foldl (fun (s : State) b => s.replaySnapshot serial 0 1 b b) s

/-- The standing charge of a boundary record: its Done carries the prepayment section. -/
def State.replayStanding (s : State) (p : Plan) (lo instant : Nat) : State :=
  match (s.doneRecord p 6).bind (fun r => r.context) with
  | some d => s.setCtx p.ctx.serial (fun c => { c with prepay := (d.withPool c).prepay })
  | none =>
    (s.markJournal p.ctx.serial).setCtx p.ctx.serial
      (fun c => { c with prepay := (c.midnights lo instant).foldl (fun (x : Prepay) m => x.standDay m) c.prepay })

/-- The actions of a boundary record, in the order of Table 7.11; the part had folded through the boundary, or through the old time of
an adjustment. -/
def State.replay (s : State) (p : Plan) (mask : Nat) : State :=
  let n := p.ctx.serial
  let forced := decide (p.ctx.kind ≠ 1 ∧ p.ctx.folded < p.instant)
  let lo := if forced then p.ctx.folded else p.instant - Config.tickLen
  let s := s.bringForward p
  let s := if bit mask 0 && (s.doneRecord p 2).isNone then s.replayDemand n p.instant (bit p.ctx.state 1) else s
  let s := if bit mask 1 && (s.doneRecord p 3).isNone then
      (s.markJournal n).changeTariff n (((s.live n).map (fun c => s.tariffOf c s.now p.instant)).getD 0) p.instant
    else s
  let s := if bit mask 2 then s.replaySnapshots n lo p.instant forced else s
  if bit mask 3 then s.replayStanding p lo p.instant else s

/-- Whether the boundary record of a plan has an action without its Done. -/
def State.undone (s : State) (p : Plan) : Bool :=
  match p.base with
  | none => false
  | some r =>
    r.type = 2 &&
    ((bit r.code 0 && (s.doneRecord p 2).isNone) || (bit r.code 1 && (s.doneRecord p 3).isNone) ||
     (bit r.code 2 && !s.store.snapshots.any (fun x => x.serial = p.ctx.serial && p.ctx.period ≤ x.period)) ||
     (bit r.code 3 && (s.doneRecord p 6).isNone))

/-! ### One context (R246, R247, R271) -/

/-- The records of the tamper switches on battery open and close records, flagged BATTERY; a lost count flags OVERFLOW (R269). -/
def State.applyTampLog (s : State) (serial : Nat) : State :=
  let s := s.sec.tampLog.foldl (fun (s : State) e =>
    match s.live serial with
    | none => s
    | some c =>
      if !bit c.tamper.enables (3 + e.1) then s
      else if e.2.1 then s.openTamper serial (3 + e.1) e.1 e.2.2 c.lowWords 0 2
      else s.closeTamperAt serial (3 + e.1) e.2.2 2) s
  if s.sec.tampLost = 0 then s
  else s.setCtx serial (fun c => { c with tamper := { c.tamper with
    opened := alterWhere c.tamper.opened (fun o => 3 ≤ o.kind && o.kind ≤ 6) (fun o => { o with flags := o.flags ||| 4 }) } })

/-- Tamper records after an outage: kinds 0, 1, 2 and 7 close at T_r flagged POWER, and every detector starts afresh (R271). -/
def State.cutTampers (s : State) (serial instant : Nat) : State :=
  let s := s.closeTampers serial instant 1 [0, 1, 2, 7]
  (s.setCtx serial (fun c => { c with
    tamper := { c.tamper with runs := [], trail := [] }, prepay := { c.prepay with mismatchRun := 0 } })).applyTampLog serial

/-- The relay of a context takes the level of the restored state when it is driven again (R265). -/
def State.placeRelay (s : State) (serial : Nat) : State :=
  match s.live serial with
  | none => s
  | some c =>
    if c.kind ≠ 1 && c.prepay.mode = 1 && c.prepay.relay < 4 then
      let closed := decide (1 ≤ c.prepay.state ∧ c.prepay.state ≤ 4)
      { s with bill := { s.bill with relays := alter s.bill.relays c.prepay.relay (fun r => { r with closed := closed }) } }
    else s

/-- Settings that waited for a tick boundary are in force from the restart on. -/
def Context.settle (c : Context) : Context :=
  let c := c.applyPending (2 ^ 64)
  match c.newDemand with
  | some (_, mode, length, n) => { c with newDemand := none, demand := { c.demand with mode := mode, length := length, n := n } }
  | none => c

/-- A local or feeder context restarts with the tick numbered `tick`, at the instant `start`. -/
def State.restoreLocal (s : State) (p : Plan) (tick start : Nat) : State :=
  let n := p.ctx.serial
  let s := (s.reviveContext p.ctx).placeRelay n
  let s := match p.base with
    | some r => if r.type = 2 then s.replay p r.code else s
    | none => s.raise 148 s.stampNow (s.serialBody n [])
  let s := s.closeOpen n p.instant (bfShort + bfPower + (if p.full then 0 else bfCheckpoint))
  let s := (s.cutTampers n p.instant).setCtx n Context.settle
  let s := s.catchUp n (min p.ctx.folded p.instant) start bfLate
  let s := s.setCtx n (fun c =>
    let c := { c with firstTick := tick, folded := start }
    (c.restartSeries start (bfShort + bfPower + (if p.base.isNone then bfCheckpoint else 0))).startTrail)
  (s.sourceTariff n (tickStart tick) start).placeRelay n |>.decideAt n start

/-- The feed records of a context after the record it starts from. -/
def State.laterFeeds (s : State) (p : Plan) : List (List Byte) :=
  (s.store.journal.filter (fun r => r.type = 4 && r.serial = p.ctx.serial && p.from_ < r.sequence)).map (fun r => octets r.data)

/-- Flags for the first interval and entry that come. -/
def Context.markFirst (c : Context) (flags : Nat) : Context :=
  { c with demand := { c.demand with openFlags := c.demand.openFlags ||| flags, profFlags := c.demand.profFlags ||| flags } }

/-- A shadow context reapplies its feeds (R246). -/
def State.restoreShadow (s : State) (p : Plan) : State :=
  let n := p.ctx.serial
  let s := s.reviveContext (if p.base.isNone then p.ctx.markFirst bfCheckpoint else p.ctx)
  let s := match p.base with
    | some r => if r.type = 2 then s.replay p r.code else s
    | none => s.raise 148 s.stampNow (s.serialBody n [])
  let s := (s.cutTampers n p.instant).setCtx n Context.settle
  (s.laterFeeds p).foldl (fun (s : State) b =>
    match s.live n with
    | some c => (s.feedLive c b 0 false).2
    | none => s) s

/-- A context returns. -/
def State.restoreContext (s : State) (p : Plan) (tick start : Nat) : State :=
  if p.ctx.kind = 1 then s.restoreShadow p else s.restoreLocal p tick start

/-! ### Balance groups (R275, R388) -/

/-- The group feeds that the journal's feed records give, in order, each with its sequence: what a feed adds to the one before it. -/
def State.groupFeeds (s : State) : List (Nat × GroupFeed) :=
  (s.store.journal.foldl (fun (a : List (Nat × List Byte) × List (Nat × GroupFeed)) r =>
    if r.type ≠ 4 then a
    else
      let b := octets r.data
      match a.1.find? (fun x => x.1 = r.serial) with
      | none => ((r.serial, b) :: a.1, a.2)
      | some (_, old) =>
        if feedEnd b ≤ feedEnd old then a
        else
          let diff := fun (q : Nat) => (feedReg b q : Int) - (feedReg old q : Int)
          let f : GroupFeed :=
            { serial := r.serial, prev := feedEnd old, stop := feedEnd b
              net := 1000 * (diff 0 - diff 1), broken := (List.range 7).any (fun q => decide (diff q < 0))
              lumped := (s.ctxAny r.serial).any (fun c => feedEnd old + c.shadow.length * minTicks < feedEnd b) }
          ((r.serial, b) :: a.1.filter (fun x => x.1 ≠ r.serial), a.2 ++ [(r.sequence, f)])) ([], [])).2

/-- An interval rebuilt from its newest balance record and the feeds that follow it. -/
def State.rebuildInterval (s : State) (k number : Nat) : Option GroupInterval :=
  match (s.store.journal.filter (fun r => r.balance.any (fun b => b.1 = k && b.2.number = number))).getLast? with
  | some r =>
    r.balance.map (fun b => ((s.groupFeeds.filter (fun f => r.sequence < f.1)).foldl (fun (x : GroupInterval) f => x.feed f.2) b.2))
  | none => none

/-- The T_r of a context. -/
def State.instantOf (s : State) (plans : List Plan) (serial : Nat) : Nat :=
  ((plans.find? (fun p => p.ctx.serial = serial)).map (fun p => p.instant)).getD s.foldUtc

/-- A group's provisional intervals are rebuilt; its open one is cut at the feeder's T_r, flagged POWER, and the next opens at the
restart (R275, R388). -/
def State.restoreGroup (s : State) (plans : List Plan) (k : Nat) : State :=
  let g := nth s.bill.groups k
  let opened := g.opened.bind (fun x => s.rebuildInterval k x.number)
  let s := s.setGroup k (fun g => { g with
    provisional := g.provisional.filterMap (fun x => s.rebuildInterval k x.number), opened := opened })
  match opened with
  | none => s.openGroup k s.foldUtc gfPower
  | some x =>
    let cut := max x.start (min x.stop (s.instantOf plans g.feeder))
    let s := s.setGroup k (fun g => { g with
      opened := some { x with stop := cut }
      early := (s.groupFeeds.filter (fun f => cut < f.2.stop && g.hasMember f.2.serial)).map (fun f => f.2) })
    ((s.endGroup k (if cut < x.stop then gfPower else 0)).applyGroup k).openGroup k s.foldUtc gfPower

/-! ### Settings and signatures -/

/-- The newest settings record of the journal. -/
def State.settingsRecord (s : State) : Option JournalRecord := (s.store.journal.filter (fun r => r.type = 7)).getLast?

/-- The clock policy and limit return with the contexts (R237). -/
def State.restorePolicy (s : State) : State :=
  match s.settingsRecord with
  | none => s
  | some r => { s with clock := { s.clock with policy := nth r.data 0, limit := nth r.data 1 } }

/-- Frame counter and polling return from the newest settings record (R313, R326). -/
def State.restoreSettings (s : State) : State :=
  match s.settingsRecord with
  | none => s
  | some r =>
    let counter := nth r.data 4 + 4096
    let s := s.setMesh (fun m => { m with counter := counter, journaled := counter })
    (if nth r.data 2 = 1 then s.startPolling (nth r.data 3) else s).journalSettings

/-- Each local context, live or parked, is feeder of the group that names it as reference, or of none (R216). -/
def State.reconcileFeeders (s : State) : State :=
  let group := fun (n : Nat) => (List.range 16).find? (fun k =>
    (nth s.bill.groups k).feeder = n || (nth s.bill.groups k).next.any (fun x => x.feeder = n))
  let set := fun (c : Context) =>
    if c.kind = 1 then c
    else match group c.serial with
      | some k => { c with kind := 2, feederOf := k }
      | none => { c with kind := 0, feederOf := 255 }
  { s with
    bill := { s.bill with live := s.bill.live.map set }
    store := { s.store with pool := s.store.pool.map (fun p => (set p.1, p.2)) } }

/-- A job asks for its signature unless it already waits. -/
def State.requeue (s : State) (job : SignJob) : State :=
  if s.sec.signing.contains job || s.sec.backlog.contains job then s else s.queueJob job

/-- Records still unsigned ask for their signatures again, oldest first (R404). -/
def State.requeueUnsigned (s : State) : State :=
  if !s.sec.identity then s
  else
    let s := (s.store.snapshots.reverse.filter (fun x => byteAt x.bytes 1048 = 0)).foldl (fun (s : State) x =>
      s.requeue (.snapshot x.serial x.period)) s
    let s := (s.store.tampers.reverse.filter (fun x => byteAt x.bytes 120 = 0)).foldl (fun (s : State) x =>
      s.requeue (.tamper x.serial x.number)) s
    (s.store.log.filter (fun x => x.kind = 0x0101 && (x.body.drop 88).all (fun b => b = 0))).foldl (fun (s : State) x =>
      s.requeue (.checkpoint x.sequence)) s

/-! ### The row -/

/-- Number of the first tick that the restored contexts take: the oldest held (R248). -/
def State.firstHeld (s : State) : Nat :=
  match s.meas.queue with
  | k :: _ => k.tick
  | [] => s.meas.nextTick

/-- The contexts, groups and settings return, and event source 151 says how many and how many records were replayed. -/
def State.restoreAll (s : State) : State :=
  let plans := s.plans
  let tick := s.firstHeld
  let start := s.utcBefore (tickStart tick)
  let replayed := (plans.map (fun p => (if p.ctx.kind = 1 then (s.laterFeeds p).length else 0) + ofBool (s.undone p))).sum
  let groups := s.bill.groups
  let slots := plans.map (fun p => p.ctx.slot)
  let s := { s with bill := { s.bill with
    groups := List.replicate 16 {}, free := (List.range 160).filter (fun k => !slots.contains k), nextFold := tick } }
  let s := plans.foldl (fun (s : State) p => s.restoreContext p tick start) s
  let s := { s with bill := { s.bill with groups := groups } }
  let s := ((List.range 16).foldl (fun (s : State) k => s.restoreGroup plans k) s).reconcileFeeders
  let s := { s with sec := { s.sec with tampLog := [], tampLost := 0 } }
  let s := { s with bill := { s.bill with relays := s.bill.relays.map (fun (r : Relay) => { r with driven := true }) } }
  let s := s.requeueUnsigned
  let s := match s.power.notBooted with
    | some (a, b, c) => s.raise 178 s.stampNow (objBody 0 (octets [a, b, c]))
    | none => s
  s.raise 151 s.stampNow (objBody 0 (countItem plans.length ++ countItem replayed))

/-- CONTEXT_RESTORE (R246): the contexts return, the relays are driven (R265), polling resumes, the warning is armed (R427) and the 60 s
of a trial begin (R415). -/
def execContextRestore (t : Nat) (s : State) : Out :=
  let s := s.tickTo t
  .next
    (if s.phase = .ready then
      let s := s.restorePolicy.restoreAll.restoreSettings.discoverRouteless
      { s with phase := .running, power := { s.power with armed := true }, sec := { s.sec with trialFrom := some s.now } }
    else s)

end Sys2Proof.Machine
end

