-- ==== Sys2Proof/Machine/Power.lean ====
section
/-! DEFINITION. Supplies, resets and start-up (chapter 14, R411-R416): the power warning and its commit, ride-through, the reset
kinds, boot, READY, and the supply and clock faults. -/

namespace Sys2Proof.Machine

/-! ### The power warning (R427, R432, Table 14.2) -/

/-- A format that runs is abandoned; the next start-up completes it (Table 14.10). -/
def State.abandonFormat (s : State) : State :=
  match s.store.formatting with
  | none => s
  | some (_, _, layout) => { s with store := { s.store with formatting := none, unfinished := some layout, state := 0 } }

/-- Capture writes that the warning cuts short: their records are discarded, and event source 144 waits for a ride-through (Table 12.22). -/
def State.cutCaptureWrites (s : State) : State :=
  { s with
    captures := s.captures.map (fun (c : Capture) => { c with writing := [] })
    power := { s.power with cutCaptures := s.power.cutCaptures ++
      (List.range 8).flatMap (fun k => (nth s.captures k).writing.map (fun _ => k)) } }

/-- Event source 144 of each capture write that the warning cut short. -/
def State.reportCutCaptures (s : State) : State :=
  s.power.cutCaptures.foldl (fun (s : State) k => s.raise 144 s.stampNow (objBody (ringHandle k) []))
    { s with power := { s.power with cutCaptures := [] } }

/-- What stops at a warning so that it does not compete with the commit (Table 14.2). -/
def State.stopForCommit (s : State) : State :=
  let s := (s.abortSweep stWrongState true).abandonFormat.cutCaptureWrites
  let s := { s with
    cal := { s.cal with abandoned := s.cal.storing.isSome }
    sec := { s.sec with stopped := true, engine := alter s.sec.engine 0 (fun _ => none) } }
  s.abandonUpdate.endFlights.stopFlight

/-- A warning latches: event source 168 with T_pf, then the commit, unless that of a RESET runs and serves (Table 14.10). -/
def State.latchWarning (s : State) : State :=
  let b := s.power.commit.getD (s.now / Config.tickLen * Config.tickLen)
  let s := { s with power := { s.power with armed := false, warning := some s.now, committed := false } }
  let s := s.raise 168 s.stampNow (objBody 0 (le 8 (s.stamp b)))
  s.stopForCommit.startCommit

/-- POWER_WARNING (R427): VSYS falls through the warning level while the warning is armed. -/
def execPowerWarning (t : Nat) (s : State) : Out :=
  let s := s.tickTo t
  .next (if s.phase = .running && s.power.armed then s.latchWarning else s)

/-- The commit's end marker, event source 170, and the checkpoint of the event log that follows it (R244, R392). -/
def State.endCommit (s : State) : State :=
  let p := s.power
  let count := (s.store.journal.filter (fun r => r.type = 5 && p.commitFirst ≤ r.sequence)).length
  let s := s.journalAdd { type := 6, provisional := p.rode, time := s.stampNow, data := [count, p.commitFirst] }
  let s := s.raise 170 s.stampNow (objBody 0 (countItem count ++ le 1 (ofBool p.rode) ++ durationItem (s.now - p.commitAt)))
  s.writeCheckpoint.commitOver

/-- A reset that was asked for follows the end of the commit, and ends 1 ms later (R440). -/
def State.pendingReset (s : State) : State :=
  match s.power.reset with
  | none => s
  | some r => s.resetNow r.cause (s.now + Config.ms)

/-- COMMIT_END (R436): the end marker is written; where a reset was asked for it follows, at once where no commit is due. -/
def execCommitEnd (t : Nat) (s : State) : Out :=
  let s := s.tickTo t
  .next
    (if s.phase = .held then s
     else if s.power.commit.isSome then s.endCommit.pendingReset
     else s.pendingReset)

/-! ### Ride-through (R435, R249) -/

/-- The recovery dwell, at least 4.9 ms (Table 14.1), in ticks. -/
def recoveryDwell : Nat := 78400

/-- The records of the commit that are written from now on are PROVISIONAL (Table 12.16); how many are written already, no rule states. -/
def State.markProvisional (s : State) : State :=
  if s.power.commit.isNone then s
  else
    let d := s.draw
    let from_ := s.power.commitFirst + d.1 % (s.store.nextJournal - s.power.commitFirst + 1)
    { d.2 with store := { d.2.store with
        journal := alterWhere d.2.store.journal (fun r => from_ ≤ r.sequence) (fun r => { r with provisional := true }) } }

/-- RIDE_THROUGH (R435): the warning clears; the commit that still runs becomes provisional, and the checkpoint of R249 follows. -/
def execRideThrough (t : Nat) (lowest : F32) (s : State) : Out :=
  let s := s.tickTo t
  .next
    (match s.power.warning with
     | none => s
     | some w =>
       if s.now < w + recoveryDwell then s
       else
         let s := (s.raise 169 s.stampNow (objBody 0 (durationItem (s.now - w) ++ f32Bytes lowest))).markProvisional
         let s := { s with
           power := { s.power with
             warning := none, rode := s.power.commit.isSome, rideCheckpoint := s.power.commit.isNone
             committed := false }
           sec := { s.sec with stopped := false } }
         s.reportCutCaptures.releaseStep)

/-- RIDE_THROUGH_CHECKPOINT_END (R435): checkpoints of every live context, and the warning is armed again; it latches at once if VSYS is
still below the warning level (Table 14.10). -/
def execRideThroughCheckpointEnd (t : Nat) (belowWarning : Bool) (s : State) : Out :=
  let s := s.tickTo t
  .next
    (if s.phase = .running && s.power.rideCheckpoint && s.power.commit.isNone then
      let s := s.finishDue
      let s := s.checkpointAll s.foldUtc
      let s := { s with power := { s.power with armed := true, rideCheckpoint := false, committed := false, rode := false } }
      if belowWarning then s.latchWarning else s.releaseStep
    else s)

/-! ### Resets (Table 14.5) -/

/-- A power-on reset allows debug authentication again (R422). One that comes while another reset holds the part does not shorten that
reset. -/
def State.powerOn (s : State) (cause until_ : Nat) : State :=
  let notBefore := match s.power.reset with
    | some r => if s.phase = .held then max r.notBefore until_ else until_
    | none => until_
  let s := s.resetNow cause notBefore
  { s with sec := { s.sec with debugFailures := 0 } }

/-- The battery domain is lost: secure SRAM, the gatehouse totals and the RTC (R401, R431, R453). -/
def State.loseBattery (s : State) : State :=
  { s with
    clock := { s.clock with rtcValid := false, rtcValidFrom := 0, rtcRuns := true, rtcCount := 0, rtcAt := s.now }
    sec := { s.sec with network := none, networkCopy := none, tampLog := [], tampLost := 0 }
    bill := { s.bill with tamp := s.bill.tamp.map (fun (x : TampInput) => { x with activeHigh := false }) }
    gate := {}
    power := { s.power with batteryLost := true, rtcMark := true, vbatMarks := [], causeFlags := 0 } }

/-- The vault's check of the battery domain at a start (R431): the two copies of the keys and totals, against each other and against their
check values, whose result the row carries, and the stop flag of the RTC oscillator. -/
def State.batteryFails (s : State) (values : Bool) : Bool :=
  values || !s.clock.rtcRuns || s.sec.network ≠ s.sec.networkCopy || s.sec.storeKey ≠ s.sec.storeKeyCopy ||
    s.gate.totals ≠ s.gate.totalsCopy

/-- A power loss while a copy of the boot table is written leaves the other one; one between the steps of R415 leaves the counter as it was,
and event source 177 unraised (R425). How long a write takes, and what a loss in that time cuts, is free (log 98). -/
def State.cutBoot (s : State) : State :=
  match s.store.bootWrite, s.store.bootSpare with
  | some w, some other =>
    if w.at_ + Config.bootWriteTicks < s.now then s
    else
      let d := s.draw
      let lost : StoreState := { d.2.store with
        boot := other, bootSpare := none
        unfinished := if other.layout = d.2.store.boot.layout then d.2.store.unfinished else some other.layout }
      match w.confirms with
      | none => if d.1 % 2 = 1 then { d.2 with store := lost } else d.2
      | some (counter, revoked, next, chain) =>
        if next + 1 < d.2.store.nextLog || d.1 % 3 = 0 then d.2
        else
          let x := if d.1 % 3 = 1 then d.2.store else lost
          { d.2 with
            store := { x with log := x.log.filter (fun r => r.sequence < next), nextLog := next, chain := chain }
            sec := { d.2.sec with counter := counter, revoked := revoked } }
  | _, _ => s

/-- POWER_ON_RESET (R440): VSYS at the reset level, or first power. The reset ends 5.0 ms after power-up. The check of the battery domain is
made here (DESIGN CHOICE, log 95). -/
def execPowerOnReset (t : Nat) (batteryLost : Bool) (s : State) : Out :=
  let s := s.tickTo t
  let lost := s.batteryFails batteryLost
  let s := s.cutBoot.powerOn (ofBool lost) (s.now + 5 * Config.ms)
  .next (if lost then s.loseBattery else s)

/-- RESET_N (R441): a low level of at least 100 ns; the part stays in reset while it lasts. -/
def execResetN (t lowNs : Nat) (s : State) : Out :=
  let s := s.tickTo t
  let release := s.now + (lowNs * 16 + 999) / 1000
  .next
    (if lowNs < 100 then s
     else if s.phase = .held then
       { s with power := { s.power with reset := s.power.reset.map (fun (r : PendingReset) =>
           { r with notBefore := max r.notBefore release }) } }
     else s.resetNow 2 release)

/-- WATCHDOG_EXPIRY (R442): 500 ms without a service. -/
def execWatchdogExpiry (t : Nat) (s : State) : Out :=
  let s := s.tickTo t
  .next
    (if s.power.watchdog && s.phase ≠ .held && s.phase ≠ .gatehouse && s.power.watchdogAt + 500 * Config.ms ≤ s.now then
      s.resetNow 5 (s.now + Config.ms)
    else s)

/-- VCORE_FAULT (R428): a power-on reset without a commit, also while another reset holds the part. -/
def execVcoreFault (t : Nat) (s : State) : Out :=
  let s := s.tickTo t
  .next (s.powerOn 8 (s.now + 5 * Config.ms))

/-- REFERENCE_LOSS (R454): the part is held in reset until the 32 MHz reference returns; start-up follows as a power-on reset. -/
def execReferenceLoss (t : Nat) (s : State) : Out :=
  let s := (s.tickTo t).powerOn 7 (max s.now t + 5 * Config.ms)
  .next { s with clock := { s.clock with referenceLost := true } }

/-! ### Boot (R413-R416) -/

/-- A slot passes the checks of the ROM. What the factory image holds is not known; it was valid when the part was made. -/
def State.slotPasses (s : State) (k : Nat) : Bool :=
  let x := s.slot k
  x.state = 1 && s.sec.counter ≤ x.version && (x.image.isEmpty || imageStatus x.image s.sec.counter s.sec.revoked = stOk)

/-- The slot the boot table names, and the table the ROM leaves (R414). -/
def State.chooseSlot (s : State) : Nat × State :=
  let b := s.store.boot
  if b.trialState = 1 then (b.trial, s.setBoot (fun b => { b with trialState := 2 }))
  else if b.trialState = 2 then
    let s := s.setBoot (fun b => { b with trial := 255, trialState := 0 })
    (b.active, { s with power := { s.power with notBooted := some (b.trial, b.active, 0) } })
  else (b.active, s)

/-- The ROM writes the table and boots the slot chosen, or the other if that one fails; it runs recovery where no slot passes (R414). -/
def State.boot (s : State) : Bool × State :=
  let a := s.chooseSlot
  if a.2.slotPasses a.1 then (true, a.2)
  else
    match [0, 1].find? (fun k => k ≠ a.1 && a.2.slotPasses k) with
    | some k => (true, { a.2 with power := { a.2.power with notBooted := some (a.1, k, 1) } })
    | none => (false, { a.2 with power := { a.2.power with notBooted := none } })

/-! ### Start-up (Table 14.4) -/

/-- Event source 171: start or end, and VBAT. -/
def State.batteryEvent (s : State) (ended : Bool) (volts : F32) : State :=
  s.raise 171 s.stampNow (objBody 0 (le 1 (ofBool ended) ++ f32Bytes volts))

/-- The timebase of UTC is set from the RTC (R453), and the marks the vault made while S did not run raise their events (R243, R454;
R431, DESIGN CHOICE, log 95). -/
def State.startClock (s : State) : State :=
  let u := s.rtcNow
  let marks := s.power.vbatMarks
  let s := { s with
    clock := { s.clock with mapSet := true, mapTick := s.now, mapUtc := u }, power := { s.power with vbatMarks := [] } }
  let s := marks.foldl (fun (s : State) (m : Bool × F32) => s.batteryEvent m.1 m.2) s
  if s.power.rtcMark then
    let s := { s with power := { s.power with rtcMark := false } }
    let s := s.raise 94 s.stampNow (objBody 0 [])
    if s.clock.rtcRuns then s else s.raise 175 s.stampNow (objBody 0 (le 1 1))
  else s

/-- A transition that step 2 made irrevocable is completed (R410). -/
def State.completeTransition (s : State) : State :=
  let old := s.sec.storeKeyState
  if old = s.sec.lifecycle then s
  else
    let s := s.finishTransition
    { s with sec := { s.sec with advanced := some (old, s.sec.lifecycle), debugClosed := s.sec.debugClosed || old = 0 } }

/-- The battery domain was lost (R401). -/
def State.keysGone (s : State) : State :=
  ({ s with sec := { s.sec with keysLost := true }, power := { s.power with batteryLost := false } } : State).raise 183 s.stampNow (objBody 0 [])

/-- A cut transition is completed, with its format (R410); a store without a valid format or key, or one whose format was cut short, is
formatted with the sizes of the boot table (R401, R409, Table 14.10). -/
def State.startStore (s : State) : State :=
  let lost := s.power.batteryLost
  let bad : Bool := lost || s.store.state = 0 || s.store.unfinished.isSome
  let formats := decide (s.sec.storeKeyState = s.sec.lifecycle) && bad
  let s := s.completeTransition
  let s := if formats then s.formatStore s.store.boot.layout else s
  let s := if bad then s.raise 148 s.stampNow (objBody 0 []) else s
  if lost then s.keysGone else s

/-- The factory trims of a unit (R165); a lane's own delay part is 0. -/
def factoryTrims (u : Nat) : List Int :=
  (List.range 26).map (fun i => if 24 ≤ u && i = 25 then 0 else Config.factoryTrim u i)

/-- Factory values, then the slot that asks to be restored at boot (R165, R173); with no valid slot, a health-log entry whose kind no
rule states (log 32). -/
def State.startCal (s : State) : State :=
  let s := { s with converters := s.converters.mapIdx (fun u (c : Converter) =>
    { c with cal := { c.cal with target := factoryTrims u, old := factoryTrims u } }) }
  match s.cal.newest with
  | some k =>
    match nth s.cal.slots k with
    | some c => if c.atBoot then s.restoreCal c false else s
    | none => s
  | none =>
    let d := s.draw
    d.2.healthLog { kind := 152 + d.1 % 16, time := d.2.stampNow }

/-- OTP bits that an interrupted confirmation left out are programmed by the firmware of the active slot (R415). -/
def State.startOtp (s : State) : State :=
  if s.store.boot.trialState = 0 && s.runningSlot = s.store.boot.active then s.programOtp (s.slot s.store.boot.active) else s

/-- The firmware starts: vault and engine derive K_link from a fresh nonce and the pairing secret (R402). -/
def State.startFirmware (s : State) : State :=
  let link := deriveLink (le 32 Config.pairingSecret) (le 16 (Config.random s.draws))
  let s := { s with phase := .booting, draws := s.draws + 1, sec := { s.sec with link := some s.draws, linkKey := some link } }
  let s := s.startClock.startStore.startCal.startOtp
  { s with power := { s.power with causeFlags := s.power.causeFlags ||| s.restoreFlags } }

/-- The reset ends: straps and VIO settings are sensed, and the watchdog is armed (R437, R34, R416, R461). -/
def State.endReset (s : State) (h1mode bootsel : Bool) (vioH vioS : Nat) : State :=
  { s with
    host := { s.host with h1Uart := h1mode, bootsel := bootsel }
    clock := { s.clock with referenceLost := false }
    pins := { s.pins with tariffAt := s.now }
    power := { s.power with
      reset := none, vioH := decide (2400 ≤ vioH), vioS := decide (2400 ≤ vioS), watchdog := true, watchdogAt := s.now } }

/-- START_UP (R437): the reset ends, and the ROM boots an image or runs recovery. Rails in mV. -/
def execStartUp (t : Nat) (h1mode bootsel : Bool) (vioH vioS : Nat) (s : State) : Out :=
  let s := s.tickTo t
  .next
    (if s.phase = .held && s.power.reset.all (fun r => r.notBefore ≤ s.now) then
      let s := s.endReset h1mode bootsel vioH vioS
      if bootsel || s.power.cause = 4 then { s with phase := .recovery }
      else if s.boot.1 then s.boot.2.startFirmware
      else { s.boot.2 with phase := .recovery }
    else s)

/-- Sources 172, 167, 182 and 179 join the event log at start-up, 167 with its health-log entry (R355, R391); sessions receive them at their OPEN
(R445, R365, R409). -/
def State.startEvents (s : State) : State :=
  let s := s.raise 172 s.stampNow (objBody 0 (le 1 s.power.cause ++ le 2 s.power.causeFlags))
  let s := if s.gate.episodeEnded then s.note 167 2 0 0 10 else s
  let s := if s.sec.debugClosed then ({ s with sec := { s.sec with debugClosed := false } } : State).debugEvent 1 else s
  match s.sec.advanced with
  | none => s
  | some a => s.raise 179 s.stampNow (objBody 0 (le 1 a.1 ++ le 1 a.2))

/-- READY (R438, Table 14.4): the start-up SYNC opens epoch 1, and ticks begin. The 10-minute period and the 2-hour
window in progress are those that hold this instant, cut short (R185; their start is the model's, log 75). The sample phase is a free value. -/
def execReady (t : Nat) (s : State) : Out :=
  let s := s.tickTo t
  .next
    (if s.phase = .booting then
      let d := s.draw
      let s := { d.2 with samplePhase := d.1 % 4 }
      let s := s.syncAt [1, 2, 3, 4, 5] (s.rawInstant s.now)
      let s := { s with
        phase := .ready, power := { s.power with readyUtc := s.stampNow }
        meas := { s.meas with
          nextTick := firstTickAfter s.now, tenStart := some s.stampNow, twoStart := some s.stampNow }
        bill := { s.bill with nextFold := firstTickAfter s.now } }
      s.startEvents
    else s)

/-! ### Supply faults (R429-R431) -/

/-- Event source 174: kind 0 VANA, 1 VIO_S; start or end; voltage. -/
def State.supplyEvent (s : State) (kind : Nat) (ended : Bool) (volts : F32) : State :=
  s.raise 174 s.stampNow (objBody 0 (octets [kind, ofBool ended] ++ f32Bytes volts))

/-- An integrator has a channel that one of some dies delivers. -/
def State.fedBy (s : State) (x : Integrator) (dies : List Nat) : Bool :=
  (s.meas.config.uses x.system x.object).any (fun n => (s.carrierUnit n).any (fun u => dies.contains (dieOfUnit u)))

/-- The greatest VANA fault level and the least recovery level (Table 14.1): a voltage beyond them cannot have tripped a comparator, whose
own level lies between the limits (log 95). -/
def vanaFaults (volts : F32) : Bool := decide (f32Val volts < 303 / 100)

def vanaRecovers (volts : F32) : Bool := decide (307 / 100 ≤ f32Val volts)

/-- VANA_SUPPLY_FAULT (R429): three or more dies; their channels deliver nothing, and energy is carried for 100 ms. In gatehouse mode a
belvedere among them stops the totals (R360, DEDUCED, log 95). -/
def execVanaSupplyFault (t : Nat) (dies : List Nat) (volts : F32) (s : State) : Out :=
  let s := s.tickTo t
  let ds := dies.eraseDups
  guarded (dies.all isAcquisition)
    (if ds.length < 3 || !vanaFaults volts then s
     else if s.phase = .gatehouse then { s with gate := { s.gate with fault := s.gate.fault || ds.contains 5 } }
     else if (s.phase = .ready || s.phase = .running) && s.health.vanaFault.isNone then
      let until_ := gridUnit * (s.now + 100 * Config.ms)
      let s := { s with
        health := { s.health with vanaFault := some s.now, vanaDies := ds }
        meas := { s.meas with integrators := s.meas.integrators.map (fun (x : Integrator) =>
          if s.fedBy x ds then { x with gapFrom := some until_ } else x) } }
      s.supplyEvent 0 false volts
    else s)

/-- VANA_RECOVERY (R429): VANA has been above its recovery level for 5 ms. SYNC to A0-A4, which aborts a sweep as any SYNC does (R162); the
tracker acquires, and the fault has ended. -/
def execVanaRecovery (t : Nat) (volts : F32) (s : State) : Out :=
  let s := s.tickTo t
  .next
    (if vanaRecovers volts && s.health.vanaFault.any (fun x => x + 5 * Config.ms ≤ s.now) then
      let s := { s with
        health := { s.health with vanaFault := none, vanaDies := [] }
        meas := { s.meas with integrators := s.meas.integrators.map (fun (x : Integrator) => { x with gapFrom := none }) } }
      (s.synchronise [1, 2, 3, 4, 5]).supplyEvent 0 true volts
    else s)

/-- The VIO_S fault level of the setting in force, its maximum (Table 14.1). -/
def State.vioLevel (s : State) : Rat := if s.power.vioS then 290 / 100 else 166 / 100

/-- VIO_S is back in range: no lower than the least fault level of the setting in force (Table 14.1). -/
def State.vioInRange (s : State) (volts : F32) : Bool := decide ((if s.power.vioS then 280 / 100 else 160 / 100 : Rat) ≤ f32Val volts)

/-- VIO_S_FAULT (R430): the store becomes read-only; a commit of a latched warning is abandoned without its end marker. -/
def execVioSFault (t : Nat) (volts : F32) (s : State) : Out :=
  let s := s.tickTo t
  .next
    (if s.phase ≠ .held && !s.power.vioFault && decide (f32Val volts < s.vioLevel) then
      let s := { s with power := { s.power with vioFault := true, vioFaultAt := s.now } }
      let s := if s.power.commit.isSome then s.commitOver else s
      let s := if s.store.state = 1 then
          let s := s.storeReadOnly
          { s with store := { s.store with vioOnly := true } }
        else s
      s.supplyEvent 1 false volts
    else s)

/-- VIO_S_RECOVERY (R430): VIO_S has been back in range for 5 ms, and the store is writable again. -/
def execVioSRecovery (t : Nat) (volts : F32) (s : State) : Out :=
  let s := s.tickTo t
  .next
    (if s.power.vioFault && s.vioInRange volts && s.power.vioFaultAt + 5 * Config.ms ≤ s.now then
      let s := { s with power := { s.power with vioFault := false } }
      let s := if s.store.vioOnly then
          ({ s with store := { s.store with vioOnly := false, state := if s.store.state = 2 then 1 else s.store.state } } : State).raise
            147 s.stampNow (objBody 0 (le 1 1))
        else s
      s.supplyEvent 1 true volts
    else s)

/-- VBAT passes its low or its clear level: the event is raised, or marked by the vault while S does not run (log 95). -/
def State.batteryPasses (s : State) (low : Bool) (volts : F32) : State :=
  let s := { s with power := { s.power with vbatLow := low } }
  if s.firmware then s.batteryEvent (!low) volts
  else { s with power := { s.power with vbatMarks := s.power.vbatMarks ++ [(!low, volts)] } }

/-- VBAT_LOW (R431): VBAT has fallen through the low level, 2.35 V at most. -/
def execVbatLow (t : Nat) (volts : F32) (s : State) : Out :=
  let s := s.tickTo t
  .next (if s.power.vbatLow || decide (235 / 100 ≤ f32Val volts) then s else s.batteryPasses true volts)

/-- VBAT_LOW_CLEAR (R431): VBAT has risen through the clear level, 2.35 V at least. -/
def execVbatLowClear (t : Nat) (volts : F32) (s : State) : Out :=
  let s := s.tickTo t
  .next (if s.power.vbatLow && decide (235 / 100 ≤ f32Val volts) then s.batteryPasses false volts else s)

/-! ### The modem crystal (R454) -/

/-- The line functions stop at a loss of the link to M (Table 1.2): the frame in flight completes, nothing further is sent (Table 9.9). -/
def State.stopLine (s : State) : State := s.endFlights.setLine (fun l => { l with queue := [], receiving := false })

/-- MODEM_CRYSTAL_LOSS (R454). -/
def execModemCrystalLoss (t : Nat) (s : State) : Out :=
  let s := s.tickTo t
  .next
    (if s.firmware && !s.clock.modemLost then
      let s := { s with clock := { s.clock with modemLost := true } }
      s.endFlights.stopFlight.stopLine.raise 175 s.stampNow (objBody 0 (le 1 0))
    else s)

end Sys2Proof.Machine
end

