-- ==== Sys2Proof/Machine/Varfin.lean ====
section
/-! DEFINITION. The Varfin links (R21-R26): frames, acknowledgement and resend, lane loss, retraining and return, and what the loss of a
whole link does (Table 1.2). -/

namespace Sys2Proof.Machine

/-- S runs, so that the links carry traffic. -/
def State.linked (s : State) : Bool := s.firmware || s.phase = .recovery

/-! ### Frames (R21, R22) -/

/-- The lane of a link other than `k`. -/
def otherLane (k : Nat) : Nat := 1 - k

/-- A lane of a link. -/
def Link.lane (x : Link) (k : Nat) : LinkLane := nth x.lanes k

/-- A lane of a link changed. -/
def Link.setLane (x : Link) (k : Nat) (f : LinkLane → LinkLane) : Link := { x with lanes := alter x.lanes k f }

/-- The sender keeps a frame in the replay buffer of 32 from its first transmission on. -/
def Link.sent (x : Link) (lane seq now : Nat) : Link :=
  if x.replay.any (fun h => h.seq = seq) || seq < x.delivered || x.delivered + 32 ≤ seq || x.ahead.contains seq then x
  else { x with replay := x.replay ++ [{ seq := seq, lane := lane, sentAt := now }] }

/-- Frames that follow in order are delivered: at most the 32 of the buffer. -/
def Link.deliverAhead : Nat → Link → Link
  | 0, x => x
  | n + 1, x =>
    if x.ahead.contains x.delivered then
      Link.deliverAhead n { x with delivered := x.delivered + 1, ahead := x.ahead.filter (fun q => q ≠ x.delivered) }
    else x

/-- A frame passes its CRC check: it is acknowledged, and delivered once, in its order; a repeat is acknowledged only. -/
def Link.passes (x : Link) (lane seq : Nat) : Link :=
  let x := x.setLane lane (fun l => { l with failed := 0 })
  let x := { x with replay := x.replay.filter (fun h => h.seq ≠ seq) }
  if seq < x.delivered || x.delivered + 32 ≤ seq || x.ahead.contains seq then x
  else Link.deliverAhead 32 { x with ahead := x.ahead ++ [seq] }

/-- A frame fails: the receiver asks for it again, and after four failures on a lane it goes on the other one, if that works. -/
def Link.fails (x : Link) (lane seq now : Nat) : Link :=
  let x := x.setLane lane (fun l => { l with failed := l.failed + 1 })
  let other := (x.lane (otherLane lane)).up
  { x with replay := x.replay.map (fun (h : HeldFrame) =>
      if h.seq = seq then
        if 4 ≤ h.failures + 1 && other then { h with lane := otherLane lane, sentAt := now, failures := 0 }
        else { h with sentAt := now, failures := min 4 (h.failures + 1) }
      else h) }

/-- Frames of the replay buffer are resent on a lane. -/
def Link.moveTo (x : Link) (lane now : Nat) : Link :=
  { x with replay := x.replay.map (fun (h : HeldFrame) => { h with lane := lane, sentAt := now, failures := 0 }) }

/-! ### Loss of a lane (R23, Table 1.2) -/

/-- What the loss of both lanes of a link does at once: the belvedere leaves service, the line functions stop. A die A0-A3 fails by
DIE_FAILURE, and the vault waits 50 ms. Without the link to the vault no signature can be made: event source 181 (Table 13.11). -/
def State.linkGone (s : State) (d : Nat) (belvedere : Bool) : State :=
  let s := s.setLink d (fun x => { x with lostAt := some s.now })
  if d = 5 then (if belvedere && (s.phase = .ready || s.phase = .running) then s.belvedereOut else s)
  else if d = 6 then s.stopLine
  else if d = 7 && s.firmware && s.sec.identity then s.backlogEvent
  else s

/-- A lane is declared lost: the other takes all traffic and the frames of the replay buffer; event source 155. A drain has gone at the
rate of the lanes that worked until now (R26). -/
def State.loseLane (s : State) (d k : Nat) : State :=
  let up := s.belvedereUp
  let s := s.settleDrains d
  let s := s.setLink d (fun x =>
    (x.setLane k (fun _ => { up := false, since := s.now })).moveTo (otherLane k) s.now)
  let s := s.note 155 1 (dieHandle d) 0 5
  if s.linkLost d then s.linkGone d up else s

/-- VARFIN_FRAME (R22): frame `seq` of a link arrives on a lane; 16 failures in a row lose the lane (R23). On a lane that carries
link-test frames, a failure ends the test (R24): the next training comes 100 ms (for a lost link to V 1 ms) after that frame, DESIGN CHOICE
(log 84). -/
def execVarfinFrame (t link lane seq : Nat) (crcOk : Bool) (s : State) : Out :=
  let s := s.tickTo t
  guarded (isLinked link && lane < 2)
    (if !s.linked then s
    else if ((s.die link).link.lane lane).up then
      let s := s.setLink link (fun x =>
        let x := x.sent lane seq s.now
        if crcOk then x.passes lane seq else x.fails lane seq s.now)
      if 16 ≤ ((s.die link).link.lane lane).failed then s.loseLane link lane else s
    else if ((s.die link).link.lane lane).testing && !crcOk then
      s.setLink link (fun x => x.setLane lane (fun l => { l with testing := false, since := s.now }))
    else s)

/-- VARFIN_RESEND_TIMEOUT (R22): frames not acknowledged for 4 us are sent again. -/
def execVarfinResendTimeout (t link : Nat) (s : State) : Out :=
  let s := s.tickTo t
  guarded (isLinked link)
    (if s.linked && !s.linkLost link then
      s.setLink link (fun x => { x with replay := x.replay.map (fun (h : HeldFrame) =>
        if h.sentAt + 64 ≤ s.now then { h with sentAt := s.now } else h) })
    else s)

/-- LANE_LOSS (R23): symbol lock lost for 10 us. -/
def execLaneLoss (t die lane : Nat) (s : State) : Out :=
  let s := s.tickTo t
  guarded (isLinked die && lane < 2)
    (if s.linked && ((s.die die).link.lane lane).up then s.loseLane die lane else s)

/-! ### Retraining (R24) -/

/-- Ticks between two trainings of a lost lane, and of the link test before it returns: shorter on the link to V while it is lost. -/
def State.trainTicks (s : State) (d : Nat) : Nat × Nat :=
  if d = 7 && s.linkLost 7 then (Config.ms, Config.ms) else (100 * Config.ms, Config.ticksPerSecond)

/-- LANE_RETRAIN (R24): a lost lane is trained and carries link-test frames from now on. -/
def execLaneRetrain (t die lane : Nat) (s : State) : Out :=
  let s := s.tickTo t
  let l := (s.die die).link.lane lane
  guarded (isLinked die && lane < 2)
    (if s.linked && !l.up && !l.testing && l.since + (s.trainTicks die).1 ≤ s.now then
      s.setLink die (fun x => x.setLane lane (fun l => { l with testing := true, since := s.now }))
    else s)

/-- A lane works again: event source 155, and a link that was lost is back; frames that waited for the vault's keys are opened in order
(Table 1.2). -/
def State.returnLane (s : State) (d k : Nat) : State :=
  let lost := s.linkLost d
  let s := s.settleDrains d
  let s := s.setLink d (fun x => x.setLane k (fun _ => { since := s.now }))
  let s := s.note 155 2 (dieHandle d) 0 5
  if lost then
    let s := s.setLink d (fun x => { (x.moveTo k s.now) with lostAt := none })
    if d = 5 && s.belvedereUp && (s.phase = .ready || s.phase = .running) then s.belvedereBack
    else if d = 7 then s.openKeyless
    else s
  else s

/-- LANE_RETURN (R24): the link test has run for its time without error. -/
def execLaneReturn (t die lane : Nat) (s : State) : Out :=
  let s := s.tickTo t
  let l := (s.die die).link.lane lane
  guarded (isLinked die && lane < 2)
    (if s.linked && !l.up && l.testing && l.since + (s.trainTicks die).2 ≤ s.now then s.returnLane die lane else s)

end Sys2Proof.Machine
end

