-- ==== Sys2Proof/Machine/Gatehouse.lean ====
section
/-! DEFINITION. Gatehouse mode (R359-R365): entry, the tally, and the register set of Table 11.8. -/

namespace Sys2Proof.Machine

/-! ### The register set (Table 11.8) -/

/-- The tally runs: its lanes deliver valid narrowband streams (R361). -/
def State.tallies (s : State) : Bool :=
  s.phase = .gatehouse && !s.gate.fault && (List.range 6).all (fun k => s.unitValid (24 + k))

/-- CONFIG_VALID: CH0-CH2 have role 1, and CH3-CH5 role 4 (R361). -/
def State.tallyConfig (s : State) : Bool :=
  (s.copies.channels.map (fun (c : ChannelConfig) => c.role)) = [1, 1, 1, 4, 4, 4]

/-- Bytes 0 to 123. -/
def State.gateBytes (s : State) : List Byte :=
  let g := s.gate
  le 2 1 ++ le 1 (ofBool (s.phase = .gatehouse)) ++ le 1 g.cause ++ le 4 g.episodes ++ le 8 g.entry ++ le 8 g.exit ++
  le 1 (ofBool s.tallies + 2 * ofBool s.tallyConfig + 4 * ofBool g.fault + 8 * ofBool (!s.clock.rtcValid) + 16 * ofBool s.pins.alarm) ++
  le 1 (laneBits (fun n => !(s.chan n).fast.armed)) ++ zeros 2 ++ le 4 g.ticks ++ g.totals.flatMap (le 6) ++ g.entryTotals.flatMap (le 6) ++
  g.rms.flatMap (le 2) ++ zeros 8

/-- The 128 bytes. -/
def State.gateRegister (s : State) : List Byte := s.gateBytes ++ le 4 (crc32c s.gateBytes)

def gatehouseReadRow : Row where
  opcode := 0x000A
  gate := some (fun _ s => .done stOk s.gateRegister s)
  body := fun _ s => .done stOk s.gateRegister s

/-- GATEHOUSE_READ (R363). -/
def execGatehouseRead (t : Nat) (p : Port) (s : State) : Out := .next (gatehouseReadRow.serve t p s)

/-! ### Entry (R359, R360) -/

/-- Restarts of any pair in the last 10 s. -/
def State.restartsReported (s : State) : Nat :=
  (s.health.recent.filter (fun x => decide (s.now < x.2 + 10 * Config.ticksPerSecond))).length

/-- Whether a case of R359 holds. -/
def State.gateCause (s : State) (cause : GatehouseCause) : Bool :=
  match cause with
  | .restarts => 3 ≤ s.restartsReported
  | .restartNotComplete => s.health.recent.any (fun x => decide (x.2 + 20 * Config.ms < s.now))
  | .linkLost => s.linkLost 7 && (s.die 7).link.lostAt.any (fun a => decide (a + 50 * Config.ms < s.now))

/-- Byte 3 of Table 11.8. -/
def causeByte (cause : GatehouseCause) : Nat :=
  match cause with
  | .restarts => 1
  | .restartNotComplete => 2
  | .linkLost => 3

/-- The vault's state at entry: a new episode over the copies it holds. -/
def State.openEpisode (s : State) (cause : GatehouseCause) : GatehouseState :=
  let g := s.copies
  { g with
    cause := causeByte cause, episodes := sat 32 (g.episodes + 1), entry := s.rtcNow, exit := 0, fault := !s.belvedereUp, ticks := 0
    rest := List.replicate 6 0, entryTotals := g.totals, rms := List.replicate 6 0, tickAt := nextBoundary s.now, unseen := true
    episodeEnded := false, work := List.replicate 3 0, squares := List.replicate 6 0, counted := List.replicate 6 0, secondTicks := 0 }

/-- CH0-CH5 as their lanes run them: the copies of banks, delay trims and fast windows. -/
def GatehouseState.channel (g : GatehouseState) (n : Nat) : Channel :=
  { carrier := .lane n, fast := nth g.windows n, bankA := nth g.banks n, hostDelay := nth g.delays n }

/-- A lane that selects a channel for the tally. -/
def Converter.forTally (c : Converter) (n : Nat) : Converter := { c with job := none, selects := some n, held := none }

/-- Gatehouse mode: S, A0-A3 and M stop as at a reset, every repair stops, and the lanes of the belvedere select CH0-CH5. The pins go to
their reset levels. The entry writes no commit, and an open update is abandoned (R417). -/
def State.enterGatehouse (s : State) (cause : GatehouseCause) : State :=
  let s := s.abandonUpdate
  let g := s.openEpisode cause
  let r := s.cutTransition.enterReset s.power.cause s.now
  let r := { r with
    phase := .gatehouse
    host := { r.host with h1Uart := s.host.h1Uart, bootsel := s.host.bootsel }
    channels := (List.range 24).map (fun n => if n < 6 then g.channel n else {})
    converters := (List.range 30).map (fun u => if u < 24 then {} else (s.conv u).forTally (u - 24))
    dies := (List.range 8).map (fun d => if d = 5 then s.die 5 else {})
    samplePhase := s.samplePhase
    gate := g
    power := { r.power with reset := none, causeFlags := s.power.causeFlags } }
  (List.range 6).foldl (fun (s : State) k => s.disturb (24 + k)) r

/-- GATEHOUSE_ENTRY (R359). -/
def execGatehouseEntry (t : Nat) (cause : GatehouseCause) (s : State) : Out :=
  let s := s.tickTo t
  .next (if s.linked && s.gateCause cause then s.enterGatehouse cause else s)

/-! ### The tally (R361) -/

/-- Energy joins one of the six totals with its residue; what a total holds past its 48 bits, no rule states (log 11). -/
def State.addTotal (s : State) (k : Nat) (mwh : Rat) : State :=
  let x := nth s.gate.rest k + mwh
  let sum := nth s.gate.totals k + x.floor.toNat
  let d := if sum < 2 ^ 48 then (sum, s) else (s.draw.1 % 2 ^ 48, s.draw.2)
  { d.2 with gate := { d.2.gate with
      totals := alter d.2.gate.totals k (fun _ => d.1), totalsCopy := alter d.2.gate.totalsCopy k (fun _ => d.1), rest := alter d.2.gate.rest k (fun _ => x - x.floor) } }

/-- The energy of an element over a tick joins its import or its export total. -/
def State.addElement (s : State) (i : Nat) (mwh : Rat) : State :=
  if mwh ≥ 0 then s.addTotal (2 * i) mwh else s.addTotal (2 * i + 1) (-mwh)

/-- What a stream value of a channel is in volts or amperes, by the vault's copies of its scale and polarity (R176, R361). -/
def GatehouseState.factor (g : GatehouseState) (n : Nat) : Rat :=
  let k := f32Val (nth g.channels n).scale
  (if (nth g.channels n).polarity = 1 then -k else k) / 4194304

/-- The energy of element `i` in the tick in progress, in mWh: a narrowband sample is 8 us (R109, R361). -/
def GatehouseState.energy (g : GatehouseState) (i : Nat) : Rat := g.factor i * g.factor (i + 3) * (nth g.work i : Rat) / 450000

/-- The RMS of a lane over a second in raw LSB, 64 stream steps each; its rounding is free (Table 11.8, log 12). -/
def secondRms (squares count : Nat) : Nat :=
  let n := 4096 * max 1 count
  let r := isqrt (squares / n)
  sat 16 (if r * r * n = squares then r else r + (if Config.roundsUp 23 squares then 1 else 0))

/-- One tick of the tally: the energies of its elements, and every 100 ticks the RMS of the second. A tick takes the samples delivered in it
(log 82). -/
def State.tally (s : State) : State :=
  let g := s.gate
  let s := (List.range 3).foldl (fun (s : State) i => s.addElement i (g.energy i)) s
  { s with gate := { s.gate with ticks := sat 32 (s.gate.ticks + 1) } }

/-- The tick in progress ends: its products start again, and after 100 of them the squares of the second (Table 11.8). -/
def GatehouseState.nextTick (g : GatehouseState) : GatehouseState :=
  let g := { g with work := List.replicate 3 0, tickAt := g.tickAt + Config.tickLen, secondTicks := g.secondTicks + 1 }
  if g.secondTicks < 100 then g
  else
    { g with
      secondTicks := 0, squares := List.replicate 6 0, counted := List.replicate 6 0
      rms := (List.range 6).map (fun n => secondRms (nth g.squares n) (nth g.counted n)) }

/-- TALLY_TICK (R361): a 10 ms tick ends; until the lanes' narrowband streams are valid it adds nothing. -/
def execTallyTick (t : Nat) (s : State) : Out :=
  let s := s.tickTo t
  .next
    (if s.phase = .gatehouse && s.gate.tickAt ≤ s.now then
      let s := if s.tallies then s.tally else s
      { s with gate := s.gate.nextTick }
    else s)

end Sys2Proof.Machine
end

