-- ==== Sys2Proof/Machine/Host.lean ====
section
/-! DEFINITION. Transfers on the host ports (R37-R45). -/

namespace Sys2Proof.Machine

/-- Whether H1 carries SPI transfers: a port is an SPI target unless it is H1 in UART mode (R34). -/
def State.spi (s : State) (p : Port) : Bool := p = .h0 || !s.host.h1Uart

/-- Whether a port takes no transfer: the part is in reset, or H1 is a UART. H0 still reads READY as 0 in gatehouse mode (R45). -/
def State.deaf (s : State) (p : Port) : Bool := s.phase = .held || !s.spi p

/-- A received request takes its place: by receipt, then by session (R49). -/
def placeRequest (q : Request) : List Request → List Request
  | [] => [q]
  | x :: rest =>
    if q.rxAt < x.rxAt || (q.rxAt = x.rxAt && byteAt q.bytes 1 < byteAt x.bytes 1) then q :: x :: rest
    else x :: placeRequest q rest

/-- Check 3: the CRC over header and payload (R46). -/
def crcHolds (bytes : List Byte) : Bool :=
  field bytes (12 + field bytes 6 2) 4 = crc32c (bytes.take (12 + field bytes 6 2))

/-- A received packet joins the receive buffer; one that failed check 3 is answered at once where it is next (R48, log 4). -/
def State.receive (s : State) (p : Port) (bytes : List Byte) : State :=
  let q : Request := { bytes := bytes, rxAt := s.now, verdict := if crcHolds bytes then .whole else .badCrc }
  let s := s.setPort p (fun a => { a with rx := placeRequest q a.rx })
  match s.front p with
  | none => s
  | some q =>
    match q.verdict with
    | .whole => s
    | .badCrc => (s.take p).answerUnstored (Req.of p q) stCrcError

/-- A packet whose header gives L above 4,096 takes no place: BAD_LENGTH when the chip select rises (R37). -/
def State.refuseLength (s : State) (p : Port) (bytes : List Byte) : State :=
  s.answerUnstored (Req.of p { bytes := bytes, rxAt := s.now }) stBadLength

/-- A WRITE_PACKET transfer of R37, while READY is 1. With four requests waiting OVERRUN alone is set, whatever the transfer carries
(log 7). -/
def State.writeTransfer (s : State) (p : Port) (bytes : List Byte) : State :=
  if 4 ≤ (s.port p).rx.length then s.setPort p (fun a => { a with overrun := true })
  else if byteAt bytes 0 ≠ 0x5A || bytes.length < 12 then s.setPort p (fun a => { a with framing := true })
  else if field bytes 6 2 > 4096 then s.refuseLength p bytes
  else if bytes.length ≠ 16 + field bytes 6 2 then s.setPort p (fun a => { a with framing := true })
  else s.receive p bytes

/-- WRITE_PACKET (R37): an SPI transfer with its code byte and the bytes after it. Codes 0Bh and 05h are the other two
rows; any code outside Table 2.1 sets FRAMING. -/
def execWritePacket (t : Nat) (p : Port) (code : Nat) (bytes : List Byte) (s : State) : Out :=
  let s := s.tickTo t
  .next
    (if s.deaf p || code = 0x0B || code = 0x05 then s
    else if code ≠ 0x02 then s.setPort p (fun a => { a with framing := true })
    else if !s.readyOn p then s
    else s.writeTransfer p bytes)

/-- The bytes driven, cut to what the host clocks and padded with FFh (R38). -/
def driven (clocked : Nat) (bytes : List Byte) : List Byte :=
  bytes.take clocked ++ List.replicate (clocked - bytes.length) 0xFF

/-- Sending the whole status word clears OVERRUN and FRAMING (R39). -/
def PortState.sent (a : PortState) (clocked : Nat) (bytes : List Byte) : PortState :=
  { a with
    out := driven clocked bytes
    overrun := if clocked ≥ 2 then false else a.overrun
    framing := if clocked ≥ 2 then false else a.framing }

/-- The bytes of a READ_PACKET transfer: the status word and the oldest reply (Table 2.1). -/
def State.readBytes (s : State) (p : Port) : List Byte :=
  le 2 (s.statusWord p) ++
  (match (s.port p).replies with
   | [] => []
   | x :: _ => x.bytes)

/-- READ_PACKET (R38): the reply leaves the queue only when its last CRC byte was clocked out. -/
def execReadPacket (t : Nat) (p : Port) (clocked : Nat) (s : State) : Out :=
  let s := s.tickTo t
  .next
    (if s.deaf p then s
    else
      let b := s.readBytes p
      s.setPort p (fun a =>
        { a.sent clocked b with
          replies := if b.length ≤ clocked then a.replies.tail else a.replies }))

/-- READ_STATUS (R38): the status word, then FFh; no reply leaves the queue. -/
def execReadStatus (t : Nat) (p : Port) (clocked : Nat) (s : State) : Out :=
  let s := s.tickTo t
  .next
    (if s.deaf p then s
    else s.setPort p (fun a => a.sent clocked (le 2 (s.statusWord p))))

/-! ### UART (R42-R45) -/

/-- Whether the UART receives (R45). -/
def State.uartOn (s : State) : Bool := s.host.h1Uart && s.readyOn .h1

/-- The rates the part measures (R42, R364). -/
def State.uartRates (s : State) (baud : Nat) : Bool :=
  9600 ≤ baud && baud ≤ (if s.phase = .gatehouse then 115200 else 3000000)

/-- SYNC_BYTE (R42): the first byte after reset or a break. -/
def execSyncByte (t : Nat) (value : Nat) (baud : Nat) (s : State) : Out :=
  let s := s.tickTo t
  .next
    (if s.uartOn && s.host.uartRate.isNone && value = 0x5A && s.uartRates baud then
      { s with host := { s.host with uartRate := some baud, uartPart := [0x5A] } }
    else s)

/-- One byte received on the UART: hunting, then a request of 12 + L + 4 bytes (R44). -/
def State.uartByte (s : State) (b : Byte) : State :=
  let part := s.host.uartPart ++ [b]
  if s.host.uartPart.isEmpty && b ≠ 0x5A then s
  else if part.length = 12 && field part 6 2 > 4096 then { s with host := { s.host with uartPart := [] } }
  else if 16 ≤ part.length && part.length = 16 + field part 6 2 then
    State.receive { s with host := { s.host with uartPart := [] } } .h1 part
  else { s with host := { s.host with uartPart := part } }

/-- UART_REQUEST (R44): bytes received at the measured rate. -/
def execUartRequest (t : Nat) (bytes : List Byte) (s : State) : Out :=
  let s := s.tickTo t
  .next (if s.uartOn && s.host.uartRate.isSome then bytes.foldl State.uartByte s else s)

/-- UART_IDLE_GAP (R44): more than 10 ms of idle line, in ticks, discards the partial request. -/
def execUartIdleGap (t : Nat) (gap : Nat) (s : State) : Out :=
  let s := s.tickTo t
  .next
    (if s.uartOn && gap > 10 * Config.ms then { s with host := { s.host with uartPart := [] } }
    else s)

/-- BREAK (R43): at least 20 bit times low. -/
def execBreakLine (t : Nat) (bits : Nat) (s : State) : Out :=
  let s := s.tickTo t
  .next
    (if s.uartOn && 20 ≤ bits then { s with host := { s.host with uartPart := [], uartRate := none } }
    else s)

/-- UART_REPLY_SENT (R45): the oldest reply has been sent on H1_TXD. -/
def execUartReplySent (t : Nat) (s : State) : Out :=
  let s := s.tickTo t
  .next
    (if s.host.h1Uart && s.phase ≠ .held then
      match s.host.h1.replies with
      | [] => s
      | x :: rest => { s with host := { s.host with h1 := { s.host.h1 with replies := rest, out := x.bytes } } }
    else s)

end Sys2Proof.Machine
end

