-- ==== Sys2Proof/Machine/PrepayRows.lean ====
section
/-! DEFINITION. Group 07h: prepayment, relays and tamper detection (R255-R263, R268-R270, Table 16.18), the button (R261) and
the tamper switches (R268, R269). -/

namespace Sys2Proof.Machine

/-! ### PREPAY_CONFIG (R255) -/

/-- The payload of PREPAY_CONFIG follows Table 16.18 and R255. -/
def Req.prepayValid (r : Req) (c : Context) : Bool :=
  r.u 0 1 ≤ 1 && (r.u 1 1 ≤ 3 || r.u 1 1 = 255) && r.u 2 1 ≤ 1 && r.zero 3 1 && r.zero 96 8 &&
  (List.range 8).all (fun k => r.u (20 + 8 * k) 8 ≤ 1000000000) && (c.kind ≠ 1 || r.u 1 1 = 255)

/-- Whether a context's prepayment, in force or accepted, binds a relay. -/
def Context.binds (c : Context) (relay : Nat) : Bool :=
  (c.prepay.mode = 1 && c.prepay.relay = relay) ||
  c.newPrepay.any (fun x => byteAt x.2 0 = 1 && byteAt x.2 1 = relay)

def prepayConfigRow : Row where
  opcode := 0x0701
  valid := fun r s => (s.ctxOf r.handle).any (fun c => r.prepayValid c)
  body := withCtx (fun c r s =>
    judged
      [ (r.u 1 1 ≤ 3 && (s.bill.live ++ s.parkedContexts).any (fun x => x.serial ≠ c.serial && x.binds (r.u 1 1)),
         stWrongState) ] s
      (let s := s.setCtx c.serial (fun c => { c with newPrepay := some (nextBoundary s.now, r.payload) })
       .done stOk [] (s.poolKeep c.serial)))

def execPrepayConfig (t : Nat) (p : Port) (s : State) : Out := .next (prepayConfigRow.serve t p s)

/-! ### CREDIT_ADD (R258) -/

/-- The largest credit: 2^62 µcu. -/
def creditLimit : Int := 4611686018427387904

/-- A credit joins C; a grant that is repaid ends (R258, R260). -/
def State.addCredit (s : State) (serial : Nat) (amount : Int) (number : Nat) : State :=
  let s := s.setCtx serial (fun c => { c with prepay := { c.prepay with
    credit := c.prepay.credit + amount, added := c.prepay.added + amount
    transactions := (number :: c.prepay.transactions).take 16 } })
  let ends := (s.live serial).any (fun c => decide (0 ≤ c.prepay.credit) && 0 < c.prepay.emergency)
  let s := if ends then s.setCtx serial (fun c => { c with prepay := { c.prepay with emergency := 0 } }) else s
  let s := s.reevaluate serial 0
  if ends then s.grantEvent serial true else s

/-- The reply of CREDIT_ADD. -/
def State.creditReply (s : State) (serial duplicate : Nat) : List Byte :=
  match s.live serial with
  | some c => leInt 8 c.prepay.credit ++ octets [c.prepay.state, duplicate, 0, 0]
  | none => []

def creditAddRow : Row where
  opcode := 0x0702
  valid := fun r _ => r.u 0 8 ≠ 0 && r.u 8 4 ≠ 0
  body := withCtx (fun c r s =>
    let again := c.prepay.transactions.contains (r.u 8 4)
    judged
      [ (!again && creditLimit < ((c.prepay.credit + r.i 0 8).natAbs : Int), stBadParam), (c.prepay.mode = 0, stWrongState) ] s
      (if again then .done stOk (s.creditReply c.serial 1) s
       else
         let s := s.addCredit c.serial (r.i 0 8) (r.u 8 4)
         .done stOk (s.creditReply c.serial 0) s))

def execCreditAdd (t : Nat) (p : Port) (s : State) : Out := .next (creditAddRow.serve t p s)

/-! ### EMERGENCY_CREDIT (R260) -/

def emergencyCreditRow : Row where
  opcode := 0x0703
  body := withCtx (fun c r s =>
    judged
      [ (r.u 0 8 = 0 || c.prepay.ceiling < c.prepay.emergency + r.u 0 8, stBadParam),
        (c.prepay.mode = 0 || c.prepay.low ≤ c.prepay.credit, stWrongState) ] s
      (let s := s.grant c.serial (r.u 0 8) 2
       let c := (s.live c.serial).getD c
       .done stOk (le 8 c.prepay.emergency ++ octets [c.prepay.state, 0, 0, 0]) s))

def execEmergencyCredit (t : Nat) (p : Port) (s : State) : Out := .next (emergencyCreditRow.serve t p s)

/-! ### FRIENDLY_SET (R262) -/

/-- A window of Table 8.3: a used one has start < end within the day. -/
def windowValid (b : List Byte) (k : Nat) : Bool :=
  field b (8 * k + 1) 1 = 0 && field b (8 * k + 6) 2 = 0 &&
  (byteAt b (8 * k) < 128 ||
    (field b (8 * k + 2) 2 < field b (8 * k + 4) 2 && field b (8 * k + 2) 2 ≤ 1439 && field b (8 * k + 4) 2 ≤ 1440))

/-- A holiday of Table 8.3: a used one names a month and a day. -/
def holidayValid (b : List Byte) (k : Nat) : Bool :=
  byteAt b (4 * k + 3) = 0 &&
  (byteAt b (4 * k + 1) = 0 || (byteAt b (4 * k + 1) ≤ 12 && 1 ≤ byteAt b (4 * k + 2) && byteAt b (4 * k + 2) ≤ 31))

def friendlySetRow : Row where
  opcode := 0x0704
  valid := fun r _ =>
    (List.range 8).all (windowValid r.payload) && (List.range 32).all (holidayValid (r.payload.drop 64))
  body := withCtx (fun c r s =>
    let s := s.setCtx c.serial (fun c => { c with newFriendly := some (nextBoundary s.now, r.payload) })
    .done stOk [] (s.poolKeep c.serial))

def execFriendlySet (t : Nat) (p : Port) (s : State) : Out := .next (friendlySetRow.serve t p s)

/-! ### RELAY_CONTROL (R263, Table 8.2) -/

/-- The payload of RELAY_CONTROL follows Table 16.18. -/
def Req.relayValid (r : Req) : Bool :=
  r.u 0 1 ≤ 3 && r.u 1 1 ≤ 4 && r.u 2 1 ≤ 1 && (if r.u 1 1 = 4 then r.u 3 1 ≤ 1 else r.zero 3 1)

/-- The reply of RELAY_CONTROL. -/
def State.relayReply (s : State) (k : Nat) : List Byte :=
  let x := nth s.bill.relays k
  octets [ofBool x.closed, x.polarity, ofBool (!x.driven), 0] ++ le 2 (((s.boundTo k).map ctxHandle).getD 0) ++ zeros 2 ++
  le 8 x.lastChange

/-- A RELAY_CONTROL row: its action and its refusals and effect on the relay. -/
def relayRow (picks : Nat → Bool) (tests : Req → State → List (Bool × Nat)) (f : Nat → Req → State → State) : Row where
  opcode := 0x0705
  picks := fun r _ => picks (r.u 1 1)
  valid := fun r _ => r.relayValid
  body := fun r s => judged (tests r s) s (let s := f (r.u 0 1) r s; .done stOk (s.relayReply (r.u 0 1)) s)

/-- Action 0, and every action that Table 8.2 lacks: those fail check 11. -/
def relayQueryRow : Row := relayRow (fun a => a = 0 || 4 < a) (fun _ _ => []) (fun _ _ s => s)

def execRelayControlQuery (t : Nat) (p : Port) (s : State) : Out := .next (relayQueryRow.serve t p s)

/-- Action 1: the relay opens; a bound context enters a held state 5. -/
def relayOpenRow : Row := relayRow (fun a => a = 1)
  (fun r s => [((s.boundTo (r.u 0 1)).any (fun c => c.prepay.friendly ≠ 0) && r.u 2 1 = 0, stDenied)])
  (fun k _ s =>
    match s.boundTo k with
    | some c => (s.setCtx c.serial (fun c => { c with prepay := { c.prepay with hold := 1 } })).enterState c.serial 5 2
    | none => s.setRelay k false 2)

def execRelayControlOpen (t : Nat) (p : Port) (s : State) : Out := .next (relayOpenRow.serve t p s)

/-- Action 2: the relay closes; a bound context in state 5 or 6 leaves for the state its credit gives. -/
def relayCloseRow : Row := relayRow (fun a => a = 2)
  (fun r s => [((s.boundTo (r.u 0 1)).any (fun c => decide (c.prepay.left ≤ 0)), stWrongState)])
  (fun k _ s =>
    match s.boundTo k with
    | some c => if c.prepay.state = 5 || c.prepay.state = 6 then s.reconnect c.serial 2 else s.setRelay k true 2
    | none => s.setRelay k true 2)

def execRelayControlClose (t : Nat) (p : Port) (s : State) : Out := .next (relayCloseRow.serve t p s)

/-- Action 3: a held state 5 with C + G > 0 becomes state 6. -/
def relayArmRow : Row := relayRow (fun a => a = 3)
  (fun r s =>
    [(!((s.boundTo (r.u 0 1)).any (fun c => c.prepay.state = 5 && c.prepay.hold = 1 && decide (0 < c.prepay.left))), stWrongState)])
  (fun k _ s =>
    match s.boundTo k with
    | some c => (s.setCtx c.serial (fun c => { c with prepay := { c.prepay with hold := 0 } })).enterState c.serial 6 2
    | none => s)

def execRelayControlArm (t : Nat) (p : Port) (s : State) : Out := .next (relayArmRow.serve t p s)

/-- Action 4: the level for closed. -/
def relayPolarityRow : Row := relayRow (fun a => a = 4) (fun _ _ => [])
  (fun k r s => { s with bill := { s.bill with relays := alter s.bill.relays k (fun x => { x with polarity := r.u 3 1 }) } })

def execRelayControlPolarity (t : Nat) (p : Port) (s : State) : Out := .next (relayPolarityRow.serve t p s)

/-! ### TAMPER_CONFIG (R268) -/

/-- The least bypass ratio and imbalance fraction: 0.01 as binary32 (Table 8.6). -/
def fractionMin : Rat := f32Val 0x3C23D70A#32

/-- The payload of TAMPER_CONFIG on a context follows Tables 8.6 and 16.18. -/
def Req.tamperValid (r : Req) : Bool :=
  r.u 0 1 < 128 && r.u 1 1 < 16 && r.zero 2 2 && (ofF32 (r.f32 4)).isSome && f32Within (r.f32 8) fractionMin 1 &&
  (ofF32 (r.f32 12)).isSome && (ofF32 (r.f32 16)).isSome && f32Within (r.f32 20) fractionMin (1 / 2)

/-- The open records of the kinds that are no longer enabled close, and their runs end. -/
def State.disableTamper (s : State) (serial enables importOnly : Nat) : State :=
  match s.live serial with
  | none => s
  | some c =>
    let off := (List.range 7).filter (fun k => bit c.tamper.enables k && !bit enables k)
    let dropped := ((c.currents.zipIdx).filter (fun x => !bit importOnly x.2)).map (fun x => x.1)
    (s.closeTampers serial c.folded 0 off).setCtx serial (fun c => { c with tamper := { c.tamper with
      runs := c.tamper.runs.filter (fun x => !off.contains x.kind && !(x.kind = 0 && dropped.contains x.element)) } })

def tamperContextRow : Row where
  opcode := 0x0706
  picks := fun r _ => r.handle ≠ 0
  valid := fun r s => r.tamperValid && (s.ctxOf r.handle).any (fun c => without (r.u 0 1) (s.tamperKinds c) = 0)
  body := withCtx (fun c r s =>
    let s := s.disableTamper c.serial (r.u 0 1) (r.u 1 1)
    let s := s.setCtx c.serial (fun c => { c with tamper := { c.tamper with
      enables := r.u 0 1, importOnly := r.u 1 1, reverse := r.f32 4, ratio := r.f32 8, magnitude := r.f32 12
      displacement := r.f32 16, imbalance := r.f32 20 } }.startTrail)
    .done stOk [] (s.poolKeep c.serial))

def execTamperConfigContext (t : Nat) (p : Port) (s : State) : Out := .next (tamperContextRow.serve t p s)

/-- Handle 0000h: the active levels. An input whose level changes its meaning starts its 20 ms anew. -/
def tamperLevelsRow : Row where
  opcode := 0x0706
  picks := fun r _ => r.handle = 0
  valid := fun r _ => r.u 0 1 < 16 && r.zero 1 3
  body := fun r s =>
    .done stOk [] { s with bill := { s.bill with tamp := s.bill.tamp.mapIdx (fun k x =>
      if x.activeHigh = bit (r.u 0 1) k then x else { x with activeHigh := bit (r.u 0 1) k, since := s.now }) } }

def execTamperConfigLevels (t : Nat) (p : Port) (s : State) : Out := .next (tamperLevelsRow.serve t p s)

/-! ### TAMPER_READ (R270) -/

def tamperReadRow : Row where
  opcode := 0x0707
  body := withCtx (fun c r s =>
    match s.store.tampers.find? (fun x => x.serial = c.serial && (r.u 0 4 = 0 || x.number = r.u 0 4)) with
    | some x => .done stOk x.bytes s
    | none => refuse stBadParam s)

def execTamperRead (t : Nat) (p : Port) (s : State) : Out := .next (tamperReadRow.serve t p s)

/-! ### Pins (R261, R268, R269) -/

/-- One context's share of a press: a reconnection in state 6, otherwise a grant under R260. -/
def State.pressOn (s : State) (c : Context) : State :=
  if c.kind = 1 || c.prepay.mode = 0 || !bit c.prepay.options 0 then s
  else if c.prepay.state = 6 then s.reconnect c.serial 3
  else if c.prepay.credit < c.prepay.low && c.prepay.emergency = 0 then s.grant c.serial c.prepay.ceiling 3
  else s

/-- CREDIT_BTN_PRESS (R261): a high level of `high` ticks and a low level of `low` ticks after it. -/
def execCreditBtnPress (t high low : Nat) (s : State) : Out :=
  let s := s.tickTo t
  .next
    (if s.phase = .running && 50 * Config.ms ≤ high && high ≤ 5 * secTicks && 50 * Config.ms ≤ low then
      ({ s with pins := { s.pins with button := s.now - low } } : State).eachCtx (fun s c => s.pressOn c)
    else s)

/-- A transition that no running context sees joins the vault's log of 16, or is lost (R269). -/
def SecurityState.logSwitch (x : SecurityState) (input : Nat) (active : Bool) (time : Nat) : SecurityState :=
  if x.tampLog.length < 16 then { x with tampLog := x.tampLog ++ [(input, active, time)] }
  else { x with tampLost := x.tampLost + 1 }

/-- TAMPER_SWITCH (R268, R269): an input has held a level for 20 ms. -/
def execTamperSwitch (t input : Nat) (level : Bool) (s : State) : Out :=
  let s := s.tickTo t
  guarded (input < 4)
    (let x := nth s.bill.tamp input
     let held := s.now - 20 * Config.ms
     let since := if x.level = level then x.since else held
     if held < since then s
     else
       let active : Bool := level = x.activeHigh
       let s := { s with bill := { s.bill with
         tamp := alter s.bill.tamp input (fun x => { x with level := level, since := since, active := active }) } }
       if s.phase ≠ .running && active ≠ x.active then { s with sec := s.sec.logSwitch input active (s.rtcNow - 20 * Config.ms) }
       else s)

end Sys2Proof.Machine
end

