-- ==== Sys2Proof/Machine/System.lean ====
section
/-! DEFINITION. Group 00h without its clock commands: PING, GET_INFO, GET_STATUS, RESET, and opcodes that are not defined (R443, R478-R482). -/

namespace Sys2Proof.Machine

/-- An opcode Table 16.2 does not define: BAD_OPCODE in every mode. -/
def undefinedRow (opcode : Nat) : Row where
  opcode := opcode
  body := fun _ s => refuse stBadOpcode s

/-- UNDEFINED_OPCODE (R478). -/
def execUndefinedOpcode (t : Nat) (p : Port) (s : State) : Out :=
  .next
    (match s.front p with
     | none => s.tickTo t
     | some q =>
       if q.verdict = .whole && (opSpec (Req.of p q).opcode).isSome then s.tickTo t
       else (undefinedRow (Req.of p q).opcode).serve t p s)

/-! ### PING (Table 16.4) -/

def pingRow : Row where
  opcode := 0x0001
  recovers := true
  gate := some (fun r s => .done stOk r.payload s)
  body := fun r s => .done stOk r.payload s

def execPing (t : Nat) (p : Port) (s : State) : Out := .next (pingRow.serve t p s)

/-! ### GET_INFO (R482) -/

/-- Release, build and security version of the running image; in recovery none of the slots' images runs, and what the reply names is
open (log 11). -/
def State.runningImage (s : State) : List Byte × State :=
  if s.phase = .recovery then
    let a := s.draw
    let b := a.2.draw
    let c := b.2.draw
    (le 2 a.1 ++ le 4 b.1 ++ le 1 c.1, c.2)
  else (le 2 s.image.release ++ le 4 s.image.build ++ le 1 s.image.version, s)

/-- The 48 bytes of Table 16.6, over the bytes of the running image. -/
def State.infoBytes (s : State) (image : List Byte) : List Byte :=
  le 16 Config.partId ++ [0x42#8, 0x31#8] ++ image ++ le 1 s.sec.counter ++ le 1 s.sec.lifecycle ++
  le 1 (ofBool s.host.h1Uart + 2 * ofBool s.host.bootsel) ++ le 1 (ofBool (s.phase = .recovery)) ++ le 1 s.store.boot.active ++
  le 1 s.store.boot.trialState ++ le 1 s.power.cause ++ le 8 s.power.readyUtc ++ zeros 8

def getInfoRow : Row where
  opcode := 0x0002
  recovers := true
  body := fun _ s =>
    let a := s.runningImage
    .done stOk (s.infoBytes a.1) a.2

def execGetInfo (t : Nat) (p : Port) (s : State) : Out := .next (getInfoRow.serve t p s)

/-! ### GET_STATUS (R481) -/

/-- Present UTC; in recovery S sets no mapping, and the RTC tells it. -/
def State.presentUtc (s : State) : Nat := if s.clock.mapSet then s.stampNow else s.rtcNow

/-- The 32 bytes of Table 16.5. -/
def State.statusBytes (s : State) : List Byte :=
  le 2 1 ++ le 1 (if s.phase = .recovery then 2 else 0) ++ le 1 (if s.phase = .running then 2 else 1) ++
  le 1 (ofBool s.power.warning.isSome + 2 * ofBool s.power.commit.isSome + 4 * ofBool s.power.vbatLow +
    8 * ofBool s.health.vanaFault.isSome + 16 * ofBool s.power.vioFault) ++
  le 1 (if s.store.formatting.isSome then 3 else s.store.state) ++ le 1 (orFF s.host.owner) ++ le 1 s.sec.lifecycle ++
  le 8 s.presentUtc ++ le 1 s.tracker.state ++ le 1 s.tracker.channel ++ le 1 (ofBool s.clock.ppsLocked) ++
  le 1 (ofBool (!s.clock.rtcValid)) ++
  le 1 (orAll ((List.range 8).map (fun d => if (s.die d).state = 1 || s.linkLost d then 2 ^ d else 0))) ++
  le 1 (s.channels.filter (fun c => c.lost)).length ++ le 2 s.bill.live.length ++ le 1 s.host.ops.length ++
  le 1 (s.lineNow.mode + 128 * ofBool (s.linkLost 6)) ++
  le 2 (sat 16 s.unsignedRecords) ++ zeros 4

/-- GET_STATUS; in gatehouse mode the first one on H1 clears its EVENT_PENDING (R364). -/
def getStatusRow : Row where
  opcode := 0x0003
  recovers := true
  gate := some (fun _ s => .done stOk (s.gateRegister.take 32) { s with gate := { s.gate with unseen := false } })
  body := fun _ s => .done stOk s.statusBytes s

def execGetStatus (t : Nat) (p : Port) (s : State) : Out := .next (getStatusRow.serve t p s)

/-! ### RESET (R443, R364) -/

/-- A full reset follows within 10 ms, whatever the kind (Table 11.9). -/
def State.gateReset (s : State) : State :=
  { s with power := { s.power with reset := some { cause := 3, notBefore := s.now } } }

/-- Kind 0, and the kinds no row has. -/
def resetRow : Row where
  opcode := 0x0004
  picks := fun r s => r.u 0 1 ≠ 1 || s.phase = .gatehouse
  valid := fun r _ => r.u 0 1 = 0 && r.zero 1 3
  recovers := true
  gate := some (fun _ s => .done stOk [] s.gateReset)
  body := fun _ s => .done stOk [] (s.askReset 3)

def execReset (t : Nat) (p : Port) (s : State) : Out := .next (resetRow.serve t p s)

/-- Kind 1: the restart is into recovery. -/
def resetIntoRecoveryRow : Row where
  opcode := 0x0004
  picks := fun r s => r.u 0 1 = 1 && s.phase ≠ .gatehouse
  valid := fun r _ => r.zero 1 3
  recovers := true
  body := fun _ s => .done stOk [] (s.askReset 4)

def execResetIntoRecovery (t : Nat) (p : Port) (s : State) : Out := .next (resetIntoRecoveryRow.serve t p s)

end Sys2Proof.Machine
end

