-- ==== Sys2Proof/Machine/Dispatch.lean ====
section
/-! DEFINITION. One arm per command; the meanings stand in the family files. -/

namespace Sys2Proof.Machine

def exec (i : Instr) (s : State) : Host.Outcome State Fault Refusal :=
  match i with
  | .writePacket t p code bytes => Sys2Proof.Machine.execWritePacket t p code bytes s
  | .readPacket t p clocked => Sys2Proof.Machine.execReadPacket t p clocked s
  | .readStatus t p clocked => Sys2Proof.Machine.execReadStatus t p clocked s
  | .syncByte t value baud => Sys2Proof.Machine.execSyncByte t value baud s
  | .uartRequest t bytes => Sys2Proof.Machine.execUartRequest t bytes s
  | .uartIdleGap t gap => Sys2Proof.Machine.execUartIdleGap t gap s
  | .breakLine t bits => Sys2Proof.Machine.execBreakLine t bits s
  | .electionWindowEnd t => Sys2Proof.Machine.execElectionWindowEnd t s
  | .ownershipSilence t => Sys2Proof.Machine.execOwnershipSilence t s
  | .handoverTimeout t => Sys2Proof.Machine.execHandoverTimeout t s
  | .undefinedOpcode t p => Sys2Proof.Machine.execUndefinedOpcode t p s
  | .ping t p => Sys2Proof.Machine.execPing t p s
  | .getInfo t p => Sys2Proof.Machine.execGetInfo t p s
  | .getStatus t p => Sys2Proof.Machine.execGetStatus t p s
  | .reset t p => Sys2Proof.Machine.execReset t p s
  | .resetIntoRecovery t p => Sys2Proof.Machine.execResetIntoRecovery t p s
  | .setTime t p => Sys2Proof.Machine.execSetTime t p s
  | .getTime t p => Sys2Proof.Machine.execGetTime t p s
  | .setClockPolicy t p => Sys2Proof.Machine.execSetClockPolicy t p s
  | .fence t p => Sys2Proof.Machine.execFence t p s
  | .gatehouseRead t p => Sys2Proof.Machine.execGatehouseRead t p s
  | .openSession t p => Sys2Proof.Machine.execOpenSession t p s
  | .closeSession t p => Sys2Proof.Machine.execCloseSession t p s
  | .claim t p => Sys2Proof.Machine.execClaim t p s
  | .yield t p => Sys2Proof.Machine.execYield t p s
  | .accept t p => Sys2Proof.Machine.execAccept t p s
  | .keepalive t p => Sys2Proof.Machine.execKeepalive t p s
  | .whoOwns t p => Sys2Proof.Machine.execWhoOwns t p s
  | .chConfig t p => Sys2Proof.Machine.execChConfig t p s
  | .chQuery t p => Sys2Proof.Machine.execChQuery t p s
  | .trigConfig t p => Sys2Proof.Machine.execTrigConfig t p s
  | .inject t p => Sys2Proof.Machine.execInject t p s
  | .windowSet t p => Sys2Proof.Machine.execWindowSet t p s
  | .sync t p => Sys2Proof.Machine.execSync t p s
  | .captureArm t p => Sys2Proof.Machine.execCaptureArm t p s
  | .captureStop t p => Sys2Proof.Machine.execCaptureStop t p s
  | .bankLoad t p => Sys2Proof.Machine.execBankLoad t p s
  | .bankSwap t p => Sys2Proof.Machine.execBankSwap t p s
  | .detectorSet t p => Sys2Proof.Machine.execDetectorSet t p s
  | .resamplerSet t p => Sys2Proof.Machine.execResamplerSet t p s
  | .resamplerSetDelay t p => Sys2Proof.Machine.execResamplerSetDelay t p s
  | .streamRead t p => Sys2Proof.Machine.execStreamRead t p s
  | .calSweep t p => Sys2Proof.Machine.execCalSweep t p s
  | .calStatus t p => Sys2Proof.Machine.execCalStatus t p s
  | .calImageRead t p => Sys2Proof.Machine.execCalImageRead t p s
  | .calImageWrite t p => Sys2Proof.Machine.execCalImageWrite t p s
  | .calStore t p => Sys2Proof.Machine.execCalStore t p s
  | .calRestore t p => Sys2Proof.Machine.execCalRestore t p s
  | .calLimitsRead t p => Sys2Proof.Machine.execCalLimitsRead t p s
  | .calLimitsWrite t p => Sys2Proof.Machine.execCalLimitsWrite t p s
  | .measConfig t p => Sys2Proof.Machine.execMeasConfig t p s
  | .measRead t p => Sys2Proof.Machine.execMeasRead t p s
  | .pqEventConfig t p => Sys2Proof.Machine.execPqEventConfig t p s
  | .harmonicRead t p => Sys2Proof.Machine.execHarmonicRead t p s
  | .flickerRead t p => Sys2Proof.Machine.execFlickerRead t p s
  | .ctxCreate t p => Sys2Proof.Machine.execCtxCreate t p s
  | .ctxDelete t p => Sys2Proof.Machine.execCtxDelete t p s
  | .ctxRead t p => Sys2Proof.Machine.execCtxRead t p s
  | .ctxTariffTable t p => Sys2Proof.Machine.execCtxTariffTable t p s
  | .ctxDemandConfig t p => Sys2Proof.Machine.execCtxDemandConfig t p s
  | .ctxSnapshotRead t p => Sys2Proof.Machine.execCtxSnapshotRead t p s
  | .ctxPark t p => Sys2Proof.Machine.execCtxPark t p s
  | .ctxUnpark t p => Sys2Proof.Machine.execCtxUnpark t p s
  | .ctxShadowFeed t p => Sys2Proof.Machine.execCtxShadowFeed t p s
  | .balanceConfigParameters t p => Sys2Proof.Machine.execBalanceConfigParameters t p s
  | .balanceConfigAdd t p => Sys2Proof.Machine.execBalanceConfigAdd t p s
  | .balanceConfigRemove t p => Sys2Proof.Machine.execBalanceConfigRemove t p s
  | .balanceConfigDissolve t p => Sys2Proof.Machine.execBalanceConfigDissolve t p s
  | .balanceReadResults t p => Sys2Proof.Machine.execBalanceReadResults t p s
  | .balanceReadMembers t p => Sys2Proof.Machine.execBalanceReadMembers t p s
  | .prepayConfig t p => Sys2Proof.Machine.execPrepayConfig t p s
  | .creditAdd t p => Sys2Proof.Machine.execCreditAdd t p s
  | .emergencyCredit t p => Sys2Proof.Machine.execEmergencyCredit t p s
  | .friendlySet t p => Sys2Proof.Machine.execFriendlySet t p s
  | .relayControlQuery t p => Sys2Proof.Machine.execRelayControlQuery t p s
  | .relayControlOpen t p => Sys2Proof.Machine.execRelayControlOpen t p s
  | .relayControlClose t p => Sys2Proof.Machine.execRelayControlClose t p s
  | .relayControlArm t p => Sys2Proof.Machine.execRelayControlArm t p s
  | .relayControlPolarity t p => Sys2Proof.Machine.execRelayControlPolarity t p s
  | .tamperConfigContext t p => Sys2Proof.Machine.execTamperConfigContext t p s
  | .tamperConfigLevels t p => Sys2Proof.Machine.execTamperConfigLevels t p s
  | .tamperRead t p => Sys2Proof.Machine.execTamperRead t p s
  | .lineConfig t p => Sys2Proof.Machine.execLineConfig t p s
  | .tonemapRead t p => Sys2Proof.Machine.execTonemapRead t p s
  | .tonemapPin t p => Sys2Proof.Machine.execTonemapPin t p s
  | .tonemapUnpin t p => Sys2Proof.Machine.execTonemapUnpin t p s
  | .nodeAdmitAdmit t p => Sys2Proof.Machine.execNodeAdmitAdmit t p s
  | .nodeAdmitRemove t p => Sys2Proof.Machine.execNodeAdmitRemove t p s
  | .routeRead t p => Sys2Proof.Machine.execRouteRead t p s
  | .pollListLoad t p => Sys2Proof.Machine.execPollListLoad t p s
  | .pollStart t p => Sys2Proof.Machine.execPollStart t p s
  | .pollStop t p => Sys2Proof.Machine.execPollStop t p s
  | .lineSend t p => Sys2Proof.Machine.execLineSend t p s
  | .lineSendSfsk t p => Sys2Proof.Machine.execLineSendSfsk t p s
  | .lineStatsNeighbour t p => Sys2Proof.Machine.execLineStatsNeighbour t p s
  | .lineStatsCounters t p => Sys2Proof.Machine.execLineStatsCounters t p s
  | .lineStatsSfskFrames t p => Sys2Proof.Machine.execLineStatsSfskFrames t p s
  | .lineStatsResponse t p => Sys2Proof.Machine.execLineStatsResponse t p s
  | .privilegeSet t p => Sys2Proof.Machine.execPrivilegeSet t p s
  | .privilegeClear t p => Sys2Proof.Machine.execPrivilegeClear t p s
  | .eventRead t p => Sys2Proof.Machine.execEventRead t p s
  | .eventReadFlush t p => Sys2Proof.Machine.execEventReadFlush t p s
  | .eventMask t p => Sys2Proof.Machine.execEventMask t p s
  | .watermarkSet t p => Sys2Proof.Machine.execWatermarkSet t p s
  | .storeInfo t p => Sys2Proof.Machine.execStoreInfo t p s
  | .captureRead t p => Sys2Proof.Machine.execCaptureRead t p s
  | .markSet t p => Sys2Proof.Machine.execMarkSet t p s
  | .markClear t p => Sys2Proof.Machine.execMarkClear t p s
  | .logRead t p => Sys2Proof.Machine.execLogRead t p s
  | .storeFormat t p => Sys2Proof.Machine.execStoreFormat t p s
  | .attestQuote t p => Sys2Proof.Machine.execAttestQuote t p s
  | .attestFetch t p => Sys2Proof.Machine.execAttestFetch t p s
  | .attestPublicKey t p => Sys2Proof.Machine.execAttestPublicKey t p s
  | .attestCertificate t p => Sys2Proof.Machine.execAttestCertificate t p s
  | .fwBegin t p => Sys2Proof.Machine.execFwBegin t p s
  | .fwData t p => Sys2Proof.Machine.execFwData t p s
  | .fwEnd t p => Sys2Proof.Machine.execFwEnd t p s
  | .fwEndRetry t p => Sys2Proof.Machine.execFwEndRetry t p s
  | .lifecycleAdvance t p => Sys2Proof.Machine.execLifecycleAdvance t p s
  | .keyProvisionTransportKey t p => Sys2Proof.Machine.execKeyProvisionTransportKey t p s
  | .keyProvisionNetworkKey t p => Sys2Proof.Machine.execKeyProvisionNetworkKey t p s
  | .keyProvisionCertificate t p => Sys2Proof.Machine.execKeyProvisionCertificate t p s
  | .healthRead t p => Sys2Proof.Machine.execHealthRead t p s
  | .checkerConfig t p => Sys2Proof.Machine.execCheckerConfig t p s
  | .checkerConfigSkipMask t p => Sys2Proof.Machine.execCheckerConfigSkipMask t p s
  | .repairLog t p => Sys2Proof.Machine.execRepairLog t p s
  | .forceSubstituteRelease t p => Sys2Proof.Machine.execForceSubstituteRelease t p s
  | .forceSubstituteChannel t p => Sys2Proof.Machine.execForceSubstituteChannel t p s
  | .forceSubstituteDie t p => Sys2Proof.Machine.execForceSubstituteDie t p s
  | .sweepTurn t reference temperature => Sys2Proof.Machine.execSweepTurn t reference temperature s
  | .correlationPhaseEnd t => Sys2Proof.Machine.execCorrelationPhaseEnd t s
  | .sweepCaptureHalf t => Sys2Proof.Machine.execSweepCaptureHalf t s
  | .sweepCaptureEnd t => Sys2Proof.Machine.execSweepCaptureEnd t s
  | .interruptionEnd t => Sys2Proof.Machine.execInterruptionEnd t s
  | .sweepResult t => Sys2Proof.Machine.execSweepResult t s
  | .rampStep t => Sys2Proof.Machine.execRampStep t s
  | .newSweepRecommended t channel => Sys2Proof.Machine.execNewSweepRecommended t channel s
  | .calStoreComplete t => Sys2Proof.Machine.execCalStoreComplete t s
  | .calRestoreComplete t => Sys2Proof.Machine.execCalRestoreComplete t s
  | .ctxParkComplete t serial => Sys2Proof.Machine.execCtxParkComplete t serial s
  | .storeFormatComplete t => Sys2Proof.Machine.execStoreFormatComplete t s
  | .fwBeginComplete t => Sys2Proof.Machine.execFwBeginComplete t s
  | .fwEndComplete t => Sys2Proof.Machine.execFwEndComplete t s
  | .lifecycleTransition t => Sys2Proof.Machine.execLifecycleTransition t s
  | .signatureComplete t => Sys2Proof.Machine.execSignatureComplete t s
  | .rawSample t unit sample => Sys2Proof.Machine.execRawSample t unit sample s
  | .windowRearm t channel slow => Sys2Proof.Machine.execWindowRearm t channel slow s
  | .widebandSample t unit => Sys2Proof.Machine.execWidebandSample t unit s
  | .narrowbandSample t unit crossing => Sys2Proof.Machine.execNarrowbandSample t unit crossing s
  | .trackerHoldover t => Sys2Proof.Machine.execTrackerHoldover t s
  | .synchronousCycle t next512 => Sys2Proof.Machine.execSynchronousCycle t next512 s
  | .fadeEnd t channel => Sys2Proof.Machine.execFadeEnd t channel s
  | .peakWindowEnd t channel => Sys2Proof.Machine.execPeakWindowEnd t channel s
  | .sideSliceConversion t die code => Sys2Proof.Machine.execSideSliceConversion t die code s
  | .triggerTimerFiring t timer => Sys2Proof.Machine.execTriggerTimerFiring t timer s
  | .pwminEdge t pin rising quarter => Sys2Proof.Machine.execPwminEdge t pin rising quarter s
  | .triggerAction t consumer => Sys2Proof.Machine.execTriggerAction t consumer s
  | .postTriggerEnd t ring => Sys2Proof.Machine.execPostTriggerEnd t ring s
  | .drainEnd t ring => Sys2Proof.Machine.execDrainEnd t ring s
  | .captureRecordComplete t ring => Sys2Proof.Machine.execCaptureRecordComplete t ring s
  | .basicIntervalEnd t => Sys2Proof.Machine.execBasicIntervalEnd t s
  | .aggregate150180 t => Sys2Proof.Machine.execAggregate150180 t s
  | .tenMinutePeriodEnd t => Sys2Proof.Machine.execTenMinutePeriodEnd t s
  | .twoHourWindowEnd t => Sys2Proof.Machine.execTwoHourWindowEnd t s
  | .tenSecondFrequency t => Sys2Proof.Machine.execTenSecondFrequency t s
  | .supraharmonicBlockEnd t => Sys2Proof.Machine.execSupraharmonicBlockEnd t s
  | .pinstSecond t => Sys2Proof.Machine.execPinstSecond t s
  | .tickClose t => Sys2Proof.Machine.execTickClose t s
  | .tickFold t => Sys2Proof.Machine.execTickFold t s
  | .demandIntervalEnd t => Sys2Proof.Machine.execDemandIntervalEnd t s
  | .loadProfileEntry t => Sys2Proof.Machine.execLoadProfileEntry t s
  | .tariffChange t => Sys2Proof.Machine.execTariffChange t s
  | .billingBoundary t => Sys2Proof.Machine.execBillingBoundary t s
  | .standingCharge t => Sys2Proof.Machine.execStandingCharge t s
  | .checkpoint t => Sys2Proof.Machine.execCheckpoint t s
  | .tariffPinCode t code => Sys2Proof.Machine.execTariffPinCode t code s
  | .creditBtnPress t high low => Sys2Proof.Machine.execCreditBtnPress t high low s
  | .friendlyTimeChange t => Sys2Proof.Machine.execFriendlyTimeChange t s
  | .tamperSwitch t input level => Sys2Proof.Machine.execTamperSwitch t input level s
  | .groupIntervalEnd t group => Sys2Proof.Machine.execGroupIntervalEnd t group s
  | .groupIntervalFinal t group => Sys2Proof.Machine.execGroupIntervalFinal t group s
  | .powerWarning t => Sys2Proof.Machine.execPowerWarning t s
  | .commitEnd t => Sys2Proof.Machine.execCommitEnd t s
  | .rideThrough t lowest => Sys2Proof.Machine.execRideThrough t lowest s
  | .powerOnReset t batteryLost => Sys2Proof.Machine.execPowerOnReset t batteryLost s
  | .startUp t h1mode bootsel vioH vioS => Sys2Proof.Machine.execStartUp t h1mode bootsel vioH vioS s
  | .ready t => Sys2Proof.Machine.execReady t s
  | .contextRestore t => Sys2Proof.Machine.execContextRestore t s
  | .resetN t lowNs => Sys2Proof.Machine.execResetN t lowNs s
  | .watchdogExpiry t => Sys2Proof.Machine.execWatchdogExpiry t s
  | .vcoreFault t => Sys2Proof.Machine.execVcoreFault t s
  | .vanaSupplyFault t dies volts => Sys2Proof.Machine.execVanaSupplyFault t dies volts s
  | .vanaRecovery t volts => Sys2Proof.Machine.execVanaRecovery t volts s
  | .vioSFault t volts => Sys2Proof.Machine.execVioSFault t volts s
  | .vioSRecovery t volts => Sys2Proof.Machine.execVioSRecovery t volts s
  | .vbatLow t volts => Sys2Proof.Machine.execVbatLow t volts s
  | .vbatLowClear t volts => Sys2Proof.Machine.execVbatLowClear t volts s
  | .referenceLoss t => Sys2Proof.Machine.execReferenceLoss t s
  | .modemCrystalLoss t => Sys2Proof.Machine.execModemCrystalLoss t s
  | .rtcCrystalStop t => Sys2Proof.Machine.execRtcCrystalStop t s
  | .ppsEdge t quarter => Sys2Proof.Machine.execPpsEdge t quarter s
  | .ppsUnlock t => Sys2Proof.Machine.execPpsUnlock t s
  | .rateEstimateExpiry t => Sys2Proof.Machine.execRateEstimateExpiry t s
  | .rtcWrite t => Sys2Proof.Machine.execRtcWrite t s
  | .syncEdge t widthNs => Sys2Proof.Machine.execSyncEdge t widthNs s
  | .trialConfirmation t => Sys2Proof.Machine.execTrialConfirmation t s
  | .debugAuthentication t signature => Sys2Proof.Machine.execDebugAuthentication t signature s
  | .varfinFrame t link lane seq crcOk => Sys2Proof.Machine.execVarfinFrame t link lane seq crcOk s
  | .varfinResendTimeout t link => Sys2Proof.Machine.execVarfinResendTimeout t link s
  | .laneLoss t die lane => Sys2Proof.Machine.execLaneLoss t die lane s
  | .laneRetrain t die lane => Sys2Proof.Machine.execLaneRetrain t die lane s
  | .laneReturn t die lane => Sys2Proof.Machine.execLaneReturn t die lane s
  | .timingMessage t modemCount => Sys2Proof.Machine.execTimingMessage t modemCount s
  | .scrub t die region corrected => Sys2Proof.Machine.execScrub t die region corrected s
  | .uncorrectableError t place => Sys2Proof.Machine.execUncorrectableError t place s
  | .lockstepMismatch t pair => Sys2Proof.Machine.execLockstepMismatch t pair s
  | .processorCheckpoint t => Sys2Proof.Machine.execProcessorCheckpoint t s
  | .dspFault t => Sys2Proof.Machine.execDspFault t s
  | .bridgeHandover t channel => Sys2Proof.Machine.execBridgeHandover t channel s
  | .bridgeHandback t channel => Sys2Proof.Machine.execBridgeHandback t channel s
  | .checkerDwellEnd t => Sys2Proof.Machine.execCheckerDwellEnd t s
  | .confirmingDwellEnd t lanesAgree => Sys2Proof.Machine.execConfirmingDwellEnd t lanesAgree s
  | .dieFailure t die cause => Sys2Proof.Machine.execDieFailure t die cause s
  | .substitutionComplete t => Sys2Proof.Machine.execSubstitutionComplete t s
  | .dieReturnTry t die selfTest => Sys2Proof.Machine.execDieReturnTry t die selfTest s
  | .dieReturn t die => Sys2Proof.Machine.execDieReturn t die s
  | .gatehouseEntry t cause => Sys2Proof.Machine.execGatehouseEntry t cause s
  | .tallyTick t => Sys2Proof.Machine.execTallyTick t s
  | .anchorPrediction t => Sys2Proof.Machine.execAnchorPrediction t s
  | .anchor t positive line => Sys2Proof.Machine.execAnchor t positive line s
  | .freeRunTimeout t => Sys2Proof.Machine.execFreeRunTimeout t s
  | .anchorResume t => Sys2Proof.Machine.execAnchorResume t s
  | .frameTransmit t => Sys2Proof.Machine.execFrameTransmit t s
  | .frameReceived t frame => Sys2Proof.Machine.execFrameReceived t frame s
  | .mapFrameSend t => Sys2Proof.Machine.execMapFrameSend t s
  | .mapFrameReceived t frame => Sys2Proof.Machine.execMapFrameReceived t frame s
  | .driverProtection t => Sys2Proof.Machine.execDriverProtection t s
  | .driverProtectionClear t => Sys2Proof.Machine.execDriverProtectionClear t s
  | .erasureRateWindow t => Sys2Proof.Machine.execErasureRateWindow t s
  | .sfskTransmit t => Sys2Proof.Machine.execSfskTransmit t s
  | .sfskFrameReceived t bits => Sys2Proof.Machine.execSfskFrameReceived t bits s
  | .pollEntryDue t index => Sys2Proof.Machine.execPollEntryDue t index s
  | .transactionStart t => Sys2Proof.Machine.execTransactionStart t s
  | .transactionDeadline t id => Sys2Proof.Machine.execTransactionDeadline t id s
  | .intervalDataResponse t => Sys2Proof.Machine.execIntervalDataResponse t s
  | .routeError t => Sys2Proof.Machine.execRouteError t s
  | .neighbourReport t => Sys2Proof.Machine.execNeighbourReport t s
  | .hostResponse t => Sys2Proof.Machine.execHostResponse t s
  | .discoveryStart t => Sys2Proof.Machine.execDiscoveryStart t s
  | .discoveryTimeout t => Sys2Proof.Machine.execDiscoveryTimeout t s
  | .routePass t => Sys2Proof.Machine.execRoutePass t s
  | .linkSilence t handle => Sys2Proof.Machine.execLinkSilence t handle s
  | .fenceMarker t session => Sys2Proof.Machine.execFenceMarker t session s
  | .logCheckpoint t => Sys2Proof.Machine.execLogCheckpoint t s
  | .blockRetire t device lost => Sys2Proof.Machine.execBlockRetire t device lost s
  | .uartReplySent t => Sys2Proof.Machine.execUartReplySent t s
  | .frameSent t => Sys2Proof.Machine.execFrameSent t s
  | .delimiterDetected t => Sys2Proof.Machine.execDelimiterDetected t s
  | .rideThroughCheckpointEnd t belowWarning => Sys2Proof.Machine.execRideThroughCheckpointEnd t belowWarning s
  | .rtcOscillatorRestart t => Sys2Proof.Machine.execRtcOscillatorRestart t s

end Sys2Proof.Machine
end

