-- ==== Sys2Proof/Safety.lean ====
section
/-! DEFINITION. What claims speak of: a request that P0 takes and that no check refuses, what answering it leaves, and the
invariant of every state a run reaches. -/

namespace Sys2Proof.Machine

/-- The state in which P0 works on the request it has taken from a port at an instant (R49). -/
abbrev State.taken (s : State) (t : Nat) (p : Port) : State := (s.tickTo t).take p

/-- At instant `t` the request `q`, whole, is the one P0 takes next at port `p`, and it is the row's (R49). -/
def Row.hears (row : Row) (t : Nat) (p : Port) (s : State) (q : Request) : Bool :=
  (s.tickTo t).front p = some q && q.verdict = .whole && row.takes (Req.of p q) (s.tickTo t)

/-- It comes, in normal operation, from an open session of its port, or its opcode needs none: checks 4 and 5 of Table 2.5 pass. -/
def Row.admits (row : Row) (t : Nat) (p : Port) (s : State) (q : Request) : Bool :=
  let r := Req.of p q
  (s.phase = .ready || s.phase = .running) && row.hears t p s q && fitsPort p r.session &&
  (((s.taken t p).session r.session).isOpen || r.opcode = 0x0101 || r.opcode = 0x0001 || r.opcode = 0x0002)

/-- It is no duplicate, and its session has no request in progress (R50, R51). -/
def Row.fresh (row : Row) (t : Nat) (p : Port) (s : State) (q : Request) : Bool :=
  let r := Req.of p q
  row.admits t p s q && ((s.taken t p).session r.session).duplicate r = none && ((s.taken t p).session r.session).busy = none

/-- No check of Table 2.5 and no refusal of Table 16.1 fails it either (R47, R477): the row's own rules decide. -/
def Row.calls (row : Row) (t : Nat) (p : Port) (s : State) (q : Request) : Bool :=
  row.fresh t p s q && row.refusal (Req.of p q) (s.taken t p) = none

/-- The row of the opcode table that a command serves, with its instant and port; `none` for UNDEFINED_OPCODE and for commands that no
request carries. -/
def servedBy (i : Instr) : Option (Nat × Port × Row) :=
  match i with
  | .ping t p => some (t, p, pingRow)
  | .getInfo t p => some (t, p, getInfoRow)
  | .getStatus t p => some (t, p, getStatusRow)
  | .reset t p => some (t, p, resetRow)
  | .resetIntoRecovery t p => some (t, p, resetIntoRecoveryRow)
  | .setTime t p => some (t, p, setTimeRow)
  | .getTime t p => some (t, p, getTimeRow)
  | .setClockPolicy t p => some (t, p, setClockPolicyRow)
  | .fence t p => some (t, p, fenceRow)
  | .gatehouseRead t p => some (t, p, gatehouseReadRow)
  | .openSession t p => some (t, p, openRow)
  | .closeSession t p => some (t, p, closeRow)
  | .claim t p => some (t, p, claimRow)
  | .yield t p => some (t, p, yieldRow)
  | .accept t p => some (t, p, acceptRow)
  | .keepalive t p => some (t, p, keepaliveRow)
  | .whoOwns t p => some (t, p, whoOwnsRow)
  | .chConfig t p => some (t, p, chConfigRow)
  | .chQuery t p => some (t, p, chQueryRow)
  | .trigConfig t p => some (t, p, trigConfigRow)
  | .inject t p => some (t, p, injectRow)
  | .windowSet t p => some (t, p, windowSetRow)
  | .sync t p => some (t, p, syncRow)
  | .captureArm t p => some (t, p, captureArmRow)
  | .captureStop t p => some (t, p, captureStopRow)
  | .bankLoad t p => some (t, p, bankLoadRow)
  | .bankSwap t p => some (t, p, bankSwapRow)
  | .detectorSet t p => some (t, p, detectorSetRow)
  | .resamplerSet t p => some (t, p, resamplerSetRow)
  | .resamplerSetDelay t p => some (t, p, resamplerSetDelayRow)
  | .streamRead t p => some (t, p, streamReadRow)
  | .calSweep t p => some (t, p, calSweepRow)
  | .calStatus t p => some (t, p, calStatusRow)
  | .calImageRead t p => some (t, p, calImageReadRow)
  | .calImageWrite t p => some (t, p, calImageWriteRow)
  | .calStore t p => some (t, p, calStoreRow)
  | .calRestore t p => some (t, p, calRestoreRow)
  | .calLimitsRead t p => some (t, p, calLimitsReadRow)
  | .calLimitsWrite t p => some (t, p, calLimitsWriteRow)
  | .measConfig t p => some (t, p, measConfigRow)
  | .measRead t p => some (t, p, measReadRow)
  | .pqEventConfig t p => some (t, p, pqEventConfigRow)
  | .harmonicRead t p => some (t, p, harmonicReadRow)
  | .flickerRead t p => some (t, p, flickerReadRow)
  | .ctxCreate t p => some (t, p, ctxCreateRow)
  | .ctxDelete t p => some (t, p, ctxDeleteRow)
  | .ctxRead t p => some (t, p, ctxReadRow)
  | .ctxTariffTable t p => some (t, p, ctxTariffTableRow)
  | .ctxDemandConfig t p => some (t, p, ctxDemandConfigRow)
  | .ctxSnapshotRead t p => some (t, p, ctxSnapshotReadRow)
  | .ctxPark t p => some (t, p, ctxParkRow)
  | .ctxUnpark t p => some (t, p, ctxUnparkRow)
  | .ctxShadowFeed t p => some (t, p, ctxShadowFeedRow)
  | .balanceConfigParameters t p => some (t, p, balanceParametersRow)
  | .balanceConfigAdd t p => some (t, p, balanceAddRow)
  | .balanceConfigRemove t p => some (t, p, balanceRemoveRow)
  | .balanceConfigDissolve t p => some (t, p, balanceDissolveRow)
  | .balanceReadResults t p => some (t, p, balanceReadResultsRow)
  | .balanceReadMembers t p => some (t, p, balanceReadMembersRow)
  | .prepayConfig t p => some (t, p, prepayConfigRow)
  | .creditAdd t p => some (t, p, creditAddRow)
  | .emergencyCredit t p => some (t, p, emergencyCreditRow)
  | .friendlySet t p => some (t, p, friendlySetRow)
  | .relayControlQuery t p => some (t, p, relayQueryRow)
  | .relayControlOpen t p => some (t, p, relayOpenRow)
  | .relayControlClose t p => some (t, p, relayCloseRow)
  | .relayControlArm t p => some (t, p, relayArmRow)
  | .relayControlPolarity t p => some (t, p, relayPolarityRow)
  | .tamperConfigContext t p => some (t, p, tamperContextRow)
  | .tamperConfigLevels t p => some (t, p, tamperLevelsRow)
  | .tamperRead t p => some (t, p, tamperReadRow)
  | .lineConfig t p => some (t, p, lineConfigRow)
  | .tonemapRead t p => some (t, p, tonemapReadRow)
  | .tonemapPin t p => some (t, p, tonemapPinRow)
  | .tonemapUnpin t p => some (t, p, tonemapUnpinRow)
  | .nodeAdmitAdmit t p => some (t, p, nodeAdmitAdmitRow)
  | .nodeAdmitRemove t p => some (t, p, nodeAdmitRemoveRow)
  | .routeRead t p => some (t, p, routeReadRow)
  | .pollListLoad t p => some (t, p, pollListLoadRow)
  | .pollStart t p => some (t, p, pollStartRow)
  | .pollStop t p => some (t, p, pollStopRow)
  | .lineSend t p => some (t, p, lineSendRow)
  | .lineSendSfsk t p => some (t, p, lineSendSfskRow)
  | .lineStatsNeighbour t p => some (t, p, lineStatsNeighbourRow)
  | .lineStatsCounters t p => some (t, p, lineStatsCountersRow)
  | .lineStatsSfskFrames t p => some (t, p, lineStatsSfskFramesRow)
  | .lineStatsResponse t p => some (t, p, lineStatsResponseRow)
  | .privilegeSet t p => some (t, p, privilegeSetRow)
  | .privilegeClear t p => some (t, p, privilegeClearRow)
  | .eventRead t p => some (t, p, eventReadRow)
  | .eventReadFlush t p => some (t, p, eventReadFlushRow)
  | .eventMask t p => some (t, p, eventMaskRow)
  | .watermarkSet t p => some (t, p, watermarkSetRow)
  | .storeInfo t p => some (t, p, storeInfoRow)
  | .captureRead t p => some (t, p, captureReadRow)
  | .markSet t p => some (t, p, markSetRow)
  | .markClear t p => some (t, p, markClearRow)
  | .logRead t p => some (t, p, logReadRow)
  | .storeFormat t p => some (t, p, storeFormatRow)
  | .attestQuote t p => some (t, p, attestQuoteRow)
  | .attestFetch t p => some (t, p, attestFetchRow)
  | .attestPublicKey t p => some (t, p, attestPublicKeyRow)
  | .attestCertificate t p => some (t, p, attestCertificateRow)
  | .fwBegin t p => some (t, p, fwBeginRow)
  | .fwData t p => some (t, p, fwDataRow)
  | .fwEnd t p => some (t, p, fwEndRow)
  | .fwEndRetry t p => some (t, p, fwEndRetryRow)
  | .lifecycleAdvance t p => some (t, p, lifecycleAdvanceRow)
  | .keyProvisionTransportKey t p => some (t, p, keyProvisionTransportKeyRow)
  | .keyProvisionNetworkKey t p => some (t, p, keyProvisionNetworkKeyRow)
  | .keyProvisionCertificate t p => some (t, p, keyProvisionCertificateRow)
  | .healthRead t p => some (t, p, healthReadRow)
  | .checkerConfig t p => some (t, p, checkerConfigRow)
  | .checkerConfigSkipMask t p => some (t, p, checkerConfigSkipMaskRow)
  | .repairLog t p => some (t, p, repairLogRow)
  | .forceSubstituteRelease t p => some (t, p, forceReleaseRow)
  | .forceSubstituteChannel t p => some (t, p, forceChannelRow)
  | .forceSubstituteDie t p => some (t, p, forceDieRow)
  | _ => none

/-- The command ends in the state `u` with its reply: status and payload (Table 2.4, R50). -/
def Ends (i : Instr) (s : State) (r : Req) (status : Nat) (payload : List Byte) (u : State) : Prop :=
  exec i s = .next (u.answer r status payload)

/-- The command is answered, and the state before the reply is formed satisfies `P`. -/
def Answers (i : Instr) (s : State) (r : Req) (status : Nat) (payload : List Byte) (P : State → Prop) : Prop :=
  ∃ u, Ends i s r status payload u ∧ P u

/-- The command completes in a state that satisfies `P`. -/
def Leads (i : Instr) (s : State) (P : State → Prop) : Prop := ∃ u, exec i s = .next u ∧ P u

/-- How many objects a state holds of each kind whose number is fixed: channels, converters, dies, trigger timers, capture rings, sessions,
balance groups, tamper inputs. -/
def State.shape (s : State) : List Nat :=
  [s.channels.length, s.converters.length, s.dies.length, s.timers.length, s.captures.length, s.host.sessions.length,
   s.bill.groups.length, s.bill.tamp.length]

/-- The numbers the part has of them (Table 1.1, Table 1.5, R57, R267). -/
def partShape : List Nat := [24, 30, 8, 8, 8, 8, 16, 4]

/-- The state holds the objects of the part, no more and no fewer. -/
def State.Inv (s : State) : Prop := s.shape = partShape

end Sys2Proof.Machine
end

