-- ==== Sys2Proof/Certificates/Slice0/Obligations.lean ====
section
/-! DEFINITION. The statements about the part: what its commands do, what every step keeps, and what reset leaves. -/

open Sys2Proof Sys2Proof.Machine

/-! ### The block as a whole -/

/-- One step takes the command at the front of the queue and runs it over the rest; an empty queue idles (log 3). -/
def Obligations.StepRunsFront : Prop :=
  (∀ (c : Instr) (rest : List Instr) (s : State), s.pending = c :: rest → step s = exec c { s with pending := rest }) ∧
  (∀ s : State, s.pending = [] → step s = .next s)

/-- A command whose objects the part has always answers a next state; one that names an object the part does not have stops with the one fault
of the model. Nothing is refused. -/
def Obligations.WellFormedRuns : Prop :=
  ∀ (i : Instr) (s : State),
    (i.wf = true → Leads i s (fun _ => True)) ∧ (i.wf = false → exec i s = .fault .noSuchObject)

/-- After reset no session is open and none owns the part (R58); every channel is enabled in range mode 0 with forwarding off (R437); the
queues, operations and rings are empty, and the objects are those of the part. -/
def Obligations.ResetLeaves : Prop :=
  State.reset.phase = .held ∧ State.reset.host.owner = none ∧ (∀ k, (State.reset.session k).isOpen = false) ∧
  State.reset.host.ops = [] ∧ State.reset.host.nextTag = 1 ∧ State.reset.pending = [] ∧ State.reset.bill.live = [] ∧
  (∀ n, (State.reset.chan n).enabled = true ∧ (State.reset.chan n).rangeMode = 0 ∧ (State.reset.chan n).forwarding = false) ∧
  (∀ p, (State.reset.port p).rx = [] ∧ (State.reset.port p).replies = []) ∧ State.reset.Inv

/-- Every step keeps the objects of the part: 24 channels, 30 converters, 8 dies, 8 timers, 8 rings, 8 sessions, 16 groups, 4 tamper inputs. -/
def Obligations.StepKeepsObjects : Prop := ∀ s s' : State, s.Inv → step s = .next s' → s'.Inv

/-- No command moves time back, none runs before its instant, and none adds to the queue of waiting commands or takes from it. -/
def Obligations.TimeAndQueue : Prop :=
  ∀ (i : Instr) (s s' : State), exec i s = .next s' → s.now ≤ s'.now ∧ s'.pending = s.pending

/-- While the part is held in reset no session is open, no session owns it and no election runs, whatever command runs, whichever reset began
it (R58). -/
def Obligations.HeldPartHasNoSession : Prop :=
  let quiet := fun (s : State) => (∀ x ∈ s.host.sessions, x.isOpen = false) ∧ s.host.owner = none ∧ s.host.election = none
  (∀ s u : State, (s.phase = .held → quiet s) → step s = .next u → u.phase = .held → quiet u) ∧ quiet State.reset

/-- A request that no check fails is answered by the rules of its own row, over the state in which P0 has taken it. -/
def Obligations.CallsAreServed : Prop :=
  ∀ (i : Instr) (t : Nat) (p : Port) (row : Row) (s : State) (q : Request), servedBy i = some (t, p, row) → row.calls t p s q = true →
    exec i s = .next ((row.body (Req.of p q) (s.taken t p)).finish q (Req.of p q))

/-- A request that a check fails changes nothing but its reply, which carries the status of the first check that fails (R47). An opcode that
Table 16.2 does not define receives BAD_OPCODE and changes nothing (R478, Table 2.5). Shown to complete, under conditions on the state and
the operands alone: undefinedOpcode. -/
def Obligations.RefusalsChangeNothing : Prop :=
  (∀ (i : Instr) (t : Nat) (p : Port) (row : Row) (s : State) (q : Request) (status : Nat), servedBy i = some (t, p, row) →
      row.fresh t p s q = true → row.refusal (Req.of p q) (s.taken t p) = some status →
      exec i s = .next ((s.taken t p).answer (Req.of p q) status [])) ∧
  (∀ (t : Nat) (p : Port) (s : State) (q : Request), (undefinedRow (Req.of p q).opcode).fresh t p s q = true → s.front p = some q →
      opSpec (Req.of p q).opcode = none → (Req.of p q).flags ≤ 1 → (Req.of p q).reserved = 0 →
      Ends (.undefinedOpcode t p) s (Req.of p q) stBadOpcode [] (s.taken t p))

/-- A duplicate receives its stored reply again, with REPLAYED set, whatever the checks after the fifth would say; nothing else changes (R50).
A repeat of the request in progress is discarded, and any other request of that session receives BUSY (R51). -/
def Obligations.DuplicatesAreReplayed : Prop :=
  ∀ (i : Instr) (t : Nat) (p : Port) (row : Row) (s : State) (q : Request), servedBy i = some (t, p, row) → row.admits t p s q = true →
    (∀ d, ((s.taken t p).session (Req.of p q).session).duplicate (Req.of p q) = some d →
      exec i s = .next ((s.taken t p).queueReply p { d.reply with flags := d.reply.flags ||| 1 })) ∧
    (∀ b, ((s.taken t p).session (Req.of p q).session).duplicate (Req.of p q) = none →
      ((s.taken t p).session (Req.of p q).session).busy = some b →
      exec i s = .next (if sameRequest p b (Req.of p q) then s.taken t p else (s.taken t p).answer (Req.of p q) stBusy []))

/-! ### Host transfers -/

/-- A WRITE_PACKET of 12 + L + 4 bytes that begins with 5Ah, while the part is ready and holds fewer than 4 requests, is received at this
instant and takes its place among the whole requests that wait; nothing else changes (R37, R40, R49). What WRITE_PACKET discards, and the
one status bit it sets: FRAMING for a first byte other than 5Ah, OVERRUN while 4 requests wait, nothing while the part is not ready (R37).
READ_PACKET drives the status word and the oldest reply, then FFh, and the reply leaves its queue only when all of it was clocked out;
READ_STATUS drives the status word and removes nothing. Either clears OVERRUN and FRAMING once the whole word was sent (R38, R39). Shown
to complete, under conditions on the state and the operands alone: writePacket, readPacket, readStatus. -/
def Obligations.PacketTransfers : Prop :=
  (∀ (t : Nat) (p : Port) (bytes : List Byte) (s : State),
      s.spi p = true → s.readyOn p = true → (s.port p).rx.length < 4 → (∀ x ∈ (s.port p).rx, x.verdict = .whole) →
      byteAt bytes 0 = 0x5A → field bytes 6 2 ≤ 4096 → bytes.length = 16 + field bytes 6 2 → crcHolds bytes = true →
      exec (.writePacket t p 2 bytes) s = .next ((s.tickTo t).setPort p (fun a =>
        { a with rx := placeRequest { bytes := bytes, rxAt := max s.now t, verdict := .whole } a.rx }))) ∧
  (∀ (t : Nat) (p : Port) (bytes : List Byte) (s : State), s.spi p = true → s.phase ≠ .held →
      (s.readyOn p = true → (s.port p).rx.length < 4 → byteAt bytes 0 ≠ 0x5A →
        exec (.writePacket t p 2 bytes) s = .next ((s.tickTo t).setPort p (fun a => { a with framing := true }))) ∧
      (s.readyOn p = true → 4 ≤ (s.port p).rx.length →
        exec (.writePacket t p 2 bytes) s = .next ((s.tickTo t).setPort p (fun a => { a with overrun := true }))) ∧
      (s.readyOn p = false → exec (.writePacket t p 2 bytes) s = .next (s.tickTo t))) ∧
  (∀ (t : Nat) (p : Port) (clocked : Nat) (s : State), s.spi p = true → s.phase ≠ .held →
      (∀ x rest, (s.port p).replies = x :: rest →
        exec (.readPacket t p clocked) s = .next ((s.tickTo t).setPort p (fun a =>
          { a with
            out := driven clocked (le 2 (s.statusWord p) ++ x.bytes)
            overrun := a.overrun && decide (clocked < 2), framing := a.framing && decide (clocked < 2)
            replies := if (le 2 (s.statusWord p) ++ x.bytes).length ≤ clocked then rest else x :: rest }))) ∧
      exec (.readStatus t p clocked) s = .next ((s.tickTo t).setPort p (fun a =>
        { a with
          out := driven clocked (le 2 (s.statusWord p))
          overrun := a.overrun && decide (clocked < 2), framing := a.framing && decide (clocked < 2) })))

/-- The UART: a sync byte 5Ah sets the rate and begins a request (R42); a break forgets the rate and the partial request (R43); more than 10
ms of idle line discards the partial request (R44); a byte other than 5Ah is discarded while the part hunts, and 5Ah begins a request
(R44). The bytes of a request take their places one after another, however many come together, and the last byte of a whole request puts
it among the requests that wait (R44, R49). A reply sent leaves its queue (R45). Shown to complete, under conditions on the state and the
operands alone: syncByte, breakLine, uartIdleGap, uartRequest, uartReplySent. -/
def Obligations.UartLine : Prop :=
  ∀ (t : Nat) (s : State), s.host.h1Uart = true → s.readyOn .h1 = true →
    (∀ baud, s.host.uartRate = none → s.uartRates baud = true →
      exec (.syncByte t 0x5A baud) s =
        .next { s.tickTo t with host := { s.host with uartRate := some baud, uartPart := [0x5A] } }) ∧
    (∀ bits, 20 ≤ bits → exec (.breakLine t bits) s =
        .next { s.tickTo t with host := { s.host with uartPart := [], uartRate := none } }) ∧
    (∀ gap, 10 * Config.ms < gap → exec (.uartIdleGap t gap) s = .next { s.tickTo t with host := { s.host with uartPart := [] } }) ∧
    (∀ b : Byte, s.host.uartRate.isSome = true → s.host.uartPart = [] →
      exec (.uartRequest t [b]) s =
        .next (if b = 0x5A then { s.tickTo t with host := { s.host with uartPart := [b] } } else s.tickTo t)) ∧
    (∀ bytes : List Byte, s.host.uartRate.isSome = true →
      exec (.uartRequest t bytes) s = .next (bytes.foldl State.uartByte (s.tickTo t))) ∧
    (∀ bytes : List Byte, s.host.uartRate.isSome = true → s.host.uartPart = [] → (∀ x ∈ s.host.h1.rx, x.verdict = .whole) →
      byteAt bytes 0 = 0x5A → field bytes 6 2 ≤ 4096 → bytes.length = 16 + field bytes 6 2 → crcHolds bytes = true →
      exec (.uartRequest t bytes) s = .next ((s.tickTo t).setPort .h1 (fun a =>
        { a with rx := placeRequest { bytes := bytes, rxAt := max s.now t, verdict := .whole } a.rx }))) ∧
    (∀ x rest, s.host.h1.replies = x :: rest →
      exec (.uartReplySent t) s =
        .next { s.tickTo t with host := { s.host with h1 := { s.host.h1 with replies := rest, out := x.bytes } } })

/-! ### Sessions and ownership -/

/-- OPEN on a closed session opens it with the default mask, no mark and event source 172 in its queue, and answers owner, successor, election
and reset cause; no other session and no ownership changes (R57, R445, Table 16.4). On an open session it is WRONG_STATE. CLOSE leaves the
session closed and empty: its queue, its marks and its stored reply are gone (R57). The owner that closes leaves the part without an
owner; any other session leaves ownership as it was (R64). Shown to complete, under conditions on the state and the operands alone:
openSession, closeSession. -/
def Obligations.SessionsOpenAndClose : Prop :=
  (∀ (t : Nat) (p : Port) (s : State) (q : Request), openRow.calls t p s q = true → s.Inv →
      let r := Req.of p q
      let u₀ := s.taken t p
      ((u₀.session r.session).isOpen = false →
        Answers (.openSession t p) s r stOk (u₀.ownership ++ le 1 u₀.power.cause ++ zeros 3) (fun u =>
          (u.session r.session).isOpen = true ∧ (u.session r.session).queue.mask = defaultMask ∧ (u.session r.session).marks = [] ∧
          (∃ e ∈ (u.session r.session).queue.items, e.source = 172) ∧ (∀ k, k ≠ r.session → u.session k = u₀.session k) ∧
          u.host.owner = s.host.owner)) ∧
      ((u₀.session r.session).isOpen = true → Ends (.openSession t p) s r stWrongState [] u₀)) ∧
  (∀ (t : Nat) (p : Port) (s : State) (q : Request), closeRow.calls t p s q = true → s.Inv →
      Answers (.closeSession t p) s (Req.of p q) stOk [] (fun u =>
        u.session (Req.of p q).session = {} ∧
        u.host.owner = if s.host.owner = some (Req.of p q).session then none else s.host.owner))

/-- The first CLAIM while there is no owner and no election opens a window of 50 ms from its receipt; a later one joins it; each receives
ACCEPTED with the next tag (R60, R54). A CLAIM of the owner is OK, and one of another session is DENIED (R62). The winner of a window is a
session that claimed, judged by its last claim; no other has a higher priority, and a tie goes to the lower session number (R61). At the
end of a window, once no CLAIM received before it waits, its winner becomes the owner as of that end, and the window is over; before it,
nothing happens (R60, R61). Shown to complete, under conditions on the state and the operands alone: claim, electionWindowEnd. -/
def Obligations.Elections : Prop :=
  (∀ (t : Nat) (p : Port) (s : State) (q : Request), claimRow.calls t p s q = true →
      let r := Req.of p q
      let u₀ := s.taken t p
      (s.host.owner = none → s.host.election = none → s.opRoom r.session = true →
        Answers (.claim t p) s r stAccepted (le 2 s.host.nextTag) (fun u =>
          u.host.election = some { endAt := q.rxAt + 50 * Config.ms, claims := [{ session := r.session, priority := r.u 0 1, tag := s.host.nextTag }] } ∧
          u.host.nextTag = tagAfter s.host.nextTag ∧ u.host.owner = none)) ∧
      (∀ e, s.host.owner = none → s.host.election = some e → q.rxAt < e.endAt → s.opRoom r.session = true →
        Answers (.claim t p) s r stAccepted (le 2 s.host.nextTag) (fun u =>
          u.host.election = some { e with claims := e.claims ++ [{ session := r.session, priority := r.u 0 1, tag := s.host.nextTag }] })) ∧
      (∀ k, s.host.owner = some k → s.host.election = none →
        Ends (.claim t p) s r (if k = r.session then stOk else stDenied) [] u₀)) ∧
  (∀ (e : Election) (k prio : Nat), e.winner = some (k, prio) →
      k < 8 ∧ e.priorityOf k = some prio ∧ ∀ j x, j < 8 → e.priorityOf j = some x → x ≤ prio ∧ (x = prio → k ≤ j)) ∧
  (∀ (t : Nat) (s : State) (e : Election), s.host.election = some e →
      (∀ w, e.winner = some w → e.endAt ≤ max s.now t → s.waits 0x0103 e.endAt (fun _ => true) = false →
        Leads (.electionWindowEnd t) s (fun u => u.host.owner = some w.1 ∧ u.host.election = none ∧ u.host.keepAt = e.endAt)) ∧
      (s.waits 0x0103 e.endAt (fun _ => true) = true → exec (.electionWindowEnd t) s = .next (s.tickTo t)) ∧
      (max s.now t < e.endAt → exec (.electionWindowEnd t) s = .next (s.tickTo t)))

/-- KEEPALIVE of the owner starts its 2 s afresh at its receipt, and has no effect from another session; the owner loses ownership 2 s after
the last one or after it became owner, and not before, nor while a KEEPALIVE received in time waits to be taken (R63). Shown to complete,
under conditions on the state and the operands alone: keepalive, ownershipSilence. -/
def Obligations.KeepaliveAndSilence : Prop :=
  (∀ (t : Nat) (p : Port) (s : State) (q : Request), keepaliveRow.calls t p s q = true →
    Answers (.keepalive t p) s (Req.of p q) stOk [] (fun u => u.host.owner = s.host.owner ∧
      u.host.keepAt = if s.host.owner = some (Req.of p q).session then max s.host.keepAt q.rxAt else s.host.keepAt)) ∧
  (∀ (t : Nat) (s : State),
    (s.host.keepAt + 2 * Config.ticksPerSecond ≤ max s.now t → s.waits 0x0106 s.silentAt (fun k => s.host.owner = some k) = false →
      Leads (.ownershipSilence t) s (fun u => u.host.owner = none)) ∧
    (max s.now t < s.host.keepAt + 2 * Config.ticksPerSecond → exec (.ownershipSilence t) s = .next (s.tickTo t)))

/-- YIELD to an open session names it for 1 s (R65). ACCEPT of the named session within that second moves ownership to it (R66). With no
ACCEPT the handover ends and the owner stays (R67). ACCEPT of another session is DENIED, and without a pending handover WRONG_STATE (R68).
WHO_OWNS answers the owner, the named successor, whether an election runs and the milliseconds left (R480, Table 16.4). Shown to complete,
under conditions on the state and the operands alone: yield, accept, handoverTimeout, whoOwns. -/
def Obligations.HandoverRules : Prop :=
  ((∀ (t : Nat) (p : Port) (s : State) (q : Request), yieldRow.calls t p s q = true →
      (s.session ((Req.of p q).u 0 1)).isOpen = true → s.host.handover = none → s.opRoom (Req.of p q).session = true →
      Answers (.yield t p) s (Req.of p q) stAccepted (le 2 s.host.nextTag) (fun u =>
        u.host.owner = s.host.owner ∧
        u.host.handover = some { successor := (Req.of p q).u 0 1, endAt := q.rxAt + Config.ticksPerSecond, tag := s.host.nextTag })) ∧
    (∀ (t : Nat) (p : Port) (s : State) (q : Request), acceptRow.calls t p s q = true →
      (s.host.handover = none → Ends (.accept t p) s (Req.of p q) stWrongState [] (s.taken t p)) ∧
      (∀ h, s.host.handover = some h → h.endAt ≤ q.rxAt →
        Answers (.accept t p) s (Req.of p q) stWrongState [] (fun u => u.host.handover = none ∧ u.host.owner = s.host.owner)) ∧
      (∀ h, s.host.handover = some h → q.rxAt < h.endAt → h.successor ≠ (Req.of p q).session →
        Ends (.accept t p) s (Req.of p q) stDenied [] (s.taken t p)) ∧
      (∀ h, s.host.handover = some h → q.rxAt < h.endAt → h.successor = (Req.of p q).session →
        Answers (.accept t p) s (Req.of p q) stOk [] (fun u =>
          u.host.owner = some (Req.of p q).session ∧ u.host.handover = none ∧ u.host.keepAt = max s.now t))) ∧
    (∀ (t : Nat) (s : State) (h : Handover), s.host.handover = some h → h.endAt ≤ max s.now t →
      s.waits 0x0105 h.endAt (fun k => k = h.successor) = false →
      Leads (.handoverTimeout t) s (fun u => u.host.handover = none ∧ u.host.owner = s.host.owner))) ∧
  (∀ (t : Nat) (p : Port) (s : State) (q : Request), whoOwnsRow.calls t p s q = true →
      Ends (.whoOwns t p) s (Req.of p q) stOk
        (le 1 (s.host.owner.getD 255) ++ le 1 ((s.host.handover.map (fun h => h.successor)).getD 255) ++
          le 1 (ofBool s.host.election.isSome) ++ zeros 1 ++ le 2 (s.taken t p).remaining ++ zeros 2) (s.taken t p))

/-! ### System, clock commands and event queues -/

/-- Requests that read: PING returns its bytes, GET_INFO, GET_STATUS, GET_TIME and GATEHOUSE_READ return their records, and nothing else
changes (R480-R482, R363). What GET_STATUS tells of start-up, store, owner, lifecycle and operations, at the offsets of Table 16.5. Shown
to complete, under conditions on the state and the operands alone: ping, getInfo, getStatus, getTime, gatehouseRead. -/
def Obligations.SystemReads : Prop :=
  (∀ (t : Nat) (p : Port) (s : State) (q : Request),
      let r := Req.of p q
      let u := s.taken t p
      (pingRow.calls t p s q = true → Ends (.ping t p) s r stOk r.payload u) ∧
      (getInfoRow.calls t p s q = true →
        Ends (.getInfo t p) s r stOk
          (le 16 Config.partId ++ le 2 0x3142 ++ le 2 u.image.release ++ le 4 u.image.build ++ le 1 u.image.version ++ le 1 s.sec.counter ++
            le 1 s.sec.lifecycle ++ le 1 (ofBool s.host.h1Uart + 2 * ofBool s.host.bootsel) ++ le 1 0 ++ le 1 s.store.boot.active ++
            le 1 s.store.boot.trialState ++ le 1 s.power.cause ++ le 8 s.power.readyUtc ++ zeros 8) u) ∧
      (getStatusRow.calls t p s q = true → Ends (.getStatus t p) s r stOk u.statusBytes u) ∧
      (getTimeRow.calls t p s q = true →
        Ends (.getTime t p) s r stOk
          (le 8 (u.utcAt (max s.now t)).toNat ++ le 8 (max s.now t) ++ le 4 (toF32 (s.clock.eps * 1000000)).toNat ++
            le 1 (ofBool s.clock.ppsLocked + 2 * ofBool s.clock.epsValid + 4 * ofBool (!s.clock.rtcValid) + 8 * ofBool u.slewing) ++
            zeros 3 ++ leInt 8 u.lastAdjustment) u) ∧
      (gatehouseReadRow.calls t p s q = true → Ends (.gatehouseRead t p) s r stOk (u.gateBytes ++ le 4 (crc32c u.gateBytes)) u)) ∧
  (∀ s : State, s.statusBytes.length = 32 ∧ field s.statusBytes 0 2 = 1 ∧
      (s.phase = .running → field s.statusBytes 2 1 = 0 ∧ field s.statusBytes 3 1 = 2) ∧
      (s.store.formatting.isSome = true → field s.statusBytes 5 1 = 3) ∧
      (∀ k, s.host.owner = some k → k < 8 → field s.statusBytes 6 1 = k) ∧ (s.host.owner = none → field s.statusBytes 6 1 = 255) ∧
      (s.sec.lifecycle ≤ 4 → field s.statusBytes 7 1 = s.sec.lifecycle) ∧
      (s.host.ops.length ≤ 32 → field s.statusBytes 24 1 = s.host.ops.length) ∧
      (s.bill.live.length ≤ 160 → field s.statusBytes 22 2 = s.bill.live.length))

/-- RESET answers OK, and a restart of its kind is asked for, not before now: cause 3, or 4 into recovery (R443, R445). Where the part meters,
the commit starts first (R245); elsewhere, as in recovery and in gatehouse mode, none comes before it (Table 11.9). COMMIT_END then
performs it. Shown to complete, under conditions on the state and the operands alone: reset, resetIntoRecovery, commitEnd. -/
def Obligations.ResetRequests : Prop :=
  (∀ (t : Nat) (p : Port) (s : State) (q : Request),
    let asked := fun (cause : Nat) (u : State) => u.power.reset = some { cause := cause, notBefore := max s.now t } ∧ u.phase = s.phase ∧
      (s.phase = .running → u.power.commit.isSome = true) ∧ (s.phase ≠ .running → u.power.commit = s.power.commit)
    (resetRow.calls t p s q = true → Answers (.reset t p) s (Req.of p q) stOk [] (asked 3)) ∧
    (resetIntoRecoveryRow.calls t p s q = true → Answers (.resetIntoRecovery t p) s (Req.of p q) stOk [] (asked 4)) ∧
    (resetRow.hears t p s q = true → fitsPort p (Req.of p q).session = true → (Req.of p q).len = 4 → (Req.of p q).opcode = 4 →
      (s.phase = .gatehouse → Answers (.reset t p) s (Req.of p q) stOk [] (asked 3)) ∧
      (s.phase = .recovery → resetRow.valid (Req.of p q) s = true → Answers (.reset t p) s (Req.of p q) stOk [] (asked 3))) ∧
    (resetIntoRecoveryRow.hears t p s q = true → fitsPort p (Req.of p q).session = true → (Req.of p q).len = 4 → (Req.of p q).opcode = 4 →
      s.phase = .recovery → resetIntoRecoveryRow.valid (Req.of p q) s = true → Answers (.resetIntoRecovery t p) s (Req.of p q) stOk [] (asked 4))) ∧
  (∀ (t : Nat) (s : State) (x : PendingReset), s.phase ≠ .held → s.power.reset = some x →
    Leads (.commitEnd t) s (fun u => u.phase = .held ∧ u.power.cause = x.cause ∧ u.power.commit = none ∧ ∀ y ∈ u.host.sessions, y.isOpen = false))

/-- SET_TIME plans one adjustment: it comes into force at the first tick boundary after receipt, by the time carried less the old time at
receipt, in whole seconds while PPS is locked (R508, R451); the reply names both, and an invalid RTC becomes valid from that boundary
(R243). SET_CLOCK_POLICY sets policy and limit, those in force keeping for the ticks before it (log 45), and changes no other part of the
clock (R237). Shown to complete, under conditions on the state and the operands alone: setTime, setClockPolicy. -/
def Obligations.ClockCommands : Prop :=
  (∀ (t : Nat) (p : Port) (s : State) (q : Request), setTimeRow.calls t p s q = true →
      let r := Req.of p q
      let u₀ := s.taken t p
      let b := (q.rxAt / 160000 + 1) * 160000
      let d : Int := if s.clock.ppsLocked then wholeSeconds ((r.u 0 8 : Int) - u₀.utcAt q.rxAt) else (r.u 0 8 : Int) - u₀.utcAt q.rxAt
      Answers (.setTime t p) s r stOk
        (le 8 (u₀.utcBefore b) ++ leInt 8 d ++
          le 1 (ofBool (decide (s.clock.limit * 16000000 < d.natAbs)) + 2 * ofBool (!s.clock.rtcValid) + 4 * ofBool s.clock.ppsLocked) ++ zeros 7)
        (fun u => u.bill.adjustments.getLast? = some { boundary := b, step := d } ∧ u.clock.rtcValid = true ∧
          (s.clock.rtcValid = false → u.clock.rtcValidFrom = b) ∧ u.bill.live = s.bill.live)) ∧
  (∀ (t : Nat) (p : Port) (s : State) (q : Request), setClockPolicyRow.calls t p s q = true →
      Answers (.setClockPolicy t p) s (Req.of p q) stOk [] (fun u =>
        u.clock = { s.clock with policy := (Req.of p q).u 0 1, limit := (Req.of p q).u 2 2, past := (s.taken t p).keptRules } ∧ u.bill = s.bill ∧ u.host.owner = s.host.owner))

/-- FENCE numbers the fence, places it at its receipt, and promises its marker 20 ms later; with eight fences open it is NO_RESOURCE (R376).
The marker, due, joins the queue as event source 185 with the fence's number, and the fence waits no longer. EVENT_READ delivers up to the
entries asked for and takes them from the session's queue only (R375); FLUSH discards every entry and holds the flushed marker instead
(R379); EVENT_MASK sets a source's byte (R374); WATERMARK_SET sets the mark (R380). No other session changes. Shown to complete, under
conditions on the state and the operands alone: fence, fenceMarker, eventRead, eventReadFlush, eventMask, watermarkSet. -/
def Obligations.EventQueues : Prop :=
  ((∀ (t : Nat) (p : Port) (s : State) (q : Request), fenceRow.calls t p s q = true → s.Inv →
      let r := Req.of p q
      let u₀ := s.taken t p
      let k := (s.session r.session).queue
      (k.openFences < 8 → Answers (.fence t p) s r stOk (le 4 k.nextFence ++ le 8 (u₀.utcAt q.rxAt).toNat) (fun u =>
        (u.session r.session).queue.fences =
          k.fences ++ [{ number := k.nextFence, instant := (u₀.utcAt q.rxAt).toNat, due := q.rxAt + 20 * Config.ms }] ∧
        (u.session r.session).queue.nextFence = k.nextFence + 1 ∧ (u.session r.session).queue.items = k.items)) ∧
      (8 ≤ k.openFences → Ends (.fence t p) s r stNoResource [] u₀)) ∧
    (∀ (t k : Nat) (s : State) (f : Fence), k < 8 → s.Inv → (s.session k).queue.fences = [f] →
      (f.due ≤ max s.now t →
        Leads (.fenceMarker t k) s (fun u => (u.session k).queue.fences = [] ∧
          ∃ e, (u.session k).queue.items = (s.session k).queue.items ++ [e] ∧ e.source = 185 ∧ e.time = f.instant ∧
            e.body.take 4 = le 4 f.number)) ∧
      (max s.now t < f.due → Leads (.fenceMarker t k) s (fun u => (u.session k).queue = (s.session k).queue)))) ∧
  (∀ (t : Nat) (p : Port) (s : State) (q : Request), s.Inv →
      let r := Req.of p q
      let k := r.session
      let others := fun (u : State) => ∀ j, j ≠ k → u.session j = s.session j
      (eventReadRow.calls t p s q = true →
        let d := EventQueue.deliverMany (r.u 0 1) (s.session k).queue
        Answers (.eventRead t p) s r stOk (le 1 d.1.length ++ zeros 1 ++ le 2 d.2.fill ++ d.1.flatten) (fun u =>
          (u.session k).queue = d.2 ∧ others u)) ∧
      (eventReadFlushRow.calls t p s q = true →
        Answers (.eventReadFlush t p) s r stOk (zeros 4) (fun u =>
          (u.session k).queue.items = [] ∧ (∃ e, (u.session k).queue.flushed = some e ∧ e.source = 187) ∧ others u)) ∧
      (eventMaskRow.calls t p s q = true →
        Answers (.eventMask t p) s r stOk [] (fun u => others u ∧
          ((s.session k).queue.mask.length = 192 → r.u 1 1 = 1 → (u.session k).queue.mask.getD (r.u 0 1) 0 = r.u 4 1))) ∧
      (watermarkSetRow.calls t p s q = true →
        Answers (.watermarkSet t p) s r stOk [] (fun u =>
          (u.session k).queue = { (s.session k).queue with mark := r.u 0 2 } ∧ others u)))

/-- The delivery order: at most as many entries as asked for leave, each of 32 bytes, and an entry of a class waits for none of a later one
while no fence marker or part of an event intervenes (R375). -/
def Obligations.DeliveryOrder : Prop :=
  (∀ (n : Nat) (q : EventQueue), (EventQueue.deliverMany n q).1.length ≤ n) ∧
  (∀ (q : EventQueue) (i : Nat), (∀ e ∈ q.items, e.sent = 0 ∧ e.source ≠ 185 ∧ e.cls ≤ 3) → q.nextIndex = some i →
    i < q.items.length ∧ ∀ j, j < q.items.length →
      (nth q.items i).cls ≤ (nth q.items j).cls ∧ ((nth q.items i).cls = (nth q.items j).cls → i ≤ j))

/-! ### Acquisition, filter chain and streams -/

/-- CH_CONFIG sets enable, range mode and forwarding; a new range mode re-arms both windows; no other channel's settings change (R77, R99,
R100), and unless the channel is enabled anew, which may give a lane to it or to another channel that waits for one (R343, R350), no other
channel and nothing of the store and the measurement changes. A range mode that repair holds stays, and the setting of the channel with
it. Disabling a channel that a context binds is WRONG_STATE, and so are a lane handle and another mode than the one repair holds; a
channel under sweep whose enable or mode would change is BUSY; a lost channel is DEGRADED. Requests that set one channel: WINDOW_SET sets
a window and re-arms it (R94, R99), DETECTOR_SET the detectors (R130), a new window length beginning a window afresh (R131), and
RESAMPLER_SET on a channel handle promises the host part of its delay from the first cycle that starts 1 ms later (R126). Nothing else of
the part changes but, for a window, ALARM_N. Shown to complete, under conditions on the state and the operands alone: chConfig, windowSet,
detectorSet, resamplerSetDelay. -/
def Obligations.ChannelSettings : Prop :=
  (∀ (t : Nat) (p : Port) (s : State) (q : Request), chConfigRow.calls t p s q = true → s.Inv →
      let r := Req.of p q
      let n := unitOf r.handle
      let c := s.chan n
      let mine := s.modeOf n
      let u₀ := s.taken t p
      (24 ≤ n → Ends (.chConfig t p) s r stWrongState [] u₀) ∧
      (r.u 0 1 = 0 → s.bound n = true → Ends (.chConfig t p) s r stWrongState [] u₀) ∧
      (c.repairMode = true → r.u 1 1 ≠ mine → Ends (.chConfig t p) s r stWrongState [] u₀) ∧
      (n < 24 → (r.u 0 1 = 1 ∨ s.bound n = false) → (c.repairMode = false ∨ r.u 1 1 = mine) →
        let changes : Prop := decide (r.u 0 1 = 1) ≠ c.enabled ∨ r.u 1 1 ≠ mine
        (s.underSweep n = true → changes → Ends (.chConfig t p) s r stBusy [] u₀) ∧
        ((s.underSweep n = false ∨ ¬changes) →
          (c.lost = true → Ends (.chConfig t p) s r stDegraded [] u₀) ∧
          (c.lost = false → Answers (.chConfig t p) s r stOk [] (fun u =>
            (u.chan n).enabled = decide (r.u 0 1 = 1) ∧ (u.chan n).rangeMode = (if c.repairMode then c.rangeMode else r.u 1 1) ∧
            (u.chan n).forwarding = decide (r.u 2 1 = 1) ∧
            (r.u 1 1 ≠ mine → (u.chan n).fast.armed = true ∧ (u.chan n).slow.armed = true) ∧
            (¬changes → u = { u₀ with channels := u.channels }) ∧
            (∀ k, k ≠ n → (u.chan k).enabled = (s.chan k).enabled ∧ (u.chan k).rangeMode = (s.chan k).rangeMode ∧
              (u.chan k).forwarding = (s.chan k).forwarding) ∧
            ((r.u 0 1 = 0 ∨ c.enabled = true) → (∀ k, k ≠ n → u.chan k = u₀.chan k) ∧ u.store = u₀.store ∧ u.meas = u₀.meas) ∧
            u.bill = u₀.bill))))) ∧
  (∀ (t : Nat) (p : Port) (s : State) (q : Request), s.Inv →
      let r := Req.of p q
      let n := unitOf r.handle
      let c := s.chan n
      let u₀ := s.taken t p
      n < 24 →
      (windowSetRow.calls t p s q = true → c.lost = false → Answers (.windowSet t p) s r stOk [] (fun u =>
        let w := (u.chan n).window (r.u 0 1 = 1)
        w.enable = decide (r.u 1 1 = 1) ∧ w.alarm = decide (r.u 2 1 = 1) ∧ w.dwell = r.u 3 1 ∧ w.low = r.i 4 4 ∧ w.high = r.i 8 4 ∧
        w.hysteresis = r.u 12 2 ∧ w.armed = true ∧ w.count = 0 ∧ (u.chan n).window (!(r.u 0 1 = 1)) = c.window (!(r.u 0 1 = 1)) ∧
        (∀ k, k ≠ n → u.chan k = u₀.chan k) ∧ u = { u₀ with channels := u.channels, pins := u.pins })) ∧
      (windowSetRow.calls t p s q = true → c.lost = true → Ends (.windowSet t p) s r stDegraded [] u₀) ∧
      (detectorSetRow.calls t p s q = true → c.lost = false → Answers (.detectorSet t p) s r stOk [] (fun u =>
        (r.u 0 2 = c.peakMs → u.chan n = { c with attack := r.u 2 1, decay := r.u 3 1 }) ∧
        (r.u 0 2 ≠ c.peakMs → u.chan n = { c with
          peakMs := r.u 0 2, windowPeak := {}, windowAt := u₀.stampNow, attack := r.u 2 1, decay := r.u 3 1 }) ∧ (∀ k, k ≠ n → u.chan k = u₀.chan k) ∧
        u = { u₀ with channels := u.channels })) ∧
      (resamplerSetDelayRow.calls t p s q = true → Answers (.resamplerSetDelay t p) s r stOk [] (fun u =>
        u.chan n = { c with nextDelay := c.nextDelay ++ [(r.i 0 4, max s.now t + Config.ms)] } ∧ (∀ k, k ≠ n → u.chan k = u₀.chan k) ∧
        u = { u₀ with channels := u.channels })))

/-- A window gives an exit only while enabled and armed, and only for a value outside its band; the exit disarms it (R95, R97). A disabled
window does not move. Over `n` samples inside the band, a disarmed window counts `n` more and gives no exit. BANK_LOAD writes 64
coefficients into the named bank and leaves the other (R113, R114), and is BUSY while a fade runs (Table 16.2). BANK_SWAP without a fade
running and with length 0 makes its target active; with a length and output flowing it starts a fade to it (R116, Table 4.6); while a fade
runs it is PENDING (R117). FADE_END, its samples delivered, makes the target active. Shown to complete, under conditions on the state and
the operands alone: bankLoad, bankSwap, fadeEnd. -/
def Obligations.WindowRules : Prop :=
  ((∀ (w : Window) (v : Int) (time : Nat) (scale : Int) (dwell : Nat) (e : Nat × Bool × Int), (w.see v time scale dwell).2 = some e →
      w.enable = true ∧ w.armed = true ∧ (w.high * scale < v ∨ v < w.low * scale) ∧ (w.see v time scale dwell).1.armed = false ∧
      dwell ≤ w.count + 1) ∧
    (∀ (w : Window) (v : Int) (time : Nat) (scale : Int) (dwell : Nat), w.enable = false → w.see v time scale dwell = (w, none)) ∧
    (∀ (w : Window) (l : List (Int × Nat)) (scale : Int) (dwell : Nat), w.enable = true → w.armed = false →
      (∀ x ∈ l, w.low * scale ≤ x.1 ∧ x.1 ≤ w.high * scale) →
      l.foldl (fun (a : Window) x => (a.see x.1 x.2 scale dwell).1) w = { w with count := w.count + l.length })) ∧
  (∀ (t : Nat) (p : Port) (s : State) (q : Request), s.Inv →
      let r := Req.of p q
      let n := unitOf r.handle
      let c := s.chan n
      let u₀ := s.taken t p
      n < 24 →
      (bankLoadRow.calls t p s q = true → c.fade = none → c.swap = none → c.lost = false → Answers (.bankLoad t p) s r stOk [] (fun u =>
        (u.chan n).bank (r.u 0 1) = (List.range 64).map (fun k => r.i (4 + 4 * k) 4) ∧
        (u.chan n).bank (1 - r.u 0 1) = c.bank (1 - r.u 0 1) ∧ (u.chan n).active = c.active ∧
        (∀ k, k ≠ n → u.chan k = u₀.chan k) ∧ u = { u₀ with channels := u.channels, converters := u.converters })) ∧
      (bankLoadRow.calls t p s q = true → c.fade.isSome = true → Ends (.bankLoad t p) s r stBusy [] u₀) ∧
      (bankSwapRow.calls t p s q = true → c.fade = none → c.lost = false → Answers (.bankSwap t p) s r stOk [] (fun u =>
        (r.u 2 2 = 0 → (u.chan n).active = r.u 0 1) ∧
        (∀ v, u₀.carrierUnit n = some v → u₀.narrowSuppressed v = false → r.u 0 1 ≠ c.active → r.u 2 2 ≠ 0 →
          (u.chan n).fade = some { target := r.u 0 1, length := r.u 2 2 } ∧ (u.chan n).active = c.active) ∧
        (∀ k, k ≠ n → u.chan k = u₀.chan k) ∧ u = { u₀ with channels := u.channels })) ∧
      (∀ f, bankSwapRow.calls t p s q = true → c.fade = some f → f.done < f.length → Answers (.bankSwap t p) s r stPending [] (fun u =>
        u.chan n = { c with swap := some { target := r.u 0 1, length := r.u 2 2 } } ∧ u = { u₀ with channels := u.channels })) ∧
      (∀ f, c.fade = some f → f.length ≤ f.done → c.swap = none →
        Leads (.fadeEnd t n) s (fun u => u.chan n = { c with active := f.target, fade := none } ∧
          (∀ k, k ≠ n → u.chan k = s.chan k))))

/-- RESAMPLER_SET sets reference, fallbacks and threshold; a locked tracker whose reference or fallbacks change goes to holdover (R120, R124).
A locked tracker that has seen no valid crossing for 23.5294 ms goes to holdover, and keeps its period (R123). Shown to complete, under
conditions on the state and the operands alone: resamplerSet, trackerHoldover. -/
def Obligations.TrackerRules : Prop :=
  (∀ (t : Nat) (p : Port) (s : State) (q : Request), resamplerSetRow.calls t p s q = true →
    let r := Req.of p q
    Answers (.resamplerSet t p) s r stOk [] (fun u =>
      u.tracker.reference = r.u 0 1 ∧ u.tracker.fallbacks = [r.u 1 1, r.u 2 1] ∧ u.tracker.threshold = r.u 4 4 ∧
      u.tracker.period = s.tracker.period ∧ u.tracker.ends = s.tracker.ends ∧
      (s.tracker.state = 1 → s.tracker.reference ≠ r.u 0 1 → u.tracker.state = 2) ∧
      (s.tracker.reference = r.u 0 1 → s.tracker.fallbacks = [r.u 1 1, r.u 2 1] → u.tracker.state = s.tracker.state) ∧
      u = { s.taken t p with tracker := u.tracker })) ∧
  (∀ (t : Nat) (s : State), s.tracker.state = 1 →
    ((512 * max s.now t - s.tracker.lastCrossing) * 10 > 1927528448 → Leads (.trackerHoldover t) s (fun u =>
      u.tracker.state = 2 ∧ u.tracker.period = s.tracker.period ∧ u.tracker.start = s.tracker.start ∧ u.channels = s.channels)) ∧
    ((512 * max s.now t - s.tracker.lastCrossing) * 10 ≤ 1927528448 → s.tracker.leaving = none →
      exec (.trackerHoldover t) s = .next (s.tickTo t)))

/-- CH_QUERY answers the 64 bytes of Table 16.8, and STREAM_READ the epoch of the die, count and size of its records, the first index and the
records: a run of consecutive indices at or after the one asked for (R134, R485, R486). CH_QUERY changes nothing but that pin edges which
have stood 100 ns fire (R92); STREAM_READ changes nothing when there is a record to give. Shown to complete, under conditions on the state
and the operands alone: chQuery, streamRead. -/
def Obligations.StreamsAreRead : Prop :=
  (∀ (t : Nat) (p : Port) (s : State) (q : Request),
    let r := Req.of p q
    let u₀ := s.taken t p
    (chQueryRow.calls t p s q = true → Ends (.chQuery t p) s r stOk (u₀.settlePwm.queryBytes r.handle) u₀.settlePwm ∧
      (u₀.settlePwm.queryBytes r.handle).length = 64 ∧ ((∀ k, nth s.pins.pwm k = none) → u₀.settlePwm = u₀)) ∧
    (∀ n x l, streamReadRow.calls t p s q = true → u₀.streamChannel r.handle = some n →
      (r.u 0 1 ≠ 1 ∨ (s.chan n).forwarding = true) → (runFrom (r.u 8 8) ((s.chan n).records (r.u 0 1))).take (r.u 2 2) = x :: l →
      Ends (.streamRead t p) s r stOk (le 4 (s.die (u₀.streamDie r.handle)).epoch ++ le 2 (l.length + 1) ++
        le 2 (recordSize (r.u 0 1)) ++ le 8 x.1.toNat ++ (x :: l).flatMap (fun y => y.2)) u₀)) ∧
  (∀ (start : Int) (l : List (Int × List Byte)) (i : Nat), i < (runFrom start l).length →
    start ≤ ((runFrom start l).getD i default).1 ∧
    ((runFrom start l).getD i default).1 = ((runFrom start l).getD 0 default).1 + i)

/-- TRIG_CONFIG sets a side slice's trigger or a timer (R89, R91); a die out of service is DEGRADED. A timer's firing, due, advances a
periodic timer by its period and ends a one-shot. A source that fires starts the delay of each consumer that names it, to act at the next
raw instant of R90; a firing at an instant while that delay runs, or found afterwards to have fallen into it, is counted as missed (R93).
An edge of a PWMIN pin waits 100 ns: another edge within them ends both (R92), a later one makes it fire as of its own instant. At the end
of a delay the list of a side slice joins its queue, before the INJECT lists of its tick (R85, R87); one that does not fit is missed; and
a capture ring that waits is triggered (R136). CAPTURE_ARM arms a ring's buffer; it is WRONG_STATE on a ring without size, BUSY while the
ring or its die is in use or a sweep runs on the die, and DEGRADED while the die is down (R136, R144). CAPTURE_STOP idles an armed or
triggered one (R138). The end of the post-trigger length, its last sample delivered, freezes it, and what its record says of excluded
slices is as of then; once its contents have crossed the link, at 900 Mb/s on two lanes or 500 Mb/s on one, the drain leaves it idle, or
armed again with REPEAT, and its record waits to be written; written or discarded, it waits no longer (R26, R138, R395). Shown to
complete, under conditions on the state and the operands alone: trigConfig, triggerTimerFiring, pwminEdge, triggerAction, captureArm,
captureStop, postTriggerEnd, drainEnd, captureRecordComplete. -/
def Obligations.TriggersAndCaptures : Prop :=
  ((∀ (t : Nat) (p : Port) (s : State) (q : Request), trigConfigRow.calls t p s q = true → s.Inv →
      let r := Req.of p q
      let u₁ := (s.taken t p).settlePwm
      (hElem r.handle = 8 → s.outOfService (hDie r.handle) = false → Answers (.trigConfig t p) s r stOk [] (fun u =>
        (u.die (hDie r.handle)).side.trigger =
          { source := r.u 0 1, delay := r.u 2 2, codes := (List.range (r.u 1 1)).map (fun i => r.u (4 + i) 1) } ∧
        u = { u₁ with dies := u.dies })) ∧
      (hElem r.handle = 8 → s.outOfService (hDie r.handle) = true → Ends (.trigConfig t p) s r stDegraded [] u₁) ∧
      (hElem r.handle < 8 → Answers (.trigConfig t p) s r stOk [] (fun u =>
        nth u.timers (hElem r.handle) = { mode := r.u 0 1, next := r.u 8 8, period := r.u 4 4 } ∧
        (∀ k, k ≠ hElem r.handle → nth u.timers k = nth s.timers k) ∧
        ((nth s.timers (hElem r.handle)).mode = 0 → u = { u₁ with timers := u.timers })))) ∧
    (∀ (t k : Nat) (s : State), k < 8 → s.Inv →
      let x := nth s.timers k
      (x.next ≤ max s.now t →
        (x.mode = 2 → Leads (.triggerTimerFiring t k) s (fun u => nth u.timers k = { x with next := x.next + x.period } ∧
          ∀ j, j ≠ k → nth u.timers j = nth s.timers j)) ∧
        (x.mode = 1 → Leads (.triggerTimerFiring t k) s (fun u => nth u.timers k = { x with mode := 0 } ∧
          ∀ j, j ≠ k → nth u.timers j = nth s.timers j))) ∧
      (x.mode = 0 ∨ max s.now t < x.next → Leads (.triggerTimerFiring t k) s (fun u => u.timers = s.timers)))) ∧
  ((∀ (s : State) (sources : List Nat) (quarter d : Nat), 1 ≤ d → d ≤ 5 → s.Inv →
      let g := (s.die d).side.trigger
      sources.contains g.source = true →
      let x := ((s.fireSource sources quarter).die d).side
      (g.actAt = none → g.acted ≤ quarter → x.trigger.actAt = some (s.rawInstant ((quarter + 3) / 4 + 4 * g.delay))) ∧
      (g.actAt = none → quarter < g.acted → x.trigger.actAt = none ∧ x.missed = sat 32 ((s.die d).side.missed + 1)) ∧
      (∀ a, g.actAt = some a → quarter < 4 * a → x.trigger.actAt = some a ∧ x.missed = sat 32 ((s.die d).side.missed + 1))) ∧
    (∀ (t pin quarter : Nat) (rising : Bool) (s : State), pin < 2 → s.pins.pwm.length = 2 → (∀ k, k ≠ pin → nth s.pins.pwm k = none) →
      (s.phase = .ready ∨ s.phase = .running) →
      (nth s.pins.pwm pin = none → Leads (.pwminEdge t pin rising quarter) s (fun u =>
        nth u.pins.pwm pin = some (quarter, rising) ∧ u.dies = s.dies ∧ u.captures = s.captures)) ∧
      (∀ q r, nth s.pins.pwm pin = some (q, r) → quarter < q + 7 → 4 * max s.now t < q + 7 → Leads (.pwminEdge t pin rising quarter) s (fun u =>
        nth u.pins.pwm pin = none ∧ u.dies = s.dies ∧ u.captures = s.captures)) ∧
      (∀ q d, nth s.pins.pwm pin = some (q, true) → q + 7 ≤ quarter → 1 ≤ d → d ≤ 5 → s.Inv → (s.die d).side.trigger.source = 0x20 + 4 * pin →
        (s.die d).side.trigger.actAt = none → (s.die d).side.trigger.acted ≤ q → Leads (.pwminEdge t pin rising quarter) s (fun u =>
          nth u.pins.pwm pin = some (quarter, rising) ∧
          (u.die d).side.trigger.actAt = some (s.rawInstant ((q + 3) / 4 + 4 * (s.die d).side.trigger.delay))))) ∧
    (∀ (t d a : Nat) (s : State), 1 ≤ d → d ≤ 5 → s.Inv → (∀ k, nth s.pins.pwm k = none) →
      let x := (s.die d).side
      let inputs := fun (u : State) => (u.die d).side.queue.map (fun c => c.input)
      x.trigger.actAt = some a → a ≤ max s.now t →
      (s.outOfService d = false → (∀ c ∈ x.queue, c.behind a = false) →
        (x.queue.length + x.trigger.codes.length ≤ 4 → Leads (.triggerAction t (.sideSlice d)) s (fun u =>
          (u.die d).side.trigger.actAt = none ∧ inputs u = inputs s ++ x.trigger.codes)) ∧
        (4 < x.queue.length + x.trigger.codes.length → Leads (.triggerAction t (.sideSlice d)) s (fun u =>
          (u.die d).side.trigger.actAt = none ∧ inputs u = inputs s ∧ (u.die d).side.missed = sat 32 (x.missed + 1)))) ∧
      (∀ k, s.outOfService d = false → (∀ c ∈ x.queue, c.injected = true ∧ c.at_ = a ∧ c.session = k) →
        x.queue.length + x.trigger.codes.length ≤ 4 → Leads (.triggerAction t (.sideSlice d)) s (fun u =>
          (u.die d).side.trigger.actAt = none ∧ inputs u = x.trigger.codes ++ inputs s)) ∧
      (s.outOfService d = true → Leads (.triggerAction t (.sideSlice d)) s (fun u =>
        (u.die d).side.trigger.actAt = none ∧ inputs u = inputs s ∧ (u.die d).side.missed = x.missed))) ∧
    (∀ (t k a : Nat) (s : State), k < 8 → s.Inv → (∀ j, nth s.pins.pwm j = none) →
      let c := nth s.captures k
      c.trigger.actAt = some a → a ≤ max s.now t →
      (c.phase = 1 → Leads (.triggerAction t (.ring k)) s (fun u =>
        (nth u.captures k).phase = 2 ∧ (nth u.captures k).cause = 0 ∧ (nth u.captures k).actedAt = a ∧ (nth u.captures k).trigger.actAt = none)) ∧
      (c.phase = 3 → Leads (.triggerAction t (.ring k)) s (fun u =>
        (nth u.captures k).phase = 3 ∧ (nth u.captures k).missed = sat 16 (c.missed + 1) ∧ (nth u.captures k).trigger.actAt = none)))) ∧
  ((∀ (t : Nat) (p : Port) (s : State) (q : Request), s.Inv →
      let r := Req.of p q
      let k := r.handle - 0x0400
      let d := r.u 0 1
      let c := nth s.captures k
      let u₁ := (s.taken t p).settlePwm
      let busy := c.phase ≠ 0 ∨ s.captures.any (fun c => c.phase ≠ 0 && c.die = d) = true ∨ s.sweepRuns d = true
      k < 8 →
      (captureArmRow.calls t p s q = true → (nth s.store.rings k).size ≠ 0 →
        (busy → Ends (.captureArm t p) s r stBusy [] u₁) ∧
        (¬busy → s.dieDown d = true → Ends (.captureArm t p) s r stDegraded [] u₁) ∧
        (¬busy → s.dieDown d = false → Answers (.captureArm t p) s r stOk [] (fun u =>
          let x := nth u.captures k
          x.phase = 1 ∧ x.die = d ∧ x.units = r.u 1 1 ∧ x.pre = r.u 2 1 ∧ x.options = r.u 3 1 ∧ x.buffer = [] ∧
          x.trigger.source = r.u 4 1 ∧ x.trigger.delay = r.u 6 2 ∧ x.trigger.actAt = none ∧ x.writing = c.writing ∧
          u = { u₁ with captures := u.captures }))) ∧
      (captureArmRow.calls t p s q = true → (nth s.store.rings k).size = 0 → Ends (.captureArm t p) s r stWrongState [] u₁) ∧
      (captureStopRow.calls t p s q = true → (c.phase = 1 ∨ c.phase = 2) → Answers (.captureStop t p) s r stOk [] (fun u =>
        (nth u.captures k).phase = 0 ∧ (nth u.captures k).buffer = [] ∧ (nth u.captures k).writing = c.writing ∧
        u = { u₁ with captures := u.captures })) ∧
      (captureStopRow.calls t p s q = true → c.phase = 3 → Answers (.captureStop t p) s r stOk [] (fun u =>
        (nth u.captures k).phase = 3 ∧ (nth u.captures k).options = c.options % 4 ∧ (nth u.captures k).buffer = c.buffer ∧
        u = { u₁ with captures := u.captures })) ∧
      (captureStopRow.calls t p s q = true → c.phase = 0 → Ends (.captureStop t p) s r stWrongState [] u₁)) ∧
    (∀ (t k : Nat) (s : State), k < 8 → s.Inv →
      let c := nth s.captures k
      let left := c.drainLeft - drainRate (s.lanesUp c.die) * (max s.now t - c.drainAt)
      let others := fun (u : State) => ∀ j, j ≠ k → nth u.captures j = nth s.captures j
      (c.phase = 2 → c.lastIndex + 2 < (max s.now t - c.epochTick) / 4 → Leads (.postTriggerEnd t k) s (fun u =>
        (nth u.captures k).phase = 3 ∧ (nth u.captures k).buffer = c.buffer ∧ (nth u.captures k).drainAt = max s.now t ∧
        (nth u.captures k).drainLeft = 32 * (c.blocks.flatten).length ∧ (nth u.captures k).excluded = s.excludedPositions c.die ∧ others u)) ∧
      (c.phase = 2 → (max s.now t - c.epochTick) / 4 ≤ c.lastIndex + 2 → exec (.postTriggerEnd t k) s = .next (s.tickTo t)) ∧
      (c.phase = 3 → s.dieDown c.die = false → left = 0 → Leads (.drainEnd t k) s (fun u =>
        (nth u.captures k).phase = (if bit c.options 2 then 1 else 0) ∧ (nth u.captures k).buffer = [] ∧
        (nth u.captures k).writing = c.writing ++ [c.pendingRecord] ∧ others u)) ∧
      (c.phase = 3 → 0 < left → exec (.drainEnd t k) s = .next (s.tickTo t)) ∧
      (∀ x rest, c.writing = x :: rest → s.power.commit = none → Leads (.captureRecordComplete t k) s (fun u =>
        (nth u.captures k).writing = rest ∧
        (s.storeWrites = true → s.store.rings.length = 8 → (nth u.store.rings k).written = (nth s.store.rings k).written + 1) ∧
        (s.storeWrites = false → u.store.rings = s.store.rings)))))

/-- INJECT puts its list in the side slice's queue and is answered after its last conversion; a list that does not fit is BUSY, a die out of
service DEGRADED (R85, R86, R88). A conversion at the head of the queue, its 1.0 µs over, once the pin edges that have stood 100 ns have
fired (R92), leaves it and holds the slice until then; the last of an injected list is answered with the readings (R84, R86). SYNC starts
a new epoch on the dies named, whose raw instant 0 is the raw instant at or after the request (R106, R128), also where it ends a sweep on
one of them; with no sweep it empties the histories of the channels they carry and touches no other die (R135). A die down makes it
DEGRADED. Shown to complete, under conditions on the state and the operands alone: inject, sideSliceConversion, sync. -/
def Obligations.SideSliceConverts : Prop :=
  ((∀ (t : Nat) (p : Port) (s : State) (q : Request), injectRow.calls t p s q = true → s.Inv →
      let r := Req.of p q
      let d := hDie r.handle
      let u₀ := s.taken t p
      let u₁ := u₀.settlePwm.triggerActs (.sideSlice d)
      let x := (u₁.die d).side
      (x.queue.length + r.u 0 1 ≤ 4 → s.outOfService d = false → Leads (.inject t p) s (fun u =>
        (u.die d).side.queue.map (fun c => c.input) = x.queue.map (fun c => c.input) ++ (List.range (r.u 0 1)).map (fun i => r.u (4 + i) 1) ∧
        (u.session r.session).busy = some q ∧ u = { u₁ with dies := u.dies, host := u.host } ∧
        ((∀ k, nth s.pins.pwm k = none) → (s.die d).side.trigger.actAt = none → u₁ = u₀))) ∧
      (x.queue.length + r.u 0 1 ≤ 4 → s.outOfService d = true → Ends (.inject t p) s r stDegraded [] u₀) ∧
      (4 < x.queue.length + r.u 0 1 → Ends (.inject t p) s r stBusy [] u₀)) ∧
    (∀ (t d : Nat) (code : SideCode) (s : State) (c : Conv) (rest : List Conv), 1 ≤ d → d ≤ 5 → s.Inv →
      let s₁ := (s.tickTo t).settlePwm
      let x := (s₁.die d).side
      let at_ := s.rawInstant x.freeAt
      let result : ConvResult := { input := c.input, code := code % 4096, time := s₁.stamp at_ }
      x.queue = c :: rest →
      ((∀ k, nth s.pins.pwm k = none) → s₁ = s.tickTo t) ∧
      (s.outOfService d = false → at_ + 16 ≤ max s.now t →
        (c.last = true → c.injected = true → Leads (.sideSliceConversion t d code) s (fun u =>
          (u.die d).side.queue = rest ∧ (u.die d).side.injected = [] ∧
          (c.session < 8 → (s₁.injecting c).isSome = true → (u.session c.session).busy = none))) ∧
        (c.last = true → c.injected = false → Leads (.sideSliceConversion t d code) s (fun u =>
          (u.die d).side.queue = rest ∧ (u.die d).side.triggered = [] ∧ (u.die d).side.missedSince = 0 ∧ (u.die d).side.injected = x.injected)) ∧
        (c.last = false → Leads (.sideSliceConversion t d code) s (fun u => (u.die d).side.queue = rest ∧ (u.die d).side.freeAt = at_ + 16 ∧
          (u.die d).side.injected = x.injected ++ (if c.injected then [result] else []) ∧
          (u.die d).side.triggered = x.triggered ++ (if c.injected then [] else [result])))) ∧
      (s.outOfService d = false → max s.now t < at_ + 16 → exec (.sideSliceConversion t d code) s = .next s₁) ∧
      (s.outOfService d = true → Leads (.sideSliceConversion t d code) s (fun u => (u.die d).side.queue = []))) ∧
    (∀ (l : List ConvResult), (injectReply l).length = 72)) ∧
  (∀ (t : Nat) (p : Port) (s : State) (q : Request), syncRow.calls t p s q = true → s.Inv →
      let r := Req.of p q
      let u₀ := s.taken t p
      ((∀ d ∈ syncDies r.handle, u₀.dieDown d = false) →
        Answers (.sync t p) s r stOk [] (fun u =>
          (∀ d ∈ syncDies r.handle, (u.die d).epoch = (s.die d).epoch + 1 ∧ (u.die d).epochTick = s.rawInstant (max s.now t)) ∧
          ((syncDies r.handle).any s.sweepRuns = false →
            (∀ d, d < 8 → d ∉ syncDies r.handle → u.die d = s.die d) ∧
            (∀ n, ∀ d ∈ syncDies r.handle, n ∈ s.carriedBy d →
              (u.chan n).wide = [] ∧ (u.chan n).narrow = [] ∧ (u.chan n).sync = [] ∧ (u.chan n).fast.armed = true) ∧
            u.store = u₀.store ∧ u.bill = u₀.bill))) ∧
      ((∃ d ∈ syncDies r.handle, u₀.dieDown d = true) → Ends (.sync t p) s r stDegraded [] u₀))

/-- The codes of a slice, at the end of its range where it is saturated (R74), and the raw code of combined mode (R75, R76): the high bench up
to 1,700, 32 times the low from 1,900 on and after a saturated high bench, the full-scale code when the low bench saturates. A raw sample
of a converting unit moves its index past it, and is kept for the filters with its code; of a unit under sweep, past the reconfiguration,
it joins the capture's moments (R147). One that is not later than the last has no effect. The streams' events. A re-arm due clears its
counts (R97). A wideband or narrowband sample moves its unit's index (R106); a wideband sample that is suppressed joins no history (R127),
and another joins that of the channel delivered, the decimator's sum over the raw samples held to 24 bits (R104, R108, R134). A narrowband
sample puts the decimator's value into the equaliser, and past the settling the die keeps the equaliser's (R109, R112). A cycle whose end
is known, and whose last narrowband samples have been delivered, moves the tracker to the next (R122). The end of a peak window leaves its
peak in the history (R131). Shown to complete, under conditions on the state and the operands alone: rawSample, windowRearm,
widebandSample, narrowbandSample, synchronousCycle, peakWindowEnd. -/
def Obligations.StreamsAdvance : Prop :=
  ((∀ (after : Bool) (b : BenchSample),
      (b.highSat = true → highCode b = if b.negative then -2048 else 2047) ∧ (b.highSat = false → highCode b = b.high.toInt) ∧
      (b.lowSat = true → rawCode 0 after b = if lowCode b > 0 then 65535 else -65536) ∧
      (b.lowSat = false → after = true → rawCode 0 after b = 32 * b.low.toInt) ∧
      (b.lowSat = false → after = false → b.highSat = false → b.high.toInt.natAbs ≤ 1700 → rawCode 0 after b = b.high.toInt) ∧
      (b.lowSat = false → after = false → (b.highSat = true ∨ 1900 ≤ b.high.toInt.natAbs) → rawCode 0 after b = 32 * b.low.toInt) ∧
      rawCode 2 after b = highCode b) ∧
    (∀ (t k : Nat) (b : BenchSample) (s : State), k < 30 → s.Inv →
      let x := s.conv k
      let i := s.rawIndex k (max s.now t)
      (i < (x.index : Int) → exec (.rawSample t k b) s = .next (s.tickTo t)) ∧
      ((x.index : Int) ≤ i → s.converts k = true → s.swept k = true → b.beyond = false → x.rcvLeft = 0 → x.excluded = [] →
        Leads (.rawSample t k b) s (fun u =>
          u.conv k = { x with index := i.toNat + 1, prevHighSat := b.highSat } ∧ (∀ j, j ≠ k → u.conv j = s.conv j) ∧
          (s.sweep.since + 2 * Config.ms ≤ max s.now t → max s.now t < s.sweep.dueAt →
            u.sweep.moments.samples = s.sweep.moments.samples + 1))) ∧
      ((x.index : Int) ≤ i → s.converts k = true → s.swept k = false → x.excluded = [] → x.held = none → x.failing = [] → x.lowFailed = false →
        x.highFailed = false → disagrees b = false → (∀ e, (nth x.stuck e).2 < 65535) → Leads (.rawSample t k b) s (fun u =>
          (u.conv k).index = i.toNat + 1 ∧ (u.conv k).prevCode = rawCode (s.convMode k) x.prevHighSat b ∧ (u.conv k).prevHighSat = b.highSat ∧
          (u.conv k).raw.head?.map RawSeen.code = some (rawCode (s.convMode k) x.prevHighSat b) ∧ ∀ j, j ≠ k → u.conv j = s.conv j)) ∧
      ((x.index : Int) ≤ i → s.gates k = true → Leads (.rawSample t k b) s (fun u =>
        (u.conv k).index = i.toNat + 1 ∧ (u.conv k).raw.head?.map RawSeen.code = some (combined x.prevHighSat b) ∧
        ∀ j, j ≠ k → u.conv j = s.conv j)))) ∧
  (∀ (t : Nat) (s : State), s.Inv →
      (∀ n slow, n < 24 → ((s.chan n).window slow).due = true → Leads (.windowRearm t n slow) s (fun u =>
        ((u.chan n).window slow).armed = true ∧ ((u.chan n).window slow).count = 0 ∧ ∀ k, k ≠ n → u.chan k = s.chan k)) ∧
      (∀ n slow, n < 24 → ((s.chan n).window slow).due = false → exec (.windowRearm t n slow) s = .next (s.tickTo t)) ∧
      (∀ k n, k < 30 → n < 24 → s.converts k = true → s.swept k = false → s.worksFor k = some n →
        let w := s.wideAt k (max s.now t)
        (s.conv k).wideIndex ≤ w →
        ((s.conv k).wideSuppressed w = true → Leads (.widebandSample t k) s (fun u =>
          (u.conv k).wideIndex = w + 1 ∧ ∀ j, (u.chan j).wide = (s.chan j).wide)) ∧
        ((s.conv k).wideSuppressed w = false → s.deliversWide k n w = true → Leads (.widebandSample t k) s (fun u =>
          (u.conv k).wideIndex = w + 1 ∧ ∃ flags, (u.chan n).wide.getLast? =
            some { index := w, value := hold24 (openRat 14 ((s.conv k).decimate k false (8 * w))), flags := flags }))) ∧
      (∀ k crossing, k < 30 → (s.converts k = true ∨ s.gates k = true) → s.swept k = false →
        let v := s.narrowAt k (max s.now t)
        let x := (s.conv k).decimate k true (32 * (v + 32))
        (s.conv k).narrowIndex ≤ v → Leads (.narrowbandSample t k crossing) s (fun u => (u.conv k).narrowIndex = v + 1 ∧
          (u.conv k).taps = (if v = (s.conv k).narrowIndex then (x :: (s.conv k).taps).take 64 else [x]) ∧
          (∀ n, s.worksFor k = some n → (s.conv k).narrowFrom ≤ v → (u.conv k).taps.length = 64 →
            ∃ y, (u.conv k).narrow.head? = some y ∧ y.index = v ∧ -8388608 ≤ y.value ∧ y.value ≤ 8388607))) ∧
      (∀ next c, s.tracker.state ≠ 0 → next + 512 * syncReach ≤ 512 * max s.now t → s.tracker.cycleTo next = some c →
        Leads (.synchronousCycle t next) s (fun u =>
          u.tracker.start = next ∧ u.tracker.cycle = s.tracker.cycle + 1 ∧ u.tracker.ends = s.tracker.ends.tail)) ∧
      (∀ n, n < 24 → (s.chan n).windowPeak.any = true →
        let len := (s.chan n).peakMs * Config.ms
        let i := s.stamp (max s.now t) / len
        (s.chan n).windowAt < i * len → Leads (.peakWindowEnd t n) s (fun u =>
          (∃ d, (u.chan n).windowPeaks.getLast? = some d ∧ d.index = i - 1 ∧ d.high = (s.chan n).windowPeak.high ∧ d.low = (s.chan n).windowPeak.low) ∧
          (u.chan n).windowAt = i * len ∧ (u.chan n).windowPeak = {} ∧ ∀ k, k ≠ n → u.chan k = s.chan k)))

/-! ### Calibration -/

/-- The calibration requests that read answer their records and change nothing: CAL_STATUS 160 bytes a unit (Table 16.12), CAL_IMAGE_READ an
image of 2,048 bytes (R166), CAL_LIMITS the limits in force. CAL_LIMITS with limits sets all thirteen (R164). An image that passes its
checks gives every channel of its die the image's trims as targets, raises the generation by one, and changes no unit of another die
(R168); one of another part is DENIED. Shown to complete, under conditions on the state and the operands alone: calStatus, calImageRead,
calLimitsRead, calLimitsWrite, calImageWrite. -/
def Obligations.CalibrationRequests : Prop :=
  ∀ (t : Nat) (p : Port) (s : State) (q : Request),
    let r := Req.of p q
    let d := hDie r.handle
    let u₀ := s.taken t p
    (calStatusRow.calls t p s q = true → Ends (.calStatus t p) s r stOk
      (le 2 r.handle ++ le 1 (unitsOfHandle r.handle).length ++ zeros 1 ++ (unitsOfHandle r.handle).flatMap (fun u => u₀.calRecord u)) u₀) ∧
    (∀ u, (u₀.calRecord u).length = 160) ∧
    (calImageReadRow.calls t p s q = true → Ends (.calImageRead t p) s r stOk (calImage d s.cal.generation u₀.stampNow (s.calsOf d)) u₀ ∧
      ((∀ c ∈ s.calsOf d, c.times.length = 4) → (calImage d s.cal.generation u₀.stampNow (s.calsOf d)).length = 2048)) ∧
    (calLimitsReadRow.calls t p s q = true → Ends (.calLimitsRead t p) s r stOk (s.cal.limits.flatMap (le 2)) u₀) ∧
    (calLimitsWriteRow.calls t p s q = true → Answers (.calLimitsWrite t p) s r stOk ((List.range 13).flatMap (fun i => le 2 (r.u (2 + 2 * i) 2)))
      (fun u => u.cal.limits = (List.range 13).map (fun i => r.u (2 + 2 * i) 2) ∧
        u = { u₀ with cal := { u₀.cal with limits := u.cal.limits } })) ∧
    (calImageWriteRow.calls t p s q = true → r.u 0 2 = 1 → r.u 2 1 = d → r.u 2044 4 = crc32c (r.payload.take 2044) →
      (r.u 16 4 ≠ partTag → Ends (.calImageWrite t p) s r stDenied [] u₀) ∧
      (r.u 16 4 = partTag → r.imageRanges = true → s.sweepOn d = false → s.Inv → 1 ≤ d → d ≤ 5 →
        Answers (.calImageWrite t p) s r stOk [] (fun u =>
          u.cal.generation = (s.cal.generation + 1) % 4294967296 ∧
          (∀ k, k < 6 → (u.conv (6 * (d - 1) + k)).cal.source = 2 ∧
            (u.conv (6 * (d - 1) + k)).cal.target = if d < 5 then r.imageTrims k else alter (r.imageTrims k) 25 (fun _ => 0)) ∧
          (∀ v, v / 6 ≠ d - 1 → u.conv v = u₀.conv v) ∧ u.cal.slots = s.cal.slots ∧ u.store = u₀.store)))

/-- What CAL_IMAGE_READ writes, CAL_IMAGE_WRITE reads back: the trims of every record of an image, its part tag, its die and a CRC that holds
(R166-R168). -/
def Obligations.ImagesRoundTrip : Prop :=
  ∀ (r : Req) (d g time : Nat) (units : List Calibration), r.payload = calImage d g time units → units.length = 6 → d < 8 →
    (∀ c ∈ units, c.times.length = 4 ∧ c.target.length = 26 ∧ ∀ x ∈ c.target, -32768 ≤ x ∧ x ≤ 32767) →
    r.u 0 2 = 1 ∧ r.u 2 1 = d ∧ r.u 16 4 = partTag ∧ r.u 2044 4 = crc32c (r.payload.take 2044) ∧
    (g < 4294967296 → r.u 4 4 = g) ∧ ∀ k, k < 6 → r.imageTrims k = (nth units k).target

/-- CAL_STORE opens the slot that is not the newest valid one, invalid until it is complete, with the next store count (R170); its end makes
it valid. CAL_RESTORE names a valid slot or is WRONG_STATE; its end gives every unit the slot's trims as targets (R172), unless the store
has become read-only while it ran, which completes it DEGRADED with nothing applied (Table 16.3). Shown to complete, under conditions on
the state and the operands alone: calStore, calRestore, calStoreComplete, calRestoreComplete. -/
def Obligations.CalibrationSlots : Prop :=
  (∀ (t : Nat) (p : Port) (s : State) (q : Request),
    let r := Req.of p q
    let u₀ := s.taken t p
    (calStoreRow.calls t p s q = true → s.cal.storing = none → s.cal.restoring = [] → s.opRoom r.session = true →
      Answers (.calStore t p) s r stAccepted (le 2 s.host.nextTag) (fun u => ∃ k c, k < 2 ∧ s.cal.newest ≠ some k ∧
        u.cal.storing = some (s.host.nextTag, k, c) ∧ nth u.cal.slots k = none ∧ nth u.cal.slots (1 - k) = nth s.cal.slots (1 - k) ∧
        c.count = s.cal.topCount + 1 ∧ c.units = s.converters.map (fun x => x.cal) ∧ u.converters = u₀.converters)) ∧
    (calStoreRow.calls t p s q = true → s.cal.storing.isSome = true → Ends (.calStore t p) s r stBusy [] u₀) ∧
    (calRestoreRow.calls t p s q = true → s.restoreSlot (r.u 0 1) = none → Ends (.calRestore t p) s r stWrongState [] u₀) ∧
    (∀ k, calRestoreRow.calls t p s q = true → s.restoreSlot (r.u 0 1) = some k → (∀ d, 1 ≤ d → d ≤ 5 → s.sweepOn d = false) →
      s.opRoom r.session = true → Answers (.calRestore t p) s r stAccepted (le 2 s.host.nextTag) (fun u =>
        u.cal.restoring = s.cal.restoring ++ [(s.host.nextTag, k, (nth s.cal.slots k).getD {}, decide (s.store.state = 1))] ∧ u.converters = u₀.converters))) ∧
  (∀ (t tag k : Nat) (c : CalSlot) (s : State), s.cal.storing = some (tag, k, c) → s.cal.abandoned = false → s.cal.slots.length = 2 → k < 2 →
    Leads (.calStoreComplete t) s (fun u => u.cal.storing = none ∧
      nth u.cal.slots k = (if s.store.state = 1 then some c else nth s.cal.slots k) ∧ (∀ o ∈ u.host.ops, o.tag ≠ tag))) ∧
  (∀ (t tag k : Nat) (c : CalSlot) (w : Bool) (rest : List (Nat × Nat × CalSlot × Bool)) (s : State), s.cal.restoring = (tag, k, c, w) :: rest →
    ((w = true → s.store.state = 1) → Leads (.calRestoreComplete t) s (fun u => u.cal.restoring = rest ∧ u.cal.generation = c.generation ∧
      (∀ v, v < s.converters.length → v < c.units.length →
        (u.conv v).cal.target = (nth c.units v).target ∧ (u.conv v).cal.source = 3) ∧ (∀ o ∈ u.host.ops, o.tag ≠ tag))) ∧
    (w = true → s.store.state ≠ 1 → Leads (.calRestoreComplete t) s (fun u => u.cal.restoring = rest ∧
      u.cal.generation = s.cal.generation ∧ u.converters = s.converters ∧ (∀ o ∈ u.host.ops, o.tag ≠ tag))))

/-- CAL_SWEEP joins the queue with its tag (R144); a ninth waiting sweep is NO_RESOURCE, and a sweep of a unit that already waits or runs BUSY
(Table 5.3). No trim, lane or channel changes at the request. The course of a sweep (R145, R147, R159). The turn of a lone enabled channel
takes a free lane to correlate on, or, with none free, interrupts it at once: 2 ms of reconfiguration and the capture. The end of the
correlation interrupts it, bridged by the lane. Half-way the skew trims move; at the capture's end 4 ms of restoration follow; the end of
the interruption frees the unit and leaves the outcome to be known. The result puts in force the trims of each kind that passes, and no
other; one whose signal fails the excitation test changes none (R152, Table 5.4); the operation of its last unit is complete. Offsets and
gains of a bench keep the factory sum (R141). A changed trim moves in 64 equal steps of 4 ms: at each ramp step the value in force is old
+ round(k (new - old) / 64), for the step k reached; 256 ms after the outcome it is the new value (R160). No other part of a calibration
changes. Shown to complete, under conditions on the state and the operands alone: calSweep, sweepTurn, correlationPhaseEnd,
sweepCaptureHalf, sweepCaptureEnd, interruptionEnd, sweepResult, newSweepRecommended, rampStep. -/
def Obligations.SweepCourse : Prop :=
  (∀ (t : Nat) (p : Port) (s : State) (q : Request), calSweepRow.calls t p s q = true →
      let r := Req.of p q
      let us := unitsOfHandle r.handle
      let u₀ := s.taken t p
      (hDie r.handle = 5 ∨ us.any (fun u => (s.chan u).enabled) = true) → us.any (fun u => s.laneSubstitutes u) = false →
      (s.dieDown (hDie r.handle) = true → Ends (.calSweep t p) s r stDegraded [] u₀) ∧
      (s.dieDown (hDie r.handle) = false → us.any (fun u => s.unitArmed u) = false →
        (us.any (fun u => s.unitSweeping u) = true → Ends (.calSweep t p) s r stBusy [] u₀) ∧
        (us.any (fun u => s.unitSweeping u) = false →
          (8 ≤ s.sweep.queue.length → Ends (.calSweep t p) s r stNoResource [] u₀) ∧
          (s.sweep.queue.length < 8 → s.opRoom r.session = true → Answers (.calSweep t p) s r stAccepted (le 2 s.host.nextTag) (fun u =>
            (∃ o, u.sweep.queue = s.sweep.queue ++ [o] ∧ o.tag = s.host.nextTag ∧ o.units = us ∧ o.force = decide (r.u 0 1 = 1)) ∧
            u.converters = u₀.converters ∧ u.channels = u₀.channels ∧ u.cal = u₀.cal))))) ∧
  ((∀ (t reference temperature n : Nat) (o : SweepOp) (s : State), s.Inv → n < 24 → s.sweep.unit = none → s.sweep.running = some o → o.units = [n] →
      (s.chan n).enabled = true → (s.conv n).cal.ramping = false → (s.die (dieOfUnit n)).side.queue = [] →
      (s.belvedereUp = false → (s.chan n).carrier = .home → Leads (.sweepTurn t reference temperature) s (fun u =>
        u.sweep.unit = some n ∧ u.sweep.phase = 2 ∧ (u.chan n).interrupted = true ∧ u.sweep.base = (s.conv n).cal.target ∧
        u.sweep.limits = s.cal.limits ∧ u.sweep.dueAt = max s.now t + 2 * Config.ms + s.captureTicks / 2)) ∧
      (∀ k, s.freeLanes = [k] → Leads (.sweepTurn t reference temperature) s (fun u =>
        u.sweep.unit = some n ∧ u.sweep.phase = 1 ∧ u.sweep.lane = some k ∧ (u.conv (24 + k)).selects = some n ∧
        u.sweep.base = (s.conv n).cal.target ∧ u.sweep.limits = s.cal.limits ∧ (u.chan n).interrupted = (s.chan n).interrupted))) ∧
    (∀ (t n k : Nat) (s : State), s.Inv → n < 24 → s.sweep.unit = some n → s.sweep.lane = some k → s.sweep.phase = 1 →
      (s.correlationEnd k ≤ max s.now t → (s.chan n).carrier = .home → Leads (.correlationPhaseEnd t) s (fun u =>
        u.sweep.phase = 2 ∧ u.sweep.delay.isSome = true ∧ u.sweep.since = max s.now t ∧ (u.chan n).carrier = .lane k)) ∧
      (max s.now t < s.correlationEnd k → exec (.correlationPhaseEnd t) s = .next (s.tickTo t))) ∧
    (∀ (t : Nat) (s : State), s.sweep.dueAt ≤ max s.now t →
      (s.sweep.phase = 2 → Leads (.sweepCaptureHalf t) s (fun u => u.sweep.phase = 3 ∧ u.sweep.unit = s.sweep.unit ∧ u.converters = s.converters)) ∧
      (∀ n, s.sweep.phase = 3 → s.sweep.unit = some n → Leads (.sweepCaptureEnd t) s (fun u =>
        u.sweep.phase = 4 ∧ u.sweep.dueAt = s.sweep.dueAt + 4 * Config.ms ∧ u.sweep.unit = some n ∧ u.sweep.moments = s.sweep.moments)) ∧
      (∀ n, s.sweep.phase = 4 → s.sweep.unit = some n → s.sweep.computing = none → s.sweep.aborted = false → s.sweep.next = none →
        s.sweep.lane = none → s.Inv → n < 24 → s.health.unconfirmed = none → (∀ k, k < 24 → (s.conv k).lowFailed = false ∧ (s.chan k).faulty = false) →
        Leads (.interruptionEnd t) s (fun u => u.sweep.unit = none ∧ u.sweep.phase = 0 ∧ (u.chan n).interrupted = false ∧
          ∃ d, u.sweep.computing = some d ∧ d.unit = n ∧ d.base = s.sweep.base ∧ d.moments = s.sweep.moments))) ∧
    (∀ (t : Nat) (d : SweepDone) (o : SweepOp) (s : State), s.sweep.computing = some d → s.sweep.running = some o →
      s.Inv → d.unit < 30 → (s.conv d.unit).cal.target.length = 26 →
      let c := s.conv d.unit
      let m := d.measure c
      let out := sweepOutcomes c d.limits d o.force m
      Leads (.sweepResult t) s (fun u =>
        u.sweep.computing = none ∧
        (∀ kind, kind < 8 → ∀ i ∈ c.kindFree kind,
          nth (u.conv d.unit).cal.target i = if nth out kind = 0 then nth m.trims i else nth c.cal.target i) ∧
        (poorSignal m d.limits = true → (u.conv d.unit).cal.target = c.cal.target ∧ u.cal.generation = s.cal.generation) ∧
        (o.units = [] → s.sweep.unit = none → s.sweep.next = none → u.sweep.running = none ∧ ∀ x ∈ u.host.ops, x.tag ≠ o.tag))) ∧
    (∀ (unit : Nat) (slices : List Nat) (l : List Int), slices.Nodup → slices ≠ [] → (∀ i ∈ slices, i < l.length) →
      (slices.map (fun i => nth (balanced unit slices l) i)).sum = (slices.map (fun i => Config.factoryTrim unit i)).sum) ∧
    (∀ (t n : Nat) (s : State), n < 24 → s.Inv → 20 ≤ (s.chan n).excessRun → (s.chan n).recommended = false →
      Leads (.newSweepRecommended t n) s (fun u => (u.chan n).recommended = true ∧ ∀ k, k ≠ n → u.chan k = s.chan k))) ∧
  (∀ (t k i : Nat) (s : State), k < 30 → s.Inv → i < 26 →
      let c := (s.conv k).cal
      c.step.length = 26 → c.rampAt.length = 26 → nth c.step i < 64 →
      Leads (.rampStep t) s (fun u =>
        let x := (u.conv k).cal
        nth x.step i = max (nth c.step i) (min 64 ((max s.now t - nth c.rampAt i) / (4 * Config.ms))) ∧
        x.value i = nth c.old i + roundDiv (nth x.step i * (nth c.target i - nth c.old i)) 64 ∧
        (nth c.rampAt i + 256 * Config.ms ≤ max s.now t → x.value i = nth c.target i) ∧
        x = { c with step := x.step } ∧ u = { s.tickTo t with converters := u.converters }))

/-! ### Measurement and power quality -/

/-- MEAS_CONFIG accepts a whole configuration, to come into force later: the one in force stays (R177); it is WRONG_STATE if it changes a
bound channel or leaves a context without its elements, and NO_RESOURCE with flicker on more than eight channels (R177, Table 16.2).
PQ_EVENT_CONFIG sets the parameters of one system, or the frequency band, and nothing else (R201); a system without a connection is
WRONG_STATE. MEAS_READ, HARMONIC_READ and FLICKER_READ answer from the block asked for, one record a quantity (each from the block of its
own kind at that age), and change nothing; a block not held is WRONG_STATE, and so is flicker that is off (R199, R213, R490, Tables 6.11
and 6.12). A context that parks is BUSY (R253). Shown to complete, under conditions on the state and the operands alone: measConfig,
pqEventConfig, measRead, harmonicRead, flickerRead. -/
def Obligations.MeasurementRequests : Prop :=
  (∀ (t : Nat) (p : Port) (s : State) (q : Request),
      let r := Req.of p q
      let c := r.measConfig
      let u₀ := s.taken t p
      let flickers := (c.channels.filter (fun x => x.flicker ≠ 0)).length
      (measConfigRow.calls t p s q = true → (s.changesBound c = true ∨ s.missesElements c = true) → Ends (.measConfig t p) s r stWrongState [] u₀) ∧
      (measConfigRow.calls t p s q = true → s.changesBound c = false → s.missesElements c = false →
        (8 < flickers → Ends (.measConfig t p) s r stNoResource [] u₀) ∧
        (flickers ≤ 8 → Answers (.measConfig t p) s r stOk [] (fun u =>
          u.meas.accepted = c ∧ u.meas.acceptedAt = some (max s.now t) ∧ u.meas.config = s.meas.config ∧ u.meas.latest = s.meas.latest ∧
          u = { u₀ with meas := u.meas }))) ∧
      (pqEventConfigRow.calls t p s q = true → r.u 0 1 = 255 → Answers (.pqEventConfig t p) s r stOk [] (fun u =>
        u = { u₀ with meas := { u₀.meas with band := r.u 22 2, bandOn := bit (r.u 2 1) 4 } })) ∧
      (pqEventConfigRow.calls t p s q = true → r.u 0 1 ≠ 255 → (nth s.meas.accepted.systems (r.u 0 1)).connection ≠ 0 →
        Answers (.pqEventConfig t p) s r stOk [] (fun u =>
          (r.u 0 1 < s.meas.pq.length → nth u.meas.pq (r.u 0 1) = r.pqParams) ∧ (∀ k, k ≠ r.u 0 1 → nth u.meas.pq k = nth s.meas.pq k) ∧
          u = { u₀ with meas := { u₀.meas with pq := u.meas.pq } })) ∧
      (pqEventConfigRow.calls t p s q = true → r.u 0 1 ≠ 255 → (nth s.meas.accepted.systems (r.u 0 1)).connection = 0 →
        Ends (.pqEventConfig t p) s r stWrongState [] u₀)) ∧
  (∀ (t : Nat) (p : Port) (s : State) (q : Request),
      let r := Req.of p q
      let u₀ := s.taken t p
      let mine := fun (v : MeasValue) => decide (16 ≤ v.kind) && decide (v.object = r.u 0 1)
      let held := (s.meas.blocksOf (r.u 1 1) (decide (5 ≤ r.u 3 1)) mine)[r.u 2 1]?
      (measReadRow.calls t p s q = true → (∀ c, s.ctxOf r.handle = some c → bit c.state 1 = false) →
        let vs := (List.range (r.u 4 1)).map (fun k => u₀.readQuantity r (r.u (8 + k) 1))
        vs.map (fun v => v.quantity) = (List.range (r.u 4 1)).map (fun k => r.u (8 + k) 1) ∧
        ((u₀.blocksRead r (r.u 8 1))[r.u 3 1]? = none → Ends (.measRead t p) s r stWrongState [] u₀) ∧
        (∀ b, (u₀.blocksRead r (r.u 8 1))[r.u 3 1]? = some b → Ends (.measRead t p) s r stOk (le 1 (r.u 2 1) ++ le 1 (r.u 0 1) ++ le 1 (r.u 1 1) ++ zeros 1 ++ le 4 b.sequence ++ le 8 b.start ++
            le 8 b.stop ++ le 2 (vs.foldl (fun a v => max a v.parts) 0) ++ le 2 (orAll (vs.map (fun v => v.flags))) ++ le 2 (r.u 4 1) ++ zeros 2 ++
            vs.flatMap (fun v => le 2 v.quantity ++ le 2 v.flags ++ f32Bytes v.value)) u₀)) ∧
      (∀ c, measReadRow.calls t p s q = true → s.ctxOf r.handle = some c → bit c.state 1 = true → Ends (.measRead t p) s r stBusy [] u₀) ∧
      (harmonicReadRow.calls t p s q = true →
        (held = none → Ends (.harmonicRead t p) s r stWrongState [] u₀) ∧
        (∀ b, held = some b →
          let vs := (List.range (r.u 5 1)).map (fun k => b.find (16 + r.u 3 1) (r.u 0 1) (r.u 4 1 + k))
          Ends (.harmonicRead t p) s r stOk (b.header (r.u 1 1) 0 (r.u 0 1) vs ++ vs.flatMap (fun v => f32Bytes v.value)) u₀)) ∧
      (flickerReadRow.calls t p s q = true →
        ((nth s.meas.accepted.channels (unitOf r.handle)).flicker = 0 → Ends (.flickerRead t p) s r stWrongState [] u₀) ∧
        ((nth s.meas.accepted.channels (unitOf r.handle)).flicker ≠ 0 → ∃ payload, payload.length = 48 ∧
          payload.take 4 = f32Bytes (s.meas.flickerOf (unitOf r.handle) 0).value ∧ Ends (.flickerRead t p) s r stOk payload u₀)))

/-- The aggregations (R180-R183, R189, R195, R198). A basic interval of its full number of cycles ends as a block numbered one more than the
last of its level, if it holds a value, and enters the longer aggregations; one that a SYNC cut before its first cycle is discarded
(R185). Fifteen of one 10-minute period form a 150/180-cycle value. The 10-minute period ends at the multiple of 10 minutes after its
start, once every basic interval and block that started in it has ended, and the 2-hour window likewise. A 10-second window whose cycles
are past gives a frequency. A supraharmonic block is 100,000 samples of its die; a Pinst value covers the second ended. A level holds, of
every object, at least the number of newest blocks that Table 6.9 gives, newest first; a block that is not among them for one of its
objects is gone, and no other level changes (R213). Shown to complete, under conditions on the state and the operands alone:
basicIntervalEnd, aggregate150180, tenMinutePeriodEnd, twoHourWindowEnd, tenSecondFrequency, supraharmonicBlockEnd, pinstSecond. -/
def Obligations.AggregationsRun : Prop :=
  (∀ (t : Nat) (s : State),
      let now := s.stamp (max s.now t)
      let u₀ := s.tickTo t
      let filled := fun (tr : Track) (l : List MeasBlock) => ∃ b ∈ l, tr.since ≤ b.tick ∧ ∃ v ∈ b.values, tr.holds v = true
      (∀ b l, s.meas.basics = b :: l → s.meas.cut = [] →
        (b.cut = false → s.meas.config.cyclesN ≤ b.cycles → Leads (.basicIntervalEnd t) s (fun u => u.meas.basics = l ∧
          ((u₀.basicBlock b).values.any (fun v => v.kind ≠ 3) = true →
            ∃ x, u.meas.basic.head? = some x ∧ x.start = b.start ∧ x.stop = b.stop ∧ x.parts = b.cycles ∧ x.sequence = s.meas.nextSequence 1) ∧
          ((u₀.basicBlock b).values.any (fun v => v.kind ≠ 3) = false → u.meas.basic = s.meas.basic) ∧
          u.meas.groupParts.length = s.meas.groupParts.length + 1 ∧ u.meas.tenParts.length = s.meas.tenParts.length + 1 ∧ u = { u₀ with meas := u.meas })) ∧
        (b.cut = true → b.cycles = 0 → Leads (.basicIntervalEnd t) s (fun u => u = { u₀ with meas := { s.meas with basics := l } })) ∧
        (b.cut = false → b.cycles < s.meas.config.cyclesN → exec (.basicIntervalEnd t) s = .next u₀)) ∧
      (∀ b l tr, s.meas.groups = [tr] → s.meas.groupParts = b :: l → (∀ x ∈ b :: l, tr.since ≤ x.tick) → 15 ≤ (b :: l).length →
        (∀ x ∈ (b :: l).take 15, x.start / tenTicks = b.start / tenTicks) → filled tr ((b :: l).take 15) →
        Leads (.aggregate150180 t) s (fun u => u.meas.groups = [{ tr with start := none, since := (nth (b :: l) 14).tick + 1 }] ∧
          (∃ x, u.meas.group.head? = some x ∧ x.start = tr.start.getD b.start ∧ x.sequence = s.meas.nextSequence 2) ∧
          u = { u₀ with meas := u.meas })) ∧
      (∀ a, s.meas.tenStart = some a → s.meas.cut = [] →
        let stop := multipleAfter tenTicks a
        stop ≤ now → (∀ b ∈ s.meas.basics, stop ≤ b.start) → u₀.cyclesReach stop = true → u₀.blocksReach stop = true →
        Leads (.tenMinutePeriodEnd t) s (fun u => u.meas.tenStart = some stop ∧ (∀ b ∈ u.meas.tenParts, stop ≤ b.start) ∧
          (∀ tr, s.meas.tens = [tr] → filled tr (s.meas.tenParts.filter (fun b => b.start < stop)) →
            ∃ x, u.meas.ten.head? = some x ∧ x.start = tr.start.getD a ∧ x.stop = stop ∧ u.meas.twoParts = s.meas.twoParts ++ [x]))) ∧
      (∀ a, s.meas.twoStart = some a → s.meas.cut = [] →
        let stop := multipleAfter twoTicks a
        stop ≤ now → (∀ x, s.meas.tenStart = some x → stop ≤ x) →
        Leads (.twoHourWindowEnd t) s (fun u => u.meas.twoStart = some stop ∧ (∀ b ∈ u.meas.twoParts, stop ≤ b.start) ∧
          (∀ tr, s.meas.twos = [tr] → filled tr (s.meas.twoParts.filter (fun b => b.start < stop)) →
            ∃ x, u.meas.two.head? = some x ∧ x.start = tr.start.getD a ∧ x.stop = stop) ∧ u = { u₀ with meas := u.meas })) ∧
      (∀ start, s.secondFrom = some start → start + tenSecTicks ≤ now → u₀.cyclesPast (start + tenSecTicks) = true →
        Leads (.tenSecondFrequency t) s (fun u => u.meas.secondStart = some (start + tenSecTicks) ∧
          ∃ x, u.meas.second.head? = some x ∧ x.start = start ∧ x.stop = start + tenSecTicks ∧ x.sequence = s.meas.nextSequence 5)) ∧
      (∀ d, 1 ≤ d → d ≤ 5 → s.meas.supraIndex.length = 5 → s.meas.cut = [] → (s.die d).epoch ≠ 0 → s.blockTick d + supraTicks + 1600 ≤ max s.now t →
        (∀ j, j ≠ d → 1 ≤ j → j ≤ 5 → max s.now t < s.blockTick j + supraTicks + 1600) → s.blockChannels d ≠ [] →
        Leads (.supraharmonicBlockEnd t) s (fun u => nth u.meas.supraIndex (d - 1) = nth s.meas.supraIndex (d - 1) + 100000 ∧
          (∀ j, j ≠ d - 1 → nth u.meas.supraIndex j = nth s.meas.supraIndex j) ∧
          (∃ x, u.meas.supra.head? = some x ∧ x.start = s.stamp (s.blockTick d) ∧ x.sequence = s.meas.nextSequence 7) ∧ u = { u₀ with meas := u.meas })) ∧
      (let second := (now - 1600) / secTicks * secTicks
       s.meas.pinstAt < second → Leads (.pinstSecond t) s (fun u => u.meas.pinstAt = second ∧
         (∀ n ∈ s.flickerChannels, u.meas.flickerTime n 2 = second) ∧ (∀ n, u.meas.flickerTime n 0 = s.meas.flickerTime n 0) ∧
         u = { u₀ with meas := u.meas }))) ∧
  (∀ (m : MeasState) (level : Nat) (b : MeasBlock), 1 ≤ level → level ≤ 5 →
      let has := fun (v : MeasValue) (x : MeasBlock) => x.values.any (fun y => y.kind = v.kind && y.object = v.object)
      let l := b :: m.blocks level false
      let u := (m.push level b).blocks level false
      (b.values ≠ [] → u.head? = some b) ∧
      (∀ v, (u.filter (has v)).take (historySize level) = (l.filter (has v)).take (historySize level)) ∧
      (∀ x ∈ u, ∃ v ∈ x.values, x ∈ (l.filter (has v)).take (historySize level)) ∧
      (∀ k, k ≠ level → 1 ≤ k → k ≤ 5 → (m.push level b).blocks k false = m.blocks k false))

/-! ### Contexts, billing and balance -/

/-- CTX_CREATE makes a live context with the next serial in the first free slot, its registers 0, and answers handle and serial (R217, R218,
R30); with 160 live it is NO_RESOURCE. CTX_DELETE, with the right serial, removes the context and all the store holds of it (R219); a
feeder is WRONG_STATE. With handle 0000h it removes a parked context, and the live ones stay. CTX_READ and CTX_SNAPSHOT_READ answer bytes
of the record and change nothing (R220, R235). CTX_TARIFF_TABLE and CTX_DEMAND_CONFIG keep the new setting for the next tick boundary;
until then the context bills as before (R228, R229). A context that parks is BUSY for all but CTX_READ (R253). Shown to complete, under
conditions on the state and the operands alone: ctxCreate, ctxDelete, ctxRead, ctxSnapshotRead, ctxTariffTable, ctxDemandConfig. -/
def Obligations.ContextRequests : Prop :=
  (∀ (t : Nat) (p : Port) (s : State) (q : Request),
      let r := Req.of p q
      let u₀ := s.taken t p
      let shadow : Bool := r.u 0 1 = 1
      (ctxCreateRow.calls t p s q = true → (shadow = true ∨ r.createFits u₀ = true) →
        (if shadow then (s.bill.live ++ s.parkedContexts).any (fun c => c.kind = 1 && c.node = r.u 14 2)
          else (usedChannels ((List.range 8).map (fun k => r.u (4 + k) 1))).any (fun n => !(s.chan n).enabled)) = false →
        (160 ≤ s.bill.live.length → Ends (.ctxCreate t p) s r stNoResource [] u₀) ∧
        (s.bill.live.length < 160 → s.poolUsed + reservation (r.u 0 1) ≤ s.poolSize →
          Answers (.ctxCreate t p) s r stOk (le 2 (0x0200 + s.bill.free.headD 0) ++ zeros 2 ++ le 4 s.store.nextSerial) (fun u =>
            (∃ c, u.bill.live = s.bill.live ++ [c] ∧ c.serial = s.store.nextSerial ∧ c.kind = r.u 0 1 ∧ c.slot = s.bill.free.headD 0 ∧
              (∀ k, nth c.regs k = 0) ∧ c.period = 1 ∧ c.prepay.mode = 0) ∧
            u.store.nextSerial = s.store.nextSerial + 1 ∧ s.bill.free.headD 0 ∉ u.bill.free ∧ u.channels = u₀.channels ∧ u.meas = u₀.meas))) ∧
      (∀ c, ctxDeleteRow.calls t p s q = true → r.handle ≠ 0 → s.ctxOf r.handle = some c → c.serial = r.u 0 4 → bit c.state 1 = false →
        (c.kind = 2 → Ends (.ctxDelete t p) s r stWrongState [] u₀) ∧
        (c.kind ≠ 2 → Answers (.ctxDelete t p) s r stOk [] (fun u =>
          u.bill.live = s.bill.live.filter (fun x => x.serial ≠ c.serial) ∧ u.bill.free = s.bill.free ++ [c.slot] ∧
          u.store.pool = s.store.pool.filter (fun x => x.1.serial ≠ c.serial) ∧ (∀ x ∈ u.store.snapshots, x.serial ≠ c.serial) ∧
          (∀ x ∈ u.store.profiles, x.serial ≠ c.serial) ∧ u.store.nextSerial = s.store.nextSerial))) ∧
      (∀ c, ctxDeleteRow.calls t p s q = true → r.handle ≠ 0 → s.ctxOf r.handle = some c → c.serial ≠ r.u 0 4 → bit c.state 1 = false →
        Ends (.ctxDelete t p) s r stBadParam [] u₀) ∧
      (∀ c, ctxDeleteRow.calls t p s q = true → s.ctxOf r.handle = some c → bit c.state 1 = true → Ends (.ctxDelete t p) s r stBusy [] u₀) ∧
      (ctxDeleteRow.calls t p s q = true → r.handle = 0 → s.ctxOf 0 = none →
        (s.parkedContexts.find? (fun c => c.serial = r.u 0 4) = none → Ends (.ctxDelete t p) s r stBadParam [] u₀) ∧
        (∀ c, s.parkedContexts.find? (fun c => c.serial = r.u 0 4) = some c → c.kind ≠ 2 → s.live c.serial = none →
          Answers (.ctxDelete t p) s r stOk [] (fun u =>
            u.bill.live = s.bill.live ∧ u.bill.free = s.bill.free ∧ u.store.parked = s.store.parked.filter (fun n => n ≠ c.serial) ∧
            u.store.pool = s.store.pool.filter (fun x => x.1.serial ≠ c.serial) ∧ (∀ x ∈ u.store.snapshots, x.serial ≠ c.serial))))) ∧
  (∀ (t : Nat) (p : Port) (s : State) (q : Request) (c : Context),
      let r := Req.of p q
      let u₀ := s.taken t p
      s.ctxOf r.handle = some c → s.live c.serial = some c →
      (ctxReadRow.calls t p s q = true → Ends (.ctxRead t p) s r stOk (((u₀.contextBytes c).drop (r.u 0 2)).take (r.u 2 2)) u₀) ∧
      (bit c.state 1 = true →
        (ctxSnapshotReadRow.calls t p s q = true → Ends (.ctxSnapshotRead t p) s r stBusy [] u₀) ∧
        (ctxTariffTableRow.calls t p s q = true → Ends (.ctxTariffTable t p) s r stBusy [] u₀) ∧
        (ctxDemandConfigRow.calls t p s q = true → Ends (.ctxDemandConfig t p) s r stBusy [] u₀)) ∧
      (bit c.state 1 = false →
        (∀ x, ctxSnapshotReadRow.calls t p s q = true → s.store.snapshots.find? (fun x => x.serial = c.serial && (r.u 0 4 = 0 || x.period = r.u 0 4)) = some x →
          Ends (.ctxSnapshotRead t p) s r stOk x.bytes u₀) ∧
        (ctxSnapshotReadRow.calls t p s q = true → s.store.snapshots.find? (fun x => x.serial = c.serial && (r.u 0 4 = 0 || x.period = r.u 0 4)) = none →
          Ends (.ctxSnapshotRead t p) s r stBadParam [] u₀) ∧
        (ctxTariffTableRow.calls t p s q = true → Answers (.ctxTariffTable t p) s r stOk [] (fun u =>
          u.live c.serial = some { c with newTable := some (nextBoundary (max s.now t), r.payload ++ le 8 u₀.stampNow) } ∧
          (∀ x ∈ u.bill.live, x.serial ≠ c.serial → x ∈ s.bill.live) ∧ u.meas = u₀.meas ∧ u.host = u₀.host)) ∧
        (ctxDemandConfigRow.calls t p s q = true → c.kind ≠ 1 → Answers (.ctxDemandConfig t p) s r stOk [] (fun u =>
          u.live c.serial = some { c with newDemand := some (nextBoundary (max s.now t), r.u 0 1, r.u 1 1, r.u 2 1) } ∧
          (∀ x ∈ u.bill.live, x.serial ≠ c.serial → x ∈ s.bill.live) ∧ u.meas = u₀.meas)) ∧
        (ctxDemandConfigRow.calls t p s q = true → c.kind = 1 → Answers (.ctxDemandConfig t p) s r stOk [] (fun u =>
          u.live c.serial = some { c with demand := { c.demand with mode := r.u 0 1, length := r.u 1 1, n := r.u 2 1 } }))))

/-- CTX_PARK is accepted and marks the context; once the fold has reached its boundary and nothing is due, the context leaves the live list
for the pool, and its operation completes (R253); with a store that cannot take its record it stays live (Table 16.3; the model's choice,
log 96). CTX_UNPARK brings a parked context back under a new handle; with 160 live it is NO_RESOURCE (R254). Shown to complete, under
conditions on the state and the operands alone: ctxPark, ctxParkComplete, ctxUnpark. -/
def Obligations.ContextsPark : Prop :=
  (∀ (t : Nat) (p : Port) (s : State) (q : Request) (c : Context), ctxParkRow.calls t p s q = true →
    let r := Req.of p q
    s.ctxOf r.handle = some c →
    (c.kind = 2 → Ends (.ctxPark t p) s r stWrongState [] (s.taken t p)) ∧
    (c.kind ≠ 2 → bit c.state 1 = true → Ends (.ctxPark t p) s r stBusy [] (s.taken t p)) ∧
    (c.kind ≠ 2 → bit c.state 1 = false → 8192 ≤ s.store.parked.length → Ends (.ctxPark t p) s r stNoResource [] (s.taken t p)) ∧
    (c.kind ≠ 2 → bit c.state 1 = false → s.store.parked.length < 8192 → s.opRoom r.session = true →
      Answers (.ctxPark t p) s r stAccepted (le 2 s.host.nextTag) (fun u =>
        u.bill.parking = s.bill.parking ++ [(c.serial, s.host.nextTag, r.session, nextBoundary (max s.now t))] ∧
        u.bill.live.length = s.bill.live.length ∧ ∀ x ∈ u.bill.live, x.serial = c.serial → bit x.state 1 = true))) ∧
  (∀ (t serial tag session at_ : Nat) (s : State) (c : Context), s.bill.parking.find? (fun x => x.1 = serial) = some (serial, tag, session, at_) →
    at_ ≤ tickStart s.bill.nextFold → s.warned = false → s.bill.due = none → s.live serial = some c →
    (s.storeWrites = true → Leads (.ctxParkComplete t serial) s (fun u =>
      u.live serial = none ∧ u.store.parked = s.store.parked ++ [serial] ∧ (∀ x ∈ u.bill.parking, x.1 ≠ serial) ∧ (∀ o ∈ u.host.ops, o.tag ≠ tag))) ∧
    (s.storeWrites = false → Leads (.ctxParkComplete t serial) s (fun u =>
      (∃ x, u.live serial = some x) ∧ u.store.parked = s.store.parked ∧ (∀ x ∈ u.bill.parking, x.1 ≠ serial) ∧ (∀ o ∈ u.host.ops, o.tag ≠ tag)))) ∧
  (∀ (t : Nat) (p : Port) (s : State) (q : Request), ctxUnparkRow.calls t p s q = true →
    let r := Req.of p q
    let u₀ := s.taken t p
    (s.parkedContexts.find? (fun c => c.serial = r.u 0 4) = none → Ends (.ctxUnpark t p) s r stBadParam [] u₀) ∧
    (∀ c, s.parkedContexts.find? (fun c => c.serial = r.u 0 4) = some c →
      (160 ≤ s.bill.live.length → Ends (.ctxUnpark t p) s r stNoResource [] u₀) ∧
      (s.bill.live.length < 160 → s.live c.serial = none → Answers (.ctxUnpark t p) s r stOk (le 2 (0x0200 + s.bill.free.headD 0) ++ zeros 2) (fun u =>
        c.serial ∉ u.store.parked ∧ ∃ x ∈ u.bill.live, x.serial = c.serial ∧ x.slot = s.bill.free.headD 0))))

/-- CTX_SHADOW_FEED answers one result a record (Table 16.16). A record of a node no context has is result 7 and changes nothing; one that
ends where the last did is a duplicate, one that ends earlier is late, and both only count (R251); one for a parked context, or for one
that its park has stopped, waits, 96 at most (R253). BALANCE_CONFIG: parameters, additions and removals make the group's accepted
configuration, to come into force with an interval; DISSOLVE leaves none (R273). BALANCE_READ answers intervals or members and changes
nothing (R275). A group's first interval opens where its configuration was due to take effect. An interval whose end the fold has passed
becomes provisional, numbered as before, and one that is complete or past its hold time final (R274, R275). Shown to complete, under
conditions on the state and the operands alone: ctxShadowFeed, balanceConfigParameters, balanceConfigAdd, balanceConfigRemove,
balanceConfigDissolve, balanceReadResults, balanceReadMembers, groupIntervalEnd, groupIntervalFinal. -/
def Obligations.FeedsAndGroups : Prop :=
  ((∀ (t : Nat) (p : Port) (s : State) (q : Request), ctxShadowFeedRow.calls t p s q = true →
      let r := Req.of p q
      ∃ results : List Nat, results.length = r.u 0 1 ∧
        Answers (.ctxShadowFeed t p) s r stOk (octets [r.u 0 1, 0, 0, 0] ++ octets results) (fun u => results = ((s.taken t p).feedAll r.feeds).1 ∧
          u = ((s.taken t p).feedAll r.feeds).2)) ∧
    (∀ (s : State) (b : List Byte),
      (s.liveNode (feedNode b) = none → s.parkedNode (feedNode b) = none → s.feed b = (7, s)) ∧
      (∀ c, s.liveNode (feedNode b) = some c → s.parkAt c.serial = none → 0 < c.shadow.applied → feedEnd b = c.shadow.lastEnd → (s.feed b).1 = 1 ∧
        (s.feed b).2 = s.setCtx c.serial (fun c => { c with shadow := { c.shadow with duplicates := sat 32 (c.shadow.duplicates + 1) } })) ∧
      (∀ c at_, s.liveNode (feedNode b) = some c → s.parkAt c.serial = some at_ → at_ ≤ s.now →
        (s.feed b).1 = (if c.shadow.pending.length < 96 then 5 else 6) ∧ (s.feed b).2.meas = s.meas) ∧
      (∀ c, s.liveNode (feedNode b) = some c → s.parkAt c.serial = none → 0 < c.shadow.applied → feedEnd b < c.shadow.lastEnd → (s.feed b).1 = 2 ∧ (s.feed b).2.store = s.store) ∧
      (∀ c, s.liveNode (feedNode b) = none → s.parkedNode (feedNode b) = some c →
        (c.shadow.pending.length < 96 → (s.feed b).1 = 5) ∧ (96 ≤ c.shadow.pending.length → (s.feed b).1 = 6) ∧
        ((∀ x ∈ s.bill.live, x.serial ≠ c.serial) → (s.feed b).2.bill = s.bill)))) ∧
  ((∀ (t : Nat) (p : Port) (s : State) (q : Request), s.Inv →
      let r := Req.of p q
      let g := r.group
      let old := (nth s.bill.groups g).accepted
      let u₀ := s.taken t p
      g < 16 →
      (∀ c, balanceParametersRow.calls t p s q = true → (∀ m ∈ old.members, s.memberFits (r.u 4 4) (r.u 1 1) m = true) → s.live (r.u 4 4) = some c →
        (c.kind = 1 → Ends (.balanceConfigParameters t p) s r stWrongState [] u₀) ∧
        (c.kind = 0 ∨ (c.kind = 2 ∧ c.feederOf = g) → Answers (.balanceConfigParameters t p) s r stOk [] (fun u =>
          (nth u.bill.groups g).accepted = { old with feeder := r.u 4 4, length := r.u 1 1, k := r.u 2 1, hold := r.u 8 2, relative := r.u 10 2, absolute := r.u 12 4 } ∧
          (nth u.bill.groups g).members = (nth s.bill.groups g).members ∧ (∀ k, k ≠ g → nth u.bill.groups k = nth s.bill.groups k)))) ∧
      (balanceAddRow.calls t p s q = true → (∀ m ∈ r.members, s.memberFits old.feeder old.length m = true) →
        (old.feeder = 0 → Ends (.balanceConfigAdd t p) s r stWrongState [] u₀) ∧
        (old.feeder ≠ 0 → (4096 < (addMembers old.members r.members).length ∨ 16384 < s.otherMembers g + (addMembers old.members r.members).length) →
          Ends (.balanceConfigAdd t p) s r stNoResource [] u₀) ∧
        (old.feeder ≠ 0 → (addMembers old.members r.members).length ≤ 4096 → s.otherMembers g + (addMembers old.members r.members).length ≤ 16384 →
          Answers (.balanceConfigAdd t p) s r stOk [] (fun u =>
            (nth u.bill.groups g).accepted = { old with members := addMembers old.members r.members } ∧ (∀ k, k ≠ g → nth u.bill.groups k = nth s.bill.groups k)))) ∧
      (balanceRemoveRow.calls t p s q = true → old.feeder = 0 → Ends (.balanceConfigRemove t p) s r stWrongState [] u₀) ∧
      (balanceRemoveRow.calls t p s q = true → old.feeder ≠ 0 → (∀ m ∈ r.members, ∃ x ∈ old.members, x.serial = m.serial) →
        Answers (.balanceConfigRemove t p) s r stOk [] (fun u =>
          (nth u.bill.groups g).accepted = { old with members := old.members.filter (fun x => !r.members.any (fun m => m.serial = x.serial)) } ∧
          (∀ k, k ≠ g → nth u.bill.groups k = nth s.bill.groups k))) ∧
      (balanceDissolveRow.calls t p s q = true → Answers (.balanceConfigDissolve t p) s r stOk [] (fun u =>
        (nth u.bill.groups g).accepted.feeder = 0 ∧ (∀ k, k ≠ g → nth u.bill.groups k = nth s.bill.groups k))) ∧
      (balanceReadResultsRow.calls t p s q = true → ∃ l : List GroupInterval, l = (((nth s.bill.groups g).byAge).drop (r.u 2 2)).take (r.u 1 1) ∧
        Ends (.balanceReadResults t p) s r stOk (octets [l.length, 0] ++ le 2 old.members.length ++ zeros 4 ++ l.flatMap (fun x => x.bytes g)) u₀) ∧
      (balanceReadMembersRow.calls t p s q = true → ∃ l : List Member, l = (old.members.drop (r.u 2 2)).take (r.u 1 1) ∧
        Ends (.balanceReadMembers t p) s r stOk (octets [l.length, 0] ++ le 2 old.members.length ++ zeros 4 ++
          l.flatMap (fun m => le 4 m.serial ++ le 1 m.phase)) u₀)) ∧
    (∀ (t g : Nat) (s : State) (x : GroupInterval), g < 16 → s.Inv → s.phase = .running →
      ((nth s.bill.groups g).opened = some x → x.stop ≤ s.foldUtc → Leads (.groupIntervalEnd t g) s (fun u =>
        (∃ y, (nth u.bill.groups g).provisional = y :: (nth s.bill.groups g).provisional ∧ y.number = x.number ∧ y.state = 1 ∧ y.start = x.start ∧
          y.stop = x.stop ∧ y.feeder = x.feeder) ∧ ∀ z, (nth u.bill.groups g).opened = some z → z.start = x.stop ∧ z.number = (nth s.bill.groups g).count + 1)) ∧
      (∀ n, (nth s.bill.groups g).opened = none → (nth s.bill.groups g).next = some n → n.feeder ≠ 0 → (nth s.bill.groups g).startAt ≤ s.foldUtc →
        Leads (.groupIntervalEnd t g) s (fun u => (nth u.bill.groups g).members = n.members ∧ (nth u.bill.groups g).feeder = n.feeder ∧
          (nth u.bill.groups g).next = none ∧ ∃ z, (nth u.bill.groups g).opened = some z ∧ z.start = (nth s.bill.groups g).startAt ∧ z.state = 0 ∧
            z.number = (nth s.bill.groups g).count + 1)) ∧
      ((nth s.bill.groups g).opened = some x → s.foldUtc < x.stop → exec (.groupIntervalEnd t g) s = .next (s.tickTo t)) ∧
      ((nth s.bill.groups g).provisional.reverse.find? (fun x => x.done (s.tickTo t).stampNow) = some x → Leads (.groupIntervalFinal t g) s (fun u =>
        (∃ y, (nth u.bill.groups g).final.head? = some y ∧ y.number = x.number ∧ y.state = 2 ∧ y.start = x.start) ∧
        (nth u.bill.groups g).final.length ≤ 96))))

/-- Energy is never lost (R210, R211, R222). TICK_CLOSE hands the tick's energies on, under its number; a full queue of 64 that may not be
folded keeps what it holds (the model's choice, log 77). An integrator gives up whole micro-units and keeps the rest. TICK_FOLD takes the
oldest tick and moves the fold past it. Folding P, Q and S adds each, in its quadrant, to the register of the tariff in force and to the
total, where a register counts 1,000 units of its residue. Shown to complete, under conditions on the state and the operands alone:
tickClose, tickFold. -/
def Obligations.EnergyIsKept : Prop :=
  (∀ (t : Nat) (s : State), (s.phase = .ready ∨ s.phase = .running) → (s.tickTo t).tickReady = true →
    (s.meas.queue.length < 64 → Leads (.tickClose t) s (fun u =>
      u.meas.nextTick = s.meas.nextTick + 1 ∧ (∃ k, u.meas.queue = s.meas.queue ++ [k] ∧ k.tick = s.meas.nextTick) ∧ u.bill.live = s.bill.live)) ∧
    (64 ≤ s.meas.queue.length → s.phase = .ready → Leads (.tickClose t) s (fun u =>
      u.meas.nextTick = s.meas.nextTick + 1 ∧ u.meas.queue = s.meas.queue ∧ u.bill.live = s.bill.live))) ∧
  (∀ (t : Nat) (s : State), (s.tickTo t).tickReady = false → exec (.tickClose t) s = .next (s.tickTo t)) ∧
  (∀ (x : Integrator) (k : Nat), let a := (x.ticks.find? (fun a => a.tick = k)).getD { tick := k }
    (((x.close k).1.active : Int) : Rat) + (x.close k).2.rest.1 = a.active + x.rest.1 ∧ 0 ≤ (x.close k).2.rest.1 ∧ (x.close k).2.rest.1 < 1) ∧
  (∀ (t : Nat) (s : State) (k : ClosedTick) (rest : List ClosedTick), s.meas.queue = k :: rest → s.mayFold k = true →
    Leads (.tickFold t) s (fun u => u.meas.queue = rest ∧ u.bill.nextFold = k.tick + 1)) ∧
  (∀ (t : Nat) (s : State), (∀ k ∈ s.meas.queue.head?, s.mayFold k = false) → exec (.tickFold t) s = .next (s.tickTo t)) ∧
  (∀ (c : Context) (p q : Int) (e x f : Nat), c.regs.length = 63 → c.residues.length = 63 → c.tariff < 8 → x < 7 → f < 9 →
    let d := c.fold p q e
    let amount :=
      match x with
      | 0 => p.toNat
      | 1 => (-p).toNat
      | 2 => if 0 ≤ p then q.toNat else 0
      | 3 => if p < 0 then q.toNat else 0
      | 4 => if p < 0 then (-q).toNat else 0
      | 5 => if 0 ≤ p then (-q).toNat else 0
      | _ => e
    1000 * nth d.regs (9 * x + f) + nth d.residues (9 * x + f) =
      1000 * nth c.regs (9 * x + f) + nth c.residues (9 * x + f) + (if f = c.tariff ∨ f = 8 then amount else 0))

/-- At a tick boundary the actions due run in the order of Table 7.11: the row of a step that is due carries out every step up to it, and none
is left behind (R236); where it is itself the step at hand, what it does is the action of that step for every context that is due, and the
next that has something to do comes up. A demand interval only raises maxima (R231); a tariff change changes no register; a snapshot
clears maxima and flags, counts the period on and keeps every register (R234); the standing charge is taken once a midnight (R257). A pin
code that has held for 20 ms and is new becomes the newest accepted; one that has not is ignored (R226). Shown to complete, under
conditions on the state and the operands alone: demandIntervalEnd, loadProfileEntry, tariffChange, billingBoundary, standingCharge,
friendlyTimeChange, checkpoint, tariffPinCode. -/
def Obligations.BoundaryActions : Prop :=
  (∀ (t : Nat) (s : State) (d : DueActions),
    let u₀ := s.tickTo t
    let done := fun (k : Nat) (u : State) => ∀ d', u.bill.due = some d' → k < d'.step ∧ d'.boundary = d.boundary
    let ran := fun (k : Nat) => State.advance 8 { u₀.runStep d k with
      bill := { (u₀.runStep d k).bill with due := if k = 8 then none else some { d with step := k + 1 } } }
    let runs := fun (k : Nat) (u : State) => done k u ∧ (d.step = k → u = ran k)
    let ready := fun (k : Nat) => s.bill.due = some d ∧ 2 ≤ d.step ∧ d.step ≤ k ∧ s.stepDue d k = true
    (ready 2 → Leads (.demandIntervalEnd t) s (runs 2)) ∧ (ready 3 → Leads (.loadProfileEntry t) s (runs 3)) ∧
    (ready 4 → Leads (.tariffChange t) s (runs 4)) ∧ (ready 5 → Leads (.billingBoundary t) s (runs 5)) ∧
    (ready 6 → Leads (.standingCharge t) s (runs 6)) ∧ (ready 7 → Leads (.friendlyTimeChange t) s (runs 7)) ∧
    (ready 8 → Leads (.checkpoint t) s (fun u => runs 8 u ∧ u.bill.due = none ∧
      (d.step = 8 → u.bill.checkpointed = d.instant / minTicks))) ∧
    (s.bill.due = none → ∀ i ∈ [Instr.demandIntervalEnd t, Instr.loadProfileEntry t, Instr.tariffChange t, Instr.billingBoundary t,
      Instr.standingCharge t, Instr.friendlyTimeChange t, Instr.checkpoint t], exec i s = .next u₀)) ∧
  (∀ (maxima : List (Nat × Nat)) (demands : List Nat) (tariff stop i : Nat), i < maxima.length →
    (nth maxima i).1 ≤ (nth (raiseMaxima maxima demands tariff stop) i).1 ∧
    ((nth (raiseMaxima maxima demands tariff stop) i) = nth maxima i ∨ nth (raiseMaxima maxima demands tariff stop) i = (nth demands (i / 9), stop))) ∧
  (∀ (s : State) (serial new instant : Nat) (c : Context), s.live serial = some c →
    ∃ d, (s.changeTariff serial new instant).live serial = some d ∧ d.tariff = new ∧ d.regs = c.regs ∧ d.demand = c.demand ∧ d.prepay = c.prepay) ∧
  (∀ (c : Context) (n stop : Nat), let d := c.nextPeriod n stop
    d.regs = c.regs ∧ d.residues = c.residues ∧ d.period = c.period + n ∧ d.flags = 0 ∧ d.periodStart = stop ∧ (∀ i, nth d.demand.maxima i = (0, 0)) ∧
    d.prepay.credit = c.prepay.credit) ∧
  (∀ (p : Prepay) (l : List Nat), (l.foldl (fun (p : Prepay) m => p.standDay m) p).credit = p.credit - l.length * p.standing ∧
    (l.foldl (fun (p : Prepay) m => p.standDay m) p).standingCharged = p.standingCharged + l.length * p.standing) ∧
  (∀ (t code : Nat) (s : State), code < 8 → s.phase ≠ .held →
    (s.pins.tariffAt + 20 * Config.ms ≤ max s.now t → (∀ x, s.bill.pinCodes.head? = some x → x.2 ≠ code) →
      Leads (.tariffPinCode t code) s (fun u => u.bill.pinCodes.head? = some (max s.now t, code) ∧ u.pins.tariff = code ∧ u.bill.live = s.bill.live)) ∧
    (code ≠ s.pins.tariff → max s.now t < s.pins.tariffAt + 20 * Config.ms → exec (.tariffPinCode t code) s = .next (s.tickTo t)))

/-! ### Prepayment, relays and tamper detection -/

/-- PREPAY_CONFIG and FRIENDLY_SET keep their settings for the next tick boundary (R255, R262). CREDIT_ADD adds its amount to C and records
the transaction; a repeated number changes nothing, and a grant that is repaid ends (R258, R260). EMERGENCY_CREDIT raises G by the amount
granted; above the ceiling it is BAD_PARAM (R260). A press of the button grants the ceiling to a context that enables it (R261). Charges
keep the remainder: no credit is lost to rounding (R256). The state follows C + G (R259). Shown to complete, under conditions on the state
and the operands alone: prepayConfig, friendlySet, creditAdd, emergencyCredit, creditBtnPress. -/
def Obligations.PrepaymentRuns : Prop :=
  (∀ (t : Nat) (p : Port) (s : State) (q : Request) (c : Context),
    let r := Req.of p q
    let u₀ := s.taken t p
    let amount := r.i 0 8
    s.ctxOf r.handle = some c → s.live c.serial = some c → bit c.state 1 = false →
    (prepayConfigRow.calls t p s q = true → (r.u 1 1 = 255 ∨ ∀ x ∈ s.bill.live ++ s.parkedContexts, x.serial ≠ c.serial → x.binds (r.u 1 1) = false) →
      Answers (.prepayConfig t p) s r stOk [] (fun u =>
        u.live c.serial = some { c with newPrepay := some (nextBoundary (max s.now t), r.payload) } ∧ u.bill.relays = s.bill.relays)) ∧
    (friendlySetRow.calls t p s q = true → Answers (.friendlySet t p) s r stOk [] (fun u =>
      u.live c.serial = some { c with newFriendly := some (nextBoundary (max s.now t), r.payload) } ∧ u.bill.relays = s.bill.relays)) ∧
    (creditAddRow.calls t p s q = true → c.prepay.mode = 1 → c.prepay.transactions.contains (r.u 8 4) = true →
      Ends (.creditAdd t p) s r stOk (leInt 8 c.prepay.credit ++ octets [c.prepay.state, 1, 0, 0]) u₀) ∧
    (creditAddRow.calls t p s q = true → c.prepay.mode = 1 → c.prepay.transactions.contains (r.u 8 4) = false →
      (creditLimit < ((c.prepay.credit + amount).natAbs : Int) → Ends (.creditAdd t p) s r stBadParam [] u₀) ∧
      (((c.prepay.credit + amount).natAbs : Int) ≤ creditLimit → ∃ state, Answers (.creditAdd t p) s r stOk
        (leInt 8 (c.prepay.credit + amount) ++ octets [state, 0, 0, 0]) (fun u => ∃ d, u.live c.serial = some d ∧
          d.prepay.credit = c.prepay.credit + amount ∧ d.prepay.transactions.head? = some (r.u 8 4) ∧ d.prepay.state = state ∧
          (0 ≤ d.prepay.credit → d.prepay.emergency = 0) ∧ d.regs = c.regs))) ∧
    (emergencyCreditRow.calls t p s q = true → c.prepay.ceiling < c.prepay.emergency + r.u 0 8 → Ends (.emergencyCredit t p) s r stBadParam [] u₀) ∧
    (emergencyCreditRow.calls t p s q = true → 0 < r.u 0 8 → c.prepay.emergency + r.u 0 8 ≤ c.prepay.ceiling → c.prepay.mode = 1 →
      c.prepay.credit < c.prepay.low → ∃ state, Answers (.emergencyCredit t p) s r stOk (le 8 (c.prepay.emergency + r.u 0 8) ++ octets [state, 0, 0, 0])
        (fun u => ∃ d, u.live c.serial = some d ∧ d.prepay.emergency = c.prepay.emergency + r.u 0 8 ∧ d.prepay.credit = c.prepay.credit))) ∧
  (∀ (t high low : Nat) (s : State) (c : Context), s.phase = .running → s.bill.live = [c] →
    (50 * Config.ms ≤ high → high ≤ 5 * secTicks → 50 * Config.ms ≤ low → c.kind = 0 → c.prepay.mode = 1 → bit c.prepay.options 0 = true →
      c.prepay.state ≠ 6 → c.prepay.credit < c.prepay.low → c.prepay.emergency = 0 → Leads (.creditBtnPress t high low) s (fun u =>
        u.pins.button = max s.now t - low ∧ ∃ d, u.live c.serial = some d ∧ d.prepay.emergency = c.prepay.ceiling ∧ d.prepay.credit = c.prepay.credit)) ∧
    (high < 50 * Config.ms → exec (.creditBtnPress t high low) s = .next (s.tickTo t))) ∧
  (∀ (p : Prepay) (tariff e : Nat), let d := p.charge tariff e
    1000000000 * d.charged + d.remainder = 1000000000 * p.charged + p.remainder + nth p.prices tariff * e ∧
    d.credit + d.charged = p.credit + p.charged ∧ d.remainder < 1000000000) ∧
  (∀ p : Prepay, p.mode = 1 → p.hold = 0 → p.state ≠ 5 → p.state ≠ 6 →
    (0 < p.left → p.decide = if p.emergency > 0 then 3 else if p.credit < p.low then 2 else 1) ∧
    (p.left ≤ 0 → p.decide = if p.friendly ≠ 0 then 4 else 5))

/-- RELAY_CONTROL: QUERY answers the relay; OPEN and CLOSE drive it, CLOSE only with credit left; ARM moves a held state 5 to 6; POLARITY sets
the level for closed (R263, Table 8.2). TAMPER_CONFIG sets a context's enables and limits, or the active levels of the switches (R268);
TAMPER_READ answers a record (R270). A switch input that has held a new level for 20 ms takes it (R269). Shown to complete, under
conditions on the state and the operands alone: relayControlQuery, relayControlOpen, relayControlClose, relayControlArm,
relayControlPolarity, tamperConfigContext, tamperRead, tamperConfigLevels, tamperSwitch. -/
def Obligations.RelaysAndTampers : Prop :=
  (∀ (t : Nat) (p : Port) (s : State) (q : Request),
    let r := Req.of p q
    let k := r.u 0 1
    let u₀ := s.taken t p
    let others := fun (u : State) => ∀ j, j ≠ k → nth u.bill.relays j = nth s.bill.relays j
    s.bill.relays.length = 4 → s.warned = false →
    (relayQueryRow.calls t p s q = true → Ends (.relayControlQuery t p) s r stOk (u₀.relayReply k) u₀ ∧ (u₀.relayReply k).length = 16) ∧
    (relayOpenRow.calls t p s q = true → s.boundTo k = none → ∃ payload, Answers (.relayControlOpen t p) s r stOk payload (fun u =>
      (nth u.bill.relays k).closed = false ∧ others u ∧ u.bill.live = s.bill.live)) ∧
    (∀ c, relayOpenRow.calls t p s q = true → s.boundTo k = some c → s.live c.serial = some c →
      (c.prepay.friendly ≠ 0 → r.u 2 1 = 0 → Ends (.relayControlOpen t p) s r stDenied [] u₀) ∧
      (c.prepay.friendly = 0 ∨ r.u 2 1 ≠ 0 → ∃ payload, Answers (.relayControlOpen t p) s r stOk payload (fun u =>
        (nth u.bill.relays k).closed = false ∧ ∃ d, u.live c.serial = some d ∧ d.prepay.state = 5 ∧ d.prepay.hold = 1 ∧ d.prepay.credit = c.prepay.credit))) ∧
    (relayCloseRow.calls t p s q = true → s.boundTo k = none → ∃ payload, Answers (.relayControlClose t p) s r stOk payload (fun u =>
      (nth u.bill.relays k).closed = true ∧ others u ∧ u.bill.live = s.bill.live)) ∧
    (∀ c, relayCloseRow.calls t p s q = true → s.boundTo k = some c → c.prepay.left ≤ 0 → Ends (.relayControlClose t p) s r stWrongState [] u₀) ∧
    (∀ c, relayCloseRow.calls t p s q = true → s.boundTo k = some c → s.live c.serial = some c → 0 < c.prepay.left →
      ∃ payload, Answers (.relayControlClose t p) s r stOk payload (fun u => (nth u.bill.relays k).closed = true)) ∧
    (∀ c, relayArmRow.calls t p s q = true → s.boundTo k = some c → s.live c.serial = some c →
      (c.prepay.state = 5 → c.prepay.hold = 1 → 0 < c.prepay.left → ∃ payload, Answers (.relayControlArm t p) s r stOk payload (fun u =>
        ∃ d, u.live c.serial = some d ∧ d.prepay.state = 6 ∧ d.prepay.hold = 0)) ∧
      (c.prepay.state ≠ 5 → Ends (.relayControlArm t p) s r stWrongState [] u₀)) ∧
    (relayPolarityRow.calls t p s q = true → ∃ payload, Answers (.relayControlPolarity t p) s r stOk payload (fun u =>
      nth u.bill.relays k = { nth s.bill.relays k with polarity := r.u 3 1 } ∧ others u ∧ u = { u₀ with bill := { u₀.bill with relays := u.bill.relays } }))) ∧
  (∀ (t : Nat) (p : Port) (s : State) (q : Request),
    let r := Req.of p q
    let u₀ := s.taken t p
    (∀ c, s.ctxOf r.handle = some c → s.live c.serial = some c → bit c.state 1 = false →
      (tamperContextRow.calls t p s q = true → Answers (.tamperConfigContext t p) s r stOk [] (fun u => ∃ d, u.live c.serial = some d ∧
        d.tamper.enables = r.u 0 1 ∧ d.tamper.importOnly = r.u 1 1 ∧ d.tamper.ratio = r.f32 8 ∧ d.regs = c.regs ∧ d.prepay = c.prepay)) ∧
      (∀ x, tamperReadRow.calls t p s q = true → s.store.tampers.find? (fun x => x.serial = c.serial && (r.u 0 4 = 0 || x.number = r.u 0 4)) = some x →
        Ends (.tamperRead t p) s r stOk x.bytes u₀) ∧
      (tamperReadRow.calls t p s q = true → s.store.tampers.find? (fun x => x.serial = c.serial && (r.u 0 4 = 0 || x.number = r.u 0 4)) = none →
        Ends (.tamperRead t p) s r stBadParam [] u₀)) ∧
    (tamperLevelsRow.calls t p s q = true → s.Inv → Answers (.tamperConfigLevels t p) s r stOk [] (fun u =>
      (∀ k, k < 4 → (nth u.bill.tamp k).activeHigh = bit (r.u 0 1) k ∧ (nth u.bill.tamp k).level = (nth s.bill.tamp k).level) ∧
      u = { u₀ with bill := { u₀.bill with tamp := u.bill.tamp } }))) ∧
  (∀ (t k : Nat) (level : Bool) (s : State), k < 4 → s.Inv →
    let x := nth s.bill.tamp k
    (x.level ≠ level → Leads (.tamperSwitch t k level) s (fun u =>
      nth u.bill.tamp k = { x with level := level, since := max s.now t - 20 * Config.ms, active := decide (level = x.activeHigh) } ∧
      (∀ j, j ≠ k → nth u.bill.tamp j = nth s.bill.tamp j) ∧ u.bill.live = s.bill.live)) ∧
    (x.level = level → max s.now t - 20 * Config.ms < x.since → exec (.tamperSwitch t k level) s = .next (s.tickTo t)))

/-! ### The line modem and the mesh -/

/-- LINE_CONFIG takes effect at once, or, with a frame in flight, after it (R277, R278). TONEMAP answers a slot's record; PIN gives it a map
and the next version, UNPIN leaves it to the part (R296). PRIVILEGE_SET sets a slot's privilege, 16 at most (R298). LINE_STATS answers
counters, S-FSK frames and held responses, and releases what it returns (R304, R331, R496). LINE_SEND in S-FSK mode holds its bits (R303).
Shown to complete, under conditions on the state and the operands alone: lineConfig, tonemapRead, tonemapPin, tonemapUnpin, privilegeSet,
privilegeClear, lineStatsNeighbour, lineStatsCounters, lineStatsSfskFrames, lineStatsResponse, lineSendSfsk. -/
def Obligations.LineRequests : Prop :=
  ∀ (t : Nat) (p : Port) (s : State) (q : Request),
    let r := Req.of p q
    let c := r.lineConfig
    let u₀ := s.taken t p
    s.lineDown = false →
    (lineConfigRow.calls t p s q = true → s.line.sfskFlight = none → (s.chan c.coupling).enabled = true → c.mode = s.line.config.mode →
      (s.line.flight = none → s.line.next = none → Answers (.lineConfig t p) s r stOk [] (fun u =>
        u.line.config = c ∧ u.line.next = none ∧ u.line.queue = s.line.queue ∧ (c.coupling = s.line.config.coupling → u.line.neighbours = s.line.neighbours) ∧
        u = { u₀ with line := u.line, mesh := { u₀.mesh with dirty := u.mesh.dirty } })) ∧
      (s.line.flight.isSome = true → Answers (.lineConfig t p) s r stOk [] (fun u =>
        u.line.config = s.line.config ∧ u.line.next = some c ∧ u = { u₀ with line := u.line }))) ∧
    (tonemapReadRow.calls t p s q = true → Ends (.tonemapRead t p) s r stOk (u₀.toneReply r.handle) u₀) ∧
    (∀ n m, s.neighbourAt r.handle = some n → s.neighbour n.node = some n → readMap ((r.payload.drop 4).take 32) = some m →
      tonemapPinRow.calls t p s q = true → ∃ reply, Answers (.tonemapPin t p) s r stOk reply (fun u => ∃ d, u.neighbour n.node = some d ∧
        d.pinned = true ∧ d.txVersion = (n.txVersion + 1) % 16 ∧ d.txMap = some { version := (n.txVersion + 1) % 16, entries := m } ∧ d.rxMap = n.rxMap)) ∧
    (∀ n, s.neighbourAt r.handle = some n → s.neighbour n.node = some n → tonemapUnpinRow.calls t p s q = true →
      ∃ reply, Answers (.tonemapUnpin t p) s r stOk reply (fun u => ∃ d, u.neighbour n.node = some d ∧ d = { n with pinned := false })) ∧
    (privilegeSetRow.calls t p s q = true →
      (16 ≤ (s.line.neighbours.filter (fun n => n.privileged && n.handle ≠ r.handle)).length → Ends (.privilegeSet t p) s r stNoResource [] u₀) ∧
      ((s.line.neighbours.filter (fun n => n.privileged && n.handle ≠ r.handle)).length < 16 → Answers (.privilegeSet t p) s r stOk [] (fun u =>
        (∀ n ∈ u.line.neighbours, n.handle = r.handle → n.privileged = true) ∧ (∀ n ∈ s.line.neighbours, n.handle ≠ r.handle → n ∈ u.line.neighbours) ∧
        u = { u₀ with line := { u₀.line with neighbours := u.line.neighbours } }))) ∧
    (privilegeClearRow.calls t p s q = true → Answers (.privilegeClear t p) s r stOk [] (fun u =>
      (∀ n ∈ u.line.neighbours, n.handle = r.handle → n.privileged = false) ∧ u = { u₀ with line := { u₀.line with neighbours := u.line.neighbours } })) ∧
    (∀ n, s.neighbourAt r.handle = some n → lineStatsNeighbourRow.calls t p s q = true → Ends (.lineStatsNeighbour t p) s r stOk
      (n.counters.flatMap (le 4) ++ octets [n.aLink] ++ leInt 1 n.reported ++ zeros 2 ++ le 8 n.lastValid) u₀) ∧
    (lineStatsCountersRow.calls t p s q = true → Ends (.lineStatsCounters t p) s r stOk (s.line.counters.flatMap (le 4) ++ s.mesh.counters.flatMap (le 4)) u₀) ∧
    (lineStatsSfskFramesRow.calls t p s q = true →
      (u₀.lineNow.mode = 2 → Answers (.lineStatsSfskFrames t p) s r stOk
        (octets [(s.line.sfsk.take 15).length] ++ zeros 3 ++ (s.line.sfsk.take 15).flatMap SfskFrame.record) (fun u =>
          u = { u₀ with line := { u₀.line with sfsk := s.line.sfsk.drop 15 } })) ∧
      (u₀.lineNow.mode ≠ 2 → Ends (.lineStatsSfskFrames t p) s r stWrongState [] u₀)) ∧
    (lineStatsResponseRow.calls t p s q = true →
      (∀ x, s.mesh.responses.find? (fun x => x.tag = r.u 2 2) = some x → Answers (.lineStatsResponse t p) s r stOk
        (le 2 x.tag ++ le 2 x.node ++ le 2 x.data.length ++ zeros 2 ++ x.data) (fun u =>
          u.mesh.responses = s.mesh.responses.filter (fun y => y.tag ≠ x.tag) ∧ u = { u₀ with mesh := { u₀.mesh with responses := u.mesh.responses } })) ∧
      (s.mesh.responses.find? (fun x => x.tag = r.u 2 2) = none → Ends (.lineStatsResponse t p) s r stWrongState [] u₀)) ∧
    (lineSendSfskRow.calls t p s q = true → s.line.sfskFlight = none → s.line.next = none →
      (5 ≤ s.line.sfskQueue.length → Ends (.lineSendSfsk t p) s r stBusy [] u₀) ∧
      (s.line.sfskQueue.length < 5 → Answers (.lineSendSfsk t p) s r stOk [] (fun u =>
        u = { u₀ with line := { u₀.line with sfskQueue := s.line.sfskQueue ++ [(r.u 4 2, r.payload.drop 8, max s.now t)] } })))

/-- NODE_ADMIT admits a node into discovery, or removes it with its slot (R308, R309); admitting one admitted changes nothing. ROUTE_READ
answers the node's record (R323). POLL_LIST_LOAD replaces the entries of its indices and keeps the others (R325). POLL_START and POLL_STOP
set polling and its limit (R326). LINE_SEND in native mode is accepted, and its frame leaves for the first hop under the next counter
(R313, R331). A line configuration that waited for an S-FSK transmission which has ended is the one in force (R278). Shown to complete,
under conditions on the state and the operands alone: nodeAdmitAdmit, nodeAdmitRemove, routeRead, pollListLoad, pollStart, pollStop,
lineSend. -/
def Obligations.MeshRequests : Prop :=
  ∀ (t : Nat) (p : Port) (s : State) (q : Request),
    let r := Req.of p q
    let a := r.u 0 2
    let u₀ := s.taken t p
    s.lineDown = false →
    (nodeAdmitAdmitRow.calls t p s q = true →
      (s.admitted a = true → Ends (.nodeAdmitAdmit t p) s r stOk (le 2 (s.nodeHandle a) ++ zeros 2) u₀) ∧
      (s.admitted a = false → 65535 ≤ s.mesh.nodes.length → Ends (.nodeAdmitAdmit t p) s r stNoResource [] u₀) ∧
      (s.admitted a = false → s.mesh.nodes.length < 65535 → Answers (.nodeAdmitAdmit t p) s r stOk (le 2 (s.nodeHandle a) ++ zeros 2) (fun u =>
        (∃ n, u.node a = some n ∧ n.state = 3 ∧ n.route = none) ∧ a ∈ u.mesh.discoveries ∧ (∀ n ∈ s.mesh.nodes, n ∈ u.mesh.nodes) ∧ u.line = s.line))) ∧
    (nodeAdmitRemoveRow.calls t p s q = true → Answers (.nodeAdmitRemove t p) s r stOk (le 2 (s.nodeHandle a) ++ zeros 2) (fun u =>
      u.admitted a = false ∧ u.neighbour a = none ∧ a ∉ u.mesh.discoveries ∧ (∀ n ∈ s.mesh.nodes, n.address ≠ a → n ∈ u.mesh.nodes))) ∧
    (∀ n, routeReadRow.calls t p s q = true → u₀.routeNodeOf r = some n → Ends (.routeRead t p) s r stOk (u₀.routeRecord n) u₀) ∧
    (pollListLoadRow.calls t p s q = true → Answers (.pollListLoad t p) s r stOk [] (fun u =>
      (∀ e ∈ s.mesh.polls, (∀ x ∈ r.pollEntries, x.index ≠ e.index) → e ∈ u.mesh.polls) ∧
      (∀ x ∈ u.mesh.polls, x ∈ s.mesh.polls ∨ ∃ e ∈ r.pollEntries, e.node ≠ 0 ∧ x.index = e.index ∧ x.node = e.node ∧ x.period = e.period ∧ x.readyAt = none) ∧
      u = { u₀ with mesh := { u₀.mesh with polls := u.mesh.polls } })) ∧
    (pollStartRow.calls t p s q = true → u₀.lineNow.mode = 1 → (∃ e ∈ s.mesh.polls, has e.flags 1 = true) → s.canOriginate = true →
      Answers (.pollStart t p) s r stOk [] (fun u => u.mesh.running = true ∧ u.mesh.limit = r.u 0 1 ∧ (s.mesh.running = true → u.mesh.polls = s.mesh.polls) ∧
        u.mesh.polls.length = s.mesh.polls.length ∧ u.mesh.flights = s.mesh.flights)) ∧
    (pollStartRow.calls t p s q = true → u₀.lineNow.mode ≠ 1 → Ends (.pollStart t p) s r stWrongState [] u₀.settleLine) ∧
    (pollStopRow.calls t p s q = true → Answers (.pollStop t p) s r stOk [] (fun u => u.mesh.running = false ∧
      (s.mesh.running = true → ∀ e ∈ u.mesh.polls, e.readyAt = none) ∧ u.mesh.flights = s.mesh.flights)) ∧
    (∀ route, lineSendRow.calls t p s q = true → u₀.lineNow.mode = 1 → s.linkLost 7 = false → s.admitted a = true → s.opRoom r.session = true → s.mesh.flights = [] →
      s.canOriginate = true → s.dataQueue < 4 → s.power.warning = none → (s.node a).bind Node.route = some route →
      Answers (.lineSend t p) s r stAccepted (le 2 s.host.nextTag) (fun u =>
        (∃ x, u.mesh.flights = [x] ∧ x.node = a ∧ x.type = 3 ∧ x.op = some (s.host.nextTag, r.session) ∧ x.attempts = 1 ∧ x.allowed = 3 ∧ x.queued = true) ∧
        (∃ f, u.line.queue = s.line.queue ++ [f] ∧ f.isMap = false ∧ f.node = route.relays.headD a) ∧ u.mesh.counter = s.mesh.counter + 1)) ∧
    (lineSendRow.calls t p s q = true → (u₀.lineNow.mode ≠ 1 ∨ s.admitted a = false) → Ends (.lineSend t p) s r stWrongState [] u₀.settleLine)

/-- The modem's events. A configuration that waited for a transmission which has ended comes into force first (R278). A prediction, at least 5
ms ahead, joins those known, on M's clock, with the length of its half cycle (R282, R284); an anchor sets ZC_OUT, from a prediction or
free-running (R283, R285); 2 s of free-running restrict to default-map frames and ten valid half cycles end it (R285). A frame due at its
anchor starts, unless the modem receives (R286, R302); all its half cycles sent, it leaves the line free (R284, R286). A trip of the
driver stops it, and its clearing holds sending 1 s (R302). A whole frame from a neighbour ends its silence (R290, R316). S-FSK frames are
sent and held likewise, 16 at most (R303, R304). Shown to complete, under conditions on the state and the operands alone:
anchorPrediction, anchor, freeRunTimeout, anchorResume, frameTransmit, mapFrameSend, frameSent, driverProtection, driverProtectionClear,
delimiterDetected, frameReceived, mapFrameReceived, erasureRateWindow, sfskTransmit, sfskFrameReceived. -/
def Obligations.ModemEvents : Prop :=
  ∀ (t : Nat) (s : State), s.lineRuns = true →
    let now := max s.now t
    let u₀ := s.tickTo t
    let v := u₀.settleLine
    (∀ phase : Rat, v.canPredict = true → v.anchorPhase = some phase → Leads (.anchorPrediction t) s (fun u =>
      u.line.predicted = s.line.predicted ++
        [(s.toModem ((v.nextAnchor phase).1 / 512).floor.toNat, (v.nextAnchor phase).2, s.tracker.meanPeriod / 1024)] ∧
      ((512 * (now + 5 * Config.ms) : Nat) : Rat) ≤ (v.nextAnchor phase).1 ∧ u = { v with line := { v.line with predicted := u.line.predicted } })) ∧
    (∀ a b h rest line, s.predictedNext = some ((a, b, h), rest) → a ≤ now → Leads (.anchor t b line) s (fun u =>
      u.line.anchor = some (a, b) ∧ u.line.zcOut = b ∧ u.line.half = h ∧ u.line.predicted = rest ∧ u.line.freeRun = false ∧
      u = { v with line := u.line })) ∧
    (∀ a b line, s.predictedNext = none → s.line.anchor = some (a, b) → a + s.line.half.floor.toNat ≤ now → Leads (.anchor t (!b) line) s (fun u =>
      u.line.anchor = some (a + s.line.half.floor.toNat, !b) ∧ u.line.zcOut = !b ∧ u.line.half = s.line.half ∧ u.line.freeRun = true ∧
      u.line.validRun = 0 ∧ u = { v with line := u.line })) ∧
    (s.line.freeRun = true → s.line.defaultOnly = false → s.line.freeSince + 2 * secTicks ≤ now → Leads (.freeRunTimeout t) s (fun u => u.line.defaultOnly = true)) ∧
    (s.line.defaultOnly = true → 10 ≤ s.line.validRun → Leads (.anchorResume t) s (fun u => u.line.defaultOnly = false)) ∧
    (∀ f, s.line.queue.find? (fun f => !f.isMap) = some f → v.line.config.mode = 1 → v.mayTransmit = true → v.dueMap = none →
      v.startOf f = some now → s.mesh.flights = [] →
      (s.line.receiving = false → Leads (.frameTransmit t) s (fun u => (∃ x, u.line.flight = some x ∧ x.frame = f ∧ x.startAt = now) ∧ u.line.queue = s.line.queue.erase f)) ∧
      (s.line.receiving = true → Leads (.frameTransmit t) s (fun u => u.line.flight = none ∧ u.line.queue = s.line.queue))) ∧
    (∀ f, v.dueMap = some f → v.line.config.mode = 1 → v.mayTransmit = true → v.startOf f = some now → s.line.receiving = false →
      s.mesh.flights = [] → Leads (.mapFrameSend t) s (fun u => (∃ x, u.line.flight = some x ∧ x.frame = f ∧ x.startAt = now) ∧ u.line.queue = s.line.queue.erase f)) ∧
    (∀ x, s.line.flight = some x → s.line.next = none → s.mesh.flights = [] →
      (x.endAt ≤ now → x.fixed = [] → x.symbols = [] → Leads (.frameSent t) s (fun u => u.line.flight = none ∧ u.line.queue = s.line.queue ∧
        (s.line.counters.length = 13 → nth u.line.counters 0 = sat 32 (nth s.line.counters 0 + 1)))) ∧
      (now < x.endAt ∨ x.fixed ≠ [] ∨ x.symbols ≠ [] → exec (.frameSent t) s = .next u₀)) ∧
    (s.line.protection = false → Leads (.driverProtection t) s (fun u => u.line.protection = true ∧ u.line.flight = none)) ∧
    (s.line.protection = true → Leads (.driverProtectionClear t) s (fun u => u.line.protection = false ∧ u.line.holdUntil = now + secTicks)) ∧
    (v.line.config.mode = 1 → s.line.flight = none → Leads (.delimiterDetected t) s (fun u =>
      u = { v with line := { v.line.occupied false (now - v.spanOf 0 32) with receiving := true } })) ∧
    (∀ f n data, let h := (v.meets f).judgeBefore f.start
      let x := h.readFrame f
      let taken := fun (u : State) => u.line.receiving = false ∧ ∃ d, u.neighbour (headerSource x.header) = some d ∧ d.validAt = now ∧ d.silent = false
      v.line.sentWithin f.start (v.spanOf f.start f.slots.length) = false → v.line.config.mode = 1 → s.lineDown = false → x.delimiter = true →
      headerCrc x.header = true → headerGood x.header = true → headerLink x.header = false → s.admitted (headerSource x.header) = true →
      s.neighbour (headerSource x.header) = some n →
      h.line.config.readPayload (h.placesOf f) (s.meas.config.nominal = 1) none x = some data → frameWhole data = true →
      Leads (.frameReceived t f) s taken ∧ (headerIsMap x.header = true → Leads (.mapFrameReceived t f) s taken)) ∧
    (s.line.windowAt + 10 * secTicks ≤ now → Leads (.erasureRateWindow t) s (fun u => u.line.window = (0, 0) ∧ u.line.windowAt = now ∧
      (0 < s.line.window.1 → s.line.window.1 < 10 * s.line.window.2 → u.line.erasureRaised = true))) ∧
    (∀ bits data ok rest a b, s.line.sfskQueue = (bits, data, ok) :: rest → s.line.anchor = some (a, b) → v.line.config.mode = 2 → v.mayTransmit = true →
      ok + 5 * Config.ms ≤ a → now = a + ((v.line.config.offset : Rat) * s.line.half / 1024).floor.toNat →
      Leads (.sfskTransmit t) s (fun u => u.line.sfskQueue = rest ∧
        u.line.sfskFlight = some { tones := v.line.config.sfskTones bits data, startAt := now, endAt := now + v.bitTicks bits })) ∧
    (∀ bits data, let c := v.line.config
      c.mode = 2 → s.lineDown = false → v.line.sentWithin (now - v.bitTicks (c.syncLength + 8 * c.frameLength)) now = false →
      c.captured (decideBits (bits.map c.bitEnergies)) = some data →
      (s.line.sfsk.length < 16 → Leads (.sfskFrameReceived t bits) s (fun u => ∃ f, u.line.sfsk = s.line.sfsk ++ [f] ∧ f.data = bytesMsb data)) ∧
      (16 ≤ s.line.sfsk.length → Leads (.sfskFrameReceived t bits) s (fun u => u.line.sfsk = s.line.sfsk)))

/-- The mesh's events. A due poll becomes ready, or is skipped while its last occurrence waits (R327); a ready one starts a transaction (R327,
R328), which fails at the deadline of its last attempt (R329). Responses complete theirs (R330, R331); a route error makes a link cost 255
and asks for a pass (R318); a report replaces its reporter's links (R318). Discoveries run one at a time for at most 60 s (R322); none
starts, and no attempt leaves, while the vault cannot be reached (Table 1.2). A pass clears what asked for it (R321). A link silent for 30
min is unusable (R316). In another line mode a due poll is skipped and none becomes ready (R507). Shown to complete, under conditions on
the state and the operands alone: pollEntryDue, transactionStart, transactionDeadline, intervalDataResponse, routeError, neighbourReport,
hostResponse, discoveryStart, discoveryTimeout, routePass, linkSilence. -/
def Obligations.MeshEvents : Prop :=
  (∀ (t : Nat) (s : State), s.lineRuns = true → s.lineDown = false → s.power.warning = none → s.line.config.mode = 1 → (s.tickTo t).lineNow.mode = 1 →
    let now := max s.now t
    let u₀ := s.tickTo t
    (∀ e, s.mesh.polls = [e] → s.phase = .running → s.mesh.running = true → has e.flags 1 = true → s.admitted e.node = true → e.lastDue < e.dueBefore u₀.stampNow →
      e.offset * minTicks ≤ u₀.stampNow →
      (e.readyAt = none → s.polling e.index = false → s.offLimits e.node = false →
        Leads (.pollEntryDue t e.index) s (fun u => u.mesh.polls = [{ e with lastDue := e.dueBefore u₀.stampNow, readyAt := some (e.dueBefore u₀.stampNow) }])) ∧
      (e.readyAt.isSome = true → Leads (.pollEntryDue t e.index) s (fun u => u.mesh.polls = [{ e with lastDue := e.dueBefore u₀.stampNow }]))) ∧
    (∀ e route, s.mesh.polls = [e] → e.readyAt.isSome = true → s.mesh.flights = [] → s.mesh.reports = [] → s.phase = .running → s.mesh.running = true → 0 < s.mesh.limit →
      s.canOriginate = true → s.admitted e.node = true → s.offLimits e.node = false → s.dataQueue < 4 → (s.node e.node).bind Node.route = some route →
      Leads (.transactionStart t) s (fun u => u.mesh.polls = [{ e with readyAt := none, takenDue := e.readyAt.getD 0 }] ∧
        ∃ x, u.mesh.flights = [x] ∧ x.node = e.node ∧ x.type = e.type ∧ x.entry = some e.index ∧ x.allowed = 1 + e.retries ∧ x.attempts = if s.linkLost 7 then 0 else 1)) ∧
    (∀ x d, s.mesh.flights = [x] → x.deadline = some d →
      (d ≤ now → x.allowed ≤ x.attempts → Leads (.transactionDeadline t x.id) s (fun u => u.mesh.flights = [] ∧ ∀ y, x.op = some y → ∀ o ∈ u.host.ops, o.tag ≠ y.1)) ∧
      (now < d → exec (.transactionDeadline t x.id) s = .next u₀)) ∧
    (∀ h m, s.line.inbox = [(h, m)] →
      (∀ x, byteAt m 0 = 0x81 → s.mesh.flights = [x] → u₀.answered h 1 = some x →
        Leads (.intervalDataResponse t) s (fun u => u.line.inbox = [] ∧ u.mesh.flights = [])) ∧
      (byteAt m 0 = 0x04 → s.mesh.flights = [] → Leads (.routeError t) s (fun u => u.line.inbox = [] ∧ u.mesh.urgent = true ∧
        ∃ l ∈ u.mesh.links, l.a = netOrigin h ∧ l.b = field m 4 2 ∧ l.cost = 255)) ∧
      (byteAt m 0 = 0x82 → s.mesh.flights = [] → s.mesh.discovering = none → s.admitted (netOrigin h) = true → Leads (.neighbourReport t) s (fun u =>
        u.line.inbox = [] ∧ u.mesh.dirty = true ∧ (∀ e ∈ reportEntries m, e.1 ≠ 0 → ∃ l ∈ u.mesh.links, l.a = netOrigin h ∧ l.b = e.1 ∧ l.cost = e.2.1) ∧
        ∀ l ∈ u.mesh.links, l.a = netOrigin h → l.reported = true → ∃ e ∈ reportEntries m, e.1 = l.b)) ∧
      (∀ x tag k, byteAt m 0 = 0x83 → s.mesh.flights = [x] → u₀.answered h 3 = some x → x.op = some (tag, k) → s.admitted x.node = true →
        (s.mesh.responses.length < 16 → Leads (.hostResponse t) s (fun u => u.mesh.responses = s.mesh.responses ++ [{ tag := tag, node := x.node, data := m.drop 4 }] ∧
          u.mesh.flights = [] ∧ ∀ o ∈ u.host.ops, o.tag ≠ tag)) ∧
        (16 ≤ s.mesh.responses.length → Leads (.hostResponse t) s (fun u => u.mesh.responses = s.mesh.responses)))) ∧
    (∀ a n net, s.mesh.discovering = none → s.canOriginate = true → s.dataQueue < 4 → s.mesh.discoveries = [a] → s.node a = some n → n.nextTry ≤ now → s.sec.network = some net → s.linkLost 7 = false →
      Leads (.discoveryStart t) s (fun u => u.mesh.discovering = some (a, now, s.mesh.nextNumber) ∧ u.mesh.counter = s.mesh.counter + 1 ∧
        ∃ f, u.line.queue = s.line.queue ++ [f] ∧ f.node = 0)) ∧
    (s.linkLost 7 = true → exec (.discoveryStart t) s = .next u₀.settleLine) ∧
    (∀ a since c, s.mesh.discovering = some (a, since, c) →
      (since + 60 * secTicks ≤ now → Leads (.discoveryTimeout t) s (fun u => u.mesh.discovering = none ∧ u.line = s.line)) ∧
      (now < since + 60 * secTicks → exec (.discoveryTimeout t) s = .next u₀)) ∧
    (s.mesh.urgent = true → s.mesh.flights = [] → Leads (.routePass t) s (fun u => u.mesh.dirty = false ∧ u.mesh.urgent = false ∧ u.mesh.passAt = some now ∧
      u.mesh.nodes.map (fun n => n.address) = s.mesh.nodes.map (fun n => n.address))) ∧
    (∀ n h, s.line.neighbours.find? (fun n => n.handle = h) = some n → s.neighbour n.node = some n → n.validAt + 30 * minTicks ≤ now → n.silent = false →
      Leads (.linkSilence t h) s (fun u => u.neighbour n.node = some { n with silent := true }))) ∧
  (∀ (t : Nat) (s : State) (e : PollEntry), s.line.config.mode ≠ 1 → s.mesh.polls = [e] → s.phase = .running → s.mesh.running = true →
    has e.flags 1 = true → s.admitted e.node = true → e.lastDue < e.dueBefore (s.tickTo t).stampNow → e.offset * minTicks ≤ (s.tickTo t).stampNow →
    Leads (.pollEntryDue t e.index) s (fun u => u.mesh.polls = [{ e with lastDue := e.dueBefore (s.tickTo t).stampNow }]))

/-! ### The store and the event log -/

/-- Requests that read the store. STORE_INFO answers its record (R499). LOG_READ answers whole records in order from the sequence asked for,
as many as were asked for and fit (R393); where none is held it answers none. CAPTURE_READ of a position answers the ring's bytes from it
(R396). Nothing changes. The marks of a session on a ring (R396, R397). MARK_SET puts a mark at the position carried, the oldest, the
newest, or another mark, and answers it. MARK_CLEAR removes one. CAPTURE_READ by a mark reads from it, and moves it past the bytes read
where asked to; a mark that the writer overtook reads once from the oldest byte with MARK_LOST. No other mark, of this session or another,
changes. Shown to complete, under conditions on the state and the operands alone: storeInfo, logRead, captureRead, markSet, markClear. -/
def Obligations.StoreReadsAndMarks : Prop :=
  (∀ (t : Nat) (p : Port) (s : State) (q : Request),
      let r := Req.of p q
      let u₀ := s.taken t p
      let g := s.ringOfReq r
      let l := s.store.log.filter (fun x => r.u 0 8 ≤ x.sequence)
      let whole := fun (time : Nat) => (l.take (r.u 8 1)).map (fun x => withCrc (x.served time).bytes)
      (storeInfoRow.calls t p s q = true → ∃ rest, Ends (.storeInfo t p) s r stOk
        (le 1 s.store.state ++ zeros 3 ++ s.store.devices.flatMap Device.info ++ rest) u₀) ∧
      (logReadRow.calls t p s q = true → ∀ x more, l = x :: more → ∃ (time : Nat) (out : List (List Byte)), out <+: whole time ∧
        out.flatten.length ≤ 4084 ∧ (∀ b, (out ++ [b]) <+: whole time → 4084 < (out ++ [b]).flatten.length) ∧
        Ends (.logRead t p) s r stOk (le 8 x.sequence ++ le 1 out.length ++ zeros 1 ++ le 2 out.flatten.length ++ out.flatten)
          { u₀ with draws := s.draws + ofBool ((l.take (r.u 8 1)).any LogRecord.lost) }) ∧
      (logReadRow.calls t p s q = true → l = [] → ∃ first, Ends (.logRead t p) s r stOk (le 8 first ++ le 1 0 ++ zeros 1 ++ le 2 0)
        { u₀ with draws := s.draws + 1 }) ∧
      (captureReadRow.calls t p s q = true → r.u 0 1 = 0 →
        Ends (.captureRead t p) s r stOk (captureReply (r.u 8 8) (g.read (r.u 8 8) (r.u 4 2))) u₀)) ∧
  (∀ (t : Nat) (p : Port) (s : State) (q : Request), s.Inv →
      let r := Req.of p q
      let u₀ := s.taken t p
      let g := s.ringOfReq r
      let ring := ringOf r.handle
      let mark := fun (u : State) (a b : Nat) => (u.session r.session).markOn a b
      let others := fun (u : State) (k : Nat) => u.store = u₀.store ∧ (∀ j, j ≠ r.session → u.session j = s.session j) ∧
        ∀ a b, ¬(a = ring ∧ b = k) → mark u a b = mark s a b
      (markSetRow.calls t p s q = true →
        let pos := if r.u 1 1 = 0 then r.u 8 8 else if r.u 1 1 = 1 then g.oldest else if r.u 1 1 = 2 then g.newest
          else ((mark s ring (r.u 2 1)).map Mark.pos).getD 0
        Answers (.markSet t p) s r stOk (le 8 pos) (fun u =>
          (∃ m, mark u ring (r.u 0 1) = some m ∧ m.pos = pos ∧ (r.u 1 1 ≠ 3 → m.lost = false)) ∧ others u (r.u 0 1))) ∧
      (markClearRow.calls t p s q = true → Answers (.markClear t p) s r stOk [] (fun u =>
        mark u ring (r.u 0 1) = none ∧ others u (r.u 0 1))) ∧
      (∀ m, captureReadRow.calls t p s q = true → r.u 0 1 = 1 → mark s ring (r.u 1 1) = some m →
        let pos := if m.lost then g.oldest else m.pos
        let bytes := g.read pos (r.u 4 2)
        Answers (.captureRead t p) s r (if m.lost then stMarkLost else stOk) (captureReply pos bytes) (fun u =>
          mark u ring (r.u 1 1) = some { m with lost := false, pos := if r.u 2 1 = 1 then pos + bytes.length else pos } ∧ others u (r.u 1 1))))

/-- The event log keeps its newest records: its oldest blocks of 256 KiB are erased ahead of what is written, the records that begin in them
leave, every other stays, and what stays fits; each record extends the hash chain, and sequences count up (R391-R393; block bounds by ring
position are the model's choice, log 99). The journal's ring is erased the same way, but no record that restore may need leaves it (R389).
A checkpoint that is due joins the chain and asks for its signature (R392). STORE_FORMAT is refused while anything that writes the store
runs; accepted, it notes the layout (R386). Its end leaves no context, a journal of one settings record (R313), sequences that start at 1,
the log with one record (and event source 147 where the store was read-only), and rings of the sizes asked for; quotes keep waiting for
their signature, and the operation is complete. A failed block is retired to a spare; with the last spare gone the store becomes read-
only, and journal records on pages that cannot be corrected are gone (R385). Shown to complete, under conditions on the state and the
operands alone: logCheckpoint, storeFormat, storeFormatComplete, blockRetire. -/
def Obligations.LogKeepsNewest : Prop :=
  ((∀ (room start : Nat) (l : List LogRecord),
      let held := trimLog room start l
      let stop := start + (l.map LogRecord.size).sum
      let low := (stop + 262143) / 262144 * 262144 - room
      held.2 <:+ l ∧ held.1 + (held.2.map LogRecord.size).sum = stop ∧ (held.2.map LogRecord.size).sum ≤ room ∧
      (held.2 ≠ [] → low ≤ held.1) ∧ (∀ a b, l = a ++ b → low ≤ start + (a.map LogRecord.size).sum → b <:+ held.2)) ∧
    (∀ (s : State) (r x : JournalRecord), s.storeWrites = true →
      let r' := { r with sequence := s.store.nextJournal }
      let s' : State := { s with store := { s.store with journal := s.store.journal ++ [r'], nextJournal := s.store.nextJournal + 1 } }
      let u := s.journalAdd r
      u.store.journal <:+ s'.store.journal ∧ u.store.nextJournal = s.store.nextJournal + 1 ∧
      (x ∈ s'.store.journal → s'.needs x = true → x ∈ u.store.journal)) ∧
    (∀ (s : State) (kind time : Nat) (body : List Byte), s.storeWrites = true →
      28 + body.length + 262144 ≤ s.store.boot.layout.getD 0 0 * 4194304 →
      let u := s.logAppend kind time body
      let x : LogRecord := { sequence := s.store.nextLog, time := time, kind := kind, body := body }
      u.store.log.getLast? = some x ∧ u.store.chain = sha512 (s.store.chain ++ x.bytes) ∧ u.store.nextLog = s.store.nextLog + 1) ∧
    (∀ (t : Nat) (s : State), s.storeWrites = true → s.power.commit = none → s.sec.identity = true → s.sec.signing.length < 256 →
      s.sec.backlog = [] →
      1 ≤ s.store.boot.layout.getD 0 0 → s.store.lastCheckpoint + 4096 < s.store.nextLog →
      Leads (.logCheckpoint t) s (fun u =>
        (∃ x, u.store.log.getLast? = some x ∧ x.sequence = s.store.nextLog ∧ x.kind = 0x0101 ∧ x.body.length = 600) ∧
        u.store.lastCheckpoint = s.store.nextLog ∧ u.store.nextLog = s.store.nextLog + 1 ∧ u.store.uncovered = none ∧
        u.sec.signing = s.sec.signing ++ [.checkpoint s.store.nextLog] ∧ u.store.journal = s.store.journal))) ∧
  ((∀ (t : Nat) (p : Port) (s : State) (q : Request), storeFormatRow.calls t p s q = true →
      let r := Req.of p q
      let u₀ := s.taken t p
      (s.storeBusy = true → Ends (.storeFormat t p) s r stWrongState [] u₀) ∧
      (s.storeBusy = false → s.opRoom r.session = true → Answers (.storeFormat t p) s r stAccepted (le 2 s.host.nextTag) (fun u =>
        u.store = { u₀.store with formatting := some (s.host.nextTag, r.session, r.layout) } ∧ u.bill = u₀.bill))) ∧
    (∀ (t tag session : Nat) (layout : List Nat) (s : State), s.store.formatting = some (tag, session, layout) → s.firmware = true →
      1 ≤ layout.getD 0 0 → Leads (.storeFormatComplete t) s (fun u =>
        u.bill.live = [] ∧ u.store.journal.map (fun x => (x.sequence, x.type)) = [(1, 7)] ∧ u.store.nextSerial = 1 ∧ u.store.nextJournal = 2 ∧
        u.store.state = 1 ∧ u.store.formatting = none ∧ u.sec.signing = s.sec.signing.filter (fun j => !j.isRecord) ∧
        (s.store.state ≠ 2 → u.store.nextLog = 2 ∧ u.store.log.map (fun x => (x.sequence, x.kind)) = [(1, 0x0102)]) ∧
        (s.store.state = 2 → u.store.nextLog = 3 ∧ u.store.log.map (fun x => (x.sequence, x.kind)) = [(1, 0x0102), (2, 147)]) ∧
        u.store.rings.map Ring.size = (List.range 8).map (fun k => layout.getD (k + 1) 0) ∧ (∀ x ∈ u.host.sessions, x.marks = []) ∧
        u.mesh.nodes = [] ∧ u.cal.slots = [none, none] ∧ (∀ o ∈ u.host.ops, o.tag ≠ tag))) ∧
    (∀ (t device : Nat) (lost : List LostPage) (s : State), device < 2 → device < s.store.devices.length → s.firmware = true →
      (nth s.store.devices device).present = true →
      let journal := s.store.journal.filter (fun r => !lost.contains (.journal r.sequence))
      ((nth s.store.devices device).spare = 0 → s.store.state = 1 → Leads (.blockRetire t device lost) s (fun u =>
        u.store.state = 2 ∧ u.sec.update = none ∧ u.store.devices = s.store.devices ∧ u.store.journal = journal)) ∧
      (0 < (nth s.store.devices device).spare → Leads (.blockRetire t device lost) s (fun u =>
        nth u.store.devices device = { nth s.store.devices device with
          retired := sat 16 ((nth s.store.devices device).retired + 1), spare := (nth s.store.devices device).spare - 1 } ∧
        u.store.state = (if (nth s.store.devices device).spare = 1 ∧ s.store.state = 1 then 2 else s.store.state) ∧
        u.store.journal = journal ∧ u.store.pool = s.store.pool ∧
        u.store.rings.map (fun g => g.records.map RingRecord.position) = s.store.rings.map (fun g => g.records.map RingRecord.position) ∧
        (lost = [] → u.store.rings = s.store.rings)))))

/-! ### Security and firmware -/

/-- ATTEST (R421). A quote needs an identity key and a free place: it is accepted, its 256 bytes are formed, and its signature is queued. A
signed quote is fetched once; an unsigned one is WRONG_STATE. The certificate is answered as provisioned. The signature, made by the
identity key that crossed the link into engine slot 0 (R402, R403) with a fresh salt, completes the operation, and the slot is cleared;
while the vault cannot be reached none comes (R404). Shown to complete, under conditions on the state and the operands alone: attestQuote,
attestFetch, attestPublicKey, attestCertificate, signatureComplete. -/
def Obligations.QuotesAreSigned : Prop :=
  (∀ (t : Nat) (p : Port) (s : State) (q : Request),
    let r := Req.of p q
    let k := r.session
    let u₀ := s.taken t p
    let nonce := (r.payload.drop 4).take (r.u 1 1)
    (u₀.quoteBytes nonce).length = 256 ∧
    (attestQuoteRow.calls t p s q = true →
      ((s.session k).quote.isSome = true → Ends (.attestQuote t p) s r stBusy [] u₀) ∧
      ((s.session k).quote = none → s.sec.identity = false → Ends (.attestQuote t p) s r stDenied [] u₀) ∧
      ((s.session k).quote = none → s.sec.identity = true → s.opRoom k = true → s.sec.signing.length < 256 → s.sec.backlog = [] → s.Inv →
        Answers (.attestQuote t p) s r stAccepted (le 2 s.host.nextTag) (fun u =>
          (u.session k).quote = some { tag := s.host.nextTag, bytes := u₀.quoteBytes nonce } ∧
          u.sec = { u₀.sec with
            signing := s.sec.signing ++ [.quote k s.host.nextTag]
            engine := if u₀.canSign then alter s.sec.engine 0 (fun _ => s.identityAcross) else s.sec.engine } ∧ ∀ j, j ≠ k → u.session j = s.session j))) ∧
    (∀ x, attestFetchRow.calls t p s q = true → (s.session k).quote = some x →
      (x.signed = true → s.Inv → Answers (.attestFetch t p) s r stOk x.bytes (fun u =>
        (u.session k).quote = none ∧ (∀ j, j ≠ k → u.session j = s.session j) ∧ u.sec = u₀.sec)) ∧
      (x.signed = false → Ends (.attestFetch t p) s r stWrongState [] u₀)) ∧
    (attestPublicKeyRow.calls t p s q = true → Ends (.attestPublicKey t p) s r stOk
      (le 2 1 ++ zeros 2 ++ le 16 Config.partId ++ le 4 (if s.sec.identity then 65537 else 0) ++
        (if s.sec.identity then be 512 (Config.rsaModulus s.sec.identityDraw) else zeros 512)) u₀) ∧
    (attestCertificateRow.calls t p s q = true →
      (s.store.boot.certificate = [] → Ends (.attestCertificate t p) s r stWrongState [] u₀) ∧
      (s.store.boot.certificate ≠ [] → Ends (.attestCertificate t p) s r stOk s.store.boot.certificate u₀))) ∧
  (∀ (t k tag : Nat) (rest : List SignJob) (x : Quote) (s : State), s.firmware = true → s.sec.identity = true → s.sec.stopped = false →
    s.linkLost 7 = false → s.sec.signing = .quote k tag :: rest → s.sec.backlog = [] → k < 8 → s.Inv → (s.session k).quote = some x → x.tag = tag →
    s.sec.engine.length = 16 →
    Leads (.signatureComplete t) s (fun u => u.sec.signing = rest ∧ (∀ o ∈ u.host.ops, o.tag ≠ tag) ∧ (rest = [] → nth u.sec.engine 0 = none) ∧
      ∃ y, (u.session k).quote = some y ∧ y.signed = true ∧
        y.bytes = x.bytes ++ fit 512 (match s.identityAcross with
          | some key => rsaSign (beNat (key.take 512)) (beNat (key.drop 512)) (le 64 (Config.random s.draws)) x.bytes
          | none => []))) ∧
  (∀ (t : Nat) (s : State), s.canSign = false → exec (.signatureComplete t) s = .next (s.tickTo t))

/-- The course of an update (R417-R419). FW_BEGIN erases the slot that is not active; its end lets data in. FW_DATA must continue where the
update stands, within its length. FW_END starts the verification, and with RETRY that of a valid slot again. An image that passes every
check becomes the pending trial; one that fails leaves the boot table. The update is closed either way, and event source 176's operation
is complete. Shown to complete, under conditions on the state and the operands alone: fwBegin, fwData, fwEnd, fwEndRetry, fwBeginComplete,
fwEndComplete. -/
def Obligations.UpdatesRun : Prop :=
  (∀ (t : Nat) (p : Port) (s : State) (q : Request),
    let r := Req.of p q
    let u₀ := s.taken t p
    let tag := s.host.nextTag
    (fwBeginRow.calls t p s q = true →
      (s.store.boot.trialState ≠ 0 → Ends (.fwBegin t p) s r stWrongState [] u₀) ∧
      (s.store.boot.trialState = 0 → s.sec.update.isSome = true → Ends (.fwBegin t p) s r stBusy [] u₀) ∧
      (s.store.boot.trialState = 0 → s.sec.update = none → s.sec.ending = none → s.sec.lifecycle ≠ 4 → s.opRoom r.session = true →
        s.store.boot.slots.length = 2 → Answers (.fwBegin t p) s r stAccepted (le 2 tag) (fun u =>
          u.slot s.spareSlot = {} ∧ u.slot (1 - s.spareSlot) = s.slot (1 - s.spareSlot) ∧ u.store.boot.active = s.store.boot.active ∧
          u.sec.update = some { session := r.session, length := r.u 0 4, slot := s.spareSlot, tag := tag }))) ∧
    (fwDataRow.calls t p s q = true →
      (s.sec.update = none → Ends (.fwData t p) s r stWrongState [] u₀) ∧
      (∀ x, s.sec.update = some x → x.data.length < 65536 →
        (x.fits r = false → Ends (.fwData t p) s r stBadParam [] u₀) ∧
        (x.fits r = true → s.sec.ending = none → x.erased = false → Ends (.fwData t p) s r stBusy [] u₀) ∧
        (x.fits r = true → s.sec.ending = none → x.erased = true →
          Ends (.fwData t p) s r stOk (le 4 (x.data.length + (r.payload.drop 4).length))
            { u₀ with sec := { u₀.sec with update := some { x with data := x.data ++ r.payload.drop 4 } } }))) ∧
    (fwEndRow.calls t p s q = true →
      (s.sec.update = none → Ends (.fwEnd t p) s r stWrongState [] u₀) ∧
      (∀ x, s.sec.update = some x → s.sec.ending = none → s.opRoom r.session = true →
        Answers (.fwEnd t p) s r stAccepted (le 2 tag) (fun u =>
          u.sec = { u₀.sec with ending := some (tag, r.session, x.slot, bit (r.u 0 1) 0, false) } ∧ u.store = u₀.store))) ∧
    (fwEndRetryRow.calls t p s q = true → s.sec.update = none → s.sec.ending = none →
      ((s.slot s.spareSlot).state ≠ 1 → Ends (.fwEndRetry t p) s r stWrongState [] u₀) ∧
      ((s.slot s.spareSlot).state = 1 → s.opRoom r.session = true → Answers (.fwEndRetry t p) s r stAccepted (le 2 tag) (fun u =>
        u.sec = { u₀.sec with ending := some (tag, r.session, s.spareSlot, bit (r.u 0 1) 0, true) } ∧ u.store = u₀.store)))) ∧
  (∀ (t : Nat) (s : State) (o : LongOp), s.host.ops.find? (fun o => o.opcode = 0x0B02) = some o → Leads (.fwBeginComplete t) s (fun u =>
    u.sec = { s.sec with update := s.sec.update.map (fun (x : Update) => { x with erased := true }) } ∧ (∀ x ∈ u.host.ops, x.tag ≠ o.tag))) ∧
  (∀ (t tag session slot : Nat) (x : Update) (s : State), s.phase ≠ .held → s.phase ≠ .gatehouse →
    s.sec.ending = some (tag, session, slot, false, false) → s.sec.update = some x → slot < s.store.boot.slots.length →
    let pass := imageStatus x.data s.sec.counter s.sec.revoked = stOk
    Leads (.fwEndComplete t) s (fun u => u.sec.ending = none ∧ u.sec.update = none ∧ (∀ o ∈ u.host.ops, o.tag ≠ tag) ∧
      (pass → u.store.boot.trial = slot ∧ u.store.boot.trialState = 1 ∧ u.slot slot = describe x.data ∧
        u.store.boot.active = s.store.boot.active ∧ u.store.boot.sequence = s.store.boot.sequence + 1) ∧
      (¬pass → u.store.boot = s.store.boot)))

/-- The anti-rollback counter and the lifecycle state never go back, whatever command runs (R406, R415), in every state in which a transition
under way leads forward and a confirmation of which writing may yet be cut (R425) found no higher counter than the one now held: every
step leaves such a state, leaves the lifecycle state at least as high, and the counter too, but for the one step in which a power-on reset
cuts the confirmation between its steps 1 and 2: the counter is then what the confirmation found. What no power loss can take back never
falls. -/
def Obligations.SecurityGoesForward : Prop :=
  let found := fun (x : State) => ((x.store.bootWrite.bind BootWrite.confirms).map Prod.fst).getD x.sec.counter
  let forward := fun (x : State) => (∀ y, x.sec.transition = some y → x.sec.lifecycle ≤ y.2) ∧ found x ≤ x.sec.counter
  ∀ s u : State, forward s → step s = .next u →
    forward u ∧ s.sec.lifecycle ≤ u.sec.lifecycle ∧ found s ≤ found u ∧
    (s.sec.counter ≤ u.sec.counter ∨
      ∃ t lost rest, s.pending = .powerOnReset t lost :: rest ∧ u.sec.counter = found s ∧
        s.store.bootWrite.any (fun w => w.confirms.isSome && max s.now t ≤ w.at_ + Config.bootWriteTicks) = true)

/-- Lifecycle and keys (R408, R409, R415, R420, R422). LIFECYCLE_ADVANCE accepts the transitions of R408 only; the transition programs its
state, makes or erases the keys of its state, empties the store but for its settings record, closes the debug port, and resets the part.
KEY_PROVISION takes each item in its states, and a network key, in both its copies, restarts every frame counter at 0 (R313). A trial that
ran 60 s becomes active, and the counter rises to its version. The debug port opens in RETURNED for a valid signature of the debug key
over the challenge it presented; every attempt draws the next challenge and raises event source 182, and the third failure closes the port
until a power-on reset. Shown to complete, under conditions on the state and the operands alone: lifecycleAdvance,
keyProvisionTransportKey, keyProvisionNetworkKey, keyProvisionCertificate, lifecycleTransition, trialConfirmation, debugAuthentication. -/
def Obligations.LifecycleAndKeys : Prop :=
  (∀ (t : Nat) (p : Port) (s : State) (q : Request),
    let r := Req.of p q
    let u₀ := s.taken t p
    let l := s.sec.lifecycle
    (lifecycleAdvanceRow.calls t p s q = true → r.u 2 2 = 0xC33C → 1 ≤ r.u 0 1 → r.u 0 1 ≤ 4 → r.zero 1 1 = true →
      (r.u 4 4 ≠ partTag → Ends (.lifecycleAdvance t p) s r stDenied [] u₀) ∧
      (r.u 4 4 = partTag → transitionAllowed l (r.u 0 1) = false → Ends (.lifecycleAdvance t p) s r stDenied [] u₀) ∧
      (r.u 4 4 = partTag → transitionAllowed l (r.u 0 1) = true → s.storeBusy = false → s.sec.update = none → s.sec.ending = none →
        s.store.boot.trialState = 0 → s.store.state ≠ 2 → s.opRoom r.session = true →
        Answers (.lifecycleAdvance t p) s r stAccepted (le 2 s.host.nextTag) (fun u =>
          u.sec = { u₀.sec with transition := some (l, r.u 0 1) } ∧ u.store = u₀.store))) ∧
    (keyProvisionTransportKeyRow.calls t p s q = true →
      (l ≠ 1 → Ends (.keyProvisionTransportKey t p) s r stDenied [] u₀) ∧
      (l = 1 → s.sec.transportSet = true → Ends (.keyProvisionTransportKey t p) s r stWrongState [] u₀) ∧
      (l = 1 → s.sec.transportSet = false → Answers (.keyProvisionTransportKey t p) s r stOk (zeros 4) (fun u =>
        u.sec = { u₀.sec with transport := some (r.payload.drop 4), transportSet := true }))) ∧
    (∀ key, keyProvisionNetworkKeyRow.calls t p s q = true → s.sec.transport = some key → (l = 1 ∨ l = 2) → s.sec.network = none →
      match aesUnwrap key (r.payload.drop 4) with
      | some k => Answers (.keyProvisionNetworkKey t p) s r stOk (fit 3 (keyCheck k) ++ zeros 1) (fun u =>
          u.sec.network = some k ∧ u.sec.networkCopy = some k ∧ u.mesh.counter = 0 ∧ (∀ n ∈ u.mesh.nodes, n.counter = some 0))
      | none => Ends (.keyProvisionNetworkKey t p) s r stDenied [] u₀) ∧
    (keyProvisionCertificateRow.calls t p s q = true →
      (l ≠ 1 → Ends (.keyProvisionCertificate t p) s r stDenied [] u₀) ∧
      (l = 1 → Answers (.keyProvisionCertificate t p) s r stOk (zeros 4) (fun u =>
        u.store.boot.certificate = r.payload.drop 4 ∧ u.store.boot.slots = s.store.boot.slots ∧ u.sec = u₀.sec)))) ∧
  (∀ (t old new : Nat) (s : State), s.sec.transition = some (old, new) → Leads (.lifecycleTransition t) s (fun u =>
    u.phase = .held ∧ u.sec.lifecycle = new ∧ u.sec.advanced = some (old, new) ∧ u.power.cause = 6 ∧
    (s.firmware = true → u.store.journal.map JournalRecord.type = [7]) ∧ u.sec.counter = s.sec.counter ∧
    (new = 1 → u.sec.identity = true ∧ u.sec.identityDraw = s.draws ∧ u.sec.transportSet = false) ∧
    (3 ≤ new → u.sec.identity = false ∧ u.sec.transport = none ∧ u.sec.network = none ∧ u.sec.networkCopy = none ∧ u.store.boot.certificate = []) ∧
    (new = 4 → u.sec.rootErased = true) ∧ u.store.boot.slots = s.store.boot.slots ∧ u.gate.totals = List.replicate 6 0 ∧
    u.gate.totalsCopy = List.replicate 6 0 ∧ u.gate.episodes = 0 ∧ u.sec.debugOpen = false ∧ (s.sec.debugOpen = true ∨ old = 0 → u.sec.debugClosed = true))) ∧
  (∀ (t a : Nat) (s : State), s.phase = .running → s.store.boot.trialState = 2 → s.power.notBooted = none → s.store.state = 1 → s.sec.trialFrom = some a →
    (a + 960000000 ≤ max s.now t → Leads (.trialConfirmation t) s (fun u =>
      u.store.boot.active = s.store.boot.trial ∧ u.store.boot.trialState = 0 ∧
      u.sec.counter = max s.sec.counter (s.slot s.store.boot.trial).version ∧ u.store.boot.slots = s.store.boot.slots)) ∧
    (max s.now t < a + 960000000 → exec (.trialConfirmation t) s = .next (s.tickTo t))) ∧
  (∀ (t : Nat) (signature : List Byte) (s : State), s.sec.lifecycle = 3 → s.phase ≠ .held → s.sec.debugOpen = false →
    let v : State := { s.tickTo t with draws := s.draws + 1, sec := { s.sec with debugChallenge := s.draws } }
    let told := fun (x : State) (action : Nat) => x.raise 182 x.stampNow (objBody 0 (le 1 action))
    (s.sec.debugFailures < 3 → exec (.debugAuthentication t signature) s = .next
      (if rsaVerify Config.debugModulus 65537 (le 32 (Config.random s.sec.debugChallenge) ++ le 16 Config.partId) signature then
        told { v with sec := { v.sec with debugOpen := true } } 0
      else
        let w := told { v with sec := { v.sec with debugFailures := s.sec.debugFailures + 1 } } 2
        if s.sec.debugFailures = 2 then told w 1 else w)) ∧
    (3 ≤ s.sec.debugFailures → exec (.debugAuthentication t signature) s = .next (s.tickTo t)))

/-! ### Health and repair -/

/-- HEALTH_READ and REPAIR_LOG answer their records and change nothing (R355, R502). CHECKER_CONFIG keeps its settings for the next dwell, or
sets a die's skip mask at once (R356). FORCE_SUBSTITUTE substitutes a channel on the one free lane or on the lane that bridges it,
substitutes a die as a test, and releases a channel; with the belvedere out it is DEGRADED (R357). Shown to complete, under conditions on
the state and the operands alone: healthRead, repairLog, checkerConfig, checkerConfigSkipMask, forceSubstituteRelease,
forceSubstituteChannel, forceSubstituteDie. -/
def Obligations.HealthRequests : Prop :=
  ∀ (t : Nat) (p : Port) (s : State) (q : Request),
    let r := Req.of p q
    let n := unitOf r.handle
    let d := dieOfUnit n
    let u₀ := s.taken t p
    let l := ((s.health.log.reverse).filter (fun e => r.u 0 4 ≤ e.sequence)).take (r.u 4 1)
    (healthReadRow.calls t p s q = true → Ends (.healthRead t p) s r stOk (u₀.healthBytes r.handle) u₀) ∧
    (repairLogRow.calls t p s q = true →
      (∀ e more, l = e :: more → Ends (.repairLog t p) s r stOk (le 4 e.sequence ++ le 1 l.length ++ zeros 3 ++ l.flatMap HealthEntry.bytes) u₀) ∧
      (l = [] → ∃ first, Ends (.repairLog t p) s r stOk (le 4 first ++ le 1 0 ++ zeros 3) { u₀ with draws := s.draws + 1 })) ∧
    (checkerConfigRow.calls t p s q = true → Ends (.checkerConfig t p) s r stOk []
      { u₀ with health := { u₀.health with nextConfig := some (r.u 0 1 = 1, r.u 2 2, r.u 4 2, r.u 6 2, r.f32 8) } }) ∧
    (checkerConfigSkipMaskRow.calls t p s q = true → s.Inv → hDie r.handle < 8 → Answers (.checkerConfigSkipMask t p) s r stOk [] (fun u =>
      u.die (hDie r.handle) = { u₀.die (hDie r.handle) with skip := r.u 0 1 } ∧ (∀ k, k ≠ hDie r.handle → u.die k = u₀.die k) ∧
      u = { u₀ with dies := u.dies })) ∧
    (forceReleaseRow.calls t p s q = true →
      ((s.health.substituted.contains n || s.testedDie n) = false → Ends (.forceSubstituteRelease t p) s r stWrongState [] u₀) ∧
      (s.health.substituted.contains n = true → s.homeFailed n = false → Answers (.forceSubstituteRelease t p) s r stOk [] (fun u =>
        u.health.substituted.contains n = false))) ∧
    (forceChannelRow.calls t p s q = true →
      (s.isSubstituted n = true → Ends (.forceSubstituteChannel t p) s r stOk [] u₀) ∧
      (s.isSubstituted n = false → s.bridging n = none → s.belvedereUp = false → Ends (.forceSubstituteChannel t p) s r stDegraded [] u₀) ∧
      (s.isSubstituted n = false → s.bridging n = none → s.belvedereUp = true → s.lanesFor 2 = [] →
        Ends (.forceSubstituteChannel t p) s r stNoResource [] u₀) ∧
      (∀ k, s.isSubstituted n = false → s.bridging n = none → s.freeLanes = [k] → s.Inv → n < 24 →
        Answers (.forceSubstituteChannel t p) s r stOk [] (fun u => u.health.substituted.contains n = true ∧
          (u.conv (24 + k)).job = some { prec := 2, channel := n } ∧ (u.conv (24 + k)).selects = some n ∧
          ((s.chan n).carrier = .home → (u.chan n).carrier = .home))) ∧
      (∀ k, s.isSubstituted n = false → s.bridging n = some k → s.Inv → n < 24 →
        Answers (.forceSubstituteChannel t p) s r stOk [] (fun u => u.health.substituted.contains n = true ∧
          (u.conv (24 + k)).job = some { prec := 2, channel := n } ∧ u.channels = s.channels))) ∧
    (forceDieRow.calls t p s q = true →
      (s.belvedereUp = false → Ends (.forceSubstituteDie t p) s r stDegraded [] u₀) ∧
      (s.belvedereUp = true → (s.health.substituting.isSome = true ∨ ∀ k < 6, (s.conv (24 + k)).inService = false) → Ends (.forceSubstituteDie t p) s r stNoResource [] u₀) ∧
      (s.belvedereUp = true → s.health.substituting = none → (∃ k, k < 6 ∧ (s.conv (24 + k)).inService = true) → s.Inv → 1 ≤ d → d ≤ 4 → s.dieDown d = false →
        Answers (.forceSubstituteDie t p) s r stOk [] (fun u => u.health.substituting = some d ∧ u.health.settling = true ∧
          (u.die d).state = 2 ∧ (u.die d).forced = true)))

/-- Errors of memories and processors (R335-R338, R17). SCRUB counts corrected words; an uncorrectable error is counted for its die and
repaired at its place: a modem slot is discarded, with its maps. A mismatch of a pair or a fault of the DSP restarts it and counts; a DSP
fault that no cross-check of a dwell can have found is an uncorrectable error of its memories, which is counted (R338). A checkpoint
changes nothing that can be seen. Without firmware no repair is made. Shown to complete, under conditions on the state and the operands
alone: scrub, uncorrectableError, lockstepMismatch, dspFault, processorCheckpoint, processorCheckpoint. -/
def Obligations.ErrorsAreRepaired : Prop :=
  ∀ (t : Nat) (s : State), s.Inv →
    (∀ die region n, die < 8 → (0 < n → Leads (.scrub t die region n) s (fun u =>
        (u.die die).corrected = sat 32 ((s.die die).corrected + n) ∧ (∀ k, k ≠ die → u.die k = s.die k) ∧ u.channels = s.channels)) ∧
      exec (.scrub t die region 0) s = .next (s.tickTo t)) ∧
    (s.firmware = true →
      Leads (.uncorrectableError t .gatehouseTotals) s (fun u =>
        (u.die 7).uncorrectable = sat 32 ((s.die 7).uncorrectable + 1) ∧ u.gate.totals = s.gate.totals) ∧
      (∀ h, (MemWhere.modemSlot h).exists = true → Leads (.uncorrectableError t (.modemSlot h)) s (fun u =>
        (u.die 6).uncorrectable = sat 32 ((s.die 6).uncorrectable + 1) ∧
        u.line.neighbours = s.line.neighbours.filter (fun n => n.slot ≠ h - 0xC000))) ∧
      (∀ k, (MemWhere.contextSection k).exists = true → s.bill.live.any (fun c => c.slot = k) = true →
        Leads (.uncorrectableError t (.contextSection k)) s (fun u =>
          (u.die 0).uncorrectable = sat 32 ((s.die 0).uncorrectable + 1) ∧ u.bill = s.bill)) ∧
      (∀ k, k < 24 → (s.chan k).carrier = .home → (s.chan k).interrupted = false → s.converts k = true → s.freeLanes = [] → s.health.bridges = [] →
        Leads (.uncorrectableError t (.filterState k)) s (fun u =>
          (u.die (dieOfUnit k)).uncorrectable = sat 32 ((s.die (dieOfUnit k)).uncorrectable + 1) ∧ s.narrowAt k (max s.now t) < (u.conv k).narrowFrom)) ∧
      (∀ pair, pair < 2 → s.health.restarts.length = 3 → (s.phase = .running → pair = 1 ∨ s.meas.queue = []) →
        Leads (.lockstepMismatch t pair) s (fun u =>
          nth u.health.restarts pair = sat 32 (nth s.health.restarts pair + 1) ∧ (pair, max s.now t) ∈ u.health.recent ∧
          u.channels = s.channels ∧ u.host.owner = s.host.owner ∧ u.bill.live = s.bill.live))) ∧
    (s.firmware = false → ∀ place, place.exists = true → exec (.uncorrectableError t place) s = .next (s.tickTo t)) ∧
    (s.phase = .ready ∨ s.phase = .running → s.health.restarts.length = 3 → Leads (.dspFault t) s (fun u =>
      nth u.health.restarts 2 = sat 32 (nth s.health.restarts 2 + 1) ∧ u.meas = s.meas ∧ u.bill = s.bill ∧
      (s.crossChecks = false → (u.die 0).uncorrectable = sat 32 ((s.die 0).uncorrectable + 1)) ∧
      ((u.die 0).uncorrectable = (s.die 0).uncorrectable ∨ (u.die 0).uncorrectable = sat 32 ((s.die 0).uncorrectable + 1)))) ∧
    exec (.processorCheckpoint t) s = .next (s.tickTo t)

/-- Lanes check and carry channels (R341, R347, R348). Once its lane's streams are valid, from the first instant on that the home does not
deliver any more, a bridged channel is handed to the lane (R149), and back once its home has settled. A dwell of 10 cycles or more keeps
its results, and a mismatch makes the channel suspect; a shorter one does not count. A confirming dwell without a mismatch clears it and
counts a transient; a mismatch the other lane does not share takes the first lane out of service; a shared one is a confirmed fault of the
channel, which is substituted while a lane is free. Dies fail, are substituted, and return (R349, R350, R353). A die A0-A3 that fails is
tried again 60 s later, and the belvedere, if it can, substitutes for it; the substitution completes with the lanes' streams. A try whose
self-test passes opens a probation of 10 s, after which the die takes its channels back if each agrees with its lane, and is failed again
if one does not; a try that fails waits 60 s more. Each try uses one of the five. Shown to complete, under conditions on the state and the
operands alone: bridgeHandover, bridgeHandback, checkerDwellEnd, confirmingDwellEnd, dieFailure, substitutionComplete, dieReturnTry,
dieReturn. -/
def Obligations.LanesAndDies : Prop :=
  (∀ (t n k : Nat) (s : State), s.Inv → n < 24 → k < 6 →
      (∀ b kind, s.health.bridges.find? (fun x => x.1 = n && x.2.2 ≠ 1) = some (n, b, kind) → s.laneFor n = some k →
        (if (s.tickTo t).homeStops n kind then (s.tickTo t).canTakeOver (24 + k) else (s.tickTo t).streamsValid (24 + k)) = true → Leads (.bridgeHandover t n) s (fun u => (u.chan n).carrier = .lane k ∧ (u.chan n).lost = false)) ∧
      (∀ b, s.health.bridges.find? (fun x => x.1 = n && x.2.2 = 1) = some (n, b, 1) → s.laneOf n 3 = some k →
        (s.tickTo t).streamsValid n = true → Leads (.bridgeHandback t n) s (fun u => (u.chan n).carrier = .home ∧ (u.chan n).lost = false)) ∧
      (∀ since, s.health.dwelling = some (n, k, since) → since + s.dwellTicks ≤ max s.now t →
        let r := (s.chan n).compared
        (10 ≤ r.cycles → Leads (.checkerDwellEnd t) s (fun u =>
          (u.chan n).dwell = (toF32 (quotient 9 ((r.laneRms : Rat) - (r.homeRms : Rat)) (r.homeRms : Rat)), toF32 r.rhoDefect, toF32 ((s.tickTo t).dwellDelay n)) ∧
          (u.chan n).suspect = ((s.tickTo t).mismatch n || (s.chan n).suspect))) ∧
        (r.cycles < 10 → Leads (.checkerDwellEnd t) s (fun u => (u.chan n).dwell = (s.chan n).dwell ∧ (u.chan n).suspect = (s.chan n).suspect))) ∧
      (∀ first since (agree : Bool), s.health.confirming = some (n, first, k, since) → since + s.dwellTicks ≤ max s.now t →
        10 ≤ (s.chan n).compared.cycles → first < 6 →
        ((s.tickTo t).mismatch n = false → Leads (.confirmingDwellEnd t agree) s (fun u =>
          (u.chan n).suspect = false ∧ u.health.transients = sat 32 (s.health.transients + 1))) ∧
        ((s.tickTo t).mismatch n = true → agree = false → Leads (.confirmingDwellEnd t agree) s (fun u => (u.conv (24 + first)).inService = false)) ∧
        ((s.tickTo t).mismatch n = true → agree = true → Leads (.confirmingDwellEnd t agree) s (fun u =>
          (u.chan n).faulty = true ∧ (s.freeLanes ≠ [] → u.health.substituted.contains n = true))))) ∧
  (∀ (t d : Nat) (s : State), s.Inv → 1 ≤ d → d ≤ 4 →
      (∀ cause, (s.phase = .ready ∨ s.phase = .running) → (s.die d).state ≠ 1 → s.dieCause d cause = true →
        Leads (.dieFailure t d cause) s (fun u => (u.die d).state = 1 ∧ (u.die d).tryAt = max s.now t + 960000000 ∧
          (s.belvedereUp = true → s.health.substituting = none → u.health.substituting = some d))) ∧
      (s.health.substituting = some d → s.health.settling = true → (s.tickTo t).lanesValid = true → Leads (.substitutionComplete t) s (fun u =>
        u.health.substituting = some d ∧ u.health.settling = false ∧ u.channels = s.channels ∧ u.converters = s.converters)) ∧
      ((s.die d).state = 1 → 0 < (s.die d).retries → (s.die d).tryAt ≤ max s.now t → s.linkLost d = false →
        Leads (.dieReturnTry t d true) s (fun u =>
          (u.die d).state = 2 ∧ (u.die d).retries = (s.die d).retries - 1 ∧ (u.die d).tryAt = max s.now t ∧ u.health.substituting = s.health.substituting) ∧
        Leads (.dieReturnTry t d false) s (fun u =>
          (u.die d).state = 1 ∧ (u.die d).retries = (s.die d).retries - 1 ∧ (u.die d).tryAt = max s.now t + 960000000)) ∧
      ((s.die d).state = 2 → (s.die d).tryAt + 160000000 ≤ max s.now t → s.linkLost d = false →
        (∀ n ∈ (s.tickTo t).onProbation d, 10 ≤ (s.chan n).compared.cycles) →
        ((∀ n ∈ (s.tickTo t).onProbation d, (s.tickTo t).mismatch n = false) → Leads (.dieReturn t d) s (fun u =>
          (u.die d).state = 0 ∧ u.health.substituting ≠ some d)) ∧
        (∀ n ∈ (s.tickTo t).onProbation d, (s.tickTo t).mismatch n = true → Leads (.dieReturn t d) s (fun u =>
          (u.die d).state = 1 ∧ (u.die d).tryAt = (s.die d).tryAt + 960000000 ∧ u.channels = s.channels))))

/-! ### Gatehouse mode and the Varfin links -/

/-- Gatehouse mode (R359-R361, R365). In a case of R359 the vault takes over: a new episode with its cause over totals that stay, every
session closed, the lanes select CH0-CH5, an open update and the engine's keys are gone; otherwise nothing happens. A failure of the
belvedere sets TALLY_FAULT, at entry or later. A tick of the tally that counts adds each element's energy to its total of import or of
export with its residue, in both copies, and loses none; ticks in other modes add nothing. Shown to complete, under conditions on the
state and the operands alone: gatehouseEntry, tallyTick, dieFailure. -/
def Obligations.GatehouseTallies : Prop :=
  (∀ (t : Nat) (cause : GatehouseCause) (s : State),
    (s.linked = true → (s.tickTo t).gateCause cause = true → s.Inv → Leads (.gatehouseEntry t cause) s (fun u =>
      u.phase = .gatehouse ∧ u.gate.cause = causeByte cause ∧ u.gate.episodes = sat 32 (s.gate.episodes + 1) ∧ u.gate.totals = s.gate.totals ∧
      u.gate.entryTotals = s.gate.totals ∧ u.gate.ticks = 0 ∧ (∀ x ∈ u.host.sessions, x.isOpen = false) ∧ u.host.owner = none ∧
      (∀ k, k < 6 → (u.conv (24 + k)).selects = some k) ∧ (u.gate.fault = true ↔ s.belvedereUp = false) ∧ u.sec.update = none ∧
      u.sec.engine = List.replicate 16 none ∧ (s.sec.update = none → u.store.log = s.store.log) ∧ u.store.journal = s.store.journal)) ∧
    ((s.linked && (s.tickTo t).gateCause cause) = false → exec (.gatehouseEntry t cause) s = .next (s.tickTo t))) ∧
  (∀ (t : Nat) (s : State), s.gate.totals.length = 6 → s.gate.rest.length = 6 → (∀ i, 0 ≤ nth s.gate.rest i) →
    (s.phase = .gatehouse → s.gate.tickAt ≤ max s.now t → (s.tickTo t).tallies = true → Leads (.tallyTick t) s (fun u =>
      u.gate.ticks = sat 32 (s.gate.ticks + 1) ∧ u.gate.tickAt = s.gate.tickAt + 160000 ∧ u.gate.work = [0, 0, 0] ∧
      (s.gate.totalsCopy = s.gate.totals → u.gate.totalsCopy = u.gate.totals) ∧
      ∀ i, i < 3 → let e := s.gate.energy i
        let inn := 2 * i
        let out := 2 * i + 1
        nth s.gate.totals inn + |e| < 2 ^ 47 → nth s.gate.rest inn < 1 → nth s.gate.totals out + |e| < 2 ^ 47 → nth s.gate.rest out < 1 →
        (nth u.gate.totals inn : Rat) + nth u.gate.rest inn = nth s.gate.totals inn + nth s.gate.rest inn + max e 0 ∧
        (nth u.gate.totals out : Rat) + nth u.gate.rest out = nth s.gate.totals out + nth s.gate.rest out + max (-e) 0)) ∧
    (s.phase = .gatehouse → s.gate.tickAt ≤ max s.now t → (s.tickTo t).tallies = false → Leads (.tallyTick t) s (fun u =>
      u.gate = s.gate.nextTick ∧ u.gate.totals = s.gate.totals ∧ u.gate.ticks = s.gate.ticks)) ∧
    (s.phase ≠ .gatehouse → exec (.tallyTick t) s = .next (s.tickTo t))) ∧
  (∀ (t : Nat) (cause : DieFault) (s : State), s.phase = .gatehouse →
    exec (.dieFailure t 5 cause) s = .next { s.tickTo t with gate := { s.gate with fault := true } })

/-- Frames cross a link once and in order (R21-R24). A good frame is acknowledged; the next one expected is delivered, a repeat is not
delivered again, and one ahead waits. After 16 failures in a row the lane is lost, as after a loss of symbol lock. Frames not acknowledged
for 4 us are sent again. A lost lane that is retrained carries test frames, one failure of which ends the test, and it returns when the
test has run. Shown to complete, under conditions on the state and the operands alone: varfinFrame, laneLoss, varfinResendTimeout,
laneRetrain, laneReturn. -/
def Obligations.LinksDeliver : Prop :=
  ∀ (t d k seq : Nat) (s : State), s.Inv → isLinked d = true → k < 2 → s.linked = true → (s.die d).link.lanes.length = 2 →
    let x := (s.die d).link
    let lane := fun (u : State) => (u.die d).link.lane k
    let now := max s.now t
    ((x.lane k).up = true → Leads (.varfinFrame t d k seq true) s (fun u =>
        let y := (u.die d).link
        (∀ h ∈ y.replay, h.seq ≠ seq) ∧ (seq = x.delivered → x.ahead = [] → y.delivered = x.delivered + 1) ∧
        (seq < x.delivered → y.delivered = x.delivered ∧ y.ahead = x.ahead) ∧
        (x.delivered < seq → x.delivered ∉ x.ahead → y.delivered = x.delivered) ∧ (lane u).failed = 0 ∧ (lane u).up = true)) ∧
    ((x.lane k).up = true → (x.lane k).failed < 15 → Leads (.varfinFrame t d k seq false) s (fun u =>
        (u.die d).link.delivered = x.delivered ∧ (lane u).failed = (x.lane k).failed + 1 ∧ (lane u).up = true)) ∧
    ((x.lane k).up = true → (x.lane k).failed = 15 → Leads (.varfinFrame t d k seq false) s (fun u =>
        (u.die d).link.delivered = x.delivered ∧ (lane u).up = false)) ∧
    ((x.lane k).up = true → Leads (.laneLoss t d k) s (fun u => (lane u).up = false ∧ (lane u).since = now ∧ (u.die d).link.delivered = x.delivered ∧
        (∀ h ∈ (u.die d).link.replay, h.lane = otherLane k))) ∧
    (s.linkLost d = false → Leads (.varfinResendTimeout t d) s (fun u =>
        (∀ h ∈ (u.die d).link.replay, now < h.sentAt + 64) ∧
        (u.die d).link.replay.map HeldFrame.seq = x.replay.map HeldFrame.seq ∧ (u.die d).link.delivered = x.delivered)) ∧
    ((x.lane k).up = false → (x.lane k).testing = false → (x.lane k).since + (s.trainTicks d).1 ≤ now → Leads (.laneRetrain t d k) s (fun u =>
        (lane u).testing = true ∧ (lane u).up = false ∧ (lane u).since = now)) ∧
    ((x.lane k).up = false → (x.lane k).testing = true → Leads (.varfinFrame t d k seq false) s (fun u =>
        (lane u).testing = false ∧ (u.die d).link.delivered = x.delivered)) ∧
    ((x.lane k).up = false → (x.lane k).testing = true → (x.lane k).since + (s.trainTicks d).2 ≤ now → Leads (.laneReturn t d k) s (fun u =>
        (lane u).up = true ∧ (u.die d).link.delivered = x.delivered ∧ u.linkLost d = false))

/-! ### Supplies, resets, start-up and clocks -/

/-- A warning latches while it is armed, and the commit starts; below the warning level or elsewhere nothing happens (R427, R432). The
commit's end writes its end marker and ends BUSY (R244, R436). After the recovery dwell the warning clears: a commit that still runs
becomes provisional, with the records it writes from some point on (which, no rule states), otherwise a checkpoint follows (R435); its end
arms the warning again. Shown to complete, under conditions on the state and the operands alone: powerWarning, commitEnd, rideThrough,
rideThroughCheckpointEnd. -/
def Obligations.WarningsCommit : Prop :=
  ∀ (t : Nat) (s : State),
    (s.phase = .running → s.power.armed = true → s.sec.transition = none → Leads (.powerWarning t) s (fun u =>
      u.power.warning = some (max s.now t) ∧ u.power.commit.isSome = true ∧ u.power.armed = false ∧ u.power.committed = false ∧
      u.sec.update = none ∧ u.sec.stopped = true ∧ nth u.sec.engine 0 = none)) ∧
    (s.phase ≠ .running ∨ s.power.armed = false → exec (.powerWarning t) s = .next (s.tickTo t)) ∧
    (s.phase = .running → s.power.commit.isSome = true → s.power.reset = none → s.storeWrites = true → Leads (.commitEnd t) s (fun u =>
      u.power.commit = none ∧ u.power.committed = true ∧ u.phase = .running ∧
      ∃ x ∈ u.store.journal, x.type = 6 ∧ x.provisional = s.power.rode ∧ x.sequence = s.store.nextJournal)) ∧
    (∀ w lowest, s.power.warning = some w → (w + recoveryDwell ≤ max s.now t → Leads (.rideThrough t lowest) s (fun u =>
        u.power = { s.power with warning := none, rode := s.power.commit.isSome, rideCheckpoint := s.power.commit.isNone, committed := false, cutCaptures := [] } ∧
        u.sec = { s.sec with stopped := false } ∧ u.bill.live = s.bill.live ∧ (s.power.commit = none → u.store.journal = s.store.journal) ∧
        ∃ a, s.power.commitFirst ≤ a ∧ u.store.journal = s.store.journal.map (fun r => if a ≤ r.sequence then { r with provisional := true } else r))) ∧
      (max s.now t < w + recoveryDwell → exec (.rideThrough t lowest) s = .next (s.tickTo t))) ∧
    (s.phase = .running → s.power.rideCheckpoint = true → s.power.commit = none → Leads (.rideThroughCheckpointEnd t false) s (fun u =>
      u.power.armed = true ∧ u.power.rideCheckpoint = false ∧ u.power.rode = false))

/-- What every reset leaves (R58, R411, R440-R444): the part is held, its cause is the kind's, no session is open and none owns it, contexts
and settings in SRAM are gone, the engine's key slots are cleared, the debug port is closed, and the store's records stay. RESET_N shorter
than 100 ns does nothing; the watchdog trips after 500 ms; a power-on that finds the battery domain lost (the vault's check of R431, made
here: the model's choice, log 95) loses the network key and the gatehouse totals too. A power loss within a write of the boot table leaves
one copy or the other, and the counter as it was or as it is (R425; log 98). No power-on reset shortens a reset that holds the part. Shown
to complete, under conditions on the state and the operands alone: powerOnReset, resetN, watchdogExpiry, vcoreFault, referenceLoss. -/
def Obligations.ResetsKeepTheStore : Prop :=
  ∀ (t : Nat) (s : State), s.sec.transition = none →
    let now := max s.now t
    let held := fun (u : State) (cause : Nat) => u.phase = .held ∧ u.power.cause = cause ∧ u.host.owner = none ∧ (∀ x ∈ u.host.sessions, x.isOpen = false) ∧
      u.bill.live = [] ∧ u.store.journal = s.store.journal ∧ u.sec.lifecycle = s.sec.lifecycle ∧ u.cal.slots = s.cal.slots ∧ u.pending = s.pending ∧
      u.sec.engine = List.replicate 16 none ∧ u.sec.linkKey = none ∧ u.sec.debugOpen = false
    let keeps := fun (u : State) => u.store.log = s.store.log ∧ u.store.boot = s.store.boot ∧ u.sec.counter = s.sec.counter
    let before := if s.phase = .held then (s.power.reset.map PendingReset.notBefore).getD 0 else 0
    let waits := fun (u : State) (until_ : Nat) => ∃ r, u.power.reset = some r ∧ r.notBefore = max before (now + until_)
    let cut := s.store.bootWrite.any (fun w => now ≤ w.at_ + Config.bootWriteTicks)
    (∀ values, (s.batteryFails values = false → Leads (.powerOnReset t values) s (fun u => held u 0 ∧ waits u 80000 ∧ (cut = false → keeps u) ∧
        u.gate.totals = s.gate.totals ∧ u.sec.network = s.sec.network ∧ u.sec.debugFailures = 0)) ∧
      (s.batteryFails values = true → Leads (.powerOnReset t values) s (fun u => held u 1 ∧ waits u 80000 ∧ (cut = false → keeps u) ∧
        u.gate.totals = List.replicate 6 0 ∧ u.sec.network = none ∧ u.clock.rtcValid = false ∧ u.power.batteryLost = true)) ∧
      (cut = true → Leads (.powerOnReset t values) s (fun u => (u.store.boot = s.store.boot ∨ s.store.bootSpare = some u.store.boot) ∧
        (u.sec.counter = s.sec.counter ∨ ∃ w c, s.store.bootWrite = some w ∧ w.confirms = some c ∧ u.sec.counter = c.1)))) ∧
    (∀ low, (low < 100 → exec (.resetN t low) s = .next (s.tickTo t)) ∧
      (100 ≤ low → s.phase ≠ .held → Leads (.resetN t low) s (fun u => held u 2 ∧ keeps u ∧ waits u ((low * 16 + 999) / 1000))) ∧
      (∀ r, 100 ≤ low → s.phase = .held → s.power.reset = some r → Leads (.resetN t low) s (fun u => u.phase = .held ∧
        u.power.reset = some { r with notBefore := max r.notBefore (now + (low * 16 + 999) / 1000) }))) ∧
    (s.power.watchdog = true → s.phase ≠ .held → s.phase ≠ .gatehouse →
      (s.power.watchdogAt + 8000000 ≤ now → Leads (.watchdogExpiry t) s (fun u => held u 5 ∧ keeps u ∧ waits u 16000)) ∧
      (now < s.power.watchdogAt + 8000000 → exec (.watchdogExpiry t) s = .next (s.tickTo t))) ∧
    Leads (.vcoreFault t) s (fun u => held u 8 ∧ keeps u ∧ waits u 80000 ∧ u.sec.debugFailures = 0) ∧
    Leads (.referenceLoss t) s (fun u => held u 7 ∧ keeps u ∧ waits u 80000 ∧ u.clock.referenceLost = true)

/-- Start-up (R413-R416, R437, R438, R246). When the reset has ended, BOOTSEL or RESET into recovery starts recovery; otherwise the slot of
the boot table boots, a pending trial as its trial, vault and engine derive the link key of this boot (R402), and where no slot passes the
part recovers, with the table the ROM wrote. READY opens the first epoch of every acquisition die and the 10-minute and 2-hour periods in
progress (log 75), and metering runs once the contexts are restored. Before its time each does nothing. Shown to complete, under
conditions on the state and the operands alone: startUp, ready, contextRestore. -/
def Obligations.PartStartsUp : Prop :=
  ∀ (t : Nat) (s : State),
    (∀ (h1 bs : Bool) (vH vS : Nat), s.phase = .held → (∀ r, s.power.reset = some r → r.notBefore ≤ max s.now t) →
      (bs = true ∨ s.power.cause = 4 → Leads (.startUp t h1 bs vH vS) s (fun u =>
        u.phase = .recovery ∧ u.host.h1Uart = h1 ∧ u.host.bootsel = bs ∧ u.power.vioS = decide (2400 ≤ vS) ∧ u.power.watchdog = true)) ∧
      (bs = false → s.power.cause ≠ 4 → (∀ k, s.slotPasses k = false) →
        Leads (.startUp t h1 bs vH vS) s (fun u => u.phase = .recovery ∧ (s.store.boot.trialState = 1 → u.store.boot.trialState = 2) ∧
          (s.store.boot.trialState = 2 → u.store.boot.trialState = 0 ∧ u.store.boot.trial = 255))) ∧
      (bs = false → s.power.cause ≠ 4 → s.store.boot.trialState = 0 → s.slotPasses s.store.boot.active = true →
        Leads (.startUp t h1 bs vH vS) s (fun u => u.phase = .booting ∧ u.power.reset = none ∧ u.power.notBooted = s.power.notBooted ∧
          u.host.h1Uart = h1 ∧ u.sec.linkKey = some (deriveLink (le 32 Config.pairingSecret) (le 16 (Config.random s.draws))))) ∧
      (bs = false → s.power.cause ≠ 4 → s.store.boot.trialState = 1 → s.slotPasses s.store.boot.trial = true → s.power.notBooted = none →
        Leads (.startUp t h1 bs vH vS) s (fun u => u.phase = .booting ∧ u.runningSlot = s.store.boot.trial))) ∧
    (∀ h1 bs vH vS r, s.power.reset = some r → max s.now t < r.notBefore → exec (.startUp t h1 bs vH vS) s = .next (s.tickTo t)) ∧
    (s.phase = .booting → s.Inv → Leads (.ready t) s (fun u => u.phase = .ready ∧ u.samplePhase < 4 ∧ u.meas.tenStart = some u.power.readyUtc ∧
      u.meas.twoStart = some u.power.readyUtc ∧ u.bill.nextFold = firstTickAfter (max s.now t) ∧
      ∀ d, 1 ≤ d → d ≤ 5 → (u.die d).epochTick % 4 = u.samplePhase ∧ max s.now t ≤ (u.die d).epochTick)) ∧
    (s.phase ≠ .booting → exec (.ready t) s = .next (s.tickTo t)) ∧
    (s.phase = .ready → Leads (.contextRestore t) s (fun u => u.phase = .running ∧ u.power.armed = true ∧ u.sec.trialFrom = some (max s.now t))) ∧
    (s.phase ≠ .ready → exec (.contextRestore t) s = .next (s.tickTo t))

/-- Supply faults (R429-R431). Low VANA on three dies or more ends their channels' data until it has recovered for 5 ms, which opens a new
epoch; fewer dies, or a voltage no comparator can have tripped at, raise no supply fault. Low VIO_S makes the store read-only until it has
been back in range for 5 ms. The battery's level is watched with its hysteresis, and marked while no firmware runs (how an event of such a
time is told is the model's choice, log 95). The modem crystal's loss empties the line queue (R454). Shown to complete, under conditions
on the state and the operands alone: vanaSupplyFault, vanaRecovery, vioSFault, vioSRecovery, vbatLow, vbatLowClear, modemCrystalLoss. -/
def Obligations.SuppliesAreWatched : Prop :=
  ∀ (t : Nat) (v : F32) (s : State), s.Inv →
    (∀ dies, dies.all isAcquisition = true → (s.phase = .ready ∨ s.phase = .running) → s.health.vanaFault = none →
      (3 ≤ dies.eraseDups.length → vanaFaults v = true → Leads (.vanaSupplyFault t dies v) s (fun u =>
        u.health.vanaFault = some (max s.now t) ∧ u.health.vanaDies = dies.eraseDups ∧ u.dies = s.dies ∧
        (∀ n, n < 24 → dieOfUnit n ∈ dies → u.converts n = false))) ∧
      (dies.eraseDups.length < 3 ∨ vanaFaults v = false → exec (.vanaSupplyFault t dies v) s = .next (s.tickTo t))) ∧
    ((vanaRecovers v && s.health.vanaFault.any (fun x => x + 80000 ≤ max s.now t)) = false → exec (.vanaRecovery t v) s = .next (s.tickTo t)) ∧
    (∀ x, s.health.vanaFault = some x → x + 80000 ≤ max s.now t → vanaRecovers v = true → Leads (.vanaRecovery t v) s (fun u => u.health.vanaFault = none ∧ u.health.vanaDies = [] ∧
      ∀ d, 1 ≤ d → d ≤ 5 → max s.now t ≤ (u.die d).epochTick)) ∧
    (s.phase ≠ .held → s.power.vioFault = false → f32Val v < s.vioLevel → Leads (.vioSFault t v) s (fun u =>
      u.power.vioFault = true ∧ u.power.commit = none ∧ (s.store.state = 1 → u.store.state = 2 ∧ u.store.vioOnly = true))) ∧
    (s.power.vioFault = true → s.vioInRange v = true → s.power.vioFaultAt + 80000 ≤ max s.now t → Leads (.vioSRecovery t v) s (fun u => u.power.vioFault = false ∧ u.store.vioOnly = false ∧
      (s.store.vioOnly = true → s.store.state = 2 → u.store.state = 1) ∧ (s.store.vioOnly = false → u.store.state = s.store.state))) ∧
    ((s.vioInRange v = false ∨ max s.now t < s.power.vioFaultAt + 80000) → exec (.vioSRecovery t v) s = .next (s.tickTo t)) ∧
    (let marks := fun (ended : Bool) => if s.firmware then s.power.vbatMarks else s.power.vbatMarks ++ [(ended, v)]
     (s.power.vbatLow = false → f32Val v < 235 / 100 → Leads (.vbatLow t v) s (fun u =>
        u.power = { s.power with vbatLow := true, vbatMarks := marks false } ∧ u.bill = s.bill)) ∧
     (s.power.vbatLow = true ∨ 235 / 100 ≤ f32Val v → exec (.vbatLow t v) s = .next (s.tickTo t)) ∧
     (s.power.vbatLow = true → 235 / 100 ≤ f32Val v → Leads (.vbatLowClear t v) s (fun u =>
        u.power = { s.power with vbatLow := false, vbatMarks := marks true } ∧ u.bill = s.bill)) ∧
     (s.power.vbatLow = false ∨ f32Val v < 235 / 100 → exec (.vbatLowClear t v) s = .next (s.tickTo t))) ∧
    (s.firmware = true → s.clock.modemLost = false → Leads (.modemCrystalLoss t) s (fun u =>
      u.clock.modemLost = true ∧ u.line.queue = [] ∧ u.line.flight = none))

/-- The clocks (R243, R447-R454). PPS locks at the fourth good interval in a row; a bad one starts the count again, and is only counted while
locked. Without an accepted edge for 3 s it unlocks, and the estimate expires an hour later. The RTC is written at a new whole second and
tells the time it held when its crystal stops. A SYNC edge opens a new epoch on every acquisition die at the first sample 10 us or more
later; a shorter pulse does nothing. Timing messages of the modem clock come 10 ms apart or more (R32). Shown to complete, under
conditions on the state and the operands alone: ppsEdge, ppsUnlock, rateEstimateExpiry, rtcWrite, rtcCrystalStop, rtcOscillatorRestart,
syncEdge, timingMessage. -/
def Obligations.ClocksAreKept : Prop :=
  ∀ (t : Nat) (s : State), s.Inv →
    let now := max s.now t
    (∀ quarter last, s.firmware = true → s.clock.mapSet = true → s.clock.ppsLast = some last → last ≤ quarter → quarter / 4 ≤ now →
      (s.clock.ppsLocked = false → ppsAccepts (quarter - last) = true → s.clock.ppsRun < 3 → Leads (.ppsEdge t quarter) s (fun u =>
        u.clock = { s.clock with ppsLast := some quarter, ppsRun := s.clock.ppsRun + 1 } ∧ u.bill = s.bill)) ∧
      (s.clock.ppsLocked = false → ppsAccepts (quarter - last) = true → s.clock.ppsRun = 3 → Leads (.ppsEdge t quarter) s (fun u =>
        u.clock.ppsLocked = true ∧ u.clock.ppsAccepted = now ∧ u.clock.ppsLast = some quarter)) ∧
      (s.clock.ppsLocked = false → ppsAccepts (quarter - last) = false → Leads (.ppsEdge t quarter) s (fun u =>
        u.clock = { s.clock with ppsLast := some quarter, ppsRun := 0 } ∧ u.bill = s.bill)) ∧
      (s.clock.ppsLocked = true → ppsAccepts (quarter - last) = false → Leads (.ppsEdge t quarter) s (fun u =>
        u.clock = { s.clock with ppsLast := some quarter, ppsRejected := sat 32 (s.clock.ppsRejected + 1) } ∧ u.bill = s.bill))) ∧
    (s.firmware = true → s.clock.ppsLocked = true →
      (s.clock.ppsAccepted + 48000000 ≤ now → Leads (.ppsUnlock t) s (fun u => u.clock.ppsLocked = false ∧ u.clock.eps = s.clock.eps ∧
        (s.clock.epsValid = true → s.clock.epsExpiry = none → u.clock.epsExpiry = some (now + 57600000000)))) ∧
      (now < s.clock.ppsAccepted + 48000000 → exec (.ppsUnlock t) s = .next (s.tickTo t))) ∧
    (∀ x, s.clock.epsExpiry = some x → (x ≤ now → Leads (.rateEstimateExpiry t) s (fun u => u.clock.eps = 0 ∧ u.clock.epsValid = false ∧ u.clock.epsExpiry = none)) ∧
      (now < x → exec (.rateEstimateExpiry t) s = .next (s.tickTo t))) ∧
    (s.firmware = true → s.clock.mapSet = true → s.linkLost 7 = false →
      let whole := (s.tickTo t).stampNow / 16000000 * 16000000
      (whole ≠ s.clock.rtcCount → Leads (.rtcWrite t) s (fun u => u.clock.rtcCount = whole ∧
        u = { s.tickTo t with clock := { s.clock with rtcCount := whole, rtcAt := u.clock.rtcAt } })) ∧
      (whole = s.clock.rtcCount → exec (.rtcWrite t) s = .next (s.tickTo t))) ∧
    (s.clock.rtcRuns = true → Leads (.rtcCrystalStop t) s (fun u => u.clock.rtcRuns = false ∧ u.clock.rtcValid = false ∧
      u.clock.rtcCount = (s.tickTo t).rtcNow ∧ (s.firmware = false → u.power.rtcMark = true))) ∧
    (s.clock.rtcRuns = false → Leads (.rtcOscillatorRestart t) s (fun u =>
      u = { s.tickTo t with clock := { s.clock with rtcRuns := true, rtcAt := now } })) ∧
    (∀ width, (width < 1000 → exec (.syncEdge t width) s = .next (s.tickTo t)) ∧
      (1000 ≤ width → (s.phase = .ready ∨ s.phase = .running) → (∀ x, s.clock.syncEdgeAt = some x → x + 160000 ≤ now) →
        (∀ d, 1 ≤ d → d ≤ 5 → s.dieDown d = false) → s.sweep.running = none → s.samplePhase < 4 → Leads (.syncEdge t width) s (fun u =>
          u.clock.syncEdgeAt = some now ∧ ∀ d, 1 ≤ d → d ≤ 5 →
            (u.die d).epochTick = s.rawInstant (now + 160) ∧ (u.die d).epochTick % 4 = s.samplePhase ∧
            now + 160 ≤ (u.die d).epochTick ∧ (u.die d).epochTick < now + 164))) ∧
    (∀ count, (s.phase = .ready ∨ s.phase = .running) → s.linkLost 6 = false → s.clock.modemLost = false →
      ((s.clock.modemTick = 0 ∨ s.clock.modemTick + 160000 ≤ now) → Leads (.timingMessage t count) s (fun u =>
        u = { s.tickTo t with clock := { s.clock with
          modemCount := count, modemTick := now
          modemBefore := if s.clock.modemTick = 0 then none else some (s.clock.modemCount, s.clock.modemTick) } })) ∧
      (s.clock.modemTick ≠ 0 → now < s.clock.modemTick + 160000 → exec (.timingMessage t count) s = .next (s.tickTo t)))
end

