-- ==== Sys2Proof/Laws/State.lean ====
section
/-! SUPPORT. Lists and the setters of State: one lemma for each field and each update, and what an accessor reads after an update. -/

namespace Sys2Proof.Machine

/-! ### Lists -/

@[simp] theorem length_alter {α : Type} (l : List α) (i : Nat) (f : α → α) : (alter l i f).length = l.length := by simp [alter]

@[simp] theorem length_alterWhere {α : Type} (l : List α) (p : α → Bool) (f : α → α) : (alterWhere l p f).length = l.length := by
  simp [alterWhere]

/-- Reading the entry changed. -/
theorem nth_alter {α : Type} [Inhabited α] (l : List α) (i : Nat) (f : α → α) (h : i < l.length) : nth (alter l i f) i = f (nth l i) := by
  simp [nth, alter, List.getD_eq_getElem?_getD, h]

/-- Reading any other entry. -/
theorem nth_alter_ne {α : Type} [Inhabited α] (l : List α) (i j : Nat) (f : α → α) (h : j ≠ i) : nth (alter l i f) j = nth l j := by
  simp [nth, alter, List.getD_eq_getElem?_getD, Ne.symm h]

/-- Reading past the end. -/
theorem nth_past {α : Type} [Inhabited α] (l : List α) (i : Nat) (h : l.length ≤ i) : nth l i = default := by
  simp [nth, List.getD_eq_getElem?_getD, List.getElem?_eq_none h]

/-! ### What each setter leaves -/

@[simp] theorem State.tickTo_phase (s : State) (t : Nat) : (s.tickTo t).phase = s.phase := rfl
@[simp] theorem State.tickTo_host (s : State) (t : Nat) : (s.tickTo t).host = s.host := rfl
@[simp] theorem State.tickTo_clock (s : State) (t : Nat) : (s.tickTo t).clock = s.clock := rfl
@[simp] theorem State.tickTo_channels (s : State) (t : Nat) : (s.tickTo t).channels = s.channels := rfl
@[simp] theorem State.tickTo_converters (s : State) (t : Nat) : (s.tickTo t).converters = s.converters := rfl
@[simp] theorem State.tickTo_dies (s : State) (t : Nat) : (s.tickTo t).dies = s.dies := rfl
@[simp] theorem State.tickTo_samplePhase (s : State) (t : Nat) : (s.tickTo t).samplePhase = s.samplePhase := rfl
@[simp] theorem State.tickTo_timers (s : State) (t : Nat) : (s.tickTo t).timers = s.timers := rfl
@[simp] theorem State.tickTo_tracker (s : State) (t : Nat) : (s.tickTo t).tracker = s.tracker := rfl
@[simp] theorem State.tickTo_captures (s : State) (t : Nat) : (s.tickTo t).captures = s.captures := rfl
@[simp] theorem State.tickTo_sweep (s : State) (t : Nat) : (s.tickTo t).sweep = s.sweep := rfl
@[simp] theorem State.tickTo_cal (s : State) (t : Nat) : (s.tickTo t).cal = s.cal := rfl
@[simp] theorem State.tickTo_meas (s : State) (t : Nat) : (s.tickTo t).meas = s.meas := rfl
@[simp] theorem State.tickTo_bill (s : State) (t : Nat) : (s.tickTo t).bill = s.bill := rfl
@[simp] theorem State.tickTo_line (s : State) (t : Nat) : (s.tickTo t).line = s.line := rfl
@[simp] theorem State.tickTo_mesh (s : State) (t : Nat) : (s.tickTo t).mesh = s.mesh := rfl
@[simp] theorem State.tickTo_store (s : State) (t : Nat) : (s.tickTo t).store = s.store := rfl
@[simp] theorem State.tickTo_sec (s : State) (t : Nat) : (s.tickTo t).sec = s.sec := rfl
@[simp] theorem State.tickTo_health (s : State) (t : Nat) : (s.tickTo t).health = s.health := rfl
@[simp] theorem State.tickTo_gate (s : State) (t : Nat) : (s.tickTo t).gate = s.gate := rfl
@[simp] theorem State.tickTo_power (s : State) (t : Nat) : (s.tickTo t).power = s.power := rfl
@[simp] theorem State.tickTo_pins (s : State) (t : Nat) : (s.tickTo t).pins = s.pins := rfl
@[simp] theorem State.tickTo_draws (s : State) (t : Nat) : (s.tickTo t).draws = s.draws := rfl
@[simp] theorem State.tickTo_pending (s : State) (t : Nat) : (s.tickTo t).pending = s.pending := rfl

@[simp] theorem State.setChan_phase (s : State) (n : Nat) (f : Channel → Channel) : (s.setChan n f).phase = s.phase := rfl
@[simp] theorem State.setChan_now (s : State) (n : Nat) (f : Channel → Channel) : (s.setChan n f).now = s.now := rfl
@[simp] theorem State.setChan_host (s : State) (n : Nat) (f : Channel → Channel) : (s.setChan n f).host = s.host := rfl
@[simp] theorem State.setChan_clock (s : State) (n : Nat) (f : Channel → Channel) : (s.setChan n f).clock = s.clock := rfl
@[simp] theorem State.setChan_converters (s : State) (n : Nat) (f : Channel → Channel) : (s.setChan n f).converters = s.converters := rfl
@[simp] theorem State.setChan_dies (s : State) (n : Nat) (f : Channel → Channel) : (s.setChan n f).dies = s.dies := rfl
@[simp] theorem State.setChan_samplePhase (s : State) (n : Nat) (f : Channel → Channel) : (s.setChan n f).samplePhase = s.samplePhase := rfl
@[simp] theorem State.setChan_timers (s : State) (n : Nat) (f : Channel → Channel) : (s.setChan n f).timers = s.timers := rfl
@[simp] theorem State.setChan_tracker (s : State) (n : Nat) (f : Channel → Channel) : (s.setChan n f).tracker = s.tracker := rfl
@[simp] theorem State.setChan_captures (s : State) (n : Nat) (f : Channel → Channel) : (s.setChan n f).captures = s.captures := rfl
@[simp] theorem State.setChan_sweep (s : State) (n : Nat) (f : Channel → Channel) : (s.setChan n f).sweep = s.sweep := rfl
@[simp] theorem State.setChan_cal (s : State) (n : Nat) (f : Channel → Channel) : (s.setChan n f).cal = s.cal := rfl
@[simp] theorem State.setChan_meas (s : State) (n : Nat) (f : Channel → Channel) : (s.setChan n f).meas = s.meas := rfl
@[simp] theorem State.setChan_bill (s : State) (n : Nat) (f : Channel → Channel) : (s.setChan n f).bill = s.bill := rfl
@[simp] theorem State.setChan_line (s : State) (n : Nat) (f : Channel → Channel) : (s.setChan n f).line = s.line := rfl
@[simp] theorem State.setChan_mesh (s : State) (n : Nat) (f : Channel → Channel) : (s.setChan n f).mesh = s.mesh := rfl
@[simp] theorem State.setChan_store (s : State) (n : Nat) (f : Channel → Channel) : (s.setChan n f).store = s.store := rfl
@[simp] theorem State.setChan_sec (s : State) (n : Nat) (f : Channel → Channel) : (s.setChan n f).sec = s.sec := rfl
@[simp] theorem State.setChan_health (s : State) (n : Nat) (f : Channel → Channel) : (s.setChan n f).health = s.health := rfl
@[simp] theorem State.setChan_gate (s : State) (n : Nat) (f : Channel → Channel) : (s.setChan n f).gate = s.gate := rfl
@[simp] theorem State.setChan_power (s : State) (n : Nat) (f : Channel → Channel) : (s.setChan n f).power = s.power := rfl
@[simp] theorem State.setChan_pins (s : State) (n : Nat) (f : Channel → Channel) : (s.setChan n f).pins = s.pins := rfl
@[simp] theorem State.setChan_draws (s : State) (n : Nat) (f : Channel → Channel) : (s.setChan n f).draws = s.draws := rfl
@[simp] theorem State.setChan_pending (s : State) (n : Nat) (f : Channel → Channel) : (s.setChan n f).pending = s.pending := rfl

@[simp] theorem State.setConv_phase (s : State) (u : Nat) (f : Converter → Converter) : (s.setConv u f).phase = s.phase := rfl
@[simp] theorem State.setConv_now (s : State) (u : Nat) (f : Converter → Converter) : (s.setConv u f).now = s.now := rfl
@[simp] theorem State.setConv_host (s : State) (u : Nat) (f : Converter → Converter) : (s.setConv u f).host = s.host := rfl
@[simp] theorem State.setConv_clock (s : State) (u : Nat) (f : Converter → Converter) : (s.setConv u f).clock = s.clock := rfl
@[simp] theorem State.setConv_channels (s : State) (u : Nat) (f : Converter → Converter) : (s.setConv u f).channels = s.channels := rfl
@[simp] theorem State.setConv_dies (s : State) (u : Nat) (f : Converter → Converter) : (s.setConv u f).dies = s.dies := rfl
@[simp] theorem State.setConv_samplePhase (s : State) (u : Nat) (f : Converter → Converter) : (s.setConv u f).samplePhase = s.samplePhase := rfl
@[simp] theorem State.setConv_timers (s : State) (u : Nat) (f : Converter → Converter) : (s.setConv u f).timers = s.timers := rfl
@[simp] theorem State.setConv_tracker (s : State) (u : Nat) (f : Converter → Converter) : (s.setConv u f).tracker = s.tracker := rfl
@[simp] theorem State.setConv_captures (s : State) (u : Nat) (f : Converter → Converter) : (s.setConv u f).captures = s.captures := rfl
@[simp] theorem State.setConv_sweep (s : State) (u : Nat) (f : Converter → Converter) : (s.setConv u f).sweep = s.sweep := rfl
@[simp] theorem State.setConv_cal (s : State) (u : Nat) (f : Converter → Converter) : (s.setConv u f).cal = s.cal := rfl
@[simp] theorem State.setConv_meas (s : State) (u : Nat) (f : Converter → Converter) : (s.setConv u f).meas = s.meas := rfl
@[simp] theorem State.setConv_bill (s : State) (u : Nat) (f : Converter → Converter) : (s.setConv u f).bill = s.bill := rfl
@[simp] theorem State.setConv_line (s : State) (u : Nat) (f : Converter → Converter) : (s.setConv u f).line = s.line := rfl
@[simp] theorem State.setConv_mesh (s : State) (u : Nat) (f : Converter → Converter) : (s.setConv u f).mesh = s.mesh := rfl
@[simp] theorem State.setConv_store (s : State) (u : Nat) (f : Converter → Converter) : (s.setConv u f).store = s.store := rfl
@[simp] theorem State.setConv_sec (s : State) (u : Nat) (f : Converter → Converter) : (s.setConv u f).sec = s.sec := rfl
@[simp] theorem State.setConv_health (s : State) (u : Nat) (f : Converter → Converter) : (s.setConv u f).health = s.health := rfl
@[simp] theorem State.setConv_gate (s : State) (u : Nat) (f : Converter → Converter) : (s.setConv u f).gate = s.gate := rfl
@[simp] theorem State.setConv_power (s : State) (u : Nat) (f : Converter → Converter) : (s.setConv u f).power = s.power := rfl
@[simp] theorem State.setConv_pins (s : State) (u : Nat) (f : Converter → Converter) : (s.setConv u f).pins = s.pins := rfl
@[simp] theorem State.setConv_draws (s : State) (u : Nat) (f : Converter → Converter) : (s.setConv u f).draws = s.draws := rfl
@[simp] theorem State.setConv_pending (s : State) (u : Nat) (f : Converter → Converter) : (s.setConv u f).pending = s.pending := rfl

@[simp] theorem State.setDie_phase (s : State) (d : Nat) (f : Die → Die) : (s.setDie d f).phase = s.phase := rfl
@[simp] theorem State.setDie_now (s : State) (d : Nat) (f : Die → Die) : (s.setDie d f).now = s.now := rfl
@[simp] theorem State.setDie_host (s : State) (d : Nat) (f : Die → Die) : (s.setDie d f).host = s.host := rfl
@[simp] theorem State.setDie_clock (s : State) (d : Nat) (f : Die → Die) : (s.setDie d f).clock = s.clock := rfl
@[simp] theorem State.setDie_channels (s : State) (d : Nat) (f : Die → Die) : (s.setDie d f).channels = s.channels := rfl
@[simp] theorem State.setDie_converters (s : State) (d : Nat) (f : Die → Die) : (s.setDie d f).converters = s.converters := rfl
@[simp] theorem State.setDie_samplePhase (s : State) (d : Nat) (f : Die → Die) : (s.setDie d f).samplePhase = s.samplePhase := rfl
@[simp] theorem State.setDie_timers (s : State) (d : Nat) (f : Die → Die) : (s.setDie d f).timers = s.timers := rfl
@[simp] theorem State.setDie_tracker (s : State) (d : Nat) (f : Die → Die) : (s.setDie d f).tracker = s.tracker := rfl
@[simp] theorem State.setDie_captures (s : State) (d : Nat) (f : Die → Die) : (s.setDie d f).captures = s.captures := rfl
@[simp] theorem State.setDie_sweep (s : State) (d : Nat) (f : Die → Die) : (s.setDie d f).sweep = s.sweep := rfl
@[simp] theorem State.setDie_cal (s : State) (d : Nat) (f : Die → Die) : (s.setDie d f).cal = s.cal := rfl
@[simp] theorem State.setDie_meas (s : State) (d : Nat) (f : Die → Die) : (s.setDie d f).meas = s.meas := rfl
@[simp] theorem State.setDie_bill (s : State) (d : Nat) (f : Die → Die) : (s.setDie d f).bill = s.bill := rfl
@[simp] theorem State.setDie_line (s : State) (d : Nat) (f : Die → Die) : (s.setDie d f).line = s.line := rfl
@[simp] theorem State.setDie_mesh (s : State) (d : Nat) (f : Die → Die) : (s.setDie d f).mesh = s.mesh := rfl
@[simp] theorem State.setDie_store (s : State) (d : Nat) (f : Die → Die) : (s.setDie d f).store = s.store := rfl
@[simp] theorem State.setDie_sec (s : State) (d : Nat) (f : Die → Die) : (s.setDie d f).sec = s.sec := rfl
@[simp] theorem State.setDie_health (s : State) (d : Nat) (f : Die → Die) : (s.setDie d f).health = s.health := rfl
@[simp] theorem State.setDie_gate (s : State) (d : Nat) (f : Die → Die) : (s.setDie d f).gate = s.gate := rfl
@[simp] theorem State.setDie_power (s : State) (d : Nat) (f : Die → Die) : (s.setDie d f).power = s.power := rfl
@[simp] theorem State.setDie_pins (s : State) (d : Nat) (f : Die → Die) : (s.setDie d f).pins = s.pins := rfl
@[simp] theorem State.setDie_draws (s : State) (d : Nat) (f : Die → Die) : (s.setDie d f).draws = s.draws := rfl
@[simp] theorem State.setDie_pending (s : State) (d : Nat) (f : Die → Die) : (s.setDie d f).pending = s.pending := rfl

@[simp] theorem State.setSide_phase (s : State) (d : Nat) (f : SideSlice → SideSlice) : (s.setSide d f).phase = s.phase := rfl
@[simp] theorem State.setSide_now (s : State) (d : Nat) (f : SideSlice → SideSlice) : (s.setSide d f).now = s.now := rfl
@[simp] theorem State.setSide_host (s : State) (d : Nat) (f : SideSlice → SideSlice) : (s.setSide d f).host = s.host := rfl
@[simp] theorem State.setSide_clock (s : State) (d : Nat) (f : SideSlice → SideSlice) : (s.setSide d f).clock = s.clock := rfl
@[simp] theorem State.setSide_channels (s : State) (d : Nat) (f : SideSlice → SideSlice) : (s.setSide d f).channels = s.channels := rfl
@[simp] theorem State.setSide_converters (s : State) (d : Nat) (f : SideSlice → SideSlice) : (s.setSide d f).converters = s.converters := rfl
@[simp] theorem State.setSide_samplePhase (s : State) (d : Nat) (f : SideSlice → SideSlice) : (s.setSide d f).samplePhase = s.samplePhase := rfl
@[simp] theorem State.setSide_timers (s : State) (d : Nat) (f : SideSlice → SideSlice) : (s.setSide d f).timers = s.timers := rfl
@[simp] theorem State.setSide_tracker (s : State) (d : Nat) (f : SideSlice → SideSlice) : (s.setSide d f).tracker = s.tracker := rfl
@[simp] theorem State.setSide_captures (s : State) (d : Nat) (f : SideSlice → SideSlice) : (s.setSide d f).captures = s.captures := rfl
@[simp] theorem State.setSide_sweep (s : State) (d : Nat) (f : SideSlice → SideSlice) : (s.setSide d f).sweep = s.sweep := rfl
@[simp] theorem State.setSide_cal (s : State) (d : Nat) (f : SideSlice → SideSlice) : (s.setSide d f).cal = s.cal := rfl
@[simp] theorem State.setSide_meas (s : State) (d : Nat) (f : SideSlice → SideSlice) : (s.setSide d f).meas = s.meas := rfl
@[simp] theorem State.setSide_bill (s : State) (d : Nat) (f : SideSlice → SideSlice) : (s.setSide d f).bill = s.bill := rfl
@[simp] theorem State.setSide_line (s : State) (d : Nat) (f : SideSlice → SideSlice) : (s.setSide d f).line = s.line := rfl
@[simp] theorem State.setSide_mesh (s : State) (d : Nat) (f : SideSlice → SideSlice) : (s.setSide d f).mesh = s.mesh := rfl
@[simp] theorem State.setSide_store (s : State) (d : Nat) (f : SideSlice → SideSlice) : (s.setSide d f).store = s.store := rfl
@[simp] theorem State.setSide_sec (s : State) (d : Nat) (f : SideSlice → SideSlice) : (s.setSide d f).sec = s.sec := rfl
@[simp] theorem State.setSide_health (s : State) (d : Nat) (f : SideSlice → SideSlice) : (s.setSide d f).health = s.health := rfl
@[simp] theorem State.setSide_gate (s : State) (d : Nat) (f : SideSlice → SideSlice) : (s.setSide d f).gate = s.gate := rfl
@[simp] theorem State.setSide_power (s : State) (d : Nat) (f : SideSlice → SideSlice) : (s.setSide d f).power = s.power := rfl
@[simp] theorem State.setSide_pins (s : State) (d : Nat) (f : SideSlice → SideSlice) : (s.setSide d f).pins = s.pins := rfl
@[simp] theorem State.setSide_draws (s : State) (d : Nat) (f : SideSlice → SideSlice) : (s.setSide d f).draws = s.draws := rfl
@[simp] theorem State.setSide_pending (s : State) (d : Nat) (f : SideSlice → SideSlice) : (s.setSide d f).pending = s.pending := rfl

@[simp] theorem State.setLink_phase (s : State) (d : Nat) (f : Link → Link) : (s.setLink d f).phase = s.phase := rfl
@[simp] theorem State.setLink_now (s : State) (d : Nat) (f : Link → Link) : (s.setLink d f).now = s.now := rfl
@[simp] theorem State.setLink_host (s : State) (d : Nat) (f : Link → Link) : (s.setLink d f).host = s.host := rfl
@[simp] theorem State.setLink_clock (s : State) (d : Nat) (f : Link → Link) : (s.setLink d f).clock = s.clock := rfl
@[simp] theorem State.setLink_channels (s : State) (d : Nat) (f : Link → Link) : (s.setLink d f).channels = s.channels := rfl
@[simp] theorem State.setLink_converters (s : State) (d : Nat) (f : Link → Link) : (s.setLink d f).converters = s.converters := rfl
@[simp] theorem State.setLink_samplePhase (s : State) (d : Nat) (f : Link → Link) : (s.setLink d f).samplePhase = s.samplePhase := rfl
@[simp] theorem State.setLink_timers (s : State) (d : Nat) (f : Link → Link) : (s.setLink d f).timers = s.timers := rfl
@[simp] theorem State.setLink_tracker (s : State) (d : Nat) (f : Link → Link) : (s.setLink d f).tracker = s.tracker := rfl
@[simp] theorem State.setLink_captures (s : State) (d : Nat) (f : Link → Link) : (s.setLink d f).captures = s.captures := rfl
@[simp] theorem State.setLink_sweep (s : State) (d : Nat) (f : Link → Link) : (s.setLink d f).sweep = s.sweep := rfl
@[simp] theorem State.setLink_cal (s : State) (d : Nat) (f : Link → Link) : (s.setLink d f).cal = s.cal := rfl
@[simp] theorem State.setLink_meas (s : State) (d : Nat) (f : Link → Link) : (s.setLink d f).meas = s.meas := rfl
@[simp] theorem State.setLink_bill (s : State) (d : Nat) (f : Link → Link) : (s.setLink d f).bill = s.bill := rfl
@[simp] theorem State.setLink_line (s : State) (d : Nat) (f : Link → Link) : (s.setLink d f).line = s.line := rfl
@[simp] theorem State.setLink_mesh (s : State) (d : Nat) (f : Link → Link) : (s.setLink d f).mesh = s.mesh := rfl
@[simp] theorem State.setLink_store (s : State) (d : Nat) (f : Link → Link) : (s.setLink d f).store = s.store := rfl
@[simp] theorem State.setLink_sec (s : State) (d : Nat) (f : Link → Link) : (s.setLink d f).sec = s.sec := rfl
@[simp] theorem State.setLink_health (s : State) (d : Nat) (f : Link → Link) : (s.setLink d f).health = s.health := rfl
@[simp] theorem State.setLink_gate (s : State) (d : Nat) (f : Link → Link) : (s.setLink d f).gate = s.gate := rfl
@[simp] theorem State.setLink_power (s : State) (d : Nat) (f : Link → Link) : (s.setLink d f).power = s.power := rfl
@[simp] theorem State.setLink_pins (s : State) (d : Nat) (f : Link → Link) : (s.setLink d f).pins = s.pins := rfl
@[simp] theorem State.setLink_draws (s : State) (d : Nat) (f : Link → Link) : (s.setLink d f).draws = s.draws := rfl
@[simp] theorem State.setLink_pending (s : State) (d : Nat) (f : Link → Link) : (s.setLink d f).pending = s.pending := rfl

@[simp] theorem State.setSession_phase (s : State) (k : Nat) (f : Session → Session) : (s.setSession k f).phase = s.phase := rfl
@[simp] theorem State.setSession_now (s : State) (k : Nat) (f : Session → Session) : (s.setSession k f).now = s.now := rfl
@[simp] theorem State.setSession_clock (s : State) (k : Nat) (f : Session → Session) : (s.setSession k f).clock = s.clock := rfl
@[simp] theorem State.setSession_channels (s : State) (k : Nat) (f : Session → Session) : (s.setSession k f).channels = s.channels := rfl
@[simp] theorem State.setSession_converters (s : State) (k : Nat) (f : Session → Session) : (s.setSession k f).converters = s.converters := rfl
@[simp] theorem State.setSession_dies (s : State) (k : Nat) (f : Session → Session) : (s.setSession k f).dies = s.dies := rfl
@[simp] theorem State.setSession_samplePhase (s : State) (k : Nat) (f : Session → Session) : (s.setSession k f).samplePhase = s.samplePhase := rfl
@[simp] theorem State.setSession_timers (s : State) (k : Nat) (f : Session → Session) : (s.setSession k f).timers = s.timers := rfl
@[simp] theorem State.setSession_tracker (s : State) (k : Nat) (f : Session → Session) : (s.setSession k f).tracker = s.tracker := rfl
@[simp] theorem State.setSession_captures (s : State) (k : Nat) (f : Session → Session) : (s.setSession k f).captures = s.captures := rfl
@[simp] theorem State.setSession_sweep (s : State) (k : Nat) (f : Session → Session) : (s.setSession k f).sweep = s.sweep := rfl
@[simp] theorem State.setSession_cal (s : State) (k : Nat) (f : Session → Session) : (s.setSession k f).cal = s.cal := rfl
@[simp] theorem State.setSession_meas (s : State) (k : Nat) (f : Session → Session) : (s.setSession k f).meas = s.meas := rfl
@[simp] theorem State.setSession_bill (s : State) (k : Nat) (f : Session → Session) : (s.setSession k f).bill = s.bill := rfl
@[simp] theorem State.setSession_line (s : State) (k : Nat) (f : Session → Session) : (s.setSession k f).line = s.line := rfl
@[simp] theorem State.setSession_mesh (s : State) (k : Nat) (f : Session → Session) : (s.setSession k f).mesh = s.mesh := rfl
@[simp] theorem State.setSession_store (s : State) (k : Nat) (f : Session → Session) : (s.setSession k f).store = s.store := rfl
@[simp] theorem State.setSession_sec (s : State) (k : Nat) (f : Session → Session) : (s.setSession k f).sec = s.sec := rfl
@[simp] theorem State.setSession_health (s : State) (k : Nat) (f : Session → Session) : (s.setSession k f).health = s.health := rfl
@[simp] theorem State.setSession_gate (s : State) (k : Nat) (f : Session → Session) : (s.setSession k f).gate = s.gate := rfl
@[simp] theorem State.setSession_power (s : State) (k : Nat) (f : Session → Session) : (s.setSession k f).power = s.power := rfl
@[simp] theorem State.setSession_pins (s : State) (k : Nat) (f : Session → Session) : (s.setSession k f).pins = s.pins := rfl
@[simp] theorem State.setSession_draws (s : State) (k : Nat) (f : Session → Session) : (s.setSession k f).draws = s.draws := rfl
@[simp] theorem State.setSession_pending (s : State) (k : Nat) (f : Session → Session) : (s.setSession k f).pending = s.pending := rfl

@[simp] theorem State.setPort_phase (s : State) (p : Port) (f : PortState → PortState) : (s.setPort p f).phase = s.phase := by cases p <;> rfl
@[simp] theorem State.setPort_now (s : State) (p : Port) (f : PortState → PortState) : (s.setPort p f).now = s.now := by cases p <;> rfl
@[simp] theorem State.setPort_clock (s : State) (p : Port) (f : PortState → PortState) : (s.setPort p f).clock = s.clock := by cases p <;> rfl
@[simp] theorem State.setPort_channels (s : State) (p : Port) (f : PortState → PortState) : (s.setPort p f).channels = s.channels := by cases p <;> rfl
@[simp] theorem State.setPort_converters (s : State) (p : Port) (f : PortState → PortState) : (s.setPort p f).converters = s.converters := by cases p <;> rfl
@[simp] theorem State.setPort_dies (s : State) (p : Port) (f : PortState → PortState) : (s.setPort p f).dies = s.dies := by cases p <;> rfl
@[simp] theorem State.setPort_samplePhase (s : State) (p : Port) (f : PortState → PortState) : (s.setPort p f).samplePhase = s.samplePhase := by cases p <;> rfl
@[simp] theorem State.setPort_timers (s : State) (p : Port) (f : PortState → PortState) : (s.setPort p f).timers = s.timers := by cases p <;> rfl
@[simp] theorem State.setPort_tracker (s : State) (p : Port) (f : PortState → PortState) : (s.setPort p f).tracker = s.tracker := by cases p <;> rfl
@[simp] theorem State.setPort_captures (s : State) (p : Port) (f : PortState → PortState) : (s.setPort p f).captures = s.captures := by cases p <;> rfl
@[simp] theorem State.setPort_sweep (s : State) (p : Port) (f : PortState → PortState) : (s.setPort p f).sweep = s.sweep := by cases p <;> rfl
@[simp] theorem State.setPort_cal (s : State) (p : Port) (f : PortState → PortState) : (s.setPort p f).cal = s.cal := by cases p <;> rfl
@[simp] theorem State.setPort_meas (s : State) (p : Port) (f : PortState → PortState) : (s.setPort p f).meas = s.meas := by cases p <;> rfl
@[simp] theorem State.setPort_bill (s : State) (p : Port) (f : PortState → PortState) : (s.setPort p f).bill = s.bill := by cases p <;> rfl
@[simp] theorem State.setPort_line (s : State) (p : Port) (f : PortState → PortState) : (s.setPort p f).line = s.line := by cases p <;> rfl
@[simp] theorem State.setPort_mesh (s : State) (p : Port) (f : PortState → PortState) : (s.setPort p f).mesh = s.mesh := by cases p <;> rfl
@[simp] theorem State.setPort_store (s : State) (p : Port) (f : PortState → PortState) : (s.setPort p f).store = s.store := by cases p <;> rfl
@[simp] theorem State.setPort_sec (s : State) (p : Port) (f : PortState → PortState) : (s.setPort p f).sec = s.sec := by cases p <;> rfl
@[simp] theorem State.setPort_health (s : State) (p : Port) (f : PortState → PortState) : (s.setPort p f).health = s.health := by cases p <;> rfl
@[simp] theorem State.setPort_gate (s : State) (p : Port) (f : PortState → PortState) : (s.setPort p f).gate = s.gate := by cases p <;> rfl
@[simp] theorem State.setPort_power (s : State) (p : Port) (f : PortState → PortState) : (s.setPort p f).power = s.power := by cases p <;> rfl
@[simp] theorem State.setPort_pins (s : State) (p : Port) (f : PortState → PortState) : (s.setPort p f).pins = s.pins := by cases p <;> rfl
@[simp] theorem State.setPort_draws (s : State) (p : Port) (f : PortState → PortState) : (s.setPort p f).draws = s.draws := by cases p <;> rfl
@[simp] theorem State.setPort_pending (s : State) (p : Port) (f : PortState → PortState) : (s.setPort p f).pending = s.pending := by cases p <;> rfl

@[simp] theorem State.take_phase (s : State) (p : Port) : (s.take p).phase = s.phase := by cases p <;> rfl
@[simp] theorem State.take_now (s : State) (p : Port) : (s.take p).now = s.now := by cases p <;> rfl
@[simp] theorem State.take_clock (s : State) (p : Port) : (s.take p).clock = s.clock := by cases p <;> rfl
@[simp] theorem State.take_channels (s : State) (p : Port) : (s.take p).channels = s.channels := by cases p <;> rfl
@[simp] theorem State.take_converters (s : State) (p : Port) : (s.take p).converters = s.converters := by cases p <;> rfl
@[simp] theorem State.take_dies (s : State) (p : Port) : (s.take p).dies = s.dies := by cases p <;> rfl
@[simp] theorem State.take_samplePhase (s : State) (p : Port) : (s.take p).samplePhase = s.samplePhase := by cases p <;> rfl
@[simp] theorem State.take_timers (s : State) (p : Port) : (s.take p).timers = s.timers := by cases p <;> rfl
@[simp] theorem State.take_tracker (s : State) (p : Port) : (s.take p).tracker = s.tracker := by cases p <;> rfl
@[simp] theorem State.take_captures (s : State) (p : Port) : (s.take p).captures = s.captures := by cases p <;> rfl
@[simp] theorem State.take_sweep (s : State) (p : Port) : (s.take p).sweep = s.sweep := by cases p <;> rfl
@[simp] theorem State.take_cal (s : State) (p : Port) : (s.take p).cal = s.cal := by cases p <;> rfl
@[simp] theorem State.take_meas (s : State) (p : Port) : (s.take p).meas = s.meas := by cases p <;> rfl
@[simp] theorem State.take_bill (s : State) (p : Port) : (s.take p).bill = s.bill := by cases p <;> rfl
@[simp] theorem State.take_line (s : State) (p : Port) : (s.take p).line = s.line := by cases p <;> rfl
@[simp] theorem State.take_mesh (s : State) (p : Port) : (s.take p).mesh = s.mesh := by cases p <;> rfl
@[simp] theorem State.take_store (s : State) (p : Port) : (s.take p).store = s.store := by cases p <;> rfl
@[simp] theorem State.take_sec (s : State) (p : Port) : (s.take p).sec = s.sec := by cases p <;> rfl
@[simp] theorem State.take_health (s : State) (p : Port) : (s.take p).health = s.health := by cases p <;> rfl
@[simp] theorem State.take_gate (s : State) (p : Port) : (s.take p).gate = s.gate := by cases p <;> rfl
@[simp] theorem State.take_power (s : State) (p : Port) : (s.take p).power = s.power := by cases p <;> rfl
@[simp] theorem State.take_pins (s : State) (p : Port) : (s.take p).pins = s.pins := by cases p <;> rfl
@[simp] theorem State.take_draws (s : State) (p : Port) : (s.take p).draws = s.draws := by cases p <;> rfl
@[simp] theorem State.take_pending (s : State) (p : Port) : (s.take p).pending = s.pending := by cases p <;> rfl

@[simp] theorem State.setCapture_phase (s : State) (r : Nat) (f : Capture → Capture) : (s.setCapture r f).phase = s.phase := rfl
@[simp] theorem State.setCapture_now (s : State) (r : Nat) (f : Capture → Capture) : (s.setCapture r f).now = s.now := rfl
@[simp] theorem State.setCapture_host (s : State) (r : Nat) (f : Capture → Capture) : (s.setCapture r f).host = s.host := rfl
@[simp] theorem State.setCapture_clock (s : State) (r : Nat) (f : Capture → Capture) : (s.setCapture r f).clock = s.clock := rfl
@[simp] theorem State.setCapture_channels (s : State) (r : Nat) (f : Capture → Capture) : (s.setCapture r f).channels = s.channels := rfl
@[simp] theorem State.setCapture_converters (s : State) (r : Nat) (f : Capture → Capture) : (s.setCapture r f).converters = s.converters := rfl
@[simp] theorem State.setCapture_dies (s : State) (r : Nat) (f : Capture → Capture) : (s.setCapture r f).dies = s.dies := rfl
@[simp] theorem State.setCapture_samplePhase (s : State) (r : Nat) (f : Capture → Capture) : (s.setCapture r f).samplePhase = s.samplePhase := rfl
@[simp] theorem State.setCapture_timers (s : State) (r : Nat) (f : Capture → Capture) : (s.setCapture r f).timers = s.timers := rfl
@[simp] theorem State.setCapture_tracker (s : State) (r : Nat) (f : Capture → Capture) : (s.setCapture r f).tracker = s.tracker := rfl
@[simp] theorem State.setCapture_sweep (s : State) (r : Nat) (f : Capture → Capture) : (s.setCapture r f).sweep = s.sweep := rfl
@[simp] theorem State.setCapture_cal (s : State) (r : Nat) (f : Capture → Capture) : (s.setCapture r f).cal = s.cal := rfl
@[simp] theorem State.setCapture_meas (s : State) (r : Nat) (f : Capture → Capture) : (s.setCapture r f).meas = s.meas := rfl
@[simp] theorem State.setCapture_bill (s : State) (r : Nat) (f : Capture → Capture) : (s.setCapture r f).bill = s.bill := rfl
@[simp] theorem State.setCapture_line (s : State) (r : Nat) (f : Capture → Capture) : (s.setCapture r f).line = s.line := rfl
@[simp] theorem State.setCapture_mesh (s : State) (r : Nat) (f : Capture → Capture) : (s.setCapture r f).mesh = s.mesh := rfl
@[simp] theorem State.setCapture_store (s : State) (r : Nat) (f : Capture → Capture) : (s.setCapture r f).store = s.store := rfl
@[simp] theorem State.setCapture_sec (s : State) (r : Nat) (f : Capture → Capture) : (s.setCapture r f).sec = s.sec := rfl
@[simp] theorem State.setCapture_health (s : State) (r : Nat) (f : Capture → Capture) : (s.setCapture r f).health = s.health := rfl
@[simp] theorem State.setCapture_gate (s : State) (r : Nat) (f : Capture → Capture) : (s.setCapture r f).gate = s.gate := rfl
@[simp] theorem State.setCapture_power (s : State) (r : Nat) (f : Capture → Capture) : (s.setCapture r f).power = s.power := rfl
@[simp] theorem State.setCapture_pins (s : State) (r : Nat) (f : Capture → Capture) : (s.setCapture r f).pins = s.pins := rfl
@[simp] theorem State.setCapture_draws (s : State) (r : Nat) (f : Capture → Capture) : (s.setCapture r f).draws = s.draws := rfl
@[simp] theorem State.setCapture_pending (s : State) (r : Nat) (f : Capture → Capture) : (s.setCapture r f).pending = s.pending := rfl

@[simp] theorem State.setCtx_phase (s : State) (serial : Nat) (f : Context → Context) : (s.setCtx serial f).phase = s.phase := rfl
@[simp] theorem State.setCtx_now (s : State) (serial : Nat) (f : Context → Context) : (s.setCtx serial f).now = s.now := rfl
@[simp] theorem State.setCtx_host (s : State) (serial : Nat) (f : Context → Context) : (s.setCtx serial f).host = s.host := rfl
@[simp] theorem State.setCtx_clock (s : State) (serial : Nat) (f : Context → Context) : (s.setCtx serial f).clock = s.clock := rfl
@[simp] theorem State.setCtx_channels (s : State) (serial : Nat) (f : Context → Context) : (s.setCtx serial f).channels = s.channels := rfl
@[simp] theorem State.setCtx_converters (s : State) (serial : Nat) (f : Context → Context) : (s.setCtx serial f).converters = s.converters := rfl
@[simp] theorem State.setCtx_dies (s : State) (serial : Nat) (f : Context → Context) : (s.setCtx serial f).dies = s.dies := rfl
@[simp] theorem State.setCtx_samplePhase (s : State) (serial : Nat) (f : Context → Context) : (s.setCtx serial f).samplePhase = s.samplePhase := rfl
@[simp] theorem State.setCtx_timers (s : State) (serial : Nat) (f : Context → Context) : (s.setCtx serial f).timers = s.timers := rfl
@[simp] theorem State.setCtx_tracker (s : State) (serial : Nat) (f : Context → Context) : (s.setCtx serial f).tracker = s.tracker := rfl
@[simp] theorem State.setCtx_captures (s : State) (serial : Nat) (f : Context → Context) : (s.setCtx serial f).captures = s.captures := rfl
@[simp] theorem State.setCtx_sweep (s : State) (serial : Nat) (f : Context → Context) : (s.setCtx serial f).sweep = s.sweep := rfl
@[simp] theorem State.setCtx_cal (s : State) (serial : Nat) (f : Context → Context) : (s.setCtx serial f).cal = s.cal := rfl
@[simp] theorem State.setCtx_meas (s : State) (serial : Nat) (f : Context → Context) : (s.setCtx serial f).meas = s.meas := rfl
@[simp] theorem State.setCtx_line (s : State) (serial : Nat) (f : Context → Context) : (s.setCtx serial f).line = s.line := rfl
@[simp] theorem State.setCtx_mesh (s : State) (serial : Nat) (f : Context → Context) : (s.setCtx serial f).mesh = s.mesh := rfl
@[simp] theorem State.setCtx_store (s : State) (serial : Nat) (f : Context → Context) : (s.setCtx serial f).store = s.store := rfl
@[simp] theorem State.setCtx_sec (s : State) (serial : Nat) (f : Context → Context) : (s.setCtx serial f).sec = s.sec := rfl
@[simp] theorem State.setCtx_health (s : State) (serial : Nat) (f : Context → Context) : (s.setCtx serial f).health = s.health := rfl
@[simp] theorem State.setCtx_gate (s : State) (serial : Nat) (f : Context → Context) : (s.setCtx serial f).gate = s.gate := rfl
@[simp] theorem State.setCtx_power (s : State) (serial : Nat) (f : Context → Context) : (s.setCtx serial f).power = s.power := rfl
@[simp] theorem State.setCtx_pins (s : State) (serial : Nat) (f : Context → Context) : (s.setCtx serial f).pins = s.pins := rfl
@[simp] theorem State.setCtx_draws (s : State) (serial : Nat) (f : Context → Context) : (s.setCtx serial f).draws = s.draws := rfl
@[simp] theorem State.setCtx_pending (s : State) (serial : Nat) (f : Context → Context) : (s.setCtx serial f).pending = s.pending := rfl

@[simp] theorem State.setGroup_phase (s : State) (g : Nat) (f : Group → Group) : (s.setGroup g f).phase = s.phase := rfl
@[simp] theorem State.setGroup_now (s : State) (g : Nat) (f : Group → Group) : (s.setGroup g f).now = s.now := rfl
@[simp] theorem State.setGroup_host (s : State) (g : Nat) (f : Group → Group) : (s.setGroup g f).host = s.host := rfl
@[simp] theorem State.setGroup_clock (s : State) (g : Nat) (f : Group → Group) : (s.setGroup g f).clock = s.clock := rfl
@[simp] theorem State.setGroup_channels (s : State) (g : Nat) (f : Group → Group) : (s.setGroup g f).channels = s.channels := rfl
@[simp] theorem State.setGroup_converters (s : State) (g : Nat) (f : Group → Group) : (s.setGroup g f).converters = s.converters := rfl
@[simp] theorem State.setGroup_dies (s : State) (g : Nat) (f : Group → Group) : (s.setGroup g f).dies = s.dies := rfl
@[simp] theorem State.setGroup_samplePhase (s : State) (g : Nat) (f : Group → Group) : (s.setGroup g f).samplePhase = s.samplePhase := rfl
@[simp] theorem State.setGroup_timers (s : State) (g : Nat) (f : Group → Group) : (s.setGroup g f).timers = s.timers := rfl
@[simp] theorem State.setGroup_tracker (s : State) (g : Nat) (f : Group → Group) : (s.setGroup g f).tracker = s.tracker := rfl
@[simp] theorem State.setGroup_captures (s : State) (g : Nat) (f : Group → Group) : (s.setGroup g f).captures = s.captures := rfl
@[simp] theorem State.setGroup_sweep (s : State) (g : Nat) (f : Group → Group) : (s.setGroup g f).sweep = s.sweep := rfl
@[simp] theorem State.setGroup_cal (s : State) (g : Nat) (f : Group → Group) : (s.setGroup g f).cal = s.cal := rfl
@[simp] theorem State.setGroup_meas (s : State) (g : Nat) (f : Group → Group) : (s.setGroup g f).meas = s.meas := rfl
@[simp] theorem State.setGroup_line (s : State) (g : Nat) (f : Group → Group) : (s.setGroup g f).line = s.line := rfl
@[simp] theorem State.setGroup_mesh (s : State) (g : Nat) (f : Group → Group) : (s.setGroup g f).mesh = s.mesh := rfl
@[simp] theorem State.setGroup_store (s : State) (g : Nat) (f : Group → Group) : (s.setGroup g f).store = s.store := rfl
@[simp] theorem State.setGroup_sec (s : State) (g : Nat) (f : Group → Group) : (s.setGroup g f).sec = s.sec := rfl
@[simp] theorem State.setGroup_health (s : State) (g : Nat) (f : Group → Group) : (s.setGroup g f).health = s.health := rfl
@[simp] theorem State.setGroup_gate (s : State) (g : Nat) (f : Group → Group) : (s.setGroup g f).gate = s.gate := rfl
@[simp] theorem State.setGroup_power (s : State) (g : Nat) (f : Group → Group) : (s.setGroup g f).power = s.power := rfl
@[simp] theorem State.setGroup_pins (s : State) (g : Nat) (f : Group → Group) : (s.setGroup g f).pins = s.pins := rfl
@[simp] theorem State.setGroup_draws (s : State) (g : Nat) (f : Group → Group) : (s.setGroup g f).draws = s.draws := rfl
@[simp] theorem State.setGroup_pending (s : State) (g : Nat) (f : Group → Group) : (s.setGroup g f).pending = s.pending := rfl

@[simp] theorem State.setLine_phase (s : State) (f : LineState → LineState) : (s.setLine f).phase = s.phase := rfl
@[simp] theorem State.setLine_now (s : State) (f : LineState → LineState) : (s.setLine f).now = s.now := rfl
@[simp] theorem State.setLine_host (s : State) (f : LineState → LineState) : (s.setLine f).host = s.host := rfl
@[simp] theorem State.setLine_clock (s : State) (f : LineState → LineState) : (s.setLine f).clock = s.clock := rfl
@[simp] theorem State.setLine_channels (s : State) (f : LineState → LineState) : (s.setLine f).channels = s.channels := rfl
@[simp] theorem State.setLine_converters (s : State) (f : LineState → LineState) : (s.setLine f).converters = s.converters := rfl
@[simp] theorem State.setLine_dies (s : State) (f : LineState → LineState) : (s.setLine f).dies = s.dies := rfl
@[simp] theorem State.setLine_samplePhase (s : State) (f : LineState → LineState) : (s.setLine f).samplePhase = s.samplePhase := rfl
@[simp] theorem State.setLine_timers (s : State) (f : LineState → LineState) : (s.setLine f).timers = s.timers := rfl
@[simp] theorem State.setLine_tracker (s : State) (f : LineState → LineState) : (s.setLine f).tracker = s.tracker := rfl
@[simp] theorem State.setLine_captures (s : State) (f : LineState → LineState) : (s.setLine f).captures = s.captures := rfl
@[simp] theorem State.setLine_sweep (s : State) (f : LineState → LineState) : (s.setLine f).sweep = s.sweep := rfl
@[simp] theorem State.setLine_cal (s : State) (f : LineState → LineState) : (s.setLine f).cal = s.cal := rfl
@[simp] theorem State.setLine_meas (s : State) (f : LineState → LineState) : (s.setLine f).meas = s.meas := rfl
@[simp] theorem State.setLine_bill (s : State) (f : LineState → LineState) : (s.setLine f).bill = s.bill := rfl
@[simp] theorem State.setLine_mesh (s : State) (f : LineState → LineState) : (s.setLine f).mesh = s.mesh := rfl
@[simp] theorem State.setLine_store (s : State) (f : LineState → LineState) : (s.setLine f).store = s.store := rfl
@[simp] theorem State.setLine_sec (s : State) (f : LineState → LineState) : (s.setLine f).sec = s.sec := rfl
@[simp] theorem State.setLine_health (s : State) (f : LineState → LineState) : (s.setLine f).health = s.health := rfl
@[simp] theorem State.setLine_gate (s : State) (f : LineState → LineState) : (s.setLine f).gate = s.gate := rfl
@[simp] theorem State.setLine_power (s : State) (f : LineState → LineState) : (s.setLine f).power = s.power := rfl
@[simp] theorem State.setLine_pins (s : State) (f : LineState → LineState) : (s.setLine f).pins = s.pins := rfl
@[simp] theorem State.setLine_draws (s : State) (f : LineState → LineState) : (s.setLine f).draws = s.draws := rfl
@[simp] theorem State.setLine_pending (s : State) (f : LineState → LineState) : (s.setLine f).pending = s.pending := rfl

@[simp] theorem State.setMesh_phase (s : State) (f : MeshState → MeshState) : (s.setMesh f).phase = s.phase := rfl
@[simp] theorem State.setMesh_now (s : State) (f : MeshState → MeshState) : (s.setMesh f).now = s.now := rfl
@[simp] theorem State.setMesh_host (s : State) (f : MeshState → MeshState) : (s.setMesh f).host = s.host := rfl
@[simp] theorem State.setMesh_clock (s : State) (f : MeshState → MeshState) : (s.setMesh f).clock = s.clock := rfl
@[simp] theorem State.setMesh_channels (s : State) (f : MeshState → MeshState) : (s.setMesh f).channels = s.channels := rfl
@[simp] theorem State.setMesh_converters (s : State) (f : MeshState → MeshState) : (s.setMesh f).converters = s.converters := rfl
@[simp] theorem State.setMesh_dies (s : State) (f : MeshState → MeshState) : (s.setMesh f).dies = s.dies := rfl
@[simp] theorem State.setMesh_samplePhase (s : State) (f : MeshState → MeshState) : (s.setMesh f).samplePhase = s.samplePhase := rfl
@[simp] theorem State.setMesh_timers (s : State) (f : MeshState → MeshState) : (s.setMesh f).timers = s.timers := rfl
@[simp] theorem State.setMesh_tracker (s : State) (f : MeshState → MeshState) : (s.setMesh f).tracker = s.tracker := rfl
@[simp] theorem State.setMesh_captures (s : State) (f : MeshState → MeshState) : (s.setMesh f).captures = s.captures := rfl
@[simp] theorem State.setMesh_sweep (s : State) (f : MeshState → MeshState) : (s.setMesh f).sweep = s.sweep := rfl
@[simp] theorem State.setMesh_cal (s : State) (f : MeshState → MeshState) : (s.setMesh f).cal = s.cal := rfl
@[simp] theorem State.setMesh_meas (s : State) (f : MeshState → MeshState) : (s.setMesh f).meas = s.meas := rfl
@[simp] theorem State.setMesh_bill (s : State) (f : MeshState → MeshState) : (s.setMesh f).bill = s.bill := rfl
@[simp] theorem State.setMesh_line (s : State) (f : MeshState → MeshState) : (s.setMesh f).line = s.line := rfl
@[simp] theorem State.setMesh_store (s : State) (f : MeshState → MeshState) : (s.setMesh f).store = s.store := rfl
@[simp] theorem State.setMesh_sec (s : State) (f : MeshState → MeshState) : (s.setMesh f).sec = s.sec := rfl
@[simp] theorem State.setMesh_health (s : State) (f : MeshState → MeshState) : (s.setMesh f).health = s.health := rfl
@[simp] theorem State.setMesh_gate (s : State) (f : MeshState → MeshState) : (s.setMesh f).gate = s.gate := rfl
@[simp] theorem State.setMesh_power (s : State) (f : MeshState → MeshState) : (s.setMesh f).power = s.power := rfl
@[simp] theorem State.setMesh_pins (s : State) (f : MeshState → MeshState) : (s.setMesh f).pins = s.pins := rfl
@[simp] theorem State.setMesh_draws (s : State) (f : MeshState → MeshState) : (s.setMesh f).draws = s.draws := rfl
@[simp] theorem State.setMesh_pending (s : State) (f : MeshState → MeshState) : (s.setMesh f).pending = s.pending := rfl

@[simp] theorem State.setBoot_phase (s : State) (f : BootTable → BootTable) : (s.setBoot f).phase = s.phase := rfl
@[simp] theorem State.setBoot_now (s : State) (f : BootTable → BootTable) : (s.setBoot f).now = s.now := rfl
@[simp] theorem State.setBoot_host (s : State) (f : BootTable → BootTable) : (s.setBoot f).host = s.host := rfl
@[simp] theorem State.setBoot_clock (s : State) (f : BootTable → BootTable) : (s.setBoot f).clock = s.clock := rfl
@[simp] theorem State.setBoot_channels (s : State) (f : BootTable → BootTable) : (s.setBoot f).channels = s.channels := rfl
@[simp] theorem State.setBoot_converters (s : State) (f : BootTable → BootTable) : (s.setBoot f).converters = s.converters := rfl
@[simp] theorem State.setBoot_dies (s : State) (f : BootTable → BootTable) : (s.setBoot f).dies = s.dies := rfl
@[simp] theorem State.setBoot_samplePhase (s : State) (f : BootTable → BootTable) : (s.setBoot f).samplePhase = s.samplePhase := rfl
@[simp] theorem State.setBoot_timers (s : State) (f : BootTable → BootTable) : (s.setBoot f).timers = s.timers := rfl
@[simp] theorem State.setBoot_tracker (s : State) (f : BootTable → BootTable) : (s.setBoot f).tracker = s.tracker := rfl
@[simp] theorem State.setBoot_captures (s : State) (f : BootTable → BootTable) : (s.setBoot f).captures = s.captures := rfl
@[simp] theorem State.setBoot_sweep (s : State) (f : BootTable → BootTable) : (s.setBoot f).sweep = s.sweep := rfl
@[simp] theorem State.setBoot_cal (s : State) (f : BootTable → BootTable) : (s.setBoot f).cal = s.cal := rfl
@[simp] theorem State.setBoot_meas (s : State) (f : BootTable → BootTable) : (s.setBoot f).meas = s.meas := rfl
@[simp] theorem State.setBoot_bill (s : State) (f : BootTable → BootTable) : (s.setBoot f).bill = s.bill := rfl
@[simp] theorem State.setBoot_line (s : State) (f : BootTable → BootTable) : (s.setBoot f).line = s.line := rfl
@[simp] theorem State.setBoot_mesh (s : State) (f : BootTable → BootTable) : (s.setBoot f).mesh = s.mesh := rfl
@[simp] theorem State.setBoot_sec (s : State) (f : BootTable → BootTable) : (s.setBoot f).sec = s.sec := rfl
@[simp] theorem State.setBoot_health (s : State) (f : BootTable → BootTable) : (s.setBoot f).health = s.health := rfl
@[simp] theorem State.setBoot_gate (s : State) (f : BootTable → BootTable) : (s.setBoot f).gate = s.gate := rfl
@[simp] theorem State.setBoot_power (s : State) (f : BootTable → BootTable) : (s.setBoot f).power = s.power := rfl
@[simp] theorem State.setBoot_pins (s : State) (f : BootTable → BootTable) : (s.setBoot f).pins = s.pins := rfl
@[simp] theorem State.setBoot_draws (s : State) (f : BootTable → BootTable) : (s.setBoot f).draws = s.draws := rfl
@[simp] theorem State.setBoot_pending (s : State) (f : BootTable → BootTable) : (s.setBoot f).pending = s.pending := rfl

@[simp] theorem State.setCarrier_phase (s : State) (n : Nat) (c : Carrier) (interrupted : Bool) : (s.setCarrier n c interrupted).phase = s.phase := rfl
@[simp] theorem State.setCarrier_now (s : State) (n : Nat) (c : Carrier) (interrupted : Bool) : (s.setCarrier n c interrupted).now = s.now := rfl
@[simp] theorem State.setCarrier_host (s : State) (n : Nat) (c : Carrier) (interrupted : Bool) : (s.setCarrier n c interrupted).host = s.host := rfl
@[simp] theorem State.setCarrier_clock (s : State) (n : Nat) (c : Carrier) (interrupted : Bool) : (s.setCarrier n c interrupted).clock = s.clock := rfl
@[simp] theorem State.setCarrier_converters (s : State) (n : Nat) (c : Carrier) (interrupted : Bool) : (s.setCarrier n c interrupted).converters = s.converters := rfl
@[simp] theorem State.setCarrier_dies (s : State) (n : Nat) (c : Carrier) (interrupted : Bool) : (s.setCarrier n c interrupted).dies = s.dies := rfl
@[simp] theorem State.setCarrier_samplePhase (s : State) (n : Nat) (c : Carrier) (interrupted : Bool) : (s.setCarrier n c interrupted).samplePhase = s.samplePhase := rfl
@[simp] theorem State.setCarrier_timers (s : State) (n : Nat) (c : Carrier) (interrupted : Bool) : (s.setCarrier n c interrupted).timers = s.timers := rfl
@[simp] theorem State.setCarrier_tracker (s : State) (n : Nat) (c : Carrier) (interrupted : Bool) : (s.setCarrier n c interrupted).tracker = s.tracker := rfl
@[simp] theorem State.setCarrier_captures (s : State) (n : Nat) (c : Carrier) (interrupted : Bool) : (s.setCarrier n c interrupted).captures = s.captures := rfl
@[simp] theorem State.setCarrier_sweep (s : State) (n : Nat) (c : Carrier) (interrupted : Bool) : (s.setCarrier n c interrupted).sweep = s.sweep := rfl
@[simp] theorem State.setCarrier_cal (s : State) (n : Nat) (c : Carrier) (interrupted : Bool) : (s.setCarrier n c interrupted).cal = s.cal := rfl
@[simp] theorem State.setCarrier_meas (s : State) (n : Nat) (c : Carrier) (interrupted : Bool) : (s.setCarrier n c interrupted).meas = s.meas := rfl
@[simp] theorem State.setCarrier_bill (s : State) (n : Nat) (c : Carrier) (interrupted : Bool) : (s.setCarrier n c interrupted).bill = s.bill := rfl
@[simp] theorem State.setCarrier_line (s : State) (n : Nat) (c : Carrier) (interrupted : Bool) : (s.setCarrier n c interrupted).line = s.line := rfl
@[simp] theorem State.setCarrier_mesh (s : State) (n : Nat) (c : Carrier) (interrupted : Bool) : (s.setCarrier n c interrupted).mesh = s.mesh := rfl
@[simp] theorem State.setCarrier_store (s : State) (n : Nat) (c : Carrier) (interrupted : Bool) : (s.setCarrier n c interrupted).store = s.store := rfl
@[simp] theorem State.setCarrier_sec (s : State) (n : Nat) (c : Carrier) (interrupted : Bool) : (s.setCarrier n c interrupted).sec = s.sec := rfl
@[simp] theorem State.setCarrier_health (s : State) (n : Nat) (c : Carrier) (interrupted : Bool) : (s.setCarrier n c interrupted).health = s.health := rfl
@[simp] theorem State.setCarrier_gate (s : State) (n : Nat) (c : Carrier) (interrupted : Bool) : (s.setCarrier n c interrupted).gate = s.gate := rfl
@[simp] theorem State.setCarrier_power (s : State) (n : Nat) (c : Carrier) (interrupted : Bool) : (s.setCarrier n c interrupted).power = s.power := rfl
@[simp] theorem State.setCarrier_pins (s : State) (n : Nat) (c : Carrier) (interrupted : Bool) : (s.setCarrier n c interrupted).pins = s.pins := rfl
@[simp] theorem State.setCarrier_draws (s : State) (n : Nat) (c : Carrier) (interrupted : Bool) : (s.setCarrier n c interrupted).draws = s.draws := rfl
@[simp] theorem State.setCarrier_pending (s : State) (n : Nat) (c : Carrier) (interrupted : Bool) : (s.setCarrier n c interrupted).pending = s.pending := rfl

@[simp] theorem State.setCal_phase (s : State) (u : Nat) (f : Calibration → Calibration) : (s.setCal u f).phase = s.phase := rfl
@[simp] theorem State.setCal_now (s : State) (u : Nat) (f : Calibration → Calibration) : (s.setCal u f).now = s.now := rfl
@[simp] theorem State.setCal_host (s : State) (u : Nat) (f : Calibration → Calibration) : (s.setCal u f).host = s.host := rfl
@[simp] theorem State.setCal_clock (s : State) (u : Nat) (f : Calibration → Calibration) : (s.setCal u f).clock = s.clock := rfl
@[simp] theorem State.setCal_channels (s : State) (u : Nat) (f : Calibration → Calibration) : (s.setCal u f).channels = s.channels := rfl
@[simp] theorem State.setCal_dies (s : State) (u : Nat) (f : Calibration → Calibration) : (s.setCal u f).dies = s.dies := rfl
@[simp] theorem State.setCal_samplePhase (s : State) (u : Nat) (f : Calibration → Calibration) : (s.setCal u f).samplePhase = s.samplePhase := rfl
@[simp] theorem State.setCal_timers (s : State) (u : Nat) (f : Calibration → Calibration) : (s.setCal u f).timers = s.timers := rfl
@[simp] theorem State.setCal_tracker (s : State) (u : Nat) (f : Calibration → Calibration) : (s.setCal u f).tracker = s.tracker := rfl
@[simp] theorem State.setCal_captures (s : State) (u : Nat) (f : Calibration → Calibration) : (s.setCal u f).captures = s.captures := rfl
@[simp] theorem State.setCal_sweep (s : State) (u : Nat) (f : Calibration → Calibration) : (s.setCal u f).sweep = s.sweep := rfl
@[simp] theorem State.setCal_cal (s : State) (u : Nat) (f : Calibration → Calibration) : (s.setCal u f).cal = s.cal := rfl
@[simp] theorem State.setCal_meas (s : State) (u : Nat) (f : Calibration → Calibration) : (s.setCal u f).meas = s.meas := rfl
@[simp] theorem State.setCal_bill (s : State) (u : Nat) (f : Calibration → Calibration) : (s.setCal u f).bill = s.bill := rfl
@[simp] theorem State.setCal_line (s : State) (u : Nat) (f : Calibration → Calibration) : (s.setCal u f).line = s.line := rfl
@[simp] theorem State.setCal_mesh (s : State) (u : Nat) (f : Calibration → Calibration) : (s.setCal u f).mesh = s.mesh := rfl
@[simp] theorem State.setCal_store (s : State) (u : Nat) (f : Calibration → Calibration) : (s.setCal u f).store = s.store := rfl
@[simp] theorem State.setCal_sec (s : State) (u : Nat) (f : Calibration → Calibration) : (s.setCal u f).sec = s.sec := rfl
@[simp] theorem State.setCal_health (s : State) (u : Nat) (f : Calibration → Calibration) : (s.setCal u f).health = s.health := rfl
@[simp] theorem State.setCal_gate (s : State) (u : Nat) (f : Calibration → Calibration) : (s.setCal u f).gate = s.gate := rfl
@[simp] theorem State.setCal_power (s : State) (u : Nat) (f : Calibration → Calibration) : (s.setCal u f).power = s.power := rfl
@[simp] theorem State.setCal_pins (s : State) (u : Nat) (f : Calibration → Calibration) : (s.setCal u f).pins = s.pins := rfl
@[simp] theorem State.setCal_draws (s : State) (u : Nat) (f : Calibration → Calibration) : (s.setCal u f).draws = s.draws := rfl
@[simp] theorem State.setCal_pending (s : State) (u : Nat) (f : Calibration → Calibration) : (s.setCal u f).pending = s.pending := rfl

@[simp] theorem State.setRunning_phase (s : State) (f : SweepOp → SweepOp) : (s.setRunning f).phase = s.phase := rfl
@[simp] theorem State.setRunning_now (s : State) (f : SweepOp → SweepOp) : (s.setRunning f).now = s.now := rfl
@[simp] theorem State.setRunning_host (s : State) (f : SweepOp → SweepOp) : (s.setRunning f).host = s.host := rfl
@[simp] theorem State.setRunning_clock (s : State) (f : SweepOp → SweepOp) : (s.setRunning f).clock = s.clock := rfl
@[simp] theorem State.setRunning_channels (s : State) (f : SweepOp → SweepOp) : (s.setRunning f).channels = s.channels := rfl
@[simp] theorem State.setRunning_converters (s : State) (f : SweepOp → SweepOp) : (s.setRunning f).converters = s.converters := rfl
@[simp] theorem State.setRunning_dies (s : State) (f : SweepOp → SweepOp) : (s.setRunning f).dies = s.dies := rfl
@[simp] theorem State.setRunning_samplePhase (s : State) (f : SweepOp → SweepOp) : (s.setRunning f).samplePhase = s.samplePhase := rfl
@[simp] theorem State.setRunning_timers (s : State) (f : SweepOp → SweepOp) : (s.setRunning f).timers = s.timers := rfl
@[simp] theorem State.setRunning_tracker (s : State) (f : SweepOp → SweepOp) : (s.setRunning f).tracker = s.tracker := rfl
@[simp] theorem State.setRunning_captures (s : State) (f : SweepOp → SweepOp) : (s.setRunning f).captures = s.captures := rfl
@[simp] theorem State.setRunning_cal (s : State) (f : SweepOp → SweepOp) : (s.setRunning f).cal = s.cal := rfl
@[simp] theorem State.setRunning_meas (s : State) (f : SweepOp → SweepOp) : (s.setRunning f).meas = s.meas := rfl
@[simp] theorem State.setRunning_bill (s : State) (f : SweepOp → SweepOp) : (s.setRunning f).bill = s.bill := rfl
@[simp] theorem State.setRunning_line (s : State) (f : SweepOp → SweepOp) : (s.setRunning f).line = s.line := rfl
@[simp] theorem State.setRunning_mesh (s : State) (f : SweepOp → SweepOp) : (s.setRunning f).mesh = s.mesh := rfl
@[simp] theorem State.setRunning_store (s : State) (f : SweepOp → SweepOp) : (s.setRunning f).store = s.store := rfl
@[simp] theorem State.setRunning_sec (s : State) (f : SweepOp → SweepOp) : (s.setRunning f).sec = s.sec := rfl
@[simp] theorem State.setRunning_health (s : State) (f : SweepOp → SweepOp) : (s.setRunning f).health = s.health := rfl
@[simp] theorem State.setRunning_gate (s : State) (f : SweepOp → SweepOp) : (s.setRunning f).gate = s.gate := rfl
@[simp] theorem State.setRunning_power (s : State) (f : SweepOp → SweepOp) : (s.setRunning f).power = s.power := rfl
@[simp] theorem State.setRunning_pins (s : State) (f : SweepOp → SweepOp) : (s.setRunning f).pins = s.pins := rfl
@[simp] theorem State.setRunning_draws (s : State) (f : SweepOp → SweepOp) : (s.setRunning f).draws = s.draws := rfl
@[simp] theorem State.setRunning_pending (s : State) (f : SweepOp → SweepOp) : (s.setRunning f).pending = s.pending := rfl

@[simp] theorem State.setQueue_phase (s : State) (k : Nat) (f : EventQueue → EventQueue) : (s.setQueue k f).phase = s.phase := rfl
@[simp] theorem State.setQueue_now (s : State) (k : Nat) (f : EventQueue → EventQueue) : (s.setQueue k f).now = s.now := rfl
@[simp] theorem State.setQueue_clock (s : State) (k : Nat) (f : EventQueue → EventQueue) : (s.setQueue k f).clock = s.clock := rfl
@[simp] theorem State.setQueue_channels (s : State) (k : Nat) (f : EventQueue → EventQueue) : (s.setQueue k f).channels = s.channels := rfl
@[simp] theorem State.setQueue_converters (s : State) (k : Nat) (f : EventQueue → EventQueue) : (s.setQueue k f).converters = s.converters := rfl
@[simp] theorem State.setQueue_dies (s : State) (k : Nat) (f : EventQueue → EventQueue) : (s.setQueue k f).dies = s.dies := rfl
@[simp] theorem State.setQueue_samplePhase (s : State) (k : Nat) (f : EventQueue → EventQueue) : (s.setQueue k f).samplePhase = s.samplePhase := rfl
@[simp] theorem State.setQueue_timers (s : State) (k : Nat) (f : EventQueue → EventQueue) : (s.setQueue k f).timers = s.timers := rfl
@[simp] theorem State.setQueue_tracker (s : State) (k : Nat) (f : EventQueue → EventQueue) : (s.setQueue k f).tracker = s.tracker := rfl
@[simp] theorem State.setQueue_captures (s : State) (k : Nat) (f : EventQueue → EventQueue) : (s.setQueue k f).captures = s.captures := rfl
@[simp] theorem State.setQueue_sweep (s : State) (k : Nat) (f : EventQueue → EventQueue) : (s.setQueue k f).sweep = s.sweep := rfl
@[simp] theorem State.setQueue_cal (s : State) (k : Nat) (f : EventQueue → EventQueue) : (s.setQueue k f).cal = s.cal := rfl
@[simp] theorem State.setQueue_meas (s : State) (k : Nat) (f : EventQueue → EventQueue) : (s.setQueue k f).meas = s.meas := rfl
@[simp] theorem State.setQueue_bill (s : State) (k : Nat) (f : EventQueue → EventQueue) : (s.setQueue k f).bill = s.bill := rfl
@[simp] theorem State.setQueue_line (s : State) (k : Nat) (f : EventQueue → EventQueue) : (s.setQueue k f).line = s.line := rfl
@[simp] theorem State.setQueue_mesh (s : State) (k : Nat) (f : EventQueue → EventQueue) : (s.setQueue k f).mesh = s.mesh := rfl
@[simp] theorem State.setQueue_store (s : State) (k : Nat) (f : EventQueue → EventQueue) : (s.setQueue k f).store = s.store := rfl
@[simp] theorem State.setQueue_sec (s : State) (k : Nat) (f : EventQueue → EventQueue) : (s.setQueue k f).sec = s.sec := rfl
@[simp] theorem State.setQueue_health (s : State) (k : Nat) (f : EventQueue → EventQueue) : (s.setQueue k f).health = s.health := rfl
@[simp] theorem State.setQueue_gate (s : State) (k : Nat) (f : EventQueue → EventQueue) : (s.setQueue k f).gate = s.gate := rfl
@[simp] theorem State.setQueue_power (s : State) (k : Nat) (f : EventQueue → EventQueue) : (s.setQueue k f).power = s.power := rfl
@[simp] theorem State.setQueue_pins (s : State) (k : Nat) (f : EventQueue → EventQueue) : (s.setQueue k f).pins = s.pins := rfl
@[simp] theorem State.setQueue_draws (s : State) (k : Nat) (f : EventQueue → EventQueue) : (s.setQueue k f).draws = s.draws := rfl
@[simp] theorem State.setQueue_pending (s : State) (k : Nat) (f : EventQueue → EventQueue) : (s.setQueue k f).pending = s.pending := rfl

@[simp] theorem State.setNode_phase (s : State) (address : Nat) (f : Node → Node) : (s.setNode address f).phase = s.phase := rfl
@[simp] theorem State.setNode_now (s : State) (address : Nat) (f : Node → Node) : (s.setNode address f).now = s.now := rfl
@[simp] theorem State.setNode_host (s : State) (address : Nat) (f : Node → Node) : (s.setNode address f).host = s.host := rfl
@[simp] theorem State.setNode_clock (s : State) (address : Nat) (f : Node → Node) : (s.setNode address f).clock = s.clock := rfl
@[simp] theorem State.setNode_channels (s : State) (address : Nat) (f : Node → Node) : (s.setNode address f).channels = s.channels := rfl
@[simp] theorem State.setNode_converters (s : State) (address : Nat) (f : Node → Node) : (s.setNode address f).converters = s.converters := rfl
@[simp] theorem State.setNode_dies (s : State) (address : Nat) (f : Node → Node) : (s.setNode address f).dies = s.dies := rfl
@[simp] theorem State.setNode_samplePhase (s : State) (address : Nat) (f : Node → Node) : (s.setNode address f).samplePhase = s.samplePhase := rfl
@[simp] theorem State.setNode_timers (s : State) (address : Nat) (f : Node → Node) : (s.setNode address f).timers = s.timers := rfl
@[simp] theorem State.setNode_tracker (s : State) (address : Nat) (f : Node → Node) : (s.setNode address f).tracker = s.tracker := rfl
@[simp] theorem State.setNode_captures (s : State) (address : Nat) (f : Node → Node) : (s.setNode address f).captures = s.captures := rfl
@[simp] theorem State.setNode_sweep (s : State) (address : Nat) (f : Node → Node) : (s.setNode address f).sweep = s.sweep := rfl
@[simp] theorem State.setNode_cal (s : State) (address : Nat) (f : Node → Node) : (s.setNode address f).cal = s.cal := rfl
@[simp] theorem State.setNode_meas (s : State) (address : Nat) (f : Node → Node) : (s.setNode address f).meas = s.meas := rfl
@[simp] theorem State.setNode_bill (s : State) (address : Nat) (f : Node → Node) : (s.setNode address f).bill = s.bill := rfl
@[simp] theorem State.setNode_line (s : State) (address : Nat) (f : Node → Node) : (s.setNode address f).line = s.line := rfl
@[simp] theorem State.setNode_store (s : State) (address : Nat) (f : Node → Node) : (s.setNode address f).store = s.store := rfl
@[simp] theorem State.setNode_sec (s : State) (address : Nat) (f : Node → Node) : (s.setNode address f).sec = s.sec := rfl
@[simp] theorem State.setNode_health (s : State) (address : Nat) (f : Node → Node) : (s.setNode address f).health = s.health := rfl
@[simp] theorem State.setNode_gate (s : State) (address : Nat) (f : Node → Node) : (s.setNode address f).gate = s.gate := rfl
@[simp] theorem State.setNode_power (s : State) (address : Nat) (f : Node → Node) : (s.setNode address f).power = s.power := rfl
@[simp] theorem State.setNode_pins (s : State) (address : Nat) (f : Node → Node) : (s.setNode address f).pins = s.pins := rfl
@[simp] theorem State.setNode_draws (s : State) (address : Nat) (f : Node → Node) : (s.setNode address f).draws = s.draws := rfl
@[simp] theorem State.setNode_pending (s : State) (address : Nat) (f : Node → Node) : (s.setNode address f).pending = s.pending := rfl

@[simp] theorem State.setFlight_phase (s : State) (id : Nat) (f : Transaction → Transaction) : (s.setFlight id f).phase = s.phase := rfl
@[simp] theorem State.setFlight_now (s : State) (id : Nat) (f : Transaction → Transaction) : (s.setFlight id f).now = s.now := rfl
@[simp] theorem State.setFlight_host (s : State) (id : Nat) (f : Transaction → Transaction) : (s.setFlight id f).host = s.host := rfl
@[simp] theorem State.setFlight_clock (s : State) (id : Nat) (f : Transaction → Transaction) : (s.setFlight id f).clock = s.clock := rfl
@[simp] theorem State.setFlight_channels (s : State) (id : Nat) (f : Transaction → Transaction) : (s.setFlight id f).channels = s.channels := rfl
@[simp] theorem State.setFlight_converters (s : State) (id : Nat) (f : Transaction → Transaction) : (s.setFlight id f).converters = s.converters := rfl
@[simp] theorem State.setFlight_dies (s : State) (id : Nat) (f : Transaction → Transaction) : (s.setFlight id f).dies = s.dies := rfl
@[simp] theorem State.setFlight_samplePhase (s : State) (id : Nat) (f : Transaction → Transaction) : (s.setFlight id f).samplePhase = s.samplePhase := rfl
@[simp] theorem State.setFlight_timers (s : State) (id : Nat) (f : Transaction → Transaction) : (s.setFlight id f).timers = s.timers := rfl
@[simp] theorem State.setFlight_tracker (s : State) (id : Nat) (f : Transaction → Transaction) : (s.setFlight id f).tracker = s.tracker := rfl
@[simp] theorem State.setFlight_captures (s : State) (id : Nat) (f : Transaction → Transaction) : (s.setFlight id f).captures = s.captures := rfl
@[simp] theorem State.setFlight_sweep (s : State) (id : Nat) (f : Transaction → Transaction) : (s.setFlight id f).sweep = s.sweep := rfl
@[simp] theorem State.setFlight_cal (s : State) (id : Nat) (f : Transaction → Transaction) : (s.setFlight id f).cal = s.cal := rfl
@[simp] theorem State.setFlight_meas (s : State) (id : Nat) (f : Transaction → Transaction) : (s.setFlight id f).meas = s.meas := rfl
@[simp] theorem State.setFlight_bill (s : State) (id : Nat) (f : Transaction → Transaction) : (s.setFlight id f).bill = s.bill := rfl
@[simp] theorem State.setFlight_line (s : State) (id : Nat) (f : Transaction → Transaction) : (s.setFlight id f).line = s.line := rfl
@[simp] theorem State.setFlight_store (s : State) (id : Nat) (f : Transaction → Transaction) : (s.setFlight id f).store = s.store := rfl
@[simp] theorem State.setFlight_sec (s : State) (id : Nat) (f : Transaction → Transaction) : (s.setFlight id f).sec = s.sec := rfl
@[simp] theorem State.setFlight_health (s : State) (id : Nat) (f : Transaction → Transaction) : (s.setFlight id f).health = s.health := rfl
@[simp] theorem State.setFlight_gate (s : State) (id : Nat) (f : Transaction → Transaction) : (s.setFlight id f).gate = s.gate := rfl
@[simp] theorem State.setFlight_power (s : State) (id : Nat) (f : Transaction → Transaction) : (s.setFlight id f).power = s.power := rfl
@[simp] theorem State.setFlight_pins (s : State) (id : Nat) (f : Transaction → Transaction) : (s.setFlight id f).pins = s.pins := rfl
@[simp] theorem State.setFlight_draws (s : State) (id : Nat) (f : Transaction → Transaction) : (s.setFlight id f).draws = s.draws := rfl
@[simp] theorem State.setFlight_pending (s : State) (id : Nat) (f : Transaction → Transaction) : (s.setFlight id f).pending = s.pending := rfl

@[simp] theorem State.setPoll_phase (s : State) (index : Nat) (f : PollEntry → PollEntry) : (s.setPoll index f).phase = s.phase := rfl
@[simp] theorem State.setPoll_now (s : State) (index : Nat) (f : PollEntry → PollEntry) : (s.setPoll index f).now = s.now := rfl
@[simp] theorem State.setPoll_host (s : State) (index : Nat) (f : PollEntry → PollEntry) : (s.setPoll index f).host = s.host := rfl
@[simp] theorem State.setPoll_clock (s : State) (index : Nat) (f : PollEntry → PollEntry) : (s.setPoll index f).clock = s.clock := rfl
@[simp] theorem State.setPoll_channels (s : State) (index : Nat) (f : PollEntry → PollEntry) : (s.setPoll index f).channels = s.channels := rfl
@[simp] theorem State.setPoll_converters (s : State) (index : Nat) (f : PollEntry → PollEntry) : (s.setPoll index f).converters = s.converters := rfl
@[simp] theorem State.setPoll_dies (s : State) (index : Nat) (f : PollEntry → PollEntry) : (s.setPoll index f).dies = s.dies := rfl
@[simp] theorem State.setPoll_samplePhase (s : State) (index : Nat) (f : PollEntry → PollEntry) : (s.setPoll index f).samplePhase = s.samplePhase := rfl
@[simp] theorem State.setPoll_timers (s : State) (index : Nat) (f : PollEntry → PollEntry) : (s.setPoll index f).timers = s.timers := rfl
@[simp] theorem State.setPoll_tracker (s : State) (index : Nat) (f : PollEntry → PollEntry) : (s.setPoll index f).tracker = s.tracker := rfl
@[simp] theorem State.setPoll_captures (s : State) (index : Nat) (f : PollEntry → PollEntry) : (s.setPoll index f).captures = s.captures := rfl
@[simp] theorem State.setPoll_sweep (s : State) (index : Nat) (f : PollEntry → PollEntry) : (s.setPoll index f).sweep = s.sweep := rfl
@[simp] theorem State.setPoll_cal (s : State) (index : Nat) (f : PollEntry → PollEntry) : (s.setPoll index f).cal = s.cal := rfl
@[simp] theorem State.setPoll_meas (s : State) (index : Nat) (f : PollEntry → PollEntry) : (s.setPoll index f).meas = s.meas := rfl
@[simp] theorem State.setPoll_bill (s : State) (index : Nat) (f : PollEntry → PollEntry) : (s.setPoll index f).bill = s.bill := rfl
@[simp] theorem State.setPoll_line (s : State) (index : Nat) (f : PollEntry → PollEntry) : (s.setPoll index f).line = s.line := rfl
@[simp] theorem State.setPoll_store (s : State) (index : Nat) (f : PollEntry → PollEntry) : (s.setPoll index f).store = s.store := rfl
@[simp] theorem State.setPoll_sec (s : State) (index : Nat) (f : PollEntry → PollEntry) : (s.setPoll index f).sec = s.sec := rfl
@[simp] theorem State.setPoll_health (s : State) (index : Nat) (f : PollEntry → PollEntry) : (s.setPoll index f).health = s.health := rfl
@[simp] theorem State.setPoll_gate (s : State) (index : Nat) (f : PollEntry → PollEntry) : (s.setPoll index f).gate = s.gate := rfl
@[simp] theorem State.setPoll_power (s : State) (index : Nat) (f : PollEntry → PollEntry) : (s.setPoll index f).power = s.power := rfl
@[simp] theorem State.setPoll_pins (s : State) (index : Nat) (f : PollEntry → PollEntry) : (s.setPoll index f).pins = s.pins := rfl
@[simp] theorem State.setPoll_draws (s : State) (index : Nat) (f : PollEntry → PollEntry) : (s.setPoll index f).draws = s.draws := rfl
@[simp] theorem State.setPoll_pending (s : State) (index : Nat) (f : PollEntry → PollEntry) : (s.setPoll index f).pending = s.pending := rfl

@[simp] theorem State.setPool_phase (s : State) (serial : Nat) (f : Context → Context) : (s.setPool serial f).phase = s.phase := rfl
@[simp] theorem State.setPool_now (s : State) (serial : Nat) (f : Context → Context) : (s.setPool serial f).now = s.now := rfl
@[simp] theorem State.setPool_host (s : State) (serial : Nat) (f : Context → Context) : (s.setPool serial f).host = s.host := rfl
@[simp] theorem State.setPool_clock (s : State) (serial : Nat) (f : Context → Context) : (s.setPool serial f).clock = s.clock := rfl
@[simp] theorem State.setPool_channels (s : State) (serial : Nat) (f : Context → Context) : (s.setPool serial f).channels = s.channels := rfl
@[simp] theorem State.setPool_converters (s : State) (serial : Nat) (f : Context → Context) : (s.setPool serial f).converters = s.converters := rfl
@[simp] theorem State.setPool_dies (s : State) (serial : Nat) (f : Context → Context) : (s.setPool serial f).dies = s.dies := rfl
@[simp] theorem State.setPool_samplePhase (s : State) (serial : Nat) (f : Context → Context) : (s.setPool serial f).samplePhase = s.samplePhase := rfl
@[simp] theorem State.setPool_timers (s : State) (serial : Nat) (f : Context → Context) : (s.setPool serial f).timers = s.timers := rfl
@[simp] theorem State.setPool_tracker (s : State) (serial : Nat) (f : Context → Context) : (s.setPool serial f).tracker = s.tracker := rfl
@[simp] theorem State.setPool_captures (s : State) (serial : Nat) (f : Context → Context) : (s.setPool serial f).captures = s.captures := rfl
@[simp] theorem State.setPool_sweep (s : State) (serial : Nat) (f : Context → Context) : (s.setPool serial f).sweep = s.sweep := rfl
@[simp] theorem State.setPool_cal (s : State) (serial : Nat) (f : Context → Context) : (s.setPool serial f).cal = s.cal := rfl
@[simp] theorem State.setPool_meas (s : State) (serial : Nat) (f : Context → Context) : (s.setPool serial f).meas = s.meas := rfl
@[simp] theorem State.setPool_bill (s : State) (serial : Nat) (f : Context → Context) : (s.setPool serial f).bill = s.bill := rfl
@[simp] theorem State.setPool_line (s : State) (serial : Nat) (f : Context → Context) : (s.setPool serial f).line = s.line := rfl
@[simp] theorem State.setPool_mesh (s : State) (serial : Nat) (f : Context → Context) : (s.setPool serial f).mesh = s.mesh := rfl
@[simp] theorem State.setPool_sec (s : State) (serial : Nat) (f : Context → Context) : (s.setPool serial f).sec = s.sec := rfl
@[simp] theorem State.setPool_health (s : State) (serial : Nat) (f : Context → Context) : (s.setPool serial f).health = s.health := rfl
@[simp] theorem State.setPool_gate (s : State) (serial : Nat) (f : Context → Context) : (s.setPool serial f).gate = s.gate := rfl
@[simp] theorem State.setPool_power (s : State) (serial : Nat) (f : Context → Context) : (s.setPool serial f).power = s.power := rfl
@[simp] theorem State.setPool_pins (s : State) (serial : Nat) (f : Context → Context) : (s.setPool serial f).pins = s.pins := rfl
@[simp] theorem State.setPool_draws (s : State) (serial : Nat) (f : Context → Context) : (s.setPool serial f).draws = s.draws := rfl
@[simp] theorem State.setPool_pending (s : State) (serial : Nat) (f : Context → Context) : (s.setPool serial f).pending = s.pending := rfl

@[simp] theorem State.compareFrom_phase (s : State) (n : Nat) : (s.compareFrom n).phase = s.phase := rfl
@[simp] theorem State.compareFrom_now (s : State) (n : Nat) : (s.compareFrom n).now = s.now := rfl
@[simp] theorem State.compareFrom_host (s : State) (n : Nat) : (s.compareFrom n).host = s.host := rfl
@[simp] theorem State.compareFrom_clock (s : State) (n : Nat) : (s.compareFrom n).clock = s.clock := rfl
@[simp] theorem State.compareFrom_converters (s : State) (n : Nat) : (s.compareFrom n).converters = s.converters := rfl
@[simp] theorem State.compareFrom_dies (s : State) (n : Nat) : (s.compareFrom n).dies = s.dies := rfl
@[simp] theorem State.compareFrom_samplePhase (s : State) (n : Nat) : (s.compareFrom n).samplePhase = s.samplePhase := rfl
@[simp] theorem State.compareFrom_timers (s : State) (n : Nat) : (s.compareFrom n).timers = s.timers := rfl
@[simp] theorem State.compareFrom_tracker (s : State) (n : Nat) : (s.compareFrom n).tracker = s.tracker := rfl
@[simp] theorem State.compareFrom_captures (s : State) (n : Nat) : (s.compareFrom n).captures = s.captures := rfl
@[simp] theorem State.compareFrom_sweep (s : State) (n : Nat) : (s.compareFrom n).sweep = s.sweep := rfl
@[simp] theorem State.compareFrom_cal (s : State) (n : Nat) : (s.compareFrom n).cal = s.cal := rfl
@[simp] theorem State.compareFrom_meas (s : State) (n : Nat) : (s.compareFrom n).meas = s.meas := rfl
@[simp] theorem State.compareFrom_bill (s : State) (n : Nat) : (s.compareFrom n).bill = s.bill := rfl
@[simp] theorem State.compareFrom_line (s : State) (n : Nat) : (s.compareFrom n).line = s.line := rfl
@[simp] theorem State.compareFrom_mesh (s : State) (n : Nat) : (s.compareFrom n).mesh = s.mesh := rfl
@[simp] theorem State.compareFrom_store (s : State) (n : Nat) : (s.compareFrom n).store = s.store := rfl
@[simp] theorem State.compareFrom_sec (s : State) (n : Nat) : (s.compareFrom n).sec = s.sec := rfl
@[simp] theorem State.compareFrom_health (s : State) (n : Nat) : (s.compareFrom n).health = s.health := rfl
@[simp] theorem State.compareFrom_gate (s : State) (n : Nat) : (s.compareFrom n).gate = s.gate := rfl
@[simp] theorem State.compareFrom_power (s : State) (n : Nat) : (s.compareFrom n).power = s.power := rfl
@[simp] theorem State.compareFrom_pins (s : State) (n : Nat) : (s.compareFrom n).pins = s.pins := rfl
@[simp] theorem State.compareFrom_draws (s : State) (n : Nat) : (s.compareFrom n).draws = s.draws := rfl
@[simp] theorem State.compareFrom_pending (s : State) (n : Nat) : (s.compareFrom n).pending = s.pending := rfl
/-! ### What each accessor reads after its setter -/

theorem State.chan_setChan (s : State) (n : Nat) (f : Channel → Channel) (h : n < s.channels.length) : (s.setChan n f).chan n = f (s.chan n) :=
  nth_alter _ n f h

theorem State.chan_setChan_ne (s : State) (n k : Nat) (f : Channel → Channel) (h : k ≠ n) : (s.setChan n f).chan k = s.chan k :=
  nth_alter_ne _ n k f h

theorem State.conv_setConv (s : State) (n : Nat) (f : Converter → Converter) (h : n < s.converters.length) : (s.setConv n f).conv n = f (s.conv n) :=
  nth_alter _ n f h

theorem State.conv_setConv_ne (s : State) (n k : Nat) (f : Converter → Converter) (h : k ≠ n) : (s.setConv n f).conv k = s.conv k :=
  nth_alter_ne _ n k f h

theorem State.die_setDie (s : State) (n : Nat) (f : Die → Die) (h : n < s.dies.length) : (s.setDie n f).die n = f (s.die n) :=
  nth_alter _ n f h

theorem State.die_setDie_ne (s : State) (n k : Nat) (f : Die → Die) (h : k ≠ n) : (s.setDie n f).die k = s.die k :=
  nth_alter_ne _ n k f h

theorem State.session_setSession (s : State) (n : Nat) (f : Session → Session) (h : n < s.host.sessions.length) : (s.setSession n f).session n = f (s.session n) :=
  nth_alter _ n f h

theorem State.session_setSession_ne (s : State) (n k : Nat) (f : Session → Session) (h : k ≠ n) : (s.setSession n f).session k = s.session k :=
  nth_alter_ne _ n k f h

@[simp] theorem State.tickTo_chan (s : State) (t : Nat) (j : Nat) : (s.tickTo t).chan j = s.chan j := rfl
@[simp] theorem State.tickTo_conv (s : State) (t : Nat) (j : Nat) : (s.tickTo t).conv j = s.conv j := rfl
@[simp] theorem State.tickTo_die (s : State) (t : Nat) (j : Nat) : (s.tickTo t).die j = s.die j := rfl
@[simp] theorem State.tickTo_session (s : State) (t : Nat) (j : Nat) : (s.tickTo t).session j = s.session j := rfl
@[simp] theorem State.setChan_conv (s : State) (n : Nat) (f : Channel → Channel) (j : Nat) : (s.setChan n f).conv j = s.conv j := rfl
@[simp] theorem State.setChan_die (s : State) (n : Nat) (f : Channel → Channel) (j : Nat) : (s.setChan n f).die j = s.die j := rfl
@[simp] theorem State.setChan_session (s : State) (n : Nat) (f : Channel → Channel) (j : Nat) : (s.setChan n f).session j = s.session j := rfl
@[simp] theorem State.setConv_chan (s : State) (u : Nat) (f : Converter → Converter) (j : Nat) : (s.setConv u f).chan j = s.chan j := rfl
@[simp] theorem State.setConv_die (s : State) (u : Nat) (f : Converter → Converter) (j : Nat) : (s.setConv u f).die j = s.die j := rfl
@[simp] theorem State.setConv_session (s : State) (u : Nat) (f : Converter → Converter) (j : Nat) : (s.setConv u f).session j = s.session j := rfl
@[simp] theorem State.setDie_chan (s : State) (d : Nat) (f : Die → Die) (j : Nat) : (s.setDie d f).chan j = s.chan j := rfl
@[simp] theorem State.setDie_conv (s : State) (d : Nat) (f : Die → Die) (j : Nat) : (s.setDie d f).conv j = s.conv j := rfl
@[simp] theorem State.setDie_session (s : State) (d : Nat) (f : Die → Die) (j : Nat) : (s.setDie d f).session j = s.session j := rfl
@[simp] theorem State.setSide_chan (s : State) (d : Nat) (f : SideSlice → SideSlice) (j : Nat) : (s.setSide d f).chan j = s.chan j := rfl
@[simp] theorem State.setSide_conv (s : State) (d : Nat) (f : SideSlice → SideSlice) (j : Nat) : (s.setSide d f).conv j = s.conv j := rfl
@[simp] theorem State.setSide_session (s : State) (d : Nat) (f : SideSlice → SideSlice) (j : Nat) : (s.setSide d f).session j = s.session j := rfl
@[simp] theorem State.setLink_chan (s : State) (d : Nat) (f : Link → Link) (j : Nat) : (s.setLink d f).chan j = s.chan j := rfl
@[simp] theorem State.setLink_conv (s : State) (d : Nat) (f : Link → Link) (j : Nat) : (s.setLink d f).conv j = s.conv j := rfl
@[simp] theorem State.setLink_session (s : State) (d : Nat) (f : Link → Link) (j : Nat) : (s.setLink d f).session j = s.session j := rfl
@[simp] theorem State.setSession_chan (s : State) (k : Nat) (f : Session → Session) (j : Nat) : (s.setSession k f).chan j = s.chan j := rfl
@[simp] theorem State.setSession_conv (s : State) (k : Nat) (f : Session → Session) (j : Nat) : (s.setSession k f).conv j = s.conv j := rfl
@[simp] theorem State.setSession_die (s : State) (k : Nat) (f : Session → Session) (j : Nat) : (s.setSession k f).die j = s.die j := rfl
@[simp] theorem State.setPort_chan (s : State) (p : Port) (f : PortState → PortState) (j : Nat) : (s.setPort p f).chan j = s.chan j := by cases p <;> rfl
@[simp] theorem State.setPort_conv (s : State) (p : Port) (f : PortState → PortState) (j : Nat) : (s.setPort p f).conv j = s.conv j := by cases p <;> rfl
@[simp] theorem State.setPort_die (s : State) (p : Port) (f : PortState → PortState) (j : Nat) : (s.setPort p f).die j = s.die j := by cases p <;> rfl
@[simp] theorem State.session_setPort_self (s : State) (p : Port) (f : PortState → PortState) (j : Nat) : (s.setPort p f).session j = s.session j := by cases p <;> rfl
@[simp] theorem State.take_chan (s : State) (p : Port) (j : Nat) : (s.take p).chan j = s.chan j := by cases p <;> rfl
@[simp] theorem State.take_conv (s : State) (p : Port) (j : Nat) : (s.take p).conv j = s.conv j := by cases p <;> rfl
@[simp] theorem State.take_die (s : State) (p : Port) (j : Nat) : (s.take p).die j = s.die j := by cases p <;> rfl
@[simp] theorem State.session_take_self (s : State) (p : Port) (j : Nat) : (s.take p).session j = s.session j := by cases p <;> rfl
@[simp] theorem State.setCapture_chan (s : State) (r : Nat) (f : Capture → Capture) (j : Nat) : (s.setCapture r f).chan j = s.chan j := rfl
@[simp] theorem State.setCapture_conv (s : State) (r : Nat) (f : Capture → Capture) (j : Nat) : (s.setCapture r f).conv j = s.conv j := rfl
@[simp] theorem State.setCapture_die (s : State) (r : Nat) (f : Capture → Capture) (j : Nat) : (s.setCapture r f).die j = s.die j := rfl
@[simp] theorem State.setCapture_session (s : State) (r : Nat) (f : Capture → Capture) (j : Nat) : (s.setCapture r f).session j = s.session j := rfl
@[simp] theorem State.setCtx_chan (s : State) (serial : Nat) (f : Context → Context) (j : Nat) : (s.setCtx serial f).chan j = s.chan j := rfl
@[simp] theorem State.setCtx_conv (s : State) (serial : Nat) (f : Context → Context) (j : Nat) : (s.setCtx serial f).conv j = s.conv j := rfl
@[simp] theorem State.setCtx_die (s : State) (serial : Nat) (f : Context → Context) (j : Nat) : (s.setCtx serial f).die j = s.die j := rfl
@[simp] theorem State.setCtx_session (s : State) (serial : Nat) (f : Context → Context) (j : Nat) : (s.setCtx serial f).session j = s.session j := rfl
@[simp] theorem State.setGroup_chan (s : State) (g : Nat) (f : Group → Group) (j : Nat) : (s.setGroup g f).chan j = s.chan j := rfl
@[simp] theorem State.setGroup_conv (s : State) (g : Nat) (f : Group → Group) (j : Nat) : (s.setGroup g f).conv j = s.conv j := rfl
@[simp] theorem State.setGroup_die (s : State) (g : Nat) (f : Group → Group) (j : Nat) : (s.setGroup g f).die j = s.die j := rfl
@[simp] theorem State.setGroup_session (s : State) (g : Nat) (f : Group → Group) (j : Nat) : (s.setGroup g f).session j = s.session j := rfl
@[simp] theorem State.setLine_chan (s : State) (f : LineState → LineState) (j : Nat) : (s.setLine f).chan j = s.chan j := rfl
@[simp] theorem State.setLine_conv (s : State) (f : LineState → LineState) (j : Nat) : (s.setLine f).conv j = s.conv j := rfl
@[simp] theorem State.setLine_die (s : State) (f : LineState → LineState) (j : Nat) : (s.setLine f).die j = s.die j := rfl
@[simp] theorem State.setLine_session (s : State) (f : LineState → LineState) (j : Nat) : (s.setLine f).session j = s.session j := rfl
@[simp] theorem State.setMesh_chan (s : State) (f : MeshState → MeshState) (j : Nat) : (s.setMesh f).chan j = s.chan j := rfl
@[simp] theorem State.setMesh_conv (s : State) (f : MeshState → MeshState) (j : Nat) : (s.setMesh f).conv j = s.conv j := rfl
@[simp] theorem State.setMesh_die (s : State) (f : MeshState → MeshState) (j : Nat) : (s.setMesh f).die j = s.die j := rfl
@[simp] theorem State.setMesh_session (s : State) (f : MeshState → MeshState) (j : Nat) : (s.setMesh f).session j = s.session j := rfl
@[simp] theorem State.setBoot_chan (s : State) (f : BootTable → BootTable) (j : Nat) : (s.setBoot f).chan j = s.chan j := rfl
@[simp] theorem State.setBoot_conv (s : State) (f : BootTable → BootTable) (j : Nat) : (s.setBoot f).conv j = s.conv j := rfl
@[simp] theorem State.setBoot_die (s : State) (f : BootTable → BootTable) (j : Nat) : (s.setBoot f).die j = s.die j := rfl
@[simp] theorem State.setBoot_session (s : State) (f : BootTable → BootTable) (j : Nat) : (s.setBoot f).session j = s.session j := rfl

@[simp] theorem State.setCarrier_conv (s : State) (n : Nat) (c : Carrier) (interrupted : Bool) (j : Nat) : (s.setCarrier n c interrupted).conv j = s.conv j := rfl
@[simp] theorem State.setCarrier_die (s : State) (n : Nat) (c : Carrier) (interrupted : Bool) (j : Nat) : (s.setCarrier n c interrupted).die j = s.die j := rfl
@[simp] theorem State.setCarrier_session (s : State) (n : Nat) (c : Carrier) (interrupted : Bool) (j : Nat) : (s.setCarrier n c interrupted).session j = s.session j := rfl
@[simp] theorem State.setCal_chan (s : State) (u : Nat) (f : Calibration → Calibration) (j : Nat) : (s.setCal u f).chan j = s.chan j := rfl
@[simp] theorem State.setCal_die (s : State) (u : Nat) (f : Calibration → Calibration) (j : Nat) : (s.setCal u f).die j = s.die j := rfl
@[simp] theorem State.setCal_session (s : State) (u : Nat) (f : Calibration → Calibration) (j : Nat) : (s.setCal u f).session j = s.session j := rfl
@[simp] theorem State.setRunning_chan (s : State) (f : SweepOp → SweepOp) (j : Nat) : (s.setRunning f).chan j = s.chan j := rfl
@[simp] theorem State.setRunning_conv (s : State) (f : SweepOp → SweepOp) (j : Nat) : (s.setRunning f).conv j = s.conv j := rfl
@[simp] theorem State.setRunning_die (s : State) (f : SweepOp → SweepOp) (j : Nat) : (s.setRunning f).die j = s.die j := rfl
@[simp] theorem State.setRunning_session (s : State) (f : SweepOp → SweepOp) (j : Nat) : (s.setRunning f).session j = s.session j := rfl
@[simp] theorem State.setQueue_chan (s : State) (k : Nat) (f : EventQueue → EventQueue) (j : Nat) : (s.setQueue k f).chan j = s.chan j := rfl
@[simp] theorem State.setQueue_conv (s : State) (k : Nat) (f : EventQueue → EventQueue) (j : Nat) : (s.setQueue k f).conv j = s.conv j := rfl
@[simp] theorem State.setQueue_die (s : State) (k : Nat) (f : EventQueue → EventQueue) (j : Nat) : (s.setQueue k f).die j = s.die j := rfl
@[simp] theorem State.setNode_chan (s : State) (address : Nat) (f : Node → Node) (j : Nat) : (s.setNode address f).chan j = s.chan j := rfl
@[simp] theorem State.setNode_conv (s : State) (address : Nat) (f : Node → Node) (j : Nat) : (s.setNode address f).conv j = s.conv j := rfl
@[simp] theorem State.setNode_die (s : State) (address : Nat) (f : Node → Node) (j : Nat) : (s.setNode address f).die j = s.die j := rfl
@[simp] theorem State.setNode_session (s : State) (address : Nat) (f : Node → Node) (j : Nat) : (s.setNode address f).session j = s.session j := rfl
@[simp] theorem State.setFlight_chan (s : State) (id : Nat) (f : Transaction → Transaction) (j : Nat) : (s.setFlight id f).chan j = s.chan j := rfl
@[simp] theorem State.setFlight_conv (s : State) (id : Nat) (f : Transaction → Transaction) (j : Nat) : (s.setFlight id f).conv j = s.conv j := rfl
@[simp] theorem State.setFlight_die (s : State) (id : Nat) (f : Transaction → Transaction) (j : Nat) : (s.setFlight id f).die j = s.die j := rfl
@[simp] theorem State.setFlight_session (s : State) (id : Nat) (f : Transaction → Transaction) (j : Nat) : (s.setFlight id f).session j = s.session j := rfl
@[simp] theorem State.setPoll_chan (s : State) (index : Nat) (f : PollEntry → PollEntry) (j : Nat) : (s.setPoll index f).chan j = s.chan j := rfl
@[simp] theorem State.setPoll_conv (s : State) (index : Nat) (f : PollEntry → PollEntry) (j : Nat) : (s.setPoll index f).conv j = s.conv j := rfl
@[simp] theorem State.setPoll_die (s : State) (index : Nat) (f : PollEntry → PollEntry) (j : Nat) : (s.setPoll index f).die j = s.die j := rfl
@[simp] theorem State.setPoll_session (s : State) (index : Nat) (f : PollEntry → PollEntry) (j : Nat) : (s.setPoll index f).session j = s.session j := rfl
@[simp] theorem State.setPool_chan (s : State) (serial : Nat) (f : Context → Context) (j : Nat) : (s.setPool serial f).chan j = s.chan j := rfl
@[simp] theorem State.setPool_conv (s : State) (serial : Nat) (f : Context → Context) (j : Nat) : (s.setPool serial f).conv j = s.conv j := rfl
@[simp] theorem State.setPool_die (s : State) (serial : Nat) (f : Context → Context) (j : Nat) : (s.setPool serial f).die j = s.die j := rfl
@[simp] theorem State.setPool_session (s : State) (serial : Nat) (f : Context → Context) (j : Nat) : (s.setPool serial f).session j = s.session j := rfl
@[simp] theorem State.compareFrom_conv (s : State) (n : Nat) (j : Nat) : (s.compareFrom n).conv j = s.conv j := rfl
@[simp] theorem State.compareFrom_die (s : State) (n : Nat) (j : Nat) : (s.compareFrom n).die j = s.die j := rfl
@[simp] theorem State.compareFrom_session (s : State) (n : Nat) (j : Nat) : (s.compareFrom n).session j = s.session j := rfl

/-- What the carrier setter leaves of the channel it changes. -/
theorem State.chan_setCarrier (s : State) (n : Nat) (c : Carrier) (i : Bool) (h : n < s.channels.length) :
    ((s.setCarrier n c i).chan n).carrier = c ∧ ((s.setCarrier n c i).chan n).interrupted = i := by
  unfold State.setCarrier
  rw [State.chan_setChan _ _ _ h]
  exact ⟨rfl, rfl⟩

theorem State.chan_setCarrier_ne (s : State) (n k : Nat) (c : Carrier) (i : Bool) (h : k ≠ n) :
    (s.setCarrier n c i).chan k = s.chan k := State.chan_setChan_ne s n k _ h

/-- The port changed, and the other one. -/
@[simp] theorem State.port_setPort (s : State) (p : Port) (f : PortState → PortState) : (s.setPort p f).port p = f (s.port p) := by cases p <;> rfl

theorem State.port_setPort_ne (s : State) (p q : Port) (f : PortState → PortState) (h : q ≠ p) : (s.setPort p f).port q = s.port q := by
  cases p <;> cases q <;> first | rfl | exact absurd rfl h

end Sys2Proof.Machine
end

