-- ==== Sys2Proof/Laws/Protocol.lean ====
section
/-! SUPPORT. Serving a request: what each row of the opcode table does with a request that no check fails, that a check fails, or that
repeats a stored one. Every statement about an opcode goes through `serve_of_calls`. -/

namespace Sys2Proof.Machine

/-- Taking a request leaves the phase. -/
@[simp] theorem State.taken_phase (s : State) (t : Nat) (p : Port) : (s.taken t p).phase = s.phase := by cases p <;> rfl

/-- The port a request came on is the one its fields name. -/
@[simp] theorem Req.of_port (p : Port) (q : Request) : (Req.of p q).port = p := rfl

/-- What admitting a request says. -/
theorem admits_iff {row : Row} {t : Nat} {p : Port} {s : State} {q : Request} :
    row.admits t p s q = true ↔
      (s.phase = .ready ∨ s.phase = .running) ∧
      ((s.tickTo t).front p = some q ∧ q.verdict = .whole ∧ row.takes (Req.of p q) (s.tickTo t) = true) ∧
      fitsPort p (Req.of p q).session = true ∧
      (((s.taken t p).session (Req.of p q).session).isOpen = true ∨ (Req.of p q).opcode = 257 ∨ (Req.of p q).opcode = 1 ∨
        (Req.of p q).opcode = 2) := by
  simp only [Row.admits, Row.hears, Bool.and_eq_true, Bool.or_eq_true, decide_eq_true_eq]
  tauto

/-- A request that is admitted is served by the rules of normal operation. -/
theorem serve_of_admits {row : Row} {t : Nat} {p : Port} {s : State} {q : Request} (h : row.admits t p s q = true) :
    row.serve t p s = row.normal q (Req.of p q) (s.taken t p) := by
  obtain ⟨phase, ⟨front, whole, takes⟩, -, -⟩ := admits_iff.1 h
  have same : ((s.tickTo t).take p).phase = s.phase := State.taken_phase s t p
  unfold Row.serve
  simp only [front, whole, takes, if_true]
  unfold Row.run
  rw [same]
  rcases phase with phase | phase <;> rw [phase]

/-- The tests of R50 and R51 on a request that is admitted. -/
theorem normal_of_admits {row : Row} {t : Nat} {p : Port} {s : State} {q : Request} (h : row.admits t p s q = true) :
    row.normal q (Req.of p q) (s.taken t p) =
      match ((s.taken t p).session (Req.of p q).session).duplicate (Req.of p q) with
      | some d => (s.taken t p).queueReply p { d.reply with flags := d.reply.flags ||| 1 }
      | none =>
        match ((s.taken t p).session (Req.of p q).session).busy with
        | some b => if sameRequest p b (Req.of p q) then s.taken t p else (s.taken t p).answer (Req.of p q) stBusy []
        | none =>
          match row.refusal (Req.of p q) (s.taken t p) with
          | some status => (s.taken t p).answer (Req.of p q) status []
          | none => (row.body (Req.of p q) (s.taken t p)).finish q (Req.of p q) := by
  obtain ⟨-, -, fits, o⟩ := admits_iff.1 h
  unfold Row.normal
  rw [Req.of_port, fits]
  rcases o with o | o | o | o <;> simp only [o, Bool.not_true, Bool.true_or, Bool.or_true, decide_true, Bool.false_eq_true, if_false] <;> rfl

/-- A request that is called is answered by its row's body. -/
theorem serve_of_calls {row : Row} {t : Nat} {p : Port} {s : State} {q : Request} (h : row.calls t p s q = true) :
    row.serve t p s = (row.body (Req.of p q) (s.taken t p)).finish q (Req.of p q) := by
  simp only [Row.calls, Row.fresh, Bool.and_eq_true, decide_eq_true_eq] at h
  obtain ⟨⟨⟨a, fresh⟩, idle⟩, passes⟩ := h
  rw [serve_of_admits a, normal_of_admits a, fresh, idle, passes]

/-- The same for a command that serves a row. -/
theorem next_of_calls {row : Row} {t : Nat} {p : Port} {s : State} {q : Request} (h : row.calls t p s q = true)
    {status : Nat} {payload : List Byte} {u : State}
    (b : row.body (Req.of p q) (s.taken t p) = .done status payload u) :
    row.serve t p s = u.answer (Req.of p q) status payload := by
  rw [serve_of_calls h, b]; rfl

end Sys2Proof.Machine
end

