-- ==== Sys2Proof/Laws/Ops.lean ====
section
/-! SUPPORT. The shared operations: for each, one equation that says every part of the state it can touch, and what it does there. -/

namespace Sys2Proof.Machine

/-! ### Events and the event log -/

/-- A log record touches only the store. -/
theorem State.logAppend_frame (s : State) (kind time : Nat) (body : List Byte) :
    s.logAppend kind time body = { s with store := (s.logAppend kind time body).store } := by
  unfold State.logAppend; split <;> rfl

/-- In the store it touches the log and its place in the ring, the next sequence, the chain and the first record not covered. -/
theorem State.logAppend_store (s : State) (kind time : Nat) (body : List Byte) :
    (s.logAppend kind time body).store =
      { s.store with
        log := (s.logAppend kind time body).store.log, nextLog := (s.logAppend kind time body).store.nextLog
        logStart := (s.logAppend kind time body).store.logStart
        chain := (s.logAppend kind time body).store.chain, uncovered := (s.logAppend kind time body).store.uncovered } := by
  unfold State.logAppend; split <;> rfl

/-- An event queued touches only the queues of sessions. -/
theorem State.queueAll_frame (s : State) (source time : Nat) (body : List Byte) :
    s.queueAll source time body = { s with host := { s.host with sessions := (s.queueAll source time body).host.sessions } } := rfl

/-- Each session keeps all but its queue. -/
theorem Session.offer_frame (x : Session) (source time : Nat) (body : List Byte) (now : Nat) :
    x.offer source time body now = { x with queue := (x.offer source time body now).queue } := by
  unfold Session.offer
  split
  · cases x.queue.admits source <;> rfl
  · rfl

/-- Raising an event touches the queues and the log, nothing else. -/
theorem State.raise_frame (s : State) (source time : Nat) (body : List Byte) :
    s.raise source time body = { s with
      host := { s.host with sessions := s.host.sessions.map (fun x => x.offer source time body s.stampNow) }
      store := (s.raise source time body).store } := by
  unfold State.raise; dsimp only; split
  · rfl
  · rw [State.logAppend_frame]; rfl

/-- The number of sessions stays, and each one open stays open. -/
@[simp] theorem Session.offer_isOpen (x : Session) (source time : Nat) (body : List Byte) (now : Nat) :
    (x.offer source time body now).isOpen = x.isOpen := by rw [Session.offer_frame]

/-- A repair action touches the health log, the event log and the queues. -/
theorem State.repair_frame (s : State) (e : HealthEntry) :
    s.repair e = { s with
      host := { s.host with sessions := (s.repair e).host.sessions }
      store := (s.repair e).store
      health := { s.health with log := ({ e with sequence := s.health.next } :: s.health.log).take 4096, next := s.health.next + 1 } } := by
  unfold State.repair State.healthLog; dsimp only; rw [State.logAppend_frame]; rfl

/-- A noted repair action draws one free value besides. -/
theorem State.note_frame (s : State) (kind outcome handle carrier rung : Nat) :
    s.note kind outcome handle carrier rung = { s with
      host := { s.host with sessions := (s.note kind outcome handle carrier rung).host.sessions }
      store := (s.note kind outcome handle carrier rung).store
      health := { s.health with
        log := (s.note kind outcome handle carrier rung).health.log, next := s.health.next + 1 }
      draws := s.draws + 1 } := by
  unfold State.note State.draw; dsimp only; rw [State.repair_frame]

/-! ### Operations and ownership -/

/-- A completion touches the operations and the queue of their session. -/
theorem State.completeOp_frame (s : State) (tag status : Nat) (detail : List Byte) :
    s.completeOp tag status detail = { s with
      host := { s.host with
        ops := (s.completeOp tag status detail).host.ops, sessions := (s.completeOp tag status detail).host.sessions } } := by
  unfold State.completeOp; split <;> rfl

/-- The operation is complete: none of its tag is left, and no other goes. -/
theorem State.completeOp_ops (s : State) (tag status : Nat) (detail : List Byte) :
    (s.completeOp tag status detail).host.ops = s.host.ops.filter (fun o => o.tag ≠ tag) := by
  unfold State.completeOp
  split
  · next h =>
    symm; rw [List.filter_eq_self]
    intro o ho
    have := List.find?_eq_none.1 h o ho
    simpa using this
  · rfl

/-- A change of owner touches ownership, the queues and the log. -/
theorem State.setOwner_frame (s : State) (o : Option Nat) (cause : Nat) :
    s.setOwner o cause = { s with
      host := { s.host with owner := o, keepAt := s.now, sessions := (s.setOwner o cause).host.sessions }
      store := (s.setOwner o cause).store } := by
  unfold State.setOwner; dsimp only; rw [State.raise_frame]

/-- An accepted operation takes the next tag and changes nothing else. -/
theorem State.startOp_frame (s : State) (opcode handle session : Nat) :
    (s.startOp opcode handle session).2 = { s with
      host := { s.host with
        ops := s.host.ops ++ [{ tag := s.host.nextTag, opcode := opcode, handle := handle, session := session }]
        nextTag := tagAfter s.host.nextTag } } := rfl

/-- Acceptance answers ACCEPTED with the tag where there is room (R54, R55). -/
theorem accept_room {r : Req} {s : State} {f : Nat → State → State} (h : s.opRoom r.session = true) :
    accept r s f = .done stAccepted (le 2 s.host.nextTag) (f s.host.nextTag (s.startOp r.opcode r.handle r.session).2) := by
  unfold accept; rw [if_pos h]; rfl

/-- And NO_RESOURCE where there is none. -/
theorem accept_full {r : Req} {s : State} {f : Nat → State → State} (h : s.opRoom r.session = false) :
    accept r s f = .done stNoResource [] s := by
  unfold accept; rw [if_neg (by simp [h])]; rfl

/-- The tests of a row decide in order: with none true the row goes on. -/
theorem judged_pass {tests : List (Bool × Nat)} {s : State} {ok : Answer} (h : ∀ x ∈ tests, x.1 = false) : judged tests s ok = ok := by
  have none : ∀ l : List (Bool × Nat), (∀ x ∈ l, x.1 = false) → firstOf l = none := by
    intro l
    induction l with
    | nil => intro _; rfl
    | cons x rest ih =>
      intro hl
      have hx := hl x (List.mem_cons_self ..)
      obtain ⟨c, st⟩ := x
      simp only at hx
      subst hx
      simpa [firstOf] using ih (fun y hy => hl y (List.mem_cons_of_mem _ hy))
  unfold judged; rw [none tests h]

/-! ### Replies -/

/-- A reply touches the port's queue and the session's stored record. -/
theorem State.answer_frame (s : State) (r : Req) (status : Nat) (payload : List Byte) :
    s.answer r status payload = { s with host := (s.answer r status payload).host } := by
  unfold State.answer; dsimp only; cases r.port <;> split <;> rfl

/-- The reply joins the replies of its port. -/
theorem State.answer_replies (s : State) (r : Req) (status : Nat) (payload : List Byte) :
    ((s.answer r status payload).port r.port).replies = (s.port r.port).replies ++ [s.reply r status payload] := by
  unfold State.answer State.queueReply
  dsimp only
  split
  · have : ∀ (u : State) k f p, (u.setSession k f).port p = u.port p := by intro u k f p; cases p <;> rfl
    rw [this, State.port_setPort]
  · rw [State.port_setPort]

/-- Taking a request removes it from its port, and changes nothing else. -/
theorem State.take_frame (s : State) (p : Port) :
    s.take p = { s with host := { s.host with h0 := (s.take p).host.h0, h1 := (s.take p).host.h1 } } := by cases p <;> rfl

@[simp] theorem State.take_owner (s : State) (p : Port) : (s.take p).host.owner = s.host.owner := by cases p <;> rfl
@[simp] theorem State.take_handover (s : State) (p : Port) : (s.take p).host.handover = s.host.handover := by cases p <;> rfl
@[simp] theorem State.take_election (s : State) (p : Port) : (s.take p).host.election = s.host.election := by cases p <;> rfl
@[simp] theorem State.take_nextTag (s : State) (p : Port) : (s.take p).host.nextTag = s.host.nextTag := by cases p <;> rfl
@[simp] theorem State.take_keepAt (s : State) (p : Port) : (s.take p).host.keepAt = s.host.keepAt := by cases p <;> rfl
@[simp] theorem State.take_ops (s : State) (p : Port) : (s.take p).host.ops = s.host.ops := by cases p <;> rfl
@[simp] theorem State.take_sessions (s : State) (p : Port) : (s.take p).host.sessions = s.host.sessions := by cases p <;> rfl
@[simp] theorem State.take_opRoom (s : State) (p : Port) (k : Nat) : (s.take p).opRoom k = s.opRoom k := by cases p <;> rfl
@[simp] theorem State.tickTo_host_eq (s : State) (t : Nat) : (s.tickTo t).host = s.host := rfl
@[simp] theorem State.tickTo_opRoom (s : State) (t k : Nat) : (s.tickTo t).opRoom k = s.opRoom k := rfl
@[simp] theorem State.tickTo_now_eq (s : State) (t : Nat) : (s.tickTo t).now = max s.now t := rfl

/-! ### The journal, signatures and the pins -/

/-- A journal record touches the journal and its next sequence. -/
theorem State.journalAdd_frame (s : State) (r : JournalRecord) :
    s.journalAdd r = { s with store := { s.store with
      journal := (s.journalAdd r).store.journal, nextJournal := (s.journalAdd r).store.nextJournal
      journalStart := (s.journalAdd r).store.journalStart } } := by
  unfold State.journalAdd; split <;> rfl

/-- Erasing the oldest blocks leaves the newest records. -/
theorem dropBelow_suffix {α : Type} (size : α → Nat) (low : Nat) (l : List α) (p : Nat) : (dropBelow size low p l).2 <:+ l := by
  induction l generalizing p with
  | nil => exact List.suffix_rfl
  | cons x l ih =>
    unfold dropBelow; split
    · exact (ih _).trans (List.suffix_cons _ _)
    · exact List.suffix_rfl

/-- And none of them begins below the position erased, where all of them are told apart by the position given. -/
theorem dropBelow_start {α : Type} (size : α → Nat) (low : Nat) (l : List α) (p : Nat) :
    (dropBelow size low p l).2 = [] ∨ low ≤ (dropBelow size low p l).1 := by
  induction l generalizing p with
  | nil => exact .inl rfl
  | cons x l ih =>
    unfold dropBelow; split
    · exact ih _
    · exact .inr (by omega)

/-- The ring never erases a record that restore may need (R389). -/
theorem State.trimJournal_keeps (s : State) (low : Nat) (x : JournalRecord) (hx : s.needs x = true) (l : List JournalRecord) (p : Nat)
    (h : x ∈ l) : x ∈ (s.trimJournal low p l).2 := by
  induction l generalizing p with
  | nil => exact h
  | cons r l ih =>
    unfold State.trimJournal; split
    · next c =>
      rcases List.mem_cons.1 h with rfl | h
      · simp [hx] at c
      · exact ih _ h
    · exact h

/-- Taking up the key of the next request touches the engine. -/
theorem State.takeUp_frame (s : State) : s.takeUp = { s with sec := { s.sec with engine := s.takeUp.sec.engine } } := by
  unfold State.takeUp; split <;> rfl

/-- Event source 181 is raised at most. -/
theorem State.raiseBacklog_frame (s : State) :
    s.raiseBacklog = { s with
      host := { s.host with sessions := s.raiseBacklog.host.sessions }
      store := s.raiseBacklog.store, sec := { s.sec with backlogRaised := s.raiseBacklog.sec.backlogRaised } } := by
  unfold State.raiseBacklog; split
  · rfl
  · unfold State.backlogEvent; rw [State.raise_frame]

/-- A signing job touches the signing queues and the engine, and raises the backlog event at most. -/
theorem State.queueJob_frame (s : State) (job : SignJob) :
    s.queueJob job = { s with
      host := { s.host with sessions := (s.queueJob job).host.sessions }
      store := (s.queueJob job).store
      sec := { s.sec with
        signing := (s.queueJob job).sec.signing, backlog := (s.queueJob job).sec.backlog
        engine := (s.queueJob job).sec.engine, backlogRaised := (s.queueJob job).sec.backlogRaised } } := by
  unfold State.queueJob
  dsimp only
  rw [State.raiseBacklog_frame, State.takeUp_frame]
  split <;> rfl

/-- An abandoned update touches the update, the queues and the log, and draws one free value. -/
theorem State.abandonUpdate_frame (s : State) :
    s.abandonUpdate = { s with
      host := { s.host with sessions := s.abandonUpdate.host.sessions }
      store := s.abandonUpdate.store, sec := { s.sec with update := none }, draws := s.abandonUpdate.draws } := by
  unfold State.abandonUpdate
  split
  · next h => rw [show ({ s.sec with update := none } : SecurityState) = s.sec by rw [← h]]
  · unfold State.draw; dsimp only; rw [State.raise_frame]

/-- The alarm touches the pins. -/
theorem State.alarmClear_frame (s : State) (channel : Nat) (slow : Bool) :
    s.alarmClear channel slow = { s with pins := (s.alarmClear channel slow).pins } := rfl

/-! ### The shape of the part -/

/-- The operations on events, replies and operations keep the number of every object. -/
@[simp] theorem State.shape_raise (s : State) (source time : Nat) (body : List Byte) : (s.raise source time body).shape = s.shape := by
  rw [State.raise_frame]; simp [State.shape]

@[simp] theorem State.shape_completeOp (s : State) (tag status : Nat) (detail : List Byte) : (s.completeOp tag status detail).shape = s.shape := by
  unfold State.completeOp; split
  · rfl
  · simp [State.shape, State.raiseTo, State.setSession]

@[simp] theorem State.shape_note (s : State) (kind outcome handle carrier rung : Nat) :
    (s.note kind outcome handle carrier rung).shape = s.shape := by
  unfold State.note State.draw State.repair State.healthLog State.queueAll
  dsimp only
  rw [State.logAppend_frame]; simp [State.shape]

@[simp] theorem State.shape_answer (s : State) (r : Req) (status : Nat) (payload : List Byte) : (s.answer r status payload).shape = s.shape := by
  unfold State.answer State.queueReply; dsimp only; cases r.port <;> split <;> simp [State.shape, State.setPort, State.setSession]

end Sys2Proof.Machine
end

