-- ==== Sys2Proof/Tests/Slice0.lean ====
section
/-! SUPPORT. Tests: the checks of WellFormed, states and operands that meet the hypotheses of the statements, and worked examples of the
spec. -/

namespace Sys2Proof.Tests

open Sys2Proof Sys2Proof.Machine

set_option Elab.async false

/-! ### States -/

/-- A part that meters, with session 0 open and owning it. -/
def live : State :=
  let s := State.reset
  { s with phase := .running, host := { s.host with owner := some 0, sessions := alter s.host.sessions 0 (fun x => { x with isOpen := true, queue := { x.queue with mask := defaultMask } }) } }

/-- A whole request of session 0. -/
def asks (opcode handle : Nat) (payload : List Byte) : Request :=
  { bytes := le 1 0x5A ++ zeros 3 ++ le 2 opcode ++ le 2 payload.length ++ le 2 handle ++ zeros 2 ++ payload, rxAt := 0, verdict := .whole }

/-- It waits at H0. -/
def State.asked (s : State) (opcode handle : Nat) (payload : List Byte) : State :=
  s.setPort .h0 (fun a => { a with rx := [asks opcode handle payload] })

/-- A row is called by it. -/
def calls (row : Row) (s : State) (opcode handle : Nat) (payload : List Byte) : Bool :=
  row.calls 0 .h0 (State.asked s opcode handle payload) (asks opcode handle payload) && (State.asked s opcode handle payload).shape = partShape

/-- A context. -/
def ctx : Context := { serial := 1, kind := 0 }

/-- ResetsKeepTheStore, SecurityGoesForward: a confirmation that a power loss at its own instant may cut. -/
theorem test_meets_bootCut :
    ({ live with store := { live.store with bootWrite := some { at_ := 5, confirms := some (3, 0, 1, []) } } } : State).store.bootWrite.any
      (fun w => w.confirms.isSome && decide (max 0 5 ≤ w.at_ + Config.bootWriteTicks)) = true := by
  simp

/-! ### What the statements ask for, each met -/

/-- A request on it whose session has sent the same before. -/
def repeated : State :=
  { live with host := { live.host with sessions := alter live.host.sessions 0 (fun x => { x with stored := some { seq := 0, crc := 0, reply := {} } }) } }

/-- A session with a request in progress. -/
def engaged : State :=
  { live with host := { live.host with sessions := alter live.host.sessions 0 (fun x => { x with busy := some (asks 0x0204 0 []) }) } }

/-- A port that takes transfers. -/
def spi : State := live

/-- A UART part with its rate measured. -/
def uart : State := { live with host := { live.host with h1Uart := true, uartRate := some 115200 } }

/-- An election that session 0 takes part in. -/
def electing : State :=
  { live with host := { live.host with owner := none, election := some { endAt := 800000, claims := [{ session := 0, priority := 5, tag := 1 }] } } }

/-- A handover to session 1, and one to session 0. -/
def yielding (successor : Nat) : State :=
  { live with host := { live.host with owner := some 2, handover := some { successor := successor, endAt := 16000000, tag := 1 } } }

/-- Two sessions open. -/
def twoOpen : State :=
  { live with host := { live.host with sessions := alter live.host.sessions 1 (fun x => { x with isOpen := true }) } }

/-- One fence waits; its marker is due at 320,000. -/
def fenced : State :=
  { live with host := { live.host with
      sessions := alter live.host.sessions 0 (fun x => { x with queue := { x.queue with fences := [{ number := 1, instant := 0, due := 320000 }] } }) } }

/-- Eight fences wait. -/
def fencedFull : State :=
  { live with host := { live.host with
      sessions := alter live.host.sessions 0 (fun x => { x with queue := { x.queue with
        fences := (List.range 8).map (fun k => { number := k, instant := 0, due := 320000 }) } }) } }

/-- SecurityGoesForward: no transition runs, and none of a confirmation is to be written. -/
theorem test_meets_security :
    (live.sec.transition = none && live.store.bootWrite = none &&
     let s : State := { live with store := { live.store with bootWrite := some { at_ := 5, confirms := some (3, 0, 1, []) } }, sec := { live.sec with counter := 4, transition := some (2, 3), lifecycle := 2 } }; 3 ≤ s.sec.counter && s.sec.lifecycle ≤ 3) = true := by
  decide +kernel

/-- RefusalsChangeNothing: a session that is not the owner, and an opcode that Table 16.2 does not define. -/
theorem test_meets_refusals :
    (setClockPolicyRow.fresh 0 .h0 (State.asked { live with host := { live.host with owner := none } } 8 0 (zeros 4)) (asks 8 0 (zeros 4)) &&
     setClockPolicyRow.refusal (Req.of .h0 (asks 8 0 (zeros 4))) { live with host := { live.host with owner := none } } = some stNotOwner &&
     (undefinedRow 0x000B).fresh 0 .h0 (State.asked live 0x000B 0 []) (asks 0x000B 0 []) &&
     (State.asked live 0x000B 0 []).front .h0 = some (asks 0x000B 0 []) &&
     (opSpec 0x000B).isNone) = true := by
  decide +kernel

/-- DuplicatesAreReplayed: a stored request, and one in progress. -/
theorem test_meets_duplicates :
    (getTimeRow.admits 0 .h0 (State.asked repeated 7 0 []) (asks 7 0 []) &&
     ((repeated.session 0).duplicate (Req.of .h0 (asks 7 0 []))).isSome &&
     getTimeRow.admits 0 .h0 (State.asked engaged 7 0 []) (asks 7 0 []) &&
     ((engaged.session 0).duplicate (Req.of .h0 (asks 7 0 []))).isNone &&
     (engaged.session 0).busy.isSome) = true := by
  decide +kernel

/-- PacketTransfers: a port with room, one full, one not ready, and one with a reply. -/
theorem test_meets_transfers :
    (spi.spi .h0 && spi.readyOn .h0 && (spi.port .h0).rx.isEmpty &&
     crcHolds (requestPacket 0 0 0 1 0 []) && (requestPacket 0 0 0 1 0 []).length = 16 && byteAt (requestPacket 0 0 0 1 0 []) 0 = 0x5A &&
     (spi.setPort .h0 (fun a => { a with rx := List.replicate 4 (asks 1 0 []) })).readyOn .h0 &&
     !({ live with phase := .gatehouse } : State).readyOn .h0 && ({ live with phase := .gatehouse } : State).spi .h0 &&
     ((spi.setPort .h0 (fun a => { a with replies := [{}] })).port .h0).replies = [{}]) = true := by
  decide +kernel

/-- UartLine: before and after the rate is measured, with a reply to send. -/
theorem test_meets_uart :
    (uart.readyOn .h1 && uart.host.h1Uart && uart.host.uartPart.isEmpty && uart.host.uartRate.isSome && uart.host.h1.rx.isEmpty &&
     ({ uart with host := { uart.host with uartRate := none } } : State).uartRates 115200 &&
     ({ uart with host := { uart.host with h1 := { replies := [{}] } } } : State).readyOn .h1) = true := by
  decide +kernel

/-- SessionsOpenAndClose: a session closed, one open. -/
theorem test_meets_sessions :
    (calls openRow { live with host := { live.host with sessions := State.reset.host.sessions } } 0x0101 0 [] &&
     calls openRow live 0x0101 0 [] &&
     calls closeRow live 0x0102 0 []) = true := by
  decide +kernel

/-- Elections: no owner and no window, a window open, an owner; a window with a winner at its end and before. -/
theorem test_meets_elections :
    (calls claimRow { live with host := { live.host with owner := none } } 0x0103 0 (octets [5, 0, 0, 0]) &&
     live.opRoom 0 &&
     calls claimRow electing 0x0103 0 (octets [5, 0, 0, 0]) &&
     calls claimRow live 0x0103 0 (octets [5, 0, 0, 0]) &&
     (State.asked electing 0x0103 0 (octets [5, 0, 0, 0])).waits 0x0103 800000 (fun _ => true) && electing.waits 0x0103 800000 (fun _ => true) = false && electing.now < 800000 &&
     ({ endAt := 800000, claims := [{ session := 0, priority := 5, tag := 1 }, { session := 1, priority := 5, tag := 2 }] } : Election).winner = some (0, 5)) = true := by
  decide +kernel

/-- KeepaliveAndSilence: the owner, and no session after its 2 s. -/
theorem test_meets_keepalive :
    (calls keepaliveRow live 0x0106 0 [] &&
     live.host.keepAt + 2 * Config.ticksPerSecond ≤ max live.now 32000000 && live.waits 0x0106 live.silentAt (fun k => live.host.owner = some k) = false) = true := by
  decide +kernel

/-- HandoverRules: YIELD to an open session, ACCEPT without a handover, of another session, of the successor, and too late; WHO_OWNS. -/
theorem test_meets_handover :
    (calls yieldRow twoOpen 0x0104 0 (octets [1, 0, 0, 0]) && (twoOpen.session 1).isOpen &&
     calls acceptRow live 0x0105 0 [] &&
     calls acceptRow (yielding 1) 0x0105 0 [] &&
     calls acceptRow (yielding 0) 0x0105 0 [] &&
     ({ yielding 1 with host := { (yielding 1).host with handover := some { successor := 1, endAt := 0, tag := 1 } } } : State).host.handover.any (fun h => h.endAt ≤ 0) &&
     (yielding 1).waits 0x0105 16000000 (fun k => k = 1) = false && (yielding 1).host.handover.isSome &&
     calls whoOwnsRow live 0x0107 0 []) = true := by
  decide +kernel

/-- SystemReads and ResetRequests. -/
theorem test_meets_system :
    (calls pingRow live 0x0001 0 (octets [1, 2]) &&
     calls getInfoRow live 0x0002 0 [] &&
     calls getStatusRow live 0x0003 0 [] &&
     calls getTimeRow live 0x0007 0 [] &&
     calls gatehouseReadRow live 0x000A 0 [] &&
     calls resetRow live 0x0004 0 (zeros 4) &&
     calls resetIntoRecoveryRow live 0x0004 0 (octets [1, 0, 0, 0]) &&
     resetRow.hears 0 .h0 (State.asked ({ live with phase := .gatehouse } : State) 4 0 (zeros 4)) (asks 4 0 (zeros 4)) && fitsPort .h0 0 &&
     resetRow.hears 0 .h0 (State.asked ({ live with phase := .recovery } : State) 4 0 (zeros 4)) (asks 4 0 (zeros 4)) && resetRow.valid (Req.of .h0 (asks 4 0 (zeros 4))) { live with phase := .recovery } &&
     resetIntoRecoveryRow.hears 0 .h0 (State.asked ({ live with phase := .recovery } : State) 4 0 (octets [1, 0, 0, 0])) (asks 4 0 (octets [1, 0, 0, 0])) && resetIntoRecoveryRow.valid (Req.of .h0 (asks 4 0 (octets [1, 0, 0, 0]))) { live with phase := .recovery } &&
     ({ live with power := { live.power with reset := some { cause := 3, notBefore := 0 } } } : State).phase = .running) = true := by
  decide +kernel

/-- ClockCommands: the first and the last instants that SET_TIME takes. -/
theorem test_meets_clockCommands :
    (calls setTimeRow live 0x0006 0 (le 8 (7305 * 86400 * 16000000)) &&
     calls setTimeRow live 0x0006 0 (le 8 (36525 * 86400 * 16000000 - 1)) &&
     calls setTimeRow { live with clock := { live.clock with ppsLocked := true } } 0x0006 0 (le 8 (7305 * 86400 * 16000000)) &&
     calls setClockPolicyRow live 0x0008 0 (octets [1, 0, 0x10, 0x0E])) = true := by
  decide +kernel

/-- EventQueues: fences with room and without, a marker due and before it, and the queue commands. -/
theorem test_meets_eventQueues :
    (calls fenceRow live 0x0009 0 [] && (live.session 0).queue.openFences < 8 &&
     calls fenceRow fencedFull 0x0009 0 [] && 8 ≤ (fencedFull.session 0).queue.openFences &&
     (fenced.session 0).queue.fences.length = 1 && fenced.shape = partShape &&
     calls eventReadRow live 0x0901 0 (octets [127, 0, 0, 0]) &&
     calls eventReadFlushRow live 0x0901 0 (octets [1, 1, 0, 0]) &&
     calls eventMaskRow live 0x0902 0 (octets [0, 1, 0, 0, 1]) &&
     (live.session 0).queue.mask.length = 192 &&
     calls watermarkSetRow live 0x0903 0 (octets [0, 4, 0, 0])) = true := by
  decide +kernel

/-- DeliveryOrder: two events of different classes. -/
theorem test_meets_delivery :
    (({ items := [{ source := 1, cls := 2 }, { source := 2, cls := 1 }] } : EventQueue).nextIndex = some 1) = true := by
  decide +kernel

/-- A sample of both benches without a signal. -/
def quiet : BenchSample := { high := 0, low := 0, highSat := false, lowSat := false, beyond := false, negative := false }

/-- A channel as a function of its old setting. -/
def State.withChan (s : State) (n : Nat) (f : Channel → Channel) : State := s.setChan n f

/-- A die as a function of its old setting. -/
def State.withDie (s : State) (d : Nat) (f : Die → Die) : State := { s with dies := alter s.dies d f }

/-- A channel bound by a context. -/
def boundState : State :=
  { live with bill := { live.bill with live := [{ ctx with currents := [0, 255, 255, 255], voltages := [1, 255, 255, 255] }] } }

/-- The belvedere's die fails. -/
def dieLost (d : Nat) : State := State.withDie live d (fun x => { x with state := 1 })

/-- A fade of channel 0. -/
def fading (f : Swap) : State := State.withChan live 0 (fun c => { c with fade := some f })

/-- Roles: channel 0 a voltage, channel 1 a current, of a single-phase system. -/
def roles : MeasConfig :=
  { systems := { connection := 1, udin := 0x43660000#32 } :: List.replicate 7 {}
    channels := [{ role := 1, system := 0 }, { role := 4, system := 0 }] ++ List.replicate 22 {} }

/-- They are in force. -/
def measuring : State := { live with meas := { live.meas with config := roles, accepted := roles } }

/-- The tracker is locked. -/
def locked : State := { measuring with tracker := { measuring.tracker with state := 1, channel := 0 } }

/-- One sample of each stream of channel 0. -/
def sampled : State :=
  State.withChan live 0 (fun c => { c with wide := [{ index := 5, value := 7 }, { index := 6, value := 8 }], forwarding := true })

/-- A capture in a phase. -/
def capturing (phase : Nat) : State :=
  { live with captures := alter live.captures 0 (fun c => { c with phase := phase, die := 1, units := 1 }) }

/-- The side slice of A0. -/
def sided (f : SideSlice → SideSlice) : State := State.withDie live 1 (fun d => { d with side := f d.side })

/-- A conversion at the head of its queue. -/
def converting (last injected : Bool) : State := sided (fun x => { x with queue := [{ input := 3, last := last, injected := injected }] })

/-- Repair holds the range mode of channel 0. -/
def repairHeld : State := State.withChan live 0 (fun c => { c with repairMode := true, rangeMode := 0 })

/-- Channel 0 is under sweep, its home being measured. -/
def underSweep : State := { live with sweep := { live.sweep with unit := some 0, phase := 2, dueAt := 50000 } }

/-- The side slice of A0 has a trigger, its delay running or not, and a queue. -/
def triggered (actAt : Option Nat) (queue : List Conv) : State :=
  sided (fun x => { x with trigger := { source := 0x24, delay := 3, codes := [1, 2], actAt := actAt }, queue := queue })

/-- An edge of PWMIN1 stands since `q`. -/
def edgeHeld (q : Nat) : State := { triggered none [] with pins := { live.pins with pwm := [none, some (q, true)] } }

/-- Timer 7 in a mode. -/
def timedTimer (mode : Nat) : State := { live with timers := alter live.timers 7 (fun _ => { mode := mode, next := 1600, period := 160 }) }

/-- A capture with more of its state given. -/
def captured (f : Capture → Capture) : State := { capturing 2 with captures := alter (capturing 2).captures 0 f }

/-- The part in another phase. -/
def inPhase (x : Phase) : State := { live with phase := x }

/-- A unit as a function of its old setting. -/
def State.withConv (s : State) (k : Nat) (f : Converter → Converter) : State := s.setConv k f

/-- ChannelSettings: a lane, a bound channel, a channel in and out of service; the windows, detectors and delay of a channel. -/
theorem test_meets_channelSettings :
    (calls chConfigRow live 0x0201 0xA0FF (octets [1, 0, 0, 0, 0, 0, 0, 0]) && 24 ≤ unitOf 0xA0FF &&
     calls chConfigRow boundState 0x0201 0x20FF (octets [0, 0, 0, 0, 0, 0, 0, 0]) && boundState.bound 0 &&
     calls chConfigRow live 0x0201 0x20FF (octets [1, 2, 1, 0, 0, 0, 0, 0]) && unitOf 0x20FF = 0 && (live.chan 0).repairMode = false && live.underSweep 0 = false && (live.chan 0).lost = false &&
     calls chConfigRow repairHeld 0x0201 0x20FF (octets [1, 0, 0, 0, 0, 0, 0, 0]) && repairHeld.modeOf 0 = 1 &&
     calls chConfigRow repairHeld 0x0201 0x20FF (octets [1, 1, 1, 0, 0, 0, 0, 0]) &&
     calls chConfigRow underSweep 0x0201 0x20FF (octets [1, 2, 1, 0, 0, 0, 0, 0]) && underSweep.underSweep 0 && (underSweep.chan 0).enabled && underSweep.modeOf 0 = 0 &&
     calls chConfigRow (State.withChan live 0 (fun c => { c with lost := true })) 0x0201 0x20FF (octets [0, 0, 0, 0, 0, 0, 0, 0]) &&
     calls chConfigRow live 0x0201 0x20FF (octets [0, 0, 0, 0, 0, 0, 0, 0]) && live.bound 0 = false &&
     (live.chan 0).peakMs ≠ 60000 && calls detectorSetRow live 0x0303 0x20FF (le 2 (live.chan 0).peakMs ++ octets [15, 23]) &&
     calls windowSetRow live 0x0205 0x20FF (octets [0, 1, 1, 2] ++ leInt 4 (-65536) ++ leInt 4 65535 ++ le 2 1 ++ zeros 2) &&
     calls windowSetRow live 0x0205 0x45FF (octets [1, 1, 1, 0] ++ leInt 4 65534 ++ leInt 4 65535 ++ le 2 65535 ++ zeros 2) &&
     calls windowSetRow (State.withChan live 0 (fun c => { c with lost := true })) 0x0205 0x20FF (octets [0, 1, 1, 2] ++ leInt 4 0 ++ leInt 4 1 ++ le 2 1 ++ zeros 2) &&
     calls detectorSetRow live 0x0303 0x20FF (le 2 60000 ++ octets [15, 23]) &&
     calls detectorSetRow live 0x0303 0x85FF (le 2 1 ++ octets [0, 0]) &&
     calls resamplerSetDelayRow live 0x0304 0x20FF (leInt 4 (-79600) ++ zeros 4) &&
     calls resamplerSetDelayRow live 0x0304 0x20FF (leInt 4 79600 ++ zeros 4)) = true := by
  decide +kernel

/-- WindowRules: an exit, samples inside, and banks with and without a fade. -/
theorem test_meets_windowRules :
    ((({ enable := true, low := -10, high := 10, dwell := 1 } : Window).see 11 5 1 1).2 = some (5, true, 11) &&
     calls bankLoadRow live 0x0301 0x20FF (octets [1, 0, 0, 0] ++ zeros 256) && (live.chan 0).fade = none && (live.chan 0).swap = none &&
     calls bankLoadRow (fading { target := 1, length := 10 }) 0x0301 0x20FF (octets [0, 0, 0, 0] ++ zeros 256) &&
     calls bankSwapRow live 0x0302 0x20FF (octets [1, 0, 0, 0]) &&
     calls bankSwapRow live 0x0302 0x20FF (octets [1, 0, 0, 0x10]) && live.carrierUnit 0 = some 0 &&
     calls bankSwapRow (fading { target := 1, length := 10 }) 0x0302 0x20FF (octets [0, 0, 0, 0]) &&
     ((fading { target := 1, length := 10, done := 10 }).chan 0).fade = some { target := 1, length := 10, done := 10 } && ((fading { target := 1, length := 10, done := 10 }).chan 0).swap = none &&
     ({ live with now := 40000 } : State).narrowSuppressed 0 = false) = true := by
  decide +kernel

/-- TrackerRules: a free and a locked tracker, and the two sides of the 23.5294 ms. -/
theorem test_meets_tracker :
    (calls resamplerSetRow measuring 0x0304 0 (octets [0, 255, 255, 0] ++ le 4 4634) &&
     calls resamplerSetRow locked 0x0304 0 (octets [0, 255, 255, 0] ++ le 4 46341) &&
     locked.tracker.state = 1 && (512 * 376471) * 10 > 1927528448 &&
     (512 * 376470 - 64) * 10 ≤ 1927528448 && locked.tracker.leaving = none) = true := by
  decide +kernel

/-- StreamsAreRead: the objects of CH_QUERY, and a stream with records. -/
theorem test_meets_streams :
    (calls chQueryRow live 0x0202 0x20FF [] &&
     calls chQueryRow live 0x0202 0xA5FF [] &&
     calls chQueryRow live 0x0202 0x2000 [] &&
     calls chQueryRow live 0x0202 0x2008 [] &&
     calls streamReadRow sampled 0x0305 0x20FF (octets [0, 0, 0xFC, 3, 0, 0, 0, 0] ++ le 8 5) &&
     sampled.streamChannel 0x20FF = some 0 &&
     ((runFrom 5 ((sampled.chan 0).records 0)).take 1020).length = 2 &&
     calls streamReadRow sampled 0x0305 0x20FF (octets [1, 0, 1, 0, 0, 0, 0, 0] ++ le 8 5) && (sampled.chan 0).forwarding) = true := by
  decide +kernel

/-- TriggersAndCaptures, triggers: a side slice in and out of service and a timer; timers of each mode; pin edges; an action due. -/
theorem test_meets_triggers :
    (calls trigConfigRow live 0x0203 0x2008 (octets [0x20, 1, 0, 0, 3, 0, 0, 0] ++ zeros 8) &&
     calls trigConfigRow (dieLost 1) 0x0203 0x2008 (octets [0, 0, 0, 0, 0, 0, 0, 0] ++ zeros 8) && (dieLost 1).outOfService 1 &&
     calls trigConfigRow live 0x0203 0x0107 (octets [2, 0, 0, 0] ++ le 4 160 ++ le 8 1600) &&
     live.phase = .running && nth live.pins.pwm 1 = none && nth live.pins.pwm 0 = none && live.pins.pwm.length = 2 &&
     nth (edgeHeld 41).pins.pwm 1 = some (41, true) && nth (edgeHeld 41).pins.pwm 0 = none && (edgeHeld 41).pins.pwm.length = 2 && 4 * max (edgeHeld 41).now 10 < 41 + 7 && ((edgeHeld 41).die 1).side.trigger.source = 0x24 && ((edgeHeld 41).die 1).side.trigger.actAt = none &&
     ((sided (fun x => { x with trigger := { source := 0x24, acted := 50 } })).die 1).side.trigger.acted = 50 && ((edgeHeld 41).die 1).side.trigger.acted ≤ 41 && (triggered none []).shape = partShape && [0x24].contains ((triggered none []).die 1).side.trigger.source && ((triggered (some 96) []).die 1).side.trigger.actAt = some 96 &&
     (triggered (some 96) []).outOfService 1 = false && ((triggered (some 96) []).die 1).side.trigger.codes.length = 2 &&
     (({ input := 5, at_ := 90 } : Conv).behind 96) = false &&
     ((triggered (some 96) (List.replicate 3 { input := 5, at_ := 90 })).die 1).side.queue.length = 3 &&
     ((triggered (some 96) [{ input := 5, at_ := 96, injected := true, session := 2, last := true }]).die 1).side.queue.all (fun c => c.injected && c.at_ = 96 && c.session = 2) &&
     (State.withDie (triggered (some 96) []) 1 (fun d => { d with state := 1 })).outOfService 1 &&
     (nth (captured (fun c => { c with phase := 1, trigger := { c.trigger with actAt := some 96 } })).captures 0).trigger.actAt = some 96 &&
     (nth (timedTimer 2).timers 7).next ≤ 1600 && (nth (timedTimer 1).timers 7).mode = 1 && (nth (timedTimer 0).timers 7).mode = 0 &&
     nth (timedTimer 2).timers 7 = { mode := 2, next := 1600, period := 160 }) = true := by
  decide +kernel

/-- TriggersAndCaptures, captures: each phase, a ring without size, and a record waiting. -/
theorem test_meets_captures :
    (calls captureArmRow live 0x0207 0x0400 (octets [1, 1, 16, 7, 0x20, 0, 0, 0] ++ zeros 8) && (nth live.store.rings 0).size ≠ 0 && live.dieDown 1 = false &&
     calls captureArmRow live 0x0207 0x0407 (octets [1, 63, 0, 0, 0x20, 0, 0, 0] ++ zeros 8) && (nth live.store.rings 7).size = 0 &&
     calls captureStopRow (capturing 1) 0x0208 0x0400 [] &&
     calls captureStopRow (capturing 2) 0x0208 0x0400 [] &&
     calls captureStopRow (capturing 3) 0x0208 0x0400 [] &&
     calls captureStopRow live 0x0208 0x0400 [] &&
     calls captureArmRow (capturing 2) 0x0207 0x0401 (octets [1, 1, 16, 7, 0x20, 0, 0, 0] ++ zeros 8) && (nth live.store.rings 1).size ≠ 0 && (capturing 2).captures.any (fun c => c.phase ≠ 0 && c.die = 1) &&
     calls captureArmRow (dieLost 1) 0x0207 0x0400 (octets [1, 1, 16, 7, 0x20, 0, 0, 0] ++ zeros 8) && (dieLost 1).dieDown 1 && (dieLost 1).sweepRuns 1 = false && (dieLost 1).captures.all (fun c => c.phase = 0) &&
     (nth (captured (fun c => { c with lastIndex := 100 })).captures 0).phase = 2 && (nth (captured (fun c => { c with lastIndex := 100 })).captures 0).lastIndex = 100 && (nth (capturing 2).captures 0).epochTick = 0 &&
     (nth (captured (fun c => { c with phase := 3, drainLeft := 100 })).captures 0).drainLeft = 100 && drainRate (live.lanesUp 1) ≠ 0 &&
     (nth (captured (fun c => { c with phase := 0, writing := [default] })).captures 0).writing.length = 1 && (capturing 0).storeWrites && (capturing 0).store.rings.length = 8 &&
     (nth (capturing 3).captures 0).phase = 3 && (capturing 3).dieDown 1 = false && (capturing 3).storeWrites) = true := by
  decide +kernel

/-- SideSliceConverts: a list that fits and one that does not, the head of the queue in its three forms, and SYNC of one die, of all, and with a die down. -/
theorem test_meets_side :
    (calls injectRow live 0x0204 0x2008 (octets [4, 0, 0, 0, 3, 3, 3, 3]) && live.outOfService 1 = false &&
     calls injectRow (converting true true) 0x0204 0x2008 (octets [4, 0, 0, 0, 3, 3, 3, 3]) &&
     ((converting true true).die 1).side.queue.length = 1 && (converting true false).outOfService 1 = false && (converting false true).rawInstant 0 + 16 ≤ 16 &&
     calls injectRow (dieLost 1) 0x0204 0x2008 (octets [4, 0, 0, 0, 3, 3, 3, 3]) && (dieLost 1).outOfService 1 &&
     (({ converting true true with host := { live.host with sessions := alter live.host.sessions 0 (fun x => { x with busy := some (asks 0x0204 0 []) }) } } : State).injecting { input := 3, last := true, injected := true }).isSome &&
     ((converting false false).die 1).side.queue.all (fun c => !c.last && !c.injected) &&
     (State.withDie (converting false true) 1 (fun d => { d with state := 1 })).outOfService 1 &&
     calls syncRow live 0x0206 0x3FFF [] &&
     calls syncRow underSweep 0x0206 0x3FFF [] && (syncDies 0x3FFF).any underSweep.sweepRuns &&
     calls syncRow live 0x0206 0xBFFF [] &&
     calls syncRow live 0x0206 0x1FFF [] &&
     (syncDies 0x1FFF).all (fun d => !live.dieDown d) && (syncDies 0x1FFF).any live.sweepRuns = false &&
     calls syncRow (dieLost 2) 0x0206 0x1FFF [] && (dieLost 2).dieDown 2) = true := by
  decide +kernel

/-- StreamsAdvance: units that convert at home, and the events of their streams due. -/
theorem test_meets_streamsAdvance :
    (live.converts 0 && live.swept 0 = false && live.delivers 0 = some 0 && live.converts 23 &&
     (live.conv 0).index ≤ live.rawIndex 0 400 &&
     disagrees quiet = false && quiet.beyond = false && quiet.lowSat = false &&
     underSweep.swept 0 && underSweep.converts 0 && underSweep.sweep.since + 2 * Config.ms ≤ 40000 && 40000 < underSweep.sweep.dueAt && (live.conv 0).rcvLeft = 0 && (live.conv 0).excluded.isEmpty &&
     (live.conv 0).held = none && (live.conv 0).failing.isEmpty && (live.conv 0).lowFailed = false && (live.conv 0).highFailed = false && (live.conv 0).stuck.all (fun e => e.2 < 65535) &&
     (inPhase .gatehouse).gates 24 && (live.conv 24).index ≤ (inPhase .gatehouse).rawIndex 24 400 &&
     rawCode 0 false { quiet with high := 1700, low := 53 } = 1700 && rawCode 0 false { quiet with high := 1900, low := 59 } = 1888 && rawCode 0 true { quiet with high := 1700, low := 53 } = 1696 && rawCode 0 false { quiet with highSat := true, negative := true, lowSat := true } = -65536 &&
     highCode { quiet with highSat := true, negative := true } = -2048 && highCode { quiet with highSat := true } = 2047 &&
     live.deliversWide 0 0 (live.wideAt 0 40000) && live.worksFor 0 = some 0 && (live.conv 0).wideIndex ≤ live.wideAt 0 40000 && (live.conv 0).wideSuppressed (live.wideAt 0 40000) = false && (State.withConv live 0 (fun x => { x with wideFrom := 1300 }) |>.conv 0).wideSuppressed 1201 &&
     (live.conv 0).narrowIndex ≤ live.narrowAt 0 400000 &&
     decide (((State.withConv live 2 (fun x => { x with index := 500 })).conv 2).index ≤ 100) = false &&
     (((State.withChan live 5 (fun c => { c with fast := { c.fast with enable := true, armed := false, count := 1 } })).chan 5).window false).due &&
     (({ locked.tracker with ends := [{ at512 := 1000 }] } : Tracker).cycleTo 1000).isSome &&
     ((State.withChan live 23 (fun c => { c with windowPeak := { any := true } })).chan 23).windowPeak.any && ((State.withChan live 23 (fun c => { c with windowPeak := { any := true } })).chan 23).windowAt < 5) = true := by
  decide +kernel

/-- An image of A0 with the trims of reset, for a part. -/
def imageFor (tag : Nat) : List Byte :=
  let b := calImage 1 7 0 (List.replicate 6 {})
  let c := b.take 16 ++ le 4 tag ++ (b.drop 20).take 2024
  c ++ le 4 (crc32c c)

/-- A sweep with its state given. -/
def sweeping (f : SweepState → SweepState) : State := { live with sweep := f live.sweep }

/-- A sweep of units still to come. -/
def order (units : List Nat) : SweepOp := { tag := 9, handle := 0x20FF, units := units }

/-- The last unit of a sweep whose capture held no signal. -/
def weak : State :=
  sweeping (fun x => { x with running := some (order []), computing := some { unit := 0, base := List.replicate 26 0, limits := defaultCalLimits } })

/-- The turn of channel 0's sweep, with one lane free. -/
def oneLane : State :=
  { sweeping (fun x => { x with running := some (order [0]) }) with
    converters := (List.range 30).map (fun k => if k < 25 then live.conv k else { live.conv k with job := some { prec := 2 } }) }

/-- The payload of MEAS_CONFIG. -/
def measPayload (c : MeasConfig) : List Byte :=
  octets [c.nominal, 0, 0, 0] ++ c.signalling.flatMap (le 2) ++
  c.systems.flatMap (fun x => octets [x.connection, 0, 0, 0] ++ f32Bytes x.udin) ++
  c.channels.flatMap (fun x => octets [x.role, x.polarity, x.system, x.position, x.flicker, 0, 0, 0] ++ f32Bytes x.scale)

/-- Flicker on nine channels. -/
def flickering : MeasConfig := { channels := List.replicate 9 { role := 1, flicker := 1 } ++ List.replicate 15 {} }

/-- A context binds channels 0 and 1 of the system. -/
def billing : State :=
  { measuring with bill := { live.bill with live := [{ ctx with currents := [1, 255, 255, 255], voltages := [0, 255, 255, 255] }] }
                   store := { live.store with nextSerial := 2 } }

/-- The default parameters of Table 6.4 as PQ_EVENT_CONFIG carries them. -/
def pqPayload : List Byte :=
  octets [0, 0, 0xEF, 0] ++ [900, 1100, 50, 20, 50, 20, 100, 80, 20, 0].flatMap (le 2) ++ zeros 48

/-- A block of the basic interval is held. -/
def blocked : State := { measuring with meas := { measuring.meas with basic := [{ sequence := 1 }] } }

/-- A block with a value of channel 0 and one that HARMONIC_READ shows of channel 1. -/
def valued : State :=
  { measuring with meas := { measuring.meas with basic := [{ sequence := 1, values := [{ kind := 0, object := 0, quantity := 1 }, { kind := 16, object := 1 }] }] } }

/-- A request on it. -/
def readOf (opcode : Nat) (payload : List Nat) : Req := Req.of .h0 (asks opcode 0 (octets payload))

/-- A block of one value, of channel 0. -/
def blockAt (start stop level : Nat) : MeasBlock :=
  { sequence := level, start := start, stop := stop, parts := 12, tick := start, values := [{ kind := 0, object := 0, quantity := 1 }] }

/-- The first block of A0 is over, those of the other dies are not. -/
def supraDue : State :=
  { measuring with
    dies := measuring.dies.map (fun d => { d with epoch := 1 })
    meas := { measuring.meas with supraIndex := [0, 100000, 100000, 100000, 100000] } }

/-- Aggregations under way, with cycles known for `n` seconds. -/
def aggregating (n : Nat) (f : MeasState → MeasState) : State :=
  { measuring with
    now := n * 16000000
    clock := { measuring.clock with mapSet := true }
    tracker := { measuring.tracker with state := 1, start := 512 * n * 16000000 }
    meas := f { measuring.meas with
      groups := [{ objects := everyObject }], tens := [{ objects := everyObject }], twos := [{ objects := everyObject }]
      groupParts := List.replicate 15 (blockAt 5 6 1), tenStart := some 0, twoStart := some 0, tenParts := [blockAt 5 6 1]
      twoParts := [blockAt 5 6 3], secondStart := some 0, freq := [(0, 1, 2)] } }

/-- CalibrationRequests: records of units, a request with any 2,048 bytes, an image in its ranges for any part tag (0 and 1 read back: one of them is of another part), and limits. -/
theorem test_meets_calibration :
    (calls calStatusRow live 0x0402 0x3FFF [] &&
     calls calStatusRow live 0x0402 0xA0FF [] &&
     calls calImageReadRow live 0x0403 0x3FFF [] &&
     (live.calsOf 1).all (fun c => c.times.length = 4) &&
     calls calLimitsReadRow live 0x0407 0 (zeros 28) &&
     calls calLimitsWriteRow live 0x0407 0 (octets [1, 0] ++ defaultCalLimits.flatMap (le 2)) &&
     calls calImageWriteRow live 0x0404 0x3FFF (zeros 2048) &&
     (Req.of .h0 (asks 0x0404 0x3FFF (imageFor partTag))).imageRanges && live.sweepOn 1 = false &&
     (Req.of .h0 (asks 0x0404 0x3FFF (imageFor partTag))).u 2 1 = 1 &&
     (Req.of .h0 (asks 0x0404 0x3FFF (imageFor 0))).u 16 4 = 0 && (Req.of .h0 (asks 0x0404 0x3FFF (imageFor 1))).u 16 4 = 1) = true := by
  decide +kernel

/-- CalibrationSlots: a store that may start and one under way, a slot valid and one not, and both completions. -/
theorem test_meets_slots :
    (calls calStoreRow live 0x0405 0 (octets [1, 0, 0, 0]) && live.cal.storing = none && live.opRoom 0 &&
     calls calStoreRow { live with cal := { live.cal with storing := some (1, 0, {}) } } 0x0405 0 (zeros 4) &&
     calls calRestoreRow live 0x0406 0 (octets [255, 0, 0, 0]) && live.restoreSlot 255 = none &&
     calls calRestoreRow { live with cal := { live.cal with slots := [some {}, none] } } 0x0406 0 (zeros 4) &&
     ({ live with cal := { live.cal with slots := [some {}, none] } } : State).restoreSlot 0 = some 0 && live.cal.slots.length = 2 && live.cal.abandoned = false && live.store.state = 1 &&
     ({ live with cal := { live.cal with restoring := [(9, 0, {}, true)] } } : State).store.state = 1 && ({ live with store := { live.store with state := 2 } } : State).store.state ≠ 1) = true := by
  decide +kernel

/-- SweepCourse: the refusals and the acceptance of CAL_SWEEP, and each stage of a sweep. -/
theorem test_meets_sweeps :
    (calls calSweepRow live 0x0401 0x20FF (octets [1, 0, 0, 0]) && live.sweepOn 1 = false &&
     calls calSweepRow live 0x0401 0xA0FF (octets [0, 23, 0, 0]) &&
     calls calSweepRow (dieLost 1) 0x0401 0x20FF (zeros 4) && (dieLost 1).dieDown 1 &&
     calls calSweepRow (sweeping (fun x => { x with queue := [order [0]] })) 0x0401 0x20FF (zeros 4) && (sweeping (fun x => { x with queue := [order [0]] })).unitSweeping 0 &&
     calls calSweepRow (sweeping (fun x => { x with queue := List.replicate 8 { handle := 0x80FF } })) 0x0401 0x20FF (zeros 4) && (sweeping (fun x => { x with queue := List.replicate 8 { handle := 0x80FF } })).unitSweeping 0 = false &&
     (dieLost 5).belvedereUp = false && (live.chan 0).enabled && (live.conv 0).cal.ramping = false && (live.die 1).side.queue.isEmpty &&
     (sweeping (fun x => { x with unit := some 0, lane := some 2, phase := 1 })).correlationEnd 2 ≤ 640000 + 5656 &&
     (sweeping (fun x => { x with unit := some 0, phase := 4 })).sweep.next = none && live.health.unconfirmed = none && (List.range 24).all (fun k => (live.conv k).lowFailed = false && (live.chan k).faulty = false) &&
     poorSignal (SweepDone.measure { unit := 0, base := List.replicate 26 0, limits := defaultCalLimits } (weak.conv 0)) defaultCalLimits && (live.conv 0).cal.target.length = 26 && weak.sweep.computing.isSome && weak.sweep.next = none && weak.sweep.unit = none &&
     oneLane.freeLanes = [0] && oneLane.sweep.unit = none && oneLane.shape = partShape && oneLane.sweep.running = some (order [0]) &&
     decide ([0, 1, 2, 3].Nodup) && decide (([0, 1, 2, 3] : List Nat) ≠ []) && ([0, 1, 2, 3] : List Nat).all (fun i => i < (List.replicate 26 (0 : Int)).length) &&
     20 ≤ ((State.withChan live 23 (fun c => { c with excessRun := 20 })).chan 23).excessRun && (live.chan 23).recommended = false &&
     nth (State.withConv live 29 (fun x => { x with cal := { x.cal with step := 63 :: List.replicate 25 64 } }) |>.conv 29).cal.step 0 < 64) = true := by
  decide +kernel

/-- MeasurementRequests: a configuration taken and its two refusals, parameters of a system and of the band, and blocks held and not. -/
theorem test_meets_measurement :
    (calls measConfigRow live 0x0501 0 (measPayload roles) && live.changesBound roles = false && live.missesElements roles = false &&
     calls measConfigRow billing 0x0501 0 (measPayload {}) && billing.changesBound {} &&
     calls measConfigRow live 0x0501 0 (measPayload flickering) && 8 < (flickering.channels.filter (fun x => x.flicker ≠ 0)).length &&
     calls pqEventConfigRow live 0x0503 0 (octets [255, 0, 16] ++ zeros 19 ++ le 2 500 ++ zeros 48) &&
     calls pqEventConfigRow measuring 0x0503 0 pqPayload &&
     calls pqEventConfigRow live 0x0503 0 pqPayload &&
     calls measReadRow measuring 0x0502 0 (octets [0, 0, 1, 15, 1, 0, 0, 0, 1]) &&
     calls measReadRow blocked 0x0502 0 (octets [0, 0, 1, 0, 2, 0, 0, 0, 1, 4]) &&
     (blocked.meas.blocks 1 false)[0]? = some { sequence := 1 } && (blocked.meas.blocks 1 false)[15]? = none &&
     calls harmonicReadRow measuring 0x0504 0 (octets [0, 1, 15, 0, 1, 100, 0, 0]) &&
     calls harmonicReadRow blocked 0x0504 0 (octets [1, 1, 0, 7, 70, 1, 0, 0]) &&
     ((valued.blocksRead (readOf 0x0502 [0, 0, 1, 0, 1, 0, 0, 0, 1]) 1)[0]?).isSome && ((valued.blocksRead (readOf 0x0502 [0, 0, 1, 15, 1, 0, 0, 0, 1]) 1)[15]?).isNone &&
     calls harmonicReadRow valued 0x0504 0 (octets [1, 1, 0, 1, 100, 1, 0, 0]) && ((valued.meas.blocksOf 1 false (fun v => decide (16 ≤ v.kind) && decide (v.object = 1)))[0]?).isSome &&
     calls flickerReadRow live 0x0505 0x20FF [] &&
     (nth ({ live with meas := { live.meas with config := flickering } } : State).meas.config.channels 0).flicker ≠ 0) = true := by
  decide +kernel

/-- AggregationsRun: each level with its parts complete. -/
theorem test_meets_aggregations :
    ((aggregating 1000 (fun m => { m with basics := [{ start := 2, stop := 3, cycles := 12 }] })).meas.config.cyclesN ≤ 12 && (aggregating 1000 id).meas.cut = [] &&
     (aggregating 1000 id).meas.groupParts.length = 15 && (aggregating 1000 id).meas.groups = [{ objects := everyObject }] && (aggregating 1000 id).meas.groupParts.all (fun b => b.start / tenTicks = 0) &&
     ({ objects := everyObject } : Track).holds { kind := 0, object := 0, quantity := 1 } &&
     multipleAfter tenTicks 0 ≤ (aggregating 1000 id).stamp (aggregating 1000 id).now && (aggregating 1000 id).cyclesReach tenTicks && (aggregating 1000 id).blocksReach tenTicks && (aggregating 1000 id).meas.basics.isEmpty && (aggregating 1000 id).meas.tenStart = some 0 &&
     multipleAfter twoTicks 0 ≤ (aggregating 8000 id).stamp (aggregating 8000 id).now && (aggregating 8000 (fun m => { m with tenStart := some twoTicks })).meas.tenStart = some twoTicks &&
     (aggregating 1000 id).secondFrom = some 0 && (aggregating 1000 id).cyclesPast tenSecTicks &&
     supraDue.blockChannels 1 = [0, 1] && (supraDue.die 1).epoch ≠ 0 && supraDue.meas.cut = [] && supraDue.blockTick 1 + supraTicks + 1600 ≤ 3300000 && [2, 3, 4, 5].all (fun j => 3300000 < supraDue.blockTick j + supraTicks + 1600) &&
     (aggregating 1000 id).meas.pinstAt < ((aggregating 1000 id).stamp (aggregating 1000 id).now - 1600) / secTicks * secTicks) = true := by
  decide +kernel

/-- A store device of 5,000 blocks, of which 100 are spare. -/
def roomy (s : State) : State := { s with store := { s.store with devices := [{ present := true, capacity := 5000 * 262144, spare := 100 }, {}] } }

/-- Contexts that are live. -/
def living (l : List Context) : State := { live with bill := { live.bill with live := l, free := (List.range 160).drop l.length }, store := { live.store with nextSerial := 200 } }

/-- A context that parks. -/
def parking : State :=
  { living [{ ctx with state := 2 }] with
    bill := { (living [{ ctx with state := 2 }]).bill with parking := [(1, 9, 0, 160000)], nextFold := 1 } }

/-- A shadow context of node 5. -/
def shadowCtx : Context := { serial := 1, kind := 1, node := 5, shadow := { length := 15, applied := 1, lastEnd := 1000 } }

/-- A parked context. -/
def parked (c : Context) : State :=
  { live with bill := { live.bill with free := List.range 160 }, store := { live.store with parked := [c.serial], pool := [(c, 1)], nextSerial := 200 } }

/-- A feed record of a node that ends at an instant. -/
def feedOf (node stop : Nat) : List Byte := le 2 node ++ octets [15, 0, 0, 0, 0, 0] ++ le 8 stop ++ zeros 56

/-- A group with context 1 as its feeder and context 2 as a member. -/
def grouped : State :=
  let s := living [{ ctx with kind := 2, feederOf := 0 }, { ctx with serial := 2, slot := 1 }]
  { s with bill := { s.bill with groups := alter s.bill.groups 0 (fun g => { g with feeder := 1, length := 15, members := [{ serial := 2 }] }) } }

/-- The header of BALANCE_CONFIG. -/
def balanceHead (action len k feeder hold rel abs count : Nat) : List Byte :=
  octets [action, len, k, 0] ++ le 4 feeder ++ le 2 hold ++ le 2 rel ++ le 4 abs ++ le 2 count ++ zeros 2

/-- An interval open, and one provisional. -/
def interval : GroupInterval := { number := 1, state := 0, start := 0, stop := 15 * 60 * 16000000 }

/-- The group with its members replaced. -/
def crowded (members : List Member) : State :=
  { grouped with bill := { grouped.bill with groups := alter grouped.bill.groups 0 (fun g => { g with next := some { feeder := 1, length := 15, members := members } }) } }

/-- The fold is at 100,000 ticks of billing, UTC known, with group 0 as given. -/
def groupAt (f : Group → Group) : State :=
  { grouped with clock := { grouped.clock with mapSet := true }, bill := { grouped.bill with nextFold := 100000, groups := alter grouped.bill.groups 0 f } }

/-- `n` closed ticks wait, with no element to integrate. -/
def queued (n : Nat) (x : Phase) : State :=
  { live with phase := x, meas := { live.meas with integrators := [], queue := (List.range n).map (fun k => { tick := k }), nextTick := n } }

/-- Midnight of 1 February 2000. -/
def february : Nat := 31 * 86400 * 16000000

/-- A boundary at which everything is due. -/
def due : DueActions := { boundary := 320000, instant := february, since := february - 160000 }

/-- A context with everything due. -/
def dueCtx : Context :=
  { ctx with tariff := 3, currents := [1, 255, 255, 255], voltages := [0, 255, 255, 255]
             demand := { mode := 1, length := 1, n := 1, openEnd := february }, prepay := { mode := 1, friendly := 1, standing := 5 } }

/-- It is at that boundary. -/
def atBoundary (step : Nat) : State := { living [dueCtx] with bill := { (living [dueCtx]).bill with due := some { due with step := step } } }

/-- A prepayment context. -/
def paying (f : Prepay → Prepay) : State := living [{ ctx with prepay := f { mode := 1, low := 10, ceiling := 100, credit := 5, relay := 0, state := 2 } }]

/-- ContextRequests: a shadow context, one of channels with and without room, a deletion with the right and the wrong serial, a feeder, and settings of a context that parks and one that does not. -/
theorem test_meets_contexts :
    (calls ctxCreateRow (roomy live) 0x0601 0 (octets [1, 0, 0, 0, 255, 255, 255, 255, 255, 255, 255, 255, 0, 15, 5, 0, 0, 0, 0, 0]) &&
     calls ctxCreateRow (roomy measuring) 0x0601 0 (octets [0, 0, 7, 0, 1, 255, 255, 255, 0, 255, 255, 255, 1, 0, 0, 0, 0, 0, 0, 0]) &&
     (Req.of .h0 (asks 0x0601 0 (octets [0, 0, 7, 0, 1, 255, 255, 255, 0, 255, 255, 255, 1, 0, 0, 0, 0, 0, 0, 0]))).createFits (roomy measuring) &&
     (roomy measuring).poolUsed + reservation 0 ≤ (roomy measuring).poolSize && (roomy live).poolUsed + reservation 1 ≤ (roomy live).poolSize &&
     160 ≤ (living (List.replicate 160 { ctx with slot := 159 })).bill.live.length &&
     calls ctxCreateRow (living (List.replicate 160 { ctx with slot := 159 })) 0x0601 0 (octets [1, 0, 0, 0, 255, 255, 255, 255, 255, 255, 255, 255, 0, 15, 5, 0, 0, 0, 0, 0]) &&
     calls ctxDeleteRow (living [ctx]) 0x0602 0x0200 (le 4 1) &&
     calls ctxDeleteRow (living [ctx]) 0x0602 0x0200 (le 4 2) &&
     calls ctxDeleteRow grouped 0x0602 0x0200 (le 4 1) &&
     calls ctxDeleteRow parking 0x0602 0x0200 (le 4 1) &&
     calls ctxDeleteRow live 0x0602 0 (le 4 1) && live.ctxOf 0 = none && live.parkedContexts.isEmpty &&
     calls ctxDeleteRow (parked ctx) 0x0602 0 (le 4 1) && (parked ctx).ctxOf 0 = none &&
     calls ctxSnapshotReadRow (living [ctx]) 0x0606 0x0200 (le 4 0) && (living [ctx]).store.snapshots.isEmpty &&
     (living [ctx]).ctxOf 0x0200 = some ctx && (living [ctx]).live 1 = some ctx && bit ctx.state 1 = false && bit (2 : Nat) 1 &&
     calls ctxReadRow (living [ctx]) 0x0603 0x0200 (le 2 4095 ++ le 2 1) &&
     calls ctxSnapshotReadRow parking 0x0606 0x0200 (le 4 0) &&
     calls ctxTariffTableRow parking 0x0604 0x0200 (octets [0, 7, 28, 23] ++ zeros 512) &&
     calls ctxDemandConfigRow parking 0x0605 0x0200 (octets [2, 30, 2, 0]) &&
     calls ctxSnapshotReadRow { living [ctx] with store := { (living [ctx]).store with snapshots := [{ serial := 1, period := 7 }] } } 0x0606 0x0200 (le 4 7) &&
     calls ctxTariffTableRow (living [ctx]) 0x0604 0x0200 (octets [1, 0, 1, 0] ++ zeros 512) &&
     calls ctxDemandConfigRow (living [ctx]) 0x0605 0x0200 (octets [1, 15, 1, 0]) &&
     calls ctxDemandConfigRow (living [shadowCtx]) 0x0605 0x0200 (octets [1, 15, 1, 0])) = true := by
  decide +kernel

/-- ContextsPark: a context that may park, a feeder, a park whose boundary the fold has reached, and unparks. -/
theorem test_meets_parks :
    (calls ctxParkRow (living [ctx]) 0x0607 0x0200 [] && (living [ctx]).store.parked.length < 8192 && (living [ctx]).opRoom 0 &&
     calls ctxParkRow grouped 0x0607 0x0200 [] &&
     calls ctxParkRow parking 0x0607 0x0200 [] &&
     calls ctxParkRow { living [ctx] with store := { live.store with parked := List.replicate 8192 500 } } 0x0607 0x0200 [] && 8192 ≤ (List.replicate 8192 500).length &&
     160000 ≤ tickStart parking.bill.nextFold && parking.warned = false && parking.bill.due = none && (parking.live 1).isSome && parking.storeWrites && ({ parking with store := { parking.store with state := 2 } } : State).storeWrites = false &&
     calls ctxUnparkRow (parked ctx) 0x0608 0 (le 4 1) && (parked ctx).parkedContexts.find? (fun c => c.serial = 1) = some ctx && (parked ctx).live 1 = none &&
     calls ctxUnparkRow live 0x0608 0 (le 4 1) && live.parkedContexts.isEmpty &&
     calls ctxUnparkRow { parked { ctx with serial := 5 } with bill := { (parked ctx).bill with live := List.replicate 160 ctx } } 0x0608 0 (le 4 5)) = true := by
  decide +kernel

/-- FeedsAndGroups, feeds: a request of two records; nodes without a context, repeated, late and parked. -/
theorem test_meets_feeds :
    (calls ctxShadowFeedRow (living [shadowCtx]) 0x0609 0 (octets [2, 0, 0, 0] ++ feedOf 5 1000 ++ feedOf 6 1000) &&
     live.liveNode 5 = none && live.parkedNode 5 = none && (living [shadowCtx]).liveNode 5 = some shadowCtx && (living [shadowCtx]).parkAt 1 = none && ({ living [shadowCtx] with bill := { (living [shadowCtx]).bill with parking := [(1, 9, 0, 0)] } } : State).parkAt 1 = some 0 && 0 < shadowCtx.shadow.applied &&
     feedEnd (feedOf 5 1000) = shadowCtx.shadow.lastEnd && feedEnd (feedOf 5 999) < shadowCtx.shadow.lastEnd && feedNode (feedOf 5 0) = 5 &&
     (parked shadowCtx).liveNode 5 = none && (parked shadowCtx).parkedNode 5 = some shadowCtx && shadowCtx.shadow.pending.length < 96 && (parked shadowCtx).bill.live.isEmpty) = true := by
  decide +kernel

/-- FeedsAndGroups, groups: parameters for a local feeder, for the feeder of the group and for a shadow, additions, removals, reads, and intervals. -/
theorem test_meets_groups :
    (calls balanceParametersRow (living [ctx]) 0x060A 0x0300 (balanceHead 0 15 16 1 2880 1000 10000000 0) &&
     calls balanceParametersRow (living [shadowCtx]) 0x060A 0x030F (balanceHead 0 60 1 1 15 1 1 0) &&
     calls balanceParametersRow grouped 0x060A 0x0300 (balanceHead 0 30 3 1 240 20 250 0) && (grouped.live 1).any (fun c => c.kind = 2 && c.feederOf = 0) &&
     ((nth grouped.bill.groups 0).accepted.members).all (grouped.memberFits 1 30) &&
     calls balanceAddRow grouped 0x060A 0x0300 (balanceHead 1 0 0 0 0 0 0 1 ++ le 4 2 ++ octets [255]) &&
     calls balanceAddRow live 0x060A 0x0301 (balanceHead 1 0 0 0 0 0 0 0) &&
     grouped.memberFits 1 15 { serial := 2, phase := 255 } && grouped.otherMembers 0 ≤ 100 &&
     calls balanceRemoveRow grouped 0x060A 0x0300 (balanceHead 2 0 0 0 0 0 0 1 ++ le 4 2 ++ octets [0]) &&
     calls balanceDissolveRow grouped 0x060A 0x0300 (balanceHead 3 0 0 0 0 0 0 0) &&
     calls balanceReadResultsRow grouped 0x060B 0x0300 (octets [0, 26, 0, 0]) &&
     calls balanceReadMembersRow grouped 0x060B 0x030F (octets [1, 255, 0, 0]) &&
     calls balanceAddRow (crowded (List.replicate 4096 { serial := 9 })) 0x060A 0x0300 (balanceHead 1 0 0 0 0 0 0 1 ++ le 4 2 ++ octets [255]) && 4096 < (addMembers (nth (crowded (List.replicate 4096 { serial := 9 })).bill.groups 0).accepted.members [{ serial := 2 }]).length &&
     calls balanceRemoveRow live 0x060A 0x0300 (balanceHead 2 0 0 0 0 0 0 1 ++ le 4 2 ++ octets [0]) &&
     (nth (groupAt (fun g => { g with opened := some interval })).bill.groups 0).opened = some interval && interval.stop ≤ (groupAt (fun g => { g with opened := some interval })).foldUtc && (groupAt id).phase = .running &&
     (nth (groupAt (fun g => { g with startAt := 5, next := some { feeder := 1 } })).bill.groups 0).opened = none && (nth (groupAt (fun g => { g with startAt := 5, next := some { feeder := 1 } })).bill.groups 0).next = some { feeder := 1 } && 5 ≤ (groupAt id).foldUtc &&
     ((nth (groupAt (fun g => { g with provisional := [{ interval with state := 1, stop := 1000 }] })).bill.groups 0).provisional.reverse.find? (fun x => x.done ((groupAt id).tickTo 400000000000).stampNow)).isSome &&
     interval.stop ≤ ({ grouped with clock := { grouped.clock with mapSet := true }, bill := { grouped.bill with nextFold := 100000 } } : State).foldUtc && grouped.foldUtc < interval.stop &&
     interval.done 0) = true := by
  decide +kernel

/-- EnergyIsKept: a tick that may close, one that folds, and registers of a context. -/
theorem test_meets_energy :
    (((queued 3 .running).tickTo 40000000).tickReady && (queued 3 .running).meas.queue.length < 64 &&
     ((queued 64 .ready).tickTo 40000000).tickReady && 64 ≤ (queued 64 .ready).meas.queue.length &&
     ((queued 3 .running).tickTo 1).tickReady = false &&
     (queued 3 .running).mayFold { tick := 0 } && (queued 64 .ready).mayFold { tick := 0 } = false &&
     live.mayFold { tick := 0 } &&
     ctx.regs.length = 63 && ctx.residues.length = 63 && ctx.tariff < 8) = true := by
  decide +kernel

/-- BoundaryActions: a boundary with every step due, and none. -/
theorem test_meets_boundary :
    ((atBoundary 2).stepDue { due with step := 2 } 2 &&
     (atBoundary 3).stepDue { due with step := 3 } 3 &&
     (atBoundary 4).stepDue { due with step := 4 } 4 &&
     (atBoundary 5).stepDue { due with step := 5 } 5 &&
     (atBoundary 6).stepDue { due with step := 6 } 6 &&
     (atBoundary 7).stepDue { due with step := 7 } 7 &&
     (atBoundary 8).stepDue { due with step := 8 } 8 &&
     (atBoundary 2).bill.due = some due && live.bill.due = none &&
     live.bill.pinCodes.head? = none && live.pins.tariffAt + 20 * Config.ms ≤ 400000 && live.phase = .running && 3 ≠ live.pins.tariff && 4000 < live.pins.tariffAt + 20 * Config.ms) = true := by
  decide +kernel

/-- PrepaymentRuns: settings, credit within and beyond its limit and repeated, emergency credit, and a press. -/
theorem test_meets_prepayment :
    (calls prepayConfigRow (paying id) 0x0701 0x0200 (octets [1, 3, 1, 0] ++ zeros 100) &&
     calls friendlySetRow (paying id) 0x0704 0x0200 (zeros 192) &&
     calls creditAddRow (paying id) 0x0702 0x0200 (leInt 8 (-7) ++ le 4 9) &&
     calls creditAddRow (paying (fun p => { p with transactions := [9] })) 0x0702 0x0200 (leInt 8 7 ++ le 4 9) &&
     calls creditAddRow (paying id) 0x0702 0x0200 (leInt 8 4611686018427387900 ++ le 4 9) && decide (creditLimit < (5 + 4611686018427387900 : Int)) &&
     calls emergencyCreditRow (paying id) 0x0703 0x0200 (le 8 100) &&
     calls emergencyCreditRow (paying id) 0x0703 0x0200 (le 8 101) &&
     (paying (fun p => { p with options := 1 })).bill.live.length = 1 && live.phase = .running &&
     ({ mode := 1, credit := 5, low := 10, ceiling := 100, relay := 0, state := 2 } : Prepay).left > 0 && ({ mode := 1 } : Prepay).left ≤ 0) = true := by
  decide +kernel

/-- RelaysAndTampers: each action on a relay that a context binds and on a free one; tamper settings and records; a switch. -/
theorem test_meets_relays :
    (calls relayQueryRow live 0x0705 0 (octets [3, 0, 0, 0]) &&
     calls relayOpenRow live 0x0705 0 (octets [1, 1, 1, 0]) && live.boundTo 1 = none &&
     calls relayOpenRow (paying id) 0x0705 0 (octets [0, 1, 0, 0]) && ((paying id).boundTo 0).isSome &&
     calls relayOpenRow (paying (fun p => { p with friendly := 1 })) 0x0705 0 (octets [0, 1, 0, 0]) &&
     calls relayOpenRow (paying (fun p => { p with friendly := 1 })) 0x0705 0 (octets [0, 1, 1, 0]) &&
     calls relayCloseRow live 0x0705 0 (octets [1, 2, 0, 0]) &&
     calls relayCloseRow (paying (fun p => { p with credit := 0 })) 0x0705 0 (octets [0, 2, 0, 0]) &&
     calls relayCloseRow (paying id) 0x0705 0 (octets [0, 2, 0, 0]) &&
     calls relayArmRow (paying (fun p => { p with state := 5, hold := 1 })) 0x0705 0 (octets [0, 3, 0, 0]) &&
     calls relayArmRow (paying id) 0x0705 0 (octets [0, 3, 0, 0]) &&
     calls relayPolarityRow live 0x0705 0 (octets [3, 4, 0, 1]) &&
     live.bill.relays.length = 4 && live.warned = false &&
     calls tamperContextRow (living [ctx]) 0x0706 0x0200 (octets [0x79, 15, 0, 0] ++ f32Bytes 0x41200000#32 ++ f32Bytes 0x3DCCCCCD#32 ++ f32Bytes 0x3F000000#32 ++ f32Bytes 0x41A00000#32 ++ f32Bytes 0x3DCCCCCD#32) &&
     calls tamperReadRow { living [ctx] with store := { (living [ctx]).store with tampers := [{ serial := 1, number := 3 }] } } 0x0707 0x0200 (le 4 3) &&
     calls tamperReadRow (living [ctx]) 0x0707 0x0200 (le 4 0) &&
     calls tamperLevelsRow live 0x0706 0 (octets [15, 0, 0, 0]) &&
     (nth live.bill.tamp 3).level) = true := by
  decide +kernel

/-- The line's state given. -/
def lined (f : LineState → LineState) : State := { measuring with line := f measuring.line }

/-- The mesh's state given, in native mode with a network key. -/
def meshed (f : MeshState → MeshState) : State :=
  { measuring with
    line := { measuring.line with config := { measuring.line.config with mode := 1 }, anchor := some (0, true), half := 160000 }
    sec := { measuring.sec with network := some (zeros 16) }, mesh := f measuring.mesh }

/-- Node 5, with a route of one hop. -/
def node5 : Node := { address := 5, state := 1, route := some {} }

/-- It is a neighbour. -/
def near : Neighbour := { slot := 3, node := 5 }

/-- A part with that neighbour. -/
def withNear : State := { meshed (fun m => { m with nodes := [node5] }) with line := { (meshed id).line with neighbours := [near] } }

/-- The settings of reset as LINE_CONFIG carries them, for a mode. -/
def linePayload (mode : Nat) : List Byte :=
  octets [mode, 0, 1, 0] ++ le 4 0x0FFFFFFF ++ zeros 28 ++ octets [12, 4, 14, 5, 4, 3, 32, 36] ++ le 2 6330 ++ le 2 7400 ++
  le 4 0xAAAA54C7 ++ octets [6, 0] ++ le 2 0

/-- A map of one segment. -/
def oneMap : List Byte := octets [0, 1, 2, 3] ++ List.replicate 28 (0xFF : Byte)

/-- A poll of node 5 every minute. -/
def poll : PollEntry := { index := 0, node := 5, type := 1, flags := 1, period := 1, records := 1 }

/-- It as POLL_LIST_LOAD carries it. -/
def pollBytes : List Byte := octets [5, 0, 1, 1, 1, 0, 0, 0, 0, 1] ++ zeros 6

/-- A data frame in flight. -/
def flying : State := { withNear with line := { withNear.line with flight := some { endAt := 100, startAt := 0 } } }

/-- A frame that waits. -/
def waiting (f : TxFrame) : State := { withNear with line := { withNear.line with queue := [f] } }

/-- The header of a map frame that node 5 sends, with five bytes of data. -/
def headerOf5 : List Byte := frameHeader true false false 0 5 0 5

/-- Two pulses in a slot, in phase at a tone of D1 and not at the others. -/
def pulses (v : Nat) : List Int := 1 :: List.replicate ([9, 8, 6, 12].getD v 0) 0 ++ [1]

/-- The frame: 28 preamble slots, the delimiter, the header and the payload, each symbol on D1 only. -/
def frameOf5 : LineFrame :=
  { start := 0
    slots := List.replicate 28 [] ++ [pulses 3, [1, 0, 0, 0, 0, 0, 1], pulses 2, [1, 0, 0, 0, 0, 0, 0, 0, 0, 0, 0, 1]] ++
      (codedSymbols headerOf5 ++ payloadSymbols false false (withCrc [7])).flatMap (fun v => [pulses v, []]) }

/-- Native mode without blanking. -/
def listening : State := { withNear with line := { withNear.line with config := { withNear.line.config with blanking := 0 } } }

/-- The part as it judges that frame. -/
def hearer : State := (listening.settleLine.meets frameOf5).judgeBefore frameOf5.start

/-- A transaction with node 5. -/
def exchange (type : Nat) : Transaction := { number := 7, id := 1, node := 5, type := type, op := some (3, 0), attempts := 1, deadline := some 1000 }

/-- The tracker is locked at 50 Hz, and a basic interval holds the angle of the coupling channel. -/
def predicting : State :=
  { locked with
    tracker := { locked.tracker with period := 163840000 }
    meas := { locked.meas with basic := [{ values := [{ kind := 20, object := 0, quantity := 1, exact := some (36 : Rat) }] }] } }

/-- S-FSK with short frames, at frequencies that two samples tell apart. -/
def hearingBits : State :=
  lined (fun l => { l with config := { l.config with mode := 2, mark := 10000, space := 20000, sync := 2, syncLength := 2, frameLength := 1 } })

/-- The samples of bits: the pattern 10, and a byte after it. -/
def bitsHeard : List (List Int) :=
  [false, true, false, true, false, false, false, true, true, false, true, false, true].map (fun (b : Bool) => [1, if b then 1 else -1])

/-- A poll of node 5 under way, with UTC known. -/
def polled (f : PollEntry → PollEntry) : State :=
  { withNear with mesh := { withNear.mesh with polls := [f poll], running := true, limit := 1 }, clock := { withNear.clock with mapSet := true } }

/-- The network header of its response. -/
def netHead : List Byte := octets [0x20, 1, 5, 0, 1, 0, 7, 0] ++ zeros 18

/-- A message of node 5 waits. -/
def heard (m : List Byte) (l : List Transaction) : State :=
  { withNear with line := { withNear.line with inbox := [(netHead, m)] }, mesh := { withNear.mesh with flights := l } }

/-- LineRequests: settings with and without a frame in flight, maps, privileges, counters, frames, responses and transmissions. -/
theorem test_meets_line :
    (calls lineConfigRow measuring 0x0801 0 (linePayload 0) && measuring.lineDown = false && measuring.line.sfskFlight = none && (measuring.chan 0).enabled &&
     (Req.of .h0 (asks 0x0801 0 (linePayload 0))).lineConfig.mode = measuring.line.config.mode && measuring.line.flight = none && measuring.line.next = none &&
     calls lineConfigRow flying 0x0801 0 (linePayload 1) && flying.line.flight.isSome && flying.line.config.mode = 1 &&
     calls tonemapReadRow withNear 0x0802 0xC003 (zeros 36) &&
     calls tonemapPinRow withNear 0x0802 0xC003 (octets [1, 0, 0, 0] ++ oneMap) && (readMap oneMap).isSome &&
     withNear.neighbourAt 0xC003 = some near && withNear.neighbour 5 = some near &&
     calls tonemapUnpinRow withNear 0x0802 0xC003 (octets [2] ++ zeros 35) &&
     calls privilegeSetRow withNear 0x080A 0xC003 (octets [1, 0, 0, 0]) &&
     calls privilegeClearRow withNear 0x080A 0xC003 (zeros 4) &&
     calls privilegeSetRow { withNear with line := { withNear.line with neighbours := near :: (List.range 16).map (fun k => { slot := 4 + k, node := 6 + k, privileged := true }) } } 0x080A 0xC003 (octets [1, 0, 0, 0]) &&
     calls lineStatsNeighbourRow withNear 0x0809 0xC003 [] &&
     calls lineStatsCountersRow live 0x0809 0 (zeros 4) &&
     calls lineStatsSfskFramesRow live 0x0809 0 (octets [1, 0, 0, 0]) &&
     calls lineStatsSfskFramesRow (lined (fun l => { l with config := { l.config with mode := 2 } })) 0x0809 0 (octets [1, 0, 0, 0]) &&
     calls lineStatsResponseRow (meshed (fun m => { m with responses := [{ tag := 4, node := 5 }] })) 0x0809 0 (octets [2, 0, 4, 0]) &&
     calls lineStatsResponseRow (meshed (fun m => { m with tags := [4] })) 0x0809 0 (octets [2, 0, 4, 0]) &&
     calls lineSendSfskRow (lined (fun l => { l with config := { l.config with mode := 2 } })) 0x0808 0 (octets [0, 0, 0, 0, 8, 0, 0, 0, 1]) &&
     calls lineSendSfskRow (lined (fun l => { l with config := { l.config with mode := 2 }, sfskQueue := List.replicate 5 (8, [1], 0) })) 0x0808 0 (octets [0, 0, 0, 0, 8, 0, 0, 0, 1])) = true := by
  decide +kernel

/-- MeshRequests: a node admitted and not, a route, poll entries, polling with and without native mode, and a transmission. -/
theorem test_meets_mesh :
    (calls nodeAdmitAdmitRow live 0x0803 0 (octets [5, 0, 0, 0]) && live.admitted 5 = false && live.lineDown = false &&
     calls nodeAdmitAdmitRow withNear 0x0803 0 (octets [5, 0, 0, 0]) && withNear.admitted 5 &&
     calls nodeAdmitRemoveRow withNear 0x0803 0 (octets [5, 0, 1, 0]) &&
     calls routeReadRow withNear 0x0804 0 (octets [5, 0, 0, 0]) && withNear.node 5 = some node5 &&
     calls routeReadRow withNear 0x0804 0xC003 [] &&
     calls pollListLoadRow withNear 0x0805 0 (octets [0, 0, 1, 0] ++ pollBytes) &&
     calls pollStartRow (meshed (fun m => { m with polls := [poll] })) 0x0806 0 (octets [64, 0, 0, 0]) && has poll.flags 1 && (meshed id).canOriginate && (meshed id).line.config.mode = 1 && (meshed id).lineNow.mode = 1 && withNear.linkLost 7 = false &&
     calls pollStartRow live 0x0806 0 (octets [1, 0, 0, 0]) && live.line.config.mode ≠ 1 &&
     calls pollStopRow live 0x0807 0 [] &&
     calls lineSendRow withNear 0x0808 0 (octets [5, 0, 2, 0, 1, 0, 0, 0, 9]) &&
     (withNear.node 5).bind Node.route = some {} && withNear.dataQueue < 4 && withNear.power.warning = none && withNear.opRoom 0 && withNear.mesh.flights = [] &&
     calls lineSendRow live 0x0808 0 (octets [5, 0, 2, 0, 1, 0, 0, 0, 9])) = true := by
  decide +kernel

/-- ModemEvents: anchors, frames due and in flight, the driver, the window and S-FSK. -/
theorem test_meets_modem :
    (measuring.lineRuns && measuring.lineDown = false && predicting.canPredict && predicting.anchorPhase = some (9 / 10) &&
     (lined (fun l => { l with predicted := [(5, true, 160000)] })).predictedNext = some ((4, true, 160000), []) &&
     withNear.predictedNext = none && withNear.line.anchor = some (0, true) && withNear.line.half.floor.toNat = 160000 &&
     (lined (fun l => { l with freeRun := true })).line.freeSince + 2 * secTicks ≤ 32000000 && (lined (fun l => { l with freeRun := true })).line.defaultOnly = false &&
     10 ≤ (lined (fun l => { l with defaultOnly := true, validRun := 10 })).line.validRun &&
     (waiting { node := 5 }).mayTransmit && (waiting { node := 5 }).dueMap = none && (waiting { node := 5 }).startOf { node := 5 } = some 0 && (waiting { node := 5 }).line.next = none && (waiting { node := 5 }).line.config.mode = 1 && (waiting { node := 5 }).mesh.flights.isEmpty &&
     (waiting { node := 5 }).line.queue.find? (fun f => !f.isMap) = some { node := 5 } && (waiting { node := 5 }).line.receiving = false &&
     (waiting { node := 5, isMap := true }).dueMap = some { node := 5, isMap := true } && (waiting { node := 5, isMap := true }).startOf { node := 5, isMap := true } = some 0 &&
     flying.line.flight.any (fun x => x.fixed = [] && x.symbols = [] && x.endAt = 100) && flying.line.flight.isSome && flying.line.next = none && flying.mesh.flights.isEmpty && live.line.counters.length = 13 &&
     live.line.protection = false && withNear.line.config.mode = 1 && withNear.line.flight = none &&
     (lined (fun l => { l with window := (9, 1) })).line.windowAt + 10 * secTicks ≤ 160000000 &&
     ({ withNear with line := { withNear.line with config := { withNear.line.config with mode := 2 }, sfskQueue := [(8, [1], 0)], anchor := some (80000, true) } } : State).mayTransmit && withNear.line.config.offset = 0 &&
     hearingBits.lineRuns && hearingBits.line.next = none && hearingBits.lineDown = false && hearingBits.line.sentWithin 0 0 = false && (hearingBits.line.config.captured (decideBits (bitsHeard.map hearingBits.line.config.bitEnergies))).isSome && hearingBits.line.sfsk.length < 16) = true := by
  decide +kernel

/-- ModemEvents, a frame from its samples: the delimiter, and the part that hears it. -/
theorem test_meets_frameOpening :
    ((hearer.readFrame frameOf5).delimiter && listening.settleLine.line.sentWithin 0 (listening.settleLine.spanOf 0 frameOf5.slots.length) = false &&
     listening.line.next = none && listening.line.sfskFlight = none && listening.line.flight = none && listening.line.config.mode = 1 && listening.lineDown = false && listening.lineRuns &&
     headerCrc headerOf5 && headerGood headerOf5 && headerLink headerOf5 = false && headerSource headerOf5 = 5 && headerIsMap headerOf5 &&
     listening.admitted 5 && listening.neighbour 5 = some near && frameWhole (withCrc [7])) = true := by
  decide +kernel

/-- ModemEvents, a frame from its samples: the header. -/
theorem test_meets_frameHeader :
    ((hearer.readFrame frameOf5).header == headerOf5) = true := by
  decide +kernel

/-- ModemEvents, a frame from its samples: the payload under that header. -/
theorem test_meets_framePayload :
    (hearer.line.config.readPayload (hearer.placesOf frameOf5) (listening.meas.config.nominal = 1) none { hearer.readFrame frameOf5 with header := headerOf5 } == some (withCrc [7])) = true := by
  decide +kernel

/-- MeshEvents: a poll due and ready, transactions, messages, discovery, a pass, and a silent link. -/
theorem test_meets_meshEvents :
    (({ polled id with line := { (polled id).line with config := { (polled id).line.config with mode := 0 } } } : State).line.config.mode ≠ 1 && (polled id).mesh.running &&
     poll.lastDue < poll.dueBefore ((polled id).tickTo 2080000000).stampNow && (polled id).phase = .running && (polled id).mesh.polls = [poll] && poll.readyAt = none && (polled (fun e => { e with readyAt := some 4 })).mesh.reports.isEmpty && (polled id).mesh.limit = 1 && poll.offset * minTicks ≤ minTicks && withNear.offLimits 5 = false && withNear.polling 0 = false && withNear.admitted 5 && has poll.flags 1 &&
     withNear.lineRuns && withNear.lineDown = false && withNear.power.warning = none && withNear.line.config.mode = 1 &&
     withNear.mesh.reports = [] && withNear.canOriginate && withNear.dataQueue < 4 &&
     (exchange 3).deadline = some 1000 && (exchange 3).allowed ≤ (exchange 3).attempts &&
     (heard (octets [0x81, 0, 0, 0]) [exchange 1]).answered netHead 1 = some (exchange 1) &&
     (heard (octets [0x83, 0, 0, 0]) [exchange 3]).answered netHead 3 = some (exchange 3) &&
     byteAt (octets [0x04, 0, 0, 0, 9, 0]) 0 = 4 && netOrigin netHead = 5 && byteAt (octets [0x82, 0, 1, 0, 9, 0, 40, 8]) 0 = 0x82 && reportEntries (octets [0x82, 0, 1, 0, 9, 0, 40, 8]) = [(9, 40, 8)] &&
     ({ withNear with mesh := { withNear.mesh with discoveries := [5] } } : State).mesh.discovering = none && node5.nextTry ≤ 0 && withNear.sec.network.isSome &&
     (State.withDie withNear 7 (fun d => { d with link := { d.link with lanes := [{ up := false }, { up := false }] } })).linkLost 7 &&
     withNear.line.neighbours.find? (fun n => n.handle = 0xC003) = some near && near.validAt + 30 * minTicks ≤ 30 * minTicks && near.silent = false) = true := by
  decide +kernel

/-- The store's state given. -/
def stored (f : StoreState → StoreState) : State := { live with store := f live.store }

/-- The vault's state given. -/
def secured (f : SecurityState → SecurityState) : State := { live with sec := f live.sec }

/-- Health given. -/
def healthy (f : HealthState → HealthState) : State := { live with health := f live.health }

/-- Supplies given. -/
def powered (f : PowerState → PowerState) : State := { live with power := f live.power }

/-- Clocks given. -/
def clocked (f : ClockState → ClockState) : State := { live with clock := f live.clock }

/-- A mark of session 0 on ring 0. -/
def marked (lost : Bool) : State :=
  { live with host := { live.host with sessions := alter live.host.sessions 0 (fun x => { x with marks := [{ ring := 0, index := 7, pos := 0, lost := lost }] }) } }

/-- A quote of session 0. -/
def quoted (signed : Bool) : State :=
  { live with host := { live.host with sessions := alter live.host.sessions 0 (fun x => { x with quote := some { tag := 4, bytes := zeros 256, signed := signed } }) } }

/-- An update open. -/
def updating (erased : Bool) : State := secured (fun x => { x with update := some { length := 2000, slot := 1, erased := erased, tag := 2 } })

/-- Lanes 0 and 1 serve channel 0. -/
def laned (prec : Nat) : State := State.withConv live 24 (fun x => { x with job := some { prec := prec, channel := 0 } })

/-- A comparison of channel 0 with its lane, over 10 cycles. -/
def compared (laneRms : Nat) (s : State) : State := State.setChan s 0 (fun c => { c with compared := { cycles := 10, laneRms := laneRms } })

/-- A0 tried again at 0, its channels on lanes. -/
def probation (laneRms : Nat) : State :=
  compared laneRms (State.withChan (State.withConv { State.withDie live 1 (fun d => { d with state := 2 }) with health := { live.health with substituting := some 1 } } 24
    (fun x => { x with selects := some 0 })) 0 (fun c => { c with carrier := .lane 0 }))

/-- Gatehouse mode, its lanes valid. -/
def tallying : State := { live with phase := .gatehouse, now := 400000 }

/-- Lane 0 of a link down. -/
def halfLink (testing : Bool) : State := State.withDie live 1 (fun d => { d with link := { d.link with lanes := [{ up := false, testing := testing }, {}] } })

/-- StoreReadsAndMarks: the records, a ring, and marks, one overtaken. -/
theorem test_meets_store :
    (calls storeInfoRow live 0x0A01 0 [] &&
     calls logReadRow live 0x0A05 0 (le 8 0 ++ octets [255, 0, 0, 0]) && live.store.log.isEmpty &&
     calls logReadRow (stored (fun x => { x with log := [{ sequence := 1 }] })) 0x0A05 0 (le 8 1 ++ octets [1, 0, 0, 0]) &&
     calls captureReadRow live 0x0A02 0x0400 (octets [0, 0, 0, 0] ++ le 2 4000 ++ zeros 2 ++ le 8 0) &&
     calls captureReadRow (marked true) 0x0A02 0x0400 (octets [1, 7, 1, 0] ++ le 2 1 ++ zeros 10) &&
     calls captureReadRow (marked false) 0x0A02 0x0400 (octets [1, 7, 0, 0] ++ le 2 1 ++ zeros 10) &&
     calls markSetRow live 0x0A03 0x0400 (octets [0, 0] ++ zeros 14) &&
     calls markSetRow live 0x0A03 0x0407 (octets [7, 1] ++ zeros 14) &&
     calls markSetRow live 0x0A03 0x0401 (octets [7, 2] ++ zeros 14) &&
     calls markSetRow (marked true) 0x0A03 0x0400 (octets [1, 3, 7] ++ zeros 13) &&
     calls markClearRow live 0x0A04 0x0407 (octets [7, 0, 0, 0])) = true := by
  decide +kernel

/-- LogKeepsNewest: a record that fits, a checkpoint due, a format refused and one that runs, and a failed block. -/
theorem test_meets_log :
    (live.storeWrites && 28 + 600 + 262144 ≤ live.store.boot.layout.getD 0 0 * 4194304 && 1 ≤ live.store.boot.layout.getD 0 0 &&
     let u := ([.journal 4, .log 1] : List LostPage).foldl State.losePage (stored (fun x => { x with log := [{ sequence := 1, kind := 3 }], journal := [{ sequence := 4 }] })); u.store.journal.isEmpty && (nth u.store.log 0).lost && ((nth u.store.log 0).served 7).kind = 0x0103 &&
     (stored (fun x => { x with nextLog := 5000 })).store.lastCheckpoint + 4096 < 5000 && live.sec.identity && live.sec.signing.isEmpty && live.sec.backlog.isEmpty && live.power.commit = none &&
     calls storeFormatRow (roomy live) 0x0A06 0 (le 2 0x5AA5 ++ le 2 4 ++ le 2 16 ++ zeros 14) && live.storeBusy = false &&
     calls storeFormatRow (roomy (capturing 1)) 0x0A06 0 (le 2 0x5AA5 ++ le 2 1 ++ zeros 16) && (capturing 1).storeBusy &&
     (stored (fun x => { x with formatting := some (1, 0, 64 :: List.replicate 8 0) })).firmware &&
     (nth live.store.devices 0).present && 0 < (nth live.store.devices 0).spare && live.store.state = 1 &&
     (nth (roomy live).store.devices 0).spare = 100 && (nth (stored (fun x => { x with devices := [{ present := true, spare := 1 }, {}] })).store.devices 0).spare = 1 && (nth (stored (fun x => { x with devices := [{ present := true }, { present := true, spare := 0 }] })).store.devices 1).spare = 0) = true := by
  decide +kernel

/-- QuotesAreSigned: each answer to a quote, a fetch and a certificate, and a signature due. -/
theorem test_meets_quotes :
    (calls attestQuoteRow live 0x0B01 0 (octets [0, 2, 0, 0, 9, 9] ++ zeros 62) && live.sec.identity && live.sec.signing.length < 256 &&
     calls attestQuoteRow (quoted false) 0x0B01 0 (octets [0, 64, 0, 0] ++ zeros 64) &&
     calls attestQuoteRow (secured (fun x => { x with identity := false })) 0x0B01 0 (octets [0, 1, 0, 0] ++ zeros 64) &&
     calls attestFetchRow (quoted true) 0x0B01 0 (octets [1, 0, 4, 0] ++ zeros 64) &&
     calls attestFetchRow (quoted false) 0x0B01 0 (octets [1, 0, 4, 0] ++ zeros 64) &&
     calls attestPublicKeyRow live 0x0B01 0 (octets [2] ++ zeros 67) &&
     calls attestCertificateRow live 0x0B01 0 (octets [3] ++ zeros 67) && live.store.boot.certificate = [] &&
     calls attestCertificateRow (stored (fun x => { x with boot := { x.boot with certificate := [1] } })) 0x0B01 0 (octets [3] ++ zeros 67) &&
     ({ quoted false with sec := { live.sec with signing := [.quote 0 4] } } : State).firmware && live.sec.stopped = false && live.linkLost 7 = false && live.sec.backlog = [] && live.sec.engine.length = 16 && (quoted false).canSign && (secured (fun x => { x with stopped := true })).canSign = false) = true := by
  decide +kernel

/-- UpdatesRun: each answer to the four requests, and their completions. -/
theorem test_meets_updates :
    (calls fwBeginRow live 0x0B02 0 (le 4 16777216) && live.sec.update = none && live.sec.ending = none && live.sec.lifecycle ≠ 4 && live.store.boot.slots.length = 2 && live.store.boot.trialState = 0 &&
     calls fwBeginRow (stored (fun x => { x with boot := { x.boot with trialState := 1 } })) 0x0B02 0 (le 4 1536) &&
     calls fwBeginRow (updating true) 0x0B02 0 (le 4 1536) &&
     calls fwDataRow live 0x0B03 0 (le 4 0 ++ [1]) &&
     calls fwDataRow (updating true) 0x0B03 0 (le 4 1 ++ [1]) &&
     calls fwDataRow (updating false) 0x0B03 0 (le 4 0 ++ [1]) &&
     calls fwDataRow (updating true) 0x0B03 0 (le 4 0 ++ zeros 2000) &&
     ({ length := 2000, slot := 1, erased := true, tag := 2 } : Update).fits (Req.of .h0 (asks 0x0B03 0 (le 4 0 ++ zeros 2000))) && !({ length := 2000, slot := 1, erased := true, tag := 2 } : Update).fits (Req.of .h0 (asks 0x0B03 0 (le 4 0 ++ zeros 2001))) &&
     calls fwEndRow live 0x0B04 0 (zeros 4) &&
     calls fwEndRow (updating true) 0x0B04 0 (octets [1, 0, 0, 0]) &&
     calls fwEndRetryRow live 0x0B04 0 (octets [3, 0, 0, 0]) && (live.slot live.spareSlot).state ≠ 1 &&
     calls fwEndRetryRow (stored (fun x => { x with boot := { x.boot with slots := [{}, { state := 1 }] } })) 0x0B04 0 (octets [2, 0, 0, 0]) &&
     ({ updating true with host := { live.host with ops := [{ tag := 2, opcode := 0x0B02 }] } } : State).host.ops.find? (fun o => o.opcode = 0x0B02) = some { tag := 2, opcode := 0x0B02 }) = true := by
  decide +kernel

/-- LifecycleAndKeys: requests in the states that take them and in one that does not (any part tag), a transition, a trial, and the debug port. -/
theorem test_meets_lifecycle :
    (calls lifecycleAdvanceRow live 0x0B05 0 (octets [3, 0] ++ le 2 0xC33C ++ le 4 0) && transitionAllowed 2 3 && transitionAllowed 2 1 = false &&
     calls lifecycleAdvanceRow live 0x0B05 0 (octets [1, 0] ++ le 2 0xC33C ++ le 4 1) &&
     calls keyProvisionTransportKeyRow live 0x0B06 0 (octets [1, 0] ++ le 2 32 ++ zeros 32) &&
     calls keyProvisionTransportKeyRow (secured (fun x => { x with lifecycle := 1 })) 0x0B06 0 (octets [1, 0] ++ le 2 32 ++ zeros 32) &&
     calls keyProvisionNetworkKeyRow (secured (fun x => { x with transport := some (zeros 32) })) 0x0B06 0 (octets [2, 0] ++ le 2 24 ++ zeros 24) && live.sec.network = none &&
     calls keyProvisionCertificateRow live 0x0B06 0 (octets [3, 0] ++ le 2 1 ++ [7]) &&
     calls keyProvisionCertificateRow (secured (fun x => { x with lifecycle := 1 })) 0x0B06 0 (octets [3, 0] ++ le 2 1 ++ [7]) &&
     (secured (fun x => { x with transition := some (2, 3) })).sec.transition = some (2, 3) &&
     ({ live with store := { live.store with boot := { live.store.boot with trialState := 2, trial := 1 } }, sec := { live.sec with trialFrom := some 0 } } : State).power.notBooted = none &&
     (secured (fun x => { x with lifecycle := 3 })).phase ≠ .held && live.sec.debugFailures < 3) = true := by
  decide +kernel

/-- HealthRequests: reads, settings, and each answer to FORCE_SUBSTITUTE. -/
theorem test_meets_health :
    (calls healthReadRow live 0x0C01 0 [] &&
     calls healthReadRow live 0x0C01 0xFFFF [] &&
     calls healthReadRow live 0x0C01 0x20FF [] &&
     calls healthReadRow live 0x0C01 0x2000 [] &&
     calls repairLogRow live 0x0C03 0 (le 4 0 ++ octets [127, 0, 0, 0]) && live.health.log.isEmpty &&
     calls repairLogRow (healthy (fun x => { x with log := [{ sequence := 1 }] })) 0x0C03 0 (le 4 1 ++ octets [1, 0, 0, 0]) &&
     calls checkerConfigRow live 0x0C02 0xBFFF (octets [0, 0] ++ le 2 100 ++ le 2 100 ++ le 2 80 ++ f32Bytes 0x38D1B717#32) &&
     calls checkerConfigSkipMaskRow live 0x0C02 0x3FFF (octets [63, 0, 0, 0]) &&
     calls forceReleaseRow live 0x0C04 0x20FF (zeros 4) && live.testedDie 0 = false &&
     calls forceReleaseRow (healthy (fun x => { x with substituted := [0] })) 0x0C04 0x20FF (zeros 4) && live.homeFailed 0 = false &&
     calls forceChannelRow (healthy (fun x => { x with substituted := [0] })) 0x0C04 0x20FF (octets [1, 0, 0, 0]) &&
     calls forceChannelRow (dieLost 5) 0x0C04 0x20FF (octets [1, 0, 0, 0]) && (dieLost 5).belvedereUp = false && (dieLost 5).bridging 0 = none &&
     let s := (List.range 6).foldl (fun (s : State) k => State.withConv s (24 + k) (fun x => { x with job := some { prec := 1, channel := 6 } })) live; s.belvedereUp && s.lanesFor 2 = [] && calls forceChannelRow s 0x0C04 0x20FF (octets [1, 0, 0, 0]) &&
     let s := (List.range 5).foldl (fun (s : State) k => State.withConv s (25 + k) (fun x => { x with job := some { prec := 1, channel := 6 } })) live; s.freeLanes = [0] && calls forceChannelRow s 0x0C04 0x20FF (octets [1, 0, 0, 0]) &&
     let s := State.withChan (laned 3) 0 (fun c => { c with carrier := .lane 0 }); calls forceChannelRow s 0x0C04 0x20FF (octets [1, 0, 0, 0]) && s.bridging 0 = some 0 && s.isSubstituted 0 = false &&
     let s := (List.range 6).foldl (fun (s : State) k => State.withConv s (24 + k) (fun x => { x with inService := false })) live; calls forceDieRow s 0x0C04 0x20FF (octets [2, 0, 0, 0]) && s.belvedereUp &&
     calls forceDieRow (dieLost 5) 0x0C04 0x20FF (octets [2, 0, 0, 0]) &&
     calls forceDieRow (healthy (fun x => { x with substituting := some 2 })) 0x0C04 0x20FF (octets [2, 0, 0, 0]) &&
     calls forceDieRow live 0x0C04 0x20FF (octets [2, 0, 0, 0]) && live.dieDown 1 = false && live.health.substituting = none) = true := by
  decide +kernel

/-- ErrorsAreRepaired and LanesAndDies: bridges in both directions, dwells, dies failed and returning. -/
theorem test_meets_repair :
    (live.firmware && (MemWhere.modemSlot 0xC7FF).exists && (MemWhere.contextSection 159).exists && (living [ctx]).bill.live.any (fun c => c.slot = 0) &&
     live.health.restarts.length = 3 && live.meas.queue.isEmpty &&
     let s := (List.range 6).foldl (fun (s : State) k => State.withConv s (24 + k) (fun x => { x with job := some { prec := 1, channel := 6 } })) live; s.freeLanes = [] && s.health.bridges = [] && s.converts 0 && (s.chan 0).carrier = .home &&
     ({ laned 3 with health := { live.health with bridges := [(0, 0, 0)] }, now := 400000 } : State).canTakeOver 24 && ({ laned 3 with now := 400000 } : State).streamsValid 24 && (laned 3).laneFor 0 = some 0 && (laned 3).laneOf 0 3 = some 0 &&
     ({ live with now := 400000 } : State).streamsValid 0 && live.crossChecks = false &&
     live.dwellTicks ≤ 16000000 && (compared 0 live).mismatch 0 = false && ((compared 0 live).chan 0).compared.cycles = 10 && (live.chan 0).compared.cycles < 10 &&
     (compared 600000 live).mismatch 0 && (compared 600000 live).freeLanes ≠ [] &&
     (live.die 1).state ≠ 1 && live.dieCause 1 .internalFault && live.belvedereUp && live.health.substituting = none &&
     (healthy (fun x => { x with substituting := some 1, settling := true })).lanesValid &&
     ((dieLost 4).die 4).state = 1 && 0 < ((dieLost 4).die 4).retries && (dieLost 4).linkLost 4 = false &&
     ((probation 0).die 1).tryAt + 160000000 ≤ 160000000 && ((probation 0).die 1).state = 2 && (probation 0).linkLost 1 = false && ((probation 0).tickTo 160000000).onProbation 1 = [0] &&
     ((probation 0).tickTo 160000000).mismatch 0 = false && ((probation 600000).tickTo 160000000).mismatch 0) = true := by
  decide +kernel

/-- GatehouseTallies and LinksDeliver: a case of R359 and none, ticks that count and do not, and lanes in each state. -/
theorem test_meets_gatehouse :
    (({ live with now := 10, health := { live.health with recent := [(0, 5), (1, 6), (0, 7)] } } : State).gateCause .restarts || (healthy (fun x => { x with recent := [(0, 0)] })).linked &&
     ({ live with now := 400000, health := { live.health with recent := [(0, 5)] } } : State).gateCause .restartNotComplete &&
     live.linked && !live.gateCause .linkLost &&
     tallying.tallies && tallying.gate.tickAt ≤ tallying.now && live.gate.totals.length = 6 && live.gate.rest.length = 6 &&
     ({ tallying with gate := { tallying.gate with fault := true } } : State).tallies = false &&
     live.linked && isLinked 1 && isLinked 7 && (live.die 1).link.lanes.length = 2 && ((live.die 1).link.lane 0).up && live.linkLost 1 = false &&
     ((halfLink true).die 1).link.lanes.length = 2 && (((halfLink true).die 1).link.lane 0).up = false && (((halfLink true).die 1).link.lane 0).testing &&
     (live.trainTicks 1).1 = 1600000 && (live.trainTicks 1).2 = 16000000) = true := by
  decide +kernel

/-- WarningsCommit, ResetsKeepTheStore, PartStartsUp, SuppliesAreWatched: each phase and supply. -/
theorem test_meets_power :
    ((powered (fun x => { x with armed := true })).phase = .running && State.reset.phase ≠ .running && live.sec.transition = none &&
     (powered (fun x => { x with commit := some 0 })).power.reset = none && (powered (fun x => { x with commit := some 0 })).storeWrites &&
     (powered (fun x => { x with warning := some 0 })).power.warning = some 0 && recoveryDwell = 78400 &&
     (powered (fun x => { x with rideCheckpoint := true })).power.commit = none &&
     live.sec.transition = none && live.phase ≠ .held && (powered (fun x => { x with watchdog := true })).power.watchdog && live.batteryFails false = false && live.batteryFails true && live.store.bootWrite = none && (clocked (fun x => { x with rtcRuns := false })).batteryFails false &&
     (inPhase .booting).shape = partShape && (inPhase .ready).phase = .ready && (inPhase .gatehouse).phase = .gatehouse &&
     State.reset.phase = .held && State.reset.power.reset = none && State.reset.power.cause ≠ 4 && State.reset.store.boot.trialState = 0 && State.reset.slotPasses 0 && State.reset.slotPasses 1 = false &&
     ({ State.reset with power := { State.reset.power with cause := 4 } } : State).power.cause = 4 &&
     ({ State.reset with store := { State.reset.store with boot := { State.reset.store.boot with trial := 0, trialState := 1 } } } : State).slotPasses 0 && State.reset.power.notBooted = none &&
     ({ State.reset with store := { State.reset.store with boot := { State.reset.store.boot with slots := [{}, {}] } } } : State).slotPasses 0 = false &&
     [1, 2, 3].all isAcquisition && 3 ≤ ([1, 2, 3] : List Nat).eraseDups.length && live.health.vanaFault = none && vanaFaults 0x40000000#32 && vanaFaults 0x40400000#32 && vanaFaults 0x40A00000#32 = false && vanaRecovers 0x40A00000#32 && vanaRecovers 0x40400000#32 = false &&
     decide (f32Val 0x3F800000#32 < live.vioLevel) && live.power.vioFault = false && live.vioInRange 0x40A00000#32 && live.vioInRange 0x3F800000#32 = false &&
     live.power.vbatLow = false && live.clock.modemLost = false && decide (f32Val 0x40000000#32 < 235 / 100) && decide (235 / 100 ≤ f32Val 0x40400000#32)) = true := by
  decide +kernel

/-- ClocksAreKept: edges, the two sides of each time, the RTC, and a SYNC edge. -/
theorem test_meets_clocks :
    ((clocked (fun x => { x with mapSet := true, ppsLast := some 0 })).firmware && ppsAccepts 63993600 && ppsAccepts 64006400 && ppsAccepts 63993599 = false && ppsAccepts 64006401 = false &&
     (clocked (fun x => { x with ppsLocked := true, epsValid := true })).clock.epsExpiry = none &&
     (clocked (fun x => { x with epsExpiry := some 5 })).clock.epsExpiry = some 5 &&
     live.linkLost 7 = false && live.clock.rtcRuns && (clocked (fun x => { x with rtcRuns := false })).clock.rtcRuns = false &&
     let s := State.tickTo (clocked (fun x => { x with mapSet := true })) 16000000; s.stampNow / 16000000 * 16000000 ≠ s.clock.rtcCount &&
     [1, 2, 3, 4, 5].all (fun d => live.dieDown d = false) && live.samplePhase < 4 && live.clock.syncEdgeAt = none && live.linkLost 6 = false && live.clock.modemTick = 0 && (clocked (fun x => { x with modemTick := 5 })).clock.modemTick ≠ 0) = true := by
  decide +kernel

/-- The outcome is the one fault of the model. -/
def stops (o : Host.Outcome State Fault Refusal) : Bool :=
  match o with
  | .fault .noSuchObject => true
  | _ => false

/-- The next state of an outcome has a property. -/
def leads (o : Host.Outcome State Fault Refusal) (f : State → Bool) : Bool :=
  match o with
  | .next s => f s
  | _ => false

/-- A command with a bad object is not well formed and stops; with a good one it is well formed and does not. -/
def judged2 (bad good : Instr) : Bool := !bad.wf && stops (exec bad State.reset) && good.wf && leads (exec good State.reset) (fun _ => true)

/-- A sample of both benches. -/
def bench (h l : Nat) (sat : Bool) : BenchSample := { quiet with high := BitVec.ofNat 12 h, low := BitVec.ofNat 12 l, highSat := sat }

/-- The ASCII bytes "123456789". -/
def nine : List Byte := octets [0x31, 0x32, 0x33, 0x34, 0x35, 0x36, 0x37, 0x38, 0x39]

/-- Native mode. -/
def withMode : State := { live with line := { live.line with config := { live.line.config with mode := 1 } } }

/-- A map with its last segments muted. -/
def mapWith (used : Nat) : ToneMap := { entries := List.replicate used (some [0, 1, 2, 3]) ++ List.replicate (8 - used) none }

/-- The neighbours, nodes and reports of Table 10.3. -/
def network : State :=
  { withMode with
    line := { withMode.line with neighbours :=
      [{ slot := 0, node := 0x0101, txMap := some (mapWith 8), rxMap := some (mapWith 8), rxSnr := List.replicate 8 20, reported := 20, retry := 64 },
       { slot := 1, node := 0x0102, txMap := some (mapWith 7), rxMap := some (mapWith 7), rxSnr := List.replicate 8 15, reported := 15, retry := 56 }] }
    mesh := { withMode.mesh with
      urgent := true
      nodes := [{ address := 0x0101 }, { address := 0x0102 }, { address := 0x0210 }, { address := 0x0333 }]
      links := [{ a := 0x0101, b := 0x0210, cost := 30, reported := true }, { a := 0x0102, b := 0x0210, cost := 12, reported := true },
        { a := 0x0210, b := 0x0333, cost := 25, reported := true }, { a := 0x0101, b := 0x0333, cost := 70, reported := true }] } }

/-- WellFormed: objects the part does not have are refused. -/
theorem test_wellFormed_0 :
    (judged2 (.newSweepRecommended 0 24) (.newSweepRecommended 0 23) &&
     judged2 (.rawSample 0 30 quiet) (.rawSample 0 29 quiet) &&
     judged2 (.windowRearm 0 24 true) (.windowRearm 0 0 true) &&
     judged2 (.widebandSample 0 30) (.widebandSample 0 0) &&
     judged2 (.narrowbandSample 0 30 none) (.narrowbandSample 0 29 none) &&
     judged2 (.fadeEnd 0 24) (.fadeEnd 0 23) &&
     judged2 (.peakWindowEnd 0 24) (.peakWindowEnd 0 23) &&
     judged2 (.sideSliceConversion 0 6 0) (.sideSliceConversion 0 5 0) &&
     judged2 (.sideSliceConversion 0 0 0) (.sideSliceConversion 0 1 0) &&
     judged2 (.triggerTimerFiring 0 8) (.triggerTimerFiring 0 7) &&
     judged2 (.pwminEdge 0 2 true 0) (.pwminEdge 0 1 true 0) &&
     judged2 (.triggerAction 0 (.sideSlice 0)) (.triggerAction 0 (.sideSlice 1)) &&
     judged2 (.triggerAction 0 (.ring 8)) (.triggerAction 0 (.ring 7)) &&
     judged2 (.postTriggerEnd 0 8) (.postTriggerEnd 0 7)) = true := by
  decide +kernel

/-- WellFormed: objects the part does not have are refused. -/
theorem test_wellFormed_1 :
    (judged2 (.drainEnd 0 8) (.drainEnd 0 7) &&
     judged2 (.captureRecordComplete 0 8) (.captureRecordComplete 0 7) &&
     judged2 (.tariffPinCode 0 8) (.tariffPinCode 0 7) &&
     judged2 (.tamperSwitch 0 4 true) (.tamperSwitch 0 3 true) &&
     judged2 (.groupIntervalEnd 0 16) (.groupIntervalEnd 0 15) &&
     judged2 (.groupIntervalFinal 0 16) (.groupIntervalFinal 0 15) &&
     judged2 (.vanaSupplyFault 0 [1, 6] 0) (.vanaSupplyFault 0 [1, 5] 0) &&
     judged2 (.varfinFrame 0 0 0 0 true) (.varfinFrame 0 7 0 0 true) &&
     judged2 (.varfinFrame 0 1 2 0 true) (.varfinFrame 0 1 1 0 true) &&
     judged2 (.varfinResendTimeout 0 8) (.varfinResendTimeout 0 1) &&
     judged2 (.laneLoss 0 0 0) (.laneLoss 0 6 0) &&
     judged2 (.laneRetrain 0 1 2) (.laneRetrain 0 1 0) &&
     judged2 (.laneReturn 0 8 1) (.laneReturn 0 7 1) &&
     judged2 (.scrub 0 8 0 1) (.scrub 0 7 0 1)) = true := by
  decide +kernel

/-- WellFormed: objects the part does not have are refused. -/
theorem test_wellFormed_2 :
    (judged2 (.uncorrectableError 0 (.contextSection 160)) (.uncorrectableError 0 (.contextSection 159)) &&
     judged2 (.uncorrectableError 0 (.checkpoint 2)) (.uncorrectableError 0 (.checkpoint 1)) &&
     judged2 (.uncorrectableError 0 (.processorOther 2)) (.uncorrectableError 0 (.processorOther 0)) &&
     judged2 (.uncorrectableError 0 (.filterState 30)) (.uncorrectableError 0 (.filterState 29)) &&
     judged2 (.uncorrectableError 0 (.modemSlot 0xC800)) (.uncorrectableError 0 (.modemSlot 0xC000)) &&
     judged2 (.lockstepMismatch 0 2) (.lockstepMismatch 0 1) &&
     judged2 (.bridgeHandover 0 24) (.bridgeHandover 0 23) &&
     judged2 (.bridgeHandback 0 24) (.bridgeHandback 0 23) &&
     judged2 (.dieFailure 0 6 .linkLost) (.dieFailure 0 5 .linkLost) &&
     judged2 (.dieReturnTry 0 0 true) (.dieReturnTry 0 1 true) &&
     judged2 (.dieReturn 0 6) (.dieReturn 0 5) &&
     judged2 (.fenceMarker 0 8) (.fenceMarker 0 7) &&
     judged2 (.blockRetire 0 2 []) (.blockRetire 0 1 [])) = true := by
  decide +kernel

/-- The part at reset meets the invariant of Safety, and idles on an empty queue. -/
theorem test_reset :
    (State.reset.shape = partShape &&
     leads (step State.reset) (fun s => s.pending.isEmpty && s.phase = .held)) = true := by
  decide +kernel

/-- StepRunsFront: the command at the front runs, and the rest waits. -/
theorem test_front :
    (leads (step { live with pending := [.processorCheckpoint 5, .rtcWrite 6] }) (fun s => s.now = 5 && s.pending = [.rtcWrite 6])) = true := by
  decide +kernel

/-- StepKeepsObjects, TimeAndQueue, HeldPartHasNoSession, SecurityGoesForward: a step of a state that meets them. -/
theorem test_keeps :
    (leads (exec (.resetN 7 100) live) (fun s => s.shape = partShape && s.phase = .held && s.host.owner = none && s.now = 7 && live.sec.counter ≤ s.sec.counter)) = true := by
  decide +kernel

/-- CallsAreServed: a PING, its data returned. -/
theorem test_served :
    (leads (exec (.ping 0 .h0) (State.asked live 1 0 (octets [7, 8]))) (fun s => s.host.h0.rx.isEmpty && s.host.h0.replies.map (fun r => (r.opcode, r.status, r.payload)) = [(1, 0, octets [7, 8])])) = true := by
  decide +kernel

/-- A packet written, answered and read: after the status word the reply leaves its queue (R37, R38). -/
theorem test_packets :
    (leads (exec (.writePacket 0 .h0 2 (requestPacket 0 0 0 1 0 [])) live) (fun s => s.host.h0.rx.length = 1 && leads (exec (.ping 0 .h0) s) (fun u => leads (exec (.readPacket 0 .h0 18) u) (fun v => v.host.h0.replies.isEmpty && v.host.h0.out.length = 18) && leads (exec (.readPacket 0 .h0 17) u) (fun v => v.host.h0.replies.length = 1)))) = true := by
  decide +kernel

/-- The check values of R46 and R287. -/
theorem test_crc :
    (crc32c nine = 0xE3069283 &&
     crc16 nine = 0x29B1) = true := by
  decide +kernel

/-- The worked handles of chapter 01: A2.2.6 is a slice of CH14, 8205h of CH20, C3C8h a neighbour slot. -/
theorem test_handles :
    (unitOf 0x6206 = 14 && hElem 0x6206 = 6 &&
     unitOf 0x8205 = 20 && hDie 0x8205 = 4 &&
     ctxHandle { slot := 17 } = 0x0211 &&
     ({ slot := 0x3C8 } : Neighbour).handle = 0xC3C8) = true := by
  decide +kernel

/-- Table 2.8: sessions 1 and 5 tie at 40, and session 1 wins. -/
theorem test_election :
    (({ claims := [{ session := 1, priority := 40 }, { session := 5, priority := 40 }, { session := 2, priority := 20 }] } : Election).winner = some (1, 40)) = true := by
  decide +kernel

/-- Table 3.4: the four samples, and the one that would have blended. -/
theorem test_combine :
    (rawCode 0 false (bench 1650 52 false) = 1650 &&
     rawCode 0 false (bench 1800 56 false) = 1796 &&
     rawCode 0 false (bench 2047 82 true) = 2624 &&
     rawCode 0 true (bench 1850 58 false) = 1856 &&
     rawCode 0 false (bench 1850 58 false) = 1855) = true := by
  decide +kernel

/-- The worked trigger of chapter 03: an edge at tick 1,000,000,003.25 acts at tick 1,000,040,004. -/
theorem test_trigger :
    (live.rawInstant ((4000000013 + 3) / 4 + 4 * 10000) = 1000040004) = true := by
  decide +kernel

/-- Table 6.8: 575,000/9 uWh with no remainder delivers 63,888, and then 63,889. -/
theorem test_energy :
    ((({ ticks := [{ tick := 0, active := 575000 / 9 }, { tick := 1, active := 575000 / 9 }] } : Integrator).close 0).1.active = 63888 &&
     ((({ ticks := [{ tick := 0, active := 575000 / 9 }, { tick := 1, active := 575000 / 9 }] } : Integrator).close 0).2.close 1).1.active = 63889) = true := by
  decide +kernel

/-- Table 7.13: 1,500,000,000 uWh over 15 minutes make 6,000,000 mW. -/
theorem test_demand :
    (demandsOf [1500000000] 15 = [6000000]) = true := by
  decide +kernel

/-- Table 8.4: a tick at 284,000 ucu/kWh charges 2 ucu and keeps 840,000,000. -/
theorem test_charge :
    ((({ prices := [0, 284000], credit := 255600 } : Prepay).charge 1 10000).credit = 255598 &&
     (({ prices := [0, 284000], credit := 255600 } : Prepay).charge 1 10000).remainder = 840000000) = true := by
  decide +kernel

/-- Table 10.3: the links of the part cost 20 and 35, and the route to 0333h goes over 0102h and 0210h at 72. -/
theorem test_routes :
    (network.linkCost 0 0x0101 = 20 && network.linkCost 0 0x0102 = 35 &&
     leads (exec (.routePass 0) network) (fun s => ((s.node 0x0333).bind Node.route).any (fun r => r.relays = [0x0102, 0x0210] && (r.costs.foldl (fun (a : Nat) c => a + c) 0) = 72))) = true := by
  decide +kernel

/-- SHA-512 of the three bytes "abc", the example of FIPS 180-4. -/
theorem test_sha512 :
    (sha512 (octets [0x61, 0x62, 0x63]) = octets [0xdd, 0xaf, 0x35, 0xa1, 0x93, 0x61, 0x7a, 0xba, 0xcc, 0x41, 0x73, 0x49, 0xae, 0x20, 0x41, 0x31] ++
      octets [0x12, 0xe6, 0xfa, 0x4e, 0x89, 0xa9, 0x7e, 0xa2, 0x0a, 0x9e, 0xee, 0xe6, 0x4b, 0x55, 0xd3, 0x9a] ++
      octets [0x21, 0x92, 0x99, 0x2a, 0x27, 0x4f, 0xc1, 0xa8, 0x36, 0xba, 0x3c, 0x23, 0xa3, 0xfe, 0xeb, 0xbd] ++
      octets [0x45, 0x4d, 0x44, 0x23, 0x64, 0x3c, 0xe8, 0x0e, 0x2a, 0x9a, 0xc9, 0x4f, 0xa5, 0x4c, 0xa4, 0x9f]) = true := by
  decide +kernel

/-- AES, the examples of FIPS 197 with keys of 128 and 256 bits. -/
theorem test_aes :
    (aesEncrypt (octets [0x00, 0x01, 0x02, 0x03, 0x04, 0x05, 0x06, 0x07, 0x08, 0x09, 0x0a, 0x0b, 0x0c, 0x0d, 0x0e, 0x0f]) (octets [0x00, 0x11, 0x22, 0x33, 0x44, 0x55, 0x66, 0x77, 0x88, 0x99, 0xaa, 0xbb, 0xcc, 0xdd, 0xee, 0xff]) = octets [0x69, 0xc4, 0xe0, 0xd8, 0x6a, 0x7b, 0x04, 0x30, 0xd8, 0xcd, 0xb7, 0x80, 0x70, 0xb4, 0xc5, 0x5a] &&
     aesDecrypt (octets [0x00, 0x01, 0x02, 0x03, 0x04, 0x05, 0x06, 0x07, 0x08, 0x09, 0x0a, 0x0b, 0x0c, 0x0d, 0x0e, 0x0f]) (octets [0x69, 0xc4, 0xe0, 0xd8, 0x6a, 0x7b, 0x04, 0x30, 0xd8, 0xcd, 0xb7, 0x80, 0x70, 0xb4, 0xc5, 0x5a]) = octets [0x00, 0x11, 0x22, 0x33, 0x44, 0x55, 0x66, 0x77, 0x88, 0x99, 0xaa, 0xbb, 0xcc, 0xdd, 0xee, 0xff] &&
     aesEncrypt (octets [0x00, 0x01, 0x02, 0x03, 0x04, 0x05, 0x06, 0x07, 0x08, 0x09, 0x0a, 0x0b, 0x0c, 0x0d, 0x0e, 0x0f] ++ octets [0x10, 0x11, 0x12, 0x13, 0x14, 0x15, 0x16, 0x17, 0x18, 0x19, 0x1a, 0x1b, 0x1c, 0x1d, 0x1e, 0x1f]) (octets [0x00, 0x11, 0x22, 0x33, 0x44, 0x55, 0x66, 0x77, 0x88, 0x99, 0xaa, 0xbb, 0xcc, 0xdd, 0xee, 0xff]) = octets [0x8e, 0xa2, 0xb7, 0xca, 0x51, 0x67, 0x45, 0xbf, 0xea, 0xfc, 0x49, 0x90, 0x4b, 0x49, 0x60, 0x89]) = true := by
  decide +kernel

/-- AES-CMAC of nothing and of one block, the examples of RFC 4493. -/
theorem test_cmac :
    (cmac (octets [0x2b, 0x7e, 0x15, 0x16, 0x28, 0xae, 0xd2, 0xa6, 0xab, 0xf7, 0x15, 0x88, 0x09, 0xcf, 0x4f, 0x3c]) [] = octets [0xbb, 0x1d, 0x69, 0x29, 0xe9, 0x59, 0x37, 0x28, 0x7f, 0xa3, 0x7d, 0x12, 0x9b, 0x75, 0x67, 0x46] &&
     cmac (octets [0x2b, 0x7e, 0x15, 0x16, 0x28, 0xae, 0xd2, 0xa6, 0xab, 0xf7, 0x15, 0x88, 0x09, 0xcf, 0x4f, 0x3c]) (octets [0x6b, 0xc1, 0xbe, 0xe2, 0x2e, 0x40, 0x9f, 0x96, 0xe9, 0x3d, 0x7e, 0x11, 0x73, 0x93, 0x17, 0x2a]) = octets [0x07, 0x0a, 0x16, 0xb4, 0x6b, 0x4d, 0x41, 0x44, 0xf7, 0x9b, 0xdd, 0x9d, 0xd0, 0x4a, 0x28, 0x7c]) = true := by
  decide +kernel

/-- AES Key Wrap, the first example of RFC 3394. -/
theorem test_keyWrap :
    (aesWrap (octets [0x00, 0x01, 0x02, 0x03, 0x04, 0x05, 0x06, 0x07, 0x08, 0x09, 0x0a, 0x0b, 0x0c, 0x0d, 0x0e, 0x0f]) (octets [0x00, 0x11, 0x22, 0x33, 0x44, 0x55, 0x66, 0x77, 0x88, 0x99, 0xaa, 0xbb, 0xcc, 0xdd, 0xee, 0xff]) = octets [0x1f, 0xa6, 0x8b, 0x0a, 0x81, 0x12, 0xb4, 0x47] ++ octets [0xae, 0xf3, 0x4b, 0xd8, 0xfb, 0x5a, 0x7b, 0x82] ++ octets [0x9d, 0x3e, 0x86, 0x23, 0x71, 0xd2, 0xcf, 0xe5]) = true := by
  decide +kernel

/-- AES-CCM with a tag of 8 bytes, packet vector 1 of RFC 3610. -/
theorem test_ccm :
    (ccmSeal (octets [0xc0, 0xc1, 0xc2, 0xc3, 0xc4, 0xc5, 0xc6, 0xc7, 0xc8, 0xc9, 0xca, 0xcb, 0xcc, 0xcd, 0xce, 0xcf]) (octets [0x00, 0x00, 0x00, 0x03, 0x02, 0x01, 0x00, 0xa0, 0xa1, 0xa2, 0xa3, 0xa4, 0xa5]) (octets [0x00, 0x01, 0x02, 0x03, 0x04, 0x05, 0x06, 0x07]) (octets [0x08, 0x09, 0x0a, 0x0b, 0x0c, 0x0d, 0x0e, 0x0f, 0x10, 0x11, 0x12, 0x13, 0x14, 0x15, 0x16, 0x17, 0x18, 0x19, 0x1a, 0x1b, 0x1c, 0x1d, 0x1e]) =
      octets [0x58, 0x8c, 0x97, 0x9a, 0x61, 0xc6, 0x63, 0xd2, 0xf0, 0x66, 0xd0, 0xc2, 0xc0, 0xf9, 0x89, 0x80] ++ octets [0x6d, 0x5f, 0x6b, 0x61, 0xda, 0xc3, 0x84, 0x17, 0xe8, 0xd1, 0x2c, 0xfd, 0xf9, 0x26, 0xe0]) = true := by
  decide +kernel

end Sys2Proof.Tests
end

section
/-! SUPPORT. Which commands run and which stop (Table 1.5): each command is a meaning guarded by the test that the part has the objects
it names. -/

namespace Sys2Proof.Machine

/-- A guard that holds lets the meaning run. -/
@[simp] theorem guarded_true (u : State) : guarded true u = .next u := rfl

/-- A guard that fails stops with the one fault. -/
@[simp] theorem guarded_false (u : State) : guarded false u = .fault .noSuchObject := rfl

/-- The guard of a command is `Instr.wf`. The commands listed test their own operands, and that test is their case of `wf`; the others
name no object besides that of a request's handle, which check 9 of Table 2.5 judges, so their meaning runs unguarded. -/
theorem exec_eq_guarded_wf (i : Instr) (s : State) : ∃ u, exec i s = guarded i.wf u := by
  cases i with
  | newSweepRecommended | rawSample | windowRearm | widebandSample | narrowbandSample | fadeEnd | peakWindowEnd | bridgeHandover
  | bridgeHandback | tariffPinCode => exact ⟨_, rfl⟩
  | sideSliceConversion | triggerTimerFiring | pwminEdge | triggerAction | postTriggerEnd | drainEnd | captureRecordComplete =>
    exact ⟨_, rfl⟩
  | tamperSwitch | groupIntervalEnd | groupIntervalFinal | fenceMarker | blockRetire => exact ⟨_, rfl⟩
  | vanaSupplyFault | varfinFrame | varfinResendTimeout | laneLoss | laneRetrain | laneReturn | scrub | uncorrectableError
  | lockstepMismatch | dieFailure | dieReturnTry | dieReturn => exact ⟨_, rfl⟩
  | _ => exact ⟨_, (guarded_true _).symm⟩

/-- A command whose objects the part has runs. -/
theorem exec_of_wf {i : Instr} (h : i.wf = true) (s : State) : ∃ u, exec i s = .next u := by
  obtain ⟨u, run⟩ := exec_eq_guarded_wf i s
  exact ⟨u, by rw [run, h, guarded_true]⟩

/-- A command that names an object the part does not have stops. -/
theorem exec_of_not_wf {i : Instr} (h : i.wf = false) (s : State) : exec i s = .fault .noSuchObject := by
  obtain ⟨u, run⟩ := exec_eq_guarded_wf i s
  rw [run, h, guarded_false]

/-- Settles O2: every command is a meaning guarded by its well-formedness. -/
theorem wellFormedRuns : Obligations.WellFormedRuns := by
  unfold Obligations.WellFormedRuns
  intro i s
  constructor
  · intro h
    obtain ⟨u, run⟩ := exec_of_wf h s
    exact ⟨u, run, trivial⟩
  · intro h
    exact exec_of_not_wf h s

end Sys2Proof.Machine
end

section
/-! SUPPORT. What several of the proofs below share: folds over a state, the number of objects, and what an event leaves. -/

namespace Sys2Proof.Machine

/-- What every step of a fold leaves, the fold leaves. -/
theorem foldl_keeps {α β γ : Type} (part : β → γ) (op : β → α → β) (keeps : ∀ b a, part (op b a) = part b) (l : List α) (b : β) :
    part (l.foldl op b) = part b := by
  induction l generalizing b with
  | nil => rfl
  | cons a l ih => rw [List.foldl_cons, ih, keeps]

/-- The number of dies of a state that holds the objects of the part. -/
theorem State.Inv.dies {s : State} (inv : s.Inv) : s.dies.length = 8 := by
  simp only [State.Inv, State.shape, partShape, List.cons.injEq] at inv
  exact inv.2.2.1

/-! ### What an event leaves -/

@[simp] theorem State.raise_clock (s : State) (source time : Nat) (body : List Byte) : (s.raise source time body).clock = s.clock := by
  rw [State.raise_frame]

@[simp] theorem State.raise_power (s : State) (source time : Nat) (body : List Byte) : (s.raise source time body).power = s.power := by
  rw [State.raise_frame]

@[simp] theorem State.raise_dies (s : State) (source time : Nat) (body : List Byte) : (s.raise source time body).dies = s.dies := by
  rw [State.raise_frame]

end Sys2Proof.Machine
end

section
/-! SUPPORT. O52: why a lane that lingers refutes it. -/

namespace Sys2Proof.Machine

/-- A part in operation whose one lane in service has handed a channel back and forms its last samples until tick 8,000 (R149): it is not
free before, and free from then on. -/
def lingeringLane : State :=
  { State.reset with
    phase := .running
    converters := List.replicate 24 {} ++ { selects := some 1, lingers := some 8000 } :: List.replicate 5 { inService := false } }

/-- At tick 0 no lane is free, so that the statement takes CH0's home to settle. -/
theorem lingeringLane_freeLanes : lingeringLane.freeLanes = [] := by decide

/-- At tick 8,000 the lane is free: it bridges CH0, whose home goes on and settles at its handover (R336, R341). -/
theorem lingeringLane_home_goes_on {u : State} (run : exec (.uncorrectableError 8000 (.filterState 0)) lingeringLane = .next u) :
    (u.conv 0).narrowFrom = 0 := by
  cases run
  decide +kernel

/-- Refutes O52: no lane is free as the command is formed, but the lane that lingers has become free at its instant, bridges CH0, and so leaves
the home's narrowband output valid, where the clause on `filterState` says it is suppressed. -/
theorem not_errorsAreRepaired : ¬ Obligations.ErrorsAreRepaired := by
  unfold Obligations.ErrorsAreRepaired
  intro h
  obtain ⟨-, repaired, -⟩ := h 8000 lingeringLane rfl
  obtain ⟨-, -, -, filter, -⟩ := repaired rfl
  obtain ⟨u, run, -, suppressed⟩ :=
    filter 0 (by decide) rfl rfl (by decide) lingeringLane_freeLanes rfl
  rw [lingeringLane_home_goes_on run] at suppressed
  exact absurd suppressed (by decide +kernel)

end Sys2Proof.Machine
end

section
/-! SUPPORT. O60: PPS, the RTC, the SYNC pin and the modem clock. -/

namespace Sys2Proof.Machine

@[simp] theorem State.ppsEvent_clock (s : State) (state : Nat) (step : Int) : (s.ppsEvent state step).clock = s.clock :=
  State.raise_clock _ _ _ _

/-! ### PPS (R448-R452) -/

/-- An edge with the mapping set is seen at its instant. -/
theorem exec_ppsEdge {s : State} {t quarter : Nat} (firmware : s.firmware = true) (mapped : s.clock.mapSet = true)
    (seen : quarter / 4 ≤ max s.now t) : exec (.ppsEdge t quarter) s = .next ((s.tickTo t).ppsSeen quarter) := by
  refine congrArg Host.Outcome.next (if_pos ?_)
  simp only [Bool.and_eq_true, decide_eq_true_eq]
  exact ⟨⟨firmware, mapped⟩, seen⟩

/-- The phase correction keeps the lock, the last accepted edge and the last edge. -/
theorem State.correctPhase_clock (s : State) (quarter : Nat) :
    (s.correctPhase quarter).clock.ppsLocked = s.clock.ppsLocked ∧ (s.correctPhase quarter).clock.ppsAccepted = s.clock.ppsAccepted ∧
      (s.correctPhase quarter).clock.ppsLast = s.clock.ppsLast := by
  unfold State.correctPhase
  dsimp only
  split
  · exact ⟨rfl, rfl, rfl⟩
  · unfold State.ppsStep
    split <;> exact ⟨rfl, rfl, rfl⟩

section Edges
variable {s : State} {quarter last : Nat} (before : s.clock.ppsLast = some last)
include before

/-- A good interval before the fourth counts (R448). -/
theorem State.ppsSeen_counts (unlocked : s.clock.ppsLocked = false) (good : ppsAccepts (quarter - last) = true) (run : s.clock.ppsRun < 3) :
    s.ppsSeen quarter = { s with clock := { s.clock with ppsLast := some quarter, ppsRun := s.clock.ppsRun + 1 } } := by
  simp [State.ppsSeen, before, unlocked, good, run]

/-- The fourth locks (R448). -/
theorem State.ppsSeen_locks (unlocked : s.clock.ppsLocked = false) (good : ppsAccepts (quarter - last) = true) (run : s.clock.ppsRun = 3) :
    (s.ppsSeen quarter).clock.ppsLocked = true ∧ (s.ppsSeen quarter).clock.ppsAccepted = s.now ∧
      (s.ppsSeen quarter).clock.ppsLast = some quarter := by
  simp [State.ppsSeen, before, unlocked, good, run, State.correctPhase_clock]

/-- A bad interval starts the count again (R448). -/
theorem State.ppsSeen_restarts (unlocked : s.clock.ppsLocked = false) (bad : ppsAccepts (quarter - last) = false) :
    s.ppsSeen quarter = { s with clock := { s.clock with ppsLast := some quarter, ppsRun := 0 } } := by
  simp [State.ppsSeen, before, unlocked, bad]

/-- While locked it is counted and nothing else (R448). -/
theorem State.ppsSeen_rejects (locked : s.clock.ppsLocked = true) (bad : ppsAccepts (quarter - last) = false) :
    s.ppsSeen quarter =
      { s with clock := { s.clock with ppsLast := some quarter, ppsRejected := sat 32 (s.clock.ppsRejected + 1) } } := by
  simp [State.ppsSeen, before, locked, bad]

end Edges

/-- After 3 s without an accepted edge PPS unlocks, and a valid estimate expires an hour later (R448, R449). -/
theorem ppsUnlock_due {s : State} {t : Nat} (firmware : s.firmware = true) (locked : s.clock.ppsLocked = true)
    (due : s.clock.ppsAccepted + 48000000 ≤ max s.now t) :
    Leads (.ppsUnlock t) s (fun u => u.clock.ppsLocked = false ∧ u.clock.eps = s.clock.eps ∧
      (s.clock.epsValid = true → s.clock.epsExpiry = none → u.clock.epsExpiry = some (max s.now t + 57600000000))) := by
  refine ⟨_, congrArg Host.Outcome.next (if_pos ?_), ?_⟩
  · simp only [Bool.and_eq_true, decide_eq_true_eq]
    exact ⟨⟨firmware, locked⟩, due⟩
  · simp +contextual [secTicks]

/-- Before, nothing happens. -/
theorem exec_ppsUnlock_early {s : State} {t : Nat} (early : max s.now t < s.clock.ppsAccepted + 48000000) :
    exec (.ppsUnlock t) s = .next (s.tickTo t) := by
  refine congrArg Host.Outcome.next (if_neg ?_)
  simp only [Bool.and_eq_true, decide_eq_true_eq]
  exact fun due => absurd due.2 (Nat.not_le_of_lt early)

/-- The estimate expires at its instant (R449). -/
theorem exec_rateEstimateExpiry {s : State} {t x : Nat} (expiry : s.clock.epsExpiry = some x) (due : x ≤ max s.now t) :
    exec (.rateEstimateExpiry t) s = .next { (s.tickTo t).reanchor with
      clock := { (s.tickTo t).reanchor.clock with eps := 0, epsValid := false, epsExpiry := none } } := by
  refine congrArg Host.Outcome.next (if_pos ?_)
  simpa [expiry] using due

/-- Before, nothing happens. -/
theorem exec_rateEstimateExpiry_early {s : State} {t x : Nat} (expiry : s.clock.epsExpiry = some x) (early : max s.now t < x) :
    exec (.rateEstimateExpiry t) s = .next (s.tickTo t) := by
  refine congrArg Host.Outcome.next (if_neg ?_)
  simpa [expiry] using early

/-! ### The RTC (R453, R454, R243) -/

/-- A new whole second is written to the RTC. -/
theorem exec_rtcWrite {s : State} {t : Nat} (firmware : s.firmware = true) (mapped : s.clock.mapSet = true) (reach : s.linkLost 7 = false) :
    exec (.rtcWrite t) s = .next
      (if (s.tickTo t).stampNow / 16000000 * 16000000 ≠ s.clock.rtcCount then
        { s.tickTo t with clock := { s.clock with
          rtcCount := (s.tickTo t).stampNow / 16000000 * 16000000
          rtcAt := max s.now t - (s.tickTo t).stampNow % 16000000 } }
      else s.tickTo t) := by
  refine congrArg Host.Outcome.next (ite_congr (propext ?_) (fun _ => rfl) (fun _ => rfl))
  simp only [Bool.and_eq_true, Bool.not_eq_true', decide_eq_true_eq]
  exact ⟨And.right, fun new => ⟨⟨⟨firmware, mapped⟩, reach⟩, new⟩⟩

/-- Marking the RTC invalid keeps its count. -/
theorem State.rtcLost_clock (s : State) :
    s.rtcLost.clock = { s.clock with rtcValid := false, past := s.keptRules } := by
  unfold State.rtcLost
  dsimp only
  split
  · rw [State.raise_clock]
  · rfl

/-- Without firmware the vault's mark waits for a start-up (R243). -/
theorem State.rtcLost_mark {s : State} (off : s.firmware = false) : s.rtcLost.power.rtcMark = true := by
  unfold State.rtcLost
  dsimp only
  rw [if_neg (by simpa [State.firmware] using off)]

/-- A crystal that stops leaves the count it had reached, invalid. -/
theorem rtcCrystalStop_holds {s : State} {t : Nat} (runs : s.clock.rtcRuns = true) :
    Leads (.rtcCrystalStop t) s (fun u => u.clock.rtcRuns = false ∧ u.clock.rtcValid = false ∧ u.clock.rtcCount = (s.tickTo t).rtcNow ∧
      (s.firmware = false → u.power.rtcMark = true)) := by
  let stopped : State :=
    { s.tickTo t with clock := { s.clock with rtcCount := (s.tickTo t).rtcNow, rtcAt := max s.now t, rtcRuns := false } }
  have run : exec (.rtcCrystalStop t) s =
      .next (if stopped.rtcLost.firmware then stopped.rtcLost.raise 175 stopped.rtcLost.stampNow (objBody 0 (le 1 1)) else stopped.rtcLost) :=
     congrArg Host.Outcome.next (if_pos runs)
  have clock := stopped.rtcLost_clock
  have mark : s.firmware = false → stopped.rtcLost.power.rtcMark = true := fun off => State.rtcLost_mark (s := stopped) off
  refine ⟨_, run, ?_⟩
  split
  · rw [State.raise_clock, State.raise_power, clock]
    exact ⟨rfl, rfl, rfl, mark⟩
  · rw [clock]
    exact ⟨rfl, rfl, rfl, mark⟩

/-- An oscillator that restarts runs on from the value held. -/
theorem exec_rtcOscillatorRestart {s : State} {t : Nat} (stopped : s.clock.rtcRuns = false) :
    exec (.rtcOscillatorRestart t) s = .next { s.tickTo t with clock := { s.clock with rtcRuns := true, rtcAt := max s.now t } } := by
  exact congrArg Host.Outcome.next (if_neg (by simp [stopped]))

/-! ### The SYNC pin (R447, R128) -/

/-- A raw instant at or after a tick comes within four ticks and has the sample phase of the part (R33). -/
theorem State.rawInstant_spec (s : State) (t : Nat) (phase : s.samplePhase < 4) :
    s.rawInstant t % 4 = s.samplePhase ∧ t ≤ s.rawInstant t ∧ s.rawInstant t < t + 4 := by
  unfold State.rawInstant
  omega

/-- The synchronising reset of a die changes, of the dies, its epoch. -/
theorem State.syncDie_dies (s : State) (d c : Nat) :
    (s.syncDie d c).dies = alter s.dies d (fun x => { x with epoch := x.epoch + 1, epochTick := c, cycleBase := none }) := by
  unfold State.syncDie State.setDie
  dsimp only
  rw [foldl_keeps State.dies, foldl_keeps State.dies] <;> intros <;> rfl

/-- Nor does it touch the clocks. -/
@[simp] theorem State.syncDie_clock (s : State) (d c : Nat) : (s.syncDie d c).clock = s.clock := by
  unfold State.syncDie
  rw [State.setDie_clock, foldl_keeps State.clock, foldl_keeps State.clock] <;> intros <;> rfl

/-- The die has raw instant 0 of its epoch at the tick given; the others keep theirs. -/
theorem State.syncDie_epochTick (s : State) (d c k : Nat) (part : d < s.dies.length) :
    ((s.syncDie d c).die k).epochTick = if k = d then c else (s.die k).epochTick := by
  unfold State.die
  rw [State.syncDie_dies]
  split
  · next same => rw [same, nth_alter _ _ _ part]
  · next other => rw [nth_alter_ne _ _ _ _ other]

/-- Neither the clocks nor the dies follow the tracker. -/
@[simp] theorem State.syncTracker_clock (s : State) (l : List Nat) : (s.syncTracker l).clock = s.clock := by
  unfold State.syncTracker; dsimp only; split <;> rfl

@[simp] theorem State.syncTracker_dies (s : State) (l : List Nat) : (s.syncTracker l).dies = s.dies := by
  unfold State.syncTracker; dsimp only; split <;> rfl

@[simp] theorem State.syncAt_clock (s : State) (l : List Nat) (c : Nat) : (s.syncAt l c).clock = s.clock := by
  unfold State.syncAt
  rw [foldl_keeps State.clock, State.syncTracker_clock]
  exact fun s d => s.syncDie_clock d c

/-- After the synchronising resets of some dies, each one named, or that had its raw instant 0 there before, has it at their tick. -/
theorem syncDies_epochTick (c k : Nat) (l : List Nat) (s : State) (part : ∀ d ∈ l, d < s.dies.length)
    (named : k ∈ l ∨ (s.die k).epochTick = c) : ((l.foldl (fun s d => s.syncDie d c) s).die k).epochTick = c := by
  induction l generalizing s with
  | nil => simpa using named
  | cons d l ih =>
    have first : d < s.dies.length := part d List.mem_cons_self
    refine ih (s.syncDie d c) (fun e he => ?_) ?_
    · simpa [State.syncDie_dies] using part e (List.mem_cons_of_mem _ he)
    · rw [State.syncDie_epochTick _ _ _ _ first]
      rcases named with named | named
      · rcases List.mem_cons.1 named with same | later
        · exact .inr (if_pos same)
        · exact .inl later
      · exact .inr (by split <;> simp [named])

/-- Each die that a SYNC names opens an epoch at its tick (R128). -/
theorem State.syncAt_epochTick {s : State} {l : List Nat} {c k : Nat} (part : ∀ d ∈ l, d < s.dies.length) (named : k ∈ l) :
    ((s.syncAt l c).die k).epochTick = c :=
  syncDies_epochTick c k l _ (by simpa using part) (.inl named)

/-- With no operation running there is no sweep to abort. -/
theorem State.abortSweep_idle {s : State} (idle : s.sweep.running = none) (status : Nat) (restore : Bool) :
    s.abortSweep status restore = s := by
  unfold State.abortSweep
  rw [idle]

/-- A pulse shorter than 1 us does nothing. -/
theorem exec_syncEdge_short {s : State} {t width : Nat} (short : width < 1000) : exec (.syncEdge t width) s = .next (s.tickTo t) := by
  refine congrArg Host.Outcome.next (if_neg ?_)
  simp only [Bool.and_eq_true, decide_eq_true_eq]
  exact fun long => absurd long.1.1.2 (Nat.not_le_of_lt short)

/-- A longer one, 10 ms after the last or later and with no sweep to abort, is a SYNC of every acquisition die. -/
theorem exec_syncEdge {s : State} {t width : Nat} (long : 1000 ≤ width) (on : s.phase = .ready ∨ s.phase = .running)
    (apart : ∀ x, s.clock.syncEdgeAt = some x → x + 160000 ≤ max s.now t) (reach : ∀ d, 1 ≤ d → d ≤ 5 → s.dieDown d = false)
    (idle : s.sweep.running = none) :
    exec (.syncEdge t width) s = .next
      (State.syncAt { s.tickTo t with clock := { s.clock with syncEdgeAt := some (max s.now t) } } [1, 2, 3, 4, 5]
        (s.rawInstant (max s.now t + 160))) := by
  have free : s.clock.syncEdgeAt.any (fun x => max s.now t < x + 10 * Config.ms) = false := by
    cases edge : s.clock.syncEdgeAt with
    | none => rfl
    | some x =>
      have := apart x edge
      simp [Config.ms]
      omega
  have up : [1, 2, 3, 4, 5].any (fun d => (s.tickTo t).dieDown d) = false := by
    rw [List.any_eq_false]
    intro d named
    rw [show (s.tickTo t).dieDown d = false from reach d (by simp at named; omega) (by simp at named; omega)]
    exact Bool.false_ne_true
  refine congrArg Host.Outcome.next ((if_pos ?_).trans ?_)
  · simp only [Bool.and_eq_true, Bool.or_eq_true, Bool.not_eq_true', decide_eq_true_eq]
    exact ⟨⟨⟨on, long⟩, free⟩, up⟩
  · dsimp only
    rw [State.abortSweep_idle (by exact idle), ite_self]
    rfl

/-! ### The modem clock (R32) -/

/-- A timing message at least 10 ms after the last is taken. -/
theorem exec_timingMessage {s : State} {t count : Nat} (on : s.phase = .ready ∨ s.phase = .running) (reach : s.linkLost 6 = false)
    (crystal : s.clock.modemLost = false) (due : s.clock.modemTick = 0 ∨ s.clock.modemTick + 160000 ≤ max s.now t) :
    exec (.timingMessage t count) s = .next { s.tickTo t with clock := { s.clock with
      modemCount := count, modemTick := max s.now t
      modemBefore := if s.clock.modemTick = 0 then none else some (s.clock.modemCount, s.clock.modemTick) } } := by
  refine congrArg Host.Outcome.next (if_pos ?_)
  simp only [Bool.and_eq_true, Bool.or_eq_true, Bool.not_eq_true', decide_eq_true_eq]
  exact ⟨⟨⟨on, reach⟩, crystal⟩, due⟩

/-- An earlier one is not. -/
theorem exec_timingMessage_early {s : State} {t count : Nat} (some_ : s.clock.modemTick ≠ 0) (early : max s.now t < s.clock.modemTick + 160000) :
    exec (.timingMessage t count) s = .next (s.tickTo t) := by
  refine congrArg Host.Outcome.next (if_neg ?_)
  simp only [Bool.and_eq_true, Bool.or_eq_true, decide_eq_true_eq]
  exact fun taken => taken.2.elim some_ (Nat.not_le_of_lt early)

/-- Settles O60: each command by its own rule, the SYNC edge by the synchronising reset of each die. -/
theorem clocksAreKept : Obligations.ClocksAreKept := by
  unfold Obligations.ClocksAreKept
  intro t s inv now
  refine ⟨?_, ?_, ?_, ?_, fun runs => rtcCrystalStop_holds runs, fun stopped => ⟨_, exec_rtcOscillatorRestart stopped, rfl⟩, ?_, ?_⟩
  · intro quarter last firmware mapped before _ seen
    have run := exec_ppsEdge firmware mapped seen
    have before' : (s.tickTo t).clock.ppsLast = some last := before
    refine ⟨fun unlocked good few => ⟨_, run, ?_⟩, fun unlocked good third => ⟨_, run, State.ppsSeen_locks before' unlocked good third⟩,
      fun unlocked bad => ⟨_, run, ?_⟩, fun locked bad => ⟨_, run, ?_⟩⟩
    · rw [State.ppsSeen_counts before' unlocked good few]; exact ⟨rfl, rfl⟩
    · rw [State.ppsSeen_restarts before' unlocked bad]; exact ⟨rfl, rfl⟩
    · rw [State.ppsSeen_rejects before' locked bad]; exact ⟨rfl, rfl⟩
  · exact fun firmware locked => ⟨ppsUnlock_due firmware locked, exec_ppsUnlock_early⟩
  · exact fun x expiry => ⟨fun due => ⟨_, exec_rateEstimateExpiry expiry due, rfl, rfl, rfl⟩, exec_rateEstimateExpiry_early expiry⟩
  · intro firmware mapped reach whole
    have run := exec_rtcWrite (t := t) firmware mapped reach
    refine ⟨fun new => ⟨_, run.trans (by rw [if_pos new]), rfl, rfl⟩, fun same => run.trans (by rw [if_neg (not_not.2 same)])⟩
  · intro width
    refine ⟨exec_syncEdge_short, fun long on apart reach idle phase => ⟨_, exec_syncEdge long on apart reach idle, ?_, ?_⟩⟩
    · rw [State.syncAt_clock]
    · intro d low high
      have opens := State.syncAt_epochTick (c := s.rawInstant (now + 160)) (k := d) (l := [1, 2, 3, 4, 5])
        (s := { s.tickTo t with clock := { s.clock with syncEdgeAt := some now } })
        (by simp [inv.dies]) (by simp; omega)
      rw [opens]
      exact ⟨rfl, s.rawInstant_spec _ phase⟩
  · exact fun count on reach crystal => ⟨fun due => ⟨_, exec_timingMessage on reach crystal due, rfl⟩, exec_timingMessage_early⟩

end Sys2Proof.Machine
end

section
/-! SUPPORT. What the repair of lanes and the line functions leave of the dies. -/

namespace Sys2Proof.Machine

/-! ### Events, operations and draws -/

@[simp] theorem State.note_dies (s : State) (kind outcome handle carrier rung : Nat) : (s.note kind outcome handle carrier rung).dies = s.dies := by
  rw [State.note_frame]

@[simp] theorem State.completeOp_dies (s : State) (tag status : Nat) (detail : List Byte) : (s.completeOp tag status detail).dies = s.dies := by
  rw [State.completeOp_frame]

@[simp] theorem State.backlogEvent_dies (s : State) : s.backlogEvent.dies = s.dies := State.raise_dies _ _ _ _

/-- A pick draws at most. -/
theorem State.pick_dies {s u : State} {l : List Nat} {k : Option Nat} (h : s.pick l = (k, u)) : u.dies = s.dies := by
  unfold State.pick at h
  split at h <;> cases h <;> rfl

/-! ### Carriers, lanes and slices (R340-R345, R352) -/

@[simp] theorem State.lose_dies (s : State) (n : Nat) : (s.lose n).dies = s.dies := by
  unfold State.lose; split <;> simp

@[simp] theorem State.carry_dies (s : State) (n : Nat) (c : Carrier) : (s.carry n c).dies = s.dies := by
  unfold State.carry; dsimp only; split <;> simp

@[simp] theorem State.goHome_dies (s : State) (n : Nat) : (s.goHome n).dies = s.dies := by
  unfold State.goHome; split <;> simp

@[simp] theorem State.pauseChecker_dies (s : State) (k : Nat) : (s.pauseChecker k).dies = s.dies := by
  unfold State.pauseChecker; split <;> rfl

@[simp] theorem State.release_dies (s : State) (k : Nat) : (s.release k).dies = s.dies := rfl

@[simp] theorem State.disturb_dies (s : State) (u : Nat) : (s.disturb u).dies = s.dies := by
  unfold State.disturb State.disturbNarrow; dsimp only; split <;> rfl

@[simp] theorem State.assign_dies (s : State) (k n prec : Nat) : (s.assign k n prec).dies = s.dies := by
  simp [State.assign]

@[simp] theorem State.substitute_dies (s : State) (n k : Nat) : (s.substitute n k).dies = s.dies := by
  simp [State.substitute, apply_ite State.dies]

@[simp] theorem State.keepLane_dies (s : State) (n k : Nat) : (s.keepLane n k).dies = s.dies := by
  unfold State.keepLane; dsimp only; split <;> rfl

@[simp] theorem State.substituteIfFree_dies (s : State) (n : Nat) : (s.substituteIfFree n).dies = s.dies := by
  unfold State.substituteIfFree
  split
  · next h => exact State.pick_dies h
  · next h => simp [State.pick_dies h]

@[simp] theorem State.rearm_dies (s : State) (n : Nat) (slow : Bool) : (s.rearm n slow).dies = s.dies := rfl

/-- A bench that fails: its channel's mode, its lane, its carrier. -/
@[simp] theorem State.benchFails_dies (s : State) (u b : Nat) : (s.benchFails u b).dies = s.dies := by
  unfold State.benchFails
  extract_lets old s₁ s₂ s₃ s₄ dead s₅
  have mode : s₃.dies = s.dies := by simp only [s₃]; split <;> [(split <;> rfl); rfl]
  have noted : s₄.dies = s.dies := by simp [s₄, mode]
  have lane : s₅.dies = s.dies := by
    simp only [s₅]
    split
    · split
      · simp [noted]
      · split <;> simp [noted]
    · exact noted
  split
  · split
    · split <;> simp [lane]
    · exact lane
  · exact noted

@[simp] theorem State.settleBench_dies (s : State) (u b : Nat) (failing : List Nat) : (s.settleBench u b failing).dies = s.dies := by
  unfold State.settleBench
  split
  · rfl
  · split <;> simp

@[simp] theorem State.settleSlices_dies (s : State) (u : Nat) : (s.settleSlices u).dies = s.dies := by
  simp [State.settleSlices, apply_ite State.dies]

/-! ### Sweeps (R145-R162) -/

@[simp] theorem State.abortUnit_dies (s : State) (u : Nat) : (s.abortUnit u).dies = s.dies := by
  unfold State.abortUnit State.sweepEvent
  dsimp only
  rw [State.raise_dies]
  rfl

@[simp] theorem State.cutOver_dies (s : State) (n old new : Nat) : (s.cutOver n old new).dies = s.dies := rfl

@[simp] theorem State.interrupt_dies (s : State) (u : Nat) (bridge : Option Nat) : (s.interrupt u bridge).dies = s.dies := by
  unfold State.interrupt
  cases bridge <;> simp [apply_ite State.dies]

/-- A sweep that loses its lane. -/
@[simp] theorem State.sweepLosesLane_dies (s : State) (k : Nat) : (s.sweepLosesLane k).dies = s.dies := by
  unfold State.sweepLosesLane
  dsimp only
  split
  · split
    · rfl
    · simp [apply_ite State.dies]
  · rfl

@[simp] theorem State.endSweepOp_dies (s : State) (status : Nat) : (s.endSweepOp status).dies = s.dies := by
  unfold State.endSweepOp; split <;> simp

@[simp] theorem State.resume_dies (s : State) (u : Nat) : (s.resume u).dies = s.dies := by
  simp [State.resume, apply_ite State.dies]

/-- A sweep that aborts: its results, its lanes, its streams. -/
@[simp] theorem State.abortSweep_dies (s : State) (status : Nat) (restore : Bool) : (s.abortSweep status restore).dies = s.dies := by
  unfold State.abortSweep
  split
  · rfl
  · extract_lets w started s₁ s₂ held s₃ s₄ s₅
    have aborted : s₁.dies = s.dies := foldl_keeps State.dies _ State.abortUnit_dies _ _
    have released : s₂.dies = s.dies := by simp only [s₂]; split <;> exact aborted
    have ended : s₄.dies = s.dies := by simp [s₄, s₃, released]
    have free : s₅.dies = s.dies := by simp only [s₅]; split <;> exact ended
    split
    · exact ended
    · split
      · exact free
      · split
        · simp [apply_ite State.dies, ended]
        · extract_lets s₆ s₇
          have resumed : s₆.dies = s.dies := by simp [s₆, ended]
          have left : s₇.dies = s.dies := by simp only [s₇]; split <;> exact resumed
          exact left

@[simp] theorem State.endQueuedSweeps_dies (s : State) (d : Nat) : (s.endQueuedSweeps d).dies = s.dies := by
  unfold State.endQueuedSweeps
  rw [foldl_keeps State.dies]
  exact fun s o => s.completeOp_dies _ _ _

@[simp] theorem State.failSweeps_dies (s : State) (d : Nat) : (s.failSweeps d).dies = s.dies := by
  simp [State.failSweeps, apply_ite State.dies]

/-! ### Lanes taken and freed (R344, R348, R350) -/

/-- A lane's job that ends, by its precedence. -/
@[simp] theorem State.evict_dies (s : State) (k : Nat) : (s.evict k).dies = s.dies := by
  unfold State.evict
  split
  · rfl
  · simp [apply_ite State.dies]

@[simp] theorem State.startConfirming_dies (s : State) (n first k : Nat) : (s.startConfirming n first k).dies = s.dies := by
  simp [State.startConfirming]

/-- Lanes that become free take the channels that wait, then the confirming dwell. -/
@[simp] theorem State.lanesFreed_dies (s : State) : s.lanesFreed.dies = s.dies := by
  unfold State.lanesFreed
  extract_lets s₁
  have taken : s₁.dies = s.dies := by
    refine foldl_keeps State.dies _ (fun s n => ?_) _ _
    simp [apply_ite State.dies]
  split
  · exact taken
  · split
    · next pick => rw [State.pick_dies pick, taken]
    · next pick => rw [State.startConfirming_dies, State.pick_dies pick, taken]

/-- The belvedere substitutes for a die: lanes leave their jobs, and take those of its units. -/
@[simp] theorem State.substituteDie_dies (s : State) (d : Nat) : (s.substituteDie d).dies = s.dies := by
  unfold State.substituteDie
  extract_lets s₁ s₂ lanes s₃ health s₄
  have own : s₁.dies = s.dies := by
    refine foldl_keeps State.dies _ (fun s k => ?_) _ _
    dsimp only
    split
    · simp [apply_ite State.dies]
    · rfl
  have others : s₂.dies = s.dies := by
    refine (foldl_keeps State.dies _ (fun s p => ?_) _ _).trans own
    refine foldl_keeps State.dies _ (fun s k => ?_) _ _
    simp [apply_ite State.dies]
  have taken : s₃.dies = s.dies := by
    refine (foldl_keeps State.dies _ (fun s j => ?_) _ _).trans others
    dsimp only
    split
    · simp [apply_ite State.dies]
    · simp
  simp [s₄, taken]

/-! ### The belvedere (Table 1.2, R352, R353) -/

@[simp] theorem State.dropLane_dies (s : State) (k : Nat) : (s.dropLane k).dies = s.dies := by
  unfold State.dropLane
  split
  · rfl
  · simp [apply_ite State.dies, State.dropBridge]

@[simp] theorem State.belvedereOut_dies (s : State) : s.belvedereOut.dies = s.dies := by
  unfold State.belvedereOut
  extract_lets s₁ s₂ health s₃
  have dropped : s₂.dies = s₁.dies := by
    refine foldl_keeps State.dies _ (fun s p => foldl_keeps State.dies _ (fun s k => ?_) _ _) _ _
    simp [apply_ite State.dies]
  simp [s₃, dropped, s₁]

@[simp] theorem State.substituteNext_dies (s : State) : s.substituteNext.dies = s.dies := by
  unfold State.substituteNext
  split
  · rfl
  · split <;> simp

@[simp] theorem State.recarry_dies (s : State) : s.recarry.dies = s.dies := by
  refine foldl_keeps State.dies _ (fun s n => ?_) _ _
  simp [apply_ite State.dies]

@[simp] theorem State.belvedereBack_dies (s : State) : s.belvedereBack.dies = s.dies := by
  simp [State.belvedereBack]

/-! ### The line functions (Table 1.2) -/

@[simp] theorem State.stopLine_dies (s : State) : s.stopLine.dies = s.dies := by
  unfold State.stopLine State.endFlights
  dsimp only
  rw [State.setLine_dies, foldl_keeps State.dies]
  · rfl
  · intro s x
    split <;> simp

@[simp] theorem State.authFails_dies (s : State) (origin : Nat) : (s.authFails origin).dies = s.dies := by
  unfold State.authFails State.meshCount
  dsimp only
  split <;> simp

/-- A frame that is opened: refused, of no known key, or taken. -/
@[simp] theorem State.openFrame_dies (s : State) (data : List Byte) : (s.openFrame data).dies = s.dies := by
  unfold State.openFrame
  dsimp only
  split
  · rfl
  · split
    · simp
    · split
      · simp
      · simp [apply_ite State.dies]

@[simp] theorem State.openKeyless_dies (s : State) : s.openKeyless.dies = s.dies :=
  foldl_keeps State.dies _ State.openFrame_dies _ _

end Sys2Proof.Machine
end

section
/-! SUPPORT. O55: the links. -/

namespace Sys2Proof.Machine

/-! ### A link (R21-R23) -/

/-- A lane after a change of it. -/
theorem Link.lane_setLane (x : Link) (k : Nat) (f : LinkLane → LinkLane) (part : k < x.lanes.length) :
    (x.setLane k f).lane k = f (x.lane k) := nth_alter _ _ _ part

/-- Sending touches the replay buffer only. -/
theorem Link.sent_frame (x : Link) (lane seq now : Nat) : x.sent lane seq now = { x with replay := (x.sent lane seq now).replay } := by
  unfold Link.sent; split <;> rfl

/-- Delivery in order touches what is delivered and what waits. -/
theorem Link.deliverAhead_frame (n : Nat) (x : Link) :
    Link.deliverAhead n x = { x with delivered := (Link.deliverAhead n x).delivered, ahead := (Link.deliverAhead n x).ahead } := by
  induction n generalizing x with
  | zero => rfl
  | succ n ih =>
    unfold Link.deliverAhead
    split
    · rw [ih]
    · rfl

/-- While the next frame does not wait, none is delivered. -/
theorem Link.deliverAhead_stops (n : Nat) {x : Link} (missing : x.delivered ∉ x.ahead) : Link.deliverAhead n x = x := by
  cases n with
  | zero => rfl
  | succ n => exact if_neg (by simpa using missing)

section Good
variable (x : Link) (k seq : Nat)

/-- A good frame touches its lane, the replay buffer, and what is delivered or waits. -/
theorem Link.passes_lanes : (x.passes k seq).lanes = alter x.lanes k (fun l => { l with failed := 0 }) := by
  unfold Link.passes
  dsimp only
  split
  · rfl
  · rw [Link.deliverAhead_frame]; rfl

/-- It is acknowledged (R22). -/
theorem Link.passes_acknowledges : ∀ h ∈ (x.passes k seq).replay, h.seq ≠ seq := by
  have left : (x.passes k seq).replay = x.replay.filter (fun h => h.seq ≠ seq) := by
    unfold Link.passes
    dsimp only
    split
    · rfl
    · rw [Link.deliverAhead_frame]; rfl
  intro h held
  rw [left] at held
  simpa using (List.mem_filter.1 held).2

variable {x k seq}

/-- The next one expected is delivered (R21). -/
theorem Link.passes_delivers (next : seq = x.delivered) (none_ : x.ahead = []) : (x.passes k seq).delivered = x.delivered + 1 := by
  subst next
  unfold Link.passes
  dsimp only
  rw [if_neg (by simp [Link.setLane, none_])]
  unfold Link.deliverAhead
  rw [if_pos (by simp [Link.setLane]), Link.deliverAhead_stops]
  · rfl
  · simp [Link.setLane, none_]

/-- A repeat is not delivered again. -/
theorem Link.passes_repeat (old : seq < x.delivered) :
    (x.passes k seq).delivered = x.delivered ∧ (x.passes k seq).ahead = x.ahead := by
  unfold Link.passes
  dsimp only
  rw [if_pos (by simp [Link.setLane, old])]
  exact ⟨rfl, rfl⟩

/-- One ahead waits. -/
theorem Link.passes_waits (ahead : x.delivered < seq) (missing : x.delivered ∉ x.ahead) : (x.passes k seq).delivered = x.delivered := by
  unfold Link.passes
  dsimp only
  split
  · rfl
  · rw [Link.deliverAhead_stops]
    · rfl
    · simpa [Link.setLane, missing] using Nat.ne_of_lt ahead

end Good

/-- A frame that fails counts on its lane, and delivers nothing. -/
theorem Link.fails_frame (x : Link) (k seq now : Nat) :
    (x.fails k seq now).lanes = alter x.lanes k (fun l => { l with failed := l.failed + 1 }) ∧ (x.fails k seq now).delivered = x.delivered :=
  ⟨rfl, rfl⟩

/-! ### A link of the part -/

/-- A link after a change of it. -/
theorem State.link_setLink (s : State) {d : Nat} (f : Link → Link) (part : d < s.dies.length) :
    ((s.setLink d f).die d).link = f (s.die d).link := by
  unfold State.setLink
  rw [State.die_setDie _ _ _ part]

/-- States with the same dies have the same links. -/
theorem link_of_dies {s u : State} (same : u.dies = s.dies) (d : Nat) : (u.die d).link = (s.die d).link := by
  unfold State.die
  rw [same]

/-- A link with a lane up is not lost. -/
theorem State.linkLost_of_up {s : State} {d k : Nat} (part : k < (s.die d).link.lanes.length) (up : ((s.die d).link.lane k).up = true) :
    s.linkLost d = false := by
  refine List.all_eq_false.2 ⟨_, List.getElem_mem part, ?_⟩
  have lane : (s.die d).link.lane k = (s.die d).link.lanes[k] := by simp [Link.lane, nth, part]
  rw [← lane, up]
  decide

/-- The loss of a whole link keeps of it all but the instant of the loss. -/
theorem State.linkGone_link (s : State) {d : Nat} (belvedere : Bool) (part : d < s.dies.length) :
    ((s.linkGone d belvedere).die d).link = { (s.die d).link with lostAt := some s.now } := by
  have dies : (s.linkGone d belvedere).dies = (s.setLink d (fun x => { x with lostAt := some s.now })).dies := by
    simp [State.linkGone, apply_ite State.dies]
  rw [link_of_dies dies, State.link_setLink _ _ part]

/-- What a lane's loss leaves of its link (R23): the lane is down, the other one takes the replay buffer. -/
theorem State.loseLane_link (s : State) {d : Nat} (k : Nat) (part : d < s.dies.length) :
    ∃ lostAt, ((s.loseLane d k).die d).link =
      { ((s.die d).link.setLane k (fun _ => { up := false, since := s.now })).moveTo (otherLane k) s.now with lostAt := lostAt } := by
  unfold State.loseLane
  extract_lets up s₁ s₂ s₃
  have noted : s₃.dies = s₂.dies := by simp [s₃]
  have moved : (s₂.die d).link = ((s.die d).link.setLane k (fun _ => { up := false, since := s.now })).moveTo (otherLane k) s.now :=
    State.link_setLink s₁ _ part
  split
  · refine ⟨some s₃.now, ?_⟩
    rw [State.linkGone_link s₃ up (by simpa [noted, s₂, s₁, State.setLink, State.setDie, State.settleDrains] using part),
      link_of_dies noted, moved]
  · exact ⟨_, (link_of_dies noted d).trans moved⟩

/-- What a lane's return leaves of its link (R24). -/
theorem State.returnLane_link (s : State) {d : Nat} (k : Nat) (part : d < s.dies.length) :
    ((s.returnLane d k).die d).link.lanes = alter (s.die d).link.lanes k (fun _ => { since := s.now }) ∧
      ((s.returnLane d k).die d).link.delivered = (s.die d).link.delivered := by
  unfold State.returnLane
  extract_lets lost s₁ s₂ s₃ s₄
  have noted : s₃.dies = s₂.dies := by simp [s₃]
  have works : (s₂.die d).link = (s.die d).link.setLane k (fun _ => { since := s.now }) := State.link_setLink s₁ _ part
  have part' : d < s₃.dies.length := by
    simpa [noted, s₂, s₁, State.setLink, State.setDie, State.settleDrains] using part
  have back : (s₄.die d).link = { (s₃.die d).link.moveTo k s₃.now with lostAt := none } := State.link_setLink s₃ _ part'
  split
  · have dies : (if d = 5 && s₄.belvedereUp && (s₄.phase = .ready || s₄.phase = .running) then s₄.belvedereBack
        else if d = 7 then s₄.openKeyless else s₄).dies = s₄.dies := by
      simp [apply_ite State.dies]
    rw [link_of_dies dies, back, link_of_dies noted, works]
    exact ⟨rfl, rfl⟩
  · rw [link_of_dies noted, works]
    exact ⟨rfl, rfl⟩

/-! ### The commands -/

/-- Sending leaves the lanes, what is delivered and what waits. -/
@[simp] theorem Link.sent_lanes (x : Link) (lane seq now : Nat) : (x.sent lane seq now).lanes = x.lanes := by rw [Link.sent_frame]

@[simp] theorem Link.sent_delivered (x : Link) (lane seq now : Nat) : (x.sent lane seq now).delivered = x.delivered := by rw [Link.sent_frame]

@[simp] theorem Link.sent_ahead (x : Link) (lane seq now : Nat) : (x.sent lane seq now).ahead = x.ahead := by rw [Link.sent_frame]

/-- The objects that a command on a lane names are those of the part. -/
theorem lane_named {d k : Nat} (named : isLinked d = true) (pair : k < 2) : (isLinked d && decide (k < 2)) = true := by
  simp [named, pair]

/-- The dies that have a link are dies of the part. -/
theorem State.Inv.linked {s : State} (inv : s.Inv) {d : Nat} (named : isLinked d = true) : d < s.dies.length := by
  simp only [isLinked, Bool.and_eq_true, decide_eq_true_eq] at named
  rw [inv.dies]
  omega

section Commands
variable {t d k seq : Nat} {s : State} (inv : s.Inv) (named : isLinked d = true) (pair : k < 2) (runs : s.linked = true)
include named runs

/-- Frames not acknowledged for 4 us are sent again (R22). -/
theorem exec_varfinResendTimeout (reach : s.linkLost d = false) :
    exec (.varfinResendTimeout t d) s = .next ((s.tickTo t).setLink d (fun x => { x with replay := x.replay.map (fun (h : HeldFrame) =>
      if h.sentAt + 64 ≤ max s.now t then { h with sentAt := max s.now t } else h) })) := by
  refine (if_pos named).trans (congrArg Host.Outcome.next (if_pos ?_))
  simp only [Bool.and_eq_true, Bool.not_eq_true']
  exact ⟨runs, reach⟩

include pair

/-- A frame on a lane that works (R22, R23). -/
theorem exec_varfinFrame_up (good : Bool) (up : ((s.die d).link.lane k).up = true) :
    exec (.varfinFrame t d k seq good) s = .next
      (let u := (s.tickTo t).setLink d (fun x =>
        if good then (x.sent k seq (max s.now t)).passes k seq else (x.sent k seq (max s.now t)).fails k seq (max s.now t))
       if 16 ≤ ((u.die d).link.lane k).failed then u.loseLane d k else u) := by
  refine (if_pos (lane_named named pair)).trans (congrArg Host.Outcome.next ?_)
  exact (if_neg (by rw [show (s.tickTo t).linked = true from runs]; decide)).trans (if_pos up)

/-- A test frame that fails ends the test (R24). -/
theorem exec_varfinFrame_test (down : ((s.die d).link.lane k).up = false) (testing : ((s.die d).link.lane k).testing = true) :
    exec (.varfinFrame t d k seq false) s = .next ((s.tickTo t).setLink d (fun x =>
      x.setLane k (fun l => { l with testing := false, since := max s.now t }))) := by
  refine (if_pos (lane_named named pair)).trans (congrArg Host.Outcome.next ?_)
  refine (if_neg (by rw [show (s.tickTo t).linked = true from runs]; decide)).trans ((if_neg ?_).trans (if_pos ?_))
  · exact fun up => absurd (down.symm.trans up) Bool.false_ne_true
  · simpa using testing

/-- Symbol lock lost on a lane that works loses it (R23). -/
theorem exec_laneLoss (up : ((s.die d).link.lane k).up = true) : exec (.laneLoss t d k) s = .next ((s.tickTo t).loseLane d k) := by
  refine (if_pos (lane_named named pair)).trans (congrArg Host.Outcome.next (if_pos ?_))
  simp only [Bool.and_eq_true]
  exact ⟨runs, up⟩

/-- A lost lane is trained at its time (R24). -/
theorem exec_laneRetrain (down : ((s.die d).link.lane k).up = false) (idle : ((s.die d).link.lane k).testing = false)
    (due : ((s.die d).link.lane k).since + (s.trainTicks d).1 ≤ max s.now t) :
    exec (.laneRetrain t d k) s = .next ((s.tickTo t).setLink d (fun x =>
      x.setLane k (fun l => { l with testing := true, since := max s.now t }))) := by
  refine (if_pos (lane_named named pair)).trans (congrArg Host.Outcome.next (if_pos ?_))
  simp only [Bool.and_eq_true, Bool.not_eq_true', decide_eq_true_eq]
  exact ⟨⟨⟨runs, down⟩, idle⟩, due⟩

/-- It returns when its test has run (R24). -/
theorem exec_laneReturn (down : ((s.die d).link.lane k).up = false) (testing : ((s.die d).link.lane k).testing = true)
    (due : ((s.die d).link.lane k).since + (s.trainTicks d).2 ≤ max s.now t) :
    exec (.laneReturn t d k) s = .next ((s.tickTo t).returnLane d k) := by
  refine (if_pos (lane_named named pair)).trans (congrArg Host.Outcome.next (if_pos ?_))
  simp only [Bool.and_eq_true, Bool.not_eq_true', decide_eq_true_eq]
  exact ⟨⟨⟨runs, down⟩, testing⟩, due⟩

include inv

variable (lanes : (s.die d).link.lanes.length = 2)
include lanes

/-- A good frame: the link takes it, and its lane has no failures in a row. -/
theorem varfinFrame_good (up : ((s.die d).link.lane k).up = true) :
    Leads (.varfinFrame t d k seq true) s (fun u =>
      (u.die d).link = ((s.die d).link.sent k seq (max s.now t)).passes k seq ∧
      (u.die d).link.lane k = { (s.die d).link.lane k with failed := 0 }) := by
  refine ⟨_, exec_varfinFrame_up named pair runs true up, ?_⟩
  have link := State.link_setLink (s.tickTo t) (d := d)
    (fun x => if true then (x.sent k seq (max s.now t)).passes k seq else (x.sent k seq (max s.now t)).fails k seq (max s.now t))
    (inv.linked named)
  have lane : (((s.die d).link.sent k seq (max s.now t)).passes k seq).lane k = { (s.die d).link.lane k with failed := 0 } := by
    unfold Link.lane
    rw [Link.passes_lanes, Link.sent_lanes, nth_alter _ _ _ (by rw [lanes]; exact pair)]
  rw [State.tickTo_die, if_pos rfl] at link
  dsimp only
  rw [link, lane, if_neg (by simp), link]
  exact ⟨rfl, lane⟩

/-- A bad frame: the link keeps what is delivered, and its lane counts a failure; the sixteenth in a row loses it. -/
theorem varfinFrame_bad (up : ((s.die d).link.lane k).up = true) :
    Leads (.varfinFrame t d k seq false) s (fun u => (u.die d).link.delivered = (s.die d).link.delivered ∧
      (u.die d).link.lane k = if 16 ≤ ((s.die d).link.lane k).failed + 1 then { up := false, since := max s.now t }
        else { (s.die d).link.lane k with failed := ((s.die d).link.lane k).failed + 1 }) := by
  refine ⟨_, exec_varfinFrame_up named pair runs false up, ?_⟩
  extract_lets u₀ u
  have link : (u.die d).link = ((s.die d).link.sent k seq (max s.now t)).fails k seq (max s.now t) :=
    State.link_setLink (s.tickTo t) _ (inv.linked named)
  have lane : (u.die d).link.lane k = { (s.die d).link.lane k with failed := ((s.die d).link.lane k).failed + 1 } := by
    unfold Link.lane
    rw [link, (Link.fails_frame _ k seq _).1, Link.sent_lanes, nth_alter _ _ _ (by rw [lanes]; exact pair)]
  have delivered : (u.die d).link.delivered = (s.die d).link.delivered := by
    rw [link, (Link.fails_frame _ k seq _).2, Link.sent_delivered]
  have part : k < (u.die d).link.lanes.length := by
    rw [link, (Link.fails_frame _ k seq _).1, Link.sent_lanes, length_alter, lanes]
    exact pair
  rw [lane]
  split
  · obtain ⟨lostAt, lost⟩ := u.loseLane_link (d := d) k (by simpa [u, State.setLink, State.setDie] using inv.linked named)
    dsimp only
    rw [lost]
    exact ⟨delivered, Link.lane_setLane _ k _ part⟩
  · exact ⟨delivered, lane⟩

omit runs in
/-- The end of a test, or its start: the lane changes as told, and nothing is delivered. -/
theorem lane_of_setLane (f : LinkLane → LinkLane) :
    (((s.tickTo t).setLink d (fun x => x.setLane k f)).die d).link.lane k = f ((s.die d).link.lane k) ∧
      (((s.tickTo t).setLink d (fun x => x.setLane k f)).die d).link.delivered = (s.die d).link.delivered := by
  rw [State.link_setLink (s.tickTo t) _ (inv.linked named)]
  exact ⟨Link.lane_setLane _ k f (by rw [State.tickTo_die, lanes]; exact pair), rfl⟩

/-- A lane that loses symbol lock is down, and the other takes the replay buffer (R23). -/
theorem laneLoss_leads (up : ((s.die d).link.lane k).up = true) :
    Leads (.laneLoss t d k) s (fun u => ((u.die d).link.lane k).up = false ∧ ((u.die d).link.lane k).since = max s.now t ∧
      (u.die d).link.delivered = (s.die d).link.delivered ∧ (∀ h ∈ (u.die d).link.replay, h.lane = otherLane k)) := by
  obtain ⟨lostAt, lost⟩ := (s.tickTo t).loseLane_link (d := d) k (inv.linked named)
  refine ⟨_, exec_laneLoss named pair runs up, ?_⟩
  have lane := Link.lane_setLane (s.die d).link k (fun _ => { up := false, since := max s.now t }) (by rw [lanes]; exact pair)
  have down : (((s.tickTo t).loseLane d k).die d).link.lane k = { up := false, since := max s.now t } := by rw [lost]; exact lane
  dsimp only
  rw [down, lost]
  refine ⟨rfl, rfl, rfl, fun h held => ?_⟩
  obtain ⟨g, -, rfl⟩ := List.mem_map.1 held
  rfl

/-- A lane whose test has run works again (R24). -/
theorem laneReturn_leads (down : ((s.die d).link.lane k).up = false) (testing : ((s.die d).link.lane k).testing = true)
    (due : ((s.die d).link.lane k).since + (s.trainTicks d).2 ≤ max s.now t) :
    Leads (.laneReturn t d k) s (fun u => ((u.die d).link.lane k).up = true ∧
      (u.die d).link.delivered = (s.die d).link.delivered ∧ u.linkLost d = false) := by
  obtain ⟨works, delivered⟩ := (s.tickTo t).returnLane_link (d := d) k (inv.linked named)
  have part : k < (s.die d).link.lanes.length := by rw [lanes]; exact pair
  have up : ((((s.tickTo t).returnLane d k).die d).link.lane k).up = true := by
    unfold Link.lane
    rw [works, State.tickTo_die, nth_alter _ _ _ part]
  refine ⟨_, exec_laneReturn named pair runs down testing due, up, delivered, State.linkLost_of_up ?_ up⟩
  rw [works, length_alter]
  exact part

end Commands

/-- Frames sent again stay as many, in their order (R22). -/
theorem resent_spec (l : List HeldFrame) (now : Nat) :
    (∀ h ∈ l.map (fun (h : HeldFrame) => if h.sentAt + 64 ≤ now then { h with sentAt := now } else h), now < h.sentAt + 64) ∧
      (l.map (fun (h : HeldFrame) => if h.sentAt + 64 ≤ now then { h with sentAt := now } else h)).map HeldFrame.seq =
        l.map HeldFrame.seq := by
  constructor
  · intro h held
    obtain ⟨g, -, rfl⟩ := List.mem_map.1 held
    split
    · exact Nat.lt_add_of_pos_right (by decide)
    · omega
  · rw [List.map_map]
    refine List.map_congr_left (fun h _ => ?_)
    simp only [Function.comp]
    split <;> rfl

/-- Settles O55: what each command does to the link, and for a good frame which of its three cases it is. -/
theorem linksDeliver : Obligations.LinksDeliver := by
  unfold Obligations.LinksDeliver
  intro t d k seq s inv named pair runs lanes x lane now
  refine ⟨fun up => ?_, fun up few => ?_, fun up last => ?_, laneLoss_leads inv named pair runs lanes, fun reach => ?_, fun down idle due => ?_,
    fun down testing => ?_, laneReturn_leads inv named pair runs lanes⟩
  · obtain ⟨u, run, link, clear⟩ := varfinFrame_good (seq := seq) inv named pair runs lanes up
    refine ⟨u, run, ?_⟩
    dsimp only
    rw [link]
    refine ⟨Link.passes_acknowledges _ k seq, fun next none_ => ?_, fun old => ?_, fun ahead missing => ?_, ?_, ?_⟩
    · rw [Link.passes_delivers (by simpa using next) (by simpa using none_), Link.sent_delivered]
    · simpa using Link.passes_repeat (x := x.sent k seq now) (k := k) (by simpa using old)
    · rw [Link.passes_waits (by simpa using ahead) (by simpa using missing), Link.sent_delivered]
    · simp only [lane, clear]
    · simp only [lane, clear]
      exact up
  · obtain ⟨u, run, delivered, counts⟩ := varfinFrame_bad (seq := seq) inv named pair runs lanes up
    rw [if_neg (by change ¬ 15 < (x.lane k).failed + 1; omega)] at counts
    exact ⟨u, run, delivered, by simp only [lane, counts]; rfl, by simp only [lane, counts]; exact up⟩
  · obtain ⟨u, run, delivered, counts⟩ := varfinFrame_bad (seq := seq) inv named pair runs lanes up
    rw [if_pos (Nat.succ_le_succ (Nat.le_of_eq last.symm))] at counts
    exact ⟨u, run, delivered, by simp only [lane, counts]⟩
  · refine ⟨_, exec_varfinResendTimeout named runs reach, ?_⟩
    dsimp only
    rw [State.link_setLink (s.tickTo t) _ (inv.linked named)]
    exact ⟨(resent_spec x.replay now).1, (resent_spec x.replay now).2, rfl⟩
  · obtain ⟨trained, -⟩ := lane_of_setLane (t := t) inv named pair lanes (fun l => { l with testing := true, since := now })
    exact ⟨_, exec_laneRetrain named pair runs down idle due, congrArg LinkLane.testing trained, (congrArg LinkLane.up trained).trans down,
      congrArg LinkLane.since trained⟩
  · obtain ⟨ended, delivered⟩ := lane_of_setLane (t := t) inv named pair lanes (fun l => { l with testing := false, since := now })
    exact ⟨_, exec_varfinFrame_test named pair runs down testing, congrArg LinkLane.testing ended, delivered⟩

end Sys2Proof.Machine
end

section
/-! SUPPORT. What the firing of trigger sources leaves: the settings of everything but side slices, and what a capture has recorded. -/

namespace Sys2Proof.Machine

/-! ### Lists -/

/-- A list with one entry changed looks the same where the change cannot be seen. -/
theorem map_alter {α β : Type} [Inhabited α] {g : α → β} {l : List α} {i : Nat} {f : α → α} (same : g (f (nth l i)) = g (nth l i)) :
    (alter l i f).map g = l.map g := by
  refine List.ext_getElem (by simp) (fun j h _ => ?_)
  have part : j < l.length := by simpa using h
  by_cases here : i = j
  · subst here
    simpa [alter, nth, part] using same
  · simp [alter, here]

/-- An entry of a list that looks like another, seen the same way. -/
theorem nth_of_map {α β : Type} [Inhabited α] {g : α → β} {l m : List α} (same : l.map g = m.map g) (k : Nat) :
    g (nth l k) = g (nth m k) := by
  have seen : ∀ l : List α, g (nth l k) = (l.map g).getD k (g default) := fun l => (List.getD_map l default g).symm
  rw [seen, seen, same]

/-! ### What firing cannot change -/

/-- A capture without what triggers change of it: an armed one may be triggered. -/
def Capture.unfired (c : Capture) : Capture :=
  { c with
    phase := if c.phase = 1 then 2 else c.phase
    trigger := {}, missed := 0, cause := 0, actedAt := 0, firstIndex := 0, lastIndex := 0, epoch := 0, epochTick := 0 }

/-- A die without its side slice. -/
def Die.unfired (d : Die) : Die := { d with side := {} }

/-- A state without what the firing of trigger sources changes: side slices, captures, and the sessions that wait for an INJECT. -/
def State.unfired (s : State) : State :=
  { s with dies := s.dies.map Die.unfired, captures := s.captures.map Capture.unfired, host := {} }

theorem State.unfired_setSide (s : State) (d : Nat) (f : SideSlice → SideSlice) : (s.setSide d f).unfired = s.unfired := by
  unfold State.unfired State.setSide State.setDie
  dsimp only
  rw [map_alter rfl]

theorem State.unfired_setCapture {s : State} {r : Nat} {f : Capture → Capture}
    (same : (f (nth s.captures r)).unfired = (nth s.captures r).unfired) : (s.setCapture r f).unfired = s.unfired := by
  unfold State.unfired State.setCapture
  dsimp only
  rw [map_alter same]

theorem State.unfired_answer (s : State) (r : Req) (status : Nat) (payload : List Byte) : (s.answer r status payload).unfired = s.unfired := by
  rw [State.answer_frame]; rfl

theorem State.unfired_endInject (s : State) (c : Conv) (status : Nat) (payload : List Byte) : (s.endInject c status payload).unfired = s.unfired := by
  unfold State.endInject
  split
  · rfl
  · rw [State.unfired_answer]; rfl

theorem State.unfired_setTrigger (s : State) (c : Consumer) (f : Trigger → Trigger) : (s.setTrigger c f).unfired = s.unfired := by
  cases c with
  | sideSlice d => exact State.unfired_setSide _ _ _
  | ring r => exact State.unfired_setCapture rfl

theorem State.unfired_missTrigger (s : State) (c : Consumer) : (s.missTrigger c).unfired = s.unfired := by
  cases c with
  | sideSlice d => exact State.unfired_setSide _ _ _
  | ring r => refine State.unfired_setCapture ?_; split <;> rfl

/-- A trigger of a ring counts as missed, is none of its business, or triggers it (R136, R138). -/
theorem State.unfired_captureTrigger (s : State) (r cause tick : Nat) : (s.captureTrigger r cause tick).unfired = s.unfired := by
  unfold State.captureTrigger
  dsimp only
  split
  · exact State.unfired_setCapture rfl
  · split
    · rfl
    · next armed =>
      have phase : (nth s.captures r).phase = 1 := not_not.1 armed
      refine State.unfired_setCapture ?_
      simp only [Capture.unfired, phase]
      rfl

/-- A trigger's list misses the queue, or joins it; INJECT lists of its tick that no longer fit are answered (R85, R87). -/
theorem State.unfired_enqueueTrigger (s : State) (d a : Nat) (codes : List Nat) : (s.enqueueTrigger d a codes).unfired = s.unfired := by
  unfold State.enqueueTrigger
  extract_lets q kept mine list r
  split
  · exact State.unfired_missTrigger s (.sideSlice d)
  · rw [State.unfired_setSide]
    refine foldl_keeps (fun (r : State × List Conv) => r.1.unfired) _ (fun r k => ?_) _ (s, [])
    dsimp only
    split
    · rfl
    · cases (mine.filter (fun c => c.session = k)).head? with
      | none => rfl
      | some c => exact State.unfired_endInject _ _ _ _

theorem State.unfired_triggerActs (s : State) (c : Consumer) : (s.triggerActs c).unfired = s.unfired := by
  unfold State.triggerActs
  split
  · rfl
  · split
    · rfl
    · extract_lets g u
      have taken : u.unfired = s.unfired := State.unfired_setTrigger _ _ _
      cases c with
      | sideSlice d =>
        dsimp only
        split
        · exact taken
        · rw [State.unfired_enqueueTrigger, taken]
      | ring r => exact (State.unfired_captureTrigger _ _ _ _).trans taken

/-- What a firing does to one consumer (R90, R93): the step of `fireSource`. -/
def State.fireAt (s : State) (sources : List Nat) (quarter : Nat) (c : Consumer) : State :=
  if !sources.contains (s.triggerOf c).source then s
  else
    let s := if (s.triggerOf c).actAt.any (fun a => 4 * a ≤ quarter) then s.triggerActs c else s
    let g := s.triggerOf c
    if g.actAt.isSome || quarter < g.acted then s.missTrigger c
    else s.setTrigger c (fun x =>
      { x with actAt := some (s.rawInstant ((quarter + 3) / 4 + 4 * x.delay)), sourceAt := quarter })

theorem State.fireSource_eq (s : State) (sources : List Nat) (quarter : Nat) :
    s.fireSource sources quarter = consumers.foldl (fun s c => s.fireAt sources quarter c) s := rfl

theorem State.unfired_fireAt (s : State) (sources : List Nat) (quarter : Nat) (c : Consumer) :
    (s.fireAt sources quarter c).unfired = s.unfired := by
  unfold State.fireAt
  split
  · rfl
  · extract_lets u g
    have acts : u.unfired = s.unfired := by
      simp only [u]
      split
      · exact State.unfired_triggerActs _ _
      · rfl
    split
    · rw [State.unfired_missTrigger, acts]
    · rw [State.unfired_setTrigger, acts]

@[simp] theorem State.unfired_fireSource (s : State) (sources : List Nat) (quarter : Nat) :
    (s.fireSource sources quarter).unfired = s.unfired := by
  rw [State.fireSource_eq]
  exact foldl_keeps State.unfired _ (fun s c => s.unfired_fireAt sources quarter c) _ _

/-- The firings of a timer until an instant (R91). -/
theorem State.unfired_fireUntil (s : State) (k tick : Nat) : (s.fireUntil k tick).unfired = s.unfired := by
  unfold State.fireUntil
  dsimp only
  split
  · rfl
  · exact foldl_keeps State.unfired _ (fun s i => s.unfired_fireSource _ _) _ _

/-! ### PWMIN edges that have stood (R92) -/

/-- A pin that settles changes what a firing changes, and its own record. -/
theorem State.unfired_settlePin (s : State) (pin quarter : Nat) :
    (s.settlePin pin quarter).unfired = { s.unfired with pins := (s.settlePin pin quarter).pins } := by
  have pins : ∀ u : State, u.unfired.pins = u.pins := fun _ => rfl
  unfold State.settlePin
  split
  · split
    · rw [State.unfired_fireSource, ← pins (State.fireSource _ _ _), State.unfired_fireSource]; rfl
    · rfl
  · rfl

/-- So do both. -/
theorem State.unfired_settlePwm (s : State) : s.settlePwm.unfired = { s.unfired with pins := s.settlePwm.pins } := by
  unfold State.settlePwm
  rw [State.unfired_settlePin, State.unfired_settlePin]

/-- A pin without an edge has none to settle. -/
theorem State.settlePin_idle {s : State} {pin : Nat} (quarter : Nat) (idle : nth s.pins.pwm pin = none) : s.settlePin pin quarter = s := by
  unfold State.settlePin
  rw [idle]

theorem State.settlePwm_idle {s : State} (idle : ∀ k, nth s.pins.pwm k = none) : s.settlePwm = s := by
  unfold State.settlePwm
  rw [State.settlePin_idle _ (idle 0), State.settlePin_idle _ (idle 1)]

/-- An edge that has not stood for 100 ns waits on. -/
theorem State.settlePin_early {s : State} {pin quarter q : Nat} {rising : Bool} (edge : nth s.pins.pwm pin = some (q, rising))
    (early : quarter < q + 7) : s.settlePin pin quarter = s := by
  unfold State.settlePin
  rw [edge]
  exact if_neg (Nat.not_le_of_lt early)

/-- The state with a pin's edge fired. -/
def State.edgeFired (s : State) (pin q : Nat) (rising : Bool) : State :=
  State.fireSource { s with pins := { s.pins with pwm := alter s.pins.pwm pin (fun _ => none) } } (edgeSources pin rising) q

/-- One that has fires as of its own instant. -/
theorem State.settlePin_due {s : State} {pin quarter q : Nat} {rising : Bool} (edge : nth s.pins.pwm pin = some (q, rising))
    (due : q + 7 ≤ quarter) :
    s.settlePin pin quarter = s.edgeFired pin q rising := by
  unfold State.settlePin
  rw [edge]
  exact if_pos due

/-! ### Dies in reach and in service do not depend on their side slices -/

section Reach
variable {s u : State} (same : u.dies.map Die.unfired = s.dies.map Die.unfired) (d : Nat)
include same

theorem linkLost_of_dies : u.linkLost d = s.linkLost d := by
  have seen := congrArg Die.link (nth_of_map same d)
  have link : (u.die d).link = (s.die d).link := seen
  unfold State.linkLost
  rw [link]

theorem dieState_of_dies : (u.die d).state = (s.die d).state := by
  have seen := congrArg Die.state (nth_of_map same d)
  exact seen

theorem outOfService_of_dies : u.outOfService d = s.outOfService d := by
  unfold State.outOfService
  rw [linkLost_of_dies same, dieState_of_dies same]

theorem dieDown_of_dies : u.dieDown d = s.dieDown d := by
  unfold State.dieDown
  rw [linkLost_of_dies same, dieState_of_dies same]

end Reach

/-! ### What the settling of pins leaves, part by part -/

section Parts
variable (s : State)

theorem State.settlePwm_part {α : Type} (part : State → α) (blind : ∀ u : State, part u.unfired = part u)
    (pins : ∀ (u : State) (p : PinState), part { u with pins := p } = part u) : part s.settlePwm = part s := by
  rw [← blind, State.unfired_settlePwm, pins, blind]

@[simp] theorem State.settlePwm_now : s.settlePwm.now = s.now := s.settlePwm_part State.now (fun _ => rfl) (fun _ _ => rfl)
@[simp] theorem State.settlePwm_timers : s.settlePwm.timers = s.timers := s.settlePwm_part State.timers (fun _ => rfl) (fun _ _ => rfl)
@[simp] theorem State.settlePwm_store : s.settlePwm.store = s.store := s.settlePwm_part State.store (fun _ => rfl) (fun _ _ => rfl)
@[simp] theorem State.settlePwm_sweep : s.settlePwm.sweep = s.sweep := s.settlePwm_part State.sweep (fun _ => rfl) (fun _ _ => rfl)

/-- The dies but for their side slices. -/
theorem State.settlePwm_dies : s.settlePwm.dies.map Die.unfired = s.dies.map Die.unfired := by
  have seen := congrArg State.dies s.unfired_settlePwm
  exact seen

/-- The captures but for what triggers them. -/
theorem State.settlePwm_captures : s.settlePwm.captures.map Capture.unfired = s.captures.map Capture.unfired := by
  have seen := congrArg State.captures s.unfired_settlePwm
  exact seen

@[simp] theorem State.settlePwm_outOfService (d : Nat) : s.settlePwm.outOfService d = s.outOfService d := outOfService_of_dies s.settlePwm_dies d

@[simp] theorem State.settlePwm_dieDown (d : Nat) : s.settlePwm.dieDown d = s.dieDown d := dieDown_of_dies s.settlePwm_dies d

@[simp] theorem State.settlePwm_sweepRuns (d : Nat) : s.settlePwm.sweepRuns d = s.sweepRuns d := by
  unfold State.sweepRuns State.sweepUnits
  rw [State.settlePwm_sweep]

@[simp] theorem State.settlePwm_dies_length : s.settlePwm.dies.length = s.dies.length := by
  simpa using congrArg List.length s.settlePwm_dies

@[simp] theorem State.settlePwm_captures_length : s.settlePwm.captures.length = s.captures.length := by
  simpa using congrArg List.length s.settlePwm_captures

end Parts

end Sys2Proof.Machine
end

section
/-! SUPPORT. What a trigger does to the consumer it is for: a side slice, or a capture ring. -/

namespace Sys2Proof.Machine

/-! ### A side slice after an operation on one -/

theorem State.side_setSide (s : State) {d : Nat} (f : SideSlice → SideSlice) (part : d < s.dies.length) :
    ((s.setSide d f).die d).side = f (s.die d).side := by
  unfold State.setSide
  rw [State.die_setDie _ _ _ part]

theorem State.side_setSide_ne (s : State) {d k : Nat} (f : SideSlice → SideSlice) (other : k ≠ d) :
    ((s.setSide d f).die k).side = (s.die k).side := by
  unfold State.setSide
  rw [State.die_setDie_ne _ _ _ _ other]

@[simp] theorem State.setSide_dies_length (s : State) (d : Nat) (f : SideSlice → SideSlice) : (s.setSide d f).dies.length = s.dies.length := by
  simp [State.setSide, State.setDie]

/-- The reply of an INJECT touches the host only. -/
theorem State.endInject_frame (s : State) (c : Conv) (status : Nat) (payload : List Byte) :
    s.endInject c status payload = { s with host := (s.endInject c status payload).host } := by
  unfold State.endInject
  split
  · rfl
  · rw [State.answer_frame]; rfl

@[simp] theorem State.endInject_dies (s : State) (c : Conv) (status : Nat) (payload : List Byte) : (s.endInject c status payload).dies = s.dies := by
  rw [State.endInject_frame]

@[simp] theorem State.captureTrigger_dies (s : State) (r cause tick : Nat) : (s.captureTrigger r cause tick).dies = s.dies := by
  simp [State.captureTrigger, apply_ite State.dies]

theorem State.enqueueTrigger_side_ne (s : State) {d k : Nat} (other : d ≠ k) (a : Nat) (codes : List Nat) :
    ((s.enqueueTrigger k a codes).die d).side = (s.die d).side := by
  unfold State.enqueueTrigger
  extract_lets q kept mine list r
  split
  · exact State.side_setSide_ne s _ other
  · rw [State.side_setSide_ne _ _ other]
    refine foldl_keeps (fun (r : State × List Conv) => (r.1.die d).side) _ (fun r k => ?_) _ (s, [])
    dsimp only
    split
    · rfl
    · cases (mine.filter (fun c => c.session = k)).head? with
      | none => rfl
      | some c => simp [State.die]

section Others
variable (s : State) {c : Consumer} {d : Nat} (other : c ≠ .sideSlice d)
include other

theorem State.setTrigger_side_ne (f : Trigger → Trigger) : ((s.setTrigger c f).die d).side = (s.die d).side := by
  cases c with
  | sideSlice k => exact State.side_setSide_ne s _ (fun same => other (by rw [same]))
  | ring r => rfl

theorem State.missTrigger_side_ne : ((s.missTrigger c).die d).side = (s.die d).side := by
  cases c with
  | sideSlice k => exact State.side_setSide_ne s _ (fun same => other (by rw [same]))
  | ring r => rfl

theorem State.triggerActs_side_ne : ((s.triggerActs c).die d).side = (s.die d).side := by
  unfold State.triggerActs
  split
  · rfl
  · split
    · rfl
    · extract_lets g u
      have taken : (u.die d).side = (s.die d).side := State.setTrigger_side_ne _ other _
      cases c with
      | sideSlice k =>
        dsimp only
        split
        · exact taken
        · rw [State.enqueueTrigger_side_ne _ (fun same => other (by rw [same])), taken]
      | ring r =>
        dsimp only
        rw [← taken]
        simp [State.die]

theorem State.fireAt_side_ne (sources : List Nat) (quarter : Nat) : ((s.fireAt sources quarter c).die d).side = (s.die d).side := by
  unfold State.fireAt
  split
  · rfl
  · extract_lets u g
    have acts : (u.die d).side = (s.die d).side := by
      simp only [u]
      split
      · exact State.triggerActs_side_ne _ other
      · rfl
    split
    · rw [State.missTrigger_side_ne _ other, acts]
    · rw [State.setTrigger_side_ne _ other, acts]

end Others

/-! ### A firing and the side slice that names its source (R90, R93) -/

/-- A firing at the one step of it that concerns a side slice: the steps before and after leave the slice. -/
theorem State.fireSource_side (s : State) (sources : List Nat) (quarter : Nat) {d : Nat} (acquisition : 1 ≤ d ∧ d ≤ 5) :
    ∃ u : State, u.unfired = s.unfired ∧ (u.die d).side = (s.die d).side ∧
      ((s.fireSource sources quarter).die d).side = ((u.fireAt sources quarter (.sideSlice d)).die d).side := by
  have skips : ∀ (l : List Consumer), Consumer.sideSlice d ∉ l → ∀ v : State,
      ((l.foldl (fun s c => s.fireAt sources quarter c) v).die d).side = (v.die d).side := by
    intro l
    induction l with
    | nil => exact fun _ _ => rfl
    | cons c l ih =>
      intro absent v
      rw [List.foldl_cons, ih (fun later => absent (List.mem_cons_of_mem _ later)),
        State.fireAt_side_ne _ (fun same => absent (by rw [same]; exact List.mem_cons_self))]
  have mem : Consumer.sideSlice d ∈ consumers := by
    simp [consumers]
    omega
  obtain ⟨before, after, split_⟩ := List.append_of_mem mem
  have once : (before ++ Consumer.sideSlice d :: after).Nodup := by
    rw [← split_]
    decide
  obtain ⟨-, once', apart⟩ := List.nodup_append.1 once
  refine ⟨before.foldl (fun s c => s.fireAt sources quarter c) s,
    foldl_keeps State.unfired _ (fun s c => s.unfired_fireAt sources quarter c) _ _,
    skips _ (fun early => apart _ early _ List.mem_cons_self rfl) _, ?_⟩
  rw [State.fireSource_eq, split_, List.foldl_append, List.foldl_cons, skips _ (List.nodup_cons.1 once').1]

/-- A firing at a side slice whose action is not due: missed while a delay runs or where it fell into one, and the start of a delay else. -/
theorem State.fireAt_side {s : State} {sources : List Nat} {quarter d : Nat} (part : d < s.dies.length)
    (named : sources.contains (s.die d).side.trigger.source = true)
    (waits : (s.die d).side.trigger.actAt.any (fun a => 4 * a ≤ quarter) = false) :
    let x := (s.die d).side
    ((s.fireAt sources quarter (.sideSlice d)).die d).side =
      if x.trigger.actAt.isSome || quarter < x.trigger.acted then
        { x with missed := sat 32 (x.missed + 1), missedSince := x.missedSince + 1 }
      else { x with trigger := { x.trigger with
        actAt := some (s.rawInstant ((quarter + 3) / 4 + 4 * x.trigger.delay)), sourceAt := quarter } } := by
  have trigger : s.triggerOf (.sideSlice d) = (s.die d).side.trigger := rfl
  unfold State.fireAt
  rw [trigger, named, waits]
  simp only [Bool.not_true, Bool.false_eq_true, if_false]
  rw [trigger]
  split
  · exact State.side_setSide s _ part
  · exact State.side_setSide s _ part

/-- Raw instants depend on the samples' phase alone. -/
theorem rawInstant_of_phase {s u : State} (same : u.samplePhase = s.samplePhase) (n : Nat) : u.rawInstant n = s.rawInstant n := by
  unfold State.rawInstant
  rw [same]

/-- The same for a firing of the whole part. -/
theorem State.fireSource_waits {s : State} {sources : List Nat} {quarter d : Nat} (acquisition : 1 ≤ d ∧ d ≤ 5) (part : d < s.dies.length)
    (named : sources.contains (s.die d).side.trigger.source = true)
    (waits : (s.die d).side.trigger.actAt.any (fun a => 4 * a ≤ quarter) = false) :
    let x := (s.die d).side
    ((s.fireSource sources quarter).die d).side =
      if x.trigger.actAt.isSome || quarter < x.trigger.acted then
        { x with missed := sat 32 (x.missed + 1), missedSince := x.missedSince + 1 }
      else { x with trigger := { x.trigger with
        actAt := some (s.rawInstant ((quarter + 3) / 4 + 4 * x.trigger.delay)), sourceAt := quarter } } := by
  obtain ⟨u, seen, side, fires⟩ := s.fireSource_side sources quarter acquisition
  have seenPhase := congrArg State.samplePhase seen
  have phase : u.samplePhase = s.samplePhase := seenPhase
  have part' : d < u.dies.length := by
    have same : u.dies.length = s.dies.length := by simpa [State.unfired] using congrArg (fun v => v.dies.length) seen
    rw [same]
    exact part
  dsimp only
  rw [fires, State.fireAt_side part' (by rw [side]; exact named) (by rw [side]; exact waits), side, rawInstant_of_phase phase]

/-! ### A trigger's list and the queue (R85, R87) -/

/-- The entries of a list have its input codes. -/
@[simp] theorem conversions_inputs (codes : List Nat) (injected : Bool) (session at_ : Nat) :
    (conversions codes injected session at_).map Conv.input = codes :=
  List.ext_getElem (by simp [conversions]) (by simp [conversions])

@[simp] theorem conversions_length (codes : List Nat) (injected : Bool) (session at_ : Nat) :
    (conversions codes injected session at_).length = codes.length := by simp [conversions]

section Queue
variable {s : State} {d a : Nat} {codes : List Nat} (part : d < s.dies.length)
include part

/-- With nothing behind it in the queue, a list that fits joins its end, and one that does not is missed. -/
theorem State.enqueueTrigger_ahead (ahead : ∀ c ∈ (s.die d).side.queue, c.behind a = false) :
    let x := (s.die d).side
    let u := s.enqueueTrigger d a codes
    (x.queue.length + codes.length ≤ 4 →
      (u.die d).side.trigger = x.trigger ∧ (u.die d).side.queue = x.queue ++ conversions codes false 0 a) ∧
    (4 < x.queue.length + codes.length →
      (u.die d).side = { x with missed := sat 32 (x.missed + 1), missedSince := x.missedSince + 1 }) := by
  have other : ∀ c ∈ (s.die d).side.queue, (c.injected && decide (c.at_ = a)) = false := by
    intro c held
    have behind := ahead c held
    simp only [Conv.behind, Bool.or_eq_false_iff] at behind
    exact behind.2
  have kept : (s.die d).side.queue.filter (fun c => !(c.injected && decide (c.at_ = a))) = (s.die d).side.queue :=
    List.filter_eq_self.2 (fun c held => by rw [other c held]; rfl)
  have mine : (s.die d).side.queue.filter (fun c => c.injected && decide (c.at_ = a)) = [] :=
    List.filter_eq_nil_iff.2 (fun c held => by rw [other c held]; exact Bool.false_ne_true)
  have before : (s.die d).side.queue.filter (fun c => !c.behind a) = (s.die d).side.queue :=
    List.filter_eq_self.2 (fun c held => by rw [ahead c held]; rfl)
  have behind : (s.die d).side.queue.filter (fun c => c.behind a) = [] :=
    List.filter_eq_nil_iff.2 (fun c held => by rw [ahead c held]; exact Bool.false_ne_true)
  unfold State.enqueueTrigger
  dsimp only
  rw [kept, mine]
  refine ⟨fun fits => ?_, fun long => ?_⟩
  · rw [if_neg (Nat.not_lt.2 fits), before, behind]
    simp only [List.map_nil, List.eraseDups_nil, List.foldl_nil]
    rw [State.side_setSide s _ part]
    simp [SideSlice.enqueue]
  · rw [if_pos long]
    exact State.side_setSide s _ part

/-- A list that fits goes before the INJECT list of its own tick (R87). -/
theorem State.enqueueTrigger_first {k : Nat} (mine : ∀ c ∈ (s.die d).side.queue, c.injected = true ∧ c.at_ = a ∧ c.session = k)
    (fits : (s.die d).side.queue.length + codes.length ≤ 4) :
    ((s.enqueueTrigger d a codes).die d).side.trigger = (s.die d).side.trigger ∧
      ((s.enqueueTrigger d a codes).die d).side.queue = conversions codes false 0 a ++ (s.die d).side.queue := by
  have own : ∀ c ∈ (s.die d).side.queue, (c.injected && decide (c.at_ = a)) = true := by
    intro c held
    obtain ⟨injected, tick, -⟩ := mine c held
    simp [injected, tick]
  have kept : (s.die d).side.queue.filter (fun c => !(c.injected && decide (c.at_ = a))) = [] :=
    List.filter_eq_nil_iff.2 (fun c held => by rw [own c held]; exact Bool.false_ne_true)
  have all : (s.die d).side.queue.filter (fun c => c.injected && decide (c.at_ = a)) = (s.die d).side.queue :=
    List.filter_eq_self.2 own
  have session : (s.die d).side.queue.filter (fun c => c.session = k) = (s.die d).side.queue :=
    List.filter_eq_self.2 (fun c held => by simpa using (mine c held).2.2)
  have sessions : ((s.die d).side.queue.map Conv.session).eraseDups = if (s.die d).side.queue = [] then [] else [k] := by
    cases queue : (s.die d).side.queue with
    | nil => rfl
    | cons c rest =>
      rw [queue] at mine
      have first : c.session = k := (mine c List.mem_cons_self).2.2
      have none_ : (rest.map Conv.session).filter (fun j => !j == k) = [] := by
        refine List.filter_eq_nil_iff.2 (fun j named => ?_)
        obtain ⟨e, held, rfl⟩ := List.mem_map.1 named
        simp [(mine e (List.mem_cons_of_mem _ held)).2.2]
      rw [List.map_cons, List.eraseDups_cons, first, none_, List.eraseDups_nil, if_neg (List.cons_ne_nil _ _)]
  unfold State.enqueueTrigger
  dsimp only
  rw [kept, all, if_neg (by simp; omega)]
  have held : (((s.die d).side.queue.map (fun c => c.session)).eraseDups.foldl (fun (r : State × List Conv) j =>
      if r.2.length + ((s.die d).side.queue.filter (fun c => c.session = j)).length + (conversions codes false 0 a).length +
          ([] : List Conv).length ≤ 4 then (r.1, r.2 ++ (s.die d).side.queue.filter (fun c => c.session = j))
      else (((s.die d).side.queue.filter (fun c => c.session = j)).head?.elim r.1 (fun c => r.1.endInject c stBusy []), r.2)) (s, [])) =
      (s, (s.die d).side.queue) := by
    rw [show ((s.die d).side.queue.map (fun c => c.session)).eraseDups = _ from sessions]
    split
    · next empty => rw [empty]; rfl
    · rw [List.foldl_cons, List.foldl_nil, session, if_pos (by simpa using fits)]
      rfl
  rw [held, State.side_setSide s _ part]
  simp [SideSlice.enqueue]

end Queue

/-! ### Actions (R85, R88, R90, R136) -/

/-- A side slice, and a capture, whose trigger's delay has ended at an instant. -/
def SideSlice.acted (x : SideSlice) (a : Nat) : SideSlice := { x with trigger := { x.trigger with actAt := none, acted := 4 * a } }

def Capture.acted (c : Capture) (a : Nat) : Capture := { c with trigger := { c.trigger with actAt := none, acted := 4 * a } }

/-- An action due on a side slice: dropped on a die out of service, else its list meets the queue. -/
theorem State.triggerActs_side {s : State} {d a : Nat} (runs : (s.die d).side.trigger.actAt = some a) (due : a ≤ s.now) :
    s.triggerActs (.sideSlice d) =
      let u := s.setSide d (fun x => x.acted a)
      if s.outOfService d then u else u.enqueueTrigger d a (s.die d).side.trigger.codes := by
  have service : (s.setSide d (fun x => x.acted a)).outOfService d =
      s.outOfService d := outOfService_of_dies (congrArg State.dies (s.unfired_setSide d _)) d
  have trigger : (s.triggerOf (.sideSlice d)).actAt = some a := runs
  unfold State.triggerActs
  rw [trigger]
  dsimp only
  rw [if_neg (Nat.not_lt.2 due), ← service]
  rfl

/-- An action due on a ring is a trigger of its capture. -/
theorem State.triggerActs_ring {s : State} {k a : Nat} (runs : (nth s.captures k).trigger.actAt = some a) (due : a ≤ s.now) :
    s.triggerActs (.ring k) =
      (s.setCapture k (fun x => x.acted a)).captureTrigger k 0 a := by
  have trigger : (s.triggerOf (.ring k)).actAt = some a := runs
  unfold State.triggerActs
  rw [trigger]
  dsimp only
  rw [if_neg (Nat.not_lt.2 due)]
  rfl

/-! ### Captures (R136, R138) -/

theorem State.nth_setCapture (s : State) {k : Nat} (f : Capture → Capture) (part : k < s.captures.length) :
    nth (s.setCapture k f).captures k = f (nth s.captures k) := nth_alter _ _ _ part

theorem State.nth_setCapture_ne (s : State) {j k : Nat} (f : Capture → Capture) (other : j ≠ k) :
    nth (s.setCapture k f).captures j = nth s.captures j := nth_alter_ne _ _ _ _ other

section Rings
variable {s : State} {k : Nat} (part : k < s.captures.length) (cause tick : Nat)
include part

/-- An armed capture is triggered. -/
theorem State.captureTrigger_armed (armed : (nth s.captures k).phase = 1) :
    let c := nth (s.captureTrigger k cause tick).captures k
    c.phase = 2 ∧ c.cause = cause ∧ c.actedAt = tick ∧ c.trigger = (nth s.captures k).trigger := by
  unfold State.captureTrigger
  dsimp only
  rw [if_neg (by rw [armed]; decide), if_neg (by rw [armed]; decide), State.nth_setCapture s _ part]
  exact ⟨rfl, rfl, rfl, rfl⟩

/-- One that drains counts the trigger as missed. -/
theorem State.captureTrigger_draining (draining : (nth s.captures k).phase = 3) :
    nth (s.captureTrigger k cause tick).captures k = { nth s.captures k with missed := sat 16 ((nth s.captures k).missed + 1) } := by
  unfold State.captureTrigger
  dsimp only
  rw [if_pos draining, State.nth_setCapture s _ part]

end Rings

end Sys2Proof.Machine
end

section
/-! SUPPORT. TRIG_CONFIG, the firing of a timer, the edges of the PWMIN pins and the action of a trigger. -/

namespace Sys2Proof.Machine

/-- The numbers of timers and capture rings of a state that holds the objects of the part. -/
theorem State.Inv.timers {s : State} (inv : s.Inv) : s.timers.length = 8 := by
  simp only [State.Inv, State.shape, partShape, List.cons.injEq] at inv
  exact inv.2.2.2.1

theorem State.Inv.captures {s : State} (inv : s.Inv) : s.captures.length = 8 := by
  simp only [State.Inv, State.shape, partShape, List.cons.injEq] at inv
  exact inv.2.2.2.2.1

/-- A called request whose row's body is known ends its command. -/
theorem ends_of_body {i : Instr} {t : Nat} {p : Port} {s : State} {q : Request} {row : Row} {status : Nat} {payload : List Byte} {u : State}
    (serves : exec i s = .next (row.serve t p s)) (called : row.calls t p s q = true)
    (body : row.body (Req.of p q) (s.taken t p) = .done status payload u) : Ends i s (Req.of p q) status payload u :=
  serves.trans (congrArg Host.Outcome.next (next_of_calls called body))

/-! ### What taking a request leaves of dies, after the pins have settled -/

section Taken
variable (s : State) (t : Nat) (p : Port) (d : Nat)

theorem State.taken_outOfService : (s.taken t p).settlePwm.outOfService d = s.outOfService d := by
  rw [State.settlePwm_outOfService]
  exact outOfService_of_dies (by simp) d

theorem State.taken_dieDown : (s.taken t p).settlePwm.dieDown d = s.dieDown d := by
  rw [State.settlePwm_dieDown]
  exact dieDown_of_dies (by simp) d

theorem State.taken_sweepRuns : (s.taken t p).settlePwm.sweepRuns d = s.sweepRuns d := by
  rw [State.settlePwm_sweepRuns]
  unfold State.sweepRuns State.sweepUnits
  simp

end Taken

/-! ### TRIG_CONFIG (R89, R91) -/

/-- The firings of a timer leave the timers. -/
@[simp] theorem State.fireSource_timers (s : State) (sources : List Nat) (quarter : Nat) : (s.fireSource sources quarter).timers = s.timers := by
  have seen := congrArg State.timers (s.unfired_fireSource sources quarter)
  exact seen

@[simp] theorem State.fireUntil_timers (s : State) (k tick : Nat) : (s.fireUntil k tick).timers = s.timers := by
  have seen := congrArg State.timers (s.unfired_fireUntil k tick)
  exact seen

/-- A timer that is off has not fired. -/
theorem State.fireUntil_off {s : State} {k : Nat} (tick : Nat) (off : (nth s.timers k).mode = 0) : s.fireUntil k tick = s := by
  unfold State.fireUntil
  simp [off]

section TrigConfig
variable {t : Nat} {p : Port} {s : State} {q : Request} (called : trigConfigRow.calls t p s q = true)
include called

theorem trigConfig_side (inv : s.Inv) (side : hElem (Req.of p q).handle = 8) (serves : s.outOfService (hDie (Req.of p q).handle) = false) :
    Answers (.trigConfig t p) s (Req.of p q) stOk [] (fun u =>
      (u.die (hDie (Req.of p q).handle)).side.trigger =
        { source := (Req.of p q).u 0 1, delay := (Req.of p q).u 2 2
          codes := (List.range ((Req.of p q).u 1 1)).map (fun i => (Req.of p q).u (4 + i) 1) } ∧
      u = { (s.taken t p).settlePwm with dies := u.dies }) := by
  have up : (s.taken t p).settlePwm.outOfService (hDie (Req.of p q).handle) = false := by rw [State.taken_outOfService, serves]
  have part : hDie (Req.of p q).handle < (s.taken t p).settlePwm.dies.length := by
    simp only [State.settlePwm_dies_length, State.take_dies, State.tickTo_dies, inv.dies]
    exact Nat.mod_lt _ (by decide)
  refine ⟨_, ends_of_body rfl called ((if_pos side).trans (judged_pass (by simpa using up))), ?_, rfl⟩
  rw [State.side_setSide _ _ part]
  rfl

theorem trigConfig_side_outOfService (side : hElem (Req.of p q).handle = 8) (out : s.outOfService (hDie (Req.of p q).handle) = true) :
    Ends (.trigConfig t p) s (Req.of p q) stDegraded [] (s.taken t p).settlePwm := by
  have down : (s.taken t p).settlePwm.outOfService (hDie (Req.of p q).handle) = true := by rw [State.taken_outOfService, out]
  refine ends_of_body rfl called ((if_pos side).trans ?_)
  simp [judged, firstOf, refuse, down]

theorem trigConfig_timer (inv : s.Inv) (timer : hElem (Req.of p q).handle < 8) :
    Answers (.trigConfig t p) s (Req.of p q) stOk [] (fun u =>
      nth u.timers (hElem (Req.of p q).handle) =
        { mode := (Req.of p q).u 0 1, next := (Req.of p q).u 8 8, period := (Req.of p q).u 4 4 } ∧
      (∀ k, k ≠ hElem (Req.of p q).handle → nth u.timers k = nth s.timers k) ∧
      ((nth s.timers (hElem (Req.of p q).handle)).mode = 0 → u = { (s.taken t p).settlePwm with timers := u.timers })) := by
  have timers : (s.taken t p).settlePwm.timers = s.timers := by simp
  have fired : ((s.taken t p).settlePwm.fireUntil (hElem (Req.of p q).handle) (Req.of p q).rxAt).timers = s.timers := by
    rw [State.fireUntil_timers, timers]
  refine ⟨_, ends_of_body rfl called (if_neg (Nat.ne_of_lt timer)), ?_, fun k other => ?_, fun off => ?_⟩
  · exact nth_alter _ _ _ (by rw [fired, inv.timers]; exact timer)
  · exact (nth_alter_ne _ _ _ _ other).trans (by rw [fired])
  · rw [State.fireUntil_off _ (by rw [timers]; exact off)]

end TrigConfig

/-! ### The firing of a timer (R91) -/

section Timer
variable {t k : Nat} {s : State}

/-- A timer that is due goes on or off, and the others stay. -/
theorem triggerTimerFiring_due (part : k < 8) (inv : s.Inv) (on : (nth s.timers k).mode ≠ 0) (due : (nth s.timers k).next ≤ max s.now t) :
    Leads (.triggerTimerFiring t k) s (fun u =>
      nth u.timers k = (if (nth s.timers k).mode = 2 then { nth s.timers k with next := (nth s.timers k).next + (nth s.timers k).period }
        else { nth s.timers k with mode := 0 }) ∧
      ∀ j, j ≠ k → nth u.timers j = nth s.timers j) := by
  have timers : (s.tickTo t).settlePwm.timers = s.timers := by simp
  refine ⟨_, (if_pos (decide_eq_true part)).trans (congrArg Host.Outcome.next (if_pos ?_)), ?_, fun j other => ?_⟩
  · simp only [timers, State.settlePwm_now, State.tickTo_now_eq, Bool.and_eq_true, decide_eq_true_eq]
    exact ⟨on, due⟩
  · rw [State.fireSource_timers]
    dsimp only
    rw [timers, nth_alter _ _ _ (by rw [inv.timers]; exact part)]
  · rw [State.fireSource_timers]
    dsimp only
    rw [timers, nth_alter_ne _ _ _ _ other]

/-- One that is off, or not due, stays as it is. -/
theorem triggerTimerFiring_idle (part : k < 8) (idle : (nth s.timers k).mode = 0 ∨ max s.now t < (nth s.timers k).next) :
    Leads (.triggerTimerFiring t k) s (fun u => u.timers = s.timers) := by
  have timers : (s.tickTo t).settlePwm.timers = s.timers := by simp
  refine ⟨_, (if_pos (decide_eq_true part)).trans (congrArg Host.Outcome.next (if_neg ?_)), timers⟩
  simp only [timers, State.settlePwm_now, State.tickTo_now_eq, Bool.and_eq_true, decide_eq_true_eq, not_and]
  omega

end Timer

/-! ### A firing and a side slice (R90, R93) -/

section Firing
variable {s : State} {sources : List Nat} {quarter d : Nat} (acquisition : 1 ≤ d ∧ d ≤ 5) (inv : s.Inv)
  (named : sources.contains (s.die d).side.trigger.source = true)
include acquisition inv named

/-- A firing while no delay runs starts the delay. -/
theorem fireSource_starts (idle : (s.die d).side.trigger.actAt = none) (fresh : (s.die d).side.trigger.acted ≤ quarter) :
    ((s.fireSource sources quarter).die d).side.trigger.actAt =
      some (s.rawInstant ((quarter + 3) / 4 + 4 * (s.die d).side.trigger.delay)) := by
  rw [State.fireSource_waits acquisition (by rw [inv.dies]; omega) named (by rw [idle]; rfl)]
  simp [idle, Nat.not_lt.2 fresh]

/-- One found afterwards to have fallen into a delay is missed. -/
theorem fireSource_late (idle : (s.die d).side.trigger.actAt = none) (late : quarter < (s.die d).side.trigger.acted) :
    ((s.fireSource sources quarter).die d).side.trigger.actAt = none ∧
      ((s.fireSource sources quarter).die d).side.missed = sat 32 ((s.die d).side.missed + 1) := by
  rw [State.fireSource_waits acquisition (by rw [inv.dies]; omega) named (by rw [idle]; rfl)]
  simp [idle, late]

/-- So is one while a delay runs. -/
theorem fireSource_missed {a : Nat} (runs : (s.die d).side.trigger.actAt = some a) (before : quarter < 4 * a) :
    ((s.fireSource sources quarter).die d).side.trigger.actAt = some a ∧
      ((s.fireSource sources quarter).die d).side.missed = sat 32 ((s.die d).side.missed + 1) := by
  rw [State.fireSource_waits acquisition (by rw [inv.dies]; omega) named (by simp [runs, before])]
  simp [runs]

end Firing

/-! ### An edge of a PWMIN pin (R92) -/

/-- A firing leaves the pins. -/
@[simp] theorem State.fireSource_pins (s : State) (sources : List Nat) (quarter : Nat) : (s.fireSource sources quarter).pins = s.pins := by
  have seen := congrArg State.pins (s.unfired_fireSource sources quarter)
  exact seen

/-- A pin that settles leaves the other. -/
theorem State.settlePin_pwm_ne (s : State) {pin k : Nat} (quarter : Nat) (other : k ≠ pin) :
    nth (s.settlePin pin quarter).pins.pwm k = nth s.pins.pwm k := by
  unfold State.settlePin
  split
  · split
    · rw [State.fireSource_pins]
      exact nth_alter_ne _ _ _ _ other
    · rfl
  · rfl

/-- With no edge on the other pin, this one settles alone. -/
theorem State.settlePwm_alone {s : State} {pin : Nat} (part : pin < 2) (others : ∀ k, k ≠ pin → nth s.pins.pwm k = none) :
    s.settlePwm = s.settlePin pin (4 * s.now) := by
  unfold State.settlePwm
  obtain rfl | rfl : pin = 0 ∨ pin = 1 := by omega
  · exact State.settlePin_idle _ ((s.settlePin_pwm_ne _ (by decide)).trans (others 1 (by decide)))
  · rw [State.settlePin_idle _ (others 0 (by decide))]

/-- A pin's edge fired changes the pins in that alone. -/
theorem State.edgeFired_pins (s : State) (pin q : Nat) (rising : Bool) :
    (s.edgeFired pin q rising).pins = { s.pins with pwm := alter s.pins.pwm pin (fun _ => none) } := State.fireSource_pins _ _ _

section Edge
variable {t pin quarter : Nat} {rising : Bool} {s : State} (part : pin < 2) (pins : s.pins.pwm.length = 2)

theorem State.edgeFired_pwm (q : Nat) (part : pin < s.pins.pwm.length) : nth (s.edgeFired pin q rising).pins.pwm pin = none := by
  rw [State.edgeFired_pins]
  exact nth_alter _ _ _ part

/-- An edge that has stood for 100 ns by now, or by the instant of the next edge, has fired before that is taken. -/
theorem State.settle_due {q : Nat} (part : pin < s.pins.pwm.length) (edge : nth s.pins.pwm pin = some (q, rising)) (due : q + 7 ≤ quarter)
    (first : Nat) : (s.settlePin pin first).settlePin pin quarter = s.edgeFired pin q rising := by
  rcases Nat.lt_or_ge first (q + 7) with early | now
  · rw [State.settlePin_early edge early, State.settlePin_due edge due]
  · rw [State.settlePin_due edge now]
    exact State.settlePin_idle _ (s.edgeFired_pwm q part)

/-- The source of a pin's rising edges is one of those that a rising edge fires. -/
theorem edgeSources_rising (pin : Nat) : (edgeSources pin true).contains (0x20 + 4 * pin) = true := by
  simp [edgeSources]

/-- A rising edge fired starts the delay of a side slice that names the pin's rising edges. -/
theorem State.edgeFired_starts {q d : Nat} (acquisition : 1 ≤ d ∧ d ≤ 5) (inv : s.Inv)
    (source : (s.die d).side.trigger.source = 0x20 + 4 * pin) (idle : (s.die d).side.trigger.actAt = none)
    (fresh : (s.die d).side.trigger.acted ≤ q) :
    ((s.edgeFired pin q true).die d).side.trigger.actAt = some (s.rawInstant ((q + 3) / 4 + 4 * (s.die d).side.trigger.delay)) := by
  have named : (edgeSources pin true).contains (s.die d).side.trigger.source = true := by rw [source, edgeSources_rising]
  unfold State.edgeFired
  rw [fireSource_starts acquisition (by exact inv) (by exact named) (by exact idle) (by exact fresh), rawInstant_of_phase (s := s) rfl]
  rfl

variable (others : ∀ k, k ≠ pin → nth s.pins.pwm k = none) (operates : s.phase = .ready ∨ s.phase = .running)
include part others operates

/-- In operation an edge meets what its pin holds once the edges that have stood have fired. -/
theorem exec_pwminEdge {u : State} {held : Option (Nat × Bool)}
    (settles : ((s.tickTo t).settlePin pin (4 * (s.tickTo t).now)).settlePin pin quarter = u)
    (meets : (match nth u.pins.pwm pin with | some _ => none | none => some (quarter, rising)) = held) :
    exec (.pwminEdge t pin rising quarter) s =
      .next { u with pins := { u.pins with pwm := alter u.pins.pwm pin (fun _ => held) } } := by
  have alone : (s.tickTo t).settlePwm.settlePin pin quarter = u := by rw [State.settlePwm_alone (s := s.tickTo t) part others, settles]
  subst meets
  subst alone
  refine (if_pos (decide_eq_true part)).trans (congrArg Host.Outcome.next (if_neg ?_))
  rcases operates with phase | phase <;> simp [phase]

include pins

/-- The first edge on a pin waits. -/
theorem pwminEdge_first (idle : nth s.pins.pwm pin = none) : Leads (.pwminEdge t pin rising quarter) s (fun u =>
    nth u.pins.pwm pin = some (quarter, rising) ∧ u.dies = s.dies ∧ u.captures = s.captures) := by
  have held : nth (s.tickTo t).pins.pwm pin = none := idle
  refine ⟨_, exec_pwminEdge (u := s.tickTo t) part others operates
    (by rw [State.settlePin_idle _ held, State.settlePin_idle _ held]) (by rw [held]), nth_alter _ _ _ ?_, rfl, rfl⟩
  exact part.trans_eq pins.symm

/-- Another edge within 100 ns ends both. -/
theorem pwminEdge_short {q : Nat} {r : Bool} (edge : nth s.pins.pwm pin = some (q, r)) (short : quarter < q + 7)
    (early : 4 * max s.now t < q + 7) : Leads (.pwminEdge t pin rising quarter) s (fun u =>
    nth u.pins.pwm pin = none ∧ u.dies = s.dies ∧ u.captures = s.captures) := by
  have held : nth (s.tickTo t).pins.pwm pin = some (q, r) := edge
  refine ⟨_, exec_pwminEdge (u := s.tickTo t) part others operates
    (by rw [State.settlePin_early (quarter := 4 * (s.tickTo t).now) held early, State.settlePin_early held short]) (by rw [held]),
    nth_alter _ _ _ ?_, rfl, rfl⟩
  exact part.trans_eq pins.symm

/-- A later one makes the first fire as of its own instant. -/
theorem pwminEdge_later {q d : Nat} (edge : nth s.pins.pwm pin = some (q, true)) (stood : q + 7 ≤ quarter) (acquisition : 1 ≤ d ∧ d ≤ 5)
    (inv : s.Inv) (source : (s.die d).side.trigger.source = 0x20 + 4 * pin) (idle : (s.die d).side.trigger.actAt = none)
    (fresh : (s.die d).side.trigger.acted ≤ q) : Leads (.pwminEdge t pin rising quarter) s (fun u =>
    nth u.pins.pwm pin = some (quarter, rising) ∧
    (u.die d).side.trigger.actAt = some (s.rawInstant ((q + 3) / 4 + 4 * (s.die d).side.trigger.delay))) := by
  have room : pin < (s.tickTo t).pins.pwm.length := part.trans_eq pins.symm
  have free : nth ((s.tickTo t).edgeFired pin q true).pins.pwm pin = none := (s.tickTo t).edgeFired_pwm q room
  have starts := State.edgeFired_starts (s := s.tickTo t) acquisition inv source idle fresh
  rw [State.tickTo_die, rawInstant_of_phase (s.tickTo_samplePhase t)] at starts
  refine ⟨_, exec_pwminEdge (u := (s.tickTo t).edgeFired pin q true) part others operates
    (State.settle_due room edge stood _) (by rw [free]), nth_alter _ _ _ ?_, ?_⟩
  · rw [State.edgeFired_pins]
    simpa using room
  · dsimp only [State.die] at starts ⊢
    exact starts

end Edge

/-! ### The end of a delay (R85, R87, R88, R136) -/

section Action
variable {t a : Nat} {s : State}

/-- With no edge waiting on a pin, the action is all that happens. -/
theorem exec_triggerAction {c : Consumer} (there : c.exists = true) (idle : ∀ k, nth s.pins.pwm k = none) :
    exec (.triggerAction t c) s = .next ((s.tickTo t).triggerActs c) :=
  (if_pos there).trans (by rw [State.settlePwm_idle (s := s.tickTo t) idle])

section Side
variable {d : Nat} (acquisition : 1 ≤ d ∧ d ≤ 5) (inv : s.Inv) (idle : ∀ k, nth s.pins.pwm k = none)
  (runs : (s.die d).side.trigger.actAt = some a) (due : a ≤ max s.now t)
include acquisition idle runs due

/-- On a die in service the list meets the queue. -/
theorem triggerAction_enqueues (serves : s.outOfService d = false) :
    exec (.triggerAction t (.sideSlice d)) s =
      .next (((s.tickTo t).setSide d (fun x => x.acted a)).enqueueTrigger d a
        (s.die d).side.trigger.codes) := by
  have up : (s.tickTo t).outOfService d = false := serves
  rw [exec_triggerAction (by simp [Consumer.exists, isAcquisition]; omega) idle, State.triggerActs_side (s := s.tickTo t) runs due]
  dsimp only
  rw [up]
  rfl

include inv

theorem triggerAction_joins (serves : s.outOfService d = false) (ahead : ∀ c ∈ (s.die d).side.queue, c.behind a = false)
    (fits : (s.die d).side.queue.length + (s.die d).side.trigger.codes.length ≤ 4) :
    Leads (.triggerAction t (.sideSlice d)) s (fun u => (u.die d).side.trigger.actAt = none ∧
      (u.die d).side.queue.map Conv.input = (s.die d).side.queue.map Conv.input ++ (s.die d).side.trigger.codes) := by
  have part : d < (s.tickTo t).dies.length := by rw [State.tickTo_dies, inv.dies]; omega
  have acted := (s.tickTo t).side_setSide (fun x => x.acted a) part
  obtain ⟨joins, -⟩ := State.enqueueTrigger_ahead (a := a) (codes := (s.die d).side.trigger.codes)
    (s := (s.tickTo t).setSide d (fun x => x.acted a))
    (d := d) (by simpa using part) (by rw [acted]; exact ahead)
  obtain ⟨trigger, queue⟩ := joins (by rw [acted]; exact fits)
  refine ⟨_, triggerAction_enqueues acquisition idle runs due serves, ?_, ?_⟩
  · rw [trigger, acted]
    rfl
  · rw [queue, acted]
    simp [SideSlice.acted]

theorem triggerAction_missed (serves : s.outOfService d = false) (ahead : ∀ c ∈ (s.die d).side.queue, c.behind a = false)
    (long : 4 < (s.die d).side.queue.length + (s.die d).side.trigger.codes.length) :
    Leads (.triggerAction t (.sideSlice d)) s (fun u => (u.die d).side.trigger.actAt = none ∧
      (u.die d).side.queue.map Conv.input = (s.die d).side.queue.map Conv.input ∧
      (u.die d).side.missed = sat 32 ((s.die d).side.missed + 1)) := by
  have part : d < (s.tickTo t).dies.length := by rw [State.tickTo_dies, inv.dies]; omega
  have acted := (s.tickTo t).side_setSide (fun x => x.acted a) part
  obtain ⟨-, misses⟩ := State.enqueueTrigger_ahead (a := a) (codes := (s.die d).side.trigger.codes)
    (s := (s.tickTo t).setSide d (fun x => x.acted a))
    (d := d) (by simpa using part) (by rw [acted]; exact ahead)
  have missed := misses (by rw [acted]; exact long)
  refine ⟨_, triggerAction_enqueues acquisition idle runs due serves, ?_⟩
  dsimp only
  rw [missed, acted]
  exact ⟨rfl, rfl, rfl⟩

theorem triggerAction_first {k : Nat} (serves : s.outOfService d = false)
    (mine : ∀ c ∈ (s.die d).side.queue, c.injected = true ∧ c.at_ = a ∧ c.session = k)
    (fits : (s.die d).side.queue.length + (s.die d).side.trigger.codes.length ≤ 4) :
    Leads (.triggerAction t (.sideSlice d)) s (fun u => (u.die d).side.trigger.actAt = none ∧
      (u.die d).side.queue.map Conv.input = (s.die d).side.trigger.codes ++ (s.die d).side.queue.map Conv.input) := by
  have part : d < (s.tickTo t).dies.length := by rw [State.tickTo_dies, inv.dies]; omega
  have acted := (s.tickTo t).side_setSide (fun x => x.acted a) part
  obtain ⟨trigger, queue⟩ := State.enqueueTrigger_first (a := a) (codes := (s.die d).side.trigger.codes)
    (s := (s.tickTo t).setSide d (fun x => x.acted a))
    (d := d) (k := k) (by simpa using part) (by rw [acted]; exact mine) (by rw [acted]; exact fits)
  refine ⟨_, triggerAction_enqueues acquisition idle runs due serves, ?_, ?_⟩
  · rw [trigger, acted]
    rfl
  · rw [queue, acted]
    simp [SideSlice.acted]

/-- On a die out of service the action is dropped. -/
theorem triggerAction_dropped (out : s.outOfService d = true) :
    Leads (.triggerAction t (.sideSlice d)) s (fun u => (u.die d).side.trigger.actAt = none ∧
      (u.die d).side.queue.map Conv.input = (s.die d).side.queue.map Conv.input ∧ (u.die d).side.missed = (s.die d).side.missed) := by
  have part : d < (s.tickTo t).dies.length := by rw [State.tickTo_dies, inv.dies]; omega
  have down : (s.tickTo t).outOfService d = true := out
  refine ⟨_, (exec_triggerAction (by simp [Consumer.exists, isAcquisition]; omega) idle).trans
    (congrArg Host.Outcome.next ((State.triggerActs_side (s := s.tickTo t) runs due).trans (if_pos down))), ?_⟩
  have acted := (s.tickTo t).side_setSide (fun x => x.acted a) part
  dsimp only
  rw [acted]
  exact ⟨rfl, rfl, rfl⟩

end Side

section Ring
variable {k : Nat} (part : k < 8) (inv : s.Inv) (idle : ∀ j, nth s.pins.pwm j = none)
  (runs : (nth s.captures k).trigger.actAt = some a) (due : a ≤ max s.now t)
include part inv idle runs due

/-- A ring that waits is triggered. -/
theorem triggerAction_ring_armed (armed : (nth s.captures k).phase = 1) : Leads (.triggerAction t (.ring k)) s (fun u =>
    (nth u.captures k).phase = 2 ∧ (nth u.captures k).cause = 0 ∧ (nth u.captures k).actedAt = a ∧
    (nth u.captures k).trigger.actAt = none) := by
  have room : k < (s.tickTo t).captures.length := by rw [State.tickTo_captures, inv.captures]; exact part
  have acted := (s.tickTo t).nth_setCapture (fun x => x.acted a) room
  obtain ⟨phase, cause, actedAt, trigger⟩ := State.captureTrigger_armed
    (s := (s.tickTo t).setCapture k (fun x => x.acted a))
    (by simpa [State.setCapture] using room) 0 a (by rw [acted]; exact armed)
  refine ⟨_, (exec_triggerAction (c := .ring k) (decide_eq_true part) idle).trans
    (congrArg Host.Outcome.next (State.triggerActs_ring (s := s.tickTo t) runs due)), phase, cause, actedAt, ?_⟩
  rw [trigger, acted]
  rfl

/-- One that drains counts the firing as missed. -/
theorem triggerAction_ring_draining (drains : (nth s.captures k).phase = 3) : Leads (.triggerAction t (.ring k)) s (fun u =>
    (nth u.captures k).phase = 3 ∧ (nth u.captures k).missed = sat 16 ((nth s.captures k).missed + 1) ∧
    (nth u.captures k).trigger.actAt = none) := by
  have room : k < (s.tickTo t).captures.length := by rw [State.tickTo_captures, inv.captures]; exact part
  have acted := (s.tickTo t).nth_setCapture (fun x => x.acted a) room
  have counted := State.captureTrigger_draining
    (s := (s.tickTo t).setCapture k (fun x => x.acted a))
    (by simpa [State.setCapture] using room) 0 a (by rw [acted]; exact drains)
  refine ⟨_, (exec_triggerAction (c := .ring k) (decide_eq_true part) idle).trans
    (congrArg Host.Outcome.next (State.triggerActs_ring (s := s.tickTo t) runs due)), ?_⟩
  dsimp only
  rw [counted, acted]
  exact ⟨drains, rfl, rfl⟩

end Ring

end Action

end Sys2Proof.Machine
end

section
/-! SUPPORT. CAPTURE_ARM, CAPTURE_STOP, and the events of a capture: the freeze, the end of its drain, its record written. -/

namespace Sys2Proof.Machine

/-! ### What a capture keeps while triggers act -/

section Unfired
variable {c e : Capture} (same : c.unfired = e.unfired)
include same

theorem Capture.phase_of_unfired : (c.phase = 0 ↔ e.phase = 0) ∧ (c.phase = 3 ↔ e.phase = 3) := by
  have phase : (if c.phase = 1 then 2 else c.phase) = (if e.phase = 1 then 2 else e.phase) := congrArg Capture.phase same
  split at phase <;> split at phase <;> omega

theorem Capture.options_of_unfired : c.options = e.options := by
  have seen := congrArg Capture.options same
  exact seen

theorem Capture.buffer_of_unfired : c.buffer = e.buffer := by
  have seen := congrArg Capture.buffer same
  exact seen

theorem Capture.writing_of_unfired : c.writing = e.writing := by
  have seen := congrArg Capture.writing same
  exact seen

end Unfired

/-- Whether a capture uses a die. -/
def Capture.uses (d : Nat) (c : Capture) : Bool := c.phase ≠ 0 && c.die = d

/-- It does not depend on what triggers change. -/
theorem Capture.uses_unfired (d : Nat) (c : Capture) : c.unfired.uses d = c.uses d := by
  unfold Capture.uses Capture.unfired
  dsimp only
  split
  · next armed => simp [armed]
  · rfl

section Settled
variable (s : State) (t : Nat) (p : Port)

/-- A capture once the pins have settled. -/
theorem State.taken_capture (k : Nat) : (nth (s.taken t p).settlePwm.captures k).unfired = (nth s.captures k).unfired :=
  nth_of_map ((s.taken t p).settlePwm_captures.trans (by simp)) k

/-- So the dies in use are the same. -/
theorem State.taken_uses (d : Nat) : (s.taken t p).settlePwm.captures.any (Capture.uses d) = s.captures.any (Capture.uses d) := by
  have seen : ∀ l : List Capture, l.any (Capture.uses d) = (l.map Capture.unfired).any (Capture.uses d) := fun l => by
    rw [List.any_map]
    exact congrArg _ (funext fun c => (Capture.uses_unfired d c).symm)
  rw [seen, State.settlePwm_captures, ← seen]
  simp

theorem State.taken_store : (s.taken t p).settlePwm.store = s.store := by simp

end Settled

/-! ### Tests judged in order -/

theorem judged_hit {c : Bool} {status : Nat} {rest : List (Bool × Nat)} {s : State} {ok : Answer} (fails : c = true) :
    judged ((c, status) :: rest) s ok = refuse status s := by
  subst fails
  rfl

theorem judged_miss {c : Bool} {status : Nat} {rest : List (Bool × Nat)} {s : State} {ok : Answer} (passes : c = false) :
    judged ((c, status) :: rest) s ok = judged rest s ok := by
  subst passes
  rfl

/-- A capture changed changes the captures alone. -/
theorem State.setCapture_frame (s : State) (k : Nat) (f : Capture → Capture) :
    s.setCapture k f = { s with captures := (s.setCapture k f).captures } := rfl

/-! ### CAPTURE_ARM (R136, R144) -/

/-- A ring or the die asked for is in use, or a sweep runs on the die. -/
def State.captureBusy (s : State) (k d : Nat) : Prop :=
  (nth s.captures k).phase ≠ 0 ∨ s.captures.any (Capture.uses d) = true ∨ s.sweepRuns d = true

/-- The same as the test of the command finds it. -/
theorem State.captureBusy_iff (s : State) (t : Nat) (p : Port) (k d : Nat) :
    (decide ((nth (s.taken t p).settlePwm.captures k).phase ≠ 0) || (s.taken t p).settlePwm.captures.any (Capture.uses d) ||
      (s.taken t p).settlePwm.sweepRuns d) = true ↔ s.captureBusy k d := by
  have idle := (Capture.phase_of_unfired (s.taken_capture t p k)).1
  rw [State.taken_uses, State.taken_sweepRuns]
  simp only [State.captureBusy, Bool.or_eq_true, decide_eq_true_eq, ne_eq, idle, or_assoc]

/-- A ring that has a size has it once the pins have settled. -/
theorem State.taken_sized {s : State} {k : Nat} (t : Nat) (p : Port) (sized : (nth s.store.rings k).size ≠ 0) :
    (nth (s.taken t p).settlePwm.store.rings k).size ≠ 0 := by
  rw [State.taken_store]
  exact sized

/-- A capture armed as a CAPTURE_ARM says. -/
def Capture.armed (c : Capture) (r : Req) : Capture :=
  { c with
    phase := 1, die := r.u 0 1, units := r.u 1 1, pre := r.u 2 1, options := r.u 3 1, buffer := [], missed := 0
    truncated := false, subst := false, trigger := { source := r.u 4 1, delay := r.u 6 2 } }

section Arm
variable {t : Nat} {p : Port} {s : State} {q : Request} (called : captureArmRow.calls t p s q = true)
include called

/-- A ring without size takes no capture. -/
theorem captureArm_unsized (unsized : (nth s.store.rings ((Req.of p q).handle - 0x0400)).size = 0) :
    Ends (.captureArm t p) s (Req.of p q) stWrongState [] (s.taken t p).settlePwm := by
  have test : (nth (s.taken t p).settlePwm.store.rings (ringOf (Req.of p q).handle)).size = 0 := by
    rw [State.taken_store]
    exact unsized
  exact ends_of_body rfl called (judged_hit (decide_eq_true test))

variable (sized : (nth s.store.rings ((Req.of p q).handle - 0x0400)).size ≠ 0)
include sized

theorem captureArm_busy (busy : s.captureBusy ((Req.of p q).handle - 0x0400) ((Req.of p q).u 0 1)) :
    Ends (.captureArm t p) s (Req.of p q) stBusy [] (s.taken t p).settlePwm := by
  have used := (s.captureBusy_iff t p _ _).2 busy
  exact ends_of_body rfl called ((judged_miss (decide_eq_false (State.taken_sized t p sized))).trans (judged_hit used))

variable (free : ¬s.captureBusy ((Req.of p q).handle - 0x0400) ((Req.of p q).u 0 1))
include free

theorem captureArm_down (down : s.dieDown ((Req.of p q).u 0 1) = true) :
    Ends (.captureArm t p) s (Req.of p q) stDegraded [] (s.taken t p).settlePwm := by
  have unused := eq_false_of_ne_true (mt (s.captureBusy_iff t p _ _).1 free)
  have out : (s.taken t p).settlePwm.dieDown ((Req.of p q).u 0 1) = true := by rw [State.taken_dieDown, down]
  exact ends_of_body rfl called ((judged_miss (decide_eq_false (State.taken_sized t p sized))).trans ((judged_miss unused).trans (judged_hit out)))

variable (part : (Req.of p q).handle - 0x0400 < 8) (inv : s.Inv) (up : s.dieDown ((Req.of p q).u 0 1) = false)
include part inv up

/-- With nothing against it the ring is armed as the request says. -/
theorem captureArm_armed : Answers (.captureArm t p) s (Req.of p q) stOk [] (fun u =>
    nth u.captures ((Req.of p q).handle - 0x0400) =
      (nth (s.taken t p).settlePwm.captures ((Req.of p q).handle - 0x0400)).armed (Req.of p q) ∧
    u = { (s.taken t p).settlePwm with captures := u.captures }) := by
  have unused := eq_false_of_ne_true (mt (s.captureBusy_iff t p _ _).1 free)
  have reach : (s.taken t p).settlePwm.dieDown ((Req.of p q).u 0 1) = false := by rw [State.taken_dieDown, up]
  have room : (Req.of p q).handle - 0x0400 < (s.taken t p).settlePwm.captures.length := by
    simpa [inv.captures] using part
  exact ⟨_, ends_of_body rfl called (judged_pass (List.forall_mem_cons.2 ⟨decide_eq_false (State.taken_sized t p sized),
    List.forall_mem_cons.2 ⟨unused, List.forall_mem_cons.2 ⟨reach, List.forall_mem_nil _⟩⟩⟩)),
    State.nth_setCapture _ _ room, State.setCapture_frame _ _ _⟩

theorem captureArm_arms : Answers (.captureArm t p) s (Req.of p q) stOk [] (fun u =>
      let x := nth u.captures ((Req.of p q).handle - 0x0400)
      x.phase = 1 ∧ x.die = (Req.of p q).u 0 1 ∧ x.units = (Req.of p q).u 1 1 ∧ x.pre = (Req.of p q).u 2 1 ∧ x.options = (Req.of p q).u 3 1 ∧
      x.buffer = [] ∧ x.trigger.source = (Req.of p q).u 4 1 ∧ x.trigger.delay = (Req.of p q).u 6 2 ∧ x.trigger.actAt = none ∧
      x.writing = (nth s.captures ((Req.of p q).handle - 0x0400)).writing ∧ u = { (s.taken t p).settlePwm with captures := u.captures }) := by
  have writing := Capture.writing_of_unfired (s.taken_capture t p ((Req.of p q).handle - 0x0400))
  obtain ⟨u, ends, armed, rest⟩ := captureArm_armed called sized free part inv up
  refine ⟨u, ends, ?_⟩
  dsimp only
  rw [armed]
  exact ⟨rfl, rfl, rfl, rfl, rfl, rfl, rfl, rfl, rfl, writing, rest⟩

end Arm

/-! ### CAPTURE_STOP (R138) -/

section Stop
variable {t : Nat} {p : Port} {s : State} {q : Request} (called : captureStopRow.calls t p s q = true)
include called

theorem captureStop_idle (idle : (nth s.captures ((Req.of p q).handle - 0x0400)).phase = 0) :
    Ends (.captureStop t p) s (Req.of p q) stWrongState [] (s.taken t p).settlePwm := by
  have test : (nth (s.taken t p).settlePwm.captures (ringOf (Req.of p q).handle)).phase = 0 :=
    (Capture.phase_of_unfired (s.taken_capture t p _)).1.2 idle
  exact ends_of_body rfl called (judged_hit (decide_eq_true test))

variable (part : (Req.of p q).handle - 0x0400 < 8) (inv : s.Inv)
include part inv

/-- A capture that is not idle stops. -/
theorem captureStop_stops (active : (nth s.captures ((Req.of p q).handle - 0x0400)).phase ≠ 0) :
    Answers (.captureStop t p) s (Req.of p q) stOk [] (fun u =>
      nth u.captures ((Req.of p q).handle - 0x0400) = (nth (s.taken t p).settlePwm.captures ((Req.of p q).handle - 0x0400)).stopped ∧
      u = { (s.taken t p).settlePwm with captures := u.captures }) := by
  have test : (nth (s.taken t p).settlePwm.captures (ringOf (Req.of p q).handle)).phase ≠ 0 :=
    mt (Capture.phase_of_unfired (s.taken_capture t p _)).1.1 active
  have room : (Req.of p q).handle - 0x0400 < (s.taken t p).settlePwm.captures.length := by
    simpa [inv.captures] using part
  exact ⟨_, ends_of_body rfl called (judged_miss (decide_eq_false test)), State.nth_setCapture _ _ room, State.setCapture_frame _ _ _⟩

theorem captureStop_before (before : (nth s.captures ((Req.of p q).handle - 0x0400)).phase = 1 ∨
      (nth s.captures ((Req.of p q).handle - 0x0400)).phase = 2) :
    Answers (.captureStop t p) s (Req.of p q) stOk [] (fun u =>
      (nth u.captures ((Req.of p q).handle - 0x0400)).phase = 0 ∧ (nth u.captures ((Req.of p q).handle - 0x0400)).buffer = [] ∧
      (nth u.captures ((Req.of p q).handle - 0x0400)).writing = (nth s.captures ((Req.of p q).handle - 0x0400)).writing ∧
      u = { (s.taken t p).settlePwm with captures := u.captures }) := by
  have same := s.taken_capture t p ((Req.of p q).handle - 0x0400)
  have frozen : (nth (s.taken t p).settlePwm.captures ((Req.of p q).handle - 0x0400)).phase ≠ 3 :=
    mt (Capture.phase_of_unfired same).2.1 (by omega)
  have writing := Capture.writing_of_unfired same
  obtain ⟨u, ends, stopped, rest⟩ := captureStop_stops called part inv (by omega)
  refine ⟨u, ends, ?_, ?_, ?_, rest⟩ <;> rw [stopped, Capture.stopped, if_neg frozen]
  exact writing

theorem captureStop_draining (drains : (nth s.captures ((Req.of p q).handle - 0x0400)).phase = 3) :
    Answers (.captureStop t p) s (Req.of p q) stOk [] (fun u =>
      (nth u.captures ((Req.of p q).handle - 0x0400)).phase = 3 ∧
      (nth u.captures ((Req.of p q).handle - 0x0400)).options = (nth s.captures ((Req.of p q).handle - 0x0400)).options % 4 ∧
      (nth u.captures ((Req.of p q).handle - 0x0400)).buffer = (nth s.captures ((Req.of p q).handle - 0x0400)).buffer ∧
      u = { (s.taken t p).settlePwm with captures := u.captures }) := by
  have same := s.taken_capture t p ((Req.of p q).handle - 0x0400)
  have frozen : (nth (s.taken t p).settlePwm.captures ((Req.of p q).handle - 0x0400)).phase = 3 :=
    (Capture.phase_of_unfired same).2.2 drains
  have options := Capture.options_of_unfired same
  have buffer := Capture.buffer_of_unfired same
  obtain ⟨u, ends, stopped, rest⟩ := captureStop_stops called part inv (by omega)
  refine ⟨u, ends, ?_, ?_, ?_, rest⟩ <;> rw [stopped, Capture.stopped, if_pos frozen]
  · exact frozen
  · exact congrArg (· % 4) options
  · exact buffer

end Stop

/-! ### The freeze and the drain (R26, R138) -/

section Drain
variable {t k : Nat} {s : State} (part : k < 8)
include part

/-- The end of the post-trigger length freezes the buffer. -/
theorem postTriggerEnd_freezes (inv : s.Inv) (triggered : (nth s.captures k).phase = 2)
    (past : (nth s.captures k).lastIndex + 2 < (max s.now t - (nth s.captures k).epochTick) / 4) :
    Leads (.postTriggerEnd t k) s (fun u =>
      (nth u.captures k).phase = 3 ∧ (nth u.captures k).buffer = (nth s.captures k).buffer ∧ (nth u.captures k).drainAt = max s.now t ∧
      (nth u.captures k).drainLeft = 32 * ((nth s.captures k).blocks.flatten).length ∧
      (nth u.captures k).excluded = s.excludedPositions (nth s.captures k).die ∧
      ∀ j, j ≠ k → nth u.captures j = nth s.captures j) := by
  have room : k < (s.tickTo t).captures.length := by rw [State.tickTo_captures, inv.captures]; exact part
  refine ⟨_, (if_pos (decide_eq_true part)).trans (congrArg Host.Outcome.next (if_pos ?_)), ?_⟩
  · simp only [Bool.and_eq_true, decide_eq_true_eq]
    exact ⟨triggered, past⟩
  · have frozen := (s.tickTo t).nth_setCapture (fun c => (s.tickTo t).freeze c (s.tickTo t).now) room
    refine ⟨?_, ?_, ?_, ?_, ?_, fun j other => State.nth_setCapture_ne _ _ other⟩ <;> rw [frozen] <;> rfl

theorem postTriggerEnd_waits
    (within : (max s.now t - (nth s.captures k).epochTick) / 4 ≤ (nth s.captures k).lastIndex + 2) :
    exec (.postTriggerEnd t k) s = .next (s.tickTo t) := by
  refine (if_pos (decide_eq_true part)).trans (congrArg Host.Outcome.next (if_neg ?_))
  simp only [Bool.and_eq_true, decide_eq_true_eq]
  exact fun past => absurd past.2 (Nat.not_lt.2 within)

/-- Contents that have crossed the link leave the ring idle, or armed again, and wait to be written. -/
theorem drainEnd_ends (inv : s.Inv) (drains : (nth s.captures k).phase = 3) (up : s.dieDown (nth s.captures k).die = false)
    (crossed : (nth s.captures k).drainLeft -
      drainRate (s.lanesUp (nth s.captures k).die) * (max s.now t - (nth s.captures k).drainAt) = 0) :
    Leads (.drainEnd t k) s (fun u =>
      (nth u.captures k).phase = (if bit (nth s.captures k).options 2 then 1 else 0) ∧ (nth u.captures k).buffer = [] ∧
      (nth u.captures k).writing = (nth s.captures k).writing ++ [(nth s.captures k).pendingRecord] ∧
      ∀ j, j ≠ k → nth u.captures j = nth s.captures j) := by
  have room : k < (s.tickTo t).captures.length := by rw [State.tickTo_captures, inv.captures]; exact part
  have reach : (s.tickTo t).dieDown (nth s.captures k).die = false := up
  refine ⟨_, (if_pos (decide_eq_true part)).trans (congrArg Host.Outcome.next (if_pos ?_)), ?_⟩
  · simp only [Bool.and_eq_true, decide_eq_true_eq, Bool.not_eq_true']
    exact ⟨⟨drains, reach⟩, crossed⟩
  · refine ⟨?_, ?_, ?_, fun j other => State.nth_setCapture_ne _ _ other⟩ <;>
      rw [State.nth_setCapture _ _ room] <;> rfl

theorem drainEnd_waits
    (left : 0 < (nth s.captures k).drainLeft -
      drainRate (s.lanesUp (nth s.captures k).die) * (max s.now t - (nth s.captures k).drainAt)) :
    exec (.drainEnd t k) s = .next (s.tickTo t) := by
  refine (if_pos (decide_eq_true part)).trans (congrArg Host.Outcome.next (if_neg ?_))
  simp only [Bool.and_eq_true, decide_eq_true_eq]
  exact fun done => absurd done.2 (Nat.pos_iff_ne_zero.1 left)

end Drain

/-! ### The record in its ring (R394, R395, R397) -/

/-- The captures, and what the rings hold. -/
def State.captured (s : State) : List Capture × List Ring := (s.captures, s.store.rings)

theorem State.captured_eq {s : State} {l : List Capture} {r : List Ring} (same : s.captured = (l, r)) : s.captures = l ∧ s.store.rings = r :=
  Prod.ext_iff.1 same

/-- An event leaves both. -/
theorem State.raise_captured (s : State) (source time : Nat) (body : List Byte) : (s.raise source time body).captured = s.captured := by
  unfold State.raise State.captured
  dsimp only
  split
  · rfl
  · rw [State.logAppend_frame, State.logAppend_store]
    rfl

/-- So do the marks that the writer passes. -/
theorem State.overtakeMarks_captured (s : State) (r : Nat) : (s.overtakeMarks r).captured = s.captured := by
  unfold State.overtakeMarks
  refine foldl_keeps State.captured _ (fun u k => ?_) _ _
  dsimp only
  rw [foldl_keeps State.captured _ (fun v m => State.raise_captured v _ _ _)]
  rfl

/-- A record written leaves the captures, and its ring has the record. -/
theorem State.writeCapture_captured (s : State) (r : Nat) (x : PendingRecord) :
    ∃ bytes, (s.writeCapture r x).captured = (s.captures, alter s.store.rings r (fun g => g.append bytes)) := by
  unfold State.writeCapture
  extract_lets g number bytes store u v
  exact ⟨bytes, (State.raise_captured _ _ _ _).trans (State.overtakeMarks_captured u r)⟩

section Record
variable {t k : Nat} {s : State} {x : PendingRecord} {rest : List PendingRecord} (part : k < 8)
  (waits : (nth s.captures k).writing = x :: rest) (clear : s.power.commit = none)
include part waits clear

/-- With no commit running the oldest record is written or discarded. -/
theorem exec_captureRecordComplete :
    exec (.captureRecordComplete t k) s = .next
      (let u := (s.tickTo t).setCapture k (fun c => { c with writing := rest })
      if u.storeWrites then u.writeCapture k x else u.raise 144 u.stampNow (objBody (ringHandle k) [])) := by
  have held : (nth (s.tickTo t).captures k).writing = x :: rest := waits
  have commit : (s.tickTo t).power.commit.isSome = false := by rw [State.tickTo_power, clear]; rfl
  refine (if_pos (decide_eq_true part)).trans (congrArg Host.Outcome.next ?_)
  rw [held]
  exact if_neg (by rw [commit]; decide)

/-- Written or discarded, it waits no longer. -/
theorem captureRecordComplete_leads (inv : s.Inv) : Leads (.captureRecordComplete t k) s (fun u =>
    (nth u.captures k).writing = rest ∧
    (s.storeWrites = true → s.store.rings.length = 8 → (nth u.store.rings k).written = (nth s.store.rings k).written + 1) ∧
    (s.storeWrites = false → u.store.rings = s.store.rings)) := by
  have room : k < (s.tickTo t).captures.length := by rw [State.tickTo_captures, inv.captures]; exact part
  have gone : (nth ((s.tickTo t).setCapture k (fun c => { c with writing := rest })).captures k).writing = rest := by
    rw [State.nth_setCapture _ _ room]
  have writes : ((s.tickTo t).setCapture k (fun c => { c with writing := rest })).storeWrites = s.storeWrites := rfl
  refine ⟨_, exec_captureRecordComplete part waits clear, ?_⟩
  dsimp only
  rw [writes]
  cases store : s.storeWrites with
  | true =>
    obtain ⟨bytes, written⟩ := ((s.tickTo t).setCapture k (fun c => { c with writing := rest })).writeCapture_captured k x
    obtain ⟨captures, rings⟩ := State.captured_eq written
    rw [if_pos rfl, captures, rings]
    refine ⟨gone, fun _ count => ?_, fun no => absurd no (by decide)⟩
    have room : k < s.store.rings.length := part.trans_eq count.symm
    exact congrArg Ring.written (nth_alter s.store.rings k _ room)
  | false =>
    obtain ⟨captures, rings⟩ := State.captured_eq (((s.tickTo t).setCapture k (fun c => { c with writing := rest })).raise_captured 144
      ((s.tickTo t).setCapture k (fun c => { c with writing := rest })).stampNow (objBody (ringHandle k) []))
    rw [if_neg (by decide), captures, rings]
    exact ⟨gone, fun yes => absurd yes (by decide), fun _ => rfl⟩

end Record

end Sys2Proof.Machine
end

section
/-! SUPPORT. Triggers, timers and capture rings: the obligation, from the lemmas on its commands. -/

open Sys2Proof.Machine

/-- Settles O25: a firing reaches each consumer once, and the settling of the pins leaves all but side slices, triggers and the pins. -/
theorem triggersAndCaptures : Obligations.TriggersAndCaptures := by
  unfold Obligations.TriggersAndCaptures
  refine ⟨⟨fun t p s q called inv => ?_, fun t k s part inv => ?_⟩, ⟨fun s sources quarter d low high inv => ?_,
    fun t pin quarter rising s part pins others operates => ?_, fun t d a s low high inv idle => ?_, fun t k a s part inv idle => ?_⟩,
    fun t p s q inv => ?_, fun t k s part inv => ?_⟩
  case refine_1 =>
    exact ⟨trigConfig_side called inv, trigConfig_side_outOfService called, trigConfig_timer called inv⟩
  case refine_2 =>
    refine ⟨fun due => ⟨fun periodic => ?_, fun single => ?_⟩, triggerTimerFiring_idle part⟩
    · simpa only [periodic, if_true] using triggerTimerFiring_due part inv (by omega) due
    · obtain ⟨u, next, fired, rest⟩ := triggerTimerFiring_due part inv (by omega) due
      exact ⟨u, next, fired.trans (if_neg (by omega)), rest⟩
  case refine_3 =>
    intro g named x
    exact ⟨fireSource_starts ⟨low, high⟩ inv named, fireSource_late ⟨low, high⟩ inv named, fun a => fireSource_missed ⟨low, high⟩ inv named⟩
  case refine_4 =>
    exact ⟨pwminEdge_first part pins others operates, fun q r => pwminEdge_short part pins others operates,
      fun q d edge stood low high => pwminEdge_later part pins others operates edge stood ⟨low, high⟩⟩
  case refine_5 =>
    intro x inputs runs due
    exact ⟨fun serves ahead => ⟨triggerAction_joins ⟨low, high⟩ inv idle runs due serves ahead,
      triggerAction_missed ⟨low, high⟩ inv idle runs due serves ahead⟩,
      fun k => triggerAction_first ⟨low, high⟩ inv idle runs due, triggerAction_dropped ⟨low, high⟩ inv idle runs due⟩
  case refine_6 =>
    intro c runs due
    exact ⟨triggerAction_ring_armed part inv idle runs due, triggerAction_ring_draining part inv idle runs due⟩
  case refine_7 =>
    intro r k d c settled busy part
    exact ⟨fun called sized => ⟨captureArm_busy called sized, captureArm_down called sized,
      fun free => captureArm_arms called sized free part inv⟩, captureArm_unsized,
      fun called => captureStop_before called part inv, fun called => captureStop_draining called part inv, captureStop_idle⟩
  case refine_8 =>
    exact ⟨postTriggerEnd_freezes part inv, fun _ => postTriggerEnd_waits part, drainEnd_ends part inv, fun _ => drainEnd_waits part,
      fun x rest waits clear => captureRecordComplete_leads part waits clear inv⟩

end

section
/-! SUPPORT. Requests that no row's own rules decide: duplicates, repeats and refusals (R47, R50, R51), for every command that serves a row. -/

namespace Sys2Proof.Machine

/-- A command that serves a row of the opcode table is that row, served at its instant and port. -/
theorem exec_of_servedBy {i : Instr} {t : Nat} {p : Port} {row : Row} (serves : servedBy i = some (t, p, row)) (s : State) :
    exec i s = .next (row.serve t p s) := by
  unfold servedBy at serves
  split at serves <;> cases serves <;> rfl

section Served
variable {row : Row} {t : Nat} {p : Port} {s : State} {q : Request}

/-- A fresh request that a check fails is answered with the status of that check. -/
theorem serve_of_refusal {status : Nat} (fresh : row.fresh t p s q = true)
    (fails : row.refusal (Req.of p q) (s.taken t p) = some status) :
    row.serve t p s = (s.taken t p).answer (Req.of p q) status [] := by
  simp only [Row.fresh, Bool.and_eq_true, decide_eq_true_eq] at fresh
  obtain ⟨⟨admitted, first⟩, idle⟩ := fresh
  rw [serve_of_admits admitted, normal_of_admits admitted, first, idle, fails]

/-- A duplicate receives the stored reply, REPLAYED set (R50). -/
theorem serve_of_duplicate {d : Stored} (admitted : row.admits t p s q = true)
    (again : ((s.taken t p).session (Req.of p q).session).duplicate (Req.of p q) = some d) :
    row.serve t p s = (s.taken t p).queueReply p { d.reply with flags := d.reply.flags ||| 1 } := by
  rw [serve_of_admits admitted, normal_of_admits admitted, again]

/-- While a request of the session is in progress, its repeat is discarded and any other is BUSY (R51). -/
theorem serve_of_busy {b : Request} (admitted : row.admits t p s q = true)
    (first : ((s.taken t p).session (Req.of p q).session).duplicate (Req.of p q) = none)
    (busy : ((s.taken t p).session (Req.of p q).session).busy = some b) :
    row.serve t p s = if sameRequest p b (Req.of p q) then s.taken t p else (s.taken t p).answer (Req.of p q) stBusy [] := by
  rw [serve_of_admits admitted, normal_of_admits admitted, first, busy]

end Served

/-- UNDEFINED_OPCODE takes a request whose opcode Table 16.2 leaves out. -/
theorem exec_undefinedOpcode {t : Nat} {p : Port} {s : State} {q : Request} (front : s.front p = some q)
    (undefined : opSpec (Req.of p q).opcode = none) :
    exec (.undefinedOpcode t p) s = .next ((undefinedRow (Req.of p q).opcode).serve t p s) := by
  refine congrArg Host.Outcome.next ?_
  rw [front]
  simp only [undefined, Option.isSome_none, Bool.and_false, Bool.false_eq_true, if_false]

/-- Checks 6 and 7 on an opcode that Table 16.2 leaves out. -/
theorem refusal_of_undefined {row : Row} {r : Req} {s : State} (undefined : opSpec r.opcode = none) (flags : r.flags ≤ 1)
    (reserved : r.reserved = 0) : row.refusal r s = some stBadOpcode := by
  have clear : r.flags / 2 = 0 := by omega
  simp [Row.refusal, undefined, clear, reserved]

/-! ### The state right after reset -/

/-- What is read of a list that holds only defaults, or past its end, is the default. -/
theorem nth_replicate_default {α : Type} [Inhabited α] (n k : Nat) : nth (List.replicate n (default : α)) k = default := by
  unfold nth
  rw [List.getD_eq_getElem?_getD, List.getElem?_replicate]
  split <;> rfl

end Sys2Proof.Machine
end

section
/-! SUPPORT. How requests are served, and the state right after reset: the obligations. -/

open Sys2Proof.Machine

/-- Settles O7: serving a row whose checks all pass runs the row's body. -/
theorem callsAreServed : Obligations.CallsAreServed := by
  unfold Obligations.CallsAreServed
  intro i t p row s q serves called
  rw [exec_of_servedBy serves, serve_of_calls called]

/-- Settles O8: the first check that fails decides, for the rows of the table and for the opcodes it leaves out. -/
theorem refusalsChangeNothing : Obligations.RefusalsChangeNothing := by
  unfold Obligations.RefusalsChangeNothing
  constructor
  · intro i t p row s q status serves fresh fails
    rw [exec_of_servedBy serves, serve_of_refusal fresh fails]
  · intro t p s q fresh front undefined flags reserved
    unfold Ends
    rw [exec_undefinedOpcode front undefined, serve_of_refusal fresh (refusal_of_undefined undefined flags reserved)]

/-- Settles O9: the tests of R50 and R51 come before the checks of a row. -/
theorem duplicatesAreReplayed : Obligations.DuplicatesAreReplayed := by
  unfold Obligations.DuplicatesAreReplayed
  intro i t p row s q serves admitted
  constructor
  · intro d again
    rw [exec_of_servedBy serves, serve_of_duplicate admitted again]
  · intro b first busy
    rw [exec_of_servedBy serves, serve_of_busy admitted first busy]

/-- Settles O3: sessions and channels are at their defaults, whatever their number. -/
theorem resetLeaves : Obligations.ResetLeaves := by
  unfold Obligations.ResetLeaves
  have sessions (k : Nat) : State.reset.session k = {} := nth_replicate_default 8 k
  have channels (n : Nat) : State.reset.chan n = {} := nth_replicate_default 24 n
  refine ⟨rfl, rfl, fun k => ?_, rfl, rfl, rfl, rfl, fun n => ?_, fun p => ?_, rfl⟩
  · rw [sessions]
  · rw [channels]
    exact ⟨rfl, rfl, rfl⟩
  · cases p <;> exact ⟨rfl, rfl⟩

end

section
/-! SUPPORT. Transfers on the host ports: what each receives, discards and drives (R37-R45). -/

namespace Sys2Proof.Machine

/-! ### Ports -/

@[simp] theorem State.tickTo_port (s : State) (t : Nat) (p : Port) : (s.tickTo t).port p = s.port p := by cases p <;> rfl
@[simp] theorem State.tickTo_statusWord (s : State) (t : Nat) (p : Port) : (s.tickTo t).statusWord p = s.statusWord p := by cases p <;> rfl

/-- A port that takes packets is not in reset. -/
theorem State.not_held_of_readyOn {s : State} {p : Port} (ready : s.readyOn p = true) : s.phase ≠ .held := by
  intro held
  rw [State.readyOn, held] at ready
  cases ready

/-- An SPI port out of reset takes transfers. -/
theorem State.hears_spi {s : State} {p : Port} (spi : s.spi p = true) (on : s.phase ≠ .held) (t : Nat) : (s.tickTo t).deaf p = false := by
  show (decide (s.phase = .held) || !s.spi p) = false
  rw [spi, decide_eq_false on]
  rfl

/-- What is next at a port is one of the requests that wait there. -/
theorem State.front_mem {s : State} {p : Port} {q : Request} (next : s.front p = some q) : q ∈ (s.port p).rx := by
  unfold State.front at next
  split at next
  · cases next
  · cases requests : (s.port p).rx with
    | nil => rw [requests] at next; cases next
    | cons x rest =>
      have head : x = q := by
        rw [requests] at next
        dsimp only at next
        repeat' split at next
        all_goals cases next
        all_goals rfl
      exact head ▸ List.mem_cons_self ..

/-- A request placed among others is there, and nothing else new. -/
theorem mem_placeRequest {q x : Request} {l : List Request} (held : x ∈ placeRequest q l) : x = q ∨ x ∈ l := by
  induction l with
  | nil => exact .inl (List.mem_singleton.1 held)
  | cons y rest ih =>
    unfold placeRequest at held
    split at held
    · exact List.mem_cons.1 held
    · rcases List.mem_cons.1 held with rfl | held
      · exact .inr (List.mem_cons_self ..)
      · exact (ih held).imp_right (List.mem_cons_of_mem _)

/-- A packet whose CRC holds joins requests that are all whole, and none is answered. -/
theorem State.receive_whole {s : State} {p : Port} {bytes : List Byte} (whole : ∀ x ∈ (s.port p).rx, x.verdict = .whole)
    (crc : crcHolds bytes = true) :
    s.receive p bytes = s.setPort p (fun a =>
      { a with rx := placeRequest { bytes := bytes, rxAt := s.now, verdict := .whole } a.rx }) := by
  unfold State.receive
  rw [if_pos crc]
  dsimp only
  split
  · rfl
  · next q next =>
    have waits := State.front_mem next
    rw [State.port_setPort] at waits
    have ok : q.verdict = .whole := (mem_placeRequest waits).elim (fun e => e ▸ rfl) (whole q)
    rw [ok]

/-! ### WRITE_PACKET (R37) -/

section Write
variable {t : Nat} {p : Port} {bytes : List Byte} {s : State} (spi : s.spi p = true)
include spi

/-- While READY is 1 the transfer is judged. -/
theorem exec_writePacket_ready (ready : s.readyOn p = true) :
    exec (.writePacket t p 2 bytes) s = .next ((s.tickTo t).writeTransfer p bytes) := by
  have hears := State.hears_spi spi (State.not_held_of_readyOn ready) t
  have on : (s.tickTo t).readyOn p = true := ready
  refine congrArg Host.Outcome.next ((if_neg ?_).trans ((if_neg (by decide)).trans (if_neg ?_)))
  · rw [hears]
    decide
  · rw [on]
    decide

/-- While READY is 0 it is discarded. -/
theorem exec_writePacket_notReady (on : s.phase ≠ .held) (notReady : s.readyOn p = false) :
    exec (.writePacket t p 2 bytes) s = .next (s.tickTo t) := by
  have hears := State.hears_spi spi on t
  have off : (s.tickTo t).readyOn p = false := notReady
  refine congrArg Host.Outcome.next ((if_neg ?_).trans ((if_neg (by decide)).trans (if_pos ?_)))
  · rw [hears]
    decide
  · rw [off]
    rfl

end Write

section Transfer
variable {s : State} {p : Port} {bytes : List Byte}

/-- With four requests waiting the transfer overruns (log 7). -/
theorem State.writeTransfer_full (full : 4 ≤ (s.port p).rx.length) :
    s.writeTransfer p bytes = s.setPort p (fun a => { a with overrun := true }) := if_pos full

variable (room : (s.port p).rx.length < 4)
include room

/-- A first byte other than 5Ah is a framing error. -/
theorem State.writeTransfer_unframed (first : byteAt bytes 0 ≠ 0x5A) :
    s.writeTransfer p bytes = s.setPort p (fun a => { a with framing := true }) := by
  unfold State.writeTransfer
  rw [if_neg (Nat.not_le.2 room), if_pos (by rw [decide_eq_true first]; rfl)]

/-- A packet of the length its header gives is received. -/
theorem State.writeTransfer_framed (first : byteAt bytes 0 = 0x5A) (fits : field bytes 6 2 ≤ 4096)
    (length : bytes.length = 16 + field bytes 6 2) : s.writeTransfer p bytes = s.receive p bytes := by
  have header : ¬ (decide (byteAt bytes 0 ≠ 0x5A) || decide (bytes.length < 12)) = true := by
    have full : ¬ 16 + field bytes 6 2 < 12 := by omega
    simp [first, length, full]
  unfold State.writeTransfer
  rw [if_neg (Nat.not_le.2 room), if_neg header, if_neg (Nat.not_lt.2 fits), if_neg (not_not.2 length)]

end Transfer

/-! ### READ_PACKET and READ_STATUS (R38, R39) -/

/-- The port after a read that clocked out so many bytes. -/
theorem PortState.sent_eq (a : PortState) (clocked : Nat) (bytes : List Byte) :
    a.sent clocked bytes = { a with
      out := driven clocked bytes, overrun := a.overrun && decide (clocked < 2), framing := a.framing && decide (clocked < 2) } := by
  unfold PortState.sent
  rcases Nat.lt_or_ge clocked 2 with short | whole
  · simp [short, Nat.not_le.2 short]
  · simp [whole, Nat.not_lt.2 whole]

theorem State.setPort_congr {s : State} {p : Port} {f g : PortState → PortState} (same : f (s.port p) = g (s.port p)) :
    s.setPort p f = s.setPort p g := by
  cases p
  · exact congrArg (fun a => ({ s with host := { s.host with h0 := a } } : State)) same
  · exact congrArg (fun a => ({ s with host := { s.host with h1 := a } } : State)) same

section Read
variable {t clocked : Nat} {p : Port} {s : State} (spi : s.spi p = true) (on : s.phase ≠ .held)
include spi on

theorem exec_readPacket {x : Reply} {rest : List Reply} (oldest : (s.port p).replies = x :: rest) :
    exec (.readPacket t p clocked) s = .next ((s.tickTo t).setPort p (fun a =>
      { a with
        out := driven clocked (le 2 (s.statusWord p) ++ x.bytes)
        overrun := a.overrun && decide (clocked < 2), framing := a.framing && decide (clocked < 2)
        replies := if (le 2 (s.statusWord p) ++ x.bytes).length ≤ clocked then rest else x :: rest })) := by
  have hears := State.hears_spi spi on t
  have bytes : (s.tickTo t).readBytes p = le 2 (s.statusWord p) ++ x.bytes := by
    rw [State.readBytes, State.tickTo_port, State.tickTo_statusWord, oldest]
  refine congrArg Host.Outcome.next ((if_neg (by rw [hears]; decide)).trans (State.setPort_congr ?_))
  rw [bytes, State.tickTo_port, PortState.sent_eq, oldest]
  rfl

theorem exec_readStatus :
    exec (.readStatus t p clocked) s = .next ((s.tickTo t).setPort p (fun a =>
      { a with
        out := driven clocked (le 2 (s.statusWord p))
        overrun := a.overrun && decide (clocked < 2), framing := a.framing && decide (clocked < 2) })) := by
  have hears := State.hears_spi spi on t
  refine congrArg Host.Outcome.next ((if_neg (by rw [hears]; decide)).trans (State.setPort_congr ?_))
  rw [State.tickTo_statusWord, PortState.sent_eq]

end Read

/-! ### The UART (R42-R45) -/

section Uart
variable {t : Nat} {s : State} (uart : s.host.h1Uart = true) (ready : s.readyOn .h1 = true)
include uart ready

/-- H1 as a UART of a part that is ready receives. -/
theorem State.uartOn_of_ready : (s.tickTo t).uartOn = true := by
  show (s.host.h1Uart && s.readyOn .h1) = true
  rw [uart, ready]
  rfl

theorem exec_syncByte {baud : Nat} (unset : s.host.uartRate = none) (rate : s.uartRates baud = true) :
    exec (.syncByte t 0x5A baud) s = .next { s.tickTo t with host := { s.host with uartRate := some baud, uartPart := [0x5A] } } := by
  have measured : (s.tickTo t).uartRates baud = true := rate
  refine congrArg Host.Outcome.next (if_pos ?_)
  rw [State.uartOn_of_ready uart ready, State.tickTo_host, unset, measured]
  rfl

theorem exec_breakLine {bits : Nat} (long : 20 ≤ bits) :
    exec (.breakLine t bits) s = .next { s.tickTo t with host := { s.host with uartPart := [], uartRate := none } } := by
  refine congrArg Host.Outcome.next (if_pos ?_)
  rw [State.uartOn_of_ready uart ready, decide_eq_true long]
  rfl

theorem exec_uartIdleGap {gap : Nat} (long : 10 * Config.ms < gap) :
    exec (.uartIdleGap t gap) s = .next { s.tickTo t with host := { s.host with uartPart := [] } } := by
  refine congrArg Host.Outcome.next (if_pos ?_)
  rw [State.uartOn_of_ready uart ready, decide_eq_true long]
  rfl

/-- Bytes at the measured rate are taken one after another. -/
theorem exec_uartRequest {bytes : List Byte} (rate : s.host.uartRate.isSome = true) :
    exec (.uartRequest t bytes) s = .next (bytes.foldl State.uartByte (s.tickTo t)) := by
  refine congrArg Host.Outcome.next (if_pos ?_)
  rw [State.uartOn_of_ready uart ready, State.tickTo_host, rate]
  rfl

theorem exec_uartReplySent {x : Reply} {rest : List Reply} (oldest : s.host.h1.replies = x :: rest) :
    exec (.uartReplySent t) s = .next { s.tickTo t with host := { s.host with h1 := { s.host.h1 with replies := rest, out := x.bytes } } } := by
  have on : s.phase ≠ .held := State.not_held_of_readyOn ready
  refine congrArg Host.Outcome.next ((if_pos ?_).trans ?_)
  · rw [State.tickTo_host, uart, State.tickTo_phase, decide_eq_true on]
    rfl
  · rw [State.tickTo_host, oldest]

end Uart

/-- A part that hunts begins a request at 5Ah and discards any other byte. -/
theorem State.uartByte_hunting {s : State} (b : Byte) (hunting : s.host.uartPart = []) :
    s.uartByte b = if b = 0x5A then { s with host := { s.host with uartPart := [b] } } else s := by
  unfold State.uartByte
  rw [hunting]
  by_cases sync : b = 0x5A <;> simp [sync]

/-! #### A request, byte by byte (R44) -/

/-- A field that lies within the first bytes of a packet is theirs. -/
theorem field_append (a b : List Byte) {off k : Nat} (within : off + k ≤ a.length) : field (a ++ b) off k = field a off k := by
  unfold field
  rw [List.drop_append_of_le_length (by omega), List.take_append_of_le_length (by rw [List.length_drop]; omega)]

/-- The UART holds these bytes of a request. -/
def State.partly (s : State) (part : List Byte) : State := { s with host := { s.host with uartPart := part } }

@[simp] theorem State.partly_partly (s : State) (a b : List Byte) : (s.partly a).partly b = s.partly b := rfl
@[simp] theorem State.partly_uartPart (s : State) (a : List Byte) : (s.partly a).host.uartPart = a := rfl

theorem State.partly_same {s : State} {part : List Byte} (same : s.host.uartPart = part) : s.partly part = s := by
  rw [← same]
  rfl

/-- A packet as a host sends it: sync byte, length within R37, and as many bytes as its header says. -/
def isFramed (packet : List Byte) : Prop :=
  byteAt packet 0 = 0x5A ∧ field packet 6 2 ≤ 4096 ∧ packet.length = 16 + field packet 6 2

section Packet
variable {s : State} {part rest : List Byte} {b : Byte} (framed : isFramed (part ++ b :: rest))
include framed

/-- The length of the packet is within R37 as soon as it is known. -/
theorem packet_fits : ¬ (decide ((part ++ [b]).length = 12) && decide (field (part ++ [b]) 6 2 > 4096)) = true := by
  obtain ⟨-, fits, -⟩ := framed
  rw [List.append_cons] at fits
  simp only [Bool.and_eq_true, decide_eq_true_eq]
  rintro ⟨header, long⟩
  rw [field_append _ _ (by omega)] at fits
  omega

/-- The packet is whole at its last byte and not before. -/
theorem packet_whole_iff :
    (decide (16 ≤ (part ++ [b]).length) && decide ((part ++ [b]).length = 16 + field (part ++ [b]) 6 2)) = true ↔ rest = [] := by
  obtain ⟨-, -, length⟩ := framed
  rw [List.append_cons, List.length_append] at length
  simp only [Bool.and_eq_true, decide_eq_true_eq]
  constructor
  · rintro ⟨long, whole⟩
    rw [field_append _ _ (by omega)] at length
    exact List.eq_nil_of_length_eq_zero (by omega)
  · rintro rfl
    rw [List.append_nil, List.length_nil] at length
    omega

variable (held : s.host.uartPart = part)
include held

/-- The part does not hunt: the packet begins with 5Ah. -/
theorem State.uartByte_begins : ¬ (s.host.uartPart.isEmpty && decide (b ≠ 0x5A)) = true := by
  obtain ⟨sync, -, -⟩ := framed
  rw [held]
  cases part with
  | nil =>
    have first : b = 0x5A := BitVec.eq_of_toNat_eq sync
    simp [first]
  | cons x l => simp

/-- A byte of a packet that is not its last is held. -/
theorem State.uartByte_more (more : rest ≠ []) : s.uartByte b = s.partly (part ++ [b]) := by
  have begins := State.uartByte_begins framed held
  have fits := packet_fits framed
  have whole := mt (packet_whole_iff framed).1 more
  unfold State.uartByte
  rw [held] at begins ⊢
  exact (if_neg begins).trans ((if_neg fits).trans (if_neg whole))

/-- Its last byte delivers it. -/
theorem State.uartByte_last (last : rest = []) : s.uartByte b = (s.partly []).receive .h1 (part ++ [b]) := by
  have begins := State.uartByte_begins framed held
  have fits := packet_fits framed
  have whole := (packet_whole_iff framed).2 last
  unfold State.uartByte
  rw [held] at begins ⊢
  exact (if_neg begins).trans ((if_neg fits).trans (if_pos whole))

end Packet

/-- The bytes left of a packet deliver it whole. -/
theorem State.uartBytes_receive {rest : List Byte} (left : rest ≠ []) {s : State} {part : List Byte} (held : s.host.uartPart = part)
    (framed : isFramed (part ++ rest)) : rest.foldl State.uartByte s = (s.partly []).receive .h1 (part ++ rest) := by
  induction rest generalizing s part with
  | nil => exact absurd rfl left
  | cons b rest ih =>
    rw [List.foldl_cons]
    by_cases last : rest = []
    · rw [State.uartByte_last framed held last, last]
      rfl
    · rw [State.uartByte_more framed held last]
      rw [List.append_cons] at framed
      rw [ih last (State.partly_uartPart s _) framed, State.partly_partly, ← List.append_cons]

end Sys2Proof.Machine
end

section
/-! SUPPORT. Transfers on the host ports: the obligations. -/

open Sys2Proof.Machine

/-- Settles O10: each transfer by the clause of R37 to R39 it meets. -/
theorem packetTransfers : Obligations.PacketTransfers := by
  unfold Obligations.PacketTransfers
  refine ⟨fun t p bytes s spi ready room whole first fits length crc => ?_, fun t p bytes s spi on => ⟨fun ready room first => ?_,
    fun ready full => ?_, exec_writePacket_notReady spi on⟩, fun t p clocked s spi on => ⟨fun x rest => exec_readPacket spi on,
    exec_readStatus spi on⟩⟩
  · rw [exec_writePacket_ready spi ready, State.writeTransfer_framed (by rwa [State.tickTo_port]) first fits length,
      State.receive_whole (by rwa [State.tickTo_port]) crc]
    rfl
  · rw [exec_writePacket_ready spi ready, State.writeTransfer_unframed (by rwa [State.tickTo_port]) first]
  · rw [exec_writePacket_ready spi ready, State.writeTransfer_full (by rwa [State.tickTo_port])]

/-- Settles O11: the bytes of a request by induction over those still to come. -/
theorem uartLine : Obligations.UartLine := by
  unfold Obligations.UartLine
  intro t s uart ready
  refine ⟨fun baud => exec_syncByte uart ready, fun bits => exec_breakLine uart ready, fun gap => exec_uartIdleGap uart ready,
    fun b rate hunting => ?_, fun bytes => exec_uartRequest uart ready,
    fun bytes rate hunting whole first fits length crc => ?_, fun x rest => exec_uartReplySent uart ready⟩
  · rw [exec_uartRequest uart ready rate, List.foldl_cons, List.foldl_nil, State.uartByte_hunting (s := s.tickTo t) b hunting]
    rfl
  · have some_ : bytes ≠ [] := fun none => by rw [none, List.length_nil] at length; omega
    have framed : isFramed ([] ++ bytes) := ⟨first, fits, length⟩
    rw [exec_uartRequest uart ready rate, State.uartBytes_receive some_ (s := s.tickTo t) hunting framed,
      State.partly_same (s := s.tickTo t) hunting, List.nil_append, State.receive_whole (s := s.tickTo t) (p := .h1) whole crc]
    rfl

end

section
/-! SUPPORT. Sessions, elections and handovers: what the events and completions of an ownership change leave (R57-R68). -/

namespace Sys2Proof.Machine

/-! ### What an event or a completion leaves of the host's state -/

/-- The host's state without what events and completions touch: the sessions and the operations. -/
def State.standing (s : State) : HostState := { s.host with sessions := [], ops := [] }

@[simp] theorem State.raise_standing (s : State) (source time : Nat) (body : List Byte) : (s.raise source time body).standing = s.standing := by
  rw [State.raise_frame]
  rfl

@[simp] theorem State.completeOp_standing (s : State) (tag status : Nat) (detail : List Byte) :
    (s.completeOp tag status detail).standing = s.standing := by
  rw [State.completeOp_frame]
  rfl

@[simp] theorem State.abandonUpdateOf_standing (s : State) (k : Nat) : (s.abandonUpdateOf k).standing = s.standing := by
  unfold State.abandonUpdateOf
  split
  · rw [State.abandonUpdate_frame]
    rfl
  · rfl

theorem State.endHandover_standing (s : State) (status : Nat) : (s.endHandover status).standing = { s.standing with handover := none } := by
  unfold State.endHandover
  split
  · next idle => rw [State.standing, ← idle]
  · exact State.completeOp_standing _ _ _ _

theorem State.setOwner_standing (s : State) (o : Option Nat) (cause : Nat) :
    (s.setOwner o cause).standing = { s.standing with owner := o, keepAt := s.now } := by
  rw [State.setOwner_frame]
  rfl

/-- Time stands still as well. -/
@[simp] theorem State.completeOp_now (s : State) (tag status : Nat) (detail : List Byte) : (s.completeOp tag status detail).now = s.now := by
  rw [State.completeOp_frame]

@[simp] theorem State.endHandover_now (s : State) (status : Nat) : (s.endHandover status).now = s.now := by
  unfold State.endHandover
  split
  · rfl
  · exact State.completeOp_now _ _ _ _

@[simp] theorem State.abandonUpdateOf_now (s : State) (k : Nat) : (s.abandonUpdateOf k).now = s.now := by
  unfold State.abandonUpdateOf
  split
  · rw [State.abandonUpdate_frame]
  · rfl

/-- Ownership moved to the named successor (R66). -/
theorem State.handOver_standing (s : State) (k : Nat) :
    (s.handOver k).standing = { s.standing with owner := some k, handover := none, keepAt := s.now } := by
  unfold State.handOver
  extract_lets old ended abandoned
  have left : abandoned.standing = { s.standing with handover := none } ∧ abandoned.now = s.now := by
    unfold abandoned
    cases old
    case none => exact ⟨State.endHandover_standing _ _, State.endHandover_now _ _⟩
    case some o => exact ⟨(State.abandonUpdateOf_standing _ _).trans (State.endHandover_standing _ _),
      (State.abandonUpdateOf_now _ _).trans (State.endHandover_now _ _)⟩
  rw [State.setOwner_standing, left.1, left.2]

section Standing
variable {s u : State} (same : u.standing = s.standing)
include same

theorem owner_of_standing : u.host.owner = s.host.owner :=
  show u.standing.owner = s.standing.owner by rw [same]
theorem election_of_standing : u.host.election = s.host.election :=
  show u.standing.election = s.standing.election by rw [same]
theorem handover_of_standing : u.host.handover = s.host.handover :=
  show u.standing.handover = s.standing.handover by rw [same]

end Standing

@[simp] theorem State.completeOp_owner (s : State) (tag status : Nat) (detail : List Byte) :
    (s.completeOp tag status detail).host.owner = s.host.owner := owner_of_standing (State.completeOp_standing ..)

@[simp] theorem State.abandonUpdateOf_owner (s : State) (k : Nat) : (s.abandonUpdateOf k).host.owner = s.host.owner :=
  owner_of_standing (State.abandonUpdateOf_standing ..)

@[simp] theorem State.endHandover_owner (s : State) (status : Nat) : (s.endHandover status).host.owner = s.host.owner :=
  show (s.endHandover status).standing.owner = s.host.owner by rw [State.endHandover_standing]; rfl

@[simp] theorem State.endHandover_handover (s : State) (status : Nat) : (s.endHandover status).host.handover = none :=
  show (s.endHandover status).standing.handover = none by rw [State.endHandover_standing]

@[simp] theorem State.setOwner_owner (s : State) (o : Option Nat) (cause : Nat) : (s.setOwner o cause).host.owner = o :=
  show (s.setOwner o cause).standing.owner = o by rw [State.setOwner_standing]

@[simp] theorem State.setOwner_election (s : State) (o : Option Nat) (cause : Nat) : (s.setOwner o cause).host.election = s.host.election :=
  show (s.setOwner o cause).standing.election = s.host.election by rw [State.setOwner_standing]; rfl

@[simp] theorem State.loseOwner_owner (s : State) (cause : Nat) : (s.loseOwner cause).host.owner = none := by
  unfold State.loseOwner
  split
  · assumption
  · exact State.setOwner_owner _ _ _

@[simp] theorem State.withdraw_owner (s : State) (k : Nat) : (s.withdraw k).host.owner = s.host.owner := by
  unfold State.withdraw
  split
  · rfl
  · exact foldl_keeps (fun u : State => u.host.owner) _ (fun u c => State.completeOp_owner u _ _ _) _ _

/-! ### A session that is closed and empty stays so -/

/-- What is read of a list mapped by a function that keeps the default. -/
theorem nth_map {α β : Type} [Inhabited α] [Inhabited β] (l : List α) (f : α → β) (k : Nat) (keeps : f default = default) :
    nth (l.map f) k = f (nth l k) := by
  simp only [nth, List.getD_eq_getElem?_getD, List.getElem?_map]
  cases l[k]? with
  | none => exact keeps.symm
  | some x => rfl

section Blank
variable {s : State} {k : Nat} (blank : s.session k = {})
include blank

theorem State.raiseTo_blank (j source time : Nat) (body : List Byte) : (s.raiseTo j source time body).session k = {} := by
  unfold State.raiseTo
  by_cases mine : k = j
  · subst mine
    by_cases part : k < s.host.sessions.length
    · rw [State.session_setSession _ _ _ part, blank]
      rfl
    · exact nth_past _ _ (by simpa [State.setSession] using part)
  · rw [State.session_setSession_ne _ _ _ _ mine, blank]

theorem State.raise_blank (source time : Nat) (body : List Byte) : (s.raise source time body).session k = {} := by
  rw [State.raise_frame]
  exact (nth_map s.host.sessions _ k rfl).trans (congrArg (fun x : Session => x.offer source time body s.stampNow) blank)

theorem State.completeOp_blank (tag status : Nat) (detail : List Byte) : (s.completeOp tag status detail).session k = {} := by
  unfold State.completeOp
  split
  · exact blank
  · exact State.raiseTo_blank (by exact blank) ..

theorem State.endHandover_blank (status : Nat) : (s.endHandover status).session k = {} := by
  unfold State.endHandover
  split
  · exact blank
  · exact State.completeOp_blank (by exact blank) ..

theorem State.abandonUpdateOf_blank (j : Nat) : (s.abandonUpdateOf j).session k = {} := by
  unfold State.abandonUpdateOf
  split
  · unfold State.abandonUpdate
    split
    · exact blank
    · exact State.raise_blank (by exact blank) ..
  · exact blank

theorem State.loseOwner_blank (cause : Nat) : (s.loseOwner cause).session k = {} := by
  unfold State.loseOwner
  split
  · exact blank
  · exact State.raise_blank (by exact State.abandonUpdateOf_blank (State.endHandover_blank blank _) _) ..

theorem State.completeOps_blank (l : List Claim) (tag status : Claim → Nat) (detail : List Byte) :
    (l.foldl (fun (s : State) c => s.completeOp (tag c) (status c) detail) s).session k = {} := by
  induction l generalizing s with
  | nil => exact blank
  | cons c l ih => exact ih (State.completeOp_blank blank ..)

theorem State.withdraw_blank (j : Nat) : (s.withdraw j).session k = {} := by
  unfold State.withdraw
  split
  · exact blank
  · exact State.completeOps_blank blank ..

end Blank

/-! ### CLOSE (R57, R64) -/

/-- A session closed is empty. -/
theorem State.closeSession_session (s : State) {k : Nat} (part : k < s.host.sessions.length) : (s.closeSession k).session k = {} := by
  unfold State.closeSession
  extract_lets emptied withdrawn lost ended abandoned
  have empty : emptied.session k = {} := State.session_setSession s k _ part
  have afterClaims : withdrawn.session k = {} := State.withdraw_blank empty k
  have afterLoss : lost.session k = {} := by
    unfold lost
    split
    · exact State.loseOwner_blank afterClaims 2
    · exact afterClaims
  have afterHandover : ended.session k = {} := by
    unfold ended
    split
    · exact State.endHandover_blank afterLoss _
    · exact afterLoss
  exact State.abandonUpdateOf_blank afterHandover k

/-- The owner that closes leaves the part without an owner. -/
theorem State.closeSession_owner (s : State) (k : Nat) :
    (s.closeSession k).host.owner = if s.host.owner = some k then none else s.host.owner := by
  have owner : ((s.setSession k (fun _ => {})).withdraw k).host.owner = s.host.owner := State.withdraw_owner _ _
  unfold State.closeSession
  dsimp only
  rw [State.abandonUpdateOf_owner, apply_ite (fun u : State => u.host.owner), State.endHandover_owner, ite_self,
    apply_ite (fun u : State => u.host.owner), State.loseOwner_owner, owner]

/-! ### OPEN (R57, R445) -/

/-- What every event queued for a session leaves, the events of its OPEN leave. -/
theorem State.openEvents_induct {P : State → Prop} (k : Nat) (queued : ∀ u source time body, P u → P (u.raiseTo k source time body))
    {s : State} (first : P (s.raiseTo k 172 s.stampNow (objBody 0 (le 1 s.power.cause ++ le 2 s.power.causeFlags)))) : P (s.openEvents k) := by
  unfold State.openEvents
  extract_lets u v
  have second : P v := by
    unfold v
    split
    · exact queued _ _ _ _ first
    · exact first
  split
  · exact second
  · exact queued _ _ _ _ second

/-- They touch the sessions alone. -/
theorem State.openEvents_frame (s : State) (k : Nat) :
    s.openEvents k = { s with host := { s.host with sessions := (s.openEvents k).host.sessions } } :=
  State.openEvents_induct (P := fun u => u = { s with host := { s.host with sessions := u.host.sessions } }) k
    (fun u source time body same => by rw [same]; rfl) rfl

/-- A queue that has taken in events, or has counted some it had no room for. -/
def EventQueue.grown (q q' : EventQueue) : Prop := q'.mask = q.mask ∧ ∀ e ∈ q.items, e ∈ q'.items

theorem EventQueue.grown_trans {a b c : EventQueue} (first : a.grown b) (second : b.grown c) : a.grown c :=
  ⟨second.1.trans first.1, fun e held => second.2 e (first.2 e held)⟩

theorem EventQueue.watermark_grown (q : EventQueue) (before now : Nat) : q.grown (q.watermark before now) := by
  unfold EventQueue.watermark
  split
  · split <;> exact ⟨rfl, fun e held => held⟩
  · split
    · exact ⟨rfl, fun e held => List.mem_append_left _ held⟩
    · exact ⟨rfl, fun e held => held⟩

theorem EventQueue.drop_grown (q : EventQueue) (cls time : Nat) : q.grown (q.drop cls time) := by
  unfold EventQueue.drop
  dsimp only
  split
  · exact ⟨rfl, fun e held => held⟩
  · exact ⟨rfl, fun e held => List.mem_append_left _ held⟩

theorem EventQueue.push_grown (q : EventQueue) (source cls time : Nat) (body : List Byte) (now : Nat) :
    q.grown (q.push source cls time body now) := by
  unfold EventQueue.push
  split
  · exact EventQueue.drop_grown _ _ _
  · refine EventQueue.grown_trans ?_ (EventQueue.watermark_grown _ _ _)
    exact ⟨rfl, fun e held => List.mem_append_left _ held⟩

theorem Session.offer_grown (x : Session) (source time : Nat) (body : List Byte) (now : Nat) :
    x.queue.grown (x.offer source time body now).queue := by
  unfold Session.offer
  split
  · split
    · exact EventQueue.push_grown _ _ _ _ _ _
    · exact ⟨rfl, fun e held => held⟩
  · exact ⟨rfl, fun e held => held⟩

/-- A session as OPEN sets it up. -/
def openedSession : Session := { isOpen := true, queue := { mask := defaultMask } }

/-- It queues an event of one entry whose source its mask admits. -/
theorem openedSession_offer {source cls : Nat} (admitted : openedSession.queue.admits source = some cls) {body : List Byte}
    (entry : entriesOf body.length = 1) (time now : Nat) :
    ∃ e ∈ (openedSession.offer source time body now).queue.items, e.source = source := by
  have offered : openedSession.offer source time body now =
      { openedSession with queue := openedSession.queue.push source cls time body now } := by
    unfold Session.offer
    rw [admitted]
    rfl
  have room : ¬ openedSession.queue.fill + entriesOf body.length > 1024 := by
    rw [entry]
    decide
  rw [offered]
  unfold EventQueue.push
  rw [if_neg room]
  exact ⟨_, (EventQueue.watermark_grown _ _ _).2 _ (List.mem_append_right _ (List.mem_singleton_self _)), rfl⟩

/-- A session opened with event source 172 in its queue. -/
def Session.isFresh (x : Session) : Prop :=
  x.isOpen = true ∧ x.queue.mask = defaultMask ∧ x.marks = [] ∧ ∃ e ∈ x.queue.items, e.source = 172

/-- The session as the events of its OPEN leave it. -/
theorem State.openEvents_session {s : State} {k : Nat} (part : k < s.host.sessions.length) (opened : s.session k = openedSession) :
    ((s.openEvents k).session k).isFresh ∧ ∀ j, j ≠ k → (s.openEvents k).session j = s.session j := by
  have all : k < (s.openEvents k).host.sessions.length ∧ ((s.openEvents k).session k).isFresh ∧
      ∀ j, j ≠ k → (s.openEvents k).session j = s.session j := by
    refine State.openEvents_induct
      (P := fun u => k < u.host.sessions.length ∧ (u.session k).isFresh ∧ ∀ j, j ≠ k → u.session j = s.session j) k ?_ ?_
    · rintro u source time body ⟨room, ⟨isOpen, mask, marks, e, held, event⟩, others⟩
      have grown := Session.offer_grown (u.session k) source time body u.stampNow
      refine ⟨by simpa [State.raiseTo, State.setSession] using room, ?_, fun j other =>
        (State.session_setSession_ne u k j _ other).trans (others j other)⟩
      unfold State.raiseTo Session.isFresh
      rw [State.session_setSession u k _ room]
      refine ⟨(Session.offer_isOpen ..).trans isOpen, grown.1.trans mask, ?_, e, grown.2 e held, event⟩
      rw [Session.offer_frame]
      exact marks
    · refine ⟨by simpa [State.raiseTo, State.setSession] using part, ?_, fun j other => State.session_setSession_ne s k j _ other⟩
      unfold State.raiseTo Session.isFresh
      rw [State.session_setSession s k _ part, opened]
      refine ⟨Session.offer_isOpen .., (Session.offer_grown ..).1, ?_, openedSession_offer (cls := 0) (by decide) (by rfl) _ _⟩
      rw [Session.offer_frame]
      rfl
  exact all.2

/-- The number of sessions. -/
theorem State.Inv.sessions {s : State} (inv : s.Inv) : s.host.sessions.length = 8 := by
  simp only [State.Inv, State.shape, partShape, List.cons.injEq] at inv
  obtain ⟨-, -, -, -, -, sessions, -⟩ := inv
  exact sessions

/-- A session of a port is one of the eight (R35). -/
theorem fitsPort_lt {p : Port} {k : Nat} (fits : fitsPort p k = true) : k < 8 := by
  cases p
  · exact lt_of_le_of_lt (of_decide_eq_true fits) (by decide)
  · simp only [fitsPort, Bool.and_eq_true, decide_eq_true_eq] at fits
    omega

/-- The session of a request called is one of the part's. -/
theorem session_of_calls {row : Row} {t : Nat} {p : Port} {s : State} {q : Request} (called : row.calls t p s q = true) (inv : s.Inv) :
    (Req.of p q).session < (s.taken t p).host.sessions.length := by
  simp only [Row.calls, Row.fresh, Bool.and_eq_true, decide_eq_true_eq] at called
  obtain ⟨⟨⟨admitted, -⟩, -⟩, -⟩ := called
  obtain ⟨-, -, fits, -⟩ := admits_iff.1 admitted
  rw [State.take_sessions, State.tickTo_host, inv.sessions]
  exact fitsPort_lt fits

section Open
variable {t : Nat} {p : Port} {s : State} {q : Request} (called : openRow.calls t p s q = true)
include called

/-- OPEN of an open session (R57). -/
theorem openSession_open (isOpen : ((s.taken t p).session (Req.of p q).session).isOpen = true) :
    Ends (.openSession t p) s (Req.of p q) stWrongState [] (s.taken t p) :=
  ends_of_body rfl called (if_pos isOpen)

/-- OPEN of a closed session (R57, R445). -/
theorem openSession_closed (inv : s.Inv) (closed : ((s.taken t p).session (Req.of p q).session).isOpen = false) :
    Answers (.openSession t p) s (Req.of p q) stOk ((s.taken t p).ownership ++ le 1 (s.taken t p).power.cause ++ zeros 3) (fun u =>
      (u.session (Req.of p q).session).isFresh ∧ (∀ k, k ≠ (Req.of p q).session → u.session k = (s.taken t p).session k) ∧
      u.host.owner = s.host.owner) := by
  have part := session_of_calls called inv
  have opened := State.session_setSession (s.taken t p) (Req.of p q).session (fun _ => openedSession) part
  have frame := State.openEvents_frame ((s.taken t p).setSession (Req.of p q).session (fun _ => openedSession)) (Req.of p q).session
  obtain ⟨fresh, others⟩ := State.openEvents_session (by simpa [State.setSession] using part) opened
  have ownership : (((s.taken t p).setSession (Req.of p q).session (fun _ => openedSession)).openEvents (Req.of p q).session).ownership =
      (s.taken t p).ownership := by rw [frame]; rfl
  have cause : (((s.taken t p).setSession (Req.of p q).session (fun _ => openedSession)).openEvents (Req.of p q).session).power =
      (s.taken t p).power := by rw [frame]; rfl
  refine ⟨_, ends_of_body rfl called ((if_neg (by rw [closed]; decide)).trans ?_), fresh, fun k other =>
    (others k other).trans (State.session_setSession_ne _ _ _ _ other), ?_⟩
  · rw [← ownership, ← cause]
    rfl
  · rw [frame]
    exact State.take_owner _ _

end Open

/-- CLOSE (R57, R64). -/
theorem closeSession_answers {t : Nat} {p : Port} {s : State} {q : Request} (called : closeRow.calls t p s q = true) (inv : s.Inv) :
    Answers (.closeSession t p) s (Req.of p q) stOk [] (fun u =>
      u.session (Req.of p q).session = {} ∧
      u.host.owner = if s.host.owner = some (Req.of p q).session then none else s.host.owner) := by
  refine ⟨_, ends_of_body rfl called rfl, State.closeSession_session _ (session_of_calls called inv), ?_⟩
  rw [State.closeSession_owner, State.take_owner, State.tickTo_host]

/-! ### Elections (R60-R62) -/

/-- A window that had not ended at an instant goes on. -/
theorem State.electionBefore_open {s : State} {rxAt : Nat} (open_ : ∀ e, s.host.election = some e → rxAt < e.endAt) :
    s.electionBefore rxAt = s := by
  refine if_neg ?_
  rw [Option.any_eq_true]
  rintro ⟨e, runs, ended⟩
  have goes := open_ e runs
  have ended := of_decide_eq_true ended
  omega

/-- A claim opens a window of 50 ms from its receipt. -/
theorem State.addClaim_opens {s : State} (idle : s.host.election = none) (r : Req) (tag : Nat) :
    (s.addClaim r tag).host.election =
      some { endAt := r.rxAt + 50 * Config.ms, claims := [{ session := r.session, priority := r.u 0 1, tag := tag }] } := by
  unfold State.addClaim
  rw [idle]

/-- Or it joins the one that runs. -/
theorem State.addClaim_joins {s : State} {e : Election} (runs : s.host.election = some e) (r : Req) (tag : Nat) :
    (s.addClaim r tag).host.election =
      some { e with claims := e.claims ++ [{ session := r.session, priority := r.u 0 1, tag := tag }] } := by
  unfold State.addClaim
  rw [runs]

/-- An operation accepted leaves the window. -/
theorem State.startOp_election (s : State) (t : Nat) (p : Port) (opcode handle session : Nat) :
    ((s.taken t p).startOp opcode handle session).2.host.election = s.host.election := State.take_election _ _

section Claim
variable {t : Nat} {p : Port} {s : State} {q : Request} (called : claimRow.calls t p s q = true)
include called

/-- A CLAIM while there is no owner, in a window that has not ended if one runs, is accepted and taken in it (R60, R54). -/
theorem claim_accepted (free : s.host.owner = none) (open_ : ∀ e, s.host.election = some e → q.rxAt < e.endAt)
    (room : s.opRoom (Req.of p q).session = true) :
    Ends (.claim t p) s (Req.of p q) stAccepted (le 2 s.host.nextTag)
      (((s.taken t p).startOp (Req.of p q).opcode (Req.of p q).handle (Req.of p q).session).2.addClaim (Req.of p q) s.host.nextTag) := by
  have goes : (s.taken t p).electionBefore (Req.of p q).rxAt = s.taken t p :=
    State.electionBefore_open (fun e runs => open_ e (by simpa using runs))
  refine ends_of_body rfl called ?_
  unfold claimRow
  dsimp only
  rw [goes, State.take_owner, State.tickTo_host, free]
  dsimp only
  rw [accept_room (by simpa using room), State.take_nextTag, State.tickTo_host]

/-- A CLAIM of the owner, and one of another session (R62). -/
theorem claim_owned {k : Nat} (owner : s.host.owner = some k) (idle : s.host.election = none) :
    Ends (.claim t p) s (Req.of p q) (if k = (Req.of p q).session then stOk else stDenied) [] (s.taken t p) := by
  have goes : (s.taken t p).electionBefore (Req.of p q).rxAt = s.taken t p :=
    State.electionBefore_open (by simp [idle])
  refine ends_of_body rfl called ?_
  unfold claimRow
  dsimp only
  rw [goes, State.take_owner, State.tickTo_host, owner]
  dsimp only
  split <;> rfl

end Claim

/-! #### The winner (R61) -/

/-- Of a session number and the one that leads the numbers before it, the one that leads. -/
def Election.lead (e : Election) (best : Option (Nat × Nat)) (k : Nat) : Option (Nat × Nat) :=
  match e.priorityOf k with
  | none => best
  | some p =>
    match best with
    | none => some (k, p)
    | some b => if b.2 < p then some (k, p) else best

theorem Election.winner_eq (e : Election) : e.winner = (List.range 8).foldl e.lead none := rfl

/-- What it means to lead the sessions below a number: to have claimed with the highest priority, and the lowest number among those. -/
def Election.leads (e : Election) (n : Nat) : Option (Nat × Nat) → Prop
  | none => ∀ j < n, e.priorityOf j = none
  | some b => b.1 < n ∧ e.priorityOf b.1 = some b.2 ∧ ∀ j x, j < n → e.priorityOf j = some x → x ≤ b.2 ∧ (x = b.2 → b.1 ≤ j)

theorem Election.leads_lead {e : Election} {n : Nat} {best : Option (Nat × Nat)} (before : e.leads n best) : e.leads (n + 1) (e.lead best n) := by
  unfold Election.lead
  cases claim : e.priorityOf n with
  | none =>
    cases best with
    | none =>
      intro j below
      rcases Nat.lt_succ_iff_lt_or_eq.1 below with below | rfl
      · exact before j below
      · exact claim
    | some b =>
      obtain ⟨below, claimed, highest⟩ := before
      refine ⟨by omega, claimed, fun j x within other => highest j x ?_ other⟩
      rcases Nat.lt_succ_iff_lt_or_eq.1 within with within | rfl
      · exact within
      · rw [claim] at other
        cases other
  | some p =>
    cases best with
    | none =>
      refine ⟨Nat.lt_succ_self n, claim, fun j x within other => ?_⟩
      rcases Nat.lt_succ_iff_lt_or_eq.1 within with within | rfl
      · rw [before j within] at other
        cases other
      · rw [claim] at other
        cases other
        exact ⟨le_rfl, fun _ => le_rfl⟩
    | some b =>
      obtain ⟨below, claimed, highest⟩ := before
      dsimp only
      split
      · next higher =>
        refine ⟨Nat.lt_succ_self n, claim, fun j x within other => ?_⟩
        rcases Nat.lt_succ_iff_lt_or_eq.1 within with within | rfl
        · have bound := (highest j x within other).1
          dsimp only
          omega
        · rw [claim] at other
          cases other
          exact ⟨le_rfl, fun _ => le_rfl⟩
      · next lower =>
        refine ⟨by omega, claimed, fun j x within other => ?_⟩
        rcases Nat.lt_succ_iff_lt_or_eq.1 within with within | rfl
        · exact highest j x within other
        · rw [claim] at other
          cases other
          exact ⟨by omega, fun _ => by omega⟩

/-- The winner leads all eight sessions. -/
theorem Election.leads_winner (e : Election) : e.leads 8 e.winner := by
  have all : ∀ n, e.leads n ((List.range n).foldl e.lead none) := by
    intro n
    induction n with
    | zero => exact fun j below => absurd below (Nat.not_lt_zero j)
    | succ n ih =>
      rw [List.range_succ, List.foldl_append]
      exact Election.leads_lead ih
  exact all 8

/-! #### The end of a window (R60, R61) -/

/-- Its winner becomes the owner as of that end. -/
theorem State.endElection_winner {s : State} {e : Election} {w : Nat × Nat} (runs : s.host.election = some e) (wins : e.winner = some w) :
    s.endElection.host.owner = some w.1 ∧ s.endElection.host.election = none ∧ s.endElection.host.keepAt = e.endAt := by
  unfold State.endElection
  rw [runs]
  dsimp only
  rw [wins]
  dsimp only
  refine ⟨State.setOwner_owner .., ?_, rfl⟩
  rw [State.setOwner_election]
  exact foldl_keeps (fun u : State => u.host.election) _ (fun u c => election_of_standing (State.completeOp_standing ..)) _ _

section WindowEnd
variable {t : Nat} {s : State} {e : Election} (runs : s.host.election = some e)
include runs

/-- A CLAIM received before the end that still waits holds it up. -/
theorem electionWindowEnd_waits (claims : s.waits 0x0103 e.endAt (fun _ => true) = true) :
    exec (.electionWindowEnd t) s = .next (s.tickTo t) := by
  refine congrArg Host.Outcome.next (if_pos ?_)
  rw [State.tickTo_host, runs]
  exact claims

theorem exec_electionWindowEnd (taken : s.waits 0x0103 e.endAt (fun _ => true) = false) :
    exec (.electionWindowEnd t) s = .next ((s.tickTo t).electionBefore (max s.now t)) := by
  refine congrArg Host.Outcome.next (if_neg ?_)
  rw [State.tickTo_host, runs]
  exact Bool.eq_false_iff.1 taken

theorem electionWindowEnd_early (early : max s.now t < e.endAt) : exec (.electionWindowEnd t) s = .next (s.tickTo t) := by
  cases claims : s.waits 0x0103 e.endAt (fun _ => true) with
  | true => exact electionWindowEnd_waits runs claims
  | false =>
    rw [exec_electionWindowEnd runs claims, State.electionBefore_open]
    intro x other
    rw [State.tickTo_host, runs] at other
    cases other
    exact early

theorem electionWindowEnd_due {w : Nat × Nat} (wins : e.winner = some w) (due : e.endAt ≤ max s.now t)
    (taken : s.waits 0x0103 e.endAt (fun _ => true) = false) :
    Leads (.electionWindowEnd t) s (fun u => u.host.owner = some w.1 ∧ u.host.election = none ∧ u.host.keepAt = e.endAt) := by
  have ends : (s.tickTo t).electionBefore (max s.now t) = (s.tickTo t).endElection := by
    refine if_pos ?_
    rw [State.tickTo_host, runs]
    exact decide_eq_true due
  refine ⟨_, exec_electionWindowEnd runs taken, ?_⟩
  rw [ends]
  exact State.endElection_winner runs wins

end WindowEnd

/-! ### Handovers (R65-R68) -/

/-- YIELD to an open session is accepted and names it for a second (R65). -/
theorem yield_accepted {t : Nat} {p : Port} {s : State} {q : Request} (called : yieldRow.calls t p s q = true)
    (isOpen : (s.session ((Req.of p q).u 0 1)).isOpen = true) (idle : s.host.handover = none)
    (room : s.opRoom (Req.of p q).session = true) :
    Answers (.yield t p) s (Req.of p q) stAccepted (le 2 s.host.nextTag) (fun u =>
      u.host.owner = s.host.owner ∧
      u.host.handover = some { successor := (Req.of p q).u 0 1, endAt := q.rxAt + Config.ticksPerSecond, tag := s.host.nextTag }) := by
  have there : ((s.taken t p).session ((Req.of p q).u 0 1)).isOpen = true := by rw [State.session_take_self]; exact isOpen
  have none_ : (s.taken t p).host.handover = none := by rw [State.take_handover]; exact idle
  have tag : (s.taken t p).host.nextTag = s.host.nextTag := State.take_nextTag _ _
  rw [← tag]
  exact ⟨_, ends_of_body rfl called ((if_neg (by rw [there]; decide)).trans ((if_neg (by rw [none_]; decide)).trans
    (accept_room (by simpa using room)))), State.take_owner _ _, rfl⟩

section Accept
variable {t : Nat} {p : Port} {s : State} {q : Request} (called : acceptRow.calls t p s q = true)
include called

/-- ACCEPT without a pending handover (R68). -/
theorem accept_idle (idle : s.host.handover = none) : Ends (.accept t p) s (Req.of p q) stWrongState [] (s.taken t p) := by
  have none_ : (s.taken t p).host.handover = none := by rw [State.take_handover]; exact idle
  refine ends_of_body rfl called ?_
  unfold acceptRow
  dsimp only
  rw [none_]
  rfl

section Pending
variable {h : Handover} (pending : s.host.handover = some h)
include pending

/-- What ACCEPT decides while a handover is pending. -/
theorem ends_of_pending {status : Nat} {u : State}
    (decides : (if h.endAt ≤ q.rxAt then refuse stWrongState ((s.taken t p).endHandover stTimeout)
      else if h.successor ≠ (Req.of p q).session then refuse stDenied (s.taken t p)
      else .done stOk [] ((s.taken t p).handOver (Req.of p q).session)) = Answer.done status [] u) :
    Ends (.accept t p) s (Req.of p q) status [] u := by
  have waits : (s.taken t p).host.handover = some h := by rw [State.take_handover]; exact pending
  refine ends_of_body rfl called ?_
  unfold acceptRow
  dsimp only
  rw [waits]
  exact decides

/-- ACCEPT received after the pending second ends the handover (R67). -/
theorem accept_late (late : h.endAt ≤ q.rxAt) :
    Answers (.accept t p) s (Req.of p q) stWrongState [] (fun u => u.host.handover = none ∧ u.host.owner = s.host.owner) :=
  ⟨_, ends_of_pending called pending (if_pos late), State.endHandover_handover _ _,
    (State.endHandover_owner _ _).trans (State.take_owner _ _)⟩

variable (within : q.rxAt < h.endAt)
include within

/-- ACCEPT of a session that the handover does not name (R68). -/
theorem accept_other (other : h.successor ≠ (Req.of p q).session) : Ends (.accept t p) s (Req.of p q) stDenied [] (s.taken t p) :=
  ends_of_pending called pending ((if_neg (Nat.not_le.2 within)).trans (if_pos other))

/-- ACCEPT of the named session moves ownership to it (R66). -/
theorem accept_named (named : h.successor = (Req.of p q).session) :
    Answers (.accept t p) s (Req.of p q) stOk [] (fun u =>
      u.host.owner = some (Req.of p q).session ∧ u.host.handover = none ∧ u.host.keepAt = max s.now t) := by
  refine ⟨_, ends_of_pending called pending ((if_neg (Nat.not_le.2 within)).trans (if_neg (not_not.2 named))), ?_⟩
  have now : (s.taken t p).now = max s.now t := by cases p <;> rfl
  have moved := State.handOver_standing (s.taken t p) (Req.of p q).session
  rw [now] at moved
  exact ⟨congrArg (fun x : HostState => x.owner) moved, congrArg (fun x : HostState => x.handover) moved,
    congrArg (fun x : HostState => x.keepAt) moved⟩

end Pending
end Accept

/-- With no ACCEPT the handover ends at its second, and the owner stays (R67). -/
theorem handoverTimeout_due {t : Nat} {s : State} {h : Handover} (pending : s.host.handover = some h) (due : h.endAt ≤ max s.now t)
    (taken : s.waits 0x0105 h.endAt (fun k => k = h.successor) = false) :
    Leads (.handoverTimeout t) s (fun u => u.host.handover = none ∧ u.host.owner = s.host.owner) := by
  have ends : exec (.handoverTimeout t) s = .next ((s.tickTo t).endHandover stTimeout) := by
    refine congrArg Host.Outcome.next ?_
    rw [State.tickTo_host, pending]
    refine if_pos ?_
    rw [Bool.and_eq_true, Bool.not_eq_true']
    exact ⟨decide_eq_true due, taken⟩
  exact ⟨_, ends, State.endHandover_handover _ _, State.endHandover_owner _ _⟩

/-- WHO_OWNS (R480). -/
theorem whoOwns_ends {t : Nat} {p : Port} {s : State} {q : Request} (called : whoOwnsRow.calls t p s q = true) :
    Ends (.whoOwns t p) s (Req.of p q) stOk
      (le 1 (s.host.owner.getD 255) ++ le 1 ((s.host.handover.map (fun h => h.successor)).getD 255) ++
        le 1 (ofBool s.host.election.isSome) ++ zeros 1 ++ le 2 (s.taken t p).remaining ++ zeros 2) (s.taken t p) := by
  have ownership : (s.taken t p).ownership = s.ownership := by
    unfold State.ownership
    rw [State.take_owner, State.take_handover, State.take_election, State.tickTo_host]
  refine ends_of_body rfl called ?_
  unfold whoOwnsRow
  dsimp only
  rw [ownership]
  rfl

end Sys2Proof.Machine
end

section
/-! SUPPORT. Sessions, elections and handovers: the obligations, from the lemmas on their commands. -/

open Sys2Proof.Machine

/-- Settles O12: what the events of an OPEN leave, and what the steps of a CLOSE leave. -/
theorem sessionsOpenAndClose : Obligations.SessionsOpenAndClose := by
  unfold Obligations.SessionsOpenAndClose
  refine ⟨fun t p s q called inv => ⟨fun closed => ?_, openSession_open called⟩, fun t p s q => closeSession_answers⟩
  obtain ⟨u, ends, ⟨isOpen, mask, marks, event⟩, others, owner⟩ := openSession_closed called inv closed
  exact ⟨u, ends, isOpen, mask, marks, event, others, owner⟩

/-- Settles O13: a CLAIM by what it finds, the winner by induction over the sessions judged, and the end of a window. -/
theorem elections : Obligations.Elections := by
  unfold Obligations.Elections
  refine ⟨fun t p s q called => ⟨fun free idle room => ?_, fun e free runs early room => ?_, fun k => claim_owned called⟩,
    fun e k prio wins => ?_, fun t s e runs => ⟨fun w => electionWindowEnd_due runs, electionWindowEnd_waits runs,
    electionWindowEnd_early runs⟩⟩
  · refine ⟨_, claim_accepted called free (fun e runs => ?_) room, ?_, ?_, ?_⟩
    · rw [idle] at runs
      cases runs
    · exact State.addClaim_opens ((State.startOp_election ..).trans idle) _ _
    · exact congrArg tagAfter (State.take_nextTag _ _)
    · exact (State.take_owner _ _).trans free
  · refine ⟨_, claim_accepted called free (fun x other => ?_) room, ?_⟩
    · rw [runs] at other
      cases other
      exact early
    · exact State.addClaim_joins ((State.startOp_election ..).trans runs) _ _
  · have leads := e.leads_winner
    rw [wins] at leads
    exact leads

/-- Settles O15: YIELD, each ACCEPT by what it finds, the end of the pending second, and WHO_OWNS. -/
theorem handoverRules : Obligations.HandoverRules := by
  unfold Obligations.HandoverRules
  exact ⟨⟨fun t p s q => yield_accepted, fun t p s q called => ⟨accept_idle called, fun h => accept_late called,
    fun h => accept_other called, fun h => accept_named called⟩, fun t s h => handoverTimeout_due⟩, fun t p s q => whoOwns_ends⟩

end

section
/-! SUPPORT. The resets: what each keeps and loses (R411, R440-R444, R425). -/

namespace Sys2Proof.Machine

/-- What every reset leaves: the part held by it, sessions, contexts and keys of the engine gone, and what the store and the OTP hold kept. -/
structure HeldAfter (s u : State) (cause : Nat) : Prop where
  phase : u.phase = .held
  cause : u.power.cause = cause
  owner : u.host.owner = none
  sessions : ∀ x ∈ u.host.sessions, x.isOpen = false
  live : u.bill.live = []
  journal : u.store.journal = s.store.journal
  lifecycle : u.sec.lifecycle = s.sec.lifecycle
  slots : u.cal.slots = s.cal.slots
  pending : u.pending = s.pending
  engine : u.sec.engine = List.replicate 16 none
  linkKey : u.sec.linkKey = none
  debugOpen : u.sec.debugOpen = false

/-- What a reset keeps besides, where it cuts no write of the boot table. -/
structure KeepsStore (s u : State) : Prop where
  log : u.store.log = s.store.log
  boot : u.store.boot = s.store.boot
  counter : u.sec.counter = s.sec.counter

/-- What is lost does not depend on what was before, and what is kept only on what it is. -/
theorem HeldAfter.of_same {s v u : State} {cause : Nat} (held : HeldAfter v u cause) (journal : v.store.journal = s.store.journal)
    (lifecycle : v.sec.lifecycle = s.sec.lifecycle) (slots : v.cal.slots = s.cal.slots) (pending : v.pending = s.pending) :
    HeldAfter s u cause :=
  { held with
    journal := held.journal.trans journal, lifecycle := held.lifecycle.trans lifecycle, slots := held.slots.trans slots
    pending := held.pending.trans pending }

/-- A format cut short keeps the records as well. -/
theorem StoreState.kept_records (x : StoreState) : x.kept.journal = x.journal ∧ x.kept.log = x.log ∧ x.kept.boot = x.boot := by
  unfold StoreState.kept
  split <;> exact ⟨rfl, rfl, rfl⟩

section Enter
variable (s : State) (cause until_ : Nat)

theorem State.enterReset_held : HeldAfter s (s.enterReset cause until_) cause where
  phase := rfl
  cause := rfl
  owner := rfl
  sessions x member := by rw [List.eq_of_mem_replicate member]
  live := rfl
  journal := (StoreState.kept_records s.store).1
  lifecycle := rfl
  slots := rfl
  pending := rfl
  engine := rfl
  linkKey := rfl
  debugOpen := rfl

theorem State.enterReset_keeps : KeepsStore s (s.enterReset cause until_) where
  log := (StoreState.kept_records s.store).2.1
  boot := (StoreState.kept_records s.store).2.2
  counter := rfl

end Enter

/-- Outside a lifecycle transition a reset of any kind is that. -/
theorem State.resetNow_eq {s : State} (idle : s.sec.transition = none) (cause until_ : Nat) :
    s.resetNow cause until_ = s.enterReset cause until_ := by
  unfold State.resetNow State.cutTransition
  rw [idle]

/-! ### Power-on resets (R440, R428, R454) -/

/-- The end, no earlier, of the reset that holds the part; 0 where none does. -/
def State.heldUntil (s : State) : Nat := if s.phase = .held then (s.power.reset.map PendingReset.notBefore).getD 0 else 0

theorem State.heldUntil_on {s : State} (on : s.phase ≠ .held) : s.heldUntil = 0 := if_neg on

/-- A power-on reset does not shorten a reset that holds the part, and allows debug authentication again (R422). -/
theorem State.powerOn_eq {s : State} (idle : s.sec.transition = none) (cause until_ : Nat) :
    s.powerOn cause until_ = { s.enterReset cause (max s.heldUntil until_) with
      sec := { (s.enterReset cause (max s.heldUntil until_)).sec with debugFailures := 0 } } := by
  unfold State.powerOn
  extract_lets notBefore u
  have same : notBefore = max s.heldUntil until_ := by
    unfold notBefore State.heldUntil
    cases s.power.reset <;> dsimp only <;> split <;> simp
  have reset : u = s.enterReset cause (max s.heldUntil until_) := by
    unfold u
    rw [same, State.resetNow_eq idle]
  exact congrArg (fun x : State => ({ x with sec := { x.sec with debugFailures := 0 } } : State)) reset

section PowerOn
variable {s : State} (idle : s.sec.transition = none) (cause until_ : Nat)
include idle

theorem State.powerOn_held : HeldAfter s (s.powerOn cause until_) cause := by
  rw [State.powerOn_eq idle]
  have held := s.enterReset_held cause (max s.heldUntil until_)
  exact ⟨held.phase, held.cause, held.owner, held.sessions, held.live, held.journal, held.lifecycle, held.slots, held.pending,
    held.engine, held.linkKey, held.debugOpen⟩

theorem State.powerOn_keeps : KeepsStore s (s.powerOn cause until_) := by
  rw [State.powerOn_eq idle]
  have keeps := s.enterReset_keeps cause (max s.heldUntil until_)
  exact ⟨keeps.log, keeps.boot, keeps.counter⟩

theorem State.powerOn_reset : (s.powerOn cause until_).power.reset = some { cause := cause, notBefore := max s.heldUntil until_ } := by
  rw [State.powerOn_eq idle]
  rfl

theorem State.powerOn_vault : (s.powerOn cause until_).gate.totals = s.copies.totals ∧
    (s.powerOn cause until_).sec.network = s.sec.network ∧ (s.powerOn cause until_).sec.debugFailures = 0 := by
  rw [State.powerOn_eq idle]
  exact ⟨rfl, rfl, rfl⟩

end PowerOn

/-- A power-on reset at an instant, as VCORE_FAULT and REFERENCE_LOSS make it. -/
theorem State.tickTo_powerOn {s : State} {t : Nat} (idle : s.sec.transition = none) (cause until_ : Nat) :
    HeldAfter s ((s.tickTo t).powerOn cause until_) cause ∧ KeepsStore s ((s.tickTo t).powerOn cause until_) ∧
      (∃ r, ((s.tickTo t).powerOn cause until_).power.reset = some r ∧ r.notBefore = max s.heldUntil until_) ∧
      ((s.tickTo t).powerOn cause until_).sec.debugFailures = 0 := by
  have held := State.powerOn_held (s := s.tickTo t) idle cause until_
  have keeps := State.powerOn_keeps (s := s.tickTo t) idle cause until_
  exact ⟨held.of_same rfl rfl rfl rfl, ⟨keeps.log, keeps.boot, keeps.counter⟩,
    ⟨_, State.powerOn_reset (s := s.tickTo t) idle cause until_, rfl⟩, (State.powerOn_vault (s := s.tickTo t) idle cause until_).2.2⟩

/-- The copies the vault holds leave its totals. -/
theorem State.copies_totals (s : State) : s.copies.totals = s.gate.totals := by
  unfold State.copies
  split <;> rfl

/-- The loss of the battery domain, which takes the secure SRAM, the totals and the RTC (R401, R431, R453), leaves the rest. -/
theorem HeldAfter.loseBattery {s u : State} {cause : Nat} (held : HeldAfter s u cause) : HeldAfter s u.loseBattery cause :=
  ⟨held.phase, held.cause, held.owner, held.sessions, held.live, held.journal, held.lifecycle, held.slots, held.pending,
    held.engine, held.linkKey, held.debugOpen⟩

/-- So does the mark of a lost reference (R454). -/
theorem HeldAfter.referenceLost {s u : State} {cause : Nat} (held : HeldAfter s u cause) :
    HeldAfter s { u with clock := { u.clock with referenceLost := true } } cause :=
  ⟨held.phase, held.cause, held.owner, held.sessions, held.live, held.journal, held.lifecycle, held.slots, held.pending,
    held.engine, held.linkKey, held.debugOpen⟩

theorem KeepsStore.loseBattery {s u : State} (keeps : KeepsStore s u) : KeepsStore s u.loseBattery := ⟨keeps.log, keeps.boot, keeps.counter⟩

/-! ### A power loss within a write of the boot table (R425) -/

/-- It touches the store and the counter, and leaves the journal. -/
theorem State.cutBoot_frame (s : State) :
    s.cutBoot = { s with
      store := { s.cutBoot.store with journal := s.store.journal }
      sec := { s.sec with counter := s.cutBoot.sec.counter, revoked := s.cutBoot.sec.revoked }
      draws := s.cutBoot.draws } := by
  unfold State.cutBoot
  split
  · dsimp only
    split
    · rfl
    · split
      · split <;> rfl
      · split
        · rfl
        · split <;> rfl
  · rfl

/-- Past the time that a write takes, nothing is cut. -/
theorem State.cutBoot_whole {s : State} (whole : s.store.bootWrite.any (fun w => s.now ≤ w.at_ + Config.bootWriteTicks) = false) :
    s.cutBoot = s := by
  unfold State.cutBoot
  split
  · next w other writes spare =>
    rw [writes] at whole
    exact if_pos (Nat.not_le.1 (of_decide_eq_false whole))
  · rfl

/-- One copy or the other is left, and the counter as it was before a confirmation or as it is. -/
theorem State.cutBoot_boot (s : State) :
    (s.cutBoot.store.boot = s.store.boot ∨ s.store.bootSpare = some s.cutBoot.store.boot) ∧
    (s.cutBoot.sec.counter = s.sec.counter ∨
      ∃ w c, s.store.bootWrite = some w ∧ w.confirms = some c ∧ s.cutBoot.sec.counter = c.1) := by
  unfold State.cutBoot
  split
  · next w other writes spare =>
    dsimp only
    split
    · exact ⟨.inl rfl, .inl rfl⟩
    · split
      · split
        · exact ⟨.inr spare, .inl rfl⟩
        · exact ⟨.inl rfl, .inl rfl⟩
      · next counter revoked next_ chain confirms =>
        split
        · exact ⟨.inl rfl, .inl rfl⟩
        · refine ⟨?_, .inr ⟨w, _, writes, confirms, rfl⟩⟩
          split
          · exact .inl rfl
          · exact .inr spare
  · exact ⟨.inl rfl, .inl rfl⟩

/-! ### POWER_ON_RESET -/

section PowerOnReset
variable {t : Nat} {values : Bool} {s : State} (idle : s.sec.transition = none)

/-- The part as a power-on reset leaves it, before the loss of the battery domain. -/
def State.poweredOn (s : State) (t cause : Nat) : State := (s.tickTo t).cutBoot.powerOn cause (max s.now t + 80000)

theorem exec_powerOnReset (whole : s.batteryFails values = false) : exec (.powerOnReset t values) s = .next (s.poweredOn t 0) := by
  have fails : (s.tickTo t).batteryFails values = false := whole
  show Host.Outcome.next (if (s.tickTo t).batteryFails values = true then _ else _) = _
  rw [fails]
  rfl

theorem exec_powerOnReset_lost (lost : s.batteryFails values = true) :
    exec (.powerOnReset t values) s = .next (s.poweredOn t 1).loseBattery := by
  have fails : (s.tickTo t).batteryFails values = true := lost
  show Host.Outcome.next (if (s.tickTo t).batteryFails values = true then _ else _) = _
  rw [fails]
  rfl

include idle

theorem State.cutBoot_idle : (s.tickTo t).cutBoot.sec.transition = none := by
  rw [State.cutBoot_frame]
  exact idle

variable (cause : Nat)

theorem State.poweredOn_held : HeldAfter s (s.poweredOn t cause) cause := by
  have frame := (s.tickTo t).cutBoot_frame
  refine (State.powerOn_held (State.cutBoot_idle idle) cause _).of_same ?_ ?_ ?_ ?_ <;> rw [frame] <;> rfl

theorem State.poweredOn_reset : (s.poweredOn t cause).power.reset =
    some { cause := cause, notBefore := max s.heldUntil (max s.now t + 80000) } := by
  have same : (s.tickTo t).cutBoot.heldUntil = s.heldUntil := by
    rw [State.cutBoot_frame]
    rfl
  unfold State.poweredOn
  rw [State.powerOn_reset (State.cutBoot_idle idle), same]

theorem State.poweredOn_keeps (whole : s.store.bootWrite.any (fun w => max s.now t ≤ w.at_ + Config.bootWriteTicks) = false) :
    KeepsStore s (s.poweredOn t cause) := by
  have uncut : (s.tickTo t).cutBoot = s.tickTo t := State.cutBoot_whole whole
  have keeps := State.powerOn_keeps (s := s.tickTo t) idle cause (max s.now t + 80000)
  unfold State.poweredOn
  rw [uncut]
  exact ⟨keeps.log, keeps.boot, keeps.counter⟩

theorem State.poweredOn_boot :
    ((s.poweredOn t cause).store.boot = s.store.boot ∨ s.store.bootSpare = some (s.poweredOn t cause).store.boot) ∧
    ((s.poweredOn t cause).sec.counter = s.sec.counter ∨
      ∃ w c, s.store.bootWrite = some w ∧ w.confirms = some c ∧ (s.poweredOn t cause).sec.counter = c.1) := by
  have keeps := State.powerOn_keeps (State.cutBoot_idle (t := t) idle) cause (max s.now t + 80000)
  unfold State.poweredOn
  rw [keeps.boot, keeps.counter]
  exact (s.tickTo t).cutBoot_boot

theorem State.poweredOn_vault : (s.poweredOn t cause).gate.totals = s.gate.totals ∧ (s.poweredOn t cause).sec.network = s.sec.network ∧
    (s.poweredOn t cause).sec.debugFailures = 0 := by
  obtain ⟨totals, network, failures⟩ := State.powerOn_vault (State.cutBoot_idle (t := t) idle) cause (max s.now t + 80000)
  refine ⟨totals.trans ?_, network.trans ?_, failures⟩
  · rw [State.copies_totals, State.cutBoot_frame]
    rfl
  · rw [State.cutBoot_frame]
    rfl

end PowerOnReset

/-! ### The other kinds -/

section Kinds
variable {t : Nat} {s : State}

/-- A short low level of RESET_N does nothing (R441). -/
theorem exec_resetN_short {low : Nat} (short : low < 100) : exec (.resetN t low) s = .next (s.tickTo t) :=
  congrArg Host.Outcome.next (if_pos short)

theorem exec_resetN {low : Nat} (long : 100 ≤ low) (on : s.phase ≠ .held) :
    exec (.resetN t low) s = .next ((s.tickTo t).resetNow 2 (max s.now t + (low * 16 + 999) / 1000)) :=
  congrArg Host.Outcome.next ((if_neg (Nat.not_lt.2 long)).trans (if_neg on))

/-- RESET_N of a part held prolongs the reset (R441). -/
theorem resetN_prolongs {low : Nat} {r : PendingReset} (long : 100 ≤ low) (held : s.phase = .held) (reset : s.power.reset = some r) :
    Leads (.resetN t low) s (fun u => u.phase = .held ∧
      u.power.reset = some { r with notBefore := max r.notBefore (max s.now t + (low * 16 + 999) / 1000) }) := by
  refine ⟨_, congrArg Host.Outcome.next ((if_neg (Nat.not_lt.2 long)).trans (if_pos held)), held, ?_⟩
  show (s.power.reset.map _) = _
  rw [reset]
  rfl

theorem exec_watchdogExpiry (armed : s.power.watchdog = true) (on : s.phase ≠ .held) (main : s.phase ≠ .gatehouse)
    (due : s.power.watchdogAt + 8000000 ≤ max s.now t) :
    exec (.watchdogExpiry t) s = .next ((s.tickTo t).resetNow 5 (max s.now t + 16000)) := by
  refine congrArg Host.Outcome.next (if_pos ?_)
  simp only [Bool.and_eq_true, decide_eq_true_eq]
  exact ⟨⟨⟨armed, on⟩, main⟩, due⟩

theorem exec_watchdogExpiry_early (early : max s.now t < s.power.watchdogAt + 8000000) : exec (.watchdogExpiry t) s = .next (s.tickTo t) := by
  refine congrArg Host.Outcome.next (if_neg ?_)
  simp only [Bool.and_eq_true, decide_eq_true_eq]
  exact fun due => absurd due.2 (Nat.not_le.2 early)

/-- A reset that takes the part out of operation, as RESET_N and the watchdog do. -/
theorem State.resetNow_leaves (idle : s.sec.transition = none) (on : s.phase ≠ .held) (cause until_ : Nat) :
    HeldAfter s ((s.tickTo t).resetNow cause until_) cause ∧ KeepsStore s ((s.tickTo t).resetNow cause until_) ∧
      ∃ r, ((s.tickTo t).resetNow cause until_).power.reset = some r ∧ r.notBefore = max s.heldUntil until_ := by
  rw [State.resetNow_eq (s := s.tickTo t) idle, State.heldUntil_on on, Nat.zero_max]
  have held := (s.tickTo t).enterReset_held cause until_
  have keeps := (s.tickTo t).enterReset_keeps cause until_
  exact ⟨held.of_same rfl rfl rfl rfl, ⟨keeps.log, keeps.boot, keeps.counter⟩, _, rfl, rfl⟩

end Kinds

end Sys2Proof.Machine
end

section
/-! SUPPORT. The resets: the obligation, from the lemmas on each kind. -/

open Sys2Proof.Machine

/-- Settles O57: each kind of reset is `enterReset`, over the state that the cut of a write of the boot table leaves for a power loss. -/
theorem resetsKeepTheStore : Obligations.ResetsKeepTheStore := by
  unfold Obligations.ResetsKeepTheStore
  intro t s idle now held keeps before waits cut
  have all {u : State} {cause : Nat} (h : HeldAfter s u cause) : held u cause :=
    ⟨h.phase, h.cause, h.owner, h.sessions, h.live, h.journal, h.lifecycle, h.slots, h.pending, h.engine, h.linkKey, h.debugOpen⟩
  have kept {u : State} (h : KeepsStore s u) : keeps u := ⟨h.log, h.boot, h.counter⟩
  refine ⟨fun values => ⟨fun whole => ?_, fun lost => ?_, fun _ => ?_⟩, fun low => ⟨exec_resetN_short, fun long on => ?_,
    fun r => resetN_prolongs⟩, fun armed on main => ⟨fun due => ?_, exec_watchdogExpiry_early⟩, ?_, ?_⟩
  case refine_1 =>
    obtain ⟨totals, network, failures⟩ := State.poweredOn_vault (t := t) idle 0
    exact ⟨_, exec_powerOnReset whole, all (State.poweredOn_held idle 0), ⟨_, State.poweredOn_reset idle 0, rfl⟩,
      fun uncut => kept (State.poweredOn_keeps idle 0 uncut), totals, network, failures⟩
  case refine_2 =>
    exact ⟨_, exec_powerOnReset_lost lost, all (State.poweredOn_held idle 1).loseBattery, ⟨_, State.poweredOn_reset idle 1, rfl⟩,
      fun uncut => kept (State.poweredOn_keeps idle 1 uncut).loseBattery, rfl, rfl, rfl, rfl⟩
  case refine_3 =>
    cases fails : s.batteryFails values with
    | false => exact ⟨_, exec_powerOnReset fails, State.poweredOn_boot idle 0⟩
    | true => exact ⟨_, exec_powerOnReset_lost fails, State.poweredOn_boot idle 1⟩
  case refine_4 =>
    obtain ⟨after, keeps, reset⟩ := State.resetNow_leaves (t := t) idle on 2 (max s.now t + (low * 16 + 999) / 1000)
    exact ⟨_, exec_resetN long on, all after, kept keeps, reset⟩
  case refine_5 =>
    obtain ⟨after, keeps, reset⟩ := State.resetNow_leaves (t := t) idle on 5 (max s.now t + 16000)
    exact ⟨_, exec_watchdogExpiry armed on main due, all after, kept keeps, reset⟩
  case refine_6 =>
    obtain ⟨after, keeps, reset, failures⟩ := State.tickTo_powerOn (t := t) idle 8 (max s.now t + 80000)
    exact ⟨_, rfl, all after, kept keeps, reset, failures⟩
  case refine_7 =>
    obtain ⟨after, keeps, reset, -⟩ := State.tickTo_powerOn (t := t) idle 7 (max s.now t + 80000)
    exact ⟨_, rfl, all after.referenceLost, kept ⟨keeps.log, keeps.boot, keeps.counter⟩, reset, rfl⟩

end

section
/-! SUPPORT. The outline of a state: the numbers of its objects, where the part stands, the sessions that are open and who owns the
part. All but a few operations leave it, and the lemmas below say so, one for each operation of the model and in its order. -/

namespace Sys2Proof.Machine

/-- What of a state a command may change only where its rules say that objects, sessions or ownership change, or that the part moves on. -/
structure Outline where
  objects : List Nat
  phase : Phase
  opens : List Bool
  owner : Option Nat
  election : Option Election

def State.outline (s : State) : Outline where
  objects := s.shape
  phase := s.phase
  opens := s.host.sessions.map Session.isOpen
  owner := s.host.owner
  election := s.host.election

/-- An update that leaves the phase leaves the outline where it leaves the number of each object, and of the host's
state which sessions are open, the owner and the election. -/
theorem State.outline_update (s : State) {host : HostState} {clock : ClockState} {channels : List Channel} {converters : List Converter}
    {dies : List Die} {samplePhase : Nat} {timers : List Timer} {tracker : Tracker} {captures : List Capture} {sweep : SweepState}
    {cal : CalState} {meas : MeasState} {bill : BillState} {line : LineState} {mesh : MeshState} {store : StoreState} {sec : SecurityState}
    {health : HealthState} {gate : GatehouseState} {power : PowerState} {pins : PinState} {draws : Nat}
    (opens : host.sessions.map Session.isOpen = s.host.sessions.map Session.isOpen) (owner : host.owner = s.host.owner)
    (election : host.election = s.host.election) (sameChannels : channels.length = s.channels.length)
    (sameConverters : converters.length = s.converters.length) (sameDies : dies.length = s.dies.length)
    (sameTimers : timers.length = s.timers.length) (sameCaptures : captures.length = s.captures.length)
    (groups : bill.groups.length = s.bill.groups.length) (tamp : bill.tamp.length = s.bill.tamp.length) :
    State.outline { s with
      host := host, clock := clock, channels := channels, converters := converters, dies := dies, samplePhase := samplePhase
      timers := timers, tracker := tracker, captures := captures, sweep := sweep, cal := cal, meas := meas, bill := bill, line := line
      mesh := mesh, store := store, sec := sec, health := health, gate := gate, power := power, pins := pins, draws := draws } =
      s.outline := by
  have sessions : host.sessions.length = s.host.sessions.length := by
    have count := congrArg List.length opens
    rwa [List.length_map, List.length_map] at count
  simp only [State.outline, State.shape, opens, owner, election, sameChannels, sameConverters, sameDies, sameTimers, sameCaptures, groups, tamp,
    sessions]

@[simp] theorem State.tickTo_outline (s : State) (t : Nat) : (s.tickTo t).outline = s.outline := rfl

/-- The outline of a choice. -/
theorem State.outline_ite {c : Prop} [Decidable c] (a b : State) : (if c then a else b).outline = if c then a.outline else b.outline :=
  apply_ite State.outline c a b

/-- A choice between two states of one outline has it. -/
theorem State.outline_of_ite {c : Prop} [Decidable c] {a b s : State} (yes : a.outline = s.outline) (no : b.outline = s.outline) :
    (if c then a else b).outline = s.outline := by
  rw [State.outline_ite, yes, no, ite_self]

/-- What every step of a fold leaves of the outline, the fold leaves. -/
theorem outline_foldl {α : Type} (op : State → α → State) (keeps : ∀ u a, (op u a).outline = u.outline) (l : List α) (s : State) :
    (l.foldl op s).outline = s.outline := foldl_keeps State.outline op keeps l s

/-- The same of a fold that collects results beside the state. What a step gives is named, so that checking a use compares no two steps. -/
theorem outline_foldl_pair {α β : Type} (op : State × β → α → State × β)
    (keeps : ∀ r a v b, op r a = (v, b) → v.outline = r.1.outline) (l : List α) (r : State × β) :
    (l.foldl op r).1.outline = r.1.outline :=
  foldl_keeps (fun r : State × β => r.1.outline) op (fun r a => keeps r a _ _ rfl) l r

/-! ### Setters, events and operations -/

@[simp] theorem State.setChan_outline (s : State) (n : Nat) (f : Channel → Channel) : (s.setChan n f).outline = s.outline := by
  simp [State.setChan, ↓State.outline_update]

@[simp] theorem State.setConv_outline (s : State) (u : Nat) (f : Converter → Converter) : (s.setConv u f).outline = s.outline := by
  simp [State.setConv, ↓State.outline_update]

@[simp] theorem State.setDie_outline (s : State) (d : Nat) (f : Die → Die) : (s.setDie d f).outline = s.outline := by
  simp [State.setDie, ↓State.outline_update]

@[simp] theorem State.setSide_outline (s : State) (d : Nat) (f : SideSlice → SideSlice) : (s.setSide d f).outline = s.outline :=
  State.setDie_outline ..

@[simp] theorem State.setLink_outline (s : State) (d : Nat) (f : Link → Link) : (s.setLink d f).outline = s.outline := State.setDie_outline ..

/-- A session changed stays open, or closed. -/
theorem State.setSession_outline (s : State) (k : Nat) {f : Session → Session} (same : ∀ x, (f x).isOpen = x.isOpen) :
    (s.setSession k f).outline = s.outline := by
  unfold State.setSession
  exact State.outline_update s (map_alter (same _)) rfl rfl rfl rfl rfl rfl rfl rfl rfl

@[simp] theorem State.logAppend_outline (s : State) (kind time : Nat) (body : List Byte) : (s.logAppend kind time body).outline = s.outline := by
  rw [State.logAppend_frame]
  rfl

@[simp] theorem State.queueAll_outline (s : State) (source time : Nat) (body : List Byte) : (s.queueAll source time body).outline = s.outline := by
  simp [State.queueAll, ↓State.outline_update, Function.comp_def]

@[simp] theorem State.raise_outline (s : State) (source time : Nat) (body : List Byte) : (s.raise source time body).outline = s.outline := by
  rw [State.raise_frame]
  simp [↓State.outline_update, Function.comp_def]

@[simp] theorem State.raiseTo_outline (s : State) (k source time : Nat) (body : List Byte) : (s.raiseTo k source time body).outline = s.outline :=
  State.setSession_outline s k (fun _ => Session.offer_isOpen ..)

@[simp] theorem State.draw_outline (s : State) : s.draw.2.outline = s.outline := rfl

@[simp] theorem State.setCarrier_outline (s : State) (n : Nat) (c : Carrier) (interrupted : Bool) :
    (s.setCarrier n c interrupted).outline = s.outline := State.setChan_outline ..

@[simp] theorem State.pick_outline (s : State) (l : List Nat) : (s.pick l).2.outline = s.outline := by
  unfold State.pick
  split <;> simp

/-- The same where the choice has been taken apart. -/
theorem State.outline_of_pick {s u : State} {l : List Nat} {k : Option Nat} (picked : s.pick l = (k, u)) : u.outline = s.outline := by
  rw [← State.pick_outline s l, picked]

end Sys2Proof.Machine
end

section
/-! SUPPORT. The operations of the model leave the outline of a state, in the model's order. -/

namespace Sys2Proof.Machine

/-! ### Time -/

@[simp] theorem State.reanchor_outline (s : State) : s.reanchor.outline = s.outline := by
  simp [State.reanchor, ↓State.outline_update]

/-! ### Health log (R355) -/

@[simp] theorem State.healthLog_outline (s : State) (e : HealthEntry) : (s.healthLog e).outline = s.outline := by
  simp [State.healthLog, ↓State.outline_update]

@[simp] theorem State.repair_outline (s : State) (e : HealthEntry) : (s.repair e).outline = s.outline := by
  simp [State.repair]

/-! ### Accepted operations (R54-R56) -/

@[simp] theorem State.startOp_outline (s : State) (opcode handle session : Nat) :
    (s.startOp opcode handle session).2.outline = s.outline := by
  simp [State.startOp, ↓State.outline_update]

@[simp] theorem State.completeOp_outline (s : State) (tag status : Nat) (detail : List Byte) :
    (s.completeOp tag status detail).outline = s.outline := by
  unfold State.completeOp
  split <;> simp [↓State.outline_update]

/-! ### ALARM_N (R98, R20) -/

@[simp] theorem State.alarmExit_outline (s : State) (channel : Nat) (slow : Bool) : (s.alarmExit channel slow).outline = s.outline := by
  simp [State.alarmExit, ↓State.outline_update]

@[simp] theorem State.alarmClear_outline (s : State) (channel : Nat) (slow : Bool) : (s.alarmClear channel slow).outline = s.outline := by
  simp [State.alarmClear, ↓State.outline_update]

/-! ### IRQ lines (R41) -/

@[simp] theorem State.setPort_outline (s : State) (p : Port) (f : PortState → PortState) : (s.setPort p f).outline = s.outline := by
  unfold State.setPort
  split <;> simp [↓State.outline_update]

/-! ### Forming a reply (Table 2.4) -/

@[simp] theorem State.queueReply_outline (s : State) (p : Port) (x : Reply) : (s.queueReply p x).outline = s.outline := by
  simp [State.queueReply]

@[simp] theorem State.answer_outline (s : State) (r : Req) (status : Nat) (payload : List Byte) :
    (s.answer r status payload).outline = s.outline := by
  unfold State.answer
  dsimp only
  split
  · rw [State.setSession_outline, State.queueReply_outline]
    exact fun _ => rfl
  · rw [State.queueReply_outline]

@[simp] theorem State.answerUnstored_outline (s : State) (r : Req) (status : Nat) : (s.answerUnstored r status).outline = s.outline := by
  simp [State.answerUnstored]

/-! ### The order of requests (R40, R45, R49) -/

@[simp] theorem State.take_outline (s : State) (p : Port) : (s.take p).outline = s.outline := by
  simp [State.take]

/-! ### Settling suppression (R127, Table 4.10) -/

@[simp] theorem State.disturbNarrow_outline (s : State) (u : Nat) : (s.disturbNarrow u).outline = s.outline := by
  simp [State.disturbNarrow]

@[simp] theorem State.disturb_outline (s : State) (u : Nat) : (s.disturb u).outline = s.outline := by
  unfold State.disturb
  split <;> simp

@[simp] theorem State.cutOver_outline (s : State) (n old new : Nat) : (s.cutOver n old new).outline = s.outline := by
  simp [State.cutOver]

/-! ### Window comparators (R94-R99) -/

@[simp] theorem State.rearm_outline (s : State) (n : Nat) (slow : Bool) : (s.rearm n slow).outline = s.outline := by
  simp [State.rearm]

@[simp] theorem State.windowSees_outline (s : State) (n : Nat) (slow : Bool) (value : Int) (time : Nat) :
    (s.windowSees n slow value time).1.outline = s.outline := by
  unfold State.windowSees
  dsimp only
  split <;> simp [↓State.outline_ite]

/-! ### Transient buffers (R136-R139) -/

@[simp] theorem State.setCapture_outline (s : State) (r : Nat) (f : Capture → Capture) : (s.setCapture r f).outline = s.outline := by
  simp [State.setCapture, ↓State.outline_update]

@[simp] theorem State.captureTrigger_outline (s : State) (r cause tick : Nat) : (s.captureTrigger r cause tick).outline = s.outline := by
  simp [State.captureTrigger, ↓State.outline_ite]

@[simp] theorem State.record_outline (s : State) (u index : Nat) (code : Int) (flags : Nat) :
    (s.record u index code flags).outline = s.outline := by
  simp [State.record, outline_foldl]

/-! ### Synchronising resets (R128, R106, R135, R139) -/

@[simp] theorem State.settleDrains_outline (s : State) (d : Nat) : (s.settleDrains d).outline = s.outline := by
  simp [State.settleDrains, ↓State.outline_update]

@[simp] theorem State.syncDie_outline (s : State) (d c : Nat) : (s.syncDie d c).outline = s.outline := by
  simp [State.syncDie, ↓State.outline_update, outline_foldl]

@[simp] theorem State.syncTracker_outline (s : State) (dies : List Nat) : (s.syncTracker dies).outline = s.outline := by
  simp [State.syncTracker, ↓State.outline_update, ↓State.outline_ite]

@[simp] theorem State.syncAt_outline (s : State) (dies : List Nat) (c : Nat) : (s.syncAt dies c).outline = s.outline := by
  simp [State.syncAt, outline_foldl]

/-! ### Health entries -/

@[simp] theorem State.noteOf_outline (s : State) (kind outcome handle carrier rung detail : Nat) :
    (s.noteOf kind outcome handle carrier rung detail).outline = s.outline := by
  simp [State.noteOf]

@[simp] theorem State.note_outline (s : State) (kind outcome handle carrier rung : Nat) :
    (s.note kind outcome handle carrier rung).outline = s.outline := by
  simp [State.note]

/-! ### Carriers (R352) -/

@[simp] theorem State.lose_outline (s : State) (n : Nat) : (s.lose n).outline = s.outline := by
  simp [State.lose, ↓State.outline_ite]

@[simp] theorem State.carry_outline (s : State) (n : Nat) (c : Carrier) : (s.carry n c).outline = s.outline := by
  unfold State.carry
  extract_lets was u'
  have kept : u'.outline = s.outline := by simp [u']
  split
  · rw [State.note_outline, kept]
  · exact kept

@[simp] theorem State.goHome_outline (s : State) (n : Nat) : (s.goHome n).outline = s.outline := by
  simp [State.goHome, ↓State.outline_ite]

/-! ### Lanes (R344) -/

@[simp] theorem State.pauseChecker_outline (s : State) (k : Nat) : (s.pauseChecker k).outline = s.outline := by
  simp [State.pauseChecker, ↓State.outline_update, ↓State.outline_ite]

@[simp] theorem State.release_outline (s : State) (k : Nat) : (s.release k).outline = s.outline := by
  simp [State.release]

@[simp] theorem State.letGo_outline (s : State) (k : Nat) : (s.letGo k).outline = s.outline := by
  simp [State.letGo]

@[simp] theorem State.pauseRotation_outline (s : State) : s.pauseRotation.outline = s.outline := by
  unfold State.pauseRotation
  split <;> simp [↓State.outline_update]

@[simp] theorem State.assign_outline (s : State) (k n prec : Nat) : (s.assign k n prec).outline = s.outline := by
  simp [State.assign]

/-! ### Channel substitution (R345) -/

@[simp] theorem State.substitute_outline (s : State) (n k : Nat) : (s.substitute n k).outline = s.outline := by
  simp [State.substitute, ↓State.outline_update, ↓State.outline_ite]

@[simp] theorem State.keepLane_outline (s : State) (n k : Nat) : (s.keepLane n k).outline = s.outline := by
  unfold State.keepLane
  extract_lets u _ v waits rest
  have keptU : u.outline = s.outline := State.setConv_outline ..
  have kept : v.outline = s.outline := by
    refine State.outline_of_ite ?_ keptU
    simp [↓State.outline_update, keptU]
  simp [↓State.outline_update, kept]

@[simp] theorem State.substituteIfFree_outline (s : State) (n : Nat) : (s.substituteIfFree n).outline = s.outline := by
  unfold State.substituteIfFree
  split
  · next picked => exact State.outline_of_pick picked
  · next picked => rw [State.substitute_outline, State.outline_of_pick picked]

/-! ### Slices and benches (R340-R342) -/

@[simp] theorem State.benchFails_outline (s : State) (u b : Nat) : (s.benchFails u b).outline = s.outline := by
  unfold State.benchFails
  extract_lets old failed repaired held noted dead settled
  have keptHeld : held.outline = s.outline := by simp [held, repaired, failed, ↓State.outline_ite]
  have keptNoted : noted.outline = s.outline := by simp [noted, keptHeld]
  have keptSettled : settled.outline = s.outline := by
    refine State.outline_of_ite ?_ keptNoted
    split
    · simp [keptNoted]
    · simp [keptNoted, ↓State.outline_ite]
  refine State.outline_of_ite (State.outline_of_ite ?_ keptSettled) keptNoted
  split
  · simp [↓State.outline_update, keptSettled]
  · simp [keptSettled]

@[simp] theorem State.settleBench_outline (s : State) (u b : Nat) (failing : List Nat) :
    (s.settleBench u b failing).outline = s.outline := by
  unfold State.settleBench
  split <;> simp [↓State.outline_ite]

@[simp] theorem State.settleSlices_outline (s : State) (u : Nat) : (s.settleSlices u).outline = s.outline := by
  simp [State.settleSlices, ↓State.outline_ite]

@[simp] theorem State.sliceFails_outline (s : State) (u e : Nat) : (s.sliceFails u e).outline = s.outline := by
  unfold State.sliceFails
  refine State.outline_of_ite rfl ?_
  extract_lets v
  have kept : v.outline = s.outline := State.setConv_outline ..
  split
  · split
    · next picked => rw [State.settleSlices_outline, State.outline_of_pick picked, kept]
    · next picked => simp [↓State.outline_update, State.outline_of_pick picked, kept]
  · simp [↓State.outline_ite, kept]

/-! ### A sweep without results (R158, R162) -/

@[simp] theorem State.setCal_outline (s : State) (u : Nat) (f : Calibration → Calibration) : (s.setCal u f).outline = s.outline := by
  simp [State.setCal]

@[simp] theorem State.sweepEvent_outline (s : State) (u kind : Nat) (outcomes : List Byte) (rms slope : Nat) :
    (s.sweepEvent u kind outcomes rms slope).outline = s.outline := by
  simp [State.sweepEvent]

@[simp] theorem State.abortUnit_outline (s : State) (u : Nat) : (s.abortUnit u).outline = s.outline := by
  simp [State.abortUnit]

/-! ### Interruption of a swept channel (R147, R150) -/

@[simp] theorem State.interrupt_outline (s : State) (u : Nat) (bridge : Option Nat) : (s.interrupt u bridge).outline = s.outline := by
  unfold State.interrupt
  extract_lets v
  have kept : v.outline = s.outline := by
    unfold v
    split
    · split <;> simp
    · rfl
  simp [↓State.outline_update, kept]

@[simp] theorem State.sweepLosesLane_outline (s : State) (k : Nat) : (s.sweepLosesLane k).outline = s.outline := by
  unfold State.sweepLosesLane
  dsimp only
  (repeat' split) <;> simp [↓State.outline_update]

/-! ### Preemption (Table 11.2) -/

@[simp] theorem State.evict_outline (s : State) (k : Nat) : (s.evict k).outline = s.outline := by
  unfold State.evict
  split <;> simp [↓State.outline_update, ↓State.outline_ite]

@[simp] theorem State.startConfirming_outline (s : State) (n first k : Nat) : (s.startConfirming n first k).outline = s.outline := by
  unfold State.startConfirming
  extract_lets u
  have kept : u.outline = s.outline := by simp [u]
  simp [↓State.outline_update, kept]

@[simp] theorem State.lanesFreed_outline (s : State) : s.lanesFreed.outline = s.outline := by
  unfold State.lanesFreed
  extract_lets u
  have kept : u.outline = s.outline := by
    refine outline_foldl _ (fun v n => ?_) _ _
    split <;> simp
  split
  · exact kept
  · split
    · next picked => rw [State.outline_of_pick picked, kept]
    · next picked => rw [State.startConfirming_outline, State.outline_of_pick picked, kept]

/-! ### Die substitution (R350) -/

@[simp] theorem State.substituteDie_outline (s : State) (d : Nat) : (s.substituteDie d).outline = s.outline := by
  unfold State.substituteDie
  extract_lets home evicted lanes selected _ settling
  have keptHome : home.outline = s.outline := by
    refine outline_foldl _ (fun u k => ?_) _ _
    split
    · refine State.outline_of_ite ?_ rfl
      extract_lets back
      have keptBack : back.outline = u.outline := State.setCarrier_outline ..
      rw [State.release_outline]
      simp [↓State.outline_update, keptBack]
    · rfl
  have keptEvicted : evicted.outline = s.outline := by
    refine (outline_foldl _ (fun u p => outline_foldl _ (fun v k => ?_) _ _) _ _).trans keptHome
    exact State.outline_of_ite (State.evict_outline ..) rfl
  have keptSelected : selected.outline = s.outline := by
    refine (outline_foldl _ (fun u j => ?_) _ _).trans keptEvicted
    dsimp only
    split
    · simp [↓State.outline_ite]
    · exact State.lose_outline ..
  simp [settling, ↓State.outline_update, keptSelected]

/-! ### Pair check (R339, R340) -/

@[simp] theorem State.blame_outline (s : State) (u e now : Nat) : (s.blame u e now).outline = s.outline := by
  simp [State.blame, ↓State.outline_ite]

/-! ### Delivery of one raw sample -/

@[simp] theorem State.deliverRaw_outline (s : State) (u index : Nat) (code : Int) (flags : Nat) :
    (s.deliverRaw u index code flags).outline = s.outline := by
  unfold State.deliverRaw
  dsimp only
  split <;> simp [↓State.outline_ite, outline_foldl]

@[simp] theorem State.patchHeld_outline (s : State) (u : Nat) (next : Int) : (s.patchHeld u next).outline = s.outline := by
  unfold State.patchHeld
  dsimp only
  (repeat' split) <;> simp

/-! ### Over-range (R79-R82) -/

@[simp] theorem State.overRangeStarts_outline (s : State) (n tick : Nat) (negative : Bool) :
    (s.overRangeStarts n tick negative).outline = s.outline := by
  simp [State.overRangeStarts, ↓State.outline_ite]

@[simp] theorem State.overRange_outline (s : State) (u tick flags : Nat) (negative : Bool) :
    (s.overRange u tick flags negative).outline = s.outline := by
  unfold State.overRange
  split <;> simp [↓State.outline_ite, outline_foldl]

/-! ### The capture of a sweep (R142, R152) -/

@[simp] theorem State.captureSample_outline (s : State) (u pos tick flags : Nat) (b : BenchSample) :
    (s.captureSample u pos tick flags b).outline = s.outline := by
  unfold State.captureSample
  extract_lets w code v
  have kept : v.outline = s.outline := State.setConv_outline ..
  split
  · exact kept
  · simp [↓State.outline_update, kept]

@[simp] theorem State.sampleUnit_outline (s : State) (u index tick : Nat) (b : BenchSample) :
    (s.sampleUnit u index tick b).outline = s.outline := by
  simp [State.sampleUnit, ↓State.outline_ite]

@[simp] theorem State.gateSample_outline (s : State) (u index : Nat) (b : BenchSample) : (s.gateSample u index b).outline = s.outline := by
  unfold State.gateSample
  dsimp only
  split <;> simp

/-! ### Outcomes (R152, R153, R156-R158) -/

@[simp] theorem State.applySweep_outline (s : State) (d : SweepDone) (o : List Nat) (m : SweepMeasure) :
    (s.applySweep d o m).outline = s.outline := by
  simp [State.applySweep, ↓State.outline_update, ↓State.outline_ite]

/-! ### Operations (R145, R159) -/

@[simp] theorem State.setRunning_outline (s : State) (f : SweepOp → SweepOp) : (s.setRunning f).outline = s.outline := by
  simp [State.setRunning, ↓State.outline_update]

@[simp] theorem State.endSweepOp_outline (s : State) (status : Nat) : (s.endSweepOp status).outline = s.outline := by
  unfold State.endSweepOp
  split <;> simp [↓State.outline_update]

@[simp] theorem State.finishSweepOp_outline (s : State) : s.finishSweepOp.outline = s.outline := by
  unfold State.finishSweepOp
  split <;> simp [↓State.outline_ite]

/-! ### Aborts (R162) -/

@[simp] theorem State.resume_outline (s : State) (u : Nat) : (s.resume u).outline = s.outline := by
  simp [State.resume, ↓State.outline_ite]

@[simp] theorem State.abortSweep_outline (s : State) (status : Nat) (restore : Bool) :
    (s.abortSweep status restore).outline = s.outline := by
  unfold State.abortSweep
  split
  · rfl
  · extract_lets w started aborted freed _ cleared ended released
    have keptAborted : aborted.outline = s.outline := outline_foldl _ (fun _ _ => State.abortUnit_outline ..) _ _
    have keptFreed : freed.outline = s.outline := by
      unfold freed
      split <;> simp [keptAborted]
    have kept : ended.outline = s.outline := by simp [ended, cleared, ↓State.outline_update, keptFreed]
    have keptReleased : released.outline = s.outline := by
      unfold released
      split <;> simp [kept]
    split
    · exact kept
    · refine State.outline_of_ite ?_ (State.outline_of_ite ?_ ?_)
      · simp [↓State.outline_update, keptReleased]
      · dsimp only
        simp [↓State.outline_update, ↓State.outline_ite, kept]
      · extract_lets resumed last
        have keptLast : last.outline = s.outline := by
          unfold last
          split <;> simp [resumed, kept]
        simp [↓State.outline_update, keptLast]

/-! ### Turns (R145-R147, R151) -/

@[simp] theorem State.skipUnit_outline (s : State) (u : Nat) : (s.skipUnit u).outline = s.outline := by
  simp [State.skipUnit]

@[simp] theorem State.startUnit_outline (s : State) (u temperature reference excitation : Nat) :
    (s.startUnit u temperature reference excitation).outline = s.outline := by
  unfold State.startUnit
  extract_lets counted side _ w v
  have kept : w.outline = s.outline := by simp [w, side, counted, ↓State.outline_update]
  split
  · split
    · next picked => rw [State.interrupt_outline, State.outline_of_pick picked, kept]
    · next picked => simp [↓State.outline_update, State.outline_of_pick picked, kept]
  · simp [v, kept]

@[simp] theorem turnFrom_outline (fuel reference temperature : Nat) (s : State) :
    (turnFrom fuel reference temperature s).outline = s.outline := by
  induction fuel generalizing s with
  | zero => rfl
  | succ fuel ih =>
    unfold turnFrom
    dsimp only
    repeat' split
    all_goals simp [ih]

@[simp] theorem correlateFrom_outline (fuel reference temperature : Nat) (s : State) :
    (correlateFrom fuel reference temperature s).outline = s.outline := by
  induction fuel generalizing s with
  | zero => rfl
  | succ fuel ih =>
    unfold correlateFrom
    split
    · rfl
    · split
      · rfl
      · refine State.outline_of_ite rfl (State.outline_of_ite ?_ (State.outline_of_ite rfl ?_))
        · simp [ih]
        · split
          · next picked => exact State.outline_of_pick picked
          · next picked => simp [↓State.outline_update, State.outline_of_pick picked]

@[simp] theorem State.promoteNext_outline (s : State) : s.promoteNext.outline = s.outline := by
  unfold State.promoteNext
  split <;> simp [↓State.outline_update, ↓State.outline_ite]

@[simp] theorem State.endInterruption_outline (s : State) (u : Nat) : (s.endInterruption u).outline = s.outline := by
  unfold State.endInterruption
  dsimp only
  (repeat' split) <;> simp [↓State.outline_update]

/-! ### Trigger sources and actions (R89-R93) -/

@[simp] theorem State.setTrigger_outline (s : State) (c : Consumer) (f : Trigger → Trigger) : (s.setTrigger c f).outline = s.outline := by
  unfold State.setTrigger
  split <;> simp

@[simp] theorem State.missTrigger_outline (s : State) (c : Consumer) : (s.missTrigger c).outline = s.outline := by
  unfold State.missTrigger
  split <;> simp

@[simp] theorem State.endInject_outline (s : State) (c : Conv) (status : Nat) (payload : List Byte) :
    (s.endInject c status payload).outline = s.outline := by
  unfold State.endInject
  split
  · rfl
  · rw [State.answer_outline, State.setSession_outline]
    exact fun _ => rfl

@[simp] theorem State.enqueueTrigger_outline (s : State) (d a : Nat) (codes : List Nat) :
    (s.enqueueTrigger d a codes).outline = s.outline := by
  unfold State.enqueueTrigger
  extract_lets q kept mine list answered
  refine State.outline_of_ite (State.missTrigger_outline ..) ((State.setSide_outline ..).trans ?_)
  refine foldl_keeps (fun r : State × List Conv => r.1.outline) _ (fun r k => ?_) _ _
  dsimp only
  split
  · rfl
  · cases (mine.filter (fun c => c.session = k)).head? with
    | none => rfl
    | some c => exact State.endInject_outline ..

@[simp] theorem State.triggerActs_outline (s : State) (c : Consumer) : (s.triggerActs c).outline = s.outline := by
  unfold State.triggerActs
  dsimp only
  (repeat' split) <;> simp

@[simp] theorem State.fireSource_outline (s : State) (sources : List Nat) (quarter : Nat) :
    (s.fireSource sources quarter).outline = s.outline := by
  simp [State.fireSource, ↓State.outline_ite, outline_foldl]

/-! ### PWMIN edges (R92) -/

@[simp] theorem State.settlePin_outline (s : State) (pin quarter : Nat) : (s.settlePin pin quarter).outline = s.outline := by
  unfold State.settlePin
  split <;> simp [↓State.outline_update, ↓State.outline_ite]

@[simp] theorem State.settlePwm_outline (s : State) : s.settlePwm.outline = s.outline := by
  simp [State.settlePwm]

/-! ### Side slice (R84-R86) -/

@[simp] theorem State.answerInject_outline (s : State) (d : Nat) (c : Conv) : (s.answerInject d c).outline = s.outline := by
  simp [State.answerInject]

@[simp] theorem State.dropSide_outline (s : State) (d : Nat) : (s.dropSide d).outline = s.outline := by
  simp [State.dropSide, outline_foldl]

@[simp] theorem State.conversionEvent_outline (s : State) (d : Nat) : (s.conversionEvent d).outline = s.outline := by
  simp [State.conversionEvent]

/-! ### Capture rings (R137, R138, R394-R397) -/

@[simp] theorem State.overtakeMarks_outline (s : State) (r : Nat) : (s.overtakeMarks r).outline = s.outline := by
  unfold State.overtakeMarks
  refine outline_foldl _ (fun u k => ?_) _ _
  dsimp only
  rw [outline_foldl _ (fun _ _ => State.raise_outline ..), State.setSession_outline]
  exact fun _ => rfl

@[simp] theorem State.writeCapture_outline (s : State) (r : Nat) (x : PendingRecord) : (s.writeCapture r x).outline = s.outline := by
  simp [State.writeCapture, ↓State.outline_update]

/-! ### Acquisition -/

@[simp] theorem State.disturbChannel_outline (s : State) (n : Nat) : (s.disturbChannel n).outline = s.outline := by
  simp [State.disturbChannel, ↓State.outline_ite, outline_foldl]

/-! ### CH_CONFIG (R100) -/

@[simp] theorem State.configure_outline (s : State) (n : Nat) (enabled : Bool) (mode : Nat) (forwarding : Bool) :
    (s.configure n enabled mode forwarding).outline = s.outline := by
  unfold State.configure
  dsimp only
  split <;> simp [↓State.outline_ite]

/-! ### TRIG_CONFIG (R89-R91) -/

@[simp] theorem State.fireUntil_outline (s : State) (k tick : Nat) : (s.fireUntil k tick).outline = s.outline := by
  simp [State.fireUntil, ↓State.outline_ite, outline_foldl]

/-! ### SYNC (R128) -/

@[simp] theorem State.synchronise_outline (s : State) (dies : List Nat) : (s.synchronise dies).outline = s.outline := by
  simp [State.synchronise, ↓State.outline_ite]

/-! ### Live contexts -/

@[simp] theorem State.setCtx_outline (s : State) (serial : Nat) (f : Context → Context) : (s.setCtx serial f).outline = s.outline := by
  simp [State.setCtx, ↓State.outline_update]

@[simp] theorem State.putCtx_outline (s : State) (c : Context) : (s.putCtx c).outline = s.outline := by
  simp [State.putCtx]

@[simp] theorem State.eachCtx_outline (s : State) (f : State → Context → State) (keeps : ∀ u c, (f u c).outline = u.outline) :
    (s.eachCtx f).outline = s.outline := by
  refine outline_foldl _ (fun u n => ?_) _ _
  split
  · exact keeps ..
  · rfl

/-! ### The journal (R387) -/

@[simp] theorem State.journalAdd_outline (s : State) (r : JournalRecord) : (s.journalAdd r).outline = s.outline := by
  simp [State.journalAdd, ↓State.outline_update, ↓State.outline_ite]

@[simp] theorem State.journalCtx_outline (s : State) (c : Context) (type code time : Nat) (provisional : Bool) :
    (s.journalCtx c type code time provisional).outline = s.outline := by
  simp [State.journalCtx, ↓State.outline_ite]

@[simp] theorem State.journalFeed_outline (s : State) (serial : Nat) (bytes : List Byte) :
    (s.journalFeed serial bytes).outline = s.outline := by
  simp [State.journalFeed, ↓State.outline_ite]

@[simp] theorem State.journalSettings_outline (s : State) : s.journalSettings.outline = s.outline := by
  simp [State.journalSettings]

@[simp] theorem State.journalBalance_outline (s : State) (group : Nat) (x : GroupInterval) :
    (s.journalBalance group x).outline = s.outline := by
  simp [State.journalBalance]

@[simp] theorem State.renewJournal_outline (s : State) : s.renewJournal.outline = s.outline := by
  unfold State.renewJournal
  extract_lets low held old u now
  have kept : u.outline = s.outline := by
    refine outline_foldl _ (fun v r => ?_) _ _
    refine State.outline_of_ite rfl ?_
    split <;> simp [↓State.outline_ite]
  simp [↓State.outline_update, kept]

/-! ### The pool (R246, R383) -/

@[simp] theorem State.poolWrite_outline (s : State) (c : Context) : (s.poolWrite c).outline = s.outline := by
  simp [State.poolWrite, ↓State.outline_update, ↓State.outline_ite]

@[simp] theorem State.poolKeep_outline (s : State) (serial : Nat) : (s.poolKeep serial).outline = s.outline := by
  unfold State.poolKeep
  split <;> simp

@[simp] theorem State.setPool_outline (s : State) (serial : Nat) (f : Context → Context) : (s.setPool serial f).outline = s.outline := by
  simp [State.setPool, ↓State.outline_update]

@[simp] theorem State.setAnyCtx_outline (s : State) (serial : Nat) (f : Context → Context) :
    (s.setAnyCtx serial f).outline = s.outline := by
  simp [State.setAnyCtx, ↓State.outline_ite]

/-! ### The keys of the vault and the crypto engine (R400, R402) -/

@[simp] theorem State.takeUp_outline (s : State) : s.takeUp.outline = s.outline := by
  simp [State.takeUp, ↓State.outline_update, ↓State.outline_ite]

/-! ### Signatures (R403-R405) -/

@[simp] theorem State.signature_outline (s : State) (message : List Byte) : (s.signature message).2.outline = s.outline := by
  simp [State.signature, ↓State.outline_update]

@[simp] theorem State.recordSigned_outline (s : State) (job : SignJob) (signature : Option (List Byte)) :
    (s.recordSigned job signature).outline = s.outline := by
  unfold State.recordSigned
  dsimp only
  (repeat' split) <;> simp [↓State.outline_update]

@[simp] theorem State.backlogEvent_outline (s : State) : s.backlogEvent.outline = s.outline := by
  simp [State.backlogEvent]

@[simp] theorem State.raiseBacklog_outline (s : State) : s.raiseBacklog.outline = s.outline := by
  simp [State.raiseBacklog, ↓State.outline_update, ↓State.outline_ite]

@[simp] theorem State.queueJob_outline (s : State) (job : SignJob) : (s.queueJob job).outline = s.outline := by
  simp [State.queueJob, ↓State.outline_update, ↓State.outline_ite]

@[simp] theorem State.signRecord_outline (s : State) (job : SignJob) : (s.signRecord job).outline = s.outline := by
  simp [State.signRecord, ↓State.outline_ite]

/-! ### Records of a context in the store -/

@[simp] theorem State.storeSnapshot_outline (s : State) (x : Snapshot) : (s.storeSnapshot x).outline = s.outline := by
  simp [State.storeSnapshot, ↓State.outline_update, ↓State.outline_ite]

@[simp] theorem State.storeProfile_outline (s : State) (c : Context) (bytes : List Byte) :
    (s.storeProfile c bytes).outline = s.outline := by
  simp [State.storeProfile, ↓State.outline_update, ↓State.outline_ite]

@[simp] theorem State.storeTamper_outline (s : State) (x : TamperRecord) : (s.storeTamper x).outline = s.outline := by
  simp [State.storeTamper, ↓State.outline_update, ↓State.outline_ite]

/-! ### Balance -/

@[simp] theorem State.setGroup_outline (s : State) (g : Nat) (f : Group → Group) : (s.setGroup g f).outline = s.outline := by
  simp [State.setGroup, ↓State.outline_update]

/-! ### Columns (R273, R274) -/

@[simp] theorem State.groupTick_outline (s : State) (serial : Nat) (energy : List Int) (flags : Nat) :
    (s.groupTick serial energy flags).outline = s.outline := by
  simp [State.groupTick, ↓State.outline_update]

/-! ### Shadow feeds (R274) -/

@[simp] theorem State.groupFeedTo_outline (s : State) (k : Nat) (f : GroupFeed) : (s.groupFeedTo k f).outline = s.outline := by
  simp [State.groupFeedTo, ↓State.outline_ite]

@[simp] theorem State.groupFeed_outline (s : State) (f : GroupFeed) : (s.groupFeed f).outline = s.outline := by
  simp [State.groupFeed, outline_foldl]

/-! ### Missing members (R273, R274) -/

@[simp] theorem State.groupDelete_outline (s : State) (serial : Nat) : (s.groupDelete serial).outline = s.outline := by
  simp [State.groupDelete, ↓State.outline_update]

@[simp] theorem State.groupPark_outline (s : State) (serial : Nat) : (s.groupPark serial).outline = s.outline := by
  simp [State.groupPark, ↓State.outline_update]

/-! ### Intervals (R273-R275) -/

@[simp] theorem State.dropFeeder_outline (s : State) (serial k : Nat) : (s.dropFeeder serial k).outline = s.outline := by
  simp [State.dropFeeder]

@[simp] theorem State.nameFeeder_outline (s : State) (serial k : Nat) : (s.nameFeeder serial k).outline = s.outline := by
  simp [State.nameFeeder]

@[simp] theorem State.setFeeder_outline (s : State) (old new k : Nat) : (s.setFeeder old new k).outline = s.outline := by
  simp [State.setFeeder, ↓State.outline_ite]

@[simp] theorem State.applyGroup_outline (s : State) (k : Nat) : (s.applyGroup k).outline = s.outline := by
  unfold State.applyGroup
  dsimp only
  split <;> simp

@[simp] theorem State.openGroup_outline (s : State) (k start flags : Nat) : (s.openGroup k start flags).outline = s.outline := by
  simp [State.openGroup, ↓State.outline_ite]

@[simp] theorem State.endGroup_outline (s : State) (k flags : Nat) : (s.endGroup k flags).outline = s.outline := by
  unfold State.endGroup
  split <;> simp [↓State.outline_ite]

@[simp] theorem State.groupTurn_outline (s : State) (k : Nat) : (s.groupTurn k).outline = s.outline := by
  unfold State.groupTurn
  dsimp only
  split <;> simp [↓State.outline_ite]

@[simp] theorem State.groupTurns_outline (s : State) : s.groupTurns.outline = s.outline := by
  simp [State.groupTurns, outline_foldl]

@[simp] theorem State.cutGroups_outline (s : State) (a a' : Nat) : (s.cutGroups a a').outline = s.outline := by
  unfold State.cutGroups
  refine outline_foldl _ (fun u k => ?_) _ _
  dsimp only
  split <;> simp

/-! ### Finalisation and alerts (R275, R276) -/

@[simp] theorem State.finaliseGroup_outline (s : State) (k : Nat) (x : GroupInterval) : (s.finaliseGroup k x).outline = s.outline := by
  simp [State.finaliseGroup, ↓State.outline_ite, outline_foldl]

/-! ### Dips, swells and interruptions (R202-R205, Table 6.5) -/

@[simp] theorem State.raisePq_outline (s : State) (sys source time handle : Nat) (items : List Byte) :
    (s.raisePq sys source time handle items).outline = s.outline := by
  simp [State.raisePq, ↓State.outline_ite]

@[simp] theorem State.pqKind_outline (s : State) (kind sys : Nat) (vals : List HalfValue) (stamp : Nat) :
    (s.pqKind kind sys vals stamp).outline = s.outline := by
  unfold State.pqKind
  dsimp only
  (repeat' split) <;> simp [↓State.outline_update]

/-! ### Rapid voltage changes (R206) -/

@[simp] theorem State.rvcSees_outline (s : State) (sys : Nat) (v : HalfValue) (stamp : Nat) (spoiled : Bool) :
    (s.rvcSees sys v stamp spoiled).outline = s.outline := by
  simp [State.rvcSees, ↓State.outline_update, ↓State.outline_ite]

@[simp] theorem State.pqHalf_outline (s : State) (sys : Nat) (vals : List HalfValue) (stamp : Nat) :
    (s.pqHalf sys vals stamp).outline = s.outline := by
  simp [State.pqHalf, ↓State.outline_ite, outline_foldl]

/-! ### Limit events (R207) -/

@[simp] theorem State.limitEvent_outline (s : State) (source key handle : Nat) (enabled : Bool) (out : Bool) (value limit : F32)
    (who : List Byte) (stop : Nat) :
    (s.limitEvent source key handle enabled out value limit who stop).outline = s.outline := by
  simp [State.limitEvent, ↓State.outline_update, ↓State.outline_ite]

/-! ### Limit events on 10-minute values (R207) -/

@[simp] theorem State.channelLimit_outline (s : State) (source n key : Nat) (bitNo : Nat) (v limit : Rat) (stop : Nat) :
    (s.channelLimit source n key bitNo v limit stop).outline = s.outline := by
  simp [State.channelLimit]

@[simp] theorem State.pstLimits_outline (s : State) (vs : List MeasValue) (stop : Nat) : (s.pstLimits vs stop).outline = s.outline := by
  refine outline_foldl _ (fun u v => ?_) _ _
  dsimp only
  split <;> simp [↓State.outline_ite]

@[simp] theorem State.harmonicLimits_outline (s : State) (b : MeasBlock) (n : Nat) : (s.harmonicLimits b n).outline = s.outline := by
  unfold State.harmonicLimits
  extract_lets p u
  have kept : u.outline = s.outline := by
    unfold u
    split <;> simp
  refine (outline_foldl _ (fun v k => ?_) _ _).trans kept
  split <;> simp [↓State.outline_ite]

@[simp] theorem State.unbalanceLimit_outline (s : State) (b : MeasBlock) (k : Nat) : (s.unbalanceLimit b k).outline = s.outline := by
  unfold State.unbalanceLimit
  split <;> simp

@[simp] theorem State.tenLimits_outline (s : State) (b : MeasBlock) : (s.tenLimits b).outline = s.outline := by
  simp [State.tenLimits, ↓State.outline_ite, outline_foldl]

/-! ### Pst (R198, R199) -/

@[simp] theorem State.closePst_outline (s : State) (n start stop own : Nat) (keys : Nat → Bool) :
    (s.closePst n start stop own keys).outline = s.outline := by
  simp [State.closePst, ↓State.outline_update]

@[simp] theorem State.closePsts_outline (s : State) (t : Track) (start stop own : Nat) (keys : Nat → Bool) :
    (s.closePsts t start stop own keys).outline = s.outline := by
  simp [State.closePsts, outline_foldl]

/-! ### 10 minutes (R180, R197) -/

@[simp] theorem State.closeTenTrack_outline (s : State) (t : Track) (take : MeasBlock → Bool) (stop own : Nat) :
    (s.closeTenTrack t take stop own).outline = s.outline := by
  unfold State.closeTenTrack
  dsimp only
  split <;> simp [↓State.outline_update]

@[simp] theorem State.closeTen_outline (s : State) (take : MeasBlock → Bool) (stop next own after : Nat) :
    (s.closeTen take stop next own after).outline = s.outline := by
  simp [State.closeTen, ↓State.outline_update, outline_foldl]

/-! ### 2 hours (R182, R198) -/

@[simp] theorem State.closeTwoTrack_outline (s : State) (t : Track) (take : MeasBlock → Bool) (stop own : Nat) :
    (s.closeTwoTrack t take stop own).outline = s.outline := by
  simp [State.closeTwoTrack, ↓State.outline_update]

@[simp] theorem State.closeTwo_outline (s : State) (take : MeasBlock → Bool) (stop next own after : Nat) :
    (s.closeTwo take stop next own after).outline = s.outline := by
  simp [State.closeTwo, ↓State.outline_update, outline_foldl]

/-! ### Supraharmonic blocks (R195-R197) -/

@[simp] theorem State.endBlock_outline (s : State) (d : Nat) : (s.endBlock d).outline = s.outline := by
  simp [State.endBlock, ↓State.outline_update, ↓State.outline_ite]

/-! ### Clock adjustments (R186) -/

@[simp] theorem State.closePassedTwo_outline (s : State) (stop : Nat) : (s.closePassedTwo stop).outline = s.outline := by
  unfold State.closePassedTwo
  split <;> simp [↓State.outline_ite]

@[simp] theorem State.closeCut_outline (s : State) (c : ClockCut) : (s.closeCut c).outline = s.outline := by
  simp [State.closeCut, ↓State.outline_update, ↓State.outline_ite]

@[simp] theorem State.settleCut_outline (s : State) : s.settleCut.outline = s.outline := by
  simp [State.settleCut, ↓State.outline_ite, outline_foldl]

@[simp] theorem State.cutPsts_outline (s : State) (start flags a : Nat) (tracks : List Track) :
    (s.cutPsts start flags a tracks).outline = s.outline := by
  simp [State.cutPsts, outline_foldl]

@[simp] theorem State.clockCut_outline (s : State) (b a a' : Nat) : (s.clockCut b a a').outline = s.outline := by
  unfold State.clockCut
  dsimp only
  split <;> simp [↓State.outline_update]

/-! ### MEAS_CONFIG takes effect (R177, R201, R205) -/

@[simp] theorem State.applyConfig_outline (s : State) (stamp tick : Nat) : (s.applyConfig stamp tick).outline = s.outline := by
  simp [State.applyConfig, ↓State.outline_update, ↓State.outline_ite, outline_foldl]

/-! ### Basic intervals (R179, R183-R185) -/

@[simp] theorem State.endBasic_outline (s : State) (b : BasicOpen) : (s.endBasic b).outline = s.outline := by
  simp [State.endBasic, ↓State.outline_update]

@[simp] theorem State.endOldestBasic_outline (s : State) : s.endOldestBasic.outline = s.outline := by
  unfold State.endOldestBasic
  split <;> simp [↓State.outline_update, ↓State.outline_ite]

@[simp] theorem State.settleConfig_outline (s : State) : s.settleConfig.outline = s.outline := by
  unfold State.settleConfig
  split <;> simp [↓State.outline_ite]

/-! ### TICK_CLOSE (R211) -/

@[simp] theorem State.closeTick_outline (s : State) : s.closeTick.outline = s.outline := by
  simp [State.closeTick, ↓State.outline_update]

/-! ### Wideband (R108, R133) -/

@[simp] theorem State.putEnvelope_outline (s : State) (u n : Nat) (w : Int) (block : Option (Rat × Nat)) :
    (s.putEnvelope u n w block).outline = s.outline := by
  unfold State.putEnvelope
  split <;> simp

/-! #### Flickermeter (R198) -/

@[simp] theorem State.deliverWide_outline (s : State) (u n : Nat) (x : StreamSample) : (s.deliverWide u n x).outline = s.outline := by
  unfold State.deliverWide
  extract_lets u cfg
  have kept : u.outline = s.outline := State.setChan_outline ..
  refine State.outline_of_ite kept ?_
  simp [↓State.outline_update, kept]

@[simp] theorem State.formWide_outline (s : State) (u n : Nat) (w : Int) : (s.formWide u n w).outline = s.outline := by
  simp [State.formWide, ↓State.outline_ite]

@[simp] theorem State.skipWide_outline (s : State) (u n : Nat) (w : Int) : (s.skipWide u n w).outline = s.outline := by
  simp [State.skipWide, ↓State.outline_ite]

/-! ### Narrowband (R109, R112, R116) -/

@[simp] theorem State.correlates_outline (s : State) (u : Nat) (x : StreamSample) : (s.correlates u x).outline = s.outline := by
  simp [State.correlates, ↓State.outline_update, ↓State.outline_ite]

@[simp] theorem State.formNarrow_outline (s : State) (u n : Nat) (v : Int) (crossing : Option Nat) :
    (s.formNarrow u n v crossing).outline = s.outline := by
  unfold State.formNarrow
  extract_lets c on delivered ch y x formed correlated forwarded
  have keptDelivered : delivered.outline = s.outline := State.setChan_outline ..
  have kept : correlated.outline = s.outline := by simp [correlated, formed, keptDelivered]
  have keptForwarded : forwarded.outline = s.outline := by simp [forwarded, kept]
  refine State.outline_of_ite ?_ kept
  split
  · simp [↓State.outline_update, ↓State.outline_ite, keptForwarded]
  · exact keptForwarded

/-! ### The tally's samples (R361) -/

@[simp] theorem State.tallySample_outline (s : State) (k : Nat) (x : StreamSample) : (s.tallySample k x).outline = s.outline := by
  simp [State.tallySample, ↓State.outline_update]

@[simp] theorem State.gateNarrow_outline (s : State) (u n : Nat) (v : Int) : (s.gateNarrow u n v).outline = s.outline := by
  simp [State.gateNarrow]

/-! ### Synchronous samples (R122, R125-R127) -/

@[simp] theorem State.spend_outline (s : State) (u : Nat) (v : Int) (tick : Nat) (first : Bool) :
    (s.spend u v tick first).1.outline = s.outline := by
  unfold State.spend
  dsimp only
  split <;> simp

@[simp] theorem State.unitCycle_outline (s : State) (c : CycleRecord) (u : Nat) : (s.unitCycle c u).1.outline = s.outline := by
  unfold State.unitCycle
  refine foldl_keeps (fun r : State × List (Option StreamSample) => r.1.outline) _ (fun r j => ?_) (List.range 1024) (s, [])
  dsimp only
  split <;> simp

@[simp] theorem State.unitCycles_outline (s : State) (c : CycleRecord) : (s.unitCycles c).1.outline = s.outline := by
  unfold State.unitCycles
  refine outline_foldl_pair _ (fun r u v units same => ?_) _ _
  obtain ⟨same, -⟩ := Prod.mk.inj same
  rw [← same, State.unitCycle_outline]

/-! ### Home and lane compared (R346, R347, R353) -/

@[simp] theorem State.compare_outline (s : State) (c : CycleRecord) (units : List (List (Option StreamSample))) (n : Nat) :
    (s.compare c units n).outline = s.outline := by
  unfold State.compare
  split
  · rfl
  · split <;> simp

@[simp] theorem State.samples_outline (s : State) (c : CycleRecord) : (s.samples c).1.outline = s.outline := by
  simp [State.samples, ↓State.outline_update, outline_foldl]

/-! ### Half-cycle peaks (R131) -/

@[simp] theorem State.halfCyclePeaks_outline (s : State) (c : CycleRecord) (n : Nat) : (s.halfCyclePeaks c n).outline = s.outline := by
  unfold State.halfCyclePeaks
  dsimp only
  (repeat' split) <;> simp

/-! ### One-cycle RMS (R132) -/

@[simp] theorem State.rmsResult_outline (s : State) (n index time value flags : Nat) :
    (s.rmsResult n index time value flags).outline = s.outline := by
  simp [State.rmsResult]

@[simp] theorem State.halfValue_outline (s : State) (c : CycleRecord) (n half start stop : Nat) :
    (s.halfValue c n half start stop).1.outline = s.outline := by
  unfold State.halfValue
  split <;> simp

@[simp] theorem State.halfCycle_outline (s : State) (c : CycleRecord) (half : Nat) : (s.halfCycle c half).outline = s.outline := by
  unfold State.halfCycle
  extract_lets end_ stop start r u
  have keptHalves : r.1.outline = s.outline :=
    foldl_keeps (fun a : State × List HalfValue => a.1.outline) _ (fun a n => State.halfValue_outline ..) _ _
  have kept : u.outline = s.outline := (outline_foldl _ (fun _ _ => State.pqHalf_outline ..) _ _).trans keptHalves
  refine State.outline_of_ite kept ?_
  simp [↓State.outline_update, kept]

/-! ### Powers and energies (R208-R212) -/

@[simp] theorem State.integrate_outline (s : State) (c : CycleRecord) (system : Bool) (object : Nat)
    (grid : List (Option GridPower)) (q a : Option Rat) :
    (s.integrate c system object grid q a).outline = s.outline := by
  simp [State.integrate, ↓State.outline_update]

@[simp] theorem State.integrateAll_outline (s : State) (c : CycleRecord) : (s.integrateAll c).outline = s.outline := by
  simp [State.integrateAll, outline_foldl]

@[simp] theorem State.cycleLatest_outline (s : State) (c : CycleRecord) : (s.cycleLatest c).outline = s.outline := by
  simp [State.cycleLatest, ↓State.outline_update]

/-! ### Basic intervals (R179, R180) -/

@[simp] theorem State.openBasic_outline (s : State) (c : CycleRecord) : (s.openBasic c).outline = s.outline := by
  unfold State.openBasic
  dsimp only
  (repeat' split) <;> simp [↓State.outline_update]

@[simp] theorem State.growBasics_outline (s : State) (c : CycleRecord) : (s.growBasics c).outline = s.outline := by
  simp [State.growBasics, ↓State.outline_update]

/-! ### The row -/

@[simp] theorem State.baseCycles_outline (s : State) (c : CycleRecord) : (s.baseCycles c).outline = s.outline := by
  simp [State.baseCycles, ↓State.outline_update]

@[simp] theorem State.cycle_outline (s : State) (c : CycleRecord) : (s.cycle c).outline = s.outline := by
  simp [State.cycle, ↓State.outline_update, outline_foldl]

/-! ### MEAS_CONFIG (R174-R177, R506) -/

@[simp] theorem State.acceptConfig_outline (s : State) (c : MeasConfig) : (s.acceptConfig c).outline = s.outline := by
  simp [State.acceptConfig, ↓State.outline_update]

/-! ### 10-second frequency (R189, R207) -/

@[simp] theorem State.bandLimit_outline (s : State) (b : MeasBlock) : (s.bandLimit b).outline = s.outline := by
  unfold State.bandLimit
  split <;> simp

@[simp] theorem State.closeSecond_outline (s : State) (start next : Nat) : (s.closeSecond start next).outline = s.outline := by
  simp [State.closeSecond, ↓State.outline_update]

@[simp] theorem State.cutSecond_outline (s : State) (a' : Nat) : (s.cutSecond a').outline = s.outline := by
  unfold State.cutSecond
  split <;> simp [↓State.outline_update, ↓State.outline_ite]

@[simp] theorem State.cutPinst_outline (s : State) (a a' : Nat) : (s.cutPinst a a').outline = s.outline := by
  simp [State.cutPinst, ↓State.outline_update, ↓State.outline_ite]

/-! ### Relays (R263, R264) -/

@[simp] theorem State.setRelay_outline (s : State) (k : Nat) (closed : Bool) (cause : Nat) :
    (s.setRelay k closed cause).outline = s.outline := by
  unfold State.setRelay
  dsimp only
  (repeat' split) <;> simp [↓State.outline_update]

/-! ### States (Table 8.1) -/

@[simp] theorem State.raiseCtx_outline (s : State) (source serial : Nat) (items : Context → List Byte) :
    (s.raiseCtx source serial items).outline = s.outline := by
  unfold State.raiseCtx
  split <;> simp

@[simp] theorem State.enterState_outline (s : State) (serial new cause : Nat) : (s.enterState serial new cause).outline = s.outline := by
  unfold State.enterState
  split <;> simp [↓State.outline_ite]

@[simp] theorem State.driveRelay_outline (s : State) (c : Context) (cause : Nat) : (s.driveRelay c cause).outline = s.outline := by
  simp [State.driveRelay, ↓State.outline_ite]

@[simp] theorem State.reevaluate_outline (s : State) (serial cause : Nat) : (s.reevaluate serial cause).outline = s.outline := by
  unfold State.reevaluate
  split <;> simp [↓State.outline_ite]

@[simp] theorem State.grantEvent_outline (s : State) (serial : Nat) (ended : Bool) : (s.grantEvent serial ended).outline = s.outline := by
  simp [State.grantEvent]

@[simp] theorem State.grant_outline (s : State) (serial amount cause : Nat) : (s.grant serial amount cause).outline = s.outline := by
  simp [State.grant]

@[simp] theorem State.reconnect_outline (s : State) (serial cause : Nat) : (s.reconnect serial cause).outline = s.outline := by
  unfold State.reconnect
  split <;> simp

/-! ### Friendly hours (R262) -/

@[simp] theorem State.setFriendly_outline (s : State) (serial new : Nat) : (s.setFriendly serial new).outline = s.outline := by
  unfold State.setFriendly
  split <;> simp [↓State.outline_ite]

@[simp] theorem State.prepayDecide_outline (s : State) (c : Context) (utc : Int) : (s.prepayDecide c utc).outline = s.outline := by
  simp [State.prepayDecide, ↓State.outline_ite]

/-! ### Records (R270) -/

@[simp] theorem State.openTamper_outline (s : State) (serial kind source start : Nat) (base : Nat × Nat) (extreme : Rat) (flags : Nat) :
    (s.openTamper serial kind source start base extreme flags).outline = s.outline := by
  unfold State.openTamper
  split <;> simp [↓State.outline_ite]

@[simp] theorem State.closeTamper_outline (s : State) (serial kind stop : Nat) (last : Nat × Nat) (through flags : Nat) :
    (s.closeTamper serial kind stop last through flags).outline = s.outline := by
  unfold State.closeTamper
  dsimp only
  (repeat' split) <;> simp

@[simp] theorem State.closeTamperAt_outline (s : State) (serial kind stop flags : Nat) :
    (s.closeTamperAt serial kind stop flags).outline = s.outline := by
  unfold State.closeTamperAt
  split <;> simp

@[simp] theorem State.closeTampers_outline (s : State) (serial stop flags : Nat) (kinds : List Nat) :
    (s.closeTampers serial stop flags kinds).outline = s.outline := by
  simp [State.closeTampers, outline_foldl]

/-! ### Reversed current (kind 0) -/

@[simp] theorem State.tamperElement_outline (s : State) (serial element : Nat) (energy : Int) (start : Nat) (before after : Nat × Nat) :
    (s.tamperElement serial element energy start before after).outline = s.outline := by
  unfold State.tamperElement
  split <;> simp [↓State.outline_ite]

/-! ### Switch inputs (kinds 3-6) -/

@[simp] theorem State.tamperSwitches_outline (s : State) (serial : Nat) : (s.tamperSwitches serial).outline = s.outline := by
  refine outline_foldl _ (fun u k => ?_) _ _
  dsimp only
  split <;> simp [↓State.outline_ite]

/-! ### Bypass and missing neutral (kinds 1 and 2) -/

@[simp] theorem State.tamperRunInterval_outline (s : State) (serial kind : Nat) (b : MeasBlock) (test : Option (Bool × Rat)) (need : Nat) :
    (s.tamperRunInterval serial kind b test need).outline = s.outline := by
  unfold State.tamperRunInterval
  dsimp only
  (repeat' split) <;> simp

@[simp] theorem State.tamperInterval_outline (s : State) (b : MeasBlock) : (s.tamperInterval b).outline = s.outline := by
  unfold State.tamperInterval
  refine State.eachCtx_outline _ _ (fun u c => ?_)
  simp [↓State.outline_ite]

@[simp] theorem State.tamperIntervals_outline (s : State) (u : Nat) : (s.tamperIntervals u).outline = s.outline := by
  simp [State.tamperIntervals, ↓State.outline_update, outline_foldl]

/-! ### Step 1: folding (R222) -/

@[simp] theorem State.foldCtx_outline (s : State) (c : Context) (k : ClosedTick) (u0 u own : Nat) :
    (s.foldCtx c k u0 u own).outline = s.outline := by
  simp [State.foldCtx, ↓State.outline_ite, outline_foldl]

/-! ### Step 2: demand and load profile (R229-R232) -/

@[simp] theorem State.closeDemand_outline (s : State) (serial stop flags now : Nat) :
    (s.closeDemand serial stop flags now).outline = s.outline := by
  unfold State.closeDemand
  split <;> simp [↓State.outline_ite]

@[simp] theorem State.closeProfile_outline (s : State) (serial stop flags now : Nat) :
    (s.closeProfile serial stop flags now).outline = s.outline := by
  unfold State.closeProfile
  split <;> simp [↓State.outline_ite]

@[simp] theorem State.closeOpen_outline (s : State) (serial stop flags : Nat) : (s.closeOpen serial stop flags).outline = s.outline := by
  simp [State.closeOpen]

@[simp] theorem State.applyDemand_outline (s : State) (serial now : Nat) (mode length n : Nat) :
    (s.applyDemand serial now mode length n).outline = s.outline := by
  unfold State.applyDemand
  split <;> simp [↓State.outline_ite]

/-! ### Steps 3 and 4: tariff and snapshot (R225-R227, R234) -/

@[simp] theorem State.changeTariff_outline (s : State) (serial new instant : Nat) :
    (s.changeTariff serial new instant).outline = s.outline := by
  unfold State.changeTariff
  split <;> simp [↓State.outline_ite]

@[simp] theorem State.sourceTariff_outline (s : State) (serial boundary instant : Nat) :
    (s.sourceTariff serial boundary instant).outline = s.outline := by
  unfold State.sourceTariff
  split <;> simp

@[simp] theorem State.decideAt_outline (s : State) (serial instant : Nat) : (s.decideAt serial instant).outline = s.outline := by
  unfold State.decideAt
  split <;> simp

@[simp] theorem State.takeSnapshot_outline (s : State) (serial flags boundaries stop last : Nat) :
    (s.takeSnapshot serial flags boundaries stop last).outline = s.outline := by
  unfold State.takeSnapshot
  split <;> simp

@[simp] theorem State.snapshotEach_outline (s : State) (serial flags : Nat) (bs : List Nat) :
    (s.snapshotEach serial flags bs).outline = s.outline := by
  simp [State.snapshotEach, ↓State.outline_ite, outline_foldl]

@[simp] theorem State.snapshotForced_outline (s : State) (serial stop : Nat) (bs : List Nat) :
    (s.snapshotForced serial stop bs).outline = s.outline := by
  simp [State.snapshotForced, ↓State.outline_ite]

/-! ### What is due at a boundary (R236, R244, Table 7.11) -/

@[simp] theorem State.journalDue_outline (s : State) (serial mask instant : Nat) :
    (s.journalDue serial mask instant).outline = s.outline := by
  unfold State.journalDue
  split <;> simp

@[simp] theorem State.journalDone_outline (s : State) (serial code : Nat) : (s.journalDone serial code).outline = s.outline := by
  unfold State.journalDone
  split <;> simp

@[simp] theorem State.startDue_outline (s : State) (d : DueActions) : (s.startDue d).outline = s.outline := by
  simp [State.startDue, ↓State.outline_update, outline_foldl]

@[simp] theorem State.writeDone_outline (s : State) (d : DueActions) (maskBit code : Nat) :
    (s.writeDone d maskBit code).outline = s.outline := by
  simp [State.writeDone, ↓State.outline_ite, outline_foldl]

@[simp] theorem State.demandStep_outline (s : State) (d : DueActions) (c : Context) : (s.demandStep d c).outline = s.outline := by
  unfold State.demandStep
  dsimp only
  (repeat' split) <;> simp

@[simp] theorem State.profileStep_outline (s : State) (d : DueActions) (c : Context) : (s.profileStep d c).outline = s.outline := by
  unfold State.profileStep
  dsimp only
  (repeat' split) <;> simp

@[simp] theorem State.checkpointAll_outline (s : State) (time : Nat) : (s.checkpointAll time).outline = s.outline := by
  unfold State.checkpointAll
  rw [State.renewJournal_outline, outline_foldl _ (fun u k => ?_)]
  · simp
  · split <;> simp

@[simp] theorem State.runStep_outline (s : State) (d : DueActions) (k : Nat) : (s.runStep d k).outline = s.outline := by
  unfold State.runStep
  split <;> simp [↓State.outline_update, ↓State.outline_ite]

@[simp] theorem State.stepOnce_outline (s : State) : s.stepOnce.outline = s.outline := by
  unfold State.stepOnce
  split <;> simp [↓State.outline_update]

@[simp] theorem State.advance_outline (n : Nat) (s : State) : (State.advance n s).outline = s.outline := by
  induction n generalizing s with
  | zero => rfl
  | succ n ih =>
    unfold State.advance
    split
    · rfl
    · exact State.outline_of_ite rfl ((ih _).trans (State.stepOnce_outline s))

@[simp] theorem State.settleThrough_outline (k n : Nat) (s : State) : (State.settleThrough k n s).outline = s.outline := by
  induction n generalizing s with
  | zero => rfl
  | succ n ih =>
    unfold State.settleThrough
    split
    · rfl
    · exact State.outline_of_ite ((ih _).trans (State.stepOnce_outline s)) rfl

@[simp] theorem State.finishDue_outline (s : State) : s.finishDue.outline = s.outline := State.settleThrough_outline ..

/-! ### Clock adjustments (R238-R242) -/

@[simp] theorem State.commitStep_outline (s : State) (a : Adjustment) : (s.commitStep a).outline = s.outline := by
  simp [State.commitStep, ↓State.outline_update]

@[simp] theorem State.ppsEvent_outline (s : State) (state : Nat) (step : Int) : (s.ppsEvent state step).outline = s.outline := by
  simp [State.ppsEvent]

@[simp] theorem State.restartAfter_outline (s : State) (b : Nat) (split : Bool) (a' : Nat) (c : Context) :
    (s.restartAfter b split a' c).outline = s.outline := by
  simp [State.restartAfter]

@[simp] theorem State.adjust_outline (s : State) (b : Nat) (x : Adjustment) : (s.adjust b x).outline = s.outline := by
  simp [State.adjust, ↓State.outline_ite]

@[simp] theorem State.adjustAll_outline (s : State) (b : Nat) : (s.adjustAll b).outline = s.outline := by
  simp [State.adjustAll, outline_foldl]

/-! ### The fold (R16, R222, R236) -/

@[simp] theorem State.foldTick_outline (s : State) : s.foldTick.outline = s.outline := by
  unfold State.foldTick
  split <;> simp [↓State.outline_update, ↓State.outline_ite]

@[simp] theorem State.queueTick_outline (s : State) : s.queueTick.outline = s.outline := by
  simp [State.queueTick, ↓State.outline_update, ↓State.outline_ite]

@[simp] theorem State.dueRow_outline (s : State) (k : Nat) : (s.dueRow k).outline = s.outline := by
  unfold State.dueRow
  split <;> simp [↓State.outline_ite]

/-! ### Images (R166-R168, Tables 5.11 and 5.12) -/

@[simp] theorem State.takeImage_outline (s : State) (r : Req) (u k : Nat) : (s.takeImage r u k).outline = s.outline := by
  simp [State.takeImage, ↓State.outline_ite]

/-! ### Store slots (R169-R173) -/

@[simp] theorem State.restoreCal_outline (s : State) (k : CalSlot) (ramp : Bool) : (s.restoreCal k ramp).outline = s.outline := by
  simp [State.restoreCal, ↓State.outline_update]

/-! ### SET_TIME, GET_TIME, SET_CLOCK_POLICY -/

@[simp] theorem State.planStep_outline (s : State) (a : Adjustment) : (s.planStep a).outline = s.outline := by
  simp [State.planStep, ↓State.outline_update]

/-! ### PPS (R448-R452) -/

@[simp] theorem State.ppsStep_outline (s : State) (d : Int) : (s.ppsStep d).outline = s.outline := by
  simp [State.ppsStep, ↓State.outline_update, ↓State.outline_ite]

@[simp] theorem State.releaseStep_outline (s : State) : s.releaseStep.outline = s.outline := by
  unfold State.releaseStep
  split <;> simp [↓State.outline_update, ↓State.outline_ite]

@[simp] theorem State.correctPhase_outline (s : State) (quarter : Nat) : (s.correctPhase quarter).outline = s.outline := by
  unfold State.correctPhase
  extract_lets e4 e u _ v
  have kept : v.outline = s.outline := by simp [v, u, ↓State.outline_update]
  refine State.outline_of_ite ?_ ?_
  · simp [↓State.outline_update, kept]
  · rw [State.ppsStep_outline]
    simp [↓State.outline_update, kept]

@[simp] theorem State.estimate_outline (s : State) (length : Nat) : (s.estimate length).outline = s.outline := by
  unfold State.estimate
  extract_lets lens _ u v
  have kept : u.outline = s.outline := by simp [u, ↓State.outline_update]
  have keptV : v.outline = s.outline := by simp [v, kept]
  refine State.outline_of_ite kept ?_
  simp [↓State.outline_update, keptV]

@[simp] theorem State.ppsSeen_outline (s : State) (quarter : Nat) : (s.ppsSeen quarter).outline = s.outline := by
  simp [State.ppsSeen, ↓State.outline_update, ↓State.outline_ite]

/-! ### The RTC (R453, R454, R243) -/

@[simp] theorem State.rtcLost_outline (s : State) : s.rtcLost.outline = s.outline := by
  simp [State.rtcLost, ↓State.outline_update, ↓State.outline_ite]

/-! ### Boundaries and midnights between feeds (R252, R266) -/

@[simp] theorem State.passInstants_outline (s : State) (serial flags : Nat) (own : Bool) (l : List (Nat × Bool)) :
    (s.passInstants serial flags own l).outline = s.outline := by
  simp [State.passInstants, ↓State.outline_ite, outline_foldl]

/-! ### Prepayment of shadow contexts (R267) -/

@[simp] theorem State.compareRelay_outline (s : State) (serial : Nat) (b : List Byte) : (s.compareRelay serial b).outline = s.outline := by
  unfold State.compareRelay
  split <;> simp [↓State.outline_ite]

/-! ### Applying a feed (R251) -/

@[simp] theorem State.feedSteps_outline (s : State) (serial : Nat) (x : FeedPlan) (changed : Bool) (at_ : List (Nat × Bool)) :
    (s.feedSteps serial x changed at_).outline = s.outline := by
  simp [State.feedSteps, ↓State.outline_ite]

@[simp] theorem State.useFeed_outline (s : State) (c : Context) (b : List Byte) (parked : Nat) (journal : Bool) :
    (s.useFeed c b parked journal).2.outline = s.outline := by
  simp [State.useFeed, ↓State.outline_ite]

@[simp] theorem State.feedLive_outline (s : State) (c : Context) (b : List Byte) (parked : Nat) (journal : Bool) :
    (s.feedLive c b parked journal).2.outline = s.outline := by
  unfold State.feedLive
  dsimp only
  (repeat' split) <;> simp

@[simp] theorem State.feedParked_outline (s : State) (c : Context) (b : List Byte) : (s.feedParked c b).2.outline = s.outline := by
  unfold State.feedParked
  split <;> simp

@[simp] theorem State.feed_outline (s : State) (b : List Byte) : (s.feed b).2.outline = s.outline := by
  unfold State.feed
  split
  · split <;> simp
  · split <;> simp

@[simp] theorem State.feedAll_outline (s : State) (l : List (List Byte)) : (s.feedAll l).2.outline = s.outline :=
  foldl_keeps (fun a : List Nat × State => a.2.outline) _ (fun _ _ => State.feed_outline ..) _ _

@[simp] theorem State.feedPending_outline (s : State) (serial : Nat) : (s.feedPending serial).outline = s.outline := by
  unfold State.feedPending
  split
  · rfl
  · extract_lets u v
    have kept : u.outline = s.outline := State.setCtx_outline ..
    have keptV : v.outline = s.outline := by
      refine (outline_foldl _ (fun w b => ?_) _ _).trans kept
      split <;> simp
    exact (State.setCtx_outline ..).trans keptV

/-! ### The pool (R382, R383) -/

@[simp] theorem State.poolLow_outline (s : State) (before : Nat) : (s.poolLow before).outline = s.outline := by
  simp [State.poolLow, ↓State.outline_ite]

/-! ### CTX_CREATE (R217, R218) -/

@[simp] theorem State.addLive_outline (s : State) (c : Context) : (s.addLive c).outline = s.outline := by
  simp [State.addLive, ↓State.outline_update]

/-! ### CTX_DELETE (R219) -/

@[simp] theorem State.freeSlot_outline (s : State) (c : Context) : (s.freeSlot c).outline = s.outline := by
  simp [State.freeSlot, ↓State.outline_update]

@[simp] theorem State.deleteContext_outline (s : State) (c : Context) : (s.deleteContext c).outline = s.outline := by
  simp [State.deleteContext, ↓State.outline_update, ↓State.outline_ite]

/-! ### CTX_PARK (R253) -/

@[simp] theorem State.catchUp_outline (s : State) (serial lo hi flags : Nat) : (s.catchUp serial lo hi flags).outline = s.outline := by
  unfold State.catchUp
  split <;> simp [↓State.outline_ite, outline_foldl]

@[simp] theorem State.runAgain_outline (s : State) (c : Context) (at_ : Nat) : (s.runAgain c at_).outline = s.outline := by
  simp [State.runAgain, ↓State.outline_ite]

@[simp] theorem State.finishPark_outline (s : State) (serial tag instant : Nat) :
    (s.finishPark serial tag instant).outline = s.outline := by
  unfold State.finishPark
  split <;> simp [↓State.outline_update, ↓State.outline_ite]

/-! ### CTX_UNPARK (R254, R247) -/

@[simp] theorem State.unpark_outline (s : State) (c : Context) (rxAt : Nat) : (s.unpark c rxAt).outline = s.outline := by
  simp [State.unpark, ↓State.outline_update]

/-! ### BALANCE_CONFIG (R273, R493) -/

@[simp] theorem State.acceptGroup_outline (s : State) (g : Nat) (n : GroupChange) : (s.acceptGroup g n).outline = s.outline := by
  simp [State.acceptGroup, ↓State.outline_ite]

/-! ### Firmware update of a session (R417) -/

@[simp] theorem State.abandonUpdate_outline (s : State) : s.abandonUpdate.outline = s.outline := by
  unfold State.abandonUpdate
  split <;> simp [↓State.outline_update]

@[simp] theorem State.abandonUpdateOf_outline (s : State) (k : Nat) : (s.abandonUpdateOf k).outline = s.outline := by
  simp [State.abandonUpdateOf, ↓State.outline_ite]

/-! ### Handover -/

@[simp] theorem State.endHandover_outline (s : State) (status : Nat) : (s.endHandover status).outline = s.outline := by
  unfold State.endHandover
  split <;> simp [↓State.outline_update]

/-! ### Session -/

@[simp] theorem State.openEvents_outline (s : State) (k : Nat) : (s.openEvents k).outline = s.outline := by
  unfold State.openEvents
  dsimp only
  split <;> simp [↓State.outline_ite]

/-! ### EVENT_READ (R375, R379) -/

@[simp] theorem State.setQueue_outline (s : State) (k : Nat) (f : EventQueue → EventQueue) :
    (s.setQueue k f).outline = s.outline := State.setSession_outline s k (fun _ => rfl)

/-! ### Equaliser banks (R113-R118) -/

@[simp] theorem State.disturbBank_outline (s : State) (n : Nat) : (s.disturbBank n).outline = s.outline := by
  simp [State.disturbBank, ↓State.outline_ite, outline_foldl]

@[simp] theorem State.loadBank_outline (s : State) (n bank : Nat) (l : List Int) : (s.loadBank n bank l).outline = s.outline := by
  simp [State.loadBank, ↓State.outline_ite]

/-! ### Pieces of state -/

@[simp] theorem State.setLine_outline (s : State) (f : LineState → LineState) : (s.setLine f).outline = s.outline := by
  simp [State.setLine, ↓State.outline_update]

@[simp] theorem State.setMesh_outline (s : State) (f : MeshState → MeshState) : (s.setMesh f).outline = s.outline := by
  simp [State.setMesh, ↓State.outline_update]

@[simp] theorem State.lineCount_outline (s : State) (index n : Nat) : (s.lineCount index n).outline = s.outline := by
  simp [State.lineCount]

@[simp] theorem State.meshCount_outline (s : State) (index n : Nat) : (s.meshCount index n).outline = s.outline := by
  simp [State.meshCount]

@[simp] theorem State.setNode_outline (s : State) (address : Nat) (f : Node → Node) : (s.setNode address f).outline = s.outline := by
  simp [State.setNode]

/-! ### Link cost (R316) -/

@[simp] theorem State.setNeighbour_outline (s : State) (address : Nat) (f : Neighbour → Neighbour) :
    (s.setNeighbour address f).outline = s.outline := by
  unfold State.setNeighbour
  split <;> simp [↓State.outline_ite]

@[simp] theorem State.evictMaps_outline (s : State) (keep : Nat) : (s.evictMaps keep).outline = s.outline := by
  unfold State.evictMaps
  dsimp only
  (repeat' split) <;> simp

/-! ### Slots (R309) -/

@[simp] theorem State.assignSlot_outline (s : State) (address : Nat) : (s.assignSlot address).outline = s.outline := by
  unfold State.assignSlot
  dsimp only
  (repeat' split) <;> simp

/-! ### Network frames (R311-R314) -/

@[simp] theorem State.countFrame_outline (s : State) : s.countFrame.outline = s.outline := by
  simp [State.countFrame, ↓State.outline_ite]

@[simp] theorem State.enqueueFrame_outline (s : State) (f : TxFrame) : (s.enqueueFrame f).outline = s.outline := by
  simp [State.enqueueFrame]

/-! ### Transactions (R327-R331) -/

@[simp] theorem State.setFlight_outline (s : State) (id : Nat) (f : Transaction → Transaction) :
    (s.setFlight id f).outline = s.outline := by
  simp [State.setFlight]

@[simp] theorem State.dropFlight_outline (s : State) (id : Nat) : (s.dropFlight id).outline = s.outline := by
  simp [State.dropFlight]

@[simp] theorem State.discover_outline (s : State) (address : Nat) : (s.discover address).outline = s.outline := by
  simp [State.discover, ↓State.outline_ite]

@[simp] theorem State.completeFlight_outline (s : State) (x : Transaction) (length : Nat) :
    (s.completeFlight x length).outline = s.outline := by
  unfold State.completeFlight
  split <;> simp [↓State.outline_ite]

@[simp] theorem State.failFlight_outline (s : State) (x : Transaction) (status : Nat) : (s.failFlight x status).outline = s.outline := by
  unfold State.failFlight
  split <;> simp [↓State.outline_ite]

@[simp] theorem State.raiseLevel_outline (s : State) (address by_ : Nat) : (s.raiseLevel address by_).outline = s.outline := by
  unfold State.raiseLevel
  split <;> simp [↓State.outline_ite]

@[simp] theorem State.failAttempt_outline (s : State) (x : Transaction) (routeError : Bool) :
    (s.failAttempt x routeError).outline = s.outline := by
  simp [State.failAttempt, ↓State.outline_ite]

@[simp] theorem State.loadRoute_outline (s : State) (address : Nat) : (s.loadRoute address).outline = s.outline := by
  unfold State.loadRoute
  dsimp only
  (repeat' split) <;> simp

@[simp] theorem State.sendAttempt_outline (s : State) (x : Transaction) : (s.sendAttempt x).outline = s.outline := by
  unfold State.sendAttempt
  split <;> simp

@[simp] theorem State.pump_outline (s : State) : s.pump.outline = s.outline := by
  unfold State.pump
  refine outline_foldl _ (fun u x => ?_) _ _
  split
  · simp [↓State.outline_ite]
  · rfl

@[simp] theorem State.startFlight_outline (s : State) (x : Transaction) : (s.startFlight x).outline = s.outline := by
  simp [State.startFlight]

@[simp] theorem State.endFlights_outline (s : State) : s.endFlights.outline = s.outline := by
  unfold State.endFlights
  extract_lets xs u v
  have kept : v.outline = s.outline := by simp [v, u]
  refine (outline_foldl _ (fun w x => ?_) _ _).trans kept
  split <;> simp

/-! ### Routes (R318-R321) -/

@[simp] theorem State.discoverRouteless_outline (s : State) : s.discoverRouteless.outline = s.outline := by
  simp [State.discoverRouteless, outline_foldl]

@[simp] theorem State.routePass_outline (s : State) : s.routePass.outline = s.outline := by
  simp [State.routePass, outline_foldl]

/-! ### Received data frames (R310, R313, R315, R328) -/

@[simp] theorem State.authFails_outline (s : State) (origin : Nat) : (s.authFails origin).outline = s.outline := by
  simp [State.authFails, ↓State.outline_ite]

@[simp] theorem State.openFrame_outline (s : State) (data : List Byte) : (s.openFrame data).outline = s.outline := by
  unfold State.openFrame
  dsimp only
  (repeat' split) <;> simp

@[simp] theorem State.acceptFrame_outline (s : State) (data : List Byte) : (s.acceptFrame data).outline = s.outline := by
  simp [State.acceptFrame, ↓State.outline_ite]

@[simp] theorem State.openKeyless_outline (s : State) : s.openKeyless.outline = s.outline := by
  simp [State.openKeyless, outline_foldl]

/-! ### A native frame (R286-R290) -/

@[simp] theorem State.receiveSlots_outline (s : State) (l : List (List Int)) : (s.receiveSlots l).2.outline = s.outline := by
  simp [State.receiveSlots]

/-! ### Noise levels and SNR (R292) -/

@[simp] theorem State.judgeHalf_outline (s : State) (h : Nat × Rat × List Int) : (s.judgeHalf h).outline = s.outline := by
  simp [State.judgeHalf]

@[simp] theorem State.judgeBefore_outline (s : State) (tick : Nat) : (s.judgeBefore tick).outline = s.outline := by
  simp [State.judgeBefore, outline_foldl]

@[simp] theorem State.hearHalfCycle_outline (s : State) (samples : List Int) : (s.hearHalfCycle samples).outline = s.outline := by
  unfold State.hearHalfCycle
  split <;> simp [↓State.outline_ite, outline_foldl]

/-! ### Configuration that waits (R278) -/

@[simp] theorem State.settleLine_outline (s : State) : s.settleLine.outline = s.outline := by
  unfold State.settleLine
  dsimp only
  (repeat' split) <;> simp

/-! ### Anchors (R281-R285) -/

@[simp] theorem State.passAnchor_outline (s : State) (a : Nat) (positive : Bool) (half : Rat) :
    (s.passAnchor a positive half).outline = s.outline := by
  simp [State.passAnchor]

/-! ### Sending (R286, R302) -/

@[simp] theorem State.launch_outline (s : State) (f : TxFrame) : (s.launch f).outline = s.outline := by
  unfold State.launch
  dsimp only
  split <;> simp

@[simp] theorem State.stopFlight_outline (s : State) : s.stopFlight.outline = s.outline := by
  unfold State.stopFlight
  dsimp only
  (repeat' split) <;> simp

/-! ### Tone maps (R291-R295) -/

@[simp] theorem State.issueMap_outline (s : State) (address : Nat) (f : RxFrame) (forced : Bool) :
    (s.issueMap address f forced).outline = s.outline := by
  unfold State.issueMap
  split <;> simp [↓State.outline_ite]

@[simp] theorem State.mapReceived_outline (s : State) (address : Nat) (data : List Byte) :
    (s.mapReceived address data).outline = s.outline := by
  unfold State.mapReceived
  split <;> simp [↓State.outline_ite]

/-! ### Receiving (R287, R290, R293, R302) -/

@[simp] theorem State.stranger_outline (s : State) (address : Nat) : (s.stranger address).outline = s.outline := by
  simp [State.stranger, ↓State.outline_ite]

@[simp] theorem State.measureDelta_outline (s : State) (address start : Nat) (f : RxFrame) :
    (s.measureDelta address start f).outline = s.outline := by
  simp [State.measureDelta, ↓State.outline_ite]

@[simp] theorem State.heard_outline (s : State) (address start : Nat) (f : RxFrame) (data : List Byte) :
    (s.heard address start f data).outline = s.outline := by
  simp [State.heard, ↓State.outline_ite]

@[simp] theorem State.misheard_outline (s : State) (address start : Nat) (f : RxFrame) :
    (s.misheard address start f).outline = s.outline := by
  simp [State.misheard]

@[simp] theorem State.takeFrame_outline (s : State) (start : Nat) (places : List (Rat × Nat)) (f : RxFrame) :
    (s.takeFrame start places f).outline = s.outline := by
  unfold State.takeFrame
  dsimp only
  (repeat' split) <;> simp

@[simp] theorem State.meets_outline (s : State) (f : LineFrame) : (s.meets f).outline = s.outline := by
  simp [State.meets]

@[simp] theorem State.hear_outline (s : State) (f : LineFrame) : (s.hear f).outline = s.outline := by
  simp [State.hear, ↓State.outline_ite]

/-! ### Poll entries (R326, R327) -/

@[simp] theorem State.setPoll_outline (s : State) (index : Nat) (f : PollEntry → PollEntry) : (s.setPoll index f).outline = s.outline := by
  simp [State.setPoll]

@[simp] theorem State.skipPoll_outline (s : State) : s.skipPoll.outline = s.outline := by
  unfold State.skipPoll
  dsimp only
  simp [↓State.outline_ite]

@[simp] theorem State.dropUnreachable_outline (s : State) : s.dropUnreachable.outline = s.outline := by
  simp [State.dropUnreachable]

/-! ### Messages received (R324, R328-R331) -/

@[simp] theorem State.pollRecord_outline (s : State) (origin : Nat) (b : List Byte) : (s.pollRecord origin b).outline = s.outline := by
  simp [State.pollRecord, ↓State.outline_ite]

@[simp] theorem State.readyAgain_outline (s : State) (origin : Nat) (x : Option Transaction) :
    (s.readyAgain origin x).outline = s.outline := by
  simp [State.readyAgain]

@[simp] theorem State.applyReport_outline (s : State) (origin : Nat) (m : List Byte) : (s.applyReport origin m).outline = s.outline := by
  simp [State.applyReport]

@[simp] theorem State.recordPath_outline (s : State) (relays : List Nat) (target : Nat) :
    (s.recordPath relays target).outline = s.outline := by
  simp [State.recordPath]

/-! ### Discovery (R322) -/

@[simp] theorem State.sendDiscovery_outline (s : State) (net : List Byte) (target : Nat) :
    (s.sendDiscovery net target).outline = s.outline := by
  simp [State.sendDiscovery]

/-! ### Log checkpoints (R392) -/

@[simp] theorem State.writeCheckpoint_outline (s : State) : s.writeCheckpoint.outline = s.outline := by
  simp [State.writeCheckpoint, ↓State.outline_update, ↓State.outline_ite]

/-! ### Read-only, blocks (R385) -/

@[simp] theorem State.storeReadOnly_outline (s : State) : s.storeReadOnly.outline = s.outline := by
  simp [State.storeReadOnly, ↓State.outline_update, ↓State.outline_ite]

/-! ### The pages of an encrypted region (R384) -/

@[simp] theorem State.losePage_outline (s : State) (x : LostPage) : (s.losePage x).outline = s.outline := by
  unfold State.losePage
  split <;> simp [↓State.outline_update]

/-! ### Format (R386, R409, R401) -/

@[simp] theorem State.setBoot_outline (s : State) (f : BootTable → BootTable) : (s.setBoot f).outline = s.outline := by
  simp [State.setBoot, ↓State.outline_update]

@[simp] theorem State.endParks_outline (s : State) : s.endParks.outline = s.outline := by
  simp [State.endParks, outline_foldl]

/-! ### Rings and marks (R396, R397) -/

@[simp] theorem State.placeMark_outline (s : State) (session : Nat) (m : Mark) :
    (s.placeMark session m).outline = s.outline := State.setSession_outline s session (fun _ => rfl)

/-! ### FW_END (R419) -/

@[simp] theorem State.retryStatus_outline (s : State) (slot : Nat) : (s.retryStatus slot).2.outline = s.outline := by
  unfold State.retryStatus
  dsimp only
  split <;> simp

@[simp] theorem State.verified_outline (s : State) (tag slot : Nat) (x : FwSlot) (status : Nat) :
    (s.verified tag slot x status).outline = s.outline := by
  simp [State.verified, ↓State.outline_ite]

/-! ### KEY_PROVISION (R420) -/

@[simp] theorem State.provisioned_outline (s : State) (item : Nat) : (s.provisioned item).outline = s.outline := by
  simp [State.provisioned]

@[simp] theorem State.installNetworkKey_outline (s : State) (key : List Byte) : (s.installNetworkKey key).outline = s.outline := by
  simp [State.installNetworkKey, ↓State.outline_update, outline_foldl]

/-! ### Signatures (R404) -/

@[simp] theorem State.signCheckpoint_outline (s : State) (n : Nat) (signature : List Byte) :
    (s.signCheckpoint n signature).outline = s.outline := by
  unfold State.signCheckpoint
  split <;> simp [↓State.outline_update]

@[simp] theorem State.signQuote_outline (s : State) (session tag : Nat) (signature : List Byte) :
    (s.signQuote session tag signature).outline = s.outline := by
  unfold State.signQuote
  rw [State.completeOp_outline, State.setSession_outline]
  exact fun _ => rfl

@[simp] theorem State.signNext_outline (s : State) : s.signNext.outline = s.outline := by
  unfold State.signNext
  dsimp only
  (repeat' split) <;> simp [↓State.outline_update]

/-! ### Debug access (R422) -/

@[simp] theorem State.debugEvent_outline (s : State) (action : Nat) : (s.debugEvent action).outline = s.outline := by
  simp [State.debugEvent]

@[simp] theorem State.nextChallenge_outline (s : State) : s.nextChallenge.outline = s.outline := by
  simp [State.nextChallenge, ↓State.outline_update]

/-! ### Trial confirmation (R415) -/

@[simp] theorem State.programOtp_outline (s : State) (x : FwSlot) : (s.programOtp x).outline = s.outline := by
  simp [State.programOtp, ↓State.outline_update]

/-! ### Bridges (R341) -/

@[simp] theorem State.dropBridge_outline (s : State) (n : Nat) : (s.dropBridge n).outline = s.outline := by
  simp [State.dropBridge, ↓State.outline_update]

@[simp] theorem State.homeSettles_outline (s : State) (n : Nat) : (s.homeSettles n).outline = s.outline := by
  simp [State.homeSettles, ↓State.outline_ite]

@[simp] theorem State.handOverTo_outline (s : State) (n k kind : Nat) : (s.handOverTo n k kind).outline = s.outline := by
  simp [State.handOverTo, ↓State.outline_update, ↓State.outline_ite]

/-! ### Checker rotation (R346-R348) -/

@[simp] theorem State.compareFrom_outline (s : State) (n : Nat) : (s.compareFrom n).outline = s.outline := by
  simp [State.compareFrom]

@[simp] theorem State.startDwell_outline (s : State) : s.startDwell.outline = s.outline := by
  unfold State.startDwell
  extract_lets order u
  have kept : u.outline = s.outline := by simp [u, ↓State.outline_update]
  refine State.outline_of_ite rfl (State.outline_of_ite kept ?_)
  split
  · next picked =>
    extract_lets v
    have keptV : v.outline = s.outline := by
      rw [State.compareFrom_outline, State.assign_outline, State.outline_of_pick picked, kept]
    simp [↓State.outline_update, keptV]
  · exact kept

@[simp] theorem State.keepDwell_outline (s : State) (n : Nat) : (s.keepDwell n).outline = s.outline := by
  simp [State.keepDwell]

@[simp] theorem State.confirm_outline (s : State) (n first : Nat) : (s.confirm n first).outline = s.outline := by
  unfold State.confirm
  split
  · next picked => simp [↓State.outline_update, State.outline_of_pick picked]
  · next picked => rw [State.startConfirming_outline, State.evict_outline, State.outline_of_pick picked]

@[simp] theorem State.dwellEnds_outline (s : State) (n k : Nat) : (s.dwellEnds n k).outline = s.outline := by
  simp [State.dwellEnds, ↓State.outline_update, ↓State.outline_ite]

@[simp] theorem State.excludeLane_outline (s : State) (k : Nat) : (s.excludeLane k).outline = s.outline := by
  simp [State.excludeLane]

@[simp] theorem State.checkerOutcome_outline (s : State) (n outcome : Nat) : (s.checkerOutcome n outcome).outline = s.outline := by
  simp [State.checkerOutcome]

@[simp] theorem State.confirmed_outline (s : State) (n first k : Nat) (agree : Bool) :
    (s.confirmed n first k agree).outline = s.outline := by
  unfold State.confirmed
  extract_lets _ u v cleared _ faulty
  have kept : v.outline = s.outline := by simp [v, u, ↓State.outline_update]
  have keptCleared : cleared.outline = s.outline := by simp [cleared, kept]
  have keptFaulty : faulty.outline = s.outline := by simp [faulty, kept]
  refine State.outline_of_ite ?_ (State.outline_of_ite ?_ ?_)
  · simp [↓State.outline_update, keptCleared]
  · split
    · next picked => rw [State.outline_of_pick picked, keptFaulty]
    · next picked => rw [State.substitute_outline, State.evict_outline, State.outline_of_pick picked, keptFaulty]
  · simp [kept]

/-! ### The belvedere out of service (Table 1.2, Table 11.10) -/

@[simp] theorem State.dropLane_outline (s : State) (k : Nat) : (s.dropLane k).outline = s.outline := by
  unfold State.dropLane
  split <;> simp [↓State.outline_update, ↓State.outline_ite]

@[simp] theorem State.endQueuedSweeps_outline (s : State) (d : Nat) : (s.endQueuedSweeps d).outline = s.outline := by
  simp [State.endQueuedSweeps, ↓State.outline_update, outline_foldl]

@[simp] theorem State.failSweeps_outline (s : State) (d : Nat) : (s.failSweeps d).outline = s.outline := by
  simp [State.failSweeps, ↓State.outline_ite]

@[simp] theorem State.belvedereOut_outline (s : State) : s.belvedereOut.outline = s.outline := by
  simp [State.belvedereOut, ↓State.outline_update, ↓State.outline_ite, outline_foldl]

@[simp] theorem State.substituteNext_outline (s : State) : s.substituteNext.outline = s.outline := by
  unfold State.substituteNext
  refine State.outline_of_ite rfl ?_
  split
  · exact State.substituteDie_outline ..
  · rfl

@[simp] theorem State.recarry_outline (s : State) : s.recarry.outline = s.outline := by
  simp [State.recarry, ↓State.outline_ite, outline_foldl]

@[simp] theorem State.belvedereBack_outline (s : State) : s.belvedereBack.outline = s.outline := by
  simp [State.belvedereBack]

/-! ### Die failure and substitution (R349-R352) -/

@[simp] theorem State.failHome_outline (s : State) (d : Nat) : (s.failHome d).outline = s.outline := by
  simp [State.failHome, ↓State.outline_ite, outline_foldl]

@[simp] theorem State.markFailed_outline (s : State) (d : Nat) : (s.markFailed d).outline = s.outline := by
  simp [State.markFailed]

/-! ### Return (R353) -/

@[simp] theorem State.probation_outline (s : State) (d : Nat) : (s.probation d).outline = s.outline := by
  simp [State.probation, outline_foldl]

@[simp] theorem State.dieReturns_outline (s : State) (d : Nat) : (s.dieReturns d).outline = s.outline := by
  unfold State.dieReturns
  extract_lets u _ v w
  have kept : u.outline = s.outline := State.setDie_outline ..
  have keptV : v.outline = s.outline := by
    refine State.outline_of_ite ((outline_foldl _ (fun x k => ?_) _ _).trans ?_) kept
    · simp [↓State.outline_ite]
    · simp [↓State.outline_update, kept]
  have keptW : w.outline = s.outline := by
    refine (outline_foldl _ (fun x n => ?_) _ _).trans keptV
    simp [↓State.outline_ite]
  simp [keptW]

/-! ### Memories and the vector DSP (R335, R338) -/

@[simp] theorem State.countRestart_outline (s : State) (i : Nat) : (s.countRestart i).outline = s.outline := by
  simp [State.countRestart, ↓State.outline_update]

/-! ### FORCE_SUBSTITUTE (R357) -/

@[simp] theorem State.releaseChannel_outline (s : State) (n : Nat) : (s.releaseChannel n).outline = s.outline := by
  unfold State.releaseChannel
  dsimp only
  split <;> simp [↓State.outline_update, ↓State.outline_ite]

@[simp] theorem State.keepOnLane_outline (s : State) (n k : Nat) : (s.keepOnLane n k).outline = s.outline := by
  simp [State.keepOnLane, ↓State.outline_update]

/-! ### NODE_ADMIT (R308, R309) -/

@[simp] theorem State.removeNode_outline (s : State) (a : Nat) : (s.removeNode a).outline = s.outline := by
  simp [State.removeNode]

/-! ### Poll list (R325, R326) -/

@[simp] theorem State.startPolling_outline (s : State) (limit : Nat) : (s.startPolling limit).outline = s.outline := by
  simp [State.startPolling, ↓State.outline_ite]

@[simp] theorem State.stopPolling_outline (s : State) : s.stopPolling.outline = s.outline := by
  simp [State.stopPolling, ↓State.outline_ite]

/-! ### The commit (R245) -/

@[simp] theorem State.closeThrough_outline (s : State) (b : Nat) : (s.closeThrough b).outline = s.outline := by
  simp [State.closeThrough, outline_foldl]

@[simp] theorem State.foldThrough_outline (s : State) : s.foldThrough.outline = s.outline := by
  unfold State.foldThrough
  refine outline_foldl _ (fun u _ => ?_) _ _
  split
  · rfl
  · simp [↓State.outline_ite]

@[simp] theorem State.writeCommit_outline (s : State) (b : Nat) : (s.writeCommit b).outline = s.outline := by
  unfold State.writeCommit
  extract_lets first u v w
  have kept : u.outline = s.outline := by simp [u]
  have keptV : v.outline = s.outline := by
    refine (outline_foldl _ (fun x k => ?_) _ _).trans kept
    split <;> simp
  have keptW : w.outline = s.outline := by simp [w, keptV]
  simp [↓State.outline_update, keptW]

@[simp] theorem State.startCommit_outline (s : State) : s.startCommit.outline = s.outline := by
  simp [State.startCommit, ↓State.outline_update, ↓State.outline_ite]

@[simp] theorem State.endAbandonedStore_outline (s : State) : s.endAbandonedStore.outline = s.outline := by
  unfold State.endAbandonedStore
  split <;> simp [↓State.outline_update, ↓State.outline_ite]

@[simp] theorem State.commitOver_outline (s : State) : s.commitOver.outline = s.outline := by
  simp [State.commitOver, ↓State.outline_update]

@[simp] theorem State.askReset_outline (s : State) (cause : Nat) : (s.askReset cause).outline = s.outline := by
  simp [State.askReset, ↓State.outline_update]

/-! ### The end of FW_END (R419) -/

@[simp] theorem State.verify_outline (s : State) (slot : Nat) (retry : Bool) : (s.verify slot retry).2.outline = s.outline := by
  unfold State.verify
  split
  · exact State.retryStatus_outline ..
  · split <;> rfl

/-! ### Restart -/

@[simp] theorem State.restartPair_outline (s : State) (pair : Nat) : (s.restartPair pair).outline = s.outline := by
  simp [State.restartPair, ↓State.outline_update, ↓State.outline_ite]

@[simp] theorem State.repaired_outline (s : State) (die handle : Nat) : (s.repaired die handle).outline = s.outline := by
  simp [State.repaired]

@[simp] theorem State.restartStages_outline (s : State) (u : Nat) : (s.restartStages u).outline = s.outline := by
  unfold State.restartStages
  refine State.outline_of_ite ?_ (State.disturb_outline ..)
  split
  · next picked => rw [State.disturb_outline, State.outline_of_pick picked]
  · next picked => simp [↓State.outline_update, State.outline_of_pick picked]

@[simp] theorem State.discardSlot_outline (s : State) (slot : Nat) : (s.discardSlot slot).outline = s.outline := by
  simp [State.discardSlot, ↓State.outline_ite]

/-! ### Replaying a boundary record (R246) -/

@[simp] theorem State.reviveContext_outline (s : State) (c : Context) : (s.reviveContext c).outline = s.outline := by
  simp [State.reviveContext]

@[simp] theorem State.markJournal_outline (s : State) (serial : Nat) : (s.markJournal serial).outline = s.outline := by
  simp [State.markJournal]

@[simp] theorem State.bringForward_outline (s : State) (p : Plan) : (s.bringForward p).outline = s.outline := by
  unfold State.bringForward
  dsimp only
  (repeat' split) <;> simp

@[simp] theorem State.replayDemand_outline (s : State) (serial instant : Nat) (parking : Bool) :
    (s.replayDemand serial instant parking).outline = s.outline := by
  unfold State.replayDemand
  dsimp only
  (repeat' split) <;> simp

@[simp] theorem State.replaySnapshot_outline (s : State) (serial flags boundaries stop last : Nat) :
    (s.replaySnapshot serial flags boundaries stop last).outline = s.outline := by
  unfold State.replaySnapshot
  split <;> simp [↓State.outline_ite]

@[simp] theorem State.replaySnapshots_outline (s : State) (serial lo instant : Nat) (forced : Bool) :
    (s.replaySnapshots serial lo instant forced).outline = s.outline := by
  unfold State.replaySnapshots
  split <;> simp [↓State.outline_ite, outline_foldl]

@[simp] theorem State.replayStanding_outline (s : State) (p : Plan) (lo instant : Nat) :
    (s.replayStanding p lo instant).outline = s.outline := by
  unfold State.replayStanding
  split <;> simp

@[simp] theorem State.replay_outline (s : State) (p : Plan) (mask : Nat) : (s.replay p mask).outline = s.outline := by
  simp [State.replay, ↓State.outline_ite]

/-! ### One context (R246, R247, R271) -/

@[simp] theorem State.applyTampLog_outline (s : State) (serial : Nat) : (s.applyTampLog serial).outline = s.outline := by
  unfold State.applyTampLog
  extract_lets u
  have kept : u.outline = s.outline := by
    refine outline_foldl _ (fun v e => ?_) _ _
    split <;> simp [↓State.outline_ite]
  simp [↓State.outline_ite, kept]

@[simp] theorem State.cutTampers_outline (s : State) (serial instant : Nat) : (s.cutTampers serial instant).outline = s.outline := by
  simp [State.cutTampers]

@[simp] theorem State.placeRelay_outline (s : State) (serial : Nat) : (s.placeRelay serial).outline = s.outline := by
  unfold State.placeRelay
  split <;> simp [↓State.outline_update, ↓State.outline_ite]

@[simp] theorem State.restoreLocal_outline (s : State) (p : Plan) (tick start : Nat) :
    (s.restoreLocal p tick start).outline = s.outline := by
  unfold State.restoreLocal
  split <;> simp [↓State.outline_ite]

@[simp] theorem State.restoreShadow_outline (s : State) (p : Plan) : (s.restoreShadow p).outline = s.outline := by
  unfold State.restoreShadow
  extract_lets n u v w
  have kept : u.outline = s.outline := State.reviveContext_outline ..
  have keptV : v.outline = s.outline := by
    unfold v
    split <;> simp [↓State.outline_ite, kept]
  have keptW : w.outline = s.outline := by simp [w, keptV]
  refine (outline_foldl _ (fun x b => ?_) _ _).trans keptW
  split <;> simp

@[simp] theorem State.restoreContext_outline (s : State) (p : Plan) (tick start : Nat) :
    (s.restoreContext p tick start).outline = s.outline := by
  simp [State.restoreContext, ↓State.outline_ite]

/-! ### Balance groups (R275, R388) -/

@[simp] theorem State.restoreGroup_outline (s : State) (plans : List Plan) (k : Nat) : (s.restoreGroup plans k).outline = s.outline := by
  unfold State.restoreGroup
  dsimp only
  split <;> simp

/-! ### Settings and signatures -/

@[simp] theorem State.restorePolicy_outline (s : State) : s.restorePolicy.outline = s.outline := by
  unfold State.restorePolicy
  split <;> simp [↓State.outline_update]

@[simp] theorem State.restoreSettings_outline (s : State) : s.restoreSettings.outline = s.outline := by
  unfold State.restoreSettings
  split <;> simp [↓State.outline_ite]

@[simp] theorem State.reconcileFeeders_outline (s : State) : s.reconcileFeeders.outline = s.outline := by
  simp [State.reconcileFeeders, ↓State.outline_update]

@[simp] theorem State.requeue_outline (s : State) (job : SignJob) : (s.requeue job).outline = s.outline := by
  simp [State.requeue, ↓State.outline_ite]

@[simp] theorem State.requeueUnsigned_outline (s : State) : s.requeueUnsigned.outline = s.outline := by
  unfold State.requeueUnsigned
  refine State.outline_of_ite rfl ?_
  rw [outline_foldl _ (fun _ _ => State.requeue_outline ..), outline_foldl _ (fun _ _ => State.requeue_outline ..),
    outline_foldl _ (fun _ _ => State.requeue_outline ..)]

/-! ### The power warning (R427, R432, Table 14.2) -/

@[simp] theorem State.abandonFormat_outline (s : State) : s.abandonFormat.outline = s.outline := by
  unfold State.abandonFormat
  split <;> simp [↓State.outline_update]

@[simp] theorem State.cutCaptureWrites_outline (s : State) : s.cutCaptureWrites.outline = s.outline := by
  simp [State.cutCaptureWrites, ↓State.outline_update]

@[simp] theorem State.reportCutCaptures_outline (s : State) : s.reportCutCaptures.outline = s.outline := by
  simp [State.reportCutCaptures, ↓State.outline_update, outline_foldl]

@[simp] theorem State.stopForCommit_outline (s : State) : s.stopForCommit.outline = s.outline := by
  simp [State.stopForCommit, ↓State.outline_update]

@[simp] theorem State.latchWarning_outline (s : State) : s.latchWarning.outline = s.outline := by
  simp [State.latchWarning, ↓State.outline_update]

@[simp] theorem State.endCommit_outline (s : State) : s.endCommit.outline = s.outline := by
  simp [State.endCommit]

/-! ### Ride-through (R435, R249) -/

@[simp] theorem State.markProvisional_outline (s : State) : s.markProvisional.outline = s.outline := by
  simp [State.markProvisional, ↓State.outline_update, ↓State.outline_ite]

/-! ### Resets (Table 14.5) -/

@[simp] theorem State.loseBattery_outline (s : State) : s.loseBattery.outline = s.outline := by
  simp [State.loseBattery, ↓State.outline_update]

@[simp] theorem State.cutBoot_outline (s : State) : s.cutBoot.outline = s.outline := by
  unfold State.cutBoot
  dsimp only
  (repeat' split) <;> simp [↓State.outline_update]

/-! ### Boot (R413-R416) -/

@[simp] theorem State.chooseSlot_outline (s : State) : s.chooseSlot.2.outline = s.outline := by
  unfold State.chooseSlot
  dsimp only
  (repeat' split) <;> simp [↓State.outline_update]

@[simp] theorem State.boot_outline (s : State) : s.boot.2.outline = s.outline := by
  unfold State.boot
  dsimp only
  (repeat' split) <;> simp [↓State.outline_update]

/-! ### Start-up (Table 14.4) -/

@[simp] theorem State.batteryEvent_outline (s : State) (ended : Bool) (volts : F32) : (s.batteryEvent ended volts).outline = s.outline := by
  simp [State.batteryEvent]

@[simp] theorem State.startClock_outline (s : State) : s.startClock.outline = s.outline := by
  simp [State.startClock, ↓State.outline_update, ↓State.outline_ite, outline_foldl]

@[simp] theorem State.keysGone_outline (s : State) : s.keysGone.outline = s.outline := by
  simp [State.keysGone, ↓State.outline_update]

@[simp] theorem State.startCal_outline (s : State) : s.startCal.outline = s.outline := by
  unfold State.startCal
  dsimp only
  (repeat' split) <;> simp [↓State.outline_update]

@[simp] theorem State.startOtp_outline (s : State) : s.startOtp.outline = s.outline := by
  simp [State.startOtp, ↓State.outline_ite]

@[simp] theorem State.endReset_outline (s : State) (h1mode bootsel : Bool) (vioH vioS : Nat) :
    (s.endReset h1mode bootsel vioH vioS).outline = s.outline := by
  simp [State.endReset, ↓State.outline_update]

@[simp] theorem State.startEvents_outline (s : State) : s.startEvents.outline = s.outline := by
  unfold State.startEvents
  dsimp only
  split <;> simp [↓State.outline_update, ↓State.outline_ite]

/-! ### Supply faults (R429-R431) -/

@[simp] theorem State.supplyEvent_outline (s : State) (kind : Nat) (ended : Bool) (volts : F32) :
    (s.supplyEvent kind ended volts).outline = s.outline := by
  simp [State.supplyEvent]

@[simp] theorem State.batteryPasses_outline (s : State) (low : Bool) (volts : F32) : (s.batteryPasses low volts).outline = s.outline := by
  simp [State.batteryPasses, ↓State.outline_update, ↓State.outline_ite]

/-! ### The modem crystal (R454) -/

@[simp] theorem State.stopLine_outline (s : State) : s.stopLine.outline = s.outline := by
  simp [State.stopLine]

/-! ### Loss of a lane (R23, Table 1.2) -/

@[simp] theorem State.linkGone_outline (s : State) (d : Nat) (belvedere : Bool) : (s.linkGone d belvedere).outline = s.outline := by
  simp [State.linkGone, ↓State.outline_ite]

@[simp] theorem State.loseLane_outline (s : State) (d k : Nat) : (s.loseLane d k).outline = s.outline := by
  simp [State.loseLane, ↓State.outline_ite]

/-! ### Retraining (R24) -/

@[simp] theorem State.returnLane_outline (s : State) (d k : Nat) : (s.returnLane d k).outline = s.outline := by
  simp [State.returnLane, ↓State.outline_ite]

/-! ### The tally (R361) -/

@[simp] theorem State.addTotal_outline (s : State) (k : Nat) (mwh : Rat) : (s.addTotal k mwh).outline = s.outline := by
  unfold State.addTotal
  dsimp only
  split <;> simp [↓State.outline_update]

@[simp] theorem State.addElement_outline (s : State) (i : Nat) (mwh : Rat) : (s.addElement i mwh).outline = s.outline := by
  simp [State.addElement, ↓State.outline_ite]

@[simp] theorem State.tally_outline (s : State) : s.tally.outline = s.outline := by
  simp [State.tally, ↓State.outline_update, outline_foldl]

/-! ### Host -/

@[simp] theorem State.receive_outline (s : State) (p : Port) (bytes : List Byte) : (s.receive p bytes).outline = s.outline := by
  unfold State.receive
  dsimp only
  (repeat' split) <;> simp

@[simp] theorem State.refuseLength_outline (s : State) (p : Port) (bytes : List Byte) : (s.refuseLength p bytes).outline = s.outline := by
  simp [State.refuseLength]

@[simp] theorem State.writeTransfer_outline (s : State) (p : Port) (bytes : List Byte) : (s.writeTransfer p bytes).outline = s.outline := by
  simp [State.writeTransfer, ↓State.outline_ite]

/-! ### UART (R42-R45) -/

@[simp] theorem State.uartByte_outline (s : State) (b : Byte) : (s.uartByte b).outline = s.outline := by
  simp [State.uartByte, ↓State.outline_update, ↓State.outline_ite]

/-! ### CREDIT_ADD (R258) -/

@[simp] theorem State.addCredit_outline (s : State) (serial : Nat) (amount : Int) (number : Nat) :
    (s.addCredit serial amount number).outline = s.outline := by
  unfold State.addCredit
  dsimp only
  split <;> simp

/-! ### TAMPER_CONFIG (R268) -/

@[simp] theorem State.disableTamper_outline (s : State) (serial enables importOnly : Nat) :
    (s.disableTamper serial enables importOnly).outline = s.outline := by
  unfold State.disableTamper
  split <;> simp

/-! ### Pins (R261, R268, R269) -/

@[simp] theorem State.pressOn_outline (s : State) (c : Context) : (s.pressOn c).outline = s.outline := by
  simp [State.pressOn, ↓State.outline_ite]

/-! ### GET_INFO (R482) -/

@[simp] theorem State.runningImage_outline (s : State) : s.runningImage.2.outline = s.outline := by
  unfold State.runningImage
  split <;> simp

/-! ### RESET (R443, R364) -/

@[simp] theorem State.gateReset_outline (s : State) : s.gateReset.outline = s.outline := by
  simp [State.gateReset, ↓State.outline_update]

end Sys2Proof.Machine
end

section
/-! SUPPORT. Rows and commands that leave the outline of a state, in the model's order. -/

namespace Sys2Proof.Machine

/-! ### Answers and rows -/

/-- The state after the effect of an answer, before its reply. -/
def Answer.state : Answer → State
  | .done _ _ s => s
  | .defer s => s

@[simp] theorem Answer.done_state (status : Nat) (payload : List Byte) (s : State) : (Answer.done status payload s).state = s := rfl

@[simp] theorem Answer.defer_state (s : State) : (Answer.defer s).state = s := rfl

@[simp] theorem refuse_state (status : Nat) (s : State) : (refuse status s).state = s := rfl

/-- A choice between two answers that leave the outline leaves it. -/
theorem Answer.outline_of_ite {c : Prop} [Decidable c] {a b : Answer} {s : State} (yes : a.state.outline = s.outline)
    (no : b.state.outline = s.outline) : (if c then a else b).state.outline = s.outline := by
  split
  · exact yes
  · exact no

/-- A body that judges tests first leaves the outline where its effect does. -/
@[simp] theorem judged_outline {tests : List (Bool × Nat)} {s : State} {ok : Answer} (kept : ok.state.outline = s.outline) :
    (judged tests s ok).state.outline = s.outline := by
  unfold judged
  split
  · rfl
  · exact kept

/-- An accepted operation leaves the outline where its effect does. -/
@[simp] theorem accept_outline {r : Req} {s : State} {f : Nat → State → State} (keeps : ∀ tag u, (f tag u).outline = u.outline) :
    (accept r s f).state.outline = s.outline := by
  unfold accept
  split
  · exact (keeps ..).trans (State.startOp_outline ..)
  · rfl

@[simp] theorem unparked_outline {f : Req → State → Answer} (keeps : ∀ r s, (f r s).state.outline = s.outline) (r : Req) (s : State) :
    (unparked f r s).state.outline = s.outline := by
  unfold unparked
  split
  · exact Answer.outline_of_ite rfl (keeps ..)
  · exact keeps ..

@[simp] theorem withCtx_outline {f : Context → Req → State → Answer} (keeps : ∀ c r s, (f c r s).state.outline = s.outline)
    (r : Req) (s : State) : (withCtx f r s).state.outline = s.outline := by
  refine unparked_outline (fun r s => ?_) r s
  split
  · exact keeps ..
  · rfl

@[simp] theorem startVerify_outline (r : Req) (s : State) (slot : Nat) (retry : Bool) : (startVerify r s slot retry).state.outline = s.outline :=
  accept_outline (fun _ _ => by simp [↓State.outline_update])

@[simp] theorem endUpdate_outline (r : Req) (s : State) : (endUpdate r s).state.outline = s.outline := by
  unfold endUpdate
  split
  · exact Answer.outline_of_ite rfl (startVerify_outline ..)
  · rfl

@[simp] theorem State.forceChannel_outline (s : State) (n : Nat) : (s.forceChannel n).state.outline = s.outline := by
  unfold State.forceChannel
  refine Answer.outline_of_ite rfl ?_
  split
  · exact State.keepOnLane_outline ..
  · refine judged_outline ?_
    split
    · next picked =>
      extract_lets u
      have kept : u.outline = s.outline := (State.evict_outline ..).trans (State.outline_of_pick picked)
      simp [↓State.outline_update, kept]
    · next picked => exact State.outline_of_pick picked

/-- A message taken off the inbox leaves the outline. -/
theorem State.outline_of_takeMessage {s u : State} {type : Nat} {m : List Byte × List Byte} (taken : s.takeMessage type = some (m, u)) :
    u.outline = s.outline := by
  unfold State.takeMessage at taken
  split at taken
  · cases taken
    exact State.setLine_outline ..
  · cases taken

@[simp] theorem Answer.finish_outline (a : Answer) (q : Request) (r : Req) : (a.finish q r).outline = a.state.outline := by
  cases a with
  | done status payload s => exact State.answer_outline ..
  | defer s => exact State.setSession_outline s r.session (fun _ => rfl)

/-- A row whose effects leave the outline. -/
structure Row.Keeps (row : Row) : Prop where
  body : ∀ r s, (row.body r s).state.outline = s.outline
  gate : ∀ g, row.gate = some g → ∀ r s, (g r s).state.outline = s.outline

/-! ### Commands -/

/-- A command that completes leaves the outline. -/
def Keeps (s : State) : Out → Prop
  | .next u => u.outline = s.outline
  | _ => True

@[simp] theorem keeps_next (s u : State) : Keeps s (.next u) ↔ u.outline = s.outline := Iff.rfl

@[simp] theorem keeps_guarded {ok : Bool} {s u : State} (kept : u.outline = s.outline) : Keeps s (guarded ok u) := by
  cases ok
  · trivial
  · exact kept

/-- A command may be looked at from the instant it runs at. -/
theorem Keeps.of_tickTo {s : State} {t : Nat} {o : Out} (kept : Keeps (s.tickTo t) o) : Keeps s o := by
  cases o <;> exact kept

/-! ### The capture of a sweep (R142, R152) -/

@[simp] theorem execRawSample_keeps (t unit : Nat) (sample : BenchSample) (s : State) : Keeps s (execRawSample t unit sample s) := by
  unfold execRawSample
  simp [↓State.outline_ite]

/-! ### Turns (R145-R147, R151) -/

@[simp] theorem execSweepTurn_keeps (t : Nat) (reference temperature : SideCode) (s : State) :
    Keeps s (execSweepTurn t reference temperature s) := by
  unfold execSweepTurn
  refine Keeps.of_tickTo (t := t) ?_
  generalize s.tickTo t = u
  dsimp only
  rw [keeps_next]
  (repeat' split) <;> simp [↓State.outline_update]

@[simp] theorem execCorrelationPhaseEnd_keeps (t : Nat) (s : State) : Keeps s (execCorrelationPhaseEnd t s) := by
  unfold execCorrelationPhaseEnd
  refine Keeps.of_tickTo (t := t) ?_
  generalize s.tickTo t = u
  dsimp only
  rw [keeps_next]
  (repeat' split) <;> simp [↓State.outline_update]

@[simp] theorem execSweepCaptureHalf_keeps (t : Nat) (s : State) : Keeps s (execSweepCaptureHalf t s) := by
  unfold execSweepCaptureHalf
  refine Keeps.of_tickTo (t := t) ?_
  generalize s.tickTo t = u
  simp [↓State.outline_update, ↓State.outline_ite]

@[simp] theorem execSweepCaptureEnd_keeps (t : Nat) (s : State) : Keeps s (execSweepCaptureEnd t s) := by
  unfold execSweepCaptureEnd
  refine Keeps.of_tickTo (t := t) ?_
  generalize s.tickTo t = u
  dsimp only
  rw [keeps_next]
  (repeat' split) <;> simp [↓State.outline_update]

@[simp] theorem execInterruptionEnd_keeps (t : Nat) (s : State) : Keeps s (execInterruptionEnd t s) := by
  unfold execInterruptionEnd
  dsimp only
  rw [keeps_next]
  (repeat' split) <;> simp

@[simp] theorem execSweepResult_keeps (t : Nat) (s : State) : Keeps s (execSweepResult t s) := by
  unfold execSweepResult
  dsimp only
  rw [keeps_next]
  split <;> simp [↓State.outline_update]

@[simp] theorem execRampStep_keeps (t : Nat) (s : State) : Keeps s (execRampStep t s) := by
  unfold execRampStep
  refine Keeps.of_tickTo (t := t) ?_
  generalize s.tickTo t = u
  simp [↓State.outline_update]

@[simp] theorem execNewSweepRecommended_keeps (t channel : Nat) (s : State) : Keeps s (execNewSweepRecommended t channel s) := by
  unfold execNewSweepRecommended
  simp [↓State.outline_ite]

/-! ### PWMIN edges (R92) -/

@[simp] theorem execPwminEdge_keeps (t pin : Nat) (rising : Bool) (quarter : Nat) (s : State) :
    Keeps s (execPwminEdge t pin rising quarter s) := by
  unfold execPwminEdge
  simp [↓State.outline_update, ↓State.outline_ite]

/-! ### Rows of triggers -/

@[simp] theorem execTriggerTimerFiring_keeps (t timer : Nat) (s : State) : Keeps s (execTriggerTimerFiring t timer s) := by
  unfold execTriggerTimerFiring
  extract_lets u v x w
  have kept : v.outline = s.outline := State.settlePwm_outline ..
  refine keeps_guarded (State.outline_of_ite ?_ kept)
  rw [State.fireSource_outline]
  simp [w, ↓State.outline_update, kept]

@[simp] theorem execTriggerAction_keeps (t : Nat) (consumer : Consumer) (s : State) : Keeps s (execTriggerAction t consumer s) := by
  unfold execTriggerAction
  simp

/-! ### Side slice (R84-R86) -/

@[simp] theorem execSideSliceConversion_keeps (t die : Nat) (code : SideCode) (s : State) :
    Keeps s (execSideSliceConversion t die code s) := by
  unfold execSideSliceConversion
  dsimp only
  refine keeps_guarded ?_
  (repeat' split) <;> simp

/-! ### Capture rings (R137, R138, R394-R397) -/

@[simp] theorem execPostTriggerEnd_keeps (t ring : Nat) (s : State) : Keeps s (execPostTriggerEnd t ring s) := by
  unfold execPostTriggerEnd
  simp [↓State.outline_ite]

@[simp] theorem execDrainEnd_keeps (t ring : Nat) (s : State) : Keeps s (execDrainEnd t ring s) := by
  unfold execDrainEnd
  simp [↓State.outline_ite]

@[simp] theorem execCaptureRecordComplete_keeps (t ring : Nat) (s : State) : Keeps s (execCaptureRecordComplete t ring s) := by
  unfold execCaptureRecordComplete
  dsimp only
  refine keeps_guarded ?_
  (repeat' split) <;> simp

/-! ### CH_CONFIG (R100) -/

@[simp] theorem chConfigRow_keeps : chConfigRow.Keeps := ⟨fun r s => by simp [chConfigRow], nofun⟩

/-! ### CH_QUERY (R101, R119, R485) -/

@[simp] theorem chQueryRow_keeps : chQueryRow.Keeps := ⟨fun r s => by simp [chQueryRow], nofun⟩

/-! ### TRIG_CONFIG (R89-R91) -/

@[simp] theorem trigConfigRow_keeps : trigConfigRow.Keeps := by
  refine ⟨fun r s => ?_, nofun⟩
  unfold trigConfigRow
  dsimp only
  split <;> simp [↓State.outline_update]

/-! ### INJECT (R85-R88) -/

@[simp] theorem injectRow_keeps : injectRow.Keeps := ⟨fun r s => by simp [injectRow], nofun⟩

/-! ### WINDOW_SET (R94, R99) -/

@[simp] theorem windowSetRow_keeps : windowSetRow.Keeps := ⟨fun r s => by simp [windowSetRow], nofun⟩

/-! ### SYNC (R128) -/

@[simp] theorem syncRow_keeps : syncRow.Keeps := ⟨fun r s => by simp [syncRow], nofun⟩

/-! ### CAPTURE_ARM and CAPTURE_STOP (R136, R138) -/

@[simp] theorem captureArmRow_keeps : captureArmRow.Keeps := ⟨fun r s => by simp [captureArmRow], nofun⟩

@[simp] theorem captureStopRow_keeps : captureStopRow.Keeps := ⟨fun r s => by simp [captureStopRow], nofun⟩

/-! ### Finalisation and alerts (R275, R276) -/

@[simp] theorem execGroupIntervalEnd_keeps (t group : Nat) (s : State) : Keeps s (execGroupIntervalEnd t group s) := by
  unfold execGroupIntervalEnd
  dsimp only
  refine keeps_guarded ?_
  split <;> simp

@[simp] theorem execGroupIntervalFinal_keeps (t group : Nat) (s : State) : Keeps s (execGroupIntervalFinal t group s) := by
  unfold execGroupIntervalFinal
  dsimp only
  refine keeps_guarded ?_
  (repeat' split) <;> simp

/-! ### StreamRows -/

@[simp] theorem execWindowRearm_keeps (t channel : Nat) (slow : Bool) (s : State) : Keeps s (execWindowRearm t channel slow s) := by
  unfold execWindowRearm
  dsimp only
  refine keeps_guarded ?_
  split <;> simp

/-! #### Flickermeter (R198) -/

@[simp] theorem execWidebandSample_keeps (t unit : Nat) (s : State) : Keeps s (execWidebandSample t unit s) := by
  unfold execWidebandSample
  dsimp only
  refine keeps_guarded ?_
  (repeat' split) <;> simp

/-! ### Tracker (R121-R124) -/

@[simp] theorem execTrackerHoldover_keeps (t : Nat) (s : State) : Keeps s (execTrackerHoldover t s) := by
  unfold execTrackerHoldover
  refine Keeps.of_tickTo (t := t) ?_
  generalize s.tickTo t = u
  dsimp only
  rw [keeps_next]
  (repeat' split) <;> simp [↓State.outline_update]

/-! ### The tally's samples (R361) -/

@[simp] theorem execNarrowbandSample_keeps (t unit : Nat) (crossing : Option Nat) (s : State) :
    Keeps s (execNarrowbandSample t unit crossing s) := by
  unfold execNarrowbandSample
  dsimp only
  refine keeps_guarded ?_
  (repeat' split) <;> simp

@[simp] theorem execFadeEnd_keeps (t channel : Nat) (s : State) : Keeps s (execFadeEnd t channel s) := by
  unfold execFadeEnd
  simp

/-! ### Window peak (R131) -/

@[simp] theorem execPeakWindowEnd_keeps (t channel : Nat) (s : State) : Keeps s (execPeakWindowEnd t channel s) := by
  unfold execPeakWindowEnd
  dsimp only
  refine keeps_guarded ?_
  split <;> simp

/-! ### The row -/

@[simp] theorem execSynchronousCycle_keeps (t next512 : Nat) (s : State) : Keeps s (execSynchronousCycle t next512 s) := by
  unfold execSynchronousCycle
  dsimp only
  rw [keeps_next]
  (repeat' split) <;> simp

/-! ### MEAS_CONFIG (R174-R177, R506) -/

@[simp] theorem measConfigRow_keeps : measConfigRow.Keeps := ⟨fun r s => by simp [measConfigRow], nofun⟩

/-! ### Reading blocks (R213, R214, Tables 6.9-6.12) -/

@[simp] theorem measReadRow_keeps : measReadRow.Keeps := by
  refine ⟨fun r s => ?_, nofun⟩
  unfold measReadRow
  dsimp only
  refine unparked_outline ?_ r s
  intro r s
  split <;> rfl

@[simp] theorem harmonicReadRow_keeps : harmonicReadRow.Keeps := by
  refine ⟨fun r s => ?_, nofun⟩
  unfold harmonicReadRow
  dsimp only
  split <;> simp

@[simp] theorem flickerReadRow_keeps : flickerReadRow.Keeps := by
  refine ⟨fun r s => ?_, nofun⟩
  unfold flickerReadRow
  dsimp only
  refine judged_outline ?_
  simp

/-! ### PQ_EVENT_CONFIG (R201, R491) -/

@[simp] theorem pqEventConfigRow_keeps : pqEventConfigRow.Keeps := by
  refine ⟨fun r s => ?_, nofun⟩
  unfold pqEventConfigRow
  dsimp only
  split <;> simp [↓State.outline_update]

/-! ### Intervals -/

@[simp] theorem execBasicIntervalEnd_keeps (t : Nat) (s : State) : Keeps s (execBasicIntervalEnd t s) := by
  unfold execBasicIntervalEnd
  simp

/-! ### 150/180 cycles (R181) -/

@[simp] theorem execAggregate150180_keeps (t : Nat) (s : State) : Keeps s (execAggregate150180 t s) := by
  unfold execAggregate150180
  refine Keeps.of_tickTo (t := t) ?_
  generalize s.tickTo t = u
  simp [↓State.outline_update]

/-! ### 10 minutes and 2 hours (R180, R182) -/

@[simp] theorem execTenMinutePeriodEnd_keeps (t : Nat) (s : State) : Keeps s (execTenMinutePeriodEnd t s) := by
  unfold execTenMinutePeriodEnd
  dsimp only
  rw [keeps_next]
  split <;> simp [↓State.outline_ite, outline_foldl]

@[simp] theorem execTwoHourWindowEnd_keeps (t : Nat) (s : State) : Keeps s (execTwoHourWindowEnd t s) := by
  unfold execTwoHourWindowEnd
  dsimp only
  rw [keeps_next]
  (repeat' split) <;> simp

/-! ### 10-second frequency (R189, R207) -/

@[simp] theorem execTenSecondFrequency_keeps (t : Nat) (s : State) : Keeps s (execTenSecondFrequency t s) := by
  unfold execTenSecondFrequency
  dsimp only
  rw [keeps_next]
  (repeat' split) <;> simp

/-! ### Supraharmonics and Pinst (R195-R198) -/

@[simp] theorem execSupraharmonicBlockEnd_keeps (t : Nat) (s : State) : Keeps s (execSupraharmonicBlockEnd t s) := by
  unfold execSupraharmonicBlockEnd
  simp

@[simp] theorem execPinstSecond_keeps (t : Nat) (s : State) : Keeps s (execPinstSecond t s) := by
  unfold execPinstSecond
  refine Keeps.of_tickTo (t := t) ?_
  generalize s.tickTo t = u
  simp [↓State.outline_update, ↓State.outline_ite]

/-! ### The fold (R16, R222, R236) -/

@[simp] theorem execTickClose_keeps (t : Nat) (s : State) : Keeps s (execTickClose t s) := by
  unfold execTickClose
  simp [↓State.outline_ite]

@[simp] theorem execTickFold_keeps (t : Nat) (s : State) : Keeps s (execTickFold t s) := by
  unfold execTickFold
  dsimp only
  rw [keeps_next]
  (repeat' split) <;> simp

@[simp] theorem execDemandIntervalEnd_keeps (t : Nat) (s : State) : Keeps s (execDemandIntervalEnd t s) := by
  unfold execDemandIntervalEnd
  simp

@[simp] theorem execLoadProfileEntry_keeps (t : Nat) (s : State) : Keeps s (execLoadProfileEntry t s) := by
  unfold execLoadProfileEntry
  simp

@[simp] theorem execTariffChange_keeps (t : Nat) (s : State) : Keeps s (execTariffChange t s) := by
  unfold execTariffChange
  simp

@[simp] theorem execBillingBoundary_keeps (t : Nat) (s : State) : Keeps s (execBillingBoundary t s) := by
  unfold execBillingBoundary
  simp

@[simp] theorem execStandingCharge_keeps (t : Nat) (s : State) : Keeps s (execStandingCharge t s) := by
  unfold execStandingCharge
  simp

@[simp] theorem execFriendlyTimeChange_keeps (t : Nat) (s : State) : Keeps s (execFriendlyTimeChange t s) := by
  unfold execFriendlyTimeChange
  simp

@[simp] theorem execCheckpoint_keeps (t : Nat) (s : State) : Keeps s (execCheckpoint t s) := by
  unfold execCheckpoint
  simp

@[simp] theorem execTariffPinCode_keeps (t code : Nat) (s : State) : Keeps s (execTariffPinCode t code s) := by
  unfold execTariffPinCode
  refine Keeps.of_tickTo (t := t) ?_
  generalize s.tickTo t = u
  simp [↓State.outline_update, ↓State.outline_ite]

/-! ### CAL_SWEEP (R144, Table 5.3) -/

@[simp] theorem calSweepRow_keeps : calSweepRow.Keeps := by
  refine ⟨fun r s => ?_, nofun⟩
  unfold calSweepRow
  dsimp only
  refine judged_outline ?_
  simp [↓State.outline_update]

/-! ### CAL_STATUS (R163, R488, Table 16.12) -/

@[simp] theorem calStatusRow_keeps : calStatusRow.Keeps := ⟨fun r s => by simp [calStatusRow], nofun⟩

/-! ### Images (R166-R168, Tables 5.11 and 5.12) -/

@[simp] theorem calImageReadRow_keeps : calImageReadRow.Keeps := ⟨fun r s => by simp [calImageReadRow], nofun⟩

@[simp] theorem calImageWriteRow_keeps : calImageWriteRow.Keeps :=
  ⟨fun r s => by simp [calImageWriteRow, ↓State.outline_update, outline_foldl], nofun⟩

/-! ### Store slots (R169-R173) -/

@[simp] theorem calStoreRow_keeps : calStoreRow.Keeps := by
  refine ⟨fun r s => ?_, nofun⟩
  unfold calStoreRow
  dsimp only
  refine judged_outline ?_
  simp [↓State.outline_update]

@[simp] theorem execCalStoreComplete_keeps (t : Nat) (s : State) : Keeps s (execCalStoreComplete t s) := by
  unfold execCalStoreComplete
  refine Keeps.of_tickTo (t := t) ?_
  generalize s.tickTo t = u
  dsimp only
  rw [keeps_next]
  (repeat' split) <;> simp [↓State.outline_update]

@[simp] theorem calRestoreRow_keeps : calRestoreRow.Keeps := by
  refine ⟨fun r s => ?_, nofun⟩
  unfold calRestoreRow
  dsimp only
  split
  · rfl
  · refine judged_outline (accept_outline (fun tag u => ?_))
    simp [↓State.outline_update]

@[simp] theorem execCalRestoreComplete_keeps (t : Nat) (s : State) : Keeps s (execCalRestoreComplete t s) := by
  unfold execCalRestoreComplete
  refine Keeps.of_tickTo (t := t) ?_
  generalize s.tickTo t = u
  dsimp only
  rw [keeps_next]
  (repeat' split) <;> simp [↓State.outline_update]

/-! ### CAL_LIMITS (R164, R487) -/

@[simp] theorem calLimitsReadRow_keeps : calLimitsReadRow.Keeps := ⟨fun r s => by simp [calLimitsReadRow], nofun⟩

@[simp] theorem calLimitsWriteRow_keeps : calLimitsWriteRow.Keeps := ⟨fun r s => by simp [calLimitsWriteRow, ↓State.outline_update], nofun⟩

/-! ### SET_TIME, GET_TIME, SET_CLOCK_POLICY -/

@[simp] theorem setTimeRow_keeps : setTimeRow.Keeps := ⟨fun r s => by simp [setTimeRow, ↓State.outline_update, ↓State.outline_ite], nofun⟩

@[simp] theorem getTimeRow_keeps : getTimeRow.Keeps := ⟨fun r s => by simp [getTimeRow], nofun⟩

@[simp] theorem setClockPolicyRow_keeps : setClockPolicyRow.Keeps := ⟨fun r s => by simp [setClockPolicyRow, ↓State.outline_update], nofun⟩

/-! ### PPS (R448-R452) -/

@[simp] theorem execPpsEdge_keeps (t quarter : Nat) (s : State) : Keeps s (execPpsEdge t quarter s) := by
  unfold execPpsEdge
  simp [↓State.outline_ite]

@[simp] theorem execPpsUnlock_keeps (t : Nat) (s : State) : Keeps s (execPpsUnlock t s) := by
  unfold execPpsUnlock
  refine Keeps.of_tickTo (t := t) ?_
  generalize s.tickTo t = u
  simp [↓State.outline_update, ↓State.outline_ite]

@[simp] theorem execRateEstimateExpiry_keeps (t : Nat) (s : State) : Keeps s (execRateEstimateExpiry t s) := by
  unfold execRateEstimateExpiry
  simp [↓State.outline_update, ↓State.outline_ite]

/-! ### The RTC (R453, R454, R243) -/

@[simp] theorem execRtcWrite_keeps (t : Nat) (s : State) : Keeps s (execRtcWrite t s) := by
  unfold execRtcWrite
  refine Keeps.of_tickTo (t := t) ?_
  generalize s.tickTo t = u
  simp [↓State.outline_update, ↓State.outline_ite]

@[simp] theorem execRtcCrystalStop_keeps (t : Nat) (s : State) : Keeps s (execRtcCrystalStop t s) := by
  unfold execRtcCrystalStop
  refine Keeps.of_tickTo (t := t) ?_
  generalize s.tickTo t = u
  simp [↓State.outline_update, ↓State.outline_ite]

@[simp] theorem execRtcOscillatorRestart_keeps (t : Nat) (s : State) : Keeps s (execRtcOscillatorRestart t s) := by
  unfold execRtcOscillatorRestart
  refine Keeps.of_tickTo (t := t) ?_
  generalize s.tickTo t = u
  simp [↓State.outline_update, ↓State.outline_ite]

/-! ### The SYNC pin (R447) and the modem clock (R32) -/

@[simp] theorem execSyncEdge_keeps (t widthNs : Nat) (s : State) : Keeps s (execSyncEdge t widthNs s) := by
  unfold execSyncEdge
  refine Keeps.of_tickTo (t := t) ?_
  generalize s.tickTo t = u
  simp [↓State.outline_update, ↓State.outline_ite]

@[simp] theorem execTimingMessage_keeps (t modemCount : Nat) (s : State) : Keeps s (execTimingMessage t modemCount s) := by
  unfold execTimingMessage
  refine Keeps.of_tickTo (t := t) ?_
  generalize s.tickTo t = u
  simp [↓State.outline_update, ↓State.outline_ite]

/-! ### CTX_CREATE (R217, R218) -/

@[simp] theorem ctxCreateRow_keeps : ctxCreateRow.Keeps := by
  refine ⟨fun r s => judged_outline ?_, nofun⟩
  extract_lets c before u v
  have kept : u.outline = s.outline := State.addLive_outline ..
  rw [Answer.done_state, State.poolLow_outline, State.poolWrite_outline]
  simp [↓State.outline_update, kept]

/-! ### CTX_DELETE (R219) -/

@[simp] theorem ctxDeleteRow_keeps : ctxDeleteRow.Keeps := by
  refine ⟨fun r s => ?_, nofun⟩
  unfold ctxDeleteRow
  dsimp only
  refine unparked_outline ?_ r s
  intro r s
  generalize (if r.handle = 0 then _ else _ : Option Context) = found
  cases found <;> simp

/-! ### CTX_READ (R220) -/

@[simp] theorem ctxReadRow_keeps : ctxReadRow.Keeps := by
  refine ⟨fun r s => ?_, nofun⟩
  unfold ctxReadRow
  dsimp only
  split <;> simp

/-! ### CTX_TARIFF_TABLE and CTX_DEMAND_CONFIG (R228, R229) -/

@[simp] theorem ctxTariffTableRow_keeps : ctxTariffTableRow.Keeps := ⟨fun r s => by simp [ctxTariffTableRow], nofun⟩

@[simp] theorem ctxDemandConfigRow_keeps : ctxDemandConfigRow.Keeps := ⟨fun r s => by simp [ctxDemandConfigRow], nofun⟩

/-! ### CTX_SNAPSHOT_READ (R235) -/

@[simp] theorem ctxSnapshotReadRow_keeps : ctxSnapshotReadRow.Keeps := by
  refine ⟨fun r s => ?_, nofun⟩
  unfold ctxSnapshotReadRow
  dsimp only
  refine withCtx_outline ?_ r s
  intro c r s
  split <;> rfl

/-! ### CTX_PARK (R253) -/

@[simp] theorem ctxParkRow_keeps : ctxParkRow.Keeps := by
  refine ⟨fun r s => ?_, nofun⟩
  unfold ctxParkRow
  dsimp only
  split
  · rfl
  · refine judged_outline (accept_outline (fun tag u => ?_))
    generalize kept : u.setCtx _ _ = v
    simp [↓State.outline_update, ← kept]

@[simp] theorem execCtxParkComplete_keeps (t serial : Nat) (s : State) : Keeps s (execCtxParkComplete t serial s) := by
  unfold execCtxParkComplete
  dsimp only
  rw [keeps_next]
  (repeat' split) <;> simp

/-! ### CTX_UNPARK (R254, R247) -/

@[simp] theorem ctxUnparkRow_keeps : ctxUnparkRow.Keeps := by
  refine ⟨fun r s => ?_, nofun⟩
  unfold ctxUnparkRow
  dsimp only
  split <;> simp

/-! ### CTX_SHADOW_FEED (R251) -/

@[simp] theorem ctxShadowFeedRow_keeps : ctxShadowFeedRow.Keeps := ⟨fun r s => by simp [ctxShadowFeedRow], nofun⟩

/-! ### BALANCE_CONFIG (R273, R493) -/

@[simp] theorem balanceParametersRow_keeps : balanceParametersRow.Keeps := ⟨fun r s => by simp [balanceParametersRow], nofun⟩

@[simp] theorem balanceAddRow_keeps : balanceAddRow.Keeps := ⟨fun r s => by simp [balanceAddRow], nofun⟩

@[simp] theorem balanceRemoveRow_keeps : balanceRemoveRow.Keeps := ⟨fun r s => by simp [balanceRemoveRow], nofun⟩

@[simp] theorem balanceDissolveRow_keeps : balanceDissolveRow.Keeps := ⟨fun r s => by simp [balanceDissolveRow, ↓State.outline_ite], nofun⟩

/-! ### BALANCE_READ (R275, R493) -/

@[simp] theorem balanceReadResultsRow_keeps : balanceReadResultsRow.Keeps := ⟨fun r s => by simp [balanceReadResultsRow], nofun⟩

@[simp] theorem balanceReadMembersRow_keeps : balanceReadMembersRow.Keeps := ⟨fun r s => by simp [balanceReadMembersRow], nofun⟩

/-! ### Session -/

@[simp] theorem yieldRow_keeps : yieldRow.Keeps := by
  refine ⟨fun r s => ?_, nofun⟩
  unfold yieldRow
  dsimp only
  (repeat' split) <;> simp [↓State.outline_update]

@[simp] theorem keepaliveRow_keeps :
    keepaliveRow.Keeps := ⟨fun r s => by simp [keepaliveRow, ↓State.outline_update, ↓State.outline_ite], nofun⟩

@[simp] theorem whoOwnsRow_keeps : whoOwnsRow.Keeps := ⟨fun r s => by simp [whoOwnsRow], nofun⟩

/-! ### EVENT_READ (R375, R379) -/

@[simp] theorem eventReadRow_keeps : eventReadRow.Keeps := ⟨fun r s => by simp [eventReadRow], nofun⟩

@[simp] theorem eventReadFlushRow_keeps : eventReadFlushRow.Keeps := ⟨fun r s => by simp [eventReadFlushRow], nofun⟩

/-! ### EVENT_MASK and WATERMARK_SET (R374, R380) -/

@[simp] theorem eventMaskRow_keeps : eventMaskRow.Keeps := ⟨fun r s => by simp [eventMaskRow], nofun⟩

@[simp] theorem watermarkSetRow_keeps : watermarkSetRow.Keeps := ⟨fun r s => by simp [watermarkSetRow], nofun⟩

/-! ### FENCE (R376) -/

@[simp] theorem fenceRow_keeps : fenceRow.Keeps := ⟨fun r s => by simp [fenceRow], nofun⟩

@[simp] theorem execFenceMarker_keeps (t session : Nat) (s : State) : Keeps s (execFenceMarker t session s) := by
  unfold execFenceMarker
  simp

/-! ### Equaliser banks (R113-R118) -/

@[simp] theorem bankLoadRow_keeps : bankLoadRow.Keeps := ⟨fun r s => by simp [bankLoadRow], nofun⟩

@[simp] theorem bankSwapRow_keeps : bankSwapRow.Keeps := by
  refine ⟨fun r s => ?_, nofun⟩
  unfold bankSwapRow
  dsimp only
  (repeat' split) <;> simp

/-! ### DETECTOR_SET (R130) -/

@[simp] theorem detectorSetRow_keeps : detectorSetRow.Keeps := ⟨fun r s => by simp [detectorSetRow], nofun⟩

/-! ### RESAMPLER_SET (R120, R124, R126) -/

@[simp] theorem resamplerSetRow_keeps : resamplerSetRow.Keeps := ⟨fun r s => by simp [resamplerSetRow, ↓State.outline_update], nofun⟩

@[simp] theorem resamplerSetDelayRow_keeps : resamplerSetDelayRow.Keeps := ⟨fun r s => by simp [resamplerSetDelayRow], nofun⟩

/-! ### STREAM_READ (R134, R135, R486) -/

@[simp] theorem streamReadRow_keeps : streamReadRow.Keeps := by
  refine ⟨fun r s => ?_, nofun⟩
  unfold streamReadRow
  dsimp only
  refine judged_outline ?_
  (repeat' split) <;> simp

/-! ### Anchors (R281-R285) -/

@[simp] theorem execAnchorPrediction_keeps (t : Nat) (s : State) : Keeps s (execAnchorPrediction t s) := by
  unfold execAnchorPrediction
  dsimp only
  rw [keeps_next]
  (repeat' split) <;> simp

@[simp] theorem execAnchor_keeps (t : Nat) (positive : Bool) (line : List Int) (s : State) : Keeps s (execAnchor t positive line s) := by
  unfold execAnchor
  dsimp only
  rw [keeps_next]
  (repeat' split) <;> simp

@[simp] theorem execFreeRunTimeout_keeps (t : Nat) (s : State) : Keeps s (execFreeRunTimeout t s) := by
  unfold execFreeRunTimeout
  simp [↓State.outline_ite]

@[simp] theorem execAnchorResume_keeps (t : Nat) (s : State) : Keeps s (execAnchorResume t s) := by
  unfold execAnchorResume
  simp [↓State.outline_ite]

/-! ### Sending (R286, R302) -/

@[simp] theorem execFrameTransmit_keeps (t : Nat) (s : State) : Keeps s (execFrameTransmit t s) := by
  unfold execFrameTransmit
  dsimp only
  rw [keeps_next]
  (repeat' split) <;> simp

@[simp] theorem execMapFrameSend_keeps (t : Nat) (s : State) : Keeps s (execMapFrameSend t s) := by
  unfold execMapFrameSend
  dsimp only
  rw [keeps_next]
  (repeat' split) <;> simp

@[simp] theorem execFrameSent_keeps (t : Nat) (s : State) : Keeps s (execFrameSent t s) := by
  unfold execFrameSent
  dsimp only
  rw [keeps_next]
  (repeat' split) <;> simp

@[simp] theorem execDriverProtection_keeps (t : Nat) (s : State) : Keeps s (execDriverProtection t s) := by
  unfold execDriverProtection
  simp [↓State.outline_ite]

@[simp] theorem execDriverProtectionClear_keeps (t : Nat) (s : State) : Keeps s (execDriverProtectionClear t s) := by
  unfold execDriverProtectionClear
  simp [↓State.outline_ite]

/-! ### Receiving (R287, R290, R293, R302) -/

@[simp] theorem execDelimiterDetected_keeps (t : Nat) (s : State) : Keeps s (execDelimiterDetected t s) := by
  unfold execDelimiterDetected
  simp [↓State.outline_ite]

@[simp] theorem execFrameReceived_keeps (t : Nat) (frame : LineFrame) (s : State) : Keeps s (execFrameReceived t frame s) := by
  unfold execFrameReceived
  simp

@[simp] theorem execMapFrameReceived_keeps (t : Nat) (frame : LineFrame) (s : State) : Keeps s (execMapFrameReceived t frame s) := by
  unfold execMapFrameReceived
  simp [↓State.outline_ite]

@[simp] theorem execErasureRateWindow_keeps (t : Nat) (s : State) : Keeps s (execErasureRateWindow t s) := by
  unfold execErasureRateWindow
  simp [↓State.outline_ite]

/-! ### S-FSK (R303, R304) -/

@[simp] theorem execSfskTransmit_keeps (t : Nat) (s : State) : Keeps s (execSfskTransmit t s) := by
  unfold execSfskTransmit
  dsimp only
  rw [keeps_next]
  (repeat' split) <;> simp

@[simp] theorem execSfskFrameReceived_keeps (t : Nat) (bits : List (List Int)) (s : State) : Keeps s (execSfskFrameReceived t bits s) := by
  unfold execSfskFrameReceived
  dsimp only
  rw [keeps_next]
  (repeat' split) <;> simp

/-! ### Poll entries (R326, R327) -/

@[simp] theorem execPollEntryDue_keeps (t index : Nat) (s : State) : Keeps s (execPollEntryDue t index s) := by
  unfold execPollEntryDue
  dsimp only
  rw [keeps_next]
  (repeat' split) <;> simp

@[simp] theorem execTransactionStart_keeps (t : Nat) (s : State) : Keeps s (execTransactionStart t s) := by
  unfold execTransactionStart
  dsimp only
  rw [keeps_next]
  (repeat' split) <;> simp

@[simp] theorem execTransactionDeadline_keeps (t id : Nat) (s : State) : Keeps s (execTransactionDeadline t id s) := by
  unfold execTransactionDeadline
  dsimp only
  rw [keeps_next]
  (repeat' split) <;> simp

/-! ### Messages received (R324, R328-R331) -/

@[simp] theorem execIntervalDataResponse_keeps (t : Nat) (s : State) : Keeps s (execIntervalDataResponse t s) := by
  unfold execIntervalDataResponse
  extract_lets u
  rw [keeps_next]
  split
  · rfl
  · next taken =>
    extract_lets x w v y
    clear_value x
    have kept := State.outline_of_takeMessage taken
    have keptW : w.outline = u.outline := by
      unfold w
      split <;> simp [kept]
    have keptV : v.outline = u.outline :=
      State.outline_of_ite ((outline_foldl _ (fun _ _ => State.pollRecord_outline ..) _ _).trans keptW) keptW
    have keptY : y.outline = u.outline := State.outline_of_ite ((State.readyAgain_outline ..).trans keptV) keptV
    exact (State.pump_outline ..).trans keptY

@[simp] theorem execRouteError_keeps (t : Nat) (s : State) : Keeps s (execRouteError t s) := by
  unfold execRouteError
  extract_lets u
  rw [keeps_next]
  split
  · rfl
  · next taken =>
    extract_lets relay next lost v old w
    have kept : w.outline = u.outline := by
      rw [State.setMesh_outline, State.raise_outline, State.outline_of_takeMessage taken]
    split
    · exact (State.failAttempt_outline ..).trans kept
    · exact kept

@[simp] theorem execNeighbourReport_keeps (t : Nat) (s : State) : Keeps s (execNeighbourReport t s) := by
  unfold execNeighbourReport
  extract_lets u
  rw [keeps_next]
  split
  · rfl
  · next taken =>
    extract_lets origin v w x
    have keptV : v.outline = u.outline := by
      unfold v
      split <;> simp [State.outline_of_takeMessage taken, u]
    have keptW : w.outline = u.outline := (State.applyReport_outline ..).trans keptV
    have keptX : x.outline = u.outline := by
      unfold x
      split
      · exact State.outline_of_ite ((State.recordPath_outline ..).trans keptW) keptW
      · exact keptW
    exact State.outline_of_ite keptV ((State.pump_outline ..).trans keptX)

@[simp] theorem execHostResponse_keeps (t : Nat) (s : State) : Keeps s (execHostResponse t s) := by
  unfold execHostResponse
  extract_lets u
  rw [keeps_next]
  split
  · rfl
  · next taken =>
    have kept := State.outline_of_takeMessage taken
    split
    · exact kept
    · extract_lets data known v
      have keptV : v.outline = u.outline := (State.completeFlight_outline ..).trans kept
      split
      · exact (State.pump_outline ..).trans keptV
      · simp [↓State.outline_ite, keptV, u]

/-! ### Discovery (R322) -/

@[simp] theorem execDiscoveryStart_keeps (t : Nat) (s : State) : Keeps s (execDiscoveryStart t s) := by
  unfold execDiscoveryStart
  dsimp only
  rw [keeps_next]
  (repeat' split) <;> simp

@[simp] theorem execDiscoveryTimeout_keeps (t : Nat) (s : State) : Keeps s (execDiscoveryTimeout t s) := by
  unfold execDiscoveryTimeout
  dsimp only
  rw [keeps_next]
  (repeat' split) <;> simp

@[simp] theorem execRoutePass_keeps (t : Nat) (s : State) : Keeps s (execRoutePass t s) := by
  unfold execRoutePass
  simp [↓State.outline_ite]

@[simp] theorem execLinkSilence_keeps (t handle : Nat) (s : State) : Keeps s (execLinkSilence t handle s) := by
  unfold execLinkSilence
  dsimp only
  rw [keeps_next]
  (repeat' split) <;> simp

/-! ### Log checkpoints (R392) -/

@[simp] theorem execLogCheckpoint_keeps (t : Nat) (s : State) : Keeps s (execLogCheckpoint t s) := by
  unfold execLogCheckpoint
  simp [↓State.outline_ite]

/-! ### The pages of an encrypted region (R384) -/

@[simp] theorem execBlockRetire_keeps (t device : Nat) (lost : List LostPage) (s : State) : Keeps s (execBlockRetire t device lost s) := by
  unfold execBlockRetire
  simp [↓State.outline_update, ↓State.outline_ite, outline_foldl]

/-! ### Format (R386, R409, R401) -/

@[simp] theorem storeFormatRow_keeps : storeFormatRow.Keeps := by
  refine ⟨fun r s => ?_, nofun⟩
  unfold storeFormatRow
  dsimp only
  refine judged_outline ?_
  simp [↓State.outline_update]

/-! ### STORE_INFO (R499) -/

@[simp] theorem storeInfoRow_keeps : storeInfoRow.Keeps := ⟨fun r s => by simp [storeInfoRow], nofun⟩

/-! ### Rings and marks (R396, R397) -/

@[simp] theorem captureReadRow_keeps : captureReadRow.Keeps := by
  refine ⟨fun r s => ?_, nofun⟩
  unfold captureReadRow
  dsimp only
  (repeat' split) <;> simp

@[simp] theorem markSetRow_keeps : markSetRow.Keeps := ⟨fun r s => by simp [markSetRow], nofun⟩

@[simp] theorem markClearRow_keeps : markClearRow.Keeps :=
  ⟨fun r s => State.setSession_outline s r.session (fun _ => rfl), nofun⟩

/-! ### LOG_READ (R393) -/

@[simp] theorem logReadRow_keeps : logReadRow.Keeps := by
  refine ⟨fun r s => ?_, nofun⟩
  unfold logReadRow
  dsimp only
  split <;> simp

/-! ### FW_BEGIN (R417) -/

@[simp] theorem fwBeginRow_keeps : fwBeginRow.Keeps := by
  refine ⟨fun r s => ?_, nofun⟩
  unfold fwBeginRow
  dsimp only
  refine judged_outline ?_
  simp [↓State.outline_update]

@[simp] theorem execFwBeginComplete_keeps (t : Nat) (s : State) : Keeps s (execFwBeginComplete t s) := by
  unfold execFwBeginComplete
  refine Keeps.of_tickTo (t := t) ?_
  generalize s.tickTo t = u
  dsimp only
  rw [keeps_next]
  split <;> simp [↓State.outline_update]

/-! ### FW_DATA (R418) -/

@[simp] theorem fwDataRow_keeps : fwDataRow.Keeps := by
  refine ⟨fun r s => ?_, nofun⟩
  unfold fwDataRow
  dsimp only
  split
  · rfl
  · next u _ =>
    have drawn : (if u.data.length < 65536 then (0, s) else s.draw).2.outline = s.outline := by
      split <;> rfl
    generalize (if u.data.length < 65536 then (0, s) else s.draw) = d at drawn ⊢
    rw [judged_outline]
    · exact drawn
    · simp [↓State.outline_update]

/-! ### FW_END (R419) -/

@[simp] theorem fwEndRow_keeps : fwEndRow.Keeps := ⟨fun r s => by simp [fwEndRow], nofun⟩

@[simp] theorem fwEndRetryRow_keeps : fwEndRetryRow.Keeps := by
  refine ⟨fun r s => ?_, nofun⟩
  unfold fwEndRetryRow
  dsimp only
  split <;> simp

/-! ### ATTEST (R421) -/

@[simp] theorem attestQuoteRow_keeps : attestQuoteRow.Keeps := by
  refine ⟨fun r s => judged_outline (accept_outline (fun tag u => ?_)), nofun⟩
  extract_lets q
  rw [State.queueJob_outline, State.setSession_outline]
  exact fun _ => rfl

@[simp] theorem attestFetchRow_keeps : attestFetchRow.Keeps := by
  refine ⟨fun r s => ?_, nofun⟩
  unfold attestFetchRow
  dsimp only
  split
  · rfl
  · exact Answer.outline_of_ite (State.setSession_outline s r.session (fun _ => rfl)) rfl

@[simp] theorem attestPublicKeyRow_keeps : attestPublicKeyRow.Keeps := ⟨fun r s => by simp [attestPublicKeyRow], nofun⟩

@[simp] theorem attestCertificateRow_keeps : attestCertificateRow.Keeps := by
  refine ⟨fun r s => ?_, nofun⟩
  unfold attestCertificateRow
  dsimp only
  refine judged_outline ?_
  simp

/-! ### KEY_PROVISION (R420) -/

@[simp] theorem keyProvisionTransportKeyRow_keeps : keyProvisionTransportKeyRow.Keeps :=
  ⟨fun r s => by simp [keyProvisionTransportKeyRow, ↓State.outline_update], nofun⟩

@[simp] theorem keyProvisionNetworkKeyRow_keeps : keyProvisionNetworkKeyRow.Keeps := by
  refine ⟨fun r s => ?_, nofun⟩
  unfold keyProvisionNetworkKeyRow
  dsimp only
  refine judged_outline ?_
  split <;> simp

@[simp] theorem keyProvisionCertificateRow_keeps :
    keyProvisionCertificateRow.Keeps := ⟨fun r s => by simp [keyProvisionCertificateRow], nofun⟩

/-! ### Signatures (R404) -/

@[simp] theorem execSignatureComplete_keeps (t : Nat) (s : State) : Keeps s (execSignatureComplete t s) := by
  unfold execSignatureComplete
  simp [↓State.outline_ite]

/-! ### Debug access (R422) -/

@[simp] theorem execDebugAuthentication_keeps (t : Nat) (signature : List Byte) (s : State) :
    Keeps s (execDebugAuthentication t signature s) := by
  unfold execDebugAuthentication
  simp [↓State.outline_update, ↓State.outline_ite]

/-! ### Trial confirmation (R415) -/

@[simp] theorem execTrialConfirmation_keeps (t : Nat) (s : State) : Keeps s (execTrialConfirmation t s) := by
  unfold execTrialConfirmation
  refine Keeps.of_tickTo (t := t) ?_
  generalize s.tickTo t = u
  simp [↓State.outline_update, ↓State.outline_ite]

/-! ### Bridges (R341) -/

@[simp] theorem execBridgeHandover_keeps (t channel : Nat) (s : State) : Keeps s (execBridgeHandover t channel s) := by
  unfold execBridgeHandover
  dsimp only
  refine keeps_guarded ?_
  (repeat' split) <;> simp

@[simp] theorem execBridgeHandback_keeps (t channel : Nat) (s : State) : Keeps s (execBridgeHandback t channel s) := by
  unfold execBridgeHandback
  dsimp only
  refine keeps_guarded ?_
  (repeat' split) <;> simp

/-! ### Checker rotation (R346-R348) -/

@[simp] theorem execCheckerDwellEnd_keeps (t : Nat) (s : State) : Keeps s (execCheckerDwellEnd t s) := by
  unfold execCheckerDwellEnd
  dsimp only
  rw [keeps_next]
  (repeat' split) <;> simp

@[simp] theorem execConfirmingDwellEnd_keeps (t : Nat) (lanesAgree : Bool) (s : State) :
    Keeps s (execConfirmingDwellEnd t lanesAgree s) := by
  unfold execConfirmingDwellEnd
  refine Keeps.of_tickTo (t := t) ?_
  generalize s.tickTo t = u
  dsimp only
  rw [keeps_next]
  (repeat' split) <;> simp [↓State.outline_update]

/-! ### Die failure and substitution (R349-R352) -/

@[simp] theorem execDieFailure_keeps (t die : Nat) (cause : DieFault) (s : State) : Keeps s (execDieFailure t die cause s) := by
  unfold execDieFailure
  refine Keeps.of_tickTo (t := t) ?_
  generalize s.tickTo t = u
  simp [↓State.outline_update, ↓State.outline_ite]

@[simp] theorem execSubstitutionComplete_keeps (t : Nat) (s : State) : Keeps s (execSubstitutionComplete t s) := by
  unfold execSubstitutionComplete
  refine Keeps.of_tickTo (t := t) ?_
  generalize s.tickTo t = u
  dsimp only
  rw [keeps_next]
  (repeat' split) <;> simp [↓State.outline_update]

/-! ### Return (R353) -/

@[simp] theorem execDieReturnTry_keeps (t die : Nat) (selfTest : Bool) (s : State) : Keeps s (execDieReturnTry t die selfTest s) := by
  unfold execDieReturnTry
  simp [↓State.outline_ite]

@[simp] theorem execDieReturn_keeps (t die : Nat) (s : State) : Keeps s (execDieReturn t die s) := by
  unfold execDieReturn
  simp [↓State.outline_ite]

/-! ### Memories and the vector DSP (R335, R338) -/

@[simp] theorem execScrub_keeps (t die region corrected : Nat) (s : State) : Keeps s (execScrub t die region corrected s) := by
  unfold execScrub
  simp [↓State.outline_ite]

@[simp] theorem execDspFault_keeps (t : Nat) (s : State) : Keeps s (execDspFault t s) := by
  unfold execDspFault
  dsimp only
  rw [keeps_next]
  (repeat' split) <;> simp

@[simp] theorem execProcessorCheckpoint_keeps (t : Nat) (s : State) : Keeps s (execProcessorCheckpoint t s) := by
  unfold execProcessorCheckpoint
  simp

/-! ### HEALTH_READ (Table 16.24) -/

@[simp] theorem healthReadRow_keeps : healthReadRow.Keeps := ⟨fun r s => by simp [healthReadRow], nofun⟩

/-! ### CHECKER_CONFIG (R356) -/

@[simp] theorem checkerConfigRow_keeps : checkerConfigRow.Keeps := ⟨fun r s => by simp [checkerConfigRow, ↓State.outline_update], nofun⟩

@[simp] theorem checkerConfigSkipMaskRow_keeps : checkerConfigSkipMaskRow.Keeps := ⟨fun r s => by simp [checkerConfigSkipMaskRow], nofun⟩

/-! ### REPAIR_LOG (R355) -/

@[simp] theorem repairLogRow_keeps : repairLogRow.Keeps := by
  refine ⟨fun r s => ?_, nofun⟩
  unfold repairLogRow
  dsimp only
  (repeat' split) <;> simp

/-! ### FORCE_SUBSTITUTE (R357) -/

@[simp] theorem forceReleaseRow_keeps : forceReleaseRow.Keeps := ⟨fun r s => by simp [forceReleaseRow, ↓State.outline_ite], nofun⟩

@[simp] theorem forceChannelRow_keeps : forceChannelRow.Keeps := ⟨fun r s => by simp [forceChannelRow], nofun⟩

@[simp] theorem forceDieRow_keeps : forceDieRow.Keeps :=
  ⟨fun r s => by simp [forceDieRow, ↓State.outline_ite, outline_foldl], nofun⟩

/-! ### LINE_CONFIG (R277, R278) -/

@[simp] theorem lineConfigRow_keeps : lineConfigRow.Keeps := ⟨fun r s => by simp [lineConfigRow], nofun⟩

/-! ### TONEMAP (R296) -/

@[simp] theorem tonemapReadRow_keeps : tonemapReadRow.Keeps := by
  refine ⟨fun r s => ?_, nofun⟩
  unfold tonemapReadRow
  dsimp only
  refine judged_outline ?_
  simp

@[simp] theorem tonemapPinRow_keeps : tonemapPinRow.Keeps := by
  refine ⟨fun r s => ?_, nofun⟩
  unfold tonemapPinRow
  dsimp only
  refine judged_outline ?_
  split <;> simp

@[simp] theorem tonemapUnpinRow_keeps : tonemapUnpinRow.Keeps := by
  refine ⟨fun r s => ?_, nofun⟩
  unfold tonemapUnpinRow
  dsimp only
  refine judged_outline ?_
  split <;> simp

/-! ### NODE_ADMIT (R308, R309) -/

@[simp] theorem nodeAdmitAdmitRow_keeps : nodeAdmitAdmitRow.Keeps := ⟨fun r s => by simp [nodeAdmitAdmitRow, ↓State.outline_ite], nofun⟩

@[simp] theorem nodeAdmitRemoveRow_keeps : nodeAdmitRemoveRow.Keeps := ⟨fun r s => by simp [nodeAdmitRemoveRow], nofun⟩

/-! ### ROUTE_READ (R323) -/

@[simp] theorem routeReadRow_keeps : routeReadRow.Keeps := ⟨fun r s => by simp [routeReadRow], nofun⟩

/-! ### Poll list (R325, R326) -/

@[simp] theorem pollListLoadRow_keeps : pollListLoadRow.Keeps := ⟨fun r s => by simp [pollListLoadRow], nofun⟩

@[simp] theorem pollStartRow_keeps : pollStartRow.Keeps := ⟨fun r s => by simp [pollStartRow], nofun⟩

@[simp] theorem pollStopRow_keeps : pollStopRow.Keeps := ⟨fun r s => by simp [pollStopRow], nofun⟩

/-! ### LINE_SEND (R331, R303) -/

@[simp] theorem lineSendRow_keeps : lineSendRow.Keeps := ⟨fun r s => by simp [lineSendRow], nofun⟩

@[simp] theorem lineSendSfskRow_keeps : lineSendSfskRow.Keeps := ⟨fun r s => by simp [lineSendSfskRow], nofun⟩

/-! ### LINE_STATS (R306, R496) -/

@[simp] theorem lineStatsNeighbourRow_keeps : lineStatsNeighbourRow.Keeps := ⟨fun r s => by simp [lineStatsNeighbourRow], nofun⟩

@[simp] theorem lineStatsCountersRow_keeps : lineStatsCountersRow.Keeps := ⟨fun r s => by simp [lineStatsCountersRow], nofun⟩

@[simp] theorem lineStatsSfskFramesRow_keeps : lineStatsSfskFramesRow.Keeps := ⟨fun r s => by simp [lineStatsSfskFramesRow], nofun⟩

@[simp] theorem lineStatsResponseRow_keeps : lineStatsResponseRow.Keeps := by
  refine ⟨fun r s => ?_, nofun⟩
  unfold lineStatsResponseRow
  dsimp only
  split <;> simp

/-! ### PRIVILEGE_SET (R298) -/

@[simp] theorem privilegeSetRow_keeps : privilegeSetRow.Keeps := ⟨fun r s => by simp [privilegeSetRow], nofun⟩

@[simp] theorem privilegeClearRow_keeps : privilegeClearRow.Keeps := ⟨fun r s => by simp [privilegeClearRow], nofun⟩

/-! ### Lifecycle transitions (R408-R410) -/

@[simp] theorem lifecycleAdvanceRow_keeps : lifecycleAdvanceRow.Keeps := by
  refine ⟨fun r s => ?_, nofun⟩
  unfold lifecycleAdvanceRow
  dsimp only
  refine judged_outline ?_
  simp [↓State.outline_update]

/-! ### The end of FW_END (R419) -/

@[simp] theorem execFwEndComplete_keeps (t : Nat) (s : State) : Keeps s (execFwEndComplete t s) := by
  unfold execFwEndComplete
  extract_lets u _ v
  rw [keeps_next]
  split
  · rfl
  · refine State.outline_of_ite rfl ?_
    extract_lets a verified _ w
    have keptV : v.outline = u.outline := by simp [v, ↓State.outline_update]
    have kept : a.2.outline = u.outline := (State.verify_outline ..).trans keptV
    split
    · exact (State.completeOp_outline ..).trans kept
    · extract_lets x
      have keptW : w.outline = u.outline := by simp [w, verified, ↓State.outline_update, kept]
      have keptX : x.outline = u.outline := (State.verified_outline ..).trans keptW
      exact State.outline_of_ite ((State.askReset_outline ..).trans keptX) keptX

/-! ### Restart -/

@[simp] theorem execLockstepMismatch_keeps (t pair : Nat) (s : State) : Keeps s (execLockstepMismatch t pair s) := by
  unfold execLockstepMismatch
  simp [↓State.outline_ite]

@[simp] theorem execUncorrectableError_keeps (t : Nat) (place : MemWhere) (s : State) : Keeps s (execUncorrectableError t place s) := by
  unfold execUncorrectableError
  dsimp only
  refine keeps_guarded ?_
  (repeat' split) <;> simp

/-! ### The power warning (R427, R432, Table 14.2) -/

@[simp] theorem execPowerWarning_keeps (t : Nat) (s : State) : Keeps s (execPowerWarning t s) := by
  unfold execPowerWarning
  simp [↓State.outline_ite]

/-! ### Ride-through (R435, R249) -/

@[simp] theorem execRideThrough_keeps (t : Nat) (lowest : F32) (s : State) : Keeps s (execRideThrough t lowest s) := by
  unfold execRideThrough
  dsimp only
  rw [keeps_next]
  (repeat' split) <;> simp [↓State.outline_update]

@[simp] theorem execRideThroughCheckpointEnd_keeps (t : Nat) (belowWarning : Bool) (s : State) :
    Keeps s (execRideThroughCheckpointEnd t belowWarning s) := by
  unfold execRideThroughCheckpointEnd
  simp [↓State.outline_update, ↓State.outline_ite]

/-! ### Supply faults (R429-R431) -/

@[simp] theorem execVanaSupplyFault_keeps (t : Nat) (dies : List Nat) (volts : F32) (s : State) :
    Keeps s (execVanaSupplyFault t dies volts s) := by
  unfold execVanaSupplyFault
  refine Keeps.of_tickTo (t := t) ?_
  generalize s.tickTo t = u
  simp [↓State.outline_update, ↓State.outline_ite]

@[simp] theorem execVanaRecovery_keeps (t : Nat) (volts : F32) (s : State) : Keeps s (execVanaRecovery t volts s) := by
  unfold execVanaRecovery
  refine Keeps.of_tickTo (t := t) ?_
  generalize s.tickTo t = u
  simp [↓State.outline_update, ↓State.outline_ite]

@[simp] theorem execVioSFault_keeps (t : Nat) (volts : F32) (s : State) : Keeps s (execVioSFault t volts s) := by
  unfold execVioSFault
  refine Keeps.of_tickTo (t := t) ?_
  generalize s.tickTo t = u
  simp [↓State.outline_update, ↓State.outline_ite]

@[simp] theorem execVioSRecovery_keeps (t : Nat) (volts : F32) (s : State) : Keeps s (execVioSRecovery t volts s) := by
  unfold execVioSRecovery
  refine Keeps.of_tickTo (t := t) ?_
  generalize s.tickTo t = u
  simp [↓State.outline_update, ↓State.outline_ite]

@[simp] theorem execVbatLow_keeps (t : Nat) (volts : F32) (s : State) : Keeps s (execVbatLow t volts s) := by
  unfold execVbatLow
  simp [↓State.outline_ite]

@[simp] theorem execVbatLowClear_keeps (t : Nat) (volts : F32) (s : State) : Keeps s (execVbatLowClear t volts s) := by
  unfold execVbatLowClear
  simp [↓State.outline_ite]

/-! ### The modem crystal (R454) -/

@[simp] theorem execModemCrystalLoss_keeps (t : Nat) (s : State) : Keeps s (execModemCrystalLoss t s) := by
  unfold execModemCrystalLoss
  refine Keeps.of_tickTo (t := t) ?_
  generalize s.tickTo t = u
  simp [↓State.outline_update, ↓State.outline_ite]

/-! ### Loss of a lane (R23, Table 1.2) -/

@[simp] theorem execVarfinFrame_keeps (t link lane seq : Nat) (crcOk : Bool) (s : State) :
    Keeps s (execVarfinFrame t link lane seq crcOk s) := by
  unfold execVarfinFrame
  dsimp only
  refine keeps_guarded ?_
  (repeat' split) <;> simp

@[simp] theorem execVarfinResendTimeout_keeps (t link : Nat) (s : State) : Keeps s (execVarfinResendTimeout t link s) := by
  unfold execVarfinResendTimeout
  simp [↓State.outline_ite]

@[simp] theorem execLaneLoss_keeps (t die lane : Nat) (s : State) : Keeps s (execLaneLoss t die lane s) := by
  unfold execLaneLoss
  simp [↓State.outline_ite]

/-! ### Retraining (R24) -/

@[simp] theorem execLaneRetrain_keeps (t die lane : Nat) (s : State) : Keeps s (execLaneRetrain t die lane s) := by
  unfold execLaneRetrain
  simp [↓State.outline_ite]

@[simp] theorem execLaneReturn_keeps (t die lane : Nat) (s : State) : Keeps s (execLaneReturn t die lane s) := by
  unfold execLaneReturn
  simp [↓State.outline_ite]

/-! ### The register set (Table 11.8) -/

@[simp] theorem gatehouseReadRow_keeps : gatehouseReadRow.Keeps := by
  refine ⟨fun r s => ?_, fun g given r s => ?_⟩
  · simp [gatehouseReadRow]
  · cases given
    simp

/-! ### The tally (R361) -/

@[simp] theorem execTallyTick_keeps (t : Nat) (s : State) : Keeps s (execTallyTick t s) := by
  unfold execTallyTick
  simp [↓State.outline_update, ↓State.outline_ite]

/-! ### Host -/

@[simp] theorem execWritePacket_keeps (t : Nat) (p : Port) (code : Nat) (bytes : List Byte) (s : State) :
    Keeps s (execWritePacket t p code bytes s) := by
  unfold execWritePacket
  simp [↓State.outline_ite]

@[simp] theorem execReadPacket_keeps (t : Nat) (p : Port) (clocked : Nat) (s : State) : Keeps s (execReadPacket t p clocked s) := by
  unfold execReadPacket
  simp [↓State.outline_ite]

@[simp] theorem execReadStatus_keeps (t : Nat) (p : Port) (clocked : Nat) (s : State) : Keeps s (execReadStatus t p clocked s) := by
  unfold execReadStatus
  simp [↓State.outline_ite]

/-! ### UART (R42-R45) -/

@[simp] theorem execSyncByte_keeps (t : Nat) (value : Nat) (baud : Nat) (s : State) : Keeps s (execSyncByte t value baud s) := by
  unfold execSyncByte
  refine Keeps.of_tickTo (t := t) ?_
  generalize s.tickTo t = u
  simp [↓State.outline_update, ↓State.outline_ite]

@[simp] theorem execUartRequest_keeps (t : Nat) (bytes : List Byte) (s : State) : Keeps s (execUartRequest t bytes s) := by
  unfold execUartRequest
  simp [↓State.outline_ite, outline_foldl]

@[simp] theorem execUartIdleGap_keeps (t : Nat) (gap : Nat) (s : State) : Keeps s (execUartIdleGap t gap s) := by
  unfold execUartIdleGap
  refine Keeps.of_tickTo (t := t) ?_
  generalize s.tickTo t = u
  simp [↓State.outline_update, ↓State.outline_ite]

@[simp] theorem execBreakLine_keeps (t : Nat) (bits : Nat) (s : State) : Keeps s (execBreakLine t bits s) := by
  unfold execBreakLine
  refine Keeps.of_tickTo (t := t) ?_
  generalize s.tickTo t = u
  simp [↓State.outline_update, ↓State.outline_ite]

@[simp] theorem execUartReplySent_keeps (t : Nat) (s : State) : Keeps s (execUartReplySent t s) := by
  unfold execUartReplySent
  refine Keeps.of_tickTo (t := t) ?_
  generalize s.tickTo t = u
  dsimp only
  rw [keeps_next]
  (repeat' split) <;> simp [↓State.outline_update]

/-! ### PREPAY_CONFIG (R255) -/

@[simp] theorem prepayConfigRow_keeps : prepayConfigRow.Keeps := ⟨fun r s => by simp [prepayConfigRow], nofun⟩

/-! ### CREDIT_ADD (R258) -/

@[simp] theorem creditAddRow_keeps : creditAddRow.Keeps := by
  refine ⟨fun r s => ?_, nofun⟩
  unfold creditAddRow
  dsimp only
  refine withCtx_outline ?_ r s
  intro c r s
  refine judged_outline (Answer.outline_of_ite rfl ?_)
  exact State.addCredit_outline ..

/-! ### EMERGENCY_CREDIT (R260) -/

@[simp] theorem emergencyCreditRow_keeps : emergencyCreditRow.Keeps := ⟨fun r s => by simp [emergencyCreditRow], nofun⟩

/-! ### FRIENDLY_SET (R262) -/

@[simp] theorem friendlySetRow_keeps : friendlySetRow.Keeps := ⟨fun r s => by simp [friendlySetRow], nofun⟩

/-! ### RELAY_CONTROL (R263, Table 8.2) -/

@[simp] theorem relayRow_keeps {picks : Nat → Bool} {tests : Req → State → List (Bool × Nat)} {f : Nat → Req → State → State}
    (keeps : ∀ k r s, (f k r s).outline = s.outline) : (relayRow picks tests f).Keeps :=
  ⟨fun _ _ => judged_outline (keeps ..), nofun⟩

@[simp] theorem relayQueryRow_keeps : relayQueryRow.Keeps := relayRow_keeps (fun _ _ _ => rfl)

@[simp] theorem relayOpenRow_keeps : relayOpenRow.Keeps := by
  refine relayRow_keeps (fun k r s => ?_)
  split <;> simp

@[simp] theorem relayCloseRow_keeps : relayCloseRow.Keeps := by
  refine relayRow_keeps (fun k r s => ?_)
  split <;> simp [↓State.outline_ite]

@[simp] theorem relayArmRow_keeps : relayArmRow.Keeps := by
  refine relayRow_keeps (fun k r s => ?_)
  split <;> simp

@[simp] theorem relayPolarityRow_keeps : relayPolarityRow.Keeps :=
  relayRow_keeps (fun k r s => by simp [↓State.outline_update])

/-! ### TAMPER_CONFIG (R268) -/

@[simp] theorem tamperContextRow_keeps : tamperContextRow.Keeps := ⟨fun r s => by simp [tamperContextRow], nofun⟩

@[simp] theorem tamperLevelsRow_keeps : tamperLevelsRow.Keeps := ⟨fun r s => by simp [tamperLevelsRow, ↓State.outline_update], nofun⟩

/-! ### TAMPER_READ (R270) -/

@[simp] theorem tamperReadRow_keeps : tamperReadRow.Keeps := by
  refine ⟨fun r s => ?_, nofun⟩
  unfold tamperReadRow
  dsimp only
  refine withCtx_outline ?_ r s
  intro c r s
  split <;> rfl

/-! ### Pins (R261, R268, R269) -/

@[simp] theorem execCreditBtnPress_keeps (t high low : Nat) (s : State) : Keeps s (execCreditBtnPress t high low s) := by
  unfold execCreditBtnPress
  refine Keeps.of_tickTo (t := t) ?_
  generalize s.tickTo t = u
  simp [↓State.outline_update, ↓State.outline_ite]

@[simp] theorem execTamperSwitch_keeps (t input : Nat) (level : Bool) (s : State) : Keeps s (execTamperSwitch t input level s) := by
  unfold execTamperSwitch
  refine Keeps.of_tickTo (t := t) ?_
  generalize s.tickTo t = u
  simp [↓State.outline_update, ↓State.outline_ite]

/-! ### System -/

theorem undefinedRow_keeps (opcode : Nat) : (undefinedRow opcode).Keeps := ⟨fun _ _ => rfl, fun _ given => by cases given⟩

/-! ### PING (Table 16.4) -/

@[simp] theorem pingRow_keeps : pingRow.Keeps := by
  refine ⟨fun r s => ?_, fun g given r s => ?_⟩
  · simp [pingRow]
  · cases given
    simp

/-! ### GET_INFO (R482) -/

@[simp] theorem getInfoRow_keeps : getInfoRow.Keeps := ⟨fun r s => by simp [getInfoRow], nofun⟩

/-! ### GET_STATUS (R481) -/

@[simp] theorem getStatusRow_keeps : getStatusRow.Keeps := by
  refine ⟨fun r s => ?_, fun g given r s => ?_⟩
  · simp [getStatusRow]
  · cases given
    simp [↓State.outline_update]

/-! ### RESET (R443, R364) -/

@[simp] theorem resetRow_keeps : resetRow.Keeps := by
  refine ⟨fun r s => ?_, fun g given r s => ?_⟩
  · simp [resetRow]
  · cases given
    simp

@[simp] theorem resetIntoRecoveryRow_keeps : resetIntoRecoveryRow.Keeps := ⟨fun r s => by simp [resetIntoRecoveryRow], nofun⟩

end Sys2Proof.Machine
end

section
/-! SUPPORT. What every command does to the outline: sessions and ownership, resets, start-up, the format and gatehouse mode (R57-R68, R409, R437,
R440-R444, R359), and with them all commands. -/

namespace Sys2Proof.Machine

/-! ### What a command may do to the outline -/

/-- No session is open, none owns the part, and no election runs. -/
def Outline.Quiet (o : Outline) : Prop := (∀ x ∈ o.opens, x = false) ∧ o.owner = none ∧ o.election = none

/-- Of a lawful change: the part keeps its objects, and while it is held in reset it stays quiet. -/
structure Lawful (s u : State) : Prop where
  objects : s.outline.objects = partShape → u.outline.objects = partShape
  quiet : (s.outline.phase = .held → s.outline.Quiet) → u.outline.phase = .held → u.outline.Quiet

theorem Lawful.of_outline {s u : State} (same : u.outline = s.outline) : Lawful s u := by
  constructor <;> rw [same] <;> exact id

theorem Lawful.trans {s u v : State} (first : Lawful s u) (second : Lawful u v) : Lawful s v :=
  ⟨second.objects ∘ first.objects, second.quiet ∘ first.quiet⟩

/-- A part that is not in reset may do what it likes with its sessions. -/
theorem Lawful.of_running {s u : State} (objects : s.outline.objects = partShape → u.outline.objects = partShape) (runs : u.phase ≠ .held) :
    Lawful s u := ⟨objects, fun _ held => absurd held runs⟩

/-- A choice between two lawful changes. -/
theorem Lawful.ite {c : Prop} [Decidable c] {s a b : State} (yes : Lawful s a) (no : Lawful s b) : Lawful s (if c then a else b) := by
  split
  · exact yes
  · exact no

theorem Lawful.refl (s : State) : Lawful s s := .of_outline rfl

/-- The number of each object and where the part stands: what sessions and ownership do not touch. -/
def State.place (s : State) : List Nat × Phase := (s.shape, s.phase)

theorem State.place_of_outline {s u : State} (same : u.outline = s.outline) : u.place = s.place :=
  congrArg (fun o => (o.objects, o.phase)) same

/-- What moves sessions or ownership alone is lawful if it does nothing to a part that is quiet. -/
theorem Lawful.of_place {s u : State} (same : u.place = s.place) (idle : s.outline.Quiet → u = s) : Lawful s u where
  objects parts := (congrArg Prod.fst same).trans parts
  quiet silent held := by
    have standing : s.outline.phase = .held := (congrArg Prod.snd same).symm.trans held
    have quiet := silent standing
    rw [idle quiet]
    exact quiet

/-! ### Sessions and ownership -/

theorem State.setHost_place (s : State) {h : HostState} (same : h.sessions.length = s.host.sessions.length) :
    State.place { s with host := h } = s.place := by
  simp only [State.place, State.shape, same]

theorem State.setSession_place (s : State) (k : Nat) (f : Session → Session) : (s.setSession k f).place = s.place :=
  State.setHost_place s (by simp)

theorem State.setOwner_place (s : State) (o : Option Nat) (cause : Nat) : (s.setOwner o cause).place = s.place :=
  (State.place_of_outline (State.raise_outline ..)).trans (State.setHost_place s rfl)

theorem State.loseOwner_place (s : State) (cause : Nat) : (s.loseOwner cause).place = s.place := by
  unfold State.loseOwner
  split
  · rfl
  · rw [State.setOwner_place]
    exact State.place_of_outline (by simp)

theorem State.endElection_place (s : State) : s.endElection.place = s.place := by
  unfold State.endElection
  split
  · rfl
  · extract_lets _ u
    have ended : u.place = s.place := State.setHost_place s rfl
    split
    · exact ended
    · extract_lets v w
      have completed : v.place = s.place :=
        (State.place_of_outline (outline_foldl _ (fun _ _ => State.completeOp_outline ..) _ _)).trans ended
      exact (State.setHost_place w rfl).trans ((State.setOwner_place ..).trans completed)

theorem State.withdraw_place (s : State) (k : Nat) : (s.withdraw k).place = s.place := by
  unfold State.withdraw
  split
  · rfl
  · extract_lets gone left u
    exact (State.setHost_place u rfl).trans (State.place_of_outline (outline_foldl _ (fun _ _ => State.completeOp_outline ..) _ _))

theorem State.closeSession_place (s : State) (k : Nat) : (s.closeSession k).place = s.place := by
  unfold State.closeSession
  extract_lets closed withdrawn lost ended abandoned
  have keptWithdrawn : withdrawn.place = s.place := (State.withdraw_place ..).trans (State.setSession_place ..)
  have keptLost : lost.place = s.place := by
    unfold lost
    split
    · exact (State.loseOwner_place ..).trans keptWithdrawn
    · exact keptWithdrawn
  have keptEnded : ended.place = s.place := by
    refine (State.place_of_outline (u := ended) (s := lost) ?_).trans keptLost
    exact State.outline_of_ite (State.endHandover_outline ..) rfl
  exact (State.setHost_place abandoned rfl).trans ((State.place_of_outline (State.abandonUpdateOf_outline ..)).trans keptEnded)

theorem State.addClaim_place (s : State) (r : Req) (tag : Nat) : (s.addClaim r tag).place = s.place := State.setHost_place s rfl

theorem State.electionBefore_place (s : State) (at_ : Nat) : (s.electionBefore at_).place = s.place := by
  unfold State.electionBefore
  split
  · exact State.endElection_place s
  · rfl

theorem State.handOver_place (s : State) (k : Nat) : (s.handOver k).place = s.place := by
  unfold State.handOver
  extract_lets old ended abandoned
  rw [State.setOwner_place]
  refine State.place_of_outline ?_
  clear_value old
  unfold abandoned
  split <;> simp [ended]

/-- Without an election, no window ends. -/
theorem State.electionBefore_idle {s : State} (idle : s.host.election = none) (at_ : Nat) : s.electionBefore at_ = s := by
  unfold State.electionBefore
  rw [idle]
  rfl

/-- Without an owner, none is lost. -/
theorem State.loseOwner_idle {s : State} (idle : s.host.owner = none) (cause : Nat) : s.loseOwner cause = s := by
  unfold State.loseOwner
  rw [idle]

/-! ### Rows -/

/-- A row whose effects are lawful in a part that is not in reset. -/
structure Row.Lawful (row : Row) : Prop where
  body : ∀ r s, s.phase ≠ .held → Machine.Lawful s (row.body r s).state
  gate : ∀ g, row.gate = some g → ∀ r s, s.phase ≠ .held → Machine.Lawful s (g r s).state

theorem Row.Keeps.lawful {row : Row} (keeps : row.Keeps) : row.Lawful :=
  ⟨fun r s _ => .of_outline (keeps.body r s), fun g given r s _ => .of_outline (keeps.gate g given r s)⟩

/-- A row without an answer of its own in gatehouse mode is lawful if its body moves sessions and ownership alone. -/
theorem Row.Lawful.of_place {row : Row} (gate : row.gate = none) (body : ∀ r s, (row.body r s).state.place = s.place) : row.Lawful where
  body r s on := .of_running (congrArg Prod.fst (body r s)).trans (fun held => on ((congrArg Prod.snd (body r s)).symm.trans held))
  gate g given := by
    rw [gate] at given
    cases given

theorem Lawful.answer (s : State) (r : Req) (status : Nat) (payload : List Byte) : Lawful s (s.answer r status payload) :=
  .of_outline (State.answer_outline ..)

section

variable {row : Row} (lawful : row.Lawful) (q : Request) (r : Req) {s : State} (on : s.phase ≠ .held)

include lawful on

theorem Row.Lawful.normal : Machine.Lawful s (row.normal q r s) := by
  unfold Row.normal
  refine .ite (.answer ..) (.ite (.answer ..) ?_)
  split
  · exact .of_outline (State.queueReply_outline ..)
  · split
    · exact .ite (.refl s) (.answer ..)
    · split
      · exact .answer ..
      · exact (lawful.body r s on).trans (.of_outline (Answer.finish_outline ..))

theorem Row.Lawful.inRecovery : Machine.Lawful s (row.inRecovery q r s) := by
  unfold Row.inRecovery
  refine .ite (.answer ..) ?_
  split
  · exact .answer ..
  · refine .ite (.answer ..) (.ite (.answer ..) (.ite (.answer ..) (.ite (.answer ..) (.ite (.answer ..) ?_))))
    exact (lawful.body r s on).trans (.of_outline (Answer.finish_outline ..))

theorem Row.Lawful.inGatehouse : Machine.Lawful s (row.inGatehouse q r s) := by
  unfold Row.inGatehouse
  refine .ite (.answer ..) ?_
  split
  · exact .answer ..
  · refine .ite (.answer ..) ?_
    split
    · exact .answer ..
    · next given => exact (lawful.gate _ given r s on).trans (.of_outline (Answer.finish_outline ..))

end

theorem Row.Lawful.run {row : Row} (lawful : row.Lawful) (q : Request) (r : Req) (s : State) : Machine.Lawful s (row.run q r s) := by
  unfold Row.run
  split
  · exact .refl s
  · exact .refl s
  · next at_ => exact lawful.normal q r (by rw [at_]; nofun)
  · next at_ => exact lawful.normal q r (by rw [at_]; nofun)
  · next at_ => exact lawful.inRecovery q r (by rw [at_]; nofun)
  · next at_ => exact lawful.inGatehouse q r (by rw [at_]; nofun)

theorem Row.Lawful.serve {row : Row} (lawful : row.Lawful) (t : Nat) (p : Port) (s : State) : Machine.Lawful s (row.serve t p s) := by
  unfold Row.serve
  extract_lets u
  have ticked : Machine.Lawful s u := .of_outline (State.tickTo_outline ..)
  refine ticked.trans ?_
  split
  · exact .refl u
  · split
    · exact .of_outline (by simp)
    · exact .ite ((Machine.Lawful.of_outline (State.take_outline ..)).trans (lawful.run ..)) (.refl u)

theorem accept_place {r : Req} {s : State} {f : Nat → State → State} (keeps : ∀ tag u, (f tag u).place = u.place) :
    (accept r s f).state.place = s.place := by
  unfold accept
  split
  · exact (keeps ..).trans (State.place_of_outline (State.startOp_outline ..))
  · rfl

theorem openRow_lawful : openRow.Lawful := by
  refine .of_place rfl (fun r s => ?_)
  unfold openRow
  dsimp only
  split
  · rfl
  · exact (State.place_of_outline (State.openEvents_outline ..)).trans (State.setSession_place ..)

theorem closeRow_lawful : closeRow.Lawful := .of_place rfl (fun _ _ => State.closeSession_place ..)

theorem claimRow_lawful : claimRow.Lawful := by
  refine .of_place rfl (fun r s => ?_)
  unfold claimRow
  dsimp only
  split
  · split <;> exact State.electionBefore_place ..
  · exact (accept_place (fun _ _ => State.addClaim_place ..)).trans (State.electionBefore_place ..)

theorem acceptRow_lawful : acceptRow.Lawful := by
  refine .of_place rfl (fun r s => ?_)
  unfold acceptRow
  dsimp only
  split
  · rfl
  · split
    · exact State.place_of_outline (State.endHandover_outline ..)
    · split
      · rfl
      · exact State.handOver_place ..

/-! ### Resets -/

@[simp] theorem State.cutTransition_outline (s : State) : s.cutTransition.outline = s.outline := by
  unfold State.cutTransition
  split
  · rfl
  · dsimp only
    simp [↓State.outline_update, ↓State.outline_ite]

theorem State.enterReset_lawful (s : State) (cause until_ : Nat) : Lawful s (s.enterReset cause until_) where
  objects parts := by
    have counts : s.bill.groups.length = 16 ∧ s.bill.tamp.length = 4 := by
      simp only [State.outline, State.shape, partShape, List.cons.injEq] at parts
      tauto
    simp [State.outline, State.shape, State.enterReset, partShape, counts]
  quiet _ _ := by
    have held := s.enterReset_held cause until_
    refine ⟨?_, held.owner, rfl⟩
    simpa [State.outline] using held.sessions

theorem State.resetNow_lawful (s : State) (cause until_ : Nat) : Lawful s (s.resetNow cause until_) :=
  (Lawful.of_outline s.cutTransition_outline).trans (State.enterReset_lawful ..)

theorem State.powerOn_lawful (s : State) (cause until_ : Nat) : Lawful s (s.powerOn cause until_) := by
  unfold State.powerOn
  extract_lets notBefore u
  refine (s.resetNow_lawful cause notBefore).trans (.of_outline ?_)
  exact State.outline_update u rfl rfl rfl rfl rfl rfl rfl rfl rfl rfl

theorem State.pendingReset_lawful (s : State) : Lawful s s.pendingReset := by
  unfold State.pendingReset
  split
  · exact .refl s
  · exact State.resetNow_lawful ..

/-! ### The format -/

/-- Sixteen groups are what the part has: an update of the groups to sixteen is lawful where it leaves what else the outline holds. -/
theorem Lawful.regroup {s u : State} (sixteen : u.bill.groups.length = 16)
    (same : u.outline = { s.outline with objects := s.outline.objects.set 6 u.bill.groups.length }) : Lawful s u where
  objects parts := by
    rw [same, parts, sixteen]
    rfl
  quiet silent held := by
    rw [same] at held ⊢
    exact silent held

theorem State.formatStore_lawful (s : State) (layout : List Nat) : Lawful s (s.formatStore layout) := by
  unfold State.formatStore
  extract_lets key slots was booted host clock cal bill line mesh store sec health emptied logged told _
  have regrouped : Lawful booted emptied := by
    refine .regroup rfl ?_
    simp [State.outline, State.shape, emptied, host, bill, Function.comp_def]
  have keptTold : told.outline = emptied.outline := by simp [told, logged, ↓State.outline_ite]
  refine (Lawful.of_outline (State.setBoot_outline ..)).trans (regrouped.trans (.of_outline ?_))
  simp [↓State.outline_update, keptTold]

theorem State.finishTransition_lawful (s : State) : Lawful s s.finishTransition := by
  unfold State.finishTransition
  extract_lets l _ programmed drawn erased formatted _
  have kept : erased.outline = s.outline := by
    unfold erased
    split <;> simp [drawn, programmed, ↓State.outline_update]
  refine (Lawful.of_outline kept).trans ((State.formatStore_lawful erased erased.store.boot.layout).trans (.of_outline ?_))
  exact State.outline_update formatted rfl rfl rfl rfl rfl rfl rfl rfl rfl rfl

theorem State.completeTransition_lawful (s : State) : Lawful s s.completeTransition := by
  unfold State.completeTransition
  extract_lets old u _
  refine .ite (.refl s) ((State.finishTransition_lawful s).trans (.of_outline ?_))
  exact State.outline_update u rfl rfl rfl rfl rfl rfl rfl rfl rfl rfl

theorem State.startStore_lawful (s : State) : Lawful s s.startStore := by
  unfold State.startStore
  extract_lets lost bad formats completed formatted told
  have lawful : Lawful s formatted :=
    (State.completeTransition_lawful s).trans (.ite (State.formatStore_lawful ..) (.refl _))
  refine lawful.trans (.of_outline ?_)
  simp [told, ↓State.outline_ite]

/-! ### Start-up -/

/-- The part moves on to a phase other than reset. -/
theorem Lawful.move (s : State) {phase : Phase} {power : PowerState} {sec : SecurityState} (on : phase ≠ .held) :
    Lawful s { s with phase := phase, power := power, sec := sec } := .of_running id on

theorem State.startFirmware_lawful (s : State) : Lawful s s.startFirmware := by
  unfold State.startFirmware
  extract_lets link _ u v _
  have moved : Lawful s u := .of_running id nofun
  have started : Lawful u v := by
    refine (Lawful.of_outline u.startClock_outline).trans (u.startClock.startStore_lawful.trans (.of_outline ?_))
    simp [v]
  refine moved.trans (started.trans (.of_outline ?_))
  exact State.outline_update v rfl rfl rfl rfl rfl rfl rfl rfl rfl rfl

/-! ### The restore and gatehouse mode -/

/-- The restore empties the groups while the contexts return, and puts them back. -/
@[simp] theorem State.restoreAll_outline (s : State) : s.restoreAll.outline = s.outline := by
  unfold State.restoreAll
  extract_lets plans tick start replayed groups slots _ emptied restored _ regrouped reconciled _ cleared bill driven requeued told
  have keptRestored : restored.outline = emptied.outline := outline_foldl _ (fun _ _ => State.restoreContext_outline ..) _ _
  have keptRegrouped : regrouped.outline = s.outline := calc
    regrouped.outline = { restored.outline with objects := restored.outline.objects.set 6 groups.length } := rfl
    _ = { emptied.outline with objects := emptied.outline.objects.set 6 groups.length } := by rw [keptRestored]
    _ = s.outline := rfl
  have keptReconciled : reconciled.outline = s.outline := by
    refine (State.reconcileFeeders_outline ..).trans (Eq.trans ?_ keptRegrouped)
    exact outline_foldl _ (fun _ _ => State.restoreGroup_outline ..) _ _
  have keptCleared : cleared.outline = s.outline := by simp [cleared, ↓State.outline_update, keptReconciled]
  have keptDriven : driven.outline = s.outline := by simp [driven, bill, ↓State.outline_update, keptCleared]
  have keptRequeued : requeued.outline = s.outline := by simp [requeued, keptDriven]
  have keptTold : told.outline = s.outline := by
    unfold told
    split <;> simp [keptRequeued]
  simp [keptTold]

theorem State.enterGatehouse_lawful (s : State) (cause : GatehouseCause) : Lawful s (s.enterGatehouse cause) := by
  unfold State.enterGatehouse
  extract_lets u episode reset host power entered
  have kept : ((List.range 6).foldl (fun (v : State) k => v.disturb (24 + k)) entered).outline = entered.outline :=
    outline_foldl _ (fun _ _ => State.disturb_outline ..) _ _
  refine Lawful.trans (u := entered) ?_ (.of_outline kept)
  have lawful : Lawful s reset :=
    (Lawful.of_outline (State.abandonUpdate_outline s)).trans (u.resetNow_lawful u.power.cause u.now)
  refine .of_running (fun parts => ?_) nofun
  have counts := lawful.objects parts
  simp only [State.outline, State.shape, partShape, List.cons.injEq] at counts ⊢
  obtain ⟨-, -, -, timers, captures, sessions, groups, tamp, -⟩ := counts
  exact ⟨by simp [entered], by simp [entered], by simp [entered], timers, captures, sessions, groups, tamp, trivial⟩

/-! ### The commands of chapter 14, of gatehouse mode and of ownership -/

/-- A command that completes changes the state lawfully. -/
def Runs (s : State) : Out → Prop
  | .next u => Lawful s u
  | _ => True

theorem Keeps.runs {s : State} {o : Out} (keeps : Keeps s o) : Runs s o := by
  cases o with
  | next u => exact Lawful.of_outline keeps
  | fault => trivial
  | refused => trivial

/-- A command at its instant. -/
theorem Lawful.at_tick {s u : State} {t : Nat} (lawful : Lawful (s.tickTo t) u) : Lawful s u :=
  (Lawful.of_outline (s.tickTo_outline t)).trans lawful

theorem execElectionWindowEnd_runs (t : Nat) (s : State) : Runs s (execElectionWindowEnd t s) := by
  refine Lawful.at_tick (t := t) (.ite (.refl _) (.of_place (State.electionBefore_place ..) ?_))
  exact fun quiet => State.electionBefore_idle quiet.2.2 _

theorem execOwnershipSilence_runs (t : Nat) (s : State) : Runs s (execOwnershipSilence t s) := by
  refine Lawful.at_tick (t := t) (.ite (.of_place (State.loseOwner_place ..) ?_) (.refl _))
  exact fun quiet => State.loseOwner_idle quiet.2.1 _

theorem execHandoverTimeout_runs (t : Nat) (s : State) : Runs s (execHandoverTimeout t s) := by
  refine Lawful.at_tick (t := t) (.of_outline ?_)
  split
  · rfl
  · exact State.outline_of_ite (State.endHandover_outline ..) rfl

theorem execUndefinedOpcode_runs (t : Nat) (p : Port) (s : State) : Runs s (execUndefinedOpcode t p s) := by
  unfold execUndefinedOpcode
  split
  · exact .of_outline (s.tickTo_outline t)
  · exact Lawful.ite (.of_outline (s.tickTo_outline t)) ((undefinedRow_keeps _).lawful.serve t p s)

theorem execStoreFormatComplete_runs (t : Nat) (s : State) : Runs s (execStoreFormatComplete t s) := by
  refine Lawful.at_tick (t := t) ?_
  split
  · exact .refl _
  · next tag _ layout _ =>
    refine .ite ?_ (.refl _)
    exact (Lawful.of_outline (State.endParks_outline ..)).trans
      ((State.formatStore_lawful ..).trans (.of_outline (State.completeOp_outline ..)))

theorem execLifecycleTransition_runs (t : Nat) (s : State) : Runs s (execLifecycleTransition t s) := by
  unfold execLifecycleTransition
  extract_lets u
  refine Lawful.at_tick (t := t) ?_
  split
  · exact .refl _
  · extract_lets finished reset _
    have programmed : Lawful u finished := by
      refine Lawful.trans (.of_outline ?_) (State.finishTransition_lawful _)
      exact State.outline_update u rfl rfl rfl rfl rfl rfl rfl rfl rfl rfl
    refine programmed.trans ((finished.enterReset_lawful 6 (finished.now + Config.ms)).trans (.of_outline ?_))
    exact State.outline_update reset rfl rfl rfl rfl rfl rfl rfl rfl rfl rfl

theorem execCommitEnd_runs (t : Nat) (s : State) : Runs s (execCommitEnd t s) := by
  refine Lawful.at_tick (t := t) (.ite (.refl _) (.ite ?_ (State.pendingReset_lawful _)))
  exact (Lawful.of_outline (State.endCommit_outline _)).trans (State.pendingReset_lawful _)

theorem execContextRestore_runs (t : Nat) (s : State) : Runs s (execContextRestore t s) := by
  unfold execContextRestore
  extract_lets u
  refine Lawful.at_tick (t := t) (.ite ?_ (.refl _))
  have kept : u.restorePolicy.restoreAll.restoreSettings.discoverRouteless.outline = u.outline := by simp
  exact (Lawful.of_outline kept).trans (.move _ nofun)

theorem execPowerOnReset_runs (t : Nat) (lost : Bool) (s : State) : Runs s (execPowerOnReset t lost s) := by
  unfold execPowerOnReset
  extract_lets u fails reset
  have lawful : Lawful u reset := (Lawful.of_outline u.cutBoot_outline).trans (State.powerOn_lawful ..)
  exact Lawful.at_tick (t := t) (lawful.trans (.ite (.of_outline (State.loseBattery_outline ..)) (.refl _)))

theorem execResetN_runs (t lowNs : Nat) (s : State) : Runs s (execResetN t lowNs s) := by
  unfold execResetN
  extract_lets u release
  refine Lawful.at_tick (t := t) (.ite (.refl _) (.ite (.of_outline ?_) (State.resetNow_lawful ..)))
  exact State.outline_update u rfl rfl rfl rfl rfl rfl rfl rfl rfl rfl

theorem execWatchdogExpiry_runs (t : Nat) (s : State) : Runs s (execWatchdogExpiry t s) :=
  Lawful.at_tick (t := t) (.ite (State.resetNow_lawful ..) (.refl _))

theorem execVcoreFault_runs (t : Nat) (s : State) : Runs s (execVcoreFault t s) := Lawful.at_tick (t := t) (State.powerOn_lawful ..)

theorem execReferenceLoss_runs (t : Nat) (s : State) : Runs s (execReferenceLoss t s) := by
  unfold execReferenceLoss
  extract_lets reset _
  refine Lawful.at_tick (t := t) ((State.powerOn_lawful ..).trans (u := reset) (.of_outline ?_))
  exact State.outline_update reset rfl rfl rfl rfl rfl rfl rfl rfl rfl rfl

theorem execStartUp_runs (t : Nat) (h1mode bootsel : Bool) (vioH vioS : Nat) (s : State) :
    Runs s (execStartUp t h1mode bootsel vioH vioS s) := by
  unfold execStartUp
  extract_lets u v
  refine Lawful.at_tick (t := t) (.ite ?_ (.refl _))
  have ended : Lawful u v := .of_outline (State.endReset_outline ..)
  have booted : Lawful v v.boot.2 := .of_outline (State.boot_outline ..)
  refine ended.trans (.ite (.move v nofun) (.ite (booted.trans (State.startFirmware_lawful _)) ?_))
  exact booted.trans (.move _ nofun)

theorem execReady_runs (t : Nat) (s : State) : Runs s (execReady t s) := by
  unfold execReady
  extract_lets u d sampled drawn synced _ _ _ ready
  have kept : synced.outline = u.outline := by simp [synced, drawn, sampled, d, ↓State.outline_update]
  refine Lawful.at_tick (t := t) (.ite ((Lawful.of_outline kept).trans ?_) (.refl _))
  clear_value synced
  have moved : Lawful synced ready := .of_running id nofun
  exact moved.trans (.of_outline (State.startEvents_outline ..))

theorem execGatehouseEntry_runs (t : Nat) (cause : GatehouseCause) (s : State) : Runs s (execGatehouseEntry t cause s) :=
  Lawful.at_tick (t := t) (.ite (State.enterGatehouse_lawful ..) (.refl _))

/-- The row of a command is lawful. -/
theorem servedBy_lawful {i : Instr} {t : Nat} {p : Port} {row : Row} (served : servedBy i = some (t, p, row)) : row.Lawful := by
  cases i
  case openSession => cases served; exact openRow_lawful
  case closeSession => cases served; exact closeRow_lawful
  case claim => cases served; exact claimRow_lawful
  case accept => cases served; exact acceptRow_lawful
  all_goals
    simp only [servedBy, Option.some.injEq, Prod.mk.injEq, reduceCtorEq] at served
  all_goals
    obtain ⟨-, -, rfl⟩ := served
    exact Row.Keeps.lawful (by simp)

/-- No command does anything unlawful. -/
theorem exec_runs (i : Instr) (s : State) : Runs s (exec i s) := by
  cases unserved : servedBy i with
  | some served => exact exec_of_servedBy unserved s ▸ (servedBy_lawful unserved).serve served.1 served.2.1 s
  | none =>
    cases i
    case electionWindowEnd => exact execElectionWindowEnd_runs ..
    case ownershipSilence => exact execOwnershipSilence_runs ..
    case handoverTimeout => exact execHandoverTimeout_runs ..
    case storeFormatComplete => exact execStoreFormatComplete_runs ..
    case lifecycleTransition => exact execLifecycleTransition_runs ..
    case commitEnd => exact execCommitEnd_runs ..
    case contextRestore => exact execContextRestore_runs ..
    case powerOnReset => exact execPowerOnReset_runs ..
    case resetN => exact execResetN_runs ..
    case watchdogExpiry => exact execWatchdogExpiry_runs ..
    case vcoreFault => exact execVcoreFault_runs ..
    case referenceLoss => exact execReferenceLoss_runs ..
    case startUp => exact execStartUp_runs ..
    case ready => exact execReady_runs ..
    case gatehouseEntry => exact execGatehouseEntry_runs ..
    case undefinedOpcode => exact execUndefinedOpcode_runs ..
    all_goals simp only [servedBy, reduceCtorEq] at unserved
    all_goals exact Keeps.runs (by simp [exec])

/-- No step does. -/
theorem step_lawful {s u : State} (stepped : step s = .next u) : Lawful s u := by
  unfold step at stepped
  split at stepped
  · cases stepped
    exact .refl s
  · next c rest _ =>
    have runs := exec_runs c { s with pending := rest }
    rw [stepped] at runs
    exact ⟨runs.objects, runs.quiet⟩

end Sys2Proof.Machine
end

section
/-! SUPPORT. Every step keeps the objects of the part, and a held part quiet: the obligations. -/

open Sys2Proof.Machine

/-- Settles O4: each command leaves the number of each object, or puts it back as the part has it. -/
theorem stepKeepsObjects : Obligations.StepKeepsObjects := by
  unfold Obligations.StepKeepsObjects
  exact fun s u parts stepped => (step_lawful stepped).objects parts

/-- Settles O6: a reset closes every session, and what opens one, or makes an owner or an election, does nothing while the part is held. -/
theorem heldPartHasNoSession : Obligations.HeldPartHasNoSession := by
  unfold Obligations.HeldPartHasNoSession
  refine ⟨fun s u silent stepped held => ?_, fun x member => ?_, rfl, rfl⟩
  · obtain ⟨closed, owner, election⟩ := (step_lawful stepped).quiet
      (fun standing => by
        obtain ⟨closed, owner, election⟩ := silent standing
        exact ⟨by simpa [State.outline] using closed, owner, election⟩) held
    exact ⟨by simpa [State.outline] using closed, owner, election⟩
  · rw [List.eq_of_mem_replicate member]

end

section
/-! SUPPORT. What the requests that set a channel do to it: its windows, its detectors, its equaliser banks, and what they leave of the part. -/

namespace Sys2Proof.Machine

/-- The number of channels of a state that holds the objects of the part. -/
theorem State.Inv.channels {s : State} (inv : s.Inv) : s.channels.length = 24 := by
  simp only [State.Inv, State.shape, partShape, List.cons.injEq] at inv
  exact inv.1

/-! ### One channel set, in the state that takes the request -/

section Taken
variable {s : State} (t : Nat) (p : Port) {n : Nat}

theorem State.taken_chan_setChan (f : Channel → Channel) (inv : s.Inv) (part : n < 24) :
    ((s.taken t p).setChan n f).chan n = f (s.chan n) := by
  rw [State.chan_setChan _ _ _ (by simpa [inv.channels] using part), State.take_chan, State.tickTo_chan]

end Taken

@[simp] theorem State.setChan_channels_length (s : State) (n : Nat) (f : Channel → Channel) : (s.setChan n f).channels.length = s.channels.length :=
  length_alter ..

/-! ### A window and its channel (R94-R99) -/

@[simp] theorem Channel.window_setWindow (c : Channel) (slow : Bool) (f : Window → Window) :
    (c.setWindow slow f).window slow = f (c.window slow) := by
  cases slow <;> rfl

@[simp] theorem Channel.window_setWindow_other (c : Channel) (slow : Bool) (f : Window → Window) :
    (c.setWindow slow f).window (!slow) = c.window (!slow) := by
  cases slow <;> rfl

theorem State.chan_rearm (s : State) {n : Nat} (slow : Bool) (part : n < s.channels.length) :
    (s.rearm n slow).chan n = (s.chan n).setWindow slow Window.rearmed := State.chan_setChan _ _ _ part

theorem State.chan_rearm_ne (s : State) {n k : Nat} (slow : Bool) (other : k ≠ n) : (s.rearm n slow).chan k = s.chan k :=
  State.chan_setChan_ne _ _ _ _ other

@[simp] theorem State.rearm_channels_length (s : State) (n : Nat) (slow : Bool) : (s.rearm n slow).channels.length = s.channels.length :=
  length_alter ..

section WindowSee
variable (w : Window) (v : Int) (time : Nat) (scale : Int) (dwell : Nat)

/-- A disabled window does not move. -/
theorem Window.see_disabled (off : w.enable = false) : w.see v time scale dwell = (w, none) := by
  simp [Window.see, off]

/-- A disarmed window counts values inside its band in a row, and gives no exit (R97). -/
theorem Window.see_disarmed (on : w.enable = true) (disarmed : w.armed = false) (inside : w.low * scale ≤ v ∧ v ≤ w.high * scale) :
    w.see v time scale dwell = ({ w with count := w.count + 1 }, none) := by
  obtain ⟨low, high⟩ := inside
  simp [Window.see, on, disarmed, Int.not_lt.2 low, Int.not_lt.2 high]

/-- The count of an armed window that sees a value outside: one more of the same side, or the first. -/
def Window.counted (above : Bool) : Window :=
  if w.count > 0 && w.above = above then { w with count := w.count + 1 }
  else { w with count := 1, above := above, firstAt := time, firstCode := v }

theorem Window.counted_count (above : Bool) : (w.counted v time above).count ≤ w.count + 1 := by
  unfold Window.counted
  split <;> simp

/-- An armed window that sees a value outside its band exits once the dwell is reached, and goes on counting before (R95, R97). -/
theorem Window.see_armed (on : w.enable = true) (armed : w.armed = true) :
    w.see v time scale dwell =
      if v ≤ w.high * scale ∧ w.low * scale ≤ v then ({ w with count := 0 }, none)
      else
        let x := w.counted v time (decide (w.high * scale < v))
        if dwell ≤ x.count then ({ x with armed := false, count := 0 }, some (x.firstAt, decide (w.high * scale < v), x.firstCode))
        else (x, none) := by
  have outside : (decide (w.high * scale < v) || decide (v < w.low * scale)) = !decide (v ≤ w.high * scale ∧ w.low * scale ≤ v) := by
    rw [Bool.decide_and]
    simp only [Bool.not_and, ← decide_not, Int.not_le]
  unfold Window.see Window.counted
  simp only [on, armed, outside, Bool.not_true, Bool.false_eq_true, if_false, if_true, Bool.not_not, decide_eq_true_eq]

/-- A window gives an exit only while enabled and armed, for a value outside its band that completes the dwell; the exit disarms it (R95, R97). -/
theorem Window.see_exit {e : Nat × Bool × Int} (exits : (w.see v time scale dwell).2 = some e) :
    w.enable = true ∧ w.armed = true ∧ (w.high * scale < v ∨ v < w.low * scale) ∧ (w.see v time scale dwell).1.armed = false ∧
      dwell ≤ w.count + 1 := by
  cases on : w.enable with
  | false =>
    rw [w.see_disabled v time scale dwell on] at exits
    cases exits
  | true =>
    cases armed : w.armed with
    | false => simp [Window.see, on, armed] at exits
    | true =>
      rw [Window.see_armed w v time scale dwell on armed] at exits ⊢
      split at exits
      · cases exits
      · next outside =>
        have counts := w.counted_count v time (decide (w.high * scale < v))
        dsimp only at exits
        split at exits
        · next dwelt =>
          rw [if_neg outside, if_pos dwelt]
          refine ⟨rfl, rfl, ?_, rfl, Nat.le_trans dwelt counts⟩
          omega
        · cases exits

end WindowSee

/-- Over samples inside the band, a disarmed window counts each (R97). -/
theorem Window.foldl_see_disarmed (l : List (Int × Nat)) {w : Window} {scale : Int} {dwell : Nat} (on : w.enable = true)
    (disarmed : w.armed = false) (inside : ∀ x ∈ l, w.low * scale ≤ x.1 ∧ x.1 ≤ w.high * scale) :
    l.foldl (fun (a : Window) x => (a.see x.1 x.2 scale dwell).1) w = { w with count := w.count + l.length } := by
  induction l generalizing w with
  | nil => rfl
  | cons x l ih =>
    rw [List.foldl_cons, Window.see_disarmed w x.1 x.2 scale dwell on disarmed (inside x List.mem_cons_self),
      ih (w := { w with count := w.count + 1 }) on disarmed (fun y later => inside y (List.mem_cons_of_mem _ later)), List.length_cons]
    simp only [Nat.add_assoc, Nat.add_comm 1]

/-! ### Banks of the equaliser (R113-R118) -/

/-- A channel with a bank loaded. -/
def Channel.loaded (bank : Nat) (l : List Int) (c : Channel) : Channel := if bank = 0 then { c with bankA := l } else { c with bankB := l }

@[simp] theorem Channel.loaded_bank (bank : Nat) (l : List Int) (c : Channel) : (c.loaded bank l).bank bank = l := by
  unfold Channel.loaded Channel.bank
  split <;> rfl

@[simp] theorem Channel.loaded_bank_other (bank : Nat) (l : List Int) (c : Channel) : (c.loaded bank l).bank (1 - bank) = c.bank (1 - bank) := by
  cases bank with
  | zero => rfl
  | succ k =>
    rw [show 1 - (k + 1) = 0 by omega]
    rfl

@[simp] theorem Channel.loaded_active (bank : Nat) (l : List Int) (c : Channel) : (c.loaded bank l).active = c.active := by
  unfold Channel.loaded
  split <;> rfl

/-- The stages that settle are those of converters. -/
theorem State.disturbBank_frame (s : State) (n : Nat) : ∃ l, s.disturbBank n = { s with converters := l } := by
  refine List.foldlRecOn (List.range 6) _ (motive := fun u : State => ∃ l, u = { s with converters := l }) ⟨_, rfl⟩ ?_
  rintro u ⟨l, rfl⟩ k -
  split <;> exact ⟨_, rfl⟩

theorem State.loadBank_eq (s : State) (n bank : Nat) (l : List Int) :
    s.loadBank n bank l =
      if ((s.setChan n (Channel.loaded bank l)).chan n).active = bank then (s.setChan n (Channel.loaded bank l)).disturbBank n
      else s.setChan n (Channel.loaded bank l) := rfl

/-- A load changes the bank of the channel, and converters that settle (R114). -/
theorem State.loadBank_frame (s : State) (n bank : Nat) (l : List Int) :
    ∃ k, s.loadBank n bank l = { s.setChan n (Channel.loaded bank l) with converters := k } := by
  rw [State.loadBank_eq]
  split
  · exact State.disturbBank_frame ..
  · exact ⟨_, rfl⟩

section Fades
variable {c : Channel} {f : Swap}

@[simp] theorem Channel.endFade_none (none_ : c.fade = none) : c.endFade = c := by
  simp [Channel.endFade, none_]

theorem Channel.endFade_runs (fades : c.fade = some f) (left : f.done < f.length) : c.endFade = c := by
  simp [Channel.endFade, fades, left]

theorem Channel.endFade_ends (fades : c.fade = some f) (done : f.length ≤ f.done) (alone : c.swap = none) :
    c.endFade = { c with active := f.target, fade := none } := by
  simp [Channel.endFade, fades, Nat.not_lt.2 done, alone]

/-- A swap of length 0 makes its target active (Table 4.6). -/
theorem Channel.swapTo_now (c : Channel) (target : Nat) (suppressed : Bool) : (c.swapTo target 0 suppressed).active = target := by
  unfold Channel.swapTo
  split
  · next same => exact same.symm
  · rfl

/-- A swap to the other bank over some samples starts a fade while output flows (R116). -/
theorem Channel.swapTo_fades (c : Channel) {target length : Nat} (other : target ≠ c.active) (long : length ≠ 0) :
    c.swapTo target length false = { c with fade := some { target := target, length := length } } := by
  simp [Channel.swapTo, other, long]

end Fades

/-! ### BANK_LOAD, BANK_SWAP and FADE_END (R113-R117, Table 16.2) -/

/-- A change that leaves the channel as it is leaves the state. -/
theorem State.setChan_same {s : State} {n : Nat} {f : Channel → Channel} (same : f (s.chan n) = s.chan n) : s.setChan n f = s := by
  have channels : alter s.channels n f = s.channels := by simpa using map_alter (g := id) (l := s.channels) same
  unfold State.setChan
  rw [channels]

section Rows
variable {r : Req} {s : State} {c : Channel} (mine : s.chan (unitOf r.handle) = c)
include mine

theorem bankLoadRow_loads (steady : c.fade = none) (alone : c.swap = none) (carried : c.lost = false) :
    bankLoadRow.body r s = .done stOk [] (s.loadBank (unitOf r.handle) (r.u 0 1) r.coefficients) :=
  judged_pass (by simp [mine, steady, alone, carried])

theorem bankLoadRow_busy (fades : c.fade.isSome = true) : bankLoadRow.body r s = .done stBusy [] s :=
  judged_hit (by simp [mine, fades])

/-- With no fade running the swap is made, at once where no output of the channel flows (Table 4.6). -/
theorem bankSwapRow_swaps (steady : c.fade = none) (carried : c.lost = false) :
    bankSwapRow.body r s = .done stOk []
      (s.setChan (unitOf r.handle)
        (fun c => c.swapTo (r.u 0 1) (r.u 2 2) ((s.carrierUnit (unitOf r.handle)).any s.narrowSuppressed))) := by
  have ended : s.setChan (unitOf r.handle) Channel.endFade = s :=
    State.setChan_same (Channel.endFade_none (by rw [mine, steady]))
  unfold bankSwapRow
  dsimp only
  rw [ended, mine, steady, carried]
  cases s.carrierUnit (unitOf r.handle) <;> rfl

/-- While a fade runs the swap is pending (R117). -/
theorem bankSwapRow_pends {f : Swap} (fades : c.fade = some f) (left : f.done < f.length) :
    bankSwapRow.body r s = .done stPending []
      (s.setChan (unitOf r.handle) (fun c => { c with swap := some { target := r.u 0 1, length := r.u 2 2 } })) := by
  have ended : s.setChan (unitOf r.handle) Channel.endFade = s :=
    State.setChan_same (by rw [mine, Channel.endFade_runs fades left])
  unfold bankSwapRow
  dsimp only
  rw [ended, mine, fades]
  rfl

end Rows

/-- FADE_END ends the fade of a channel of the part. -/
theorem exec_fadeEnd {n : Nat} (part : n < 24) (t : Nat) (s : State) :
    exec (.fadeEnd t n) s = .next ((s.tickTo t).setChan n Channel.endFade) :=
  congrArg (guarded · _) (decide_eq_true part)

/-- Once its samples are delivered and no swap is pending, the target is active and no fade runs (R117). -/
theorem fadeEnd_leads {t n : Nat} {s : State} {f : Swap} (part : n < 24) (inv : s.Inv) (fades : (s.chan n).fade = some f)
    (done : f.length ≤ f.done) (alone : (s.chan n).swap = none) :
    Leads (.fadeEnd t n) s (fun u => u.chan n = { s.chan n with active := f.target, fade := none } ∧ ∀ k, k ≠ n → u.chan k = s.chan k) := by
  refine ⟨_, exec_fadeEnd part t s, ?_, fun k other => State.chan_setChan_ne _ _ _ _ other⟩
  rw [State.chan_setChan _ _ _ (by simpa [inv.channels] using part), State.tickTo_chan, Channel.endFade_ends fades done alone]

section Banks
variable {t : Nat} {p : Port} {s : State} {q : Request} (inv : s.Inv) (part : unitOf (Req.of p q).handle < 24)
  (carried : (s.chan (unitOf (Req.of p q).handle)).lost = false) (steady : (s.chan (unitOf (Req.of p q).handle)).fade = none)
include inv part carried steady

/-- BANK_LOAD writes the named bank of the channel and leaves the other (R113, R114). -/
theorem bankLoad_answers (called : bankLoadRow.calls t p s q = true) (alone : (s.chan (unitOf (Req.of p q).handle)).swap = none) :
    Answers (.bankLoad t p) s (Req.of p q) stOk [] (fun u =>
      u.chan (unitOf (Req.of p q).handle) =
        (s.chan (unitOf (Req.of p q).handle)).loaded ((Req.of p q).u 0 1) (Req.of p q).coefficients ∧
      (∀ k, k ≠ unitOf (Req.of p q).handle → u.chan k = (s.taken t p).chan k) ∧
      u = { s.taken t p with channels := u.channels, converters := u.converters }) := by
  have body := bankLoadRow_loads (s := s.taken t p) (r := Req.of p q) (by simp) steady alone carried
  obtain ⟨l, frame⟩ := State.loadBank_frame (s.taken t p) (unitOf (Req.of p q).handle) ((Req.of p q).u 0 1) (Req.of p q).coefficients
  rw [frame] at body
  exact ⟨_, ends_of_body rfl called body, State.taken_chan_setChan t p _ inv part, fun k other => State.chan_setChan_ne _ _ _ _ other, rfl⟩

/-- BANK_SWAP with no fade running swaps the banks of the channel, at once where no output flows (R116, Table 4.6). -/
theorem bankSwap_answers (called : bankSwapRow.calls t p s q = true) :
    Answers (.bankSwap t p) s (Req.of p q) stOk [] (fun u =>
      u.chan (unitOf (Req.of p q).handle) = (s.chan (unitOf (Req.of p q).handle)).swapTo ((Req.of p q).u 0 1) ((Req.of p q).u 2 2)
        (((s.taken t p).carrierUnit (unitOf (Req.of p q).handle)).any (s.taken t p).narrowSuppressed) ∧
      (∀ k, k ≠ unitOf (Req.of p q).handle → u.chan k = (s.taken t p).chan k) ∧
      u = { s.taken t p with channels := u.channels }) :=
  ⟨_, ends_of_body rfl called (bankSwapRow_swaps (by simp) steady carried), State.taken_chan_setChan t p _ inv part,
    fun k other => State.chan_setChan_ne _ _ _ _ other, rfl⟩

end Banks

end Sys2Proof.Machine
end

section
/-! SUPPORT. Windows and equaliser banks: the obligation, from the lemmas on each. -/

open Sys2Proof.Machine

/-- Settles O22: a window by the cases of what it sees, and each command by what it makes of its channel. -/
theorem windowRules : Obligations.WindowRules := by
  unfold Obligations.WindowRules
  refine ⟨⟨fun w v time scale dwell e => w.see_exit v time scale dwell, fun w v time scale dwell => w.see_disabled v time scale dwell,
    fun w l scale dwell => Window.foldl_see_disarmed l⟩, fun t p s q inv => ?_⟩
  intro r n c u₀ part
  have mine : u₀.chan n = c := by simp [u₀, c]
  refine ⟨fun called steady alone carried => ?_, fun called fades => ends_of_body rfl called (bankLoadRow_busy mine fades),
    fun called steady carried => ?_, fun f called fades left => ?_, fun f fades done alone => fadeEnd_leads part inv fades done alone⟩
  case refine_1 =>
    obtain ⟨u, ends, loaded, others, frame⟩ := bankLoad_answers inv part carried steady called alone
    refine ⟨u, ends, ?_, ?_, ?_, others, frame⟩
    · rw [loaded, Channel.loaded_bank]; rfl
    · rw [loaded, Channel.loaded_bank_other]
    · rw [loaded, Channel.loaded_active]
  case refine_2 =>
    obtain ⟨u, ends, swapped, others, frame⟩ := bankSwap_answers inv part carried steady called
    refine ⟨u, ends, fun now => ?_, fun v unit flows other long => ?_, others, frame⟩
    · rw [swapped, now, Channel.swapTo_now]
    · rw [swapped, unit, Option.any_some, flows, Channel.swapTo_fades _ other long]
      exact ⟨rfl, rfl⟩
  case refine_3 =>
    exact ⟨_, ends_of_body rfl called (bankSwapRow_pends mine fades left), State.taken_chan_setChan t p _ inv part, rfl⟩

end

section
/-! SUPPORT. The settings of the channels and the contexts: what the repair of lanes leaves of them (chapter 11). -/

namespace Sys2Proof.Machine

/-- What CH_CONFIG and WINDOW_SET set of a channel, the rest as after a reset. -/
def Channel.settings (c : Channel) : Channel :=
  { enabled := c.enabled, rangeMode := c.rangeMode, forwarding := c.forwarding, fast := c.fast, slow := c.slow }

/-- The settings of the channels, and the contexts: what no repair of lanes changes. -/
def State.settings (s : State) : List Channel × BillState := (s.channels.map Channel.settings, s.bill)

theorem chan_settings_of_settings {s u : State} (same : u.settings = s.settings) (n : Nat) : (u.chan n).settings = (s.chan n).settings :=
  nth_of_map (congrArg Prod.fst same) n

theorem bill_of_settings {s u : State} (same : u.settings = s.settings) : u.bill = s.bill := congrArg Prod.snd same

/-! ### Channels, converters and events -/

theorem State.setChan_settings (s : State) (n : Nat) {f : Channel → Channel} (same : ∀ c, (f c).settings = c.settings) :
    (s.setChan n f).settings = s.settings :=
  congrArg (·, s.bill) (map_alter (same _))

@[simp] theorem State.setConv_settings (s : State) (u : Nat) (f : Converter → Converter) : (s.setConv u f).settings = s.settings := rfl

@[simp] theorem State.setCarrier_settings (s : State) (n : Nat) (c : Carrier) (interrupted : Bool) :
    (s.setCarrier n c interrupted).settings = s.settings := State.setChan_settings s n (fun _ => rfl)

@[simp] theorem State.note_settings (s : State) (kind outcome handle carrier rung : Nat) :
    (s.note kind outcome handle carrier rung).settings = s.settings := by
  rw [State.note_frame]
  rfl

@[simp] theorem State.pick_settings (s : State) (l : List Nat) : (s.pick l).2.settings = s.settings := by
  unfold State.pick
  split <;> rfl

/-- The same where the choice has been taken apart. -/
theorem settings_of_pick {s u : State} {l : List Nat} {k : Option Nat} (picked : s.pick l = (k, u)) : u.settings = s.settings := by
  rw [← State.pick_settings s l, picked]

/-! ### Stages that settle (R118, R128) -/

@[simp] theorem Channel.completeFade_settings (c : Channel) : c.completeFade.settings = c.settings := by
  unfold Channel.completeFade
  split <;> rfl

@[simp] theorem State.disturb_settings (s : State) (u : Nat) : (s.disturb u).settings = s.settings := by
  unfold State.disturb
  split
  · exact State.setChan_settings s _ Channel.completeFade_settings
  · rfl

@[simp] theorem State.disturbChannel_settings (s : State) (n : Nat) : (s.disturbChannel n).settings = s.settings := by
  unfold State.disturbChannel
  rw [foldl_keeps State.settings, State.disturb_settings]
  intro u k
  split
  · exact State.disturb_settings ..
  · rfl

/-! ### Lanes (R343-R345, R348, R352) -/

@[simp] theorem State.carry_settings (s : State) (n : Nat) (c : Carrier) : (s.carry n c).settings = s.settings := by
  unfold State.carry
  extract_lets was u
  have kept : u.settings = s.settings := by
    unfold u
    rw [State.setChan_settings, State.setCarrier_settings]
    exact fun _ => rfl
  split
  · rw [State.note_settings, kept]
  · exact kept

@[simp] theorem State.pauseChecker_settings (s : State) (k : Nat) : (s.pauseChecker k).settings = s.settings := by
  unfold State.pauseChecker
  split <;> rfl

@[simp] theorem State.assign_settings (s : State) (k n prec : Nat) : (s.assign k n prec).settings = s.settings := by
  simp [State.assign]

@[simp] theorem State.substitute_settings (s : State) (n k : Nat) : (s.substitute n k).settings = s.settings := by
  unfold State.substitute
  extract_lets u _ v _ w
  have kept : v.settings = s.settings := State.assign_settings ..
  have carried : w.settings = s.settings := by
    unfold w
    split
    · exact kept
    · rw [State.carry_settings, State.setChan_settings v n Channel.completeFade_settings, kept]
  rw [State.note_settings, carried]

@[simp] theorem State.substituteIfFree_settings (s : State) (n : Nat) : (s.substituteIfFree n).settings = s.settings := by
  unfold State.substituteIfFree
  split
  · next picked => exact settings_of_pick picked
  · next picked => rw [State.substitute_settings, settings_of_pick picked]

@[simp] theorem State.startConfirming_settings (s : State) (n first k : Nat) : (s.startConfirming n first k).settings = s.settings :=
  (State.setChan_settings (s.assign k n 4) n (f := fun x => { x with compared := {} }) (fun _ => rfl)).trans (State.assign_settings ..)

/-- Lanes that become free take the channels that wait, then the confirming dwell. -/
@[simp] theorem State.lanesFreed_settings (s : State) : s.lanesFreed.settings = s.settings := by
  unfold State.lanesFreed
  extract_lets taken
  have kept : taken.settings = s.settings := by
    refine foldl_keeps State.settings _ (fun u n => ?_) _ _
    split
    · exact State.substituteIfFree_settings ..
    · rfl
  split
  · exact kept
  · split
    · next picked => rw [settings_of_pick picked, kept]
    · next picked => rw [State.startConfirming_settings, settings_of_pick picked, kept]

/-! ### What settling leaves of the part -/

/-- A unit that settles is a converter; the fade that completes is that of the channel it carries (R118, R128). -/
theorem State.disturb_frame (s : State) (u : Nat) : ∃ channels converters, s.disturb u = { s with channels := channels, converters := converters } := by
  unfold State.disturb
  split <;> exact ⟨_, _, rfl⟩

theorem State.disturbChannel_frame (s : State) (n : Nat) :
    ∃ channels converters, s.disturbChannel n = { s with channels := channels, converters := converters } := by
  refine List.foldlRecOn (List.range 6) _ (motive := fun u : State => ∃ l k, u = { s with channels := l, converters := k })
    (s.disturb_frame n) ?_
  rintro u ⟨l, k, rfl⟩ lane -
  split
  · obtain ⟨l', k', frame⟩ := State.disturb_frame { s with channels := l, converters := k } (24 + lane)
    exact ⟨l', k', frame⟩
  · exact ⟨l, k, rfl⟩

/-- A unit carries no channel but the one it works for. -/
theorem State.worksFor_of_serves {s : State} {u n : Nat} (carries : s.serves u = some n) : s.worksFor u = some n := by
  unfold State.serves at carries
  unfold State.worksFor
  split at carries
  · next home =>
    split at carries
    · rw [if_pos home, carries]
    · cases carries
  · next lane =>
    rw [if_neg lane]
    split at carries
    · next selected =>
      split at carries
      · rw [selected, carries]
      · cases carries
    · cases carries

/-- The other channels are left where a unit of a channel settles. -/
theorem State.disturb_chan_ne {s : State} {u n k : Nat} (works : s.worksFor u = some n) (other : k ≠ n) : (s.disturb u).chan k = s.chan k := by
  unfold State.disturb
  split
  · next carries =>
    rw [State.worksFor_of_serves carries] at works
    cases works
    exact State.chan_setChan_ne _ _ _ _ other
  · rfl

theorem State.disturbChannel_chan_ne {s : State} {n k : Nat} (part : n < 24) (other : k ≠ n) : (s.disturbChannel n).chan k = s.chan k := by
  have home : (s.disturb n).chan k = s.chan k := State.disturb_chan_ne (by simp [State.worksFor, part]) other
  refine (foldl_keeps (State.chan · k) _ (fun u lane => ?_) _ _).trans home
  split
  · next selects => exact State.disturb_chan_ne (by simp [State.worksFor, selects]) other
  · rfl

end Sys2Proof.Machine
end

section
/-! SUPPORT. CH_CONFIG, WINDOW_SET, DETECTOR_SET and RESAMPLER_SET on a channel. -/

namespace Sys2Proof.Machine

/-! ### The setting of a channel (R77, R99, R100) -/

/-- A channel with the settings of a CH_CONFIG: a range mode that repair holds stays (R100, R342). -/
def Channel.configured (enabled : Bool) (mode : Nat) (forwarding : Bool) (c : Channel) : Channel :=
  { c with enabled := enabled, rangeMode := if c.repairMode then c.rangeMode else mode, forwarding := forwarding }

/-- A channel with both windows re-armed (R99). -/
def Channel.rearmed (c : Channel) : Channel := { c with fast := c.fast.rearmed, slow := c.slow.rearmed }

/-- What CH_CONFIG sets, before anything settles: the channel and, with a new range mode, its windows. -/
def State.setAs (s : State) (n : Nat) (enabled : Bool) (mode : Nat) (forwarding : Bool) : State :=
  let u := s.setChan n (Channel.configured enabled mode forwarding)
  if mode ≠ s.modeOf n then (u.rearm n false).rearm n true else u

section SetAs
variable (s : State) {n : Nat} (enabled : Bool) (mode : Nat) (forwarding : Bool)

theorem State.setAs_chan (part : n < s.channels.length) :
    (s.setAs n enabled mode forwarding).chan n =
      if mode ≠ s.modeOf n then ((s.chan n).configured enabled mode forwarding).rearmed
      else (s.chan n).configured enabled mode forwarding := by
  unfold State.setAs
  dsimp only
  split
  · rw [State.chan_rearm _ _ (by simpa using part), State.chan_rearm _ _ (by simpa using part), State.chan_setChan _ _ _ part]
    rfl
  · exact State.chan_setChan _ _ _ part

theorem State.setAs_chan_ne {k : Nat} (other : k ≠ n) : (s.setAs n enabled mode forwarding).chan k = s.chan k := by
  unfold State.setAs
  dsimp only
  split
  · rw [State.chan_rearm_ne _ _ other, State.chan_rearm_ne _ _ other, State.chan_setChan_ne _ _ _ _ other]
  · exact State.chan_setChan_ne _ _ _ _ other

/-- Besides channels it touches ALARM_N (R98). -/
theorem State.setAs_frame : ∃ channels pins, s.setAs n enabled mode forwarding = { s with channels := channels, pins := pins } := by
  unfold State.setAs
  dsimp only
  split <;> exact ⟨_, _, rfl⟩

/-- What follows a setting leaves all settings. -/
theorem State.configure_settings (n : Nat) :
    (s.configure n enabled mode forwarding).settings = (s.setAs n enabled mode forwarding).settings := by
  unfold State.configure
  extract_lets c changes set armed settled
  have kept : settled.settings = armed.settings := by
    unfold settled
    split
    · exact State.disturbChannel_settings ..
    · rfl
  split
  · rw [State.carry_settings, State.assign_settings, kept]; rfl
  · rw [State.lanesFreed_settings, kept]; rfl
  · exact kept

/-- Unless the channel is enabled anew, what follows is that a new mode settles the units of the channel (R128). -/
theorem State.configure_eq (old : (enabled && !(s.chan n).enabled) = false) :
    s.configure n enabled mode forwarding =
      if mode ≠ s.modeOf n then (s.setAs n enabled mode forwarding).disturbChannel n else s.setAs n enabled mode forwarding := by
  unfold State.configure
  dsimp only
  rw [old]
  simp only [Bool.or_false, decide_eq_true_eq]
  rfl

/-- So the other channels, the store and the measurement are left. -/
theorem State.configure_leaves (part : n < 24) (old : (enabled && !(s.chan n).enabled) = false) :
    (∀ k, k ≠ n → (s.configure n enabled mode forwarding).chan k = s.chan k) ∧
      (s.configure n enabled mode forwarding).store = s.store ∧ (s.configure n enabled mode forwarding).meas = s.meas := by
  rw [State.configure_eq s enabled mode forwarding old]
  obtain ⟨l, pins, set⟩ := State.setAs_frame s (n := n) enabled mode forwarding
  split
  · obtain ⟨m, converters, settled⟩ := State.disturbChannel_frame (s.setAs n enabled mode forwarding) n
    refine ⟨fun k other => ?_, ?_⟩
    · rw [State.disturbChannel_chan_ne part other, State.setAs_chan_ne s enabled mode forwarding other]
    · rw [settled, set]
      exact ⟨rfl, rfl⟩
  · refine ⟨fun k other => State.setAs_chan_ne s enabled mode forwarding other, ?_⟩
    rw [set]
    exact ⟨rfl, rfl⟩

/-- A setting that changes neither enable nor mode changes the channel alone. -/
theorem State.configure_same (old : enabled = (s.chan n).enabled) (kept : mode = s.modeOf n) :
    s.configure n enabled mode forwarding = s.setChan n (Channel.configured enabled mode forwarding) := by
  rw [State.configure_eq s enabled mode forwarding (by rw [old, Bool.and_not_self]), if_neg (not_not.2 kept)]
  exact if_neg (not_not.2 kept)

/-- The channel has the setting, and after a change of mode both its windows are armed (R77, R99, R100). -/
theorem State.configure_chan (part : n < s.channels.length) :
    let c := (s.configure n enabled mode forwarding).chan n
    c.enabled = enabled ∧ c.rangeMode = (if (s.chan n).repairMode then (s.chan n).rangeMode else mode) ∧ c.forwarding = forwarding ∧
      (mode ≠ s.modeOf n → c.fast.armed = true ∧ c.slow.armed = true) := by
  have set := chan_settings_of_settings (s.configure_settings enabled mode forwarding n) n
  rw [State.setAs_chan _ _ _ _ part] at set
  refine ⟨?_, ?_, ?_, fun moved => ?_⟩
  · split at set <;> exact congrArg Channel.enabled set
  · split at set <;> exact congrArg Channel.rangeMode set
  · split at set <;> exact congrArg Channel.forwarding set
  · rw [if_pos moved] at set
    exact ⟨congrArg (·.fast.armed) set, congrArg (·.slow.armed) set⟩

/-- No other channel's settings change (R100). -/
theorem State.configure_chan_ne {k : Nat} (other : k ≠ n) :
    let c := (s.configure n enabled mode forwarding).chan k
    c.enabled = (s.chan k).enabled ∧ c.rangeMode = (s.chan k).rangeMode ∧ c.forwarding = (s.chan k).forwarding := by
  have set := chan_settings_of_settings (s.configure_settings enabled mode forwarding n) k
  rw [State.setAs_chan_ne s enabled mode forwarding other] at set
  exact ⟨(congrArg Channel.enabled set :), (congrArg Channel.rangeMode set :), (congrArg Channel.forwarding set :)⟩

/-- Nor do the contexts. -/
theorem State.configure_bill : (s.configure n enabled mode forwarding).bill = s.bill := by
  obtain ⟨l, pins, set⟩ := State.setAs_frame s (n := n) enabled mode forwarding
  rw [bill_of_settings (s.configure_settings enabled mode forwarding n), set]

end SetAs

/-! ### CH_CONFIG (Table 16.2) -/

section Taken
variable (s : State) (t : Nat) (p : Port) (n : Nat)

@[simp] theorem State.taken_modeOf : (s.taken t p).modeOf n = s.modeOf n := by simp [State.modeOf]

@[simp] theorem State.taken_bound : (s.taken t p).bound n = s.bound n := by simp [State.bound, State.localContexts]

@[simp] theorem State.taken_underSweep : (s.taken t p).underSweep n = s.underSweep n := by simp [State.underSweep, State.sweepUnits]

end Taken

/-- A CH_CONFIG changes the enable or the range mode of its channel. -/
def Req.changesChannel (r : Req) (s : State) : Prop :=
  decide (r.u 0 1 = 1) ≠ (s.chan (unitOf r.handle)).enabled ∨ r.u 1 1 ≠ s.modeOf (unitOf r.handle)

section ChConfigRow
variable {r : Req} {s : State}

/-- A lane, a bound channel to be disabled, and a mode that repair does not hold are WRONG_STATE (R100). -/
theorem chConfigRow_wrongState (wrong : 24 ≤ unitOf r.handle ∨ (r.u 0 1 = 0 ∧ s.bound (unitOf r.handle) = true) ∨
      ((s.chan (unitOf r.handle)).repairMode = true ∧ r.u 1 1 ≠ s.modeOf (unitOf r.handle))) :
    chConfigRow.body r s = .done stWrongState [] s := by
  refine judged_hit ?_
  rcases wrong with lane | ⟨off, bound⟩ | ⟨held, other⟩
  · simp [lane]
  · simp [off, bound]
  · simp [held, other]

section Judged
variable (part : unitOf r.handle < 24) (free : r.u 0 1 = 1 ∨ s.bound (unitOf r.handle) = false)
  (held : (s.chan (unitOf r.handle)).repairMode = false ∨ r.u 1 1 = s.modeOf (unitOf r.handle))
include part free held

/-- Else the sweep and then the loss of the channel decide. -/
theorem chConfigRow_judged : chConfigRow.body r s =
    judged
      [ (s.underSweep (unitOf r.handle) &&
          (decide (decide (r.u 0 1 = 1) ≠ (s.chan (unitOf r.handle)).enabled) || decide (r.u 1 1 ≠ s.modeOf (unitOf r.handle))), stBusy),
        ((s.chan (unitOf r.handle)).lost, stDegraded) ] s
      (.done stOk [] (s.configure (unitOf r.handle) (r.u 0 1 = 1) (r.u 1 1) (r.u 2 1 = 1))) := by
  refine judged_miss ?_
  rw [Bool.or_eq_false_iff, Bool.or_eq_false_iff]
  refine ⟨⟨decide_eq_false (Nat.not_le.2 part), ?_⟩, ?_⟩
  · rcases free with on | unbound
    · simp [on]
    · simp [unbound]
  · rcases held with own | same
    · simp [own]
    · simp [same]

theorem chConfigRow_busy (swept : s.underSweep (unitOf r.handle) = true) (changes : r.changesChannel s) :
    chConfigRow.body r s = .done stBusy [] s :=
  (chConfigRow_judged part free held).trans (judged_hit (by simpa [swept, Req.changesChannel] using changes))

variable (quiet : s.underSweep (unitOf r.handle) = false ∨ ¬ r.changesChannel s)
include quiet

theorem chConfigRow_unswept : chConfigRow.body r s =
    judged [((s.chan (unitOf r.handle)).lost, stDegraded)] s
      (.done stOk [] (s.configure (unitOf r.handle) (r.u 0 1 = 1) (r.u 1 1) (r.u 2 1 = 1))) := by
  refine (chConfigRow_judged part free held).trans (judged_miss ?_)
  rcases quiet with unswept | same
  · rw [unswept, Bool.false_and]
  · rw [Bool.and_eq_false_iff]
    exact .inr (by simpa [Req.changesChannel] using same)

theorem chConfigRow_degraded (lost : (s.chan (unitOf r.handle)).lost = true) : chConfigRow.body r s = .done stDegraded [] s :=
  (chConfigRow_unswept part free held quiet).trans (judged_hit lost)

theorem chConfigRow_sets (carried : (s.chan (unitOf r.handle)).lost = false) :
    chConfigRow.body r s = .done stOk [] (s.configure (unitOf r.handle) (r.u 0 1 = 1) (r.u 1 1) (r.u 2 1 = 1)) :=
  (chConfigRow_unswept part free held quiet).trans (judged_miss carried)

end Judged

end ChConfigRow

/-! ### WINDOW_SET, DETECTOR_SET and RESAMPLER_SET (R94, R99, R126, R130, R131) -/

/-- A window as WINDOW_SET sets it, with its counts and whether it is armed left (Table 16.2). -/
def Req.setsWindow (r : Req) (w : Window) : Window :=
  { w with enable := r.u 1 1 = 1, alarm := r.u 2 1 = 1, dwell := r.u 3 1, low := r.i 4 4, high := r.i 8 4, hysteresis := r.u 12 2 }

/-- A channel as DETECTOR_SET sets it at an instant. -/
def Req.setsDetectors (r : Req) (utc : Nat) (c : Channel) : Channel :=
  { c.newPeakWindow (r.u 0 2) utc with attack := r.u 2 1, decay := r.u 3 1 }

section Rows
variable {r : Req} {s : State}

theorem windowSetRow_sets (carried : (s.chan (unitOf r.handle)).lost = false) :
    windowSetRow.body r s = .done stOk []
      ((s.setChan (unitOf r.handle) (fun c => c.setWindow (r.u 0 1 = 1) r.setsWindow)).rearm (unitOf r.handle) (r.u 0 1 = 1)) :=
  judged_miss carried

theorem windowSetRow_degraded (lost : (s.chan (unitOf r.handle)).lost = true) : windowSetRow.body r s = .done stDegraded [] s :=
  judged_hit lost

theorem detectorSetRow_sets (carried : (s.chan (unitOf r.handle)).lost = false) :
    detectorSetRow.body r s = .done stOk [] (s.setChan (unitOf r.handle) (r.setsDetectors s.stampNow)) :=
  judged_miss carried

theorem Req.setsDetectors_same {c : Channel} (utc : Nat) (same : r.u 0 2 = c.peakMs) :
    r.setsDetectors utc c = { c with attack := r.u 2 1, decay := r.u 3 1 } := by
  simp [Req.setsDetectors, Channel.newPeakWindow, same]

/-- A new window length begins a window afresh (R131). -/
theorem Req.setsDetectors_new {c : Channel} (utc : Nat) (new : r.u 0 2 ≠ c.peakMs) :
    r.setsDetectors utc c = { c with
      peakMs := r.u 0 2, windowPeak := {}, windowAt := utc, attack := r.u 2 1, decay := r.u 3 1 } := by
  simp [Req.setsDetectors, Channel.newPeakWindow, new]

end Rows

section Set
variable {t : Nat} {p : Port} {s : State} {q : Request} (inv : s.Inv) (part : unitOf (Req.of p q).handle < 24)
include inv part

/-- WINDOW_SET sets and re-arms one window of its channel; ALARM_N follows (R94, R98, R99). -/
theorem windowSet_answers (called : windowSetRow.calls t p s q = true) (carried : (s.chan (unitOf (Req.of p q).handle)).lost = false) :
    let slow : Bool := (Req.of p q).u 0 1 = 1
    Answers (.windowSet t p) s (Req.of p q) stOk [] (fun u =>
      (u.chan (unitOf (Req.of p q).handle)).window slow =
        ((Req.of p q).setsWindow ((s.chan (unitOf (Req.of p q).handle)).window slow)).rearmed ∧
      (u.chan (unitOf (Req.of p q).handle)).window (!slow) = (s.chan (unitOf (Req.of p q).handle)).window (!slow) ∧
      (∀ k, k ≠ unitOf (Req.of p q).handle → u.chan k = (s.taken t p).chan k) ∧
      u = { s.taken t p with channels := u.channels, pins := u.pins }) := by
  intro slow
  have set (f : Channel → Channel) : (((s.taken t p).setChan (unitOf (Req.of p q).handle) f).rearm (unitOf (Req.of p q).handle) slow).chan
      (unitOf (Req.of p q).handle) = (f (s.chan (unitOf (Req.of p q).handle))).setWindow slow Window.rearmed := by
    rw [State.chan_rearm _ _ (by simpa [inv.channels] using part), State.taken_chan_setChan t p _ inv part]
  refine ⟨_, ends_of_body rfl called (windowSetRow_sets (by simpa using carried)), ?_, ?_, fun k other => ?_, rfl⟩
  · rw [set, Channel.window_setWindow, Channel.window_setWindow]
  · rw [set, Channel.window_setWindow_other, Channel.window_setWindow_other]
  · rw [State.chan_rearm_ne _ _ other, State.chan_setChan_ne _ _ _ _ other]

/-- DETECTOR_SET sets the detectors of its channel (R130). -/
theorem detectorSet_answers (called : detectorSetRow.calls t p s q = true) (carried : (s.chan (unitOf (Req.of p q).handle)).lost = false) :
    Answers (.detectorSet t p) s (Req.of p q) stOk [] (fun u =>
      u.chan (unitOf (Req.of p q).handle) = (Req.of p q).setsDetectors (s.taken t p).stampNow (s.chan (unitOf (Req.of p q).handle)) ∧
      (∀ k, k ≠ unitOf (Req.of p q).handle → u.chan k = (s.taken t p).chan k) ∧
      u = { s.taken t p with channels := u.channels }) :=
  ⟨_, ends_of_body rfl called (detectorSetRow_sets (by simpa using carried)), State.taken_chan_setChan t p _ inv part,
    fun k other => State.chan_setChan_ne _ _ _ _ other, rfl⟩

/-- RESAMPLER_SET promises the host part of the delay 1 ms later (R126). -/
theorem resamplerSetDelay_answers (called : resamplerSetDelayRow.calls t p s q = true) :
    Answers (.resamplerSetDelay t p) s (Req.of p q) stOk [] (fun u =>
      u.chan (unitOf (Req.of p q).handle) =
        { s.chan (unitOf (Req.of p q).handle) with
          nextDelay := (s.chan (unitOf (Req.of p q).handle)).nextDelay ++ [((Req.of p q).i 0 4, max s.now t + Config.ms)] } ∧
      (∀ k, k ≠ unitOf (Req.of p q).handle → u.chan k = (s.taken t p).chan k) ∧
      u = { s.taken t p with channels := u.channels }) := by
  refine ⟨_, ends_of_body rfl called rfl, ?_, fun k other => State.chan_setChan_ne _ _ _ _ other, rfl⟩
  rw [State.taken_chan_setChan t p _ inv part, State.take_now, State.tickTo_now_eq]

end Set

end Sys2Proof.Machine
end

section
/-! SUPPORT. The settings of a channel: the obligation, from the lemmas on each request. -/

open Sys2Proof.Machine

/-- Settles O21: CH_CONFIG sets its channel, and the settling and the lanes that follow leave all settings; each other request sets one channel. -/
theorem channelSettings : Obligations.ChannelSettings := by
  unfold Obligations.ChannelSettings
  refine ⟨fun t p s q called inv => ?_, fun t p s q inv => ?_⟩
  case refine_1 =>
    intro r n c mine u₀
    have ends {status : Nat} {u : State} (body : chConfigRow.body r u₀ = .done status [] u) : Ends (.chConfig t p) s r status [] u :=
      ends_of_body rfl called body
    refine ⟨fun lane => ends (chConfigRow_wrongState (.inl lane)),
      fun off bound => ends (chConfigRow_wrongState (.inr (.inl ⟨off, by simpa [u₀] using bound⟩))),
      fun held other => ends (chConfigRow_wrongState (.inr (.inr ⟨by simpa [u₀] using held, by simpa [u₀] using other⟩))), ?_⟩
    intro part free held changes
    have free' : r.u 0 1 = 1 ∨ u₀.bound n = false := by simpa [u₀] using free
    have held' : (u₀.chan n).repairMode = false ∨ r.u 1 1 = u₀.modeOf n := by simpa [u₀] using held
    have same : r.changesChannel u₀ ↔ changes := by simp [Req.changesChannel, changes, u₀, n, c, mine]
    refine ⟨fun swept alters => ends (chConfigRow_busy part free' held' (by simpa [u₀] using swept) (same.2 alters)), fun quiet => ?_⟩
    have quiet' : u₀.underSweep n = false ∨ ¬ r.changesChannel u₀ := by
      rw [same]
      simpa [u₀] using quiet
    refine ⟨fun lost => ends (chConfigRow_degraded part free' held' quiet' (by simpa [u₀] using lost)), fun carried => ?_⟩
    have chan (k : Nat) : u₀.chan k = s.chan k := by simp [u₀]
    have mode : u₀.modeOf n = mine := by simp [u₀, mine]
    refine ⟨_, ends (chConfigRow_sets part free' held' quiet' (by simpa [u₀] using carried)), ?_⟩
    obtain ⟨enabled, range, forwarding, armed⟩ := u₀.configure_chan (n := n) (decide (r.u 0 1 = 1)) (r.u 1 1) (decide (r.u 2 1 = 1))
      (by simpa [u₀, inv.channels] using part)
    refine ⟨enabled, by rwa [chan] at range, forwarding, by rwa [mode] at armed, fun unchanged => ?_, fun k other => ?_, fun standing => ?_,
      u₀.configure_bill ..⟩
    · obtain ⟨old, kept⟩ := not_or.1 unchanged
      rw [State.configure_same _ _ _ _ (by rw [chan]; exact not_not.1 old) (by rw [mode]; exact not_not.1 kept)]
      rfl
    · rw [← chan k]
      exact u₀.configure_chan_ne _ _ _ other
    · refine u₀.configure_leaves _ _ _ part ?_
      rw [chan]
      rcases standing with off | on
      · simp [off]
      · rw [on, Bool.not_true, Bool.and_false]
  case refine_2 =>
    intro r n c u₀ part
    refine ⟨fun called carried => ?_, fun called lost => ends_of_body rfl called (windowSetRow_degraded (by simpa using lost)),
      fun called carried => ?_, fun called => resamplerSetDelay_answers inv part called⟩
    · obtain ⟨u, ends, set, other, others, frame⟩ := windowSet_answers inv part called carried
      exact ⟨u, ends, congrArg Window.enable set, congrArg Window.alarm set, congrArg Window.dwell set, congrArg Window.low set,
        congrArg Window.high set, congrArg Window.hysteresis set, congrArg Window.armed set, congrArg Window.count set, other, others, frame⟩
    · obtain ⟨u, ends, set, others, frame⟩ := detectorSet_answers inv part called carried
      exact ⟨u, ends, fun same => set.trans (Req.setsDetectors_same _ same), fun new => set.trans (Req.setsDetectors_new _ new), others, frame⟩

end

section
/-! SUPPORT. The 64 bytes of CH_QUERY, and the runs of records that STREAM_READ gives. -/

namespace Sys2Proof.Machine

/-! ### Lengths of fields -/

@[simp] theorem length_le (k n : Nat) : (le k n).length = k := by
  induction k generalizing n with
  | zero => rfl
  | succ k ih => rw [le, List.length_cons, ih]

@[simp] theorem length_zeros (k : Nat) : (zeros k).length = k := List.length_replicate

/-! ### CH_QUERY (Table 16.8) -/

@[simp] theorem State.length_channelItems (s : State) (c : Channel) : (s.channelItems c).length = 36 := by simp [State.channelItems]

/-- A side slice, a slice, a lane with or without its channel, and a channel fill the same 64 bytes. -/
theorem State.length_queryBytes (s : State) (h : Nat) : (s.queryBytes h).length = 64 := by
  unfold State.queryBytes
  extract_lets d u tail lane on head channel
  have tail_length (missed fill : Nat) : (tail missed fill).length = 20 := by simp [tail]
  have head_length : head.length = 8 := by simp [head]
  split
  case isTrue => simp [tail_length]
  case isFalse =>
    split
    case isTrue => simp [tail_length]
    case isFalse =>
      split
      case isTrue => cases s.serves u <;> simp [head_length, tail_length]
      case isFalse => simp [tail_length]

/-- Where no edge waits at a pin, none fires as the request is taken. -/
theorem State.taken_settlePwm_idle {s : State} (t : Nat) (p : Port) (idle : ∀ k, nth s.pins.pwm k = none) :
    (s.taken t p).settlePwm = s.taken t p :=
  State.settlePwm_idle (by simpa using idle)

/-! ### Runs of records (R134) -/

/-- The step of `runFrom`: the run so far, its newest record first, and the next record held. -/
def runStep (start : Int) (a : List Record) (x : Record) : List Record :=
  if decide (x.1 < start) then a
  else
    match a with
    | [] => [x]
    | y :: _ => if x.1 = y.1 + 1 then x :: a else a

theorem runFrom_eq (start : Int) (l : List Record) : runFrom start l = (l.foldl (runStep start) []).reverse := rfl

/-- Records with consecutive indices, none before `start`, the newest first. -/
structure RunsBack (start : Int) (a : List Record) : Prop where
  after : ∀ x ∈ a, start ≤ x.1
  consecutive : a.IsChain (fun x y => x.1 = y.1 + 1)

theorem RunsBack.nil (start : Int) : RunsBack start [] := ⟨by simp, .nil⟩

theorem RunsBack.step {start : Int} {a : List Record} (run : RunsBack start a) (x : Record) : RunsBack start (runStep start a x) := by
  unfold runStep
  split
  case isTrue => exact run
  case isFalse early =>
    have late : start ≤ x.1 := by simpa using early
    cases a with
    | nil => exact ⟨by simpa using late, .singleton x⟩
    | cons y a =>
      dsimp only
      split
      case isTrue next => exact ⟨List.forall_mem_cons.2 ⟨late, run.after⟩, .cons_cons next run.consecutive⟩
      case isFalse => exact run

theorem RunsBack.foldl {start : Int} {a : List Record} (run : RunsBack start a) (l : List Record) :
    RunsBack start (l.foldl (runStep start) a) := by
  induction l generalizing a with
  | nil => exact run
  | cons x l ih => exact ih (run.step x)

/-- No record of the run lies before the index asked for. -/
theorem runFrom_after {start : Int} {l : List Record} : ∀ x ∈ runFrom start l, start ≤ x.1 := by
  intro x mem
  rw [runFrom_eq, List.mem_reverse] at mem
  exact ((RunsBack.nil start).foldl l).after x mem

/-- Each record of the run follows the one before it. -/
theorem runFrom_consecutive (start : Int) (l : List Record) : (runFrom start l).IsChain (fun x y => y.1 = x.1 + 1) := by
  rw [runFrom_eq, List.isChain_reverse]
  exact ((RunsBack.nil start).foldl l).consecutive

/-- In a list of consecutive indices the record at a place has the index of the first plus that place. -/
theorem index_of_consecutive {a : List Record} (chain : a.IsChain (fun x y => y.1 = x.1 + 1)) {i : Nat} (within : i < a.length) :
    (a.getD i default).1 = (a.getD 0 default).1 + i := by
  induction i with
  | zero => simp
  | succ i ih =>
    have next : (a.getD (i + 1) default).1 = (a.getD i default).1 + 1 := by
      rw [List.getD_eq_getElem _ _ within, List.getD_eq_getElem _ _ (Nat.lt_of_succ_lt within)]
      exact List.isChain_iff_getElem.1 chain i within
    rw [next, ih (Nat.lt_of_succ_lt within)]
    omega

/-! ### STREAM_READ (R134, R486) -/

/-- A stream with a record to give answers with it and what follows it, and draws nothing. -/
theorem streamReadRow_gives {r : Req} {s : State} {n : Nat} {x : Record} {l : List Record} (names : s.streamChannel r.handle = some n)
    (forwards : r.u 0 1 ≠ 1 ∨ (s.chan n).forwarding = true)
    (run : (runFrom (r.u 8 8) ((s.chan n).records (r.u 0 1))).take (r.u 2 2) = x :: l) :
    streamReadRow.body r s = .done stOk (le 4 (s.die (s.streamDie r.handle)).epoch ++ le 2 (l.length + 1) ++
      le 2 (recordSize (r.u 0 1)) ++ le 8 x.1.toNat ++ (x :: l).flatMap (fun y => y.2)) s := by
  have passes : (decide (r.u 0 1 = 1) && !(s.chan n).forwarding) = false := by
    rcases forwards with other | on
    · rw [decide_eq_false other, Bool.false_and]
    · rw [on, Bool.not_true, Bool.and_false]
  simp only [streamReadRow, names, run, Option.any_some]
  exact judged_miss passes

end Sys2Proof.Machine
end

section
/-! SUPPORT. CH_QUERY and STREAM_READ: the obligation, from the lemmas on replies and runs. -/

open Sys2Proof.Machine

/-- Settles O24: a reply of CH_QUERY has the length of its table, and the fold that gathers a run keeps it consecutive. -/
theorem streamsAreRead : Obligations.StreamsAreRead := by
  unfold Obligations.StreamsAreRead
  refine ⟨fun t p s q => ?_, fun start l i within => ?_⟩
  case refine_1 =>
    intro r u₀
    refine ⟨fun called => ⟨ends_of_body rfl called rfl, State.length_queryBytes _ _, State.taken_settlePwm_idle t p⟩, ?_⟩
    intro n x l called names forwards run
    have chan : u₀.chan n = s.chan n := by simp [u₀]
    have die : s.die (u₀.streamDie r.handle) = u₀.die (u₀.streamDie r.handle) := by simp [u₀]
    rw [← chan] at forwards run
    rw [die]
    exact ends_of_body rfl called (streamReadRow_gives names forwards run)
  case refine_2 =>
    have mem : (runFrom start l).getD i default ∈ runFrom start l := by
      rw [List.getD_eq_getElem _ _ within]
      exact List.getElem_mem within
    exact ⟨runFrom_after _ mem, index_of_consecutive (runFrom_consecutive start l) within⟩

end

section
/-! SUPPORT. What a field of a packet, record or store structure reads back: unsigned and signed fields, fields of repeated records, and
checksums (R4, R5, R46). -/

namespace Sys2Proof.Machine

/-! ### Fields read back (R4, R5) -/

/-- A field that lies past the first bytes is one of those that follow. -/
theorem field_append_past (a b : List Byte) {off : Nat} (k : Nat) (past : a.length ≤ off) : field (a ++ b) off k = field b (off - a.length) k := by
  unfold field
  rw [List.drop_append, List.drop_of_length_le past, List.nil_append]

theorem leNat_le (k n : Nat) : leNat (le k n) = n % 256 ^ k := by
  induction k generalizing n with
  | zero => rw [pow_zero, Nat.mod_one]; rfl
  | succ k ih =>
    have byte : (BitVec.ofNat 8 n).toNat = n % 256 := rfl
    rw [le, leNat, ih, byte, pow_succ', Nat.mod_mul]

/-- A field written is read back without the bits that it has no room for. -/
@[simp] theorem field_le (k n : Nat) : field (le k n) 0 k = n % 256 ^ k := by
  have whole : (le k n).take k = le k n := List.take_of_length_le (by rw [length_le])
  rw [field, List.drop_zero, whole, leNat_le]

theorem field_le_of_lt {k n : Nat} (fits : n < 256 ^ k) : field (le k n) 0 k = n := by
  rw [field_le, Nat.mod_eq_of_lt fits]

@[simp] theorem length_leInt (k : Nat) (i : Int) : (leInt k i).length = k := length_le ..

/-- A signed field written is read back where its two's complement has room for it. -/
theorem fieldInt_leInt {k : Nat} {i : Int} (present : 0 < k) (low : -((2 ^ (8 * k - 1) : Nat) : Int) ≤ i)
    (high : i < (2 ^ (8 * k - 1) : Nat)) : fieldInt (leInt k i) 0 k = i := by
  have bytes : 256 ^ k = 2 ^ (8 * k) := (pow_mul 2 8 k).symm
  have double : 2 ^ (8 * k) = 2 * 2 ^ (8 * k - 1) := by rw [← pow_succ', show 8 * k - 1 + 1 = 8 * k by omega]
  unfold fieldInt leInt toInt
  rw [field_le, bytes, double]
  generalize 2 ^ (8 * k - 1) = half at low high ⊢
  rcases Int.lt_or_le i 0 with negative | positive
  · have wraps : i % (2 * half : Nat) = i + (2 * half : Nat) := by
      rw [← Int.add_emod_right, Int.emod_eq_of_lt (by omega) (by omega)]
    rw [wraps, Nat.mod_eq_of_lt (by omega), if_neg (by omega)]
    omega
  · rw [Int.emod_eq_of_lt positive (by omega), Nat.mod_eq_of_lt (by omega), if_pos (by omega)]
    omega

/-! ### Records of one size -/

section Records
variable {α : Type} {l : List α} {f : α → List Byte} {n : Nat}

theorem length_flatMap_of_size (size : ∀ x ∈ l, (f x).length = n) : (l.flatMap f).length = l.length * n := by
  rw [List.length_flatMap, List.map_congr_left size, List.map_const', List.sum_replicate, smul_eq_mul]

/-- A field of a list of records is that of one record. -/
theorem field_flatMap (size : ∀ x ∈ l, (f x).length = n) {k : Nat} (part : k < l.length) {off m : Nat} (within : off + m ≤ n) :
    field (l.flatMap f) (n * k + off) m = field (f l[k]) off m := by
  induction l generalizing k with
  | nil => cases part
  | cons x l ih =>
    obtain ⟨first, rest⟩ := List.forall_mem_cons.1 size
    rw [List.flatMap_cons]
    cases k with
    | zero => rw [Nat.mul_zero, Nat.zero_add, field_append _ _ (by omega)]; rfl
    | succ k =>
      have past : n * (k + 1) + off - (f x).length = n * k + off := by rw [first, Nat.mul_succ]; omega
      rw [field_append_past _ _ _ (by rw [first, Nat.mul_succ]; omega), past, ih rest (Nat.lt_of_succ_lt_succ part)]
      rfl

end Records

/-! ### Checksums (R46) -/

theorem crcBit_lt {c : Nat} (word : c < 2 ^ 32) : crcBit c < 2 ^ 32 := by
  unfold crcBit
  split
  · exact Nat.xor_lt_two_pow (by omega) (by norm_num)
  · omega

theorem crcByte_lt {c : Nat} (word : c < 2 ^ 32) (b : Byte) : crcByte c b < 2 ^ 32 := by
  have first : c ^^^ b.toNat < 2 ^ 32 := Nat.xor_lt_two_pow word (b.isLt.trans (by norm_num))
  unfold crcByte
  iterate 8 apply crcBit_lt
  exact first

/-- The CRC-32C is a word of 32 bits. -/
theorem crc32c_lt (bs : List Byte) : crc32c bs < 2 ^ 32 := by
  have folded : bs.foldl crcByte 0xFFFFFFFF < 2 ^ 32 :=
    List.foldlRecOn bs crcByte (motive := fun c => c < 2 ^ 32) (by norm_num) (fun _ word b _ => crcByte_lt word b)
  exact Nat.xor_lt_two_pow folded (by norm_num)

section WithCrc
variable (bs : List Byte)

@[simp] theorem length_withCrc : (withCrc bs).length = bs.length + 4 := by simp [withCrc]

theorem take_withCrc : (withCrc bs).take bs.length = bs := List.take_left

/-- The checksum of a structure holds. -/
theorem field_withCrc : field (withCrc bs) bs.length 4 = crc32c bs := by
  rw [withCrc, field_append_past _ _ _ le_rfl, Nat.sub_self, field_le_of_lt (crc32c_lt bs)]

end WithCrc

end Sys2Proof.Machine
end

section
/-! SUPPORT. The bytes of calibration images: their length, and what a request that carries one reads back (R166-R168, Tables 5.11 and 5.12). -/

namespace Sys2Proof.Machine

/-! ### The record of a unit (Table 5.12) -/

/-- 26 trims as they stand in records. -/
def trimFields (l : List Int) : List Byte := (List.range 26).flatMap (fun i => leInt 2 (nth l i))

@[simp] theorem length_trimFields (l : List Int) : (trimFields l).length = 52 := by
  rw [trimFields, length_flatMap_of_size (fun _ _ => length_leInt 2 _), List.length_range]

/-- The values that a trim of 16 bits can take. -/
def Trims (l : List Int) : Prop := l.length = 26 ∧ ∀ x ∈ l, -32768 ≤ x ∧ x ≤ 32767

theorem fieldInt_trimFields {l : List Int} (trims : Trims l) {i : Nat} (part : i < 26) : fieldInt (trimFields l) (2 * i) 2 = nth l i := by
  obtain ⟨length, ranges⟩ := trims
  have mem : nth l i ∈ l := by
    rw [nth, List.getD_eq_getElem _ _ (by omega)]
    exact List.getElem_mem _
  obtain ⟨low, high⟩ := ranges _ mem
  have place : field (trimFields l) (2 * i) 2 = field (leInt 2 (nth l i)) 0 2 := by
    rw [← Nat.add_zero (2 * i), trimFields, field_flatMap (fun _ _ => length_leInt 2 _) (by simpa using part) le_rfl, List.getElem_range]
  rw [fieldInt, place]
  exact fieldInt_leInt (by norm_num) (by norm_num; exact low) (by norm_num; omega)

namespace Calibration
variable (c : Calibration) (unit : Nat)

theorem imageRecord_eq : c.imageRecord unit =
    le 1 unit ++ le 1 (ofBool c.factory + 2 * ofBool c.withheld) ++ zeros 2 ++ trimFields c.target ++
      (le 4 c.exciteGain ++ le 4 c.exciteSkew ++ le 4 c.slopeSkew ++ le 4 c.overlap ++ c.times.flatMap (le 8) ++ le 2 c.setTemperature ++
        zeros 22) := by
  simp only [imageRecord, trimFields, List.append_assoc]

variable {c} (four : c.times.length = 4)
include four

theorem length_imageRecord : (c.imageRecord unit).length = 128 := by
  have times : (c.times.flatMap (le 8)).length = 32 := by rw [length_flatMap_of_size (fun _ _ => length_le 8 _), four]
  simp [imageRecord_eq, times]

end Calibration

theorem Calibration.fieldInt_imageRecord {c : Calibration} (unit : Nat) (trims : Trims c.target) {i : Nat} (part : i < 26) :
    fieldInt (c.imageRecord unit) (4 + 2 * i) 2 = nth c.target i := by
  rw [Calibration.imageRecord_eq, fieldInt, field_append _ _ (by simp; omega), field_append_past _ _ _ (by simp)]
  simpa [fieldInt] using fieldInt_trimFields trims part

/-! ### The image of a die (Table 5.11) -/

/-- The 24 bytes before the records of an image. -/
def imageHead (die generation time : Nat) : List Byte :=
  le 2 1 ++ le 1 die ++ zeros 1 ++ le 4 generation ++ le 8 time ++ le 4 partTag ++ zeros 4

/-- The records of the units of a die. -/
def imageRecords (units : List Calibration) : List Byte := (units.zipIdx).flatMap (fun x => x.1.imageRecord x.2)

theorem calImage_eq (die generation time : Nat) (units : List Calibration) :
    calImage die generation time units = withCrc (imageHead die generation time ++ imageRecords units ++ zeros 1252) := rfl

@[simp] theorem length_imageHead (die generation time : Nat) : (imageHead die generation time).length = 24 := by simp [imageHead]

section Image
variable {units : List Calibration} (six : units.length = 6) (four : ∀ c ∈ units, c.times.length = 4)
include four

/-- Each record of an image has its 128 bytes. -/
theorem size_imageRecords : ∀ x ∈ units.zipIdx, (x.1.imageRecord x.2).length = 128 := by
  rintro ⟨c, k⟩ mem
  exact Calibration.length_imageRecord k (four c (List.fst_mem_of_mem_zipIdx mem))

include six

theorem length_imageRecords : (imageRecords units).length = 768 := by
  rw [imageRecords, length_flatMap_of_size (size_imageRecords four), List.length_zipIdx, six]

variable (die generation time : Nat)

/-- An image without its CRC. -/
theorem length_imageBody : (imageHead die generation time ++ imageRecords units ++ zeros 1252).length = 2044 := by
  simp [length_imageRecords six four]

theorem length_calImage : (calImage die generation time units).length = 2048 := by
  rw [calImage_eq, length_withCrc, length_imageBody six four]

/-- The CRC of an image holds. -/
theorem field_calImage_crc : field (calImage die generation time units) 2044 4 = crc32c ((calImage die generation time units).take 2044) := by
  rw [calImage_eq, ← length_imageBody six four die generation time, take_withCrc, field_withCrc]

theorem field_calImage_head {off k : Nat} (within : off + k ≤ 24) :
    field (calImage die generation time units) off k = field (imageHead die generation time) off k := by
  rw [calImage_eq, withCrc, field_append _ _ (by rw [length_imageBody six four]; omega), List.append_assoc,
    field_append _ _ (by simpa using within)]

theorem field_calImage_record {k : Nat} (part : k < units.length) {off m : Nat} (within : off + m ≤ 128) :
    field (calImage die generation time units) (24 + 128 * k + off) m = field (units[k].imageRecord k) off m := by
  have records := length_imageRecords six four
  have before : (imageHead die generation time ++ imageRecords units).length = 792 := by simp [records]
  rw [calImage_eq, withCrc, field_append _ _ (by rw [length_imageBody six four]; omega), field_append _ _ (by omega),
    field_append_past _ _ _ (by simp; omega), length_imageHead, show 24 + 128 * k + off - 24 = 128 * k + off by omega, imageRecords,
    field_flatMap (size_imageRecords four) (by simpa using part) within, List.getElem_zipIdx, Nat.zero_add]

end Image

section Head
variable (die generation time : Nat)

theorem field_imageHead_version : field (imageHead die generation time) 0 2 = 1 := by
  simp (disch := simp) [imageHead, field_append]

theorem field_imageHead_die (part : die < 256) : field (imageHead die generation time) 2 1 = die := by
  simp (disch := simp) [imageHead, field_append, field_append_past, Nat.mod_eq_of_lt part]

theorem field_imageHead_generation (word : generation < 4294967296) : field (imageHead die generation time) 4 4 = generation := by
  simp (disch := simp) [imageHead, field_append, field_append_past, Nat.mod_eq_of_lt word]

theorem field_imageHead_tag : field (imageHead die generation time) 16 4 = partTag := by
  have word : partTag < 4294967296 := Nat.mod_lt _ (by norm_num)
  simp (disch := simp) [imageHead, field_append, field_append_past, Nat.mod_eq_of_lt word]

end Head

/-- The trims that a request reads from an image are those of its units. -/
theorem Req.imageTrims_eq {r : Req} {die generation time : Nat} {units : List Calibration} (carries : r.payload = calImage die generation time units)
    (six : units.length = 6) (four : ∀ c ∈ units, c.times.length = 4) (trims : ∀ c ∈ units, Trims c.target) {k : Nat} (part : k < 6) :
    r.imageTrims k = (nth units k).target := by
  have part' : k < units.length := by omega
  have unit : nth units k = units[k] := List.getD_eq_getElem _ _ part'
  have held := trims _ (List.getElem_mem part')
  rw [unit]
  refine List.ext_getElem (by simp [Req.imageTrims, held.1]) (fun i within _ => ?_)
  have within' : i < 26 := by simpa [Req.imageTrims] using within
  have read := field_calImage_record six four die generation time part' (off := 4 + 2 * i) (m := 2) (by omega)
  have trim := Calibration.fieldInt_imageRecord k held within'
  rw [fieldInt, ← read, ← Nat.add_assoc, ← carries] at trim
  simpa [Req.imageTrims, Req.i, fieldInt, nth, held.1, within'] using trim

end Sys2Proof.Machine
end

section
/-! SUPPORT. Calibration images: the obligation, from the lemmas on their bytes. -/

open Sys2Proof.Machine

/-- Settles O29: each field of an image lies where the request reads it. -/
theorem imagesRoundTrip : Obligations.ImagesRoundTrip := by
  unfold Obligations.ImagesRoundTrip
  intro r d g time units carries six small holds
  have four : ∀ c ∈ units, c.times.length = 4 := fun c mem => (holds c mem).1
  have trims : ∀ c ∈ units, Trims c.target := fun c mem => (holds c mem).2
  have head {off k : Nat} (within : off + k ≤ 24) : r.u off k = field (imageHead d g time) off k := by
    rw [Req.u, carries, field_calImage_head six four d g time within]
  refine ⟨?_, ?_, ?_, ?_, fun word => ?_, fun k part => Req.imageTrims_eq carries six four trims part⟩
  · rw [head (by norm_num), field_imageHead_version]
  · rw [head (by norm_num), field_imageHead_die _ _ _ (by omega)]
  · rw [head (by norm_num), field_imageHead_tag]
  · rw [Req.u, carries, field_calImage_crc six four]
  · rw [head (by norm_num), field_imageHead_generation _ _ _ word]

end

section
/-! SUPPORT. The calibration requests: CAL_STATUS, CAL_IMAGE_WRITE and CAL_LIMITS, and what an image written leaves (R163, R164, R168). -/

namespace Sys2Proof.Machine

/-- The number of converters of a state that holds the objects of the part. -/
theorem State.Inv.converters {s : State} (inv : s.Inv) : s.converters.length = 30 := by
  simp only [State.Inv, State.shape, partShape, List.cons.injEq] at inv
  exact inv.2.1

/-! ### The record of a unit in CAL_STATUS (Table 16.12) -/

@[simp] theorem length_trimBytes (l : List Int) : (trimBytes l).length = 56 := by
  rw [show trimBytes l = trimFields l ++ zeros 4 from rfl, List.length_append, length_trimFields, length_zeros]

@[simp] theorem length_outcomeWord (o : List Nat) : (outcomeWord o).length = 4 := by simp [outcomeWord]

theorem State.length_calRecord (s : State) (u : Nat) : (s.calRecord u).length = 160 := by simp [State.calRecord]

/-! ### What taking a request leaves -/

section Taken
variable (s : State) (t : Nat) (p : Port)

theorem State.taken_calsOf (d : Nat) : (s.taken t p).calsOf d = s.calsOf d := by
  simp [State.calsOf]

theorem State.taken_sweepOn (d : Nat) : (s.taken t p).sweepOn d = s.sweepOn d := by
  simp [State.sweepOn, State.sweepRuns, State.sweepUnits]

theorem State.taken_restoreSlot (k : Nat) : (s.taken t p).restoreSlot k = s.restoreSlot k := by
  simp [State.restoreSlot]

end Taken

/-! ### A calibration changed -/

theorem State.conv_setCal {s : State} {u : Nat} (f : Calibration → Calibration) (part : u < s.converters.length) :
    (s.setCal u f).conv u = { s.conv u with cal := f (s.conv u).cal } := State.conv_setConv _ _ _ part

theorem State.conv_setCal_ne {s : State} {u v : Nat} (f : Calibration → Calibration) (other : v ≠ u) : (s.setCal u f).conv v = s.conv v :=
  State.conv_setConv_ne _ _ _ _ other

/-! ### An image taken (R168) -/

/-- The trims that a unit takes of the record at a place: the delay of a lane stays 0 (R143). -/
def Req.unitTrims (r : Req) (u k : Nat) : List Int := if u < 24 then r.imageTrims k else alter (r.imageTrims k) 25 (fun _ => 0)

/-- A unit takes its record: its calibration changes, and its channel at most. -/
theorem State.takeImage_frame (s : State) (r : Req) (u k : Nat) :
    ∃ f l, (∀ c, (f c).source = 2 ∧ (f c).target = r.unitTrims u k) ∧ s.takeImage r u k = { s.setCal u f with channels := l } := by
  unfold State.takeImage
  extract_lets b trims changed v
  obtain ⟨f, gives, set⟩ : ∃ f, (∀ c, (f c).source = 2 ∧ (f c).target = r.unitTrims u k) ∧ v = s.setCal u f := by
    refine ⟨_, ?_, rfl⟩
    exact fun _ => ⟨rfl, rfl⟩
  rw [set]
  split <;> exact ⟨f, _, gives, rfl⟩

/-- The records of an image taken by the units that begin at one, the first few of them. -/
def State.takeImages (s : State) (r : Req) (first : Nat) (n : Nat) : State :=
  (List.range n).foldl (fun (s : State) k => s.takeImage r (first + k) k) s

/-- What a state holds once the first units from one on have taken their records. -/
structure State.TookImages (s : State) (r : Req) (first n : Nat) (u : State) : Prop where
  frame : u = { s with converters := u.converters, channels := u.channels }
  length : u.converters.length = s.converters.length
  takes : ∀ k, k < n → (u.conv (first + k)).cal.source = 2 ∧ (u.conv (first + k)).cal.target = r.unitTrims (first + k) k
  others : ∀ v, (v < first ∨ first + n ≤ v) → u.conv v = s.conv v

section Took
variable {s u : State} {r : Req} {first n : Nat} (took : s.TookImages r first n u)
include took

theorem State.TookImages.store : u.store = s.store := by rw [took.frame]

theorem State.TookImages.cal : u.cal = s.cal := by rw [took.frame]

end Took

theorem State.TookImages.step {s u : State} {r : Req} {first n : Nat} (took : s.TookImages r first n u)
    (room : first + n < s.converters.length) : s.TookImages r first (n + 1) (u.takeImage r (first + n) n) := by
  obtain ⟨frame, length, takes, others⟩ := took
  obtain ⟨f, l, gives, eq⟩ := u.takeImage_frame r (first + n) n
  have conv (v : Nat) : (u.takeImage r (first + n) n).conv v = (u.setCal (first + n) f).conv v := by rw [eq]; rfl
  refine ⟨?_, ?_, fun k part => ?_, fun v outside => ?_⟩
  · rw [eq, frame]; rfl
  · rw [eq]
    exact (length_alter ..).trans length
  · rw [conv]
    rcases Nat.lt_succ_iff_lt_or_eq.1 part with before | rfl
    · rw [State.conv_setCal_ne _ (by omega)]
      exact takes k before
    · rw [State.conv_setCal _ (by omega)]
      exact gives _
  · rw [conv, State.conv_setCal_ne _ (by omega)]
    exact others v (by omega)

theorem State.tookImages (s : State) (r : Req) {first n : Nat} (room : first + n ≤ s.converters.length) :
    s.TookImages r first n (s.takeImages r first n) := by
  induction n with
  | zero => exact ⟨rfl, rfl, nofun, fun _ _ => rfl⟩
  | succ n ih =>
    unfold State.takeImages
    rw [List.range_succ, List.foldl_append]
    exact (ih (Nat.le_of_succ_le room)).step room

/-! ### CAL_IMAGE_WRITE (R168, Table 16.2) -/

section Write
variable {r : Req} {s : State} (version : r.u 0 2 = 1) (die : r.u 2 1 = hDie r.handle) (crc : r.u 2044 4 = crc32c (r.payload.take 2044))
include version die crc

theorem calImageWriteRow_denied (other : r.u 16 4 ≠ partTag) : calImageWriteRow.body r s = .done stDenied [] s :=
  (judged_miss (by simp [version, die, crc])).trans (judged_hit (decide_eq_true other))

theorem calImageWriteRow_takes (mine : r.u 16 4 = partTag) (ranges : r.imageRanges = true) (quiet : s.sweepOn (hDie r.handle) = false) :
    calImageWriteRow.body r s = .done stOk []
      { s.takeImages r (6 * (hDie r.handle - 1)) 6 with
        cal := { (s.takeImages r (6 * (hDie r.handle - 1)) 6).cal with
          generation := ((s.takeImages r (6 * (hDie r.handle - 1)) 6).cal.generation + 1) % 4294967296 } } :=
  judged_pass (by simp [version, die, crc, mine, ranges, quiet])

end Write

section Answers
variable {t : Nat} {p : Port} {s : State} {q : Request}

/-- CAL_LIMITS with limits sets them, and answers them (R164, R487). -/
theorem calLimitsWrite_answers (called : calLimitsWriteRow.calls t p s q = true) :
    Answers (.calLimitsWrite t p) s (Req.of p q) stOk ((List.range 13).flatMap (fun i => le 2 ((Req.of p q).u (2 + 2 * i) 2))) (fun u =>
      u.cal.limits = (List.range 13).map (fun i => (Req.of p q).u (2 + 2 * i) 2) ∧
      u = { s.taken t p with cal := { (s.taken t p).cal with limits := u.cal.limits } }) := by
  have reply : (Req.of p q).limits.flatMap (le 2) = (List.range 13).flatMap (fun i => le 2 ((Req.of p q).u (2 + 2 * i) 2)) :=
    List.flatMap_map ..
  rw [← reply]
  exact ⟨_, ends_of_body rfl called rfl, rfl, rfl⟩

/-- CAL_IMAGE_WRITE gives the units of its die the trims of the image, and raises the generation (R168). -/
theorem calImageWrite_answers (called : calImageWriteRow.calls t p s q = true) (version : (Req.of p q).u 0 2 = 1)
    (die : (Req.of p q).u 2 1 = hDie (Req.of p q).handle) (crc : (Req.of p q).u 2044 4 = crc32c ((Req.of p q).payload.take 2044))
    (mine : (Req.of p q).u 16 4 = partTag) (ranges : (Req.of p q).imageRanges = true) (quiet : s.sweepOn (hDie (Req.of p q).handle) = false)
    (room : 6 * (hDie (Req.of p q).handle - 1) + 6 ≤ s.converters.length) :
    Answers (.calImageWrite t p) s (Req.of p q) stOk [] (fun u =>
      ∃ v, (s.taken t p).TookImages (Req.of p q) (6 * (hDie (Req.of p q).handle - 1)) 6 v ∧
        u = { v with cal := { s.cal with generation := (s.cal.generation + 1) % 4294967296 } }) := by
  have took := (s.taken t p).tookImages (Req.of p q) (first := 6 * (hDie (Req.of p q).handle - 1)) (n := 6) (by simpa using room)
  have cal := took.cal.trans (show (s.taken t p).cal = s.cal by simp)
  have body := calImageWriteRow_takes version die crc mine ranges ((s.taken_sweepOn t p _).trans quiet)
  rw [cal] at body
  exact ⟨_, ends_of_body rfl called body, _, took, rfl⟩

end Answers

end Sys2Proof.Machine
end

section
/-! SUPPORT. The calibration requests: the obligation, from the lemmas on each. -/

open Sys2Proof.Machine

/-- Settles O28: what is read is in the state that takes the request, and an image is taken unit by unit. -/
theorem calibrationRequests : Obligations.CalibrationRequests := by
  unfold Obligations.CalibrationRequests
  intro t p s q r d u₀
  have images : u₀.calsOf d = s.calsOf d := s.taken_calsOf t p d
  refine ⟨fun called => ends_of_body rfl called rfl, u₀.length_calRecord, fun called => ⟨?_, fun four => ?_⟩,
    fun called => ends_of_body rfl called ?_, calLimitsWrite_answers, ?_⟩
  · rw [← images, show s.cal.generation = u₀.cal.generation by simp [u₀]]
    exact ends_of_body rfl called rfl
  · exact length_calImage (by simp [State.calsOf]) four _ _ _
  · rw [show s.cal = u₀.cal by simp [u₀]]
    rfl
  · intro called version die crc
    refine ⟨fun other => ends_of_body rfl called (calImageWriteRow_denied version die crc other), ?_⟩
    intro mine ranges quiet inv low high
    have room : 6 * (d - 1) + 6 ≤ s.converters.length := by rw [inv.converters]; omega
    obtain ⟨u, ends, v, took, rfl⟩ := calImageWrite_answers called version die crc mine ranges quiet room
    have outside {v : Nat} (other : v / 6 ≠ d - 1) : v < 6 * (d - 1) ∨ 6 * (d - 1) + 6 ≤ v := by omega
    refine ⟨_, ends, rfl, fun k part => ?_, fun v other => took.others v (outside other), rfl, took.store⟩
    obtain ⟨source, target⟩ := took.takes k part
    have home : 6 * (d - 1) + k < 24 ↔ d < 5 := by omega
    refine ⟨source, target.trans ?_⟩
    simp only [Req.unitTrims, r, d] at home ⊢
    simp only [home]

end

section
/-! SUPPORT. The store slots of calibration: CAL_STORE, CAL_RESTORE and their completions (R169-R173). -/

namespace Sys2Proof.Machine

/-! ### CAL_STORE (R170, Table 16.2) -/

/-- The slot that CAL_STORE opens: the one that is not the newest valid. -/
def CalState.opened (c : CalState) : Nat :=
  match c.newest with
  | some 0 => 1
  | _ => 0

theorem CalState.opened_lt (c : CalState) : c.opened < 2 := by
  unfold CalState.opened
  split <;> decide

theorem CalState.newest_ne_opened (c : CalState) : c.newest ≠ some c.opened := by
  unfold CalState.opened
  split
  · next first => simp [first]
  · next other => exact other

/-- A slot opened is not valid. -/
theorem nth_alter_none (slots : List (Option CalSlot)) (k : Nat) : nth (alter slots k (fun _ => none)) k = none := by
  rcases Nat.lt_or_ge k slots.length with part | past
  · exact nth_alter _ _ _ part
  · exact nth_past _ _ (by simpa using past)

/-- What CAL_STORE stores: the calibration in force, with the next store count. -/
def State.toStore (s : State) (r : Req) : CalSlot :=
  { atBoot := r.u 0 1 = 1, count := s.cal.topCount + 1, generation := s.cal.generation, time := s.stampNow
    units := s.converters.map (fun c => c.cal) }

section Store
variable {r : Req} {s : State}

theorem calStoreRow_starts (idle : s.cal.storing = none) (quiet : s.cal.restoring = []) (room : s.opRoom r.session = true) :
    calStoreRow.body r s = .done stAccepted (le 2 s.host.nextTag)
      { (s.startOp r.opcode r.handle r.session).2 with cal := { s.cal with
        slots := alter s.cal.slots s.cal.opened (fun _ => none), storing := some (s.host.nextTag, s.cal.opened, s.toStore r)
        abandoned := false } } :=
  (judged_pass (by simp [idle, quiet])).trans (accept_room room)

theorem calStoreRow_busy (stores : s.cal.storing.isSome = true) : calStoreRow.body r s = .done stBusy [] s :=
  judged_hit (by simp [stores])

end Store

/-- CAL_STORE opens its slot with the next store count, and changes no unit (R170). -/
theorem calStore_answers {t : Nat} {p : Port} {s : State} {q : Request} (called : calStoreRow.calls t p s q = true) (idle : s.cal.storing = none)
    (quiet : s.cal.restoring = []) (room : s.opRoom (Req.of p q).session = true) :
    Answers (.calStore t p) s (Req.of p q) stAccepted (le 2 s.host.nextTag) (fun u => ∃ c,
      u.cal = { s.cal with
        slots := alter s.cal.slots s.cal.opened (fun _ => none), storing := some (s.host.nextTag, s.cal.opened, c), abandoned := false } ∧
      c.count = s.cal.topCount + 1 ∧ c.units = s.converters.map (fun x => x.cal) ∧ u.converters = (s.taken t p).converters) := by
  have cal : (s.taken t p).cal = s.cal := by simp
  have tag : (s.taken t p).host.nextTag = s.host.nextTag := by simp
  have body := calStoreRow_starts (r := Req.of p q) (s := s.taken t p) (by simpa using idle) (by simpa using quiet) (by simpa using room)
  rw [cal, tag] at body
  refine ⟨_, ends_of_body rfl called body, (s.taken t p).toStore (Req.of p q), rfl, ?_, ?_, rfl⟩
  · simp [State.toStore]
  · simp [State.toStore]

/-! ### CAL_RESTORE (R172, Table 16.2) -/

section Restore
variable {r : Req} {s : State}

theorem calRestoreRow_wrongState (invalid : s.restoreSlot (r.u 0 1) = none) : calRestoreRow.body r s = .done stWrongState [] s := by
  simp only [calRestoreRow, invalid]
  rfl

theorem calRestoreRow_starts {k : Nat} (valid : s.restoreSlot (r.u 0 1) = some k) (quiet : ∀ d, 1 ≤ d → d ≤ 5 → s.sweepOn d = false)
    (room : s.opRoom r.session = true) :
    calRestoreRow.body r s = .done stAccepted (le 2 s.host.nextTag)
      { (s.startOp r.opcode r.handle r.session).2 with cal := { s.cal with
        restoring := s.cal.restoring ++ [(s.host.nextTag, k, (nth s.cal.slots k).getD {}, decide (s.store.state = 1))] } } := by
  simp only [calRestoreRow, valid]
  exact (judged_pass (by simp [quiet])).trans (accept_room room)

end Restore

/-- CAL_RESTORE of a valid slot waits with what the slot holds, and changes no unit yet (R172). -/
theorem calRestore_answers {t : Nat} {p : Port} {s : State} {q : Request} {k : Nat} (called : calRestoreRow.calls t p s q = true)
    (valid : s.restoreSlot ((Req.of p q).u 0 1) = some k) (quiet : ∀ d, 1 ≤ d → d ≤ 5 → s.sweepOn d = false)
    (room : s.opRoom (Req.of p q).session = true) :
    Answers (.calRestore t p) s (Req.of p q) stAccepted (le 2 s.host.nextTag) (fun u =>
      u.cal.restoring = s.cal.restoring ++ [(s.host.nextTag, k, (nth s.cal.slots k).getD {}, decide (s.store.state = 1))] ∧
      u.converters = (s.taken t p).converters) := by
  have body := calRestoreRow_starts (r := Req.of p q) (s := s.taken t p) ((s.taken_restoreSlot t p _).trans valid)
    (fun d low high => (s.taken_sweepOn t p d).trans (quiet d low high)) (by simpa using room)
  rw [State.take_cal, State.take_store, State.take_nextTag] at body
  exact ⟨_, ends_of_body rfl called body, rfl, rfl⟩

/-! ### Completions (R170, R172, Table 16.3) -/

@[simp] theorem State.completeOp_cal (s : State) (tag status : Nat) (detail : List Byte) : (s.completeOp tag status detail).cal = s.cal := by
  rw [State.completeOp_frame]

@[simp] theorem State.completeOp_converters (s : State) (tag status : Nat) (detail : List Byte) :
    (s.completeOp tag status detail).converters = s.converters := by
  rw [State.completeOp_frame]

@[simp] theorem State.completeOp_conv (s : State) (tag status : Nat) (detail : List Byte) (v : Nat) :
    (s.completeOp tag status detail).conv v = s.conv v := by
  rw [State.completeOp_frame]
  rfl

theorem State.completeOp_gone {s : State} {tag status : Nat} {detail : List Byte} {o : LongOp}
    (mem : o ∈ (s.completeOp tag status detail).host.ops) : o.tag ≠ tag := by
  rw [State.completeOp_ops, List.mem_filter] at mem
  exact of_decide_eq_true mem.2

section Stores
variable {s : State} {tag k : Nat} {c : CalSlot} (stores : s.cal.storing = some (tag, k, c)) (kept : s.cal.abandoned = false)
include stores kept

/-- A CAL_STORE completes: its slot is valid where the store is still writable. -/
theorem exec_calStoreComplete (t : Nat) : ∃ status detail, exec (.calStoreComplete t) s = .next
    (({ s.tickTo t with cal := { s.cal with
        storing := none, slots := if s.store.state = 1 then alter s.cal.slots k (fun _ => some c) else s.cal.slots } } : State).completeOp
      tag status detail) := by
  show ∃ status detail, execCalStoreComplete t s = _
  by_cases writable : s.store.state = 1
  · exact ⟨stOk, _, by simp [execCalStoreComplete, stores, kept, writable]; rfl⟩
  · exact ⟨stDegraded, _, by simp [execCalStoreComplete, stores, kept, writable]; rfl⟩

theorem calStoreComplete_leads (t : Nat) (part : k < s.cal.slots.length) : Leads (.calStoreComplete t) s (fun u => u.cal.storing = none ∧
    nth u.cal.slots k = (if s.store.state = 1 then some c else nth s.cal.slots k) ∧ (∀ o ∈ u.host.ops, o.tag ≠ tag)) := by
  obtain ⟨status, detail, run⟩ := exec_calStoreComplete stores kept t
  refine ⟨_, run, by simp, ?_, fun _ => State.completeOp_gone⟩
  rw [State.completeOp_cal]
  dsimp only
  split
  · exact nth_alter _ _ _ part
  · rfl

end Stores

/-- A unit of which the slot holds a record takes its trims as targets. -/
theorem State.conv_restoreCal (s : State) (c : CalSlot) (ramp : Bool) {v : Nat} (part : v < s.converters.length) (held : v < c.units.length) :
    (s.restoreCal c ramp).conv v = { s.conv v with cal := (s.conv v).cal.restored (nth c.units v) ramp s.now } := by
  simp [State.restoreCal, State.conv, nth, part, held]

theorem Calibration.restored_target (c k : Calibration) (ramp : Bool) (now : Nat) : (c.restored k ramp now).target = k.target := by
  cases ramp <;> rfl

/-- The state in which the oldest restore has left the list. -/
def State.restoreLeft (s : State) (t : Nat) (rest : List (Nat × Nat × CalSlot × Bool)) : State :=
  { s.tickTo t with cal := { s.cal with restoring := rest } }

section Restores
variable {s : State} {tag k : Nat} {c : CalSlot} {w : Bool} {rest : List (Nat × Nat × CalSlot × Bool)}
  (restores : s.cal.restoring = (tag, k, c, w) :: rest) (t : Nat)
include restores

theorem exec_calRestoreComplete_applies (writable : w = true → s.store.state = 1) : ∃ detail, exec (.calRestoreComplete t) s =
    .next (((s.restoreLeft t rest).restoreCal c true).completeOp tag stOk detail) := by
  show ∃ detail, execCalRestoreComplete t s = _
  simp only [execCalRestoreComplete, State.tickTo_cal, restores]
  refine ⟨_, congrArg Host.Outcome.next (if_neg (fun both => ?_))⟩
  obtain ⟨on, readOnly⟩ := Bool.and_eq_true_iff.1 both
  exact of_decide_eq_true readOnly (writable on)

theorem exec_calRestoreComplete_degraded (writable : w = true) (readOnly : s.store.state ≠ 1) : ∃ detail,
    exec (.calRestoreComplete t) s = .next ((s.restoreLeft t rest).completeOp tag stDegraded detail) := by
  show ∃ detail, execCalRestoreComplete t s = _
  simp only [execCalRestoreComplete, State.tickTo_cal, restores]
  exact ⟨_, congrArg Host.Outcome.next (if_pos (by simp [writable, readOnly]))⟩

/-- A restore gives every unit the trims of its slot, and the slot's generation (R172). -/
theorem calRestoreComplete_applies (writable : w = true → s.store.state = 1) : Leads (.calRestoreComplete t) s (fun u =>
    u.cal.restoring = rest ∧ u.cal.generation = c.generation ∧
    (∀ v, v < s.converters.length → v < c.units.length → (u.conv v).cal.target = (nth c.units v).target ∧ (u.conv v).cal.source = 3) ∧
    (∀ o ∈ u.host.ops, o.tag ≠ tag)) := by
  obtain ⟨detail, run⟩ := exec_calRestoreComplete_applies restores t writable
  refine ⟨_, run, ?_, ?_, fun v part held => ?_, fun _ => State.completeOp_gone⟩
  · rw [State.completeOp_cal]; rfl
  · rw [State.completeOp_cal]; rfl
  · have conv := (s.restoreLeft t rest).conv_restoreCal c true part held
    rw [State.completeOp_conv, conv]
    exact ⟨Calibration.restored_target .., rfl⟩

/-- A restore whose store has become read-only while it ran applies nothing. -/
theorem calRestoreComplete_degraded (writable : w = true) (readOnly : s.store.state ≠ 1) : Leads (.calRestoreComplete t) s (fun u =>
    u.cal.restoring = rest ∧ u.cal.generation = s.cal.generation ∧ u.converters = s.converters ∧ (∀ o ∈ u.host.ops, o.tag ≠ tag)) := by
  obtain ⟨detail, run⟩ := exec_calRestoreComplete_degraded restores t writable readOnly
  refine ⟨_, run, ?_, ?_, ?_, fun _ => State.completeOp_gone⟩
  · rw [State.completeOp_cal]; rfl
  · rw [State.completeOp_cal]; rfl
  · rw [State.completeOp_converters]; rfl

end Restores

end Sys2Proof.Machine
end

section
/-! SUPPORT. The store slots of calibration: the obligation, from the lemmas on each request and completion. -/

open Sys2Proof.Machine

/-- Settles O30: each request opens or names its slot, and each completion makes the slot valid or applies it. -/
theorem calibrationSlots : Obligations.CalibrationSlots := by
  unfold Obligations.CalibrationSlots
  refine ⟨fun t p s q => ?_, fun t tag k c s stores kept two part => calStoreComplete_leads stores kept t (two ▸ part),
    fun t tag k c w rest s restores => ⟨calRestoreComplete_applies restores t, calRestoreComplete_degraded restores t⟩⟩
  intro r u₀
  refine ⟨fun called idle quiet room => ?_, fun called stores => ends_of_body rfl called (calStoreRow_busy (by simpa using stores)),
    fun called invalid => ends_of_body rfl called (calRestoreRow_wrongState ((s.taken_restoreSlot t p _).trans invalid)),
    fun k called valid quiet room => calRestore_answers called valid quiet room⟩
  obtain ⟨u, ends, c, cal, count, units, converters⟩ := calStore_answers called idle quiet room
  refine ⟨u, ends, s.cal.opened, c, s.cal.opened_lt, s.cal.newest_ne_opened, ?_, ?_, ?_, count, units, converters⟩
  · rw [cal]
  · rw [cal]
    exact nth_alter_none ..
  · have other : 1 - s.cal.opened ≠ s.cal.opened := by
      have part := s.cal.opened_lt
      omega
    rw [cal]
    exact nth_alter_ne _ _ _ _ other

end

section
/-! SUPPORT. The measurement requests: MEAS_CONFIG, PQ_EVENT_CONFIG, MEAS_READ, HARMONIC_READ and FLICKER_READ (group 05h). -/

namespace Sys2Proof.Machine

/-! ### Check 11 of Table 2.5 -/

/-- The tests of a list name no status only where none holds. -/
theorem firstOf_none {tests : List (Bool × Nat)} (none_ : firstOf tests = none) : ∀ x ∈ tests, x.1 = false := by
  induction tests with
  | nil => exact fun x mem => absurd mem List.not_mem_nil
  | cons test rest ih =>
    obtain ⟨c, status⟩ := test
    cases c with
    | true => cases none_
    | false => exact List.forall_mem_cons.2 ⟨rfl, ih none_⟩

/-- A request that is called passes the range checks of its row. -/
theorem valid_of_calls {row : Row} {t : Nat} {p : Port} {s : State} {q : Request} (called : row.calls t p s q = true) :
    row.valid (Req.of p q) (s.taken t p) = true := by
  have passes : row.refusal (Req.of p q) (s.taken t p) = none := of_decide_eq_true (Bool.and_eq_true_iff.1 called).2
  unfold Row.refusal at passes
  split at passes
  · cases passes
  · next spec _ =>
    have tested : (!row.valid (Req.of p q) (s.taken t p), stBadParam) ∈ row.checks spec (Req.of p q) (s.taken t p) := by simp [Row.checks]
    simpa using firstOf_none passes _ tested

/-! ### What taking a request leaves -/

section Taken
variable (s : State) (t : Nat) (p : Port)

@[simp] theorem State.taken_changesBound (c : MeasConfig) : (s.taken t p).changesBound c = s.changesBound c := by
  simp [State.changesBound]

@[simp] theorem State.taken_missesElements (c : MeasConfig) : (s.taken t p).missesElements c = s.missesElements c := by
  simp [State.missesElements, State.localContexts]

@[simp] theorem State.taken_ctxOf (h : Nat) : (s.taken t p).ctxOf h = s.ctxOf h := by simp [State.ctxOf]

end Taken

/-! ### MEAS_CONFIG (R177, Table 16.2) -/

section MeasConfigRow
variable {r : Req} {s : State}

theorem measConfigRow_wrongState (bad : s.changesBound r.measConfig = true ∨ s.missesElements r.measConfig = true) :
    measConfigRow.body r s = .done stWrongState [] s :=
  judged_hit (Bool.or_eq_true_iff.2 bad)

section Fits
variable (kept : s.changesBound r.measConfig = false) (elements : s.missesElements r.measConfig = false)
include kept elements

theorem measConfigRow_noResource (many : 8 < (r.measConfig.channels.filter (fun x => x.flicker ≠ 0)).length) :
    measConfigRow.body r s = .done stNoResource [] s :=
  (judged_miss (Bool.or_eq_false_iff.2 ⟨kept, elements⟩)).trans (judged_hit (decide_eq_true many))

theorem measConfigRow_accepts (few : (r.measConfig.channels.filter (fun x => x.flicker ≠ 0)).length ≤ 8) :
    measConfigRow.body r s = .done stOk [] (s.acceptConfig r.measConfig) :=
  (judged_miss (Bool.or_eq_false_iff.2 ⟨kept, elements⟩)).trans (judged_miss (decide_eq_false (Nat.not_lt.2 few)))

end Fits

end MeasConfigRow

/-! ### PQ_EVENT_CONFIG (R201) -/

section PqEventConfigRow
variable {r : Req} {s : State}

theorem pqEventConfigRow_band (band : r.u 0 1 = 255) : pqEventConfigRow.body r s =
    .done stOk [] { s with meas := { s.meas with band := r.u 22 2, bandOn := bit (r.u 2 1) 4 } } :=
  if_pos band

theorem pqEventConfigRow_system (system : r.u 0 1 ≠ 255) (connected : (nth s.meas.accepted.systems (r.u 0 1)).connection ≠ 0) :
    pqEventConfigRow.body r s =
      .done stOk [] { s with meas := { s.meas with pq := alter s.meas.pq (r.u 0 1) (fun _ => r.pqParams) } } :=
  (if_neg system).trans (judged_miss (decide_eq_false connected))

theorem pqEventConfigRow_wrongState (system : r.u 0 1 ≠ 255) (open_ : (nth s.meas.accepted.systems (r.u 0 1)).connection = 0) :
    pqEventConfigRow.body r s = .done stWrongState [] s :=
  (if_neg system).trans (judged_hit (decide_eq_true open_))

end PqEventConfigRow

/-! ### MEAS_READ (R213, R490, Tables 6.11 and 6.12) -/

/-- A value found in a block, or missed there, is of the quantity asked for. -/
theorem MeasBlock.find_quantity (b : MeasBlock) (kind object q : Nat) : (b.find kind object q).quantity = q := by
  unfold MeasBlock.find
  cases found : b.values.find? (fun v => v.kind = kind && v.object = object && v.quantity = q) with
  | none => rfl
  | some v =>
    have same := List.find?_some found
    simp only [Bool.and_eq_true, decide_eq_true_eq] at same
    obtain ⟨-, quantity⟩ := same
    exact quantity

theorem MeasBlock.read_quantity (b : MeasBlock) (c : MeasConfig) (ctx : Option Context) (kind object q : Nat) :
    (b.read c ctx kind object q).quantity = q := by
  unfold MeasBlock.read
  split
  · rfl
  · split <;> exact b.find_quantity ..

theorem State.readQuantity_quantity (s : State) (r : Req) (q : Nat) : (s.readQuantity r q).quantity = q := MeasBlock.read_quantity ..

/-- The values that a MEAS_READ answers are one for each code, in the order of the codes. -/
theorem State.readQuantities (s : State) (r : Req) :
    (r.quantities.map (fun q => s.readQuantity r q)).map (fun v => v.quantity) = r.quantities := by
  rw [List.map_map]
  exact (List.map_congr_left (fun q _ => s.readQuantity_quantity r q)).trans (List.map_id _)

section Unparked
variable {f : Req → State → Answer} {r : Req} {s : State}

theorem unparked_busy {c : Context} (named : s.ctxOf r.handle = some c) (parks : bit c.state 1 = true) : unparked f r s = refuse stBusy s := by
  simp only [unparked, named, parks, if_true]

theorem unparked_pass (stays : ∀ c, s.ctxOf r.handle = some c → bit c.state 1 = false) : unparked f r s = f r s := by
  unfold unparked
  split
  · next c named => rw [stays c named, if_neg Bool.false_ne_true]
  · rfl

end Unparked

section MeasReadRow
variable {r : Req} {s : State}

/-- While its context parks, a MEAS_READ is refused (R253). -/
theorem measReadRow_busy {c : Context} (named : s.ctxOf r.handle = some c) (parks : bit c.state 1 = true) :
    measReadRow.body r s = .done stBusy [] s := by
  simp only [measReadRow, unparked_busy named parks]
  rfl

section Stays
variable (stays : ∀ c, s.ctxOf r.handle = some c → bit c.state 1 = false)
include stays

theorem measReadRow_wrongState (gone : (s.blocksRead r (nth r.quantities 0))[r.u 3 1]? = none) :
    measReadRow.body r s = .done stWrongState [] s := by
  simp only [measReadRow, unparked_pass stays, gone]
  rfl

theorem measReadRow_reads {b : MeasBlock} (held : (s.blocksRead r (nth r.quantities 0))[r.u 3 1]? = some b) :
    measReadRow.body r s = .done stOk
      (b.header (r.u 2 1) (r.u 0 1) (r.u 1 1) (r.quantities.map (fun q => s.readQuantity r q)) ++
        (r.quantities.map (fun q => s.readQuantity r q)).flatMap MeasValue.record) s := by
  simp only [measReadRow, unparked_pass stays, held]

end Stays

end MeasReadRow

/-- A MEAS_READ names a quantity at least, and its first code is that of byte 8 (R490). -/
theorem first_quantity {t : Nat} {p : Port} {s : State} {q : Request} (called : measReadRow.calls t p s q = true) :
    nth (Req.of p q).quantities 0 = (Req.of p q).u 8 1 := by
  have valid := valid_of_calls called
  have some_ : 0 < (Req.of p q).u 4 1 := by
    simp only [measReadRow, Bool.and_eq_true, decide_eq_true_eq] at valid
    omega
  simp [nth, Req.quantities, some_]

/-! ### HARMONIC_READ (R490) -/

section HarmonicReadRow
variable {r : Req} {s : State}

/-- The block that a HARMONIC_READ names by its age (R490). -/
def State.harmonicBlock (s : State) (r : Req) : Option MeasBlock :=
  (s.meas.blocksOf (r.u 1 1) (decide (5 ≤ r.u 3 1)) (fun v => decide (16 ≤ v.kind) && decide (v.object = r.u 0 1)))[r.u 2 1]?

theorem harmonicReadRow_wrongState (gone : s.harmonicBlock r = none) : harmonicReadRow.body r s = .done stWrongState [] s := by
  unfold State.harmonicBlock at gone
  simp only [harmonicReadRow, gone]
  rfl

theorem harmonicReadRow_reads {b : MeasBlock} (held : s.harmonicBlock r = some b) : harmonicReadRow.body r s =
    let vs := (List.range (r.u 5 1)).map (fun k => b.find (16 + r.u 3 1) (r.u 0 1) (r.u 4 1 + k))
    .done stOk (b.header (r.u 1 1) 0 (r.u 0 1) vs ++ vs.flatMap (fun v => f32Bytes v.value)) s := by
  unfold State.harmonicBlock at held
  simp only [harmonicReadRow, held]

end HarmonicReadRow

/-! ### FLICKER_READ (R199) -/

/-- The payload of FLICKER_READ: the values of a channel, their flags, and the ends of their periods. -/
def MeasState.flickerBytes (m : MeasState) (n : Nat) : List Byte :=
  [0, 1, 2].flatMap (fun q => f32Bytes (m.flickerOf n q).value) ++ [0, 1, 2].flatMap (fun q => le 2 (m.flickerOf n q).flags) ++ zeros 6 ++
    [0, 1, 2].flatMap (fun q => le 8 (m.flickerTime n q))

@[simp] theorem length_f32Bytes (x : F32) : (f32Bytes x).length = 4 := length_le ..

theorem MeasState.length_flickerBytes (m : MeasState) (n : Nat) : (m.flickerBytes n).length = 48 := by simp [MeasState.flickerBytes]

theorem MeasState.take_flickerBytes (m : MeasState) (n : Nat) : (m.flickerBytes n).take 4 = f32Bytes (m.flickerOf n 0).value := by
  simp only [MeasState.flickerBytes, List.flatMap_cons, List.append_assoc]
  exact List.take_left' (length_f32Bytes _)

section FlickerReadRow
variable {r : Req} {s : State}

theorem flickerReadRow_wrongState (off : (nth s.meas.accepted.channels (unitOf r.handle)).flicker = 0) :
    flickerReadRow.body r s = .done stWrongState [] s :=
  judged_hit (decide_eq_true off)

theorem flickerReadRow_reads (on : (nth s.meas.accepted.channels (unitOf r.handle)).flicker ≠ 0) :
    flickerReadRow.body r s = .done stOk (s.meas.flickerBytes (unitOf r.handle)) s :=
  judged_miss (decide_eq_false on)

end FlickerReadRow

/-! ### The requests -/

section Answers
variable {t : Nat} {p : Port} {s : State} {q : Request}

/-- MEAS_CONFIG leaves the configuration in force, and dates the one it accepts (R177). -/
theorem measConfig_answers (called : measConfigRow.calls t p s q = true) (kept : s.changesBound (Req.of p q).measConfig = false)
    (elements : s.missesElements (Req.of p q).measConfig = false)
    (few : ((Req.of p q).measConfig.channels.filter (fun x => x.flicker ≠ 0)).length ≤ 8) :
    Answers (.measConfig t p) s (Req.of p q) stOk [] (fun u =>
      u.meas.accepted = (Req.of p q).measConfig ∧ u.meas.acceptedAt = some (max s.now t) ∧ u.meas.config = s.meas.config ∧
      u.meas.latest = s.meas.latest ∧ u = { s.taken t p with meas := u.meas }) := by
  refine ⟨_, ends_of_body rfl called (measConfigRow_accepts (by simpa using kept) (by simpa using elements) few), rfl, ?_, ?_, ?_, rfl⟩ <;>
    simp [State.acceptConfig]

/-- PQ_EVENT_CONFIG sets the parameters of the system it names, and of no other (R201). -/
theorem pqEventConfig_answers (called : pqEventConfigRow.calls t p s q = true) (system : (Req.of p q).u 0 1 ≠ 255)
    (connected : (nth s.meas.accepted.systems ((Req.of p q).u 0 1)).connection ≠ 0) :
    Answers (.pqEventConfig t p) s (Req.of p q) stOk [] (fun u =>
      ((Req.of p q).u 0 1 < s.meas.pq.length → nth u.meas.pq ((Req.of p q).u 0 1) = (Req.of p q).pqParams) ∧
      (∀ k, k ≠ (Req.of p q).u 0 1 → nth u.meas.pq k = nth s.meas.pq k) ∧
      u = { s.taken t p with meas := { (s.taken t p).meas with pq := u.meas.pq } }) := by
  have body := pqEventConfigRow_system (s := s.taken t p) system (by simpa using connected)
  refine ⟨_, ends_of_body rfl called body, fun part => ?_, fun k other => ?_, rfl⟩
  · exact nth_alter _ _ _ (by simpa using part)
  · exact (nth_alter_ne _ _ _ _ other).trans (by simp)

/-- MEAS_READ answers the header of the block and a record for each quantity (Tables 6.11 and 6.12). -/
theorem measRead_ends (called : measReadRow.calls t p s q = true)
    (stays : ∀ c, s.ctxOf (Req.of p q).handle = some c → bit c.state 1 = false) {b : MeasBlock}
    (held : ((s.taken t p).blocksRead (Req.of p q) ((Req.of p q).u 8 1))[(Req.of p q).u 3 1]? = some b) :
    Ends (.measRead t p) s (Req.of p q) stOk
      (b.header ((Req.of p q).u 2 1) ((Req.of p q).u 0 1) ((Req.of p q).u 1 1)
          ((Req.of p q).quantities.map (fun k => (s.taken t p).readQuantity (Req.of p q) k)) ++
        ((Req.of p q).quantities.map (fun k => (s.taken t p).readQuantity (Req.of p q) k)).flatMap MeasValue.record) (s.taken t p) :=
  ends_of_body rfl called (measReadRow_reads (by simpa using stays) (by rw [first_quantity called, held]))

/-- FLICKER_READ of a channel whose flicker is on answers its 48 bytes, Pst first (R199). -/
theorem flickerRead_ends (called : flickerReadRow.calls t p s q = true)
    (on : (nth s.meas.accepted.channels (unitOf (Req.of p q).handle)).flicker ≠ 0) :
    Ends (.flickerRead t p) s (Req.of p q) stOk (s.meas.flickerBytes (unitOf (Req.of p q).handle)) (s.taken t p) := by
  have body := flickerReadRow_reads (s := s.taken t p) (by simpa using on)
  rw [State.take_meas, State.tickTo_meas] at body
  exact ends_of_body rfl called body

end Answers

end Sys2Proof.Machine
end

section
/-! SUPPORT. The measurement requests: the obligation, from the lemmas on each. -/

open Sys2Proof.Machine

/-- Settles O32: each request by its row's rules, its operands read in the state that takes it. -/
theorem measurementRequests : Obligations.MeasurementRequests := by
  unfold Obligations.MeasurementRequests
  refine ⟨fun t p s q => ?_, fun t p s q => ?_⟩
  · intro r c u₀ flickers
    refine ⟨fun called bad => ends_of_body rfl called (measConfigRow_wrongState (by simpa using bad)),
      fun called kept elements => ⟨fun many => ?_, measConfig_answers called kept elements⟩,
      fun called band => ⟨_, ends_of_body rfl called (pqEventConfigRow_band band), rfl⟩, pqEventConfig_answers,
      fun called system open_ => ends_of_body rfl called (pqEventConfigRow_wrongState system (by simpa using open_))⟩
    exact ends_of_body rfl called (measConfigRow_noResource (by simpa using kept) (by simpa using elements) many)
  · intro r u₀ mine held
    have block : u₀.harmonicBlock r = held := by simp [State.harmonicBlock, u₀, held, mine]
    refine ⟨fun called stays => ?_, fun c called named parks => ?_, fun called => ⟨fun gone => ?_, fun b found => ?_⟩,
      fun called => ⟨fun off => ?_, fun on => ?_⟩⟩
    · intro vs
      have codes : vs = r.quantities.map (fun k => u₀.readQuantity r k) := by simp [vs, Req.quantities]
      refine ⟨codes ▸ u₀.readQuantities r, fun gone => ?_, fun b found => ?_⟩
      · exact ends_of_body rfl called (measReadRow_wrongState (by simpa using stays) (by rw [first_quantity called, gone]))
      · have count : vs.length = r.u 4 1 := by simp [vs]
        have ends := measRead_ends called stays found
        rw [← codes, MeasBlock.header, count] at ends
        exact ends
    · exact ends_of_body rfl called (measReadRow_busy (by simpa using named) parks)
    · exact ends_of_body rfl called (harmonicReadRow_wrongState (block.trans gone))
    · exact ends_of_body rfl called (harmonicReadRow_reads (block.trans found))
    · exact ends_of_body rfl called (flickerReadRow_wrongState (by simpa using off))
    · exact ⟨_, s.meas.length_flickerBytes _, s.meas.take_flickerBytes _, flickerRead_ends called on⟩

end

section
/-! SUPPORT. O33: why basic intervals that hold an angle alone refute it. -/

namespace Sys2Proof.Machine

/-- The angle of a harmonic of channel 0, as HARMONIC_READ type 4 shows it. Angles are not aggregated (R193): their `aggRule` is none. -/
def phaseAngle : MeasValue := { kind := 20, object := 0, quantity := 1, exact := some 0 }

/-- A part in operation with fifteen basic intervals of one 10-minute period, each of which holds that angle and no other value. -/
def anglesAlone : State :=
  { State.reset with
    phase := .running
    meas := { State.reset.meas with groupParts := List.replicate 15 { values := [phaseAngle] } } }

/-- The track of every object holds the angle: it is a value of channel 0, and no residual current. -/
theorem everyObject_holds_phaseAngle : ({ objects := everyObject } : Track).holds phaseAngle = true := by decide

/-- The 150/180-cycle value of these intervals has no value in it, and so the history holds no block (R213). -/
theorem anglesAlone_group {u : State} (run : exec (.aggregate150180 0) anglesAlone = .next u) : u.meas.group = [] := by
  cases run
  decide +kernel

/-- Refutes O33: fifteen basic intervals of one 10-minute period hold a value of the track, the angle of a harmonic; but angles are not
aggregated (R193), so the history of 150/180-cycle values stays empty where the statement asks for a block. -/
theorem not_aggregationsRun : ¬ Obligations.AggregationsRun := by
  unfold Obligations.AggregationsRun
  intro h
  obtain ⟨rows, -⟩ := h
  obtain ⟨-, group, -⟩ := rows 0 anglesAlone
  have filled : ∃ b ∈ (List.replicate 15 ({ values := [phaseAngle] } : MeasBlock)), 0 ≤ b.tick ∧
      ∃ v ∈ b.values, ({ objects := everyObject } : Track).holds v = true :=
    ⟨_, List.mem_replicate.2 ⟨by decide, rfl⟩, Nat.le_refl 0, phaseAngle, List.mem_singleton.2 rfl, everyObject_holds_phaseAngle⟩
  obtain ⟨u, run, -, ⟨x, head, -⟩, -⟩ := group _ _ { objects := everyObject } rfl rfl (by decide) (by decide) (by decide) filled
  rw [anglesAlone_group run] at head
  cases head

end Sys2Proof.Machine
end

section
/-! SUPPORT. SET_TIME and SET_CLOCK_POLICY (R508, R451, R243, R237). -/

namespace Sys2Proof.Machine

/-- The settings record leaves everything but the journal. -/
theorem State.journalSettings_frame (s : State) : s.journalSettings = { s with store := s.journalSettings.store } := by
  unfold State.journalSettings
  rw [State.journalAdd_frame]

section Answers
variable {t : Nat} {p : Port} {s : State} {q : Request}

/-- SET_TIME answers the boundary of its step in old time and the step, and plans it there (R508, R451, R243). -/
theorem setTime_answers (called : setTimeRow.calls t p s q = true) :
    Answers (.setTime t p) s (Req.of p q) stOk
      (le 8 ((s.taken t p).utcBefore (nextBoundary q.rxAt)) ++ leInt 8 ((s.taken t p).timeStep ((Req.of p q).u 0 8) q.rxAt) ++
        le 1 (ofBool (decide (s.clock.limit * secTicks < ((s.taken t p).timeStep ((Req.of p q).u 0 8) q.rxAt).natAbs)) +
          2 * ofBool (!s.clock.rtcValid) + 4 * ofBool s.clock.ppsLocked) ++ zeros 7)
      (fun u => u.bill.adjustments.getLast? =
          some { boundary := nextBoundary q.rxAt, step := (s.taken t p).timeStep ((Req.of p q).u 0 8) q.rxAt } ∧
        u.clock.rtcValid = true ∧ (s.clock.rtcValid = false → u.clock.rtcValidFrom = nextBoundary q.rxAt) ∧ u.bill.live = s.bill.live) := by
  have clock : (s.taken t p).clock = s.clock := by simp
  have received : (Req.of p q).rxAt = q.rxAt := rfl
  refine ⟨_, ends_of_body (row := setTimeRow) rfl called (by simp only [setTimeRow, clock]; rfl), ?_⟩
  cases valid : s.clock.rtcValid <;> simp [State.planStep, valid, received]

/-- SET_CLOCK_POLICY sets the two settings, and keeps the rules of the ticks before (R237). -/
theorem setClockPolicy_answers (called : setClockPolicyRow.calls t p s q = true) :
    Answers (.setClockPolicy t p) s (Req.of p q) stOk [] (fun u =>
      u.clock = { s.clock with policy := (Req.of p q).u 0 1, limit := (Req.of p q).u 2 2, past := (s.taken t p).keptRules } ∧
        u.bill = s.bill ∧ u.host.owner = s.host.owner) := by
  refine ⟨_, ends_of_body (row := setClockPolicyRow) rfl called rfl, ?_⟩
  rw [State.journalSettings_frame]
  simp

end Answers

end Sys2Proof.Machine
end

section
/-! SUPPORT. SET_TIME and SET_CLOCK_POLICY: the obligation, from the lemmas on each. -/

open Sys2Proof.Machine

/-- Settles O18: the step is measured in old time at receipt, and what each request leaves is in its row's body. -/
theorem clockCommands : Obligations.ClockCommands := by
  unfold Obligations.ClockCommands
  refine ⟨fun t p s q called => ?_, fun t p s q called => setClockPolicy_answers called⟩
  have answers := setTime_answers called
  rw [State.timeStep, State.taken, State.take_clock, State.tickTo_clock] at answers
  exact answers

end

section
/-! SUPPORT. The actions at a tick boundary: their order (R236), and what each changes (R226, R231, R234, R257). -/

namespace Sys2Proof.Machine

/-! ### The order of the steps (R236, Table 7.11) -/

/-- Of the actions due at a boundary no step up to `k` is left: nothing is due, or a later step of that boundary is. -/
def State.passed (s : State) (k boundary : Nat) : Prop :=
  ∀ d, s.bill.due = some d → k < d.step ∧ d.step ≤ 8 ∧ d.boundary = boundary

/-- The last step leaves nothing behind it. -/
theorem State.passed.due_none {s : State} {boundary : Nat} (passed : s.passed 8 boundary) : s.bill.due = none := by
  cases due : s.bill.due with
  | none => rfl
  | some d =>
    obtain ⟨after, last, -⟩ := passed d due
    omega

theorem State.passed_of_none {s : State} (none_ : s.bill.due = none) (k boundary : Nat) : s.passed k boundary := fun d due => by
  rw [none_] at due
  cases due

section Steps
variable {s : State} {d : DueActions} (due : s.bill.due = some d)
include due

/-- A step run is that of the actions due, and the next one comes up. -/
theorem State.stepOnce_of_due : s.stepOnce =
    { s.runStep d d.step with
      bill := { (s.runStep d d.step).bill with due := if d.step ≥ 8 then none else some { d with step := d.step + 1 } } } := by
  unfold State.stepOnce
  rw [due]

theorem State.stepOnce_due : s.stepOnce.bill.due = if d.step ≥ 8 then none else some { d with step := d.step + 1 } := by
  rw [State.stepOnce_of_due due]

/-- A step run leaves behind it no step up to its own. -/
theorem State.stepOnce_passed {k : Nat} (near : k < d.step + 1) : s.stepOnce.passed k d.boundary := by
  intro d' due'
  rw [State.stepOnce_due due] at due'
  split at due'
  · cases due'
  · cases due'
    exact ⟨near, by simp only; omega, rfl⟩

end Steps

theorem State.settleThrough_of_none {s : State} (none_ : s.bill.due = none) (k n : Nat) : State.settleThrough k n s = s := by
  cases n with
  | zero => rfl
  | succ n =>
    unfold State.settleThrough
    rw [none_]

theorem State.advance_of_none {s : State} (none_ : s.bill.due = none) (n : Nat) : State.advance n s = s := by
  cases n with
  | zero => rfl
  | succ n =>
    unfold State.advance
    rw [none_]

/-- Steps that are carried out up to `k` leave none of them, where there is fuel for each. -/
theorem State.settleThrough_passed {k n : Nat} {s : State} {d : DueActions} (due : s.bill.due = some d) (last : d.step ≤ 8)
    (fuel : k < d.step + n) : (State.settleThrough k n s).passed k d.boundary := by
  induction n generalizing s d with
  | zero =>
    intro d' due'
    cases due.symm.trans due'
    exact ⟨fuel, last, rfl⟩
  | succ n ih =>
    unfold State.settleThrough
    rw [due]
    dsimp only
    split
    · have after := State.stepOnce_due due
      split at after
      · rw [State.settleThrough_of_none after]
        exact State.passed_of_none after k d.boundary
      · next more => exact ih (d := { d with step := d.step + 1 }) after (by simp only; omega) (by simp only; omega)
    · intro d' due'
      cases due.symm.trans due'
      exact ⟨by omega, last, rfl⟩

/-- Steps that pass by go forward only. -/
theorem State.advance_passed {k boundary n : Nat} {s : State} (passed : s.passed k boundary) : (State.advance n s).passed k boundary := by
  induction n generalizing s with
  | zero => exact passed
  | succ n ih =>
    cases due : s.bill.due with
    | none =>
      rw [State.advance_of_none due]
      exact passed
    | some d =>
      obtain ⟨after, -, same⟩ := passed d due
      unfold State.advance
      rw [due]
      dsimp only
      split
      · exact passed
      · exact ih (same ▸ State.stepOnce_passed due (by omega))

section Row
variable {s : State} {d : DueActions} {k : Nat} (due : s.bill.due = some d) (works : s.stepDue d k = true)
include due works

/-- The row of a step that is due carries out every step up to it. -/
theorem State.dueRow_of_due (reached : d.step ≤ k) :
    s.dueRow k = State.advance 8 (State.settleThrough k 8 s) := by
  unfold State.dueRow
  rw [due]
  simp [reached, works]

/-- Where the step is itself the one at hand, the row runs it alone. -/
theorem State.dueRow_at_hand (here : d.step = k) :
    s.dueRow k = State.advance 8 s.stepOnce := by
  rw [State.dueRow_of_due due works here.le]
  have passed : s.stepOnce.passed k d.boundary := State.stepOnce_passed due (by omega)
  congr 1
  rw [State.settleThrough, due]
  simp only [here.le, if_true]
  cases rest : s.stepOnce.bill.due with
  | none => exact State.settleThrough_of_none rest ..
  | some e =>
    obtain ⟨after, -⟩ := passed e rest
    rw [State.settleThrough, rest]
    simp [Nat.not_le.2 after]

end Row

/-- What the row of a step carries out: every step up to its own, and its own alone where that is the one at hand. -/
theorem dueRow_leads {i : Instr} {t k : Nat} {s : State} {d : DueActions} (row : exec i s = .next ((s.tickTo t).dueRow k)) (last : k ≤ 8)
    (ready : s.bill.due = some d ∧ 2 ≤ d.step ∧ d.step ≤ k ∧ s.stepDue d k = true) :
    Leads i s (fun u => u.passed k d.boundary ∧ (d.step = k → u = State.advance 8 { (s.tickTo t).runStep d k with
      bill := { ((s.tickTo t).runStep d k).bill with due := if k = 8 then none else some { d with step := k + 1 } } })) := by
  obtain ⟨due, first, reached, works⟩ := ready
  have due' : (s.tickTo t).bill.due = some d := due
  have works' : (s.tickTo t).stepDue d k = true := works
  refine ⟨_, row, ?_, fun here => ?_⟩
  · rw [State.dueRow_of_due due' works' reached]
    exact State.advance_passed (State.settleThrough_passed due' (by omega) (by omega))
  · subst here
    have end_ : d.step ≥ 8 ↔ d.step = 8 := by omega
    rw [State.dueRow_at_hand due' works' rfl, State.stepOnce_of_due due']
    simp only [end_]

/-- After the checkpoint nothing is due, and it is that of its minute (R244). -/
theorem checkpoint_leads {t : Nat} {s : State} {d : DueActions}
    (ready : s.bill.due = some d ∧ 2 ≤ d.step ∧ d.step ≤ 8 ∧ s.stepDue d 8 = true) :
    Leads (.checkpoint t) s (fun u => (u.passed 8 d.boundary ∧ (d.step = 8 → u = State.advance 8 { (s.tickTo t).runStep d 8 with
      bill := { ((s.tickTo t).runStep d 8).bill with due := if 8 = 8 then none else some { d with step := 8 + 1 } } })) ∧
      u.bill.due = none ∧ (d.step = 8 → u.bill.checkpointed = d.instant / minTicks)) := by
  obtain ⟨u, run, passed, alone⟩ := dueRow_leads (i := .checkpoint t) (t := t) rfl (Nat.le_refl 8) ready
  refine ⟨u, run, ⟨passed, alone⟩, passed.due_none, fun here => ?_⟩
  obtain ⟨-, -, -, works⟩ := ready
  have works' : (s.tickTo t).stepDue d 8 = true := works
  rw [alone here, State.advance_of_none rfl]
  simp [State.runStep, works']

/-- The row of a step does nothing where nothing is due. -/
theorem dueRow_idle {t : Nat} {s : State} (none_ : s.bill.due = none) {i : Instr} {k : Nat} (row : exec i s = .next ((s.tickTo t).dueRow k)) :
    exec i s = .next (s.tickTo t) := by
  have idle : (s.tickTo t).bill.due = none := none_
  rw [row, State.dueRow, idle]

/-! ### What each action changes -/

/-- A demand interval raises a maximum to its own demand, or leaves it (R231). -/
theorem nth_raiseMaxima {maxima : List (Nat × Nat)} (demands : List Nat) (tariff stop : Nat) {i : Nat} (part : i < maxima.length) :
    nth (raiseMaxima maxima demands tariff stop) i = nth maxima i ∨
      nth (raiseMaxima maxima demands tariff stop) i = (nth demands (i / 9), stop) ∧ (nth maxima i).1 < nth demands (i / 9) := by
  have held : nth (raiseMaxima maxima demands tariff stop) i =
      if (i % 9 = tariff || i % 9 = 8) && (nth maxima i).1 < nth demands (i / 9) then (nth demands (i / 9), stop) else nth maxima i := by
    simp [raiseMaxima, nth, List.getElem?_mapIdx, List.getElem?_eq_getElem part]
  rw [held]
  split
  · next raised => exact .inr ⟨rfl, of_decide_eq_true (Bool.and_eq_true_iff.1 raised).2⟩
  · exact .inl rfl

/-- The contexts stay where an event is raised about one. -/
@[simp] theorem State.raiseCtx_live (s : State) (source n : Nat) (items : Context → List Byte) (serial : Nat) :
    (s.raiseCtx source n items).live serial = s.live serial := by
  unfold State.raiseCtx
  split
  · rw [State.raise_frame]
    rfl
  · rfl

/-- A live context after a change of it that keeps its serial. -/
theorem State.live_setCtx {s : State} {serial : Nat} {c : Context} (held : s.live serial = some c) {f : Context → Context}
    (same : ∀ x, (f x).serial = x.serial) : (s.setCtx serial f).live serial = some (f c) := by
  unfold State.live State.setCtx alterWhere at *
  have named : c.serial = serial := by simpa using List.find?_some held
  rw [List.find?_map]
  have kept : ((fun x : Context => decide (x.serial = serial)) ∘ fun x : Context => if decide (x.serial = serial) = true then f x else x) =
      fun x : Context => decide (x.serial = serial) := by
    funext x
    simp only [Function.comp, decide_eq_true_eq]
    split
    · rw [same]
    · rfl
  rw [kept, held]
  simp [named]

/-- A context's tariff changes, and none of its registers (R225). -/
theorem State.changeTariff_live {s : State} {serial : Nat} {c : Context} (held : s.live serial = some c) (new instant : Nat) :
    (s.changeTariff serial new instant).live serial = some { c with tariff := new } := by
  unfold State.changeTariff
  rw [held]
  dsimp only
  split
  · next same => rw [held, ← same]
  · exact (State.raiseCtx_live ..).trans (State.live_setCtx held (f := fun c => { c with tariff := new }) (fun _ => rfl))

/-- The standing charge of some midnights is taken once for each (R257). -/
theorem standDays (l : List Nat) (p : Prepay) :
    (l.foldl (fun (p : Prepay) m => p.standDay m) p).credit = p.credit - l.length * p.standing ∧
      (l.foldl (fun (p : Prepay) m => p.standDay m) p).standingCharged = p.standingCharged + l.length * p.standing := by
  induction l generalizing p with
  | nil => simp
  | cons m l ih =>
    obtain ⟨credit, charged⟩ := ih (p.standDay m)
    rw [List.foldl_cons, credit, charged]
    simp only [Prepay.standDay, List.length_cons]
    constructor
    · push_cast
      ring
    · ring

section Pins
variable {t code : Nat} {s : State} (part : code < 8)
include part

/-- A code that has held for 20 ms and is not the newest one accepted is accepted (R226). -/
theorem tariffPinCode_accepted (on : s.phase ≠ .held) (held : s.pins.tariffAt + 20 * Config.ms ≤ max s.now t)
    (fresh : ∀ x, s.bill.pinCodes.head? = some x → x.2 ≠ code) :
    Leads (.tariffPinCode t code) s (fun u =>
      u.bill.pinCodes.head? = some (max s.now t, code) ∧ u.pins.tariff = code ∧ u.bill.live = s.bill.live) := by
  have new : s.bill.pinCodes.head?.any (fun x => x.2 = code) = false := by
    cases head : s.bill.pinCodes.head? with
    | none => rfl
    | some x => simpa using fresh x head
  have run : exec (.tariffPinCode t code) s = .next { s.tickTo t with
      pins := { s.pins with tariff := code, tariffAt := max s.now t }
      bill := { s.bill with pinCodes := (max s.now t, code) :: (s.tickTo t).keptCodes } } := by
    refine (show exec (.tariffPinCode t code) s = execTariffPinCode t code s from rfl).trans ?_
    unfold execTariffPinCode
    simp [part, on, Nat.not_lt.2 held, new, State.keptCodes]
  exact ⟨_, run, rfl, rfl, rfl⟩

/-- A code that has not held for 20 ms is ignored (R226). -/
theorem tariffPinCode_short (new : code ≠ s.pins.tariff) (short : max s.now t < s.pins.tariffAt + 20 * Config.ms) :
    exec (.tariffPinCode t code) s = .next (s.tickTo t) := by
  refine (show exec (.tariffPinCode t code) s = execTariffPinCode t code s from rfl).trans ?_
  unfold execTariffPinCode
  simp [part, new, short]

end Pins

end Sys2Proof.Machine
end

section
/-! SUPPORT. The actions at a tick boundary: the obligation, from the lemmas on their order and on each. -/

open Sys2Proof Sys2Proof.Machine

/-- Settles O38: each row runs the steps in order up to its own, and each action is a change of one context. -/
theorem boundaryActions : Obligations.BoundaryActions := by
  unfold Obligations.BoundaryActions
  refine ⟨fun t s d => ?_, fun maxima demands tariff stop i part => ?_, fun s serial new instant c held =>
    ⟨_, State.changeTariff_live held new instant, rfl, rfl, rfl, rfl⟩, fun c n stop => ⟨rfl, rfl, rfl, rfl, rfl, ?_, rfl⟩,
    fun p l => standDays l p, fun t code s part on => ⟨tariffPinCode_accepted part on, tariffPinCode_short part⟩⟩
  · intro u₀ done ran runs ready
    have done_of_passed : ∀ {u : State} {k : Nat}, u.passed k d.boundary → done k u := fun passed d' due =>
      ⟨(passed d' due).1, (passed d' due).2.2⟩
    have row : ∀ (i : Instr) (k : Nat), exec i s = .next (u₀.dueRow k) → k ≤ 8 → ready k → Leads i s (runs k) :=
      fun i k serves last isReady =>
        let ⟨u, run, passed, alone⟩ := dueRow_leads serves last isReady
        ⟨u, run, done_of_passed passed, alone⟩
    refine ⟨row _ 2 rfl (by decide), row _ 3 rfl (by decide), row _ 4 rfl (by decide), row _ 5 rfl (by decide), row _ 6 rfl (by decide),
      row _ 7 rfl (by decide), fun isReady => ?_, fun none_ => ?_⟩
    · obtain ⟨u, run, ⟨passed, alone⟩, rest⟩ := checkpoint_leads (t := t) isReady
      exact ⟨u, run, ⟨done_of_passed passed, alone⟩, rest⟩
    · simp only [List.forall_mem_cons]
      exact ⟨dueRow_idle none_ (k := 2) rfl, dueRow_idle none_ (k := 3) rfl, dueRow_idle none_ (k := 4) rfl, dueRow_idle none_ (k := 5) rfl,
        dueRow_idle none_ (k := 6) rfl, dueRow_idle none_ (k := 7) rfl, dueRow_idle none_ (k := 8) rfl, nofun⟩
  · obtain kept | ⟨raised, more⟩ := nth_raiseMaxima demands tariff stop part
    · exact ⟨by rw [kept], .inl kept⟩
    · exact ⟨by rw [raised]; exact more.le, .inr raised⟩
  · intro i
    exact nth_replicate_default 27 i

end

section
/-! SUPPORT. What sweeps, the mesh, billing and the restore leave of a state: the instant, the power state, the update, the transition, and the
engine while it is stopped. The lemmas below say so, one for each operation of the model and in its order. -/

namespace Sys2Proof.Machine

/-- What of a state only the commands of supplies, clocks, resets and updates change; the key in the engine's slot 0 while it is stopped. -/
structure Footing where
  now : Nat
  power : PowerState
  update : Option Update
  transition : Option (Nat × Nat)
  stopped : Bool
  key : Option (List Byte)

def State.footing (s : State) : Footing where
  now := s.now
  power := s.power
  update := s.sec.update
  transition := s.sec.transition
  stopped := s.sec.stopped
  key := if s.sec.stopped then nth s.sec.engine 0 else none

/-- An update leaves the footing where it leaves the update, the transition, the stop and the engine. -/
theorem State.footing_update (s : State) {phase : Phase} {host : HostState} {clock : ClockState} {channels : List Channel}
    {converters : List Converter} {dies : List Die} {samplePhase : Nat} {timers : List Timer} {tracker : Tracker} {captures : List Capture}
    {sweep : SweepState} {cal : CalState} {meas : MeasState} {bill : BillState} {line : LineState} {mesh : MeshState} {store : StoreState}
    {sec : SecurityState} {health : HealthState} {gate : GatehouseState} {pins : PinState} {draws : Nat}
    (update : sec.update = s.sec.update) (transition : sec.transition = s.sec.transition) (stopped : sec.stopped = s.sec.stopped)
    (engine : sec.engine = s.sec.engine) :
    State.footing { s with
      phase := phase, host := host, clock := clock, channels := channels, converters := converters, dies := dies
      samplePhase := samplePhase, timers := timers, tracker := tracker, captures := captures, sweep := sweep, cal := cal, meas := meas
      bill := bill, line := line, mesh := mesh, store := store, sec := sec, health := health, gate := gate, pins := pins, draws := draws } =
      s.footing := by
  simp only [State.footing, update, transition, stopped, engine]

/-- The footing of a choice. -/
theorem State.footing_ite {c : Prop} [Decidable c] (a b : State) : (if c then a else b).footing = if c then a.footing else b.footing :=
  apply_ite State.footing c a b

/-- A choice between two states of one footing has it. -/
theorem State.footing_of_ite {c : Prop} [Decidable c] {a b s : State} (yes : a.footing = s.footing) (no : b.footing = s.footing) :
    (if c then a else b).footing = s.footing := by
  rw [State.footing_ite, yes, no, ite_self]

/-- What every step of a fold leaves of the footing, the fold leaves. -/
theorem footing_foldl {α : Type} (op : State → α → State) (keeps : ∀ u a, (op u a).footing = u.footing) (l : List α) (s : State) :
    (l.foldl op s).footing = s.footing := foldl_keeps State.footing op keeps l s

/-! ### Setters, events and operations -/

@[simp] theorem State.setChan_footing (s : State) (n : Nat) (f : Channel → Channel) : (s.setChan n f).footing = s.footing := by
  simp [State.setChan, ↓State.footing_update]

@[simp] theorem State.setConv_footing (s : State) (u : Nat) (f : Converter → Converter) : (s.setConv u f).footing = s.footing := by
  simp [State.setConv, ↓State.footing_update]

@[simp] theorem State.setSession_footing (s : State) (k : Nat) (f : Session → Session) : (s.setSession k f).footing = s.footing := by
  simp [State.setSession, ↓State.footing_update]

@[simp] theorem State.setLine_footing (s : State) (f : LineState → LineState) : (s.setLine f).footing = s.footing := by
  simp [State.setLine, ↓State.footing_update]

@[simp] theorem State.setMesh_footing (s : State) (f : MeshState → MeshState) : (s.setMesh f).footing = s.footing := by
  simp [State.setMesh, ↓State.footing_update]

@[simp] theorem State.logAppend_footing (s : State) (kind time : Nat) (body : List Byte) : (s.logAppend kind time body).footing = s.footing := by
  rw [State.logAppend_frame]
  rfl

@[simp] theorem State.queueAll_footing (s : State) (source time : Nat) (body : List Byte) : (s.queueAll source time body).footing = s.footing := by
  simp [State.queueAll, ↓State.footing_update]

@[simp] theorem State.raise_footing (s : State) (source time : Nat) (body : List Byte) : (s.raise source time body).footing = s.footing := by
  rw [State.raise_frame]
  simp [↓State.footing_update]

@[simp] theorem State.raiseTo_footing (s : State) (k source time : Nat) (body : List Byte) : (s.raiseTo k source time body).footing = s.footing :=
  State.setSession_footing ..

@[simp] theorem State.draw_footing (s : State) : s.draw.2.footing = s.footing := rfl

@[simp] theorem State.setCarrier_footing (s : State) (n : Nat) (c : Carrier) (interrupted : Bool) :
    (s.setCarrier n c interrupted).footing = s.footing := State.setChan_footing ..

/-! ### Health log (R355) -/

@[simp] theorem State.healthLog_footing (s : State) (e : HealthEntry) : (s.healthLog e).footing = s.footing := by
  simp [State.healthLog, ↓State.footing_update]

@[simp] theorem State.repair_footing (s : State) (e : HealthEntry) : (s.repair e).footing = s.footing := by
  simp [State.repair]

/-! ### Accepted operations (R54-R56) -/

@[simp] theorem State.completeOp_footing (s : State) (tag status : Nat) (detail : List Byte) :
    (s.completeOp tag status detail).footing = s.footing := by
  unfold State.completeOp
  split <;> simp [↓State.footing_update]

/-! ### Settling suppression (R127, Table 4.10) -/

@[simp] theorem State.disturbNarrow_footing (s : State) (u : Nat) : (s.disturbNarrow u).footing = s.footing := by
  simp [State.disturbNarrow]

@[simp] theorem State.disturb_footing (s : State) (u : Nat) : (s.disturb u).footing = s.footing := by
  unfold State.disturb
  split <;> simp

/-! ### Health entries -/

@[simp] theorem State.note_footing (s : State) (kind outcome handle carrier rung : Nat) :
    (s.note kind outcome handle carrier rung).footing = s.footing := by
  simp [State.note]

/-! ### Carriers (R352) -/

@[simp] theorem State.carry_footing (s : State) (n : Nat) (c : Carrier) : (s.carry n c).footing = s.footing := by
  unfold State.carry
  extract_lets was u'
  have kept : u'.footing = s.footing := by simp [u']
  split
  · rw [State.note_footing, kept]
  · exact kept

/-! ### Lanes (R344) -/

@[simp] theorem State.release_footing (s : State) (k : Nat) : (s.release k).footing = s.footing := by
  simp [State.release]

/-! ### A sweep without results (R158, R162) -/

@[simp] theorem State.setCal_footing (s : State) (u : Nat) (f : Calibration → Calibration) : (s.setCal u f).footing = s.footing := by
  simp [State.setCal]

@[simp] theorem State.sweepEvent_footing (s : State) (u kind : Nat) (outcomes : List Byte) (rms slope : Nat) :
    (s.sweepEvent u kind outcomes rms slope).footing = s.footing := by
  simp [State.sweepEvent]

@[simp] theorem State.abortUnit_footing (s : State) (u : Nat) : (s.abortUnit u).footing = s.footing := by
  simp [State.abortUnit]

/-! ### Operations (R145, R159) -/

@[simp] theorem State.endSweepOp_footing (s : State) (status : Nat) : (s.endSweepOp status).footing = s.footing := by
  unfold State.endSweepOp
  split <;> simp [↓State.footing_update]

/-! ### Aborts (R162) -/

@[simp] theorem State.resume_footing (s : State) (u : Nat) : (s.resume u).footing = s.footing := by
  simp [State.resume, ↓State.footing_ite]

@[simp] theorem State.abortSweep_footing (s : State) (status : Nat) (restore : Bool) :
    (s.abortSweep status restore).footing = s.footing := by
  unfold State.abortSweep
  split
  · rfl
  · extract_lets w started aborted freed _ cleared ended released
    have keptAborted : aborted.footing = s.footing := footing_foldl _ (fun _ _ => State.abortUnit_footing ..) _ _
    have keptFreed : freed.footing = s.footing := by
      unfold freed
      split <;> simp [keptAborted]
    have kept : ended.footing = s.footing := by simp [ended, cleared, ↓State.footing_update, keptFreed]
    have keptReleased : released.footing = s.footing := by
      unfold released
      split <;> simp [kept]
    split
    · exact kept
    · refine State.footing_of_ite ?_ (State.footing_of_ite ?_ ?_)
      · simp [↓State.footing_update, keptReleased]
      · dsimp only
        simp [↓State.footing_update, ↓State.footing_ite, kept]
      · extract_lets resumed last
        have keptLast : last.footing = s.footing := by
          unfold last
          split <;> simp [resumed, kept]
        simp [↓State.footing_update, keptLast]

/-! ### Live contexts -/

@[simp] theorem State.setCtx_footing (s : State) (serial : Nat) (f : Context → Context) : (s.setCtx serial f).footing = s.footing := by
  simp [State.setCtx, ↓State.footing_update]

@[simp] theorem State.putCtx_footing (s : State) (c : Context) : (s.putCtx c).footing = s.footing := by
  simp [State.putCtx]

@[simp] theorem State.eachCtx_footing (s : State) (f : State → Context → State) (keeps : ∀ u c, (f u c).footing = u.footing) :
    (s.eachCtx f).footing = s.footing := by
  refine footing_foldl _ (fun u n => ?_) _ _
  split
  · exact keeps ..
  · rfl

/-! ### The journal (R387) -/

@[simp] theorem State.journalAdd_footing (s : State) (r : JournalRecord) : (s.journalAdd r).footing = s.footing := by
  simp [State.journalAdd, ↓State.footing_update, ↓State.footing_ite]

@[simp] theorem State.journalCtx_footing (s : State) (c : Context) (type code time : Nat) (provisional : Bool) :
    (s.journalCtx c type code time provisional).footing = s.footing := by
  simp [State.journalCtx, ↓State.footing_ite]

@[simp] theorem State.journalFeed_footing (s : State) (serial : Nat) (bytes : List Byte) :
    (s.journalFeed serial bytes).footing = s.footing := by
  simp [State.journalFeed, ↓State.footing_ite]

@[simp] theorem State.journalSettings_footing (s : State) : s.journalSettings.footing = s.footing := by
  simp [State.journalSettings]

@[simp] theorem State.journalBalance_footing (s : State) (group : Nat) (x : GroupInterval) :
    (s.journalBalance group x).footing = s.footing := by
  simp [State.journalBalance]

@[simp] theorem State.renewJournal_footing (s : State) : s.renewJournal.footing = s.footing := by
  unfold State.renewJournal
  extract_lets low held old u now
  have kept : u.footing = s.footing := by
    refine footing_foldl _ (fun v r => ?_) _ _
    refine State.footing_of_ite rfl ?_
    split <;> simp [↓State.footing_ite]
  simp [↓State.footing_update, kept]

/-! ### The pool (R246, R383) -/

@[simp] theorem State.poolWrite_footing (s : State) (c : Context) : (s.poolWrite c).footing = s.footing := by
  simp [State.poolWrite, ↓State.footing_update, ↓State.footing_ite]

@[simp] theorem State.poolKeep_footing (s : State) (serial : Nat) : (s.poolKeep serial).footing = s.footing := by
  unfold State.poolKeep
  split <;> simp

@[simp] theorem State.setPool_footing (s : State) (serial : Nat) (f : Context → Context) : (s.setPool serial f).footing = s.footing := by
  simp [State.setPool, ↓State.footing_update]

@[simp] theorem State.setAnyCtx_footing (s : State) (serial : Nat) (f : Context → Context) : (s.setAnyCtx serial f).footing = s.footing := by
  simp [State.setAnyCtx, ↓State.footing_ite]

/-! ### The keys of the vault and the crypto engine (R400, R402) -/

@[simp] theorem State.takeUp_footing (s : State) : s.takeUp.footing = s.footing := by
  unfold State.takeUp
  split
  · next signs =>
    have runs : s.sec.stopped = false := by
      simp only [State.canSign, Bool.and_eq_true, Bool.not_eq_true'] at signs
      exact signs.1.1.2
    simp [State.footing, runs]
  · rfl

/-! ### Signatures (R403-R405) -/

@[simp] theorem State.recordSigned_footing (s : State) (job : SignJob) (signature : Option (List Byte)) :
    (s.recordSigned job signature).footing = s.footing := by
  unfold State.recordSigned
  dsimp only
  (repeat' split) <;> simp [↓State.footing_update]

@[simp] theorem State.backlogEvent_footing (s : State) : s.backlogEvent.footing = s.footing := by
  simp [State.backlogEvent]

@[simp] theorem State.raiseBacklog_footing (s : State) : s.raiseBacklog.footing = s.footing := by
  simp [State.raiseBacklog, ↓State.footing_update, ↓State.footing_ite]

@[simp] theorem State.queueJob_footing (s : State) (job : SignJob) : (s.queueJob job).footing = s.footing := by
  simp [State.queueJob, ↓State.footing_update, ↓State.footing_ite]

@[simp] theorem State.signRecord_footing (s : State) (job : SignJob) : (s.signRecord job).footing = s.footing := by
  simp [State.signRecord, ↓State.footing_ite]

/-! ### Records of a context in the store -/

@[simp] theorem State.storeSnapshot_footing (s : State) (x : Snapshot) : (s.storeSnapshot x).footing = s.footing := by
  simp [State.storeSnapshot, ↓State.footing_update, ↓State.footing_ite]

@[simp] theorem State.storeProfile_footing (s : State) (c : Context) (bytes : List Byte) :
    (s.storeProfile c bytes).footing = s.footing := by
  simp [State.storeProfile, ↓State.footing_update, ↓State.footing_ite]

@[simp] theorem State.storeTamper_footing (s : State) (x : TamperRecord) : (s.storeTamper x).footing = s.footing := by
  simp [State.storeTamper, ↓State.footing_update, ↓State.footing_ite]

/-! ### Balance -/

@[simp] theorem State.setGroup_footing (s : State) (g : Nat) (f : Group → Group) : (s.setGroup g f).footing = s.footing := by
  simp [State.setGroup, ↓State.footing_update]

/-! ### Columns (R273, R274) -/

@[simp] theorem State.groupTick_footing (s : State) (serial : Nat) (energy : List Int) (flags : Nat) :
    (s.groupTick serial energy flags).footing = s.footing := by
  simp [State.groupTick, ↓State.footing_update]

/-! ### Shadow feeds (R274) -/

@[simp] theorem State.groupFeedTo_footing (s : State) (k : Nat) (f : GroupFeed) : (s.groupFeedTo k f).footing = s.footing := by
  simp [State.groupFeedTo, ↓State.footing_ite]

@[simp] theorem State.groupFeed_footing (s : State) (f : GroupFeed) : (s.groupFeed f).footing = s.footing := by
  simp [State.groupFeed, footing_foldl]

/-! ### Missing members (R273, R274) -/

@[simp] theorem State.groupPark_footing (s : State) (serial : Nat) : (s.groupPark serial).footing = s.footing := by
  simp [State.groupPark, ↓State.footing_update]

/-! ### Intervals (R273-R275) -/

@[simp] theorem State.dropFeeder_footing (s : State) (serial k : Nat) : (s.dropFeeder serial k).footing = s.footing := by
  simp [State.dropFeeder]

@[simp] theorem State.nameFeeder_footing (s : State) (serial k : Nat) : (s.nameFeeder serial k).footing = s.footing := by
  simp [State.nameFeeder]

@[simp] theorem State.setFeeder_footing (s : State) (old new k : Nat) : (s.setFeeder old new k).footing = s.footing := by
  simp [State.setFeeder, ↓State.footing_ite]

@[simp] theorem State.applyGroup_footing (s : State) (k : Nat) : (s.applyGroup k).footing = s.footing := by
  unfold State.applyGroup
  dsimp only
  split <;> simp

@[simp] theorem State.openGroup_footing (s : State) (k start flags : Nat) : (s.openGroup k start flags).footing = s.footing := by
  simp [State.openGroup, ↓State.footing_ite]

@[simp] theorem State.endGroup_footing (s : State) (k flags : Nat) : (s.endGroup k flags).footing = s.footing := by
  unfold State.endGroup
  split <;> simp [↓State.footing_ite]

@[simp] theorem State.groupTurn_footing (s : State) (k : Nat) : (s.groupTurn k).footing = s.footing := by
  unfold State.groupTurn
  dsimp only
  split <;> simp [↓State.footing_ite]

@[simp] theorem State.groupTurns_footing (s : State) : s.groupTurns.footing = s.footing := by
  simp [State.groupTurns, footing_foldl]

@[simp] theorem State.cutGroups_footing (s : State) (a a' : Nat) : (s.cutGroups a a').footing = s.footing := by
  unfold State.cutGroups
  refine footing_foldl _ (fun u k => ?_) _ _
  dsimp only
  split <;> simp

/-! ### Limit events (R207) -/

@[simp] theorem State.limitEvent_footing (s : State) (source key handle : Nat) (enabled : Bool) (out : Bool) (value limit : F32)
    (who : List Byte) (stop : Nat) :
    (s.limitEvent source key handle enabled out value limit who stop).footing = s.footing := by
  simp [State.limitEvent, ↓State.footing_update, ↓State.footing_ite]

/-! ### Limit events on 10-minute values (R207) -/

@[simp] theorem State.channelLimit_footing (s : State) (source n key : Nat) (bitNo : Nat) (v limit : Rat) (stop : Nat) :
    (s.channelLimit source n key bitNo v limit stop).footing = s.footing := by
  simp [State.channelLimit]

@[simp] theorem State.pstLimits_footing (s : State) (vs : List MeasValue) (stop : Nat) : (s.pstLimits vs stop).footing = s.footing := by
  refine footing_foldl _ (fun u v => ?_) _ _
  dsimp only
  split <;> simp [↓State.footing_ite]

@[simp] theorem State.harmonicLimits_footing (s : State) (b : MeasBlock) (n : Nat) : (s.harmonicLimits b n).footing = s.footing := by
  unfold State.harmonicLimits
  extract_lets p u
  have kept : u.footing = s.footing := by
    unfold u
    split <;> simp
  refine (footing_foldl _ (fun v k => ?_) _ _).trans kept
  split <;> simp [↓State.footing_ite]

@[simp] theorem State.unbalanceLimit_footing (s : State) (b : MeasBlock) (k : Nat) : (s.unbalanceLimit b k).footing = s.footing := by
  unfold State.unbalanceLimit
  split <;> simp

@[simp] theorem State.tenLimits_footing (s : State) (b : MeasBlock) : (s.tenLimits b).footing = s.footing := by
  simp [State.tenLimits, ↓State.footing_ite, footing_foldl]

/-! ### Pst (R198, R199) -/

@[simp] theorem State.closePst_footing (s : State) (n start stop own : Nat) (keys : Nat → Bool) :
    (s.closePst n start stop own keys).footing = s.footing := by
  simp [State.closePst, ↓State.footing_update]

@[simp] theorem State.closePsts_footing (s : State) (t : Track) (start stop own : Nat) (keys : Nat → Bool) :
    (s.closePsts t start stop own keys).footing = s.footing := by
  simp [State.closePsts, footing_foldl]

/-! ### 10 minutes (R180, R197) -/

@[simp] theorem State.closeTenTrack_footing (s : State) (t : Track) (take : MeasBlock → Bool) (stop own : Nat) :
    (s.closeTenTrack t take stop own).footing = s.footing := by
  unfold State.closeTenTrack
  dsimp only
  split <;> simp [↓State.footing_update]

@[simp] theorem State.closeTen_footing (s : State) (take : MeasBlock → Bool) (stop next own after : Nat) :
    (s.closeTen take stop next own after).footing = s.footing := by
  simp [State.closeTen, ↓State.footing_update, footing_foldl]

/-! ### 2 hours (R182, R198) -/

@[simp] theorem State.closeTwoTrack_footing (s : State) (t : Track) (take : MeasBlock → Bool) (stop own : Nat) :
    (s.closeTwoTrack t take stop own).footing = s.footing := by
  simp [State.closeTwoTrack, ↓State.footing_update]

@[simp] theorem State.closeTwo_footing (s : State) (take : MeasBlock → Bool) (stop next own after : Nat) :
    (s.closeTwo take stop next own after).footing = s.footing := by
  simp [State.closeTwo, ↓State.footing_update, footing_foldl]

/-! ### Clock adjustments (R186) -/

@[simp] theorem State.closePassedTwo_footing (s : State) (stop : Nat) : (s.closePassedTwo stop).footing = s.footing := by
  unfold State.closePassedTwo
  split <;> simp [↓State.footing_ite]

@[simp] theorem State.closeCut_footing (s : State) (c : ClockCut) : (s.closeCut c).footing = s.footing := by
  simp [State.closeCut, ↓State.footing_update, ↓State.footing_ite]

@[simp] theorem State.settleCut_footing (s : State) : s.settleCut.footing = s.footing := by
  simp [State.settleCut, ↓State.footing_ite, footing_foldl]

@[simp] theorem State.cutPsts_footing (s : State) (start flags a : Nat) (tracks : List Track) :
    (s.cutPsts start flags a tracks).footing = s.footing := by
  simp [State.cutPsts, footing_foldl]

@[simp] theorem State.clockCut_footing (s : State) (b a a' : Nat) : (s.clockCut b a a').footing = s.footing := by
  unfold State.clockCut
  dsimp only
  split <;> simp [↓State.footing_update]

/-! ### MEAS_CONFIG takes effect (R177, R201, R205) -/

@[simp] theorem State.applyConfig_footing (s : State) (stamp tick : Nat) : (s.applyConfig stamp tick).footing = s.footing := by
  simp [State.applyConfig, ↓State.footing_update, ↓State.footing_ite, footing_foldl]

/-! ### Basic intervals (R179, R183-R185) -/

@[simp] theorem State.settleConfig_footing (s : State) : s.settleConfig.footing = s.footing := by
  unfold State.settleConfig
  split <;> simp [↓State.footing_ite]

/-! ### TICK_CLOSE (R211) -/

@[simp] theorem State.closeTick_footing (s : State) : s.closeTick.footing = s.footing := by
  simp [State.closeTick, ↓State.footing_update]

/-! ### 10-second frequency (R189, R207) -/

@[simp] theorem State.bandLimit_footing (s : State) (b : MeasBlock) : (s.bandLimit b).footing = s.footing := by
  unfold State.bandLimit
  split <;> simp

@[simp] theorem State.closeSecond_footing (s : State) (start next : Nat) : (s.closeSecond start next).footing = s.footing := by
  simp [State.closeSecond, ↓State.footing_update]

@[simp] theorem State.cutSecond_footing (s : State) (a' : Nat) : (s.cutSecond a').footing = s.footing := by
  unfold State.cutSecond
  split <;> simp [↓State.footing_update, ↓State.footing_ite]

@[simp] theorem State.cutPinst_footing (s : State) (a a' : Nat) : (s.cutPinst a a').footing = s.footing := by
  simp [State.cutPinst, ↓State.footing_update, ↓State.footing_ite]

/-! ### Relays (R263, R264) -/

@[simp] theorem State.setRelay_footing (s : State) (k : Nat) (closed : Bool) (cause : Nat) :
    (s.setRelay k closed cause).footing = s.footing := by
  unfold State.setRelay
  dsimp only
  (repeat' split) <;> simp [↓State.footing_update]

/-! ### States (Table 8.1) -/

@[simp] theorem State.raiseCtx_footing (s : State) (source serial : Nat) (items : Context → List Byte) :
    (s.raiseCtx source serial items).footing = s.footing := by
  unfold State.raiseCtx
  split <;> simp

@[simp] theorem State.enterState_footing (s : State) (serial new cause : Nat) : (s.enterState serial new cause).footing = s.footing := by
  unfold State.enterState
  split <;> simp [↓State.footing_ite]

@[simp] theorem State.driveRelay_footing (s : State) (c : Context) (cause : Nat) : (s.driveRelay c cause).footing = s.footing := by
  simp [State.driveRelay, ↓State.footing_ite]

@[simp] theorem State.reevaluate_footing (s : State) (serial cause : Nat) : (s.reevaluate serial cause).footing = s.footing := by
  unfold State.reevaluate
  split <;> simp [↓State.footing_ite]

/-! ### Friendly hours (R262) -/

@[simp] theorem State.setFriendly_footing (s : State) (serial new : Nat) : (s.setFriendly serial new).footing = s.footing := by
  unfold State.setFriendly
  split <;> simp [↓State.footing_ite]

@[simp] theorem State.prepayDecide_footing (s : State) (c : Context) (utc : Int) : (s.prepayDecide c utc).footing = s.footing := by
  simp [State.prepayDecide, ↓State.footing_ite]

/-! ### Records (R270) -/

@[simp] theorem State.openTamper_footing (s : State) (serial kind source start : Nat) (base : Nat × Nat) (extreme : Rat) (flags : Nat) :
    (s.openTamper serial kind source start base extreme flags).footing = s.footing := by
  unfold State.openTamper
  split <;> simp [↓State.footing_ite]

@[simp] theorem State.closeTamper_footing (s : State) (serial kind stop : Nat) (last : Nat × Nat) (through flags : Nat) :
    (s.closeTamper serial kind stop last through flags).footing = s.footing := by
  unfold State.closeTamper
  dsimp only
  (repeat' split) <;> simp

@[simp] theorem State.closeTamperAt_footing (s : State) (serial kind stop flags : Nat) :
    (s.closeTamperAt serial kind stop flags).footing = s.footing := by
  unfold State.closeTamperAt
  split <;> simp

@[simp] theorem State.closeTampers_footing (s : State) (serial stop flags : Nat) (kinds : List Nat) :
    (s.closeTampers serial stop flags kinds).footing = s.footing := by
  simp [State.closeTampers, footing_foldl]

/-! ### Reversed current (kind 0) -/

@[simp] theorem State.tamperElement_footing (s : State) (serial element : Nat) (energy : Int) (start : Nat) (before after : Nat × Nat) :
    (s.tamperElement serial element energy start before after).footing = s.footing := by
  unfold State.tamperElement
  split <;> simp [↓State.footing_ite]

/-! ### Switch inputs (kinds 3-6) -/

@[simp] theorem State.tamperSwitches_footing (s : State) (serial : Nat) : (s.tamperSwitches serial).footing = s.footing := by
  refine footing_foldl _ (fun u k => ?_) _ _
  dsimp only
  split <;> simp [↓State.footing_ite]

/-! ### Bypass and missing neutral (kinds 1 and 2) -/

@[simp] theorem State.tamperRunInterval_footing (s : State) (serial kind : Nat) (b : MeasBlock) (test : Option (Bool × Rat)) (need : Nat) :
    (s.tamperRunInterval serial kind b test need).footing = s.footing := by
  unfold State.tamperRunInterval
  dsimp only
  (repeat' split) <;> simp

@[simp] theorem State.tamperInterval_footing (s : State) (b : MeasBlock) : (s.tamperInterval b).footing = s.footing := by
  unfold State.tamperInterval
  refine State.eachCtx_footing _ _ (fun u c => ?_)
  simp [↓State.footing_ite]

@[simp] theorem State.tamperIntervals_footing (s : State) (u : Nat) : (s.tamperIntervals u).footing = s.footing := by
  simp [State.tamperIntervals, ↓State.footing_update, footing_foldl]

/-! ### Step 1: folding (R222) -/

@[simp] theorem State.foldCtx_footing (s : State) (c : Context) (k : ClosedTick) (u0 u own : Nat) :
    (s.foldCtx c k u0 u own).footing = s.footing := by
  simp [State.foldCtx, ↓State.footing_ite, footing_foldl]

/-! ### Step 2: demand and load profile (R229-R232) -/

@[simp] theorem State.closeDemand_footing (s : State) (serial stop flags now : Nat) :
    (s.closeDemand serial stop flags now).footing = s.footing := by
  unfold State.closeDemand
  split <;> simp [↓State.footing_ite]

@[simp] theorem State.closeProfile_footing (s : State) (serial stop flags now : Nat) :
    (s.closeProfile serial stop flags now).footing = s.footing := by
  unfold State.closeProfile
  split <;> simp [↓State.footing_ite]

@[simp] theorem State.closeOpen_footing (s : State) (serial stop flags : Nat) : (s.closeOpen serial stop flags).footing = s.footing := by
  simp [State.closeOpen]

@[simp] theorem State.applyDemand_footing (s : State) (serial now : Nat) (mode length n : Nat) :
    (s.applyDemand serial now mode length n).footing = s.footing := by
  unfold State.applyDemand
  split <;> simp [↓State.footing_ite]

/-! ### Steps 3 and 4: tariff and snapshot (R225-R227, R234) -/

@[simp] theorem State.changeTariff_footing (s : State) (serial new instant : Nat) :
    (s.changeTariff serial new instant).footing = s.footing := by
  unfold State.changeTariff
  split <;> simp [↓State.footing_ite]

@[simp] theorem State.sourceTariff_footing (s : State) (serial boundary instant : Nat) :
    (s.sourceTariff serial boundary instant).footing = s.footing := by
  unfold State.sourceTariff
  split <;> simp

@[simp] theorem State.decideAt_footing (s : State) (serial instant : Nat) : (s.decideAt serial instant).footing = s.footing := by
  unfold State.decideAt
  split <;> simp

@[simp] theorem State.takeSnapshot_footing (s : State) (serial flags boundaries stop last : Nat) :
    (s.takeSnapshot serial flags boundaries stop last).footing = s.footing := by
  unfold State.takeSnapshot
  split <;> simp

@[simp] theorem State.snapshotEach_footing (s : State) (serial flags : Nat) (bs : List Nat) :
    (s.snapshotEach serial flags bs).footing = s.footing := by
  simp [State.snapshotEach, ↓State.footing_ite, footing_foldl]

@[simp] theorem State.snapshotForced_footing (s : State) (serial stop : Nat) (bs : List Nat) :
    (s.snapshotForced serial stop bs).footing = s.footing := by
  simp [State.snapshotForced, ↓State.footing_ite]

/-! ### What is due at a boundary (R236, R244, Table 7.11) -/

@[simp] theorem State.journalDue_footing (s : State) (serial mask instant : Nat) :
    (s.journalDue serial mask instant).footing = s.footing := by
  unfold State.journalDue
  split <;> simp

@[simp] theorem State.journalDone_footing (s : State) (serial code : Nat) : (s.journalDone serial code).footing = s.footing := by
  unfold State.journalDone
  split <;> simp

@[simp] theorem State.startDue_footing (s : State) (d : DueActions) : (s.startDue d).footing = s.footing := by
  simp [State.startDue, ↓State.footing_update, footing_foldl]

@[simp] theorem State.writeDone_footing (s : State) (d : DueActions) (maskBit code : Nat) :
    (s.writeDone d maskBit code).footing = s.footing := by
  simp [State.writeDone, ↓State.footing_ite, footing_foldl]

@[simp] theorem State.demandStep_footing (s : State) (d : DueActions) (c : Context) : (s.demandStep d c).footing = s.footing := by
  unfold State.demandStep
  dsimp only
  (repeat' split) <;> simp

@[simp] theorem State.profileStep_footing (s : State) (d : DueActions) (c : Context) : (s.profileStep d c).footing = s.footing := by
  unfold State.profileStep
  dsimp only
  (repeat' split) <;> simp

@[simp] theorem State.checkpointAll_footing (s : State) (time : Nat) : (s.checkpointAll time).footing = s.footing := by
  unfold State.checkpointAll
  rw [State.renewJournal_footing, footing_foldl _ (fun u k => ?_)]
  · simp
  · split <;> simp

@[simp] theorem State.runStep_footing (s : State) (d : DueActions) (k : Nat) : (s.runStep d k).footing = s.footing := by
  unfold State.runStep
  split <;> simp [↓State.footing_update, ↓State.footing_ite]

@[simp] theorem State.stepOnce_footing (s : State) : s.stepOnce.footing = s.footing := by
  unfold State.stepOnce
  split <;> simp [↓State.footing_update]

@[simp] theorem State.advance_footing (n : Nat) (s : State) : (State.advance n s).footing = s.footing := by
  induction n generalizing s with
  | zero => rfl
  | succ n ih =>
    unfold State.advance
    split
    · rfl
    · exact State.footing_of_ite rfl ((ih _).trans (State.stepOnce_footing s))

@[simp] theorem State.settleThrough_footing (k n : Nat) (s : State) : (State.settleThrough k n s).footing = s.footing := by
  induction n generalizing s with
  | zero => rfl
  | succ n ih =>
    unfold State.settleThrough
    split
    · rfl
    · exact State.footing_of_ite ((ih _).trans (State.stepOnce_footing s)) rfl

@[simp] theorem State.finishDue_footing (s : State) : s.finishDue.footing = s.footing := State.settleThrough_footing ..

/-! ### Clock adjustments (R238-R242) -/

@[simp] theorem State.commitStep_footing (s : State) (a : Adjustment) : (s.commitStep a).footing = s.footing := by
  simp [State.commitStep, ↓State.footing_update]

@[simp] theorem State.ppsEvent_footing (s : State) (state : Nat) (step : Int) : (s.ppsEvent state step).footing = s.footing := by
  simp [State.ppsEvent]

@[simp] theorem State.restartAfter_footing (s : State) (b : Nat) (split : Bool) (a' : Nat) (c : Context) :
    (s.restartAfter b split a' c).footing = s.footing := by
  simp [State.restartAfter]

@[simp] theorem State.adjust_footing (s : State) (b : Nat) (x : Adjustment) : (s.adjust b x).footing = s.footing := by
  simp [State.adjust, ↓State.footing_ite]

@[simp] theorem State.adjustAll_footing (s : State) (b : Nat) : (s.adjustAll b).footing = s.footing := by
  simp [State.adjustAll, footing_foldl]

/-! ### The fold (R16, R222, R236) -/

@[simp] theorem State.foldTick_footing (s : State) : s.foldTick.footing = s.footing := by
  unfold State.foldTick
  split <;> simp [↓State.footing_update, ↓State.footing_ite]

@[simp] theorem State.queueTick_footing (s : State) : s.queueTick.footing = s.footing := by
  simp [State.queueTick, ↓State.footing_update, ↓State.footing_ite]

/-! ### SET_TIME, GET_TIME, SET_CLOCK_POLICY -/

/-! ### PPS (R448-R452) -/

/-! ### Boundaries and midnights between feeds (R252, R266) -/

@[simp] theorem State.passInstants_footing (s : State) (serial flags : Nat) (own : Bool) (l : List (Nat × Bool)) :
    (s.passInstants serial flags own l).footing = s.footing := by
  simp [State.passInstants, ↓State.footing_ite, footing_foldl]

/-! ### Prepayment of shadow contexts (R267) -/

@[simp] theorem State.compareRelay_footing (s : State) (serial : Nat) (b : List Byte) : (s.compareRelay serial b).footing = s.footing := by
  unfold State.compareRelay
  split <;> simp [↓State.footing_ite]

/-! ### Applying a feed (R251) -/

@[simp] theorem State.feedSteps_footing (s : State) (serial : Nat) (x : FeedPlan) (changed : Bool) (at_ : List (Nat × Bool)) :
    (s.feedSteps serial x changed at_).footing = s.footing := by
  simp [State.feedSteps, ↓State.footing_ite]

@[simp] theorem State.useFeed_footing (s : State) (c : Context) (b : List Byte) (parked : Nat) (journal : Bool) :
    (s.useFeed c b parked journal).2.footing = s.footing := by
  simp [State.useFeed, ↓State.footing_ite]

@[simp] theorem State.feedLive_footing (s : State) (c : Context) (b : List Byte) (parked : Nat) (journal : Bool) :
    (s.feedLive c b parked journal).2.footing = s.footing := by
  unfold State.feedLive
  dsimp only
  (repeat' split) <;> simp

/-! ### CTX_CREATE (R217, R218) -/

@[simp] theorem State.addLive_footing (s : State) (c : Context) : (s.addLive c).footing = s.footing := by
  simp [State.addLive, ↓State.footing_update]

/-! ### CTX_PARK (R253) -/

@[simp] theorem State.catchUp_footing (s : State) (serial lo hi flags : Nat) : (s.catchUp serial lo hi flags).footing = s.footing := by
  unfold State.catchUp
  split <;> simp [↓State.footing_ite, footing_foldl]

/-! ### Pieces of state -/

@[simp] theorem State.setNode_footing (s : State) (address : Nat) (f : Node → Node) : (s.setNode address f).footing = s.footing := by
  simp [State.setNode]

/-! ### Link cost (R316) -/

@[simp] theorem State.setNeighbour_footing (s : State) (address : Nat) (f : Neighbour → Neighbour) :
    (s.setNeighbour address f).footing = s.footing := by
  unfold State.setNeighbour
  split <;> simp [↓State.footing_ite]

/-! ### Transactions (R327-R331) -/

@[simp] theorem State.setFlight_footing (s : State) (id : Nat) (f : Transaction → Transaction) :
    (s.setFlight id f).footing = s.footing := by
  simp [State.setFlight]

@[simp] theorem State.dropFlight_footing (s : State) (id : Nat) : (s.dropFlight id).footing = s.footing := by
  simp [State.dropFlight]

@[simp] theorem State.discover_footing (s : State) (address : Nat) : (s.discover address).footing = s.footing := by
  simp [State.discover, ↓State.footing_ite]

@[simp] theorem State.failFlight_footing (s : State) (x : Transaction) (status : Nat) : (s.failFlight x status).footing = s.footing := by
  unfold State.failFlight
  split <;> simp [↓State.footing_ite]

@[simp] theorem State.raiseLevel_footing (s : State) (address by_ : Nat) : (s.raiseLevel address by_).footing = s.footing := by
  unfold State.raiseLevel
  split <;> simp [↓State.footing_ite]

@[simp] theorem State.failAttempt_footing (s : State) (x : Transaction) (routeError : Bool) :
    (s.failAttempt x routeError).footing = s.footing := by
  simp [State.failAttempt, ↓State.footing_ite]

@[simp] theorem State.endFlights_footing (s : State) : s.endFlights.footing = s.footing := by
  unfold State.endFlights
  extract_lets xs u v
  have kept : v.footing = s.footing := by simp [v, u]
  refine (footing_foldl _ (fun w x => ?_) _ _).trans kept
  split <;> simp

/-! ### Routes (R318-R321) -/

@[simp] theorem State.discoverRouteless_footing (s : State) : s.discoverRouteless.footing = s.footing := by
  simp [State.discoverRouteless, footing_foldl]

/-! ### Configuration that waits (R278) -/

@[simp] theorem State.settleLine_footing (s : State) : s.settleLine.footing = s.footing := by
  unfold State.settleLine
  dsimp only
  (repeat' split) <;> simp

/-! ### Sending (R286, R302) -/

@[simp] theorem State.stopFlight_footing (s : State) : s.stopFlight.footing = s.footing := by
  unfold State.stopFlight
  dsimp only
  (repeat' split) <;> simp

/-! ### Log checkpoints (R392) -/

@[simp] theorem State.writeCheckpoint_footing (s : State) : s.writeCheckpoint.footing = s.footing := by
  simp [State.writeCheckpoint, ↓State.footing_update, ↓State.footing_ite]

/-! ### Poll list (R325, R326) -/

@[simp] theorem State.startPolling_footing (s : State) (limit : Nat) : (s.startPolling limit).footing = s.footing := by
  simp [State.startPolling, ↓State.footing_ite]

/-! ### The commit (R245) -/

@[simp] theorem State.closeThrough_footing (s : State) (b : Nat) : (s.closeThrough b).footing = s.footing := by
  simp [State.closeThrough, footing_foldl]

@[simp] theorem State.foldThrough_footing (s : State) : s.foldThrough.footing = s.footing := by
  unfold State.foldThrough
  refine footing_foldl _ (fun u _ => ?_) _ _
  split
  · rfl
  · simp [↓State.footing_ite]

@[simp] theorem State.endAbandonedStore_footing (s : State) : s.endAbandonedStore.footing = s.footing := by
  unfold State.endAbandonedStore
  split <;> simp [↓State.footing_update, ↓State.footing_ite]

/-! ### Replaying a boundary record (R246) -/

@[simp] theorem State.reviveContext_footing (s : State) (c : Context) : (s.reviveContext c).footing = s.footing := by
  simp [State.reviveContext]

@[simp] theorem State.markJournal_footing (s : State) (serial : Nat) : (s.markJournal serial).footing = s.footing := by
  simp [State.markJournal]

@[simp] theorem State.bringForward_footing (s : State) (p : Plan) : (s.bringForward p).footing = s.footing := by
  unfold State.bringForward
  dsimp only
  (repeat' split) <;> simp

@[simp] theorem State.replayDemand_footing (s : State) (serial instant : Nat) (parking : Bool) :
    (s.replayDemand serial instant parking).footing = s.footing := by
  unfold State.replayDemand
  dsimp only
  (repeat' split) <;> simp

@[simp] theorem State.replaySnapshot_footing (s : State) (serial flags boundaries stop last : Nat) :
    (s.replaySnapshot serial flags boundaries stop last).footing = s.footing := by
  unfold State.replaySnapshot
  split <;> simp [↓State.footing_ite]

@[simp] theorem State.replaySnapshots_footing (s : State) (serial lo instant : Nat) (forced : Bool) :
    (s.replaySnapshots serial lo instant forced).footing = s.footing := by
  unfold State.replaySnapshots
  split <;> simp [↓State.footing_ite, footing_foldl]

@[simp] theorem State.replayStanding_footing (s : State) (p : Plan) (lo instant : Nat) :
    (s.replayStanding p lo instant).footing = s.footing := by
  unfold State.replayStanding
  split <;> simp

@[simp] theorem State.replay_footing (s : State) (p : Plan) (mask : Nat) : (s.replay p mask).footing = s.footing := by
  simp [State.replay, ↓State.footing_ite]

/-! ### One context (R246, R247, R271) -/

@[simp] theorem State.applyTampLog_footing (s : State) (serial : Nat) : (s.applyTampLog serial).footing = s.footing := by
  unfold State.applyTampLog
  extract_lets u
  have kept : u.footing = s.footing := by
    refine footing_foldl _ (fun v e => ?_) _ _
    split <;> simp [↓State.footing_ite]
  simp [↓State.footing_ite, kept]

@[simp] theorem State.cutTampers_footing (s : State) (serial instant : Nat) : (s.cutTampers serial instant).footing = s.footing := by
  simp [State.cutTampers]

@[simp] theorem State.placeRelay_footing (s : State) (serial : Nat) : (s.placeRelay serial).footing = s.footing := by
  unfold State.placeRelay
  split <;> simp [↓State.footing_update, ↓State.footing_ite]

@[simp] theorem State.restoreLocal_footing (s : State) (p : Plan) (tick start : Nat) :
    (s.restoreLocal p tick start).footing = s.footing := by
  unfold State.restoreLocal
  split <;> simp [↓State.footing_ite]

@[simp] theorem State.restoreShadow_footing (s : State) (p : Plan) : (s.restoreShadow p).footing = s.footing := by
  unfold State.restoreShadow
  extract_lets n u v w
  have kept : u.footing = s.footing := State.reviveContext_footing ..
  have keptV : v.footing = s.footing := by
    unfold v
    split <;> simp [↓State.footing_ite, kept]
  have keptW : w.footing = s.footing := by simp [w, keptV]
  refine (footing_foldl _ (fun x b => ?_) _ _).trans keptW
  split <;> simp

@[simp] theorem State.restoreContext_footing (s : State) (p : Plan) (tick start : Nat) :
    (s.restoreContext p tick start).footing = s.footing := by
  simp [State.restoreContext, ↓State.footing_ite]

/-! ### Balance groups (R275, R388) -/

@[simp] theorem State.restoreGroup_footing (s : State) (plans : List Plan) (k : Nat) : (s.restoreGroup plans k).footing = s.footing := by
  unfold State.restoreGroup
  dsimp only
  split <;> simp

/-! ### Settings and signatures -/

@[simp] theorem State.restorePolicy_footing (s : State) : s.restorePolicy.footing = s.footing := by
  unfold State.restorePolicy
  split <;> simp [↓State.footing_update]

@[simp] theorem State.restoreSettings_footing (s : State) : s.restoreSettings.footing = s.footing := by
  unfold State.restoreSettings
  split <;> simp [↓State.footing_ite]

@[simp] theorem State.reconcileFeeders_footing (s : State) : s.reconcileFeeders.footing = s.footing := by
  simp [State.reconcileFeeders, ↓State.footing_update]

@[simp] theorem State.requeue_footing (s : State) (job : SignJob) : (s.requeue job).footing = s.footing := by
  simp [State.requeue, ↓State.footing_ite]

@[simp] theorem State.requeueUnsigned_footing (s : State) : s.requeueUnsigned.footing = s.footing := by
  unfold State.requeueUnsigned
  refine State.footing_of_ite rfl ?_
  rw [footing_foldl _ (fun _ _ => State.requeue_footing ..), footing_foldl _ (fun _ _ => State.requeue_footing ..),
    footing_foldl _ (fun _ _ => State.requeue_footing ..)]

/-! ### The power warning (R427, R432, Table 14.2) -/

@[simp] theorem State.abandonFormat_footing (s : State) : s.abandonFormat.footing = s.footing := by
  unfold State.abandonFormat
  split <;> simp [↓State.footing_update]

/-! ### What the footing says -/

/-- Every context and group returns with the footing it was (R246). -/
@[simp] theorem State.restoreAll_footing (s : State) : s.restoreAll.footing = s.footing := by
  unfold State.restoreAll
  extract_lets plans tick start replayed groups slots _ emptied restored _ regrouped reconciled sec cleared bill driven requeued told
  have keptRestored : restored.footing = s.footing := footing_foldl _ (fun _ _ => State.restoreContext_footing ..) plans emptied
  have keptReconciled : reconciled.footing = s.footing := by
    refine (State.reconcileFeeders_footing ..).trans (Eq.trans ?_ keptRestored)
    exact footing_foldl _ (fun _ _ => State.restoreGroup_footing ..) _ regrouped
  have keptCleared : cleared.footing = s.footing := by simp [cleared, sec, ↓State.footing_update, keptReconciled]
  have keptDriven : driven.footing = s.footing := by simp [driven, ↓State.footing_update, keptCleared]
  have keptRequeued : requeued.footing = s.footing := by simp [requeued, keptDriven]
  have keptTold : told.footing = s.footing := by
    unfold told
    split <;> simp [keptRequeued]
  simp [keptTold]

section Same
variable {s u : State} (same : u.footing = s.footing)
include same

theorem now_of_footing : u.now = s.now := congrArg Footing.now same
theorem power_of_footing : u.power = s.power := congrArg Footing.power same

end Same

end Sys2Proof.Machine
end

section
/-! SUPPORT. The power warning, its commit and the ride-through (R244, R427, R432, R435, R436). -/

namespace Sys2Proof.Machine

/-! ### The journal -/

@[simp] theorem State.logAppend_journal (s : State) (kind time : Nat) (body : List Byte) :
    (s.logAppend kind time body).store.journal = s.store.journal := by rw [State.logAppend_store]

@[simp] theorem State.raise_journal (s : State) (source time : Nat) (body : List Byte) :
    (s.raise source time body).store.journal = s.store.journal := by
  unfold State.raise
  dsimp only
  split
  · rfl
  · exact State.logAppend_journal ..

@[simp] theorem State.raiseBacklog_journal (s : State) : s.raiseBacklog.store.journal = s.store.journal := by
  unfold State.raiseBacklog
  split
  · rfl
  · exact State.raise_journal ..

@[simp] theorem State.queueJob_journal (s : State) (job : SignJob) : (s.queueJob job).store.journal = s.store.journal := by
  unfold State.queueJob
  dsimp only
  rw [State.raiseBacklog_journal, State.takeUp_frame]
  split <;> rfl

@[simp] theorem State.writeCheckpoint_journal (s : State) : s.writeCheckpoint.store.journal = s.store.journal := by
  unfold State.writeCheckpoint
  dsimp only
  split
  · split <;> simp
  · rfl

@[simp] theorem State.setRelay_journal (s : State) (k : Nat) (closed : Bool) (cause : Nat) :
    (s.setRelay k closed cause).store.journal = s.store.journal := by
  unfold State.setRelay
  dsimp only
  split
  · rfl
  · rw [State.raise_journal]
    split <;> rfl

@[simp] theorem State.driveRelay_journal (s : State) (c : Context) (cause : Nat) : (s.driveRelay c cause).store.journal = s.store.journal := by
  unfold State.driveRelay
  split
  · exact State.setRelay_journal ..
  · rfl

/-- The release of a deferred step touches the clock and the adjustments. -/
theorem State.releaseStep_frame (s : State) :
    s.releaseStep = { s with
      clock := s.releaseStep.clock, bill := { s.bill with adjustments := s.releaseStep.bill.adjustments } } := by
  unfold State.releaseStep State.ppsStep State.planStep
  (repeat' split) <;> rfl

@[simp] theorem State.endAbandonedStore_journal (s : State) : s.endAbandonedStore.store.journal = s.store.journal := by
  unfold State.endAbandonedStore
  split
  · rfl
  · split
    · rw [State.completeOp_frame]
    · rfl

@[simp] theorem State.commitOver_journal (s : State) : s.commitOver.store.journal = s.store.journal := by
  unfold State.commitOver
  rw [State.releaseStep_frame]
  refine (foldl_keeps (fun u : State => u.store.journal) _ (fun u n => ?_) _ _).trans (State.endAbandonedStore_journal s)
  dsimp only
  split
  · exact State.driveRelay_journal ..
  · rfl

/-- What ends above the erased blocks stays when the ring is trimmed. -/
theorem State.trimJournal_keeps_last (s : State) {low : Nat} (x : JournalRecord) (l : List JournalRecord) {p : Nat}
    (above : low ≤ p + (l.map JournalRecord.size).sum) : x ∈ (s.trimJournal low p (l ++ [x])).2 := by
  induction l generalizing p with
  | nil =>
    have kept : ¬ p < low := by simpa using above
    simp [State.trimJournal, kept]
  | cons r l ih =>
    rw [List.cons_append, State.trimJournal]
    split
    · exact ih (by simpa [Nat.add_assoc] using above)
    · simp

/-- A record written is in the journal: the blocks erased ahead of it lie a ring below (R389, Table 12.14). -/
theorem State.mem_journalAdd {s : State} (writes : s.storeWrites = true) {r : JournalRecord} (small : r.size ≤ 65536) :
    { r with sequence := s.store.nextJournal } ∈ (s.journalAdd r).store.journal := by
  unfold State.journalAdd
  rw [if_pos writes]
  refine State.trimJournal_keeps_last _ _ s.store.journal ?_
  have size : JournalRecord.size { r with sequence := s.store.nextJournal } = r.size := rfl
  simp only [StoreState.journalStop, List.map_append, List.sum_append, List.map_cons, List.map_nil, List.sum_cons, List.sum_nil, size,
    erasedBelow, journalRoom]
  omega

/-! ### The warning and the start of its commit (R427, R432, R245) -/

/-- A key slot cleared holds no key. -/
theorem nth_cleared {α : Type} (l : List (Option α)) (k : Nat) : nth (alter l k (fun _ => none)) k = none := by
  rcases Nat.lt_or_ge k l.length with part | past
  · exact nth_alter _ _ _ part
  · exact nth_past _ _ (by simpa using past)

/-- What stops at a warning: the update, and the engine with a slot that holds no key (Table 14.2). -/
theorem State.stopForCommit_footing (s : State) : ∃ cut, s.stopForCommit.footing =
    { s.footing with power := { s.power with cutCaptures := cut }, update := none, stopped := true, key := none } := by
  have kept : (s.abortSweep stWrongState true).abandonFormat.footing = s.footing := by simp
  unfold State.stopForCommit
  generalize (s.abortSweep stWrongState true).abandonFormat = v at kept
  refine ⟨v.cutCaptureWrites.power.cutCaptures, ?_⟩
  rw [State.stopFlight_footing, State.endFlights_footing, State.abandonUpdate_frame]
  simp only [State.footing, Footing.mk.injEq] at kept
  obtain ⟨now, power, -, transition, -⟩ := kept
  simp [State.footing, State.cutCaptureWrites, nth_cleared, now, power, transition]

/-- The number of the first record of a commit is part of the power state. -/
theorem State.footing_commitFirst {s u : State} (same : u.footing = s.footing) (first : Nat) :
    State.footing { u with power := { u.power with commitFirst := first } } =
      { s.footing with power := { s.power with commitFirst := first } } := by
  rw [← same, ← power_of_footing same]
  rfl

/-- The records of a commit leave the footing, but for the number of the first of them. -/
theorem State.writeCommit_footing (s : State) (b : Nat) :
    (s.writeCommit b).footing = { s.footing with power := { s.power with commitFirst := s.store.nextJournal } } := by
  unfold State.writeCommit
  extract_lets first contexts groups settings
  have keptContexts : contexts.footing = s.footing := State.eachCtx_footing _ _ (fun _ _ => State.journalCtx_footing ..)
  have keptGroups : groups.footing = s.footing := by
    refine (footing_foldl _ (fun u k => ?_) _ _).trans keptContexts
    split <;> simp
  have kept : settings.footing = s.footing := by simp [settings, keptGroups]
  exact State.footing_commitFirst kept first

/-- The state in which the work of a commit begins (R245). -/
def State.committing (s : State) : State :=
  { s with power := { s.power with commit := some (s.now / Config.tickLen * Config.tickLen), commitAt := s.now, committed := false } }

/-- A commit starts where none runs: its work leaves the footing it began with (R245). -/
theorem State.startCommit_footing {s : State} (running : s.phase = .running) (idle : s.power.commit = none) (still : s.sec.transition = none) :
    ∃ first, s.startCommit.footing = { s.committing.footing with power := { s.committing.power with commitFirst := first } } := by
  have run : s.startCommit = ((s.committing.closeThrough (s.now / Config.tickLen * Config.tickLen)).foldThrough.finishDue.groupTurns).writeCommit
      (s.now / Config.tickLen * Config.tickLen) := by
    unfold State.startCommit
    exact if_pos (by simp [running, idle, still])
  have kept : (s.committing.closeThrough (s.now / Config.tickLen * Config.tickLen)).foldThrough.finishDue.groupTurns.footing =
      s.committing.footing := by simp
  rw [run, State.writeCommit_footing, kept, power_of_footing kept]
  exact ⟨_, rfl⟩

/-- A commit that runs goes on. -/
theorem State.startCommit_running {s : State} (runs : s.power.commit.isSome = true) : s.startCommit = s := by
  unfold State.startCommit
  simp [Option.isSome_iff_ne_none.1 runs]

/-- A warning latches, and a commit runs: that of a RESET, or one that starts (R427, R432, Table 14.10). -/
theorem State.latchWarning_leaves {s : State} (running : s.phase = .running) (still : s.sec.transition = none) :
    s.latchWarning.power.warning = some s.now ∧ s.latchWarning.power.commit.isSome = true ∧ s.latchWarning.power.armed = false ∧
      s.latchWarning.power.committed = false ∧ s.latchWarning.sec.update = none ∧ s.latchWarning.sec.stopped = true ∧
      nth s.latchWarning.sec.engine 0 = none := by
  unfold State.latchWarning
  extract_lets b _ latched raised
  obtain ⟨cut, stopped⟩ := State.stopForCommit_footing raised
  have kept : raised.footing = latched.footing := State.raise_footing ..
  have phase : raised.stopForCommit.phase = .running :=
    (congrArg Outline.phase ((State.stopForCommit_outline raised).trans (State.raise_outline latched ..))).trans running
  rw [power_of_footing kept, kept] at stopped
  generalize raised.stopForCommit = v at stopped phase
  have power : v.power = { latched.power with cutCaptures := cut } := congrArg Footing.power stopped
  have transition : v.sec.transition = none := (congrArg Footing.transition stopped).trans still
  obtain ⟨p, footing, warning, commit, armed, committed⟩ : ∃ p, v.startCommit.footing = { v.footing with power := p } ∧
      p.warning = some s.now ∧ p.commit.isSome = true ∧ p.armed = false ∧ p.committed = false := by
    cases runs : v.power.commit with
    | some b =>
      rw [State.startCommit_running (by rw [runs]; rfl)]
      exact ⟨v.power, rfl, by rw [power], by rw [runs]; rfl, by rw [power], by rw [power]⟩
    | none =>
      obtain ⟨first, footing⟩ := State.startCommit_footing phase runs transition
      exact ⟨_, footing, by rw [State.committing, power], rfl, by rw [State.committing, power], rfl⟩
  rw [stopped] at footing
  have same : v.startCommit.power = p := congrArg Footing.power footing
  have stop : v.startCommit.sec.stopped = true := congrArg Footing.stopped footing
  have key : (if v.startCommit.sec.stopped then nth v.startCommit.sec.engine 0 else none) = none := congrArg Footing.key footing
  rw [if_pos stop] at key
  exact ⟨by rw [same, warning], by rw [same, commit], by rw [same, armed], by rw [same, committed], congrArg Footing.update footing, stop, key⟩

/-! ### The end of the commit (R244, R436) -/

/-- The end of a commit ends BUSY, and leaves of the power state what no rule ends with it (R436). -/
theorem State.endCommit_power (s : State) : s.endCommit.power = { s.power with
    commit := none, committed := true, rideCheckpoint := s.power.rideCheckpoint || s.power.rode, rode := false } := by
  unfold State.endCommit State.commitOver
  extract_lets p count marked raised ended _ idle
  have kept : ended.power = s.power := power_of_footing (by simp [ended, raised, marked])
  have driven := power_of_footing (State.eachCtx_footing idle _ (fun u c => State.driveRelay_footing u c 0))
  have idles : idle.power = { ended.power with
    commit := none, committed := true, rideCheckpoint := ended.power.rideCheckpoint || ended.power.rode, rode := false } := rfl
  rw [State.releaseStep_frame]
  exact driven.trans (by rw [idles, kept])

/-- Its end marker is in the journal (Table 12.16). -/
theorem State.endCommit_marks {s : State} (writes : s.storeWrites = true) : ∃ x ∈ s.endCommit.store.journal,
    x.type = 6 ∧ x.provisional = s.power.rode ∧ x.sequence = s.store.nextJournal := by
  unfold State.endCommit
  extract_lets p count marked raised
  rw [State.commitOver_journal, State.writeCheckpoint_journal, State.raise_journal]
  exact ⟨_, State.mem_journalAdd writes (by simp [JournalRecord.size, JournalRecord.bodySize]), rfl, rfl, rfl⟩

/-! ### Ride-through (R435) -/

/-- Records of the commit that are written from some point on become provisional; where none runs, none does (R435). -/
theorem State.markProvisional_journal (s : State) : ∃ a, s.power.commitFirst ≤ a ∧ s.markProvisional.store.journal =
    s.store.journal.map (fun r => if a ≤ r.sequence then { r with provisional := true } else r) := by
  unfold State.markProvisional
  split
  · refine ⟨s.power.commitFirst + ((s.store.journal.map JournalRecord.sequence).sum + 1), by omega, ?_⟩
    have same : ∀ r ∈ s.store.journal, (if s.power.commitFirst + ((s.store.journal.map JournalRecord.sequence).sum + 1) ≤ r.sequence then
        { r with provisional := true } else r) = r := by
      intro r held
      have bound := List.single_le_sum (fun _ _ => Nat.zero_le _) _ (List.mem_map_of_mem (f := JournalRecord.sequence) held)
      exact if_neg (by omega)
    exact ((List.map_congr_left same).trans (List.map_id _)).symm
  · refine ⟨_, Nat.le_add_right _ (s.draw.1 % (s.store.nextJournal - s.power.commitFirst + 1)), ?_⟩
    exact List.map_congr_left (fun r _ => if_congr decide_eq_true_iff rfl rfl)

/-- A provisional commit is a change of its records alone. -/
theorem State.markProvisional_frame (s : State) : s.markProvisional = { s with
    store := { s.store with journal := s.markProvisional.store.journal }, draws := s.markProvisional.draws } := by
  unfold State.markProvisional State.draw
  split <;> rfl

/-- Captures that a warning cut short are told, and nothing else changes but the queues and the log (Table 12.22). -/
theorem State.reportCutCaptures_leaves (s : State) :
    s.reportCutCaptures.power = { s.power with cutCaptures := [] } ∧ s.reportCutCaptures.sec = s.sec ∧ s.reportCutCaptures.bill = s.bill ∧
      s.reportCutCaptures.store.journal = s.store.journal := by
  have kept := foldl_keeps (fun u : State => (u.power, u.sec, u.bill, u.store.journal))
    (fun (u : State) k => u.raise 144 u.stampNow (objBody (ringHandle k) []))
    (fun u k => by simp only [State.raise_journal]; rw [State.raise_frame])
    s.power.cutCaptures { s with power := { s.power with cutCaptures := [] } }
  simp only [Prod.mk.injEq] at kept
  exact kept

/-- The warning has cleared: a commit that still runs is one that was ridden through, otherwise a checkpoint follows. -/
def State.rideOver (s : State) : State :=
  { s with
    power := { s.power with
      warning := none, rode := s.power.commit.isSome, rideCheckpoint := s.power.commit.isNone, committed := false }
    sec := { s.sec with stopped := false } }

/-- What a ride-through leaves of the state in which its event has been raised. -/
theorem State.rideOver_leaves (s : State) :
    let u := s.markProvisional.rideOver.reportCutCaptures.releaseStep
    u.power = { s.power with
      warning := none, rode := s.power.commit.isSome, rideCheckpoint := s.power.commit.isNone, committed := false, cutCaptures := [] } ∧
    u.sec = { s.sec with stopped := false } ∧ u.bill.live = s.bill.live ∧ u.store.journal = s.markProvisional.store.journal := by
  intro u
  obtain ⟨power, sec, bill, journal⟩ := State.reportCutCaptures_leaves s.markProvisional.rideOver
  have frame : u = _ := State.releaseStep_frame _
  rw [frame]
  refine ⟨power.trans ?_, sec.trans ?_, (congrArg BillState.live bill).trans ?_, journal⟩ <;> rw [State.markProvisional_frame] <;> rfl

/-! ### The commands -/

section Commands
variable {t : Nat} {s : State}

theorem powerWarning_latches (running : s.phase = .running) (armed : s.power.armed = true) (still : s.sec.transition = none) :
    Leads (.powerWarning t) s (fun u =>
      u.power.warning = some (max s.now t) ∧ u.power.commit.isSome = true ∧ u.power.armed = false ∧ u.power.committed = false ∧
      u.sec.update = none ∧ u.sec.stopped = true ∧ nth u.sec.engine 0 = none) := by
  have run : exec (.powerWarning t) s = .next (s.tickTo t).latchWarning :=
    congrArg Host.Outcome.next (if_pos (by simp [running, armed]))
  exact ⟨_, run, State.latchWarning_leaves running still⟩

theorem powerWarning_idle (off : s.phase ≠ .running ∨ s.power.armed = false) : exec (.powerWarning t) s = .next (s.tickTo t) :=
  congrArg Host.Outcome.next (if_neg (by
    rcases off with off | off <;> simp [off]))

theorem commitEnd_ends (running : s.phase = .running) (runs : s.power.commit.isSome = true) (alone : s.power.reset = none)
    (writes : s.storeWrites = true) : Leads (.commitEnd t) s (fun u =>
      u.power.commit = none ∧ u.power.committed = true ∧ u.phase = .running ∧
      ∃ x ∈ u.store.journal, x.type = 6 ∧ x.provisional = s.power.rode ∧ x.sequence = s.store.nextJournal) := by
  have power := State.endCommit_power (s.tickTo t)
  have last : (s.tickTo t).endCommit.pendingReset = (s.tickTo t).endCommit := by
    unfold State.pendingReset
    rw [power]
    simp [alone]
  have run : exec (.commitEnd t) s = .next (s.tickTo t).endCommit := by
    rw [← last]
    refine congrArg Host.Outcome.next ((if_neg ?_).trans (if_pos runs))
    simp [running]
  have phase : (s.tickTo t).endCommit.phase = .running := (congrArg Outline.phase (State.endCommit_outline _)).trans running
  exact ⟨_, run, by rw [power], by rw [power], phase, State.endCommit_marks (s := s.tickTo t) writes⟩

theorem rideThrough_clears {w : Nat} (lowest : F32) (latched : s.power.warning = some w) (dwelt : w + recoveryDwell ≤ max s.now t) :
    Leads (.rideThrough t lowest) s (fun u =>
      u.power = { s.power with
        warning := none, rode := s.power.commit.isSome, rideCheckpoint := s.power.commit.isNone, committed := false, cutCaptures := [] } ∧
      u.sec = { s.sec with stopped := false } ∧ u.bill.live = s.bill.live ∧ (s.power.commit = none → u.store.journal = s.store.journal) ∧
      ∃ a, s.power.commitFirst ≤ a ∧ u.store.journal = s.store.journal.map (fun r => if a ≤ r.sequence then { r with provisional := true } else r)) := by
  obtain ⟨v, run, same⟩ : ∃ v : State, exec (.rideThrough t lowest) s = .next v.markProvisional.rideOver.reportCutCaptures.releaseStep ∧
      v.power = s.power ∧ v.sec = s.sec ∧ v.bill = s.bill ∧ v.store.journal = s.store.journal := by
    refine ⟨(s.tickTo t).raise 169 (s.tickTo t).stampNow (objBody 0 (durationItem (max s.now t - w) ++ f32Bytes lowest)), ?_, ?_⟩
    · refine (show exec (.rideThrough t lowest) s = execRideThrough t lowest s from rfl).trans ?_
      unfold execRideThrough
      simp only [State.tickTo_power, latched, State.tickTo_now_eq, Nat.not_lt.2 dwelt, if_false]
      rfl
    · rw [State.raise_journal, State.raise_frame]
      exact ⟨rfl, rfl, rfl, rfl⟩
  obtain ⟨samePower, sameSec, sameBill, sameJournal⟩ := same
  obtain ⟨power, sec, live, journal⟩ := v.rideOver_leaves
  obtain ⟨a, first, marked⟩ := v.markProvisional_journal
  rw [samePower] at power first
  rw [sameJournal] at marked
  refine ⟨_, run, power, by rw [sec, sameSec], by rw [live, sameBill], fun ended => ?_, a, first, journal.trans marked⟩
  rw [journal, State.markProvisional, samePower, ended, ← sameJournal]
  rfl

theorem rideThrough_early {w : Nat} (lowest : F32) (latched : s.power.warning = some w) (early : max s.now t < w + recoveryDwell) :
    exec (.rideThrough t lowest) s = .next (s.tickTo t) := by
  refine (show exec (.rideThrough t lowest) s = execRideThrough t lowest s from rfl).trans ?_
  unfold execRideThrough
  simp [latched, early]

theorem rideThroughCheckpointEnd_arms (running : s.phase = .running) (asked : s.power.rideCheckpoint = true) (over_ : s.power.commit = none) :
    Leads (.rideThroughCheckpointEnd t false) s (fun u => u.power.armed = true ∧ u.power.rideCheckpoint = false ∧ u.power.rode = false) := by
  refine ⟨_, congrArg Host.Outcome.next (if_pos ?_), ?_⟩
  · simp [running, asked, over_]
  · rw [if_neg Bool.false_ne_true, State.releaseStep_frame]
    exact ⟨rfl, rfl, rfl⟩

end Commands

end Sys2Proof.Machine
end

section
/-! SUPPORT. The power warning, its commit and the ride-through: the obligation, from the lemmas on each command. -/

open Sys2Proof.Machine

/-- Settles O56: a warning stops what competes with the commit, which starts or runs on; nothing of its work, nor what follows its end
marker, touches the power state, and nothing after the marker the journal. -/
theorem warningsCommit : Obligations.WarningsCommit := by
  unfold Obligations.WarningsCommit
  exact fun t s => ⟨powerWarning_latches, powerWarning_idle, commitEnd_ends,
    fun w lowest latched => ⟨rideThrough_clears lowest latched, rideThrough_early lowest latched⟩, rideThroughCheckpointEnd_arms⟩

end

section
/-! SUPPORT. Start-up, READY and the restore of contexts (R413-R416, R437, R438, R246). -/

namespace Sys2Proof.Machine

/-! ### The slot of the boot table (R413, R414) -/

/-- The ROM's write of the boot table leaves the slots, and what passes. -/
theorem State.chooseSlot_slotPasses (s : State) (k : Nat) : s.chooseSlot.2.slotPasses k = s.slotPasses k := by
  unfold State.chooseSlot
  dsimp only
  (repeat' split) <;> rfl

/-- A pending trial runs, and one that runs already has ended (R414). -/
theorem State.chooseSlot_boot (s : State) : (s.store.boot.trialState = 1 → s.chooseSlot.2.store.boot.trialState = 2) ∧
    (s.store.boot.trialState = 2 → s.chooseSlot.2.store.boot.trialState = 0 ∧ s.chooseSlot.2.store.boot.trial = 255) := by
  unfold State.chooseSlot
  dsimp only
  refine ⟨fun pending => ?_, fun runs => ?_⟩
  · rw [if_pos pending]
    rfl
  · rw [if_neg (by omega), if_pos runs]
    exact ⟨rfl, rfl⟩

/-- Where no slot passes the ROM runs recovery, with the table it wrote. -/
theorem State.boot_fails {s : State} (none_ : ∀ k, s.slotPasses k = false) :
    s.boot = (false, { s.chooseSlot.2 with power := { s.chooseSlot.2.power with notBooted := none } }) := by
  simp [State.boot, State.chooseSlot_slotPasses, none_]

/-- The slot that the table names boots where it passes. -/
theorem State.boot_passes {s : State} (passes : s.slotPasses s.chooseSlot.1 = true) : s.boot = (true, s.chooseSlot.2) := by
  simp [State.boot, State.chooseSlot_slotPasses, passes]

theorem State.boot_active {s : State} (settled : s.store.boot.trialState = 0) (passes : s.slotPasses s.store.boot.active = true) :
    s.boot = (true, s) := by
  have chosen : s.chooseSlot = (s.store.boot.active, s) := by simp [State.chooseSlot, settled]
  rw [State.boot_passes (by rw [chosen]; exact passes), chosen]

theorem State.boot_trial {s : State} (pending : s.store.boot.trialState = 1) (passes : s.slotPasses s.store.boot.trial = true) :
    s.boot = (true, s.setBoot (fun b => { b with trialState := 2 })) := by
  have chosen : s.chooseSlot = (s.store.boot.trial, s.setBoot (fun b => { b with trialState := 2 })) := by simp [State.chooseSlot, pending]
  rw [State.boot_passes (by rw [chosen]; exact passes), chosen]

/-! ### The start of the firmware (R402, R415) -/

/-- What the start of the firmware leaves of what the reset's end and the ROM have settled, and the link key it derives. -/
structure Ignition where
  phase : Phase
  h1Uart : Bool
  reset : Option PendingReset
  notBooted : Option (Nat × Nat × Nat)
  linkKey : Option (List Byte)
  trialState : Nat
  trial : Nat
  active : Nat

def State.ignition (s : State) : Ignition where
  phase := s.phase
  h1Uart := s.host.h1Uart
  reset := s.power.reset
  notBooted := s.power.notBooted
  linkKey := s.sec.linkKey
  trialState := s.store.boot.trialState
  trial := s.store.boot.trial
  active := s.store.boot.active

/-- An update of what lies beside the settled parts leaves the ignition. -/
theorem State.ignition_update (s : State) {draws : Nat} {gate : GatehouseState} {sec : SecurityState} {power : PowerState}
    (reset : power.reset = s.power.reset) (notBooted : power.notBooted = s.power.notBooted) (linkKey : sec.linkKey = s.sec.linkKey) :
    State.ignition { s with draws := draws, gate := gate, sec := sec, power := power } = s.ignition := by
  simp only [State.ignition, reset, notBooted, linkKey]

@[simp] theorem State.logAppend_ignition (s : State) (kind time : Nat) (body : List Byte) : (s.logAppend kind time body).ignition = s.ignition := by
  rw [State.logAppend_frame, State.logAppend_store]
  rfl

@[simp] theorem State.raise_ignition (s : State) (source time : Nat) (body : List Byte) : (s.raise source time body).ignition = s.ignition := by
  unfold State.raise
  dsimp only
  split
  · rfl
  · exact State.logAppend_ignition ..

@[simp] theorem State.journalSettings_ignition (s : State) : s.journalSettings.ignition = s.ignition := by
  unfold State.journalSettings
  rw [State.journalAdd_frame]
  rfl

@[simp] theorem State.formatStore_ignition (s : State) (layout : List Nat) : (s.formatStore layout).ignition = s.ignition := by
  unfold State.formatStore
  extract_lets key slots was booted host clock cal bill line mesh store sec health emptied logged told _
  have keptLogged : logged.ignition = s.ignition := State.logAppend_ignition ..
  have keptTold : told.ignition = s.ignition := by
    unfold told
    split
    · rw [State.raise_ignition, keptLogged]
    · exact keptLogged
  rw [State.journalSettings_ignition]
  exact keptTold

@[simp] theorem State.finishTransition_ignition (s : State) : s.finishTransition.ignition = s.ignition := by
  unfold State.finishTransition
  extract_lets l _ programmed drawn erased formatted _
  have kept : erased.ignition = s.ignition := by
    unfold erased
    split <;> rfl
  rw [State.ignition_update formatted rfl rfl rfl, State.formatStore_ignition, kept]

@[simp] theorem State.completeTransition_ignition (s : State) : s.completeTransition.ignition = s.ignition := by
  unfold State.completeTransition
  extract_lets old finished
  split
  · rfl
  · rw [State.ignition_update finished, State.finishTransition_ignition] <;> rfl

@[simp] theorem State.startStore_ignition (s : State) : s.startStore.ignition = s.ignition := by
  unfold State.startStore
  extract_lets lost bad formats completed formatted told
  have keptFormatted : formatted.ignition = s.ignition := by
    unfold formatted
    split <;> simp [completed]
  have keptTold : told.ignition = s.ignition := by
    unfold told
    split <;> simp [keptFormatted]
  split
  · exact (State.raise_ignition ..).trans keptTold
  · exact keptTold

@[simp] theorem State.startClock_ignition (s : State) : s.startClock.ignition = s.ignition := by
  unfold State.startClock
  extract_lets u marks _ _ mapped told _ marked raised
  have keptTold : told.ignition = s.ignition := foldl_keeps State.ignition _ (fun _ _ => State.raise_ignition ..) _ _
  have keptRaised : raised.ignition = s.ignition := (State.raise_ignition ..).trans keptTold
  split
  · split
    · exact keptRaised
    · exact (State.raise_ignition ..).trans keptRaised
  · exact keptTold

@[simp] theorem State.healthLog_ignition (s : State) (e : HealthEntry) : (s.healthLog e).ignition = s.ignition :=
  State.logAppend_ignition ..

@[simp] theorem State.startCal_ignition (s : State) : s.startCal.ignition = s.ignition := by
  unfold State.startCal
  dsimp only
  split
  · (repeat' split) <;> rfl
  · exact State.healthLog_ignition ..

@[simp] theorem State.startOtp_ignition (s : State) : s.startOtp.ignition = s.ignition := by
  unfold State.startOtp
  split <;> rfl

/-- The firmware starts: the part boots, with the link key of this boot (R402). -/
theorem State.startFirmware_ignition (s : State) : s.startFirmware.ignition = { s.ignition with
    phase := .booting, linkKey := some (deriveLink (le 32 Config.pairingSecret) (le 16 (Config.random s.draws))) } := by
  unfold State.startFirmware
  extract_lets link _ keyed started _
  have kept : started.ignition = keyed.ignition := by simp [started]
  rw [State.ignition_update started, kept] <;> rfl

section Same
variable {s : State} {i : Ignition} (same : s.ignition = i)
include same

theorem phase_of_ignition : s.phase = i.phase := congrArg Ignition.phase same
theorem h1Uart_of_ignition : s.host.h1Uart = i.h1Uart := congrArg Ignition.h1Uart same
theorem reset_of_ignition : s.power.reset = i.reset := congrArg Ignition.reset same
theorem notBooted_of_ignition : s.power.notBooted = i.notBooted := congrArg Ignition.notBooted same
theorem linkKey_of_ignition : s.sec.linkKey = i.linkKey := congrArg Ignition.linkKey same

/-- The slot that a trial runs from. -/
theorem runningSlot_of_ignition (booted : i.notBooted = none) (runs : i.trialState = 2) : s.runningSlot = i.trial := by
  subst same
  rw [State.runningSlot, show s.power.notBooted = none from booted]
  exact if_pos runs

end Same

/-! ### START_UP (R437) -/

section StartUp
variable {t : Nat} {s : State} {h1 bs : Bool} {vH vS : Nat}

theorem startUp_early {r : PendingReset} (reset : s.power.reset = some r) (early : max s.now t < r.notBefore) :
    exec (.startUp t h1 bs vH vS) s = .next (s.tickTo t) :=
  congrArg Host.Outcome.next (if_neg (by
    simp only [State.tickTo_power, State.tickTo_now_eq, reset, Option.all_some, Nat.not_le.2 early, decide_false, Bool.and_false]
    exact Bool.false_ne_true))

section Due
variable (held : s.phase = .held) (due : ∀ r, s.power.reset = some r → r.notBefore ≤ max s.now t)
include held due

/-- A reset that has ended is followed by recovery where that is asked for, and by the ROM otherwise. -/
theorem exec_startUp : exec (.startUp t h1 bs vH vS) s = .next
    (if bs || s.power.cause = 4 then { (s.tickTo t).endReset h1 bs vH vS with phase := .recovery }
     else if ((s.tickTo t).endReset h1 bs vH vS).boot.1 then ((s.tickTo t).endReset h1 bs vH vS).boot.2.startFirmware
     else { ((s.tickTo t).endReset h1 bs vH vS).boot.2 with phase := .recovery }) := by
  refine congrArg Host.Outcome.next (if_pos ?_)
  cases reset : s.power.reset with
  | none => simp [held, reset]
  | some r => simpa [held, reset] using due r reset

theorem startUp_recovers (asked : bs = true ∨ s.power.cause = 4) : Leads (.startUp t h1 bs vH vS) s (fun u =>
    u.phase = .recovery ∧ u.host.h1Uart = h1 ∧ u.host.bootsel = bs ∧ u.power.vioS = decide (2400 ≤ vS) ∧ u.power.watchdog = true) :=
  ⟨_, (exec_startUp held due).trans (congrArg Host.Outcome.next (if_pos (by simpa using asked))), rfl, rfl, rfl, rfl, rfl⟩

section Rom
variable (normal : bs = false) (cause : s.power.cause ≠ 4)
include normal cause

/-- The ROM runs. -/
theorem exec_startUp_rom : exec (.startUp t h1 bs vH vS) s = .next
    (if ((s.tickTo t).endReset h1 bs vH vS).boot.1 then ((s.tickTo t).endReset h1 bs vH vS).boot.2.startFirmware
     else { ((s.tickTo t).endReset h1 bs vH vS).boot.2 with phase := .recovery }) :=
  (exec_startUp held due).trans (congrArg Host.Outcome.next (if_neg (by simp [normal, cause])))

theorem startUp_noSlot (none_ : ∀ k, s.slotPasses k = false) : Leads (.startUp t h1 bs vH vS) s (fun u =>
    u.phase = .recovery ∧ (s.store.boot.trialState = 1 → u.store.boot.trialState = 2) ∧
      (s.store.boot.trialState = 2 → u.store.boot.trialState = 0 ∧ u.store.boot.trial = 255)) := by
  have run := exec_startUp_rom (h1 := h1) (vH := vH) (vS := vS) held due normal cause
  rw [State.boot_fails (s := (s.tickTo t).endReset h1 bs vH vS) none_] at run
  exact ⟨_, run, rfl, ((s.tickTo t).endReset h1 bs vH vS).chooseSlot_boot⟩

theorem startUp_active (settled : s.store.boot.trialState = 0) (passes : s.slotPasses s.store.boot.active = true) :
    Leads (.startUp t h1 bs vH vS) s (fun u => u.phase = .booting ∧ u.power.reset = none ∧ u.power.notBooted = s.power.notBooted ∧
      u.host.h1Uart = h1 ∧ u.sec.linkKey = some (deriveLink (le 32 Config.pairingSecret) (le 16 (Config.random s.draws)))) := by
  have run := exec_startUp_rom (h1 := h1) (vH := vH) (vS := vS) held due normal cause
  rw [State.boot_active (s := (s.tickTo t).endReset h1 bs vH vS) settled passes, if_pos rfl] at run
  have ignition := ((s.tickTo t).endReset h1 bs vH vS).startFirmware_ignition
  exact ⟨_, run, phase_of_ignition ignition, reset_of_ignition ignition, notBooted_of_ignition ignition, h1Uart_of_ignition ignition,
    linkKey_of_ignition ignition⟩

theorem startUp_trial (pending : s.store.boot.trialState = 1) (passes : s.slotPasses s.store.boot.trial = true)
    (booted : s.power.notBooted = none) :
    Leads (.startUp t h1 bs vH vS) s (fun u => u.phase = .booting ∧ u.runningSlot = s.store.boot.trial) := by
  have run := exec_startUp_rom (h1 := h1) (vH := vH) (vS := vS) held due normal cause
  rw [State.boot_trial (s := (s.tickTo t).endReset h1 bs vH vS) pending passes, if_pos rfl] at run
  have ignition := (((s.tickTo t).endReset h1 bs vH vS).setBoot (fun b => { b with trialState := 2 })).startFirmware_ignition
  exact ⟨_, run, phase_of_ignition ignition, runningSlot_of_ignition ignition booted rfl⟩

end Rom
end Due
end StartUp

/-! ### READY (R438) -/

theorem State.syncDie_samplePhase (s : State) (d c : Nat) : (s.syncDie d c).samplePhase = s.samplePhase := by
  unfold State.syncDie
  rw [State.setDie_samplePhase, foldl_keeps State.samplePhase, foldl_keeps State.samplePhase] <;> intros <;> rfl

theorem State.syncDie_now (s : State) (d c : Nat) : (s.syncDie d c).now = s.now := by
  unfold State.syncDie
  rw [State.setDie_now, foldl_keeps State.now, foldl_keeps State.now] <;> intros <;> rfl

/-- The synchronising resets leave the sample phase. -/
theorem State.syncAt_samplePhase (s : State) (l : List Nat) (c : Nat) : (s.syncAt l c).samplePhase = s.samplePhase := by
  have tracker : (s.syncTracker l).samplePhase = s.samplePhase := by
    unfold State.syncTracker
    dsimp only
    split <;> rfl
  exact (foldl_keeps State.samplePhase _ (fun u d => u.syncDie_samplePhase d c) l _).trans tracker

/-- And they take no time. -/
theorem State.syncAt_now (s : State) (l : List Nat) (c : Nat) : (s.syncAt l c).now = s.now := by
  have tracker : (s.syncTracker l).now = s.now := by
    unfold State.syncTracker
    dsimp only
    split <;> rfl
  exact (foldl_keeps State.now _ (fun u d => u.syncDie_now d c) l _).trans tracker

/-- The state in which the start-up SYNC has opened epoch 1 of every acquisition die (R438). -/
def State.opened (s : State) : State :=
  State.syncAt { s.draw.2 with samplePhase := s.draw.1 % 4 } [1, 2, 3, 4, 5]
    (State.rawInstant { s.draw.2 with samplePhase := s.draw.1 % 4 } s.now)

/-- Every epoch begins at a sample, now or later (R33). -/
theorem State.opened_spec {s : State} (inv : s.Inv) : s.opened.samplePhase < 4 ∧ s.opened.now = s.now ∧ ∀ d, 1 ≤ d → d ≤ 5 →
    (s.opened.die d).epochTick % 4 = s.opened.samplePhase ∧ s.now ≤ (s.opened.die d).epochTick := by
  have part : s.draw.1 % 4 < 4 := Nat.mod_lt _ (by decide)
  have phase : s.opened.samplePhase = s.draw.1 % 4 := State.syncAt_samplePhase ..
  obtain ⟨mod, after, -⟩ := State.rawInstant_spec { s.draw.2 with samplePhase := s.draw.1 % 4 } s.now part
  refine ⟨phase.trans_lt part, State.syncAt_now .., fun d first last => ?_⟩
  have dies : s.dies.length = 8 := inv.dies
  have parts : ∀ e ∈ [1, 2, 3, 4, 5], e < s.dies.length := by simp [dies]
  have named : d ∈ [1, 2, 3, 4, 5] := by
    simp only [List.mem_cons, List.not_mem_nil, or_false]
    omega
  have epoch : (s.opened.die d).epochTick = State.rawInstant { s.draw.2 with samplePhase := s.draw.1 % 4 } s.now :=
    State.syncAt_epochTick parts named
  rw [epoch, phase]
  exact ⟨mod, after⟩

/-- The state in which ticks begin after the start-up SYNC, before the events of the start-up (R438, R185). -/
def State.begun (s : State) : State :=
  { s with
    phase := .ready
    power := { s.power with readyUtc := s.stampNow }
    meas := { s.meas with nextTick := firstTickAfter s.now, tenStart := some s.stampNow, twoStart := some s.stampNow }
    bill := { s.bill with nextFold := firstTickAfter s.now } }

/-- The periods in progress begin with it, and the fold at the first tick that starts after it. -/
theorem State.begun_spec (s : State) : s.begun.meas.tenStart = some s.begun.power.readyUtc ∧ s.begun.meas.twoStart = some s.begun.power.readyUtc ∧
    s.begun.bill.nextFold = firstTickAfter s.now ∧ s.begun.phase = .ready ∧ s.begun.samplePhase = s.samplePhase ∧ s.begun.dies = s.dies :=
  ⟨rfl, rfl, rfl, rfl, rfl, rfl⟩

/-- What the events of a start-up do not touch. -/
def State.beneathEvents (s : State) : Phase × Nat × MeasState × BillState × PowerState × List Die :=
  (s.phase, s.samplePhase, s.meas, s.bill, s.power, s.dies)

@[simp] theorem State.raise_beneathEvents (s : State) (source time : Nat) (body : List Byte) :
    (s.raise source time body).beneathEvents = s.beneathEvents := by
  rw [State.raise_frame]
  rfl

/-- The events of a start-up touch the queues, the logs and what they tell of (R391). -/
theorem State.startEvents_beneath (s : State) : s.startEvents.beneathEvents = s.beneathEvents := by
  unfold State.startEvents
  extract_lets raised noted _ closed
  have keptNoted : noted.beneathEvents = s.beneathEvents := by
    unfold noted
    split
    · rw [State.note_frame]
      exact State.raise_beneathEvents ..
    · exact State.raise_beneathEvents ..
  have keptClosed : closed.beneathEvents = s.beneathEvents := by
    unfold closed
    split
    · exact (State.raise_beneathEvents ..).trans keptNoted
    · exact keptNoted
  split
  · exact keptClosed
  · exact (State.raise_beneathEvents ..).trans keptClosed

section Ready
variable {t : Nat} {s : State}

theorem exec_ready (booting : s.phase = .booting) : exec (.ready t) s = .next (s.tickTo t).opened.begun.startEvents := by
  refine (show exec (.ready t) s = execReady t s from rfl).trans ?_
  unfold execReady
  extract_lets u d _ seeded synced meas bill power begun
  have same : begun = u.opened.begun := by
    have first : synced = u.opened := rfl
    clear_value synced
    subst first
    rfl
  rw [← same]
  exact congrArg Host.Outcome.next (if_pos booting)

theorem ready_leads (booting : s.phase = .booting) (inv : s.Inv) : Leads (.ready t) s (fun u =>
    u.phase = .ready ∧ u.samplePhase < 4 ∧ u.meas.tenStart = some u.power.readyUtc ∧
      u.meas.twoStart = some u.power.readyUtc ∧ u.bill.nextFold = firstTickAfter (max s.now t) ∧
      ∀ d, 1 ≤ d → d ≤ 5 → (u.die d).epochTick % 4 = u.samplePhase ∧ max s.now t ≤ (u.die d).epochTick) := by
  have held : (s.tickTo t).Inv := inv
  have kept := (s.tickTo t).opened.begun.startEvents_beneath
  simp only [State.beneathEvents, Prod.mk.injEq] at kept
  obtain ⟨phase, samplePhase, meas, bill, power, dies⟩ := kept
  obtain ⟨part, now, epochs⟩ := State.opened_spec held
  obtain ⟨ten, two, fold, begun, samples, epochDies⟩ := (s.tickTo t).opened.begun_spec
  refine ⟨_, exec_ready booting, phase.trans begun, ?_, ?_, ?_, ?_, fun d first last => ?_⟩
  · rw [samplePhase, samples]
    exact part
  · rw [meas, power, ten]
  · rw [meas, power, two]
  · rw [bill, fold, now, State.tickTo_now_eq]
  · rw [samplePhase, samples, State.die, dies, epochDies]
    exact epochs d first last

theorem ready_idle (off : s.phase ≠ .booting) : exec (.ready t) s = .next (s.tickTo t) := congrArg Host.Outcome.next (if_neg off)

/-! ### CONTEXT_RESTORE (R246) -/

theorem contextRestore_leads (ready : s.phase = .ready) : Leads (.contextRestore t) s (fun u =>
    u.phase = .running ∧ u.power.armed = true ∧ u.sec.trialFrom = some (max s.now t)) := by
  have now : (s.tickTo t).restorePolicy.restoreAll.restoreSettings.discoverRouteless.now = (s.tickTo t).now :=
    now_of_footing (by simp)
  exact ⟨_, congrArg Host.Outcome.next (if_pos ready), rfl, rfl, congrArg some now⟩

theorem contextRestore_idle (off : s.phase ≠ .ready) : exec (.contextRestore t) s = .next (s.tickTo t) :=
  congrArg Host.Outcome.next (if_neg off)

end Ready

end Sys2Proof.Machine
end

section
/-! SUPPORT. Start-up, READY and the restore of contexts: the obligation, from the lemmas on each command. -/

open Sys2Proof.Machine

/-- Settles O58: the ROM boots the slot that the table names, and what starts after it leaves what the ROM has settled; the restore of
contexts takes no time. -/
theorem partStartsUp : Obligations.PartStartsUp := by
  unfold Obligations.PartStartsUp
  exact fun t s => ⟨fun h1 bs vH vS held due => ⟨startUp_recovers held due, startUp_noSlot held due, startUp_active held due,
    startUp_trial held due⟩, fun h1 bs vH vS r => startUp_early, ready_leads, ready_idle, contextRestore_leads, contextRestore_idle⟩

end

section
/-! SUPPORT. The roster of the contexts: which serials are live and in which slots, which are parked and which parks run. What bills, charges and
records a context leaves it, and the lemmas below say so, one for each operation of the model and in its order. -/

namespace Sys2Proof.Machine

/-- What of a state only the commands that create, delete, park and unpark contexts change. -/
structure Roster where
  seat : Nat → Option Nat
  parked : List Nat
  parking : List (Nat × Nat × Nat × Nat)

/-- The slot of the live context of a serial. -/
def seatIn (l : List Context) (n : Nat) : Option Nat := (l.find? (fun c => c.serial = n)).map Context.slot

def State.roster (s : State) : Roster where
  seat := seatIn s.bill.live
  parked := s.store.parked
  parking := s.bill.parking

/-- An update leaves the roster where it leaves the live list, the parks and the parked list. -/
theorem State.roster_update (s : State) {now : Nat} {phase : Phase} {host : HostState} {clock : ClockState} {channels : List Channel}
    {converters : List Converter} {dies : List Die} {samplePhase : Nat} {timers : List Timer} {tracker : Tracker} {captures : List Capture}
    {sweep : SweepState} {cal : CalState} {meas : MeasState} {bill : BillState} {line : LineState} {mesh : MeshState} {store : StoreState}
    {sec : SecurityState} {health : HealthState} {gate : GatehouseState} {power : PowerState} {pins : PinState} {draws : Nat}
    (live : bill.live = s.bill.live) (parking : bill.parking = s.bill.parking) (parked : store.parked = s.store.parked) :
    State.roster { s with
      now := now, phase := phase, host := host, clock := clock, channels := channels, converters := converters, dies := dies
      samplePhase := samplePhase, timers := timers, tracker := tracker, captures := captures, sweep := sweep, cal := cal, meas := meas
      bill := bill, line := line, mesh := mesh, store := store, sec := sec, health := health, gate := gate, power := power, pins := pins
      draws := draws } = s.roster := by
  simp only [State.roster, live, parking, parked]

/-- The roster of a choice. -/
theorem State.roster_ite {c : Prop} [Decidable c] (a b : State) : (if c then a else b).roster = if c then a.roster else b.roster :=
  apply_ite State.roster c a b

/-- What every step of a fold leaves of the roster, the fold leaves. -/
theorem roster_foldl {α : Type} (op : State → α → State) (keeps : ∀ u a, (op u a).roster = u.roster) (l : List α) (s : State) :
    (l.foldl op s).roster = s.roster := foldl_keeps State.roster op keeps l s

/-! ### Changes of one context -/

/-- A change that leaves the serials and the slots leaves the seats. -/
theorem seatIn_alterWhere (l : List Context) (p : Context → Bool) {f : Context → Context} (serial : ∀ c, (f c).serial = c.serial)
    (slot : ∀ c, (f c).slot = c.slot) : seatIn (alterWhere l p f) = seatIn l := by
  funext n
  have serial' (c : Context) : (if p c then f c else c).serial = c.serial := by split <;> simp [serial]
  have slot' : Context.slot ∘ (fun c => if p c then f c else c) = Context.slot := by
    funext c
    show (if p c then f c else c).slot = c.slot
    split <;> simp [slot]
  simp only [seatIn, alterWhere, List.find?_map, Function.comp_def, serial', Option.map_map]
  exact congrArg (fun g => Option.map g _) slot'

@[simp] theorem State.setCtx_roster (s : State) (n : Nat) {f : Context → Context} (serial : ∀ c, (f c).serial = c.serial)
    (slot : ∀ c, (f c).slot = c.slot) : (s.setCtx n f).roster = s.roster := by
  simp [State.roster, State.setCtx, seatIn_alterWhere _ _ serial slot]

/-- What `live` finds has the serial asked for. -/
theorem State.serial_of_live {s : State} {n : Nat} {c : Context} (held : s.live n = some c) : c.serial = n := by
  simpa using List.find?_some held

/-- A context written back under the serial it was read with keeps its seat. -/
theorem State.putCtx_roster {s : State} {c x : Context} (held : s.live c.serial = some c) (serial : x.serial = c.serial)
    (slot : x.slot = c.slot) : (s.putCtx x).roster = s.roster := by
  suffices seatIn (s.putCtx x).bill.live = seatIn s.bill.live from congrArg (Roster.mk · s.store.parked s.bill.parking) this
  funext n
  have serial' (y : Context) : (if y.serial = c.serial then x else y).serial = y.serial := by split <;> simp [*]
  simp only [seatIn, State.putCtx, State.setCtx, alterWhere, List.find?_map, Function.comp_def, serial, serial', decide_eq_true_eq, Option.map_map]
  by_cases own : n = c.serial
  · subst own
    change s.bill.live.find? _ = some c at held
    simp [held, slot]
  · cases found : s.bill.live.find? (fun y => y.serial = n) with
    | none => rfl
    | some y =>
      have other : y.serial = n := by simpa using List.find?_some found
      simp [other, own]

/-! ### What a context is -/

@[simp] theorem Context.restartProfile_serial (c : Context) (start now flags : Nat) : (c.restartProfile start now flags).serial = c.serial := by
  simp [Context.restartProfile]

@[simp] theorem Context.restartProfile_slot (c : Context) (start now flags : Nat) : (c.restartProfile start now flags).slot = c.slot := by
  simp [Context.restartProfile]

@[simp] theorem Context.noInterval_serial (c : Context) : c.noInterval.serial = c.serial := by
  simp [Context.noInterval]

@[simp] theorem Context.noInterval_slot (c : Context) : c.noInterval.slot = c.slot := by
  simp [Context.noInterval]

@[simp] theorem Context.nextPeriod_serial (c : Context) (boundaries stop : Nat) : (c.nextPeriod boundaries stop).serial = c.serial := by
  simp [Context.nextPeriod]

@[simp] theorem Context.nextPeriod_slot (c : Context) (boundaries stop : Nat) : (c.nextPeriod boundaries stop).slot = c.slot := by
  simp [Context.nextPeriod]

@[simp] theorem Context.restartSeries_serial (c : Context) (start flags : Nat) : (c.restartSeries start flags).serial = c.serial := by
  simp [Context.restartSeries]

@[simp] theorem Context.restartSeries_slot (c : Context) (start flags : Nat) : (c.restartSeries start flags).slot = c.slot := by
  simp [Context.restartSeries]

@[simp] theorem Context.startTrail_serial (c : Context) : c.startTrail.serial = c.serial := by
  unfold Context.startTrail
  split <;> rfl

@[simp] theorem Context.startTrail_slot (c : Context) : c.startTrail.slot = c.slot := by
  unfold Context.startTrail
  split <;> rfl

@[simp] theorem Context.applyPending_serial (c : Context) (boundary : Nat) : (c.applyPending boundary).serial = c.serial := by
  unfold Context.applyPending
  dsimp only
  (repeat' split) <;> rfl

@[simp] theorem Context.applyPending_slot (c : Context) (boundary : Nat) : (c.applyPending boundary).slot = c.slot := by
  unfold Context.applyPending
  dsimp only
  (repeat' split) <;> rfl

@[simp] theorem Context.takeFeed_serial (c : Context) (p : FeedPlan) (b : List Byte) : (c.takeFeed p b).serial = c.serial := by
  unfold Context.takeFeed
  dsimp only
  split <;> rfl

@[simp] theorem Context.takeFeed_slot (c : Context) (p : FeedPlan) (b : List Byte) : (c.takeFeed p b).slot = c.slot := by
  unfold Context.takeFeed
  dsimp only
  split <;> rfl

/-! ### Setters, events and operations -/

@[simp] theorem State.logAppend_roster (s : State) (kind time : Nat) (body : List Byte) : (s.logAppend kind time body).roster = s.roster := by
  unfold State.logAppend
  split <;> rfl

@[simp] theorem State.queueAll_roster (s : State) (source time : Nat) (body : List Byte) : (s.queueAll source time body).roster = s.roster := rfl

@[simp] theorem State.raise_roster (s : State) (source time : Nat) (body : List Byte) : (s.raise source time body).roster = s.roster := by
  unfold State.raise
  split <;> simp

/-! ### The journal (R387) -/

@[simp] theorem State.journalAdd_roster (s : State) (r : JournalRecord) : (s.journalAdd r).roster = s.roster := by
  simp [State.journalAdd, ↓State.roster_update, ↓State.roster_ite]

@[simp] theorem State.journalFeed_roster (s : State) (serial : Nat) (bytes : List Byte) :
    (s.journalFeed serial bytes).roster = s.roster := by
  simp [State.journalFeed, ↓State.roster_ite]

/-! ### The pool (R246, R383) -/

@[simp] theorem State.poolWrite_roster (s : State) (c : Context) : (s.poolWrite c).roster = s.roster := by
  simp [State.poolWrite, ↓State.roster_update, ↓State.roster_ite]

@[simp] theorem State.poolKeep_roster (s : State) (serial : Nat) : (s.poolKeep serial).roster = s.roster := by
  unfold State.poolKeep
  split <;> simp

/-! ### The keys of the vault and the crypto engine (R400, R402) -/

@[simp] theorem State.takeUp_roster (s : State) : s.takeUp.roster = s.roster := by
  simp [State.takeUp, ↓State.roster_update, ↓State.roster_ite]

/-! ### Signatures (R403-R405) -/

@[simp] theorem State.recordSigned_roster (s : State) (job : SignJob) (signature : Option (List Byte)) :
    (s.recordSigned job signature).roster = s.roster := by
  unfold State.recordSigned
  dsimp only
  (repeat' split) <;> simp [↓State.roster_update]

@[simp] theorem State.backlogEvent_roster (s : State) : s.backlogEvent.roster = s.roster := by
  simp [State.backlogEvent]

@[simp] theorem State.raiseBacklog_roster (s : State) : s.raiseBacklog.roster = s.roster := by
  simp [State.raiseBacklog, ↓State.roster_update, ↓State.roster_ite]

@[simp] theorem State.queueJob_roster (s : State) (job : SignJob) : (s.queueJob job).roster = s.roster := by
  simp [State.queueJob, ↓State.roster_update, ↓State.roster_ite]

@[simp] theorem State.signRecord_roster (s : State) (job : SignJob) : (s.signRecord job).roster = s.roster := by
  simp [State.signRecord, ↓State.roster_ite]

/-! ### Records of a context in the store -/

@[simp] theorem State.storeSnapshot_roster (s : State) (x : Snapshot) : (s.storeSnapshot x).roster = s.roster := by
  simp [State.storeSnapshot, ↓State.roster_update, ↓State.roster_ite]

@[simp] theorem State.storeProfile_roster (s : State) (c : Context) (bytes : List Byte) :
    (s.storeProfile c bytes).roster = s.roster := by
  simp [State.storeProfile, ↓State.roster_update, ↓State.roster_ite]

@[simp] theorem State.storeTamper_roster (s : State) (x : TamperRecord) : (s.storeTamper x).roster = s.roster := by
  simp [State.storeTamper, ↓State.roster_update, ↓State.roster_ite]

/-! ### Balance -/

@[simp] theorem State.setGroup_roster (s : State) (g : Nat) (f : Group → Group) : (s.setGroup g f).roster = s.roster := by
  simp [State.setGroup, ↓State.roster_update]

/-! ### Shadow feeds (R274) -/

@[simp] theorem State.groupFeedTo_roster (s : State) (k : Nat) (f : GroupFeed) : (s.groupFeedTo k f).roster = s.roster := by
  simp [State.groupFeedTo, ↓State.roster_ite]

@[simp] theorem State.groupFeed_roster (s : State) (f : GroupFeed) : (s.groupFeed f).roster = s.roster := by
  simp [State.groupFeed, roster_foldl]

/-! ### Relays (R263, R264) -/

@[simp] theorem State.setRelay_roster (s : State) (k : Nat) (closed : Bool) (cause : Nat) :
    (s.setRelay k closed cause).roster = s.roster := by
  unfold State.setRelay
  dsimp only
  (repeat' split) <;> simp [↓State.roster_update]

/-! ### States (Table 8.1) -/

@[simp] theorem State.raiseCtx_roster (s : State) (source serial : Nat) (items : Context → List Byte) :
    (s.raiseCtx source serial items).roster = s.roster := by
  unfold State.raiseCtx
  split <;> simp

@[simp] theorem State.enterState_roster (s : State) (serial new cause : Nat) : (s.enterState serial new cause).roster = s.roster := by
  unfold State.enterState
  split <;> simp [↓State.roster_ite]

@[simp] theorem State.reevaluate_roster (s : State) (serial cause : Nat) : (s.reevaluate serial cause).roster = s.roster := by
  unfold State.reevaluate
  split <;> simp [↓State.roster_ite]

/-! ### Friendly hours (R262) -/

@[simp] theorem State.setFriendly_roster (s : State) (serial new : Nat) : (s.setFriendly serial new).roster = s.roster := by
  unfold State.setFriendly
  split <;> simp [↓State.roster_ite]

@[simp] theorem State.prepayDecide_roster (s : State) (c : Context) (utc : Int) : (s.prepayDecide c utc).roster = s.roster := by
  simp [State.prepayDecide, ↓State.roster_ite]

/-! ### Records (R270) -/

@[simp] theorem State.openTamper_roster (s : State) (serial kind source start : Nat) (base : Nat × Nat) (extreme : Rat) (flags : Nat) :
    (s.openTamper serial kind source start base extreme flags).roster = s.roster := by
  unfold State.openTamper
  split <;> simp [↓State.roster_ite]

@[simp] theorem State.closeTamper_roster (s : State) (serial kind stop : Nat) (last : Nat × Nat) (through flags : Nat) :
    (s.closeTamper serial kind stop last through flags).roster = s.roster := by
  unfold State.closeTamper
  dsimp only
  (repeat' split) <;> simp

@[simp] theorem State.closeTamperAt_roster (s : State) (serial kind stop flags : Nat) :
    (s.closeTamperAt serial kind stop flags).roster = s.roster := by
  unfold State.closeTamperAt
  split <;> simp

@[simp] theorem State.closeTampers_roster (s : State) (serial stop flags : Nat) (kinds : List Nat) :
    (s.closeTampers serial stop flags kinds).roster = s.roster := by
  simp [State.closeTampers, roster_foldl]

/-! ### Step 2: demand and load profile (R229-R232) -/

@[simp] theorem State.closeDemand_roster (s : State) (serial stop flags now : Nat) :
    (s.closeDemand serial stop flags now).roster = s.roster := by
  unfold State.closeDemand
  split <;> simp [↓State.roster_ite]

@[simp] theorem State.closeProfile_roster (s : State) (serial stop flags now : Nat) :
    (s.closeProfile serial stop flags now).roster = s.roster := by
  unfold State.closeProfile
  split <;> simp [↓State.roster_ite]

/-! ### Steps 3 and 4: tariff and snapshot (R225-R227, R234) -/

@[simp] theorem State.changeTariff_roster (s : State) (serial new instant : Nat) :
    (s.changeTariff serial new instant).roster = s.roster := by
  unfold State.changeTariff
  split <;> simp [↓State.roster_ite]

@[simp] theorem State.sourceTariff_roster (s : State) (serial boundary instant : Nat) :
    (s.sourceTariff serial boundary instant).roster = s.roster := by
  unfold State.sourceTariff
  split <;> simp

@[simp] theorem State.decideAt_roster (s : State) (serial instant : Nat) : (s.decideAt serial instant).roster = s.roster := by
  unfold State.decideAt
  split <;> simp

@[simp] theorem State.takeSnapshot_roster (s : State) (serial flags boundaries stop last : Nat) :
    (s.takeSnapshot serial flags boundaries stop last).roster = s.roster := by
  unfold State.takeSnapshot
  split <;> simp

/-! ### What is due at a boundary (R236, R244, Table 7.11) -/

/-- A record of a live context leaves the roster. -/
theorem State.journalCtx_roster {s : State} {c : Context} (held : s.live c.serial = some c) (type code time : Nat) (provisional : Bool) :
    (s.journalCtx c type code time provisional).roster = s.roster := by
  unfold State.journalCtx
  split
  · exact (State.journalAdd_roster ..).trans (State.putCtx_roster held rfl rfl)
  · rfl

@[simp] theorem State.journalDue_roster (s : State) (serial mask instant : Nat) : (s.journalDue serial mask instant).roster = s.roster := by
  unfold State.journalDue
  split
  · next c held => exact State.journalCtx_roster (by rwa [State.serial_of_live held]) ..
  · rfl

@[simp] theorem State.journalDone_roster (s : State) (serial code : Nat) : (s.journalDone serial code).roster = s.roster := by
  unfold State.journalDone
  split
  · next c held => exact State.journalCtx_roster (by rwa [State.serial_of_live held]) ..
  · rfl

/-! ### Boundaries and midnights between feeds (R252, R266) -/

@[simp] theorem State.passInstants_roster (s : State) (serial flags : Nat) (own : Bool) (l : List (Nat × Bool)) :
    (s.passInstants serial flags own l).roster = s.roster := by
  simp [State.passInstants, ↓State.roster_ite, roster_foldl]

/-! ### Prepayment of shadow contexts (R267) -/

@[simp] theorem State.compareRelay_roster (s : State) (serial : Nat) (b : List Byte) : (s.compareRelay serial b).roster = s.roster := by
  unfold State.compareRelay
  split <;> simp [↓State.roster_ite]

/-! ### Applying a feed (R251) -/

@[simp] theorem State.feedSteps_roster (s : State) (serial : Nat) (x : FeedPlan) (changed : Bool) (at_ : List (Nat × Bool)) :
    (s.feedSteps serial x changed at_).roster = s.roster := by
  simp [State.feedSteps, ↓State.roster_ite]

@[simp] theorem State.useFeed_roster (s : State) (c : Context) (b : List Byte) (parked : Nat) (journal : Bool) :
    (s.useFeed c b parked journal).2.roster = s.roster := by
  unfold State.useFeed
  extract_lets n c x opened before at_ passed written tariff taken grouped compared stepped
  have keptOpened : opened.roster = s.roster := by
    refine State.setCtx_roster _ _ (fun c => ?_) (fun c => ?_) <;> dsimp only <;> split <;> simp
  have keptWritten : written.roster = s.roster := by simp [written, passed, keptOpened, ↓State.roster_ite]
  have keptGrouped : grouped.roster = s.roster := by simp [grouped, taken, keptWritten, ↓State.roster_ite]
  simp [stepped, compared, keptGrouped]

@[simp] theorem State.feedLive_roster (s : State) (c : Context) (b : List Byte) (parked : Nat) (journal : Bool) :
    (s.feedLive c b parked journal).2.roster = s.roster := by
  unfold State.feedLive
  dsimp only
  (repeat' split) <;> simp

@[simp] theorem State.feedPending_roster (s : State) (serial : Nat) : (s.feedPending serial).roster = s.roster := by
  unfold State.feedPending
  split
  · rfl
  · extract_lets u v
    have kept : u.roster = s.roster := State.setCtx_roster _ _ (fun _ => rfl) (fun _ => rfl)
    have keptV : v.roster = s.roster := by
      refine (roster_foldl _ (fun w b => ?_) _ _).trans kept
      split <;> simp
    exact Eq.trans (State.setCtx_roster v serial (fun _ => rfl) (fun _ => rfl)) keptV

/-! ### CTX_PARK (R253) -/

@[simp] theorem State.catchUp_roster (s : State) (serial lo hi flags : Nat) : (s.catchUp serial lo hi flags).roster = s.roster := by
  unfold State.catchUp
  split <;> simp [↓State.roster_ite, roster_foldl]

@[simp] theorem State.runAgain_roster (s : State) (c : Context) (at_ : Nat) : (s.runAgain c at_).roster = s.roster := by
  simp [State.runAgain, ↓State.roster_ite]

@[simp] theorem State.completeOp_roster (s : State) (tag status : Nat) (detail : List Byte) :
    (s.completeOp tag status detail).roster = s.roster := by
  rw [State.completeOp_frame]
  rfl

/-! ### What a roster says -/

section Same
variable {s u : State} (same : u.roster = s.roster)
include same

theorem parked_of_roster : u.store.parked = s.store.parked := congrArg Roster.parked same

end Same

/-- Who is live stays live in its slot. -/
theorem live_of_seat {s u : State} {n : Nat} {c : Context} (same : u.roster.seat n = s.roster.seat n) (held : s.live n = some c) :
    ∃ x, u.live n = some x ∧ x.slot = c.slot := by
  have seats : (u.live n).map Context.slot = (s.live n).map Context.slot := same
  rw [held] at seats
  exact Option.map_eq_some_iff.1 seats

end Sys2Proof.Machine
end

section
/-! SUPPORT. CTX_PARK, its completion and CTX_UNPARK (R253, R254). -/

namespace Sys2Proof.Machine

/-! ### CTX_PARK -/

theorem bit_or_self (n k : Nat) : bit (n ||| 2 ^ k) k = true := by
  have isBit : bit (n ||| 2 ^ k) k = (n ||| 2 ^ k).testBit k := (Nat.testBit_eq_decide_div_mod_eq ..).symm
  simp [isBit, Nat.testBit_or, Nat.testBit_two_pow_self]

section Park
variable {t : Nat} {p : Port} {s : State} {q : Request} {c : Context}

/-- The park of a context as CTX_PARK accepts it: the park is noted with its boundary, and the context marked. -/
def State.startPark (s : State) (c : Context) (tag session : Nat) : State :=
  let s := s.setCtx c.serial (fun c => { c with state := c.state ||| 2 })
  { s with bill := { s.bill with parking := s.bill.parking ++ [(c.serial, tag, session, nextBoundary s.now)] } }

theorem State.startPark_marks {x : Context} (tag session : Nat) (listed : x ∈ (s.startPark c tag session).bill.live)
    (own : x.serial = c.serial) : bit x.state 1 = true := by
  obtain ⟨y, -, rfl⟩ := List.mem_map.1 listed
  by_cases parks : decide (y.serial = c.serial) = true
  · simpa [parks] using bit_or_self y.state 1
  · rw [if_neg parks] at own
    exact absurd (decide_eq_true own) parks

/-- CTX_PARK of a context that is live passes the tests of R253 in their order. -/
theorem ctxParkRow_body (found : s.ctxOf (Req.of p q).handle = some c) :
    ctxParkRow.body (Req.of p q) (s.taken t p) =
      judged [(c.kind = 2, stWrongState), (bit c.state 1, stBusy), (8192 ≤ s.store.parked.length, stNoResource)] (s.taken t p)
        (accept (Req.of p q) (s.taken t p) (fun tag u => u.startPark c tag (Req.of p q).session)) := by
  have parked : (s.taken t p).store.parked = s.store.parked := by simp
  have found' : (s.taken t p).ctxOf (Req.of p q).handle = some c := by simpa using found
  simp only [ctxParkRow, found', parked]
  rfl

theorem ctxPark_wrongState (called : ctxParkRow.calls t p s q = true) (found : s.ctxOf (Req.of p q).handle = some c) (virtual : c.kind = 2) :
    Ends (.ctxPark t p) s (Req.of p q) stWrongState [] (s.taken t p) :=
  ends_of_body rfl called ((ctxParkRow_body found).trans (judged_hit (decide_eq_true virtual)))

section Meters
variable (called : ctxParkRow.calls t p s q = true) (found : s.ctxOf (Req.of p q).handle = some c) (meters : c.kind ≠ 2)
include called found meters

theorem ctxPark_busy (parks : bit c.state 1 = true) : Ends (.ctxPark t p) s (Req.of p q) stBusy [] (s.taken t p) :=
  ends_of_body rfl called ((ctxParkRow_body found).trans ((judged_miss (decide_eq_false meters)).trans (judged_hit parks)))

theorem ctxPark_noResource (runs : bit c.state 1 = false) (full : 8192 ≤ s.store.parked.length) :
    Ends (.ctxPark t p) s (Req.of p q) stNoResource [] (s.taken t p) :=
  ends_of_body rfl called ((ctxParkRow_body found).trans
    ((judged_miss (decide_eq_false meters)).trans ((judged_miss runs).trans (judged_hit (decide_eq_true full)))))

theorem ctxPark_accepted (runs : bit c.state 1 = false) (few : s.store.parked.length < 8192)
    (room : s.opRoom (Req.of p q).session = true) :
    Answers (.ctxPark t p) s (Req.of p q) stAccepted (le 2 s.host.nextTag) (fun u =>
      u.bill.parking = s.bill.parking ++ [(c.serial, s.host.nextTag, (Req.of p q).session, nextBoundary (max s.now t))] ∧
        u.bill.live.length = s.bill.live.length ∧ ∀ x ∈ u.bill.live, x.serial = c.serial → bit x.state 1 = true) := by
  have tests : ∀ x ∈ [(decide (c.kind = 2), stWrongState), (bit c.state 1, stBusy), (decide (8192 ≤ s.store.parked.length), stNoResource)],
      x.1 = false := by
    simp [meters, runs, few]
  have accepted := accept_room (r := Req.of p q) (s := s.taken t p) (f := fun tag u => u.startPark c tag (Req.of p q).session)
    (by simpa using room)
  have tag : (s.taken t p).host.nextTag = s.host.nextTag := by simp
  rw [tag] at accepted
  refine ⟨_, ends_of_body rfl called ((ctxParkRow_body found).trans ((judged_pass tests).trans accepted)), ?_, ?_,
    fun x listed own => State.startPark_marks _ _ listed own⟩
  · simp [State.startPark, State.startOp, State.setCtx, State.tickTo]
  · simp [State.startPark, State.startOp, State.setCtx]

end Meters

end Park

/-! ### CTX_PARK_COMPLETE -/

section Complete
variable {t serial tag session at_ : Nat} {s : State} {c : Context}

section
variable (u : State) (tag status : Nat) (detail : List Byte)

theorem State.completeOp_store : (u.completeOp tag status detail).store = u.store := by rw [State.completeOp_frame]

theorem State.completeOp_bill : (u.completeOp tag status detail).bill = u.bill := by rw [State.completeOp_frame]

theorem State.completeOp_live (n : Nat) : (u.completeOp tag status detail).live n = u.live n := by rw [State.live, State.completeOp_bill, State.live]

end

theorem State.completeOp_gone_all (u : State) (tag status : Nat) (detail : List Byte) :
    ∀ o ∈ (u.completeOp tag status detail).host.ops, o.tag ≠ tag := by
  simp [State.completeOp_ops]

/-- The record of a park at an instant: what is open closes, and the context goes to the pool as it stops. -/
def State.recordPark (s : State) (c : Context) (instant : Nat) : State :=
  let s := s.closeTampers c.serial (if c.kind = 1 then instant else c.folded) 8 [0, 1, 2, 3, 4, 5, 6, 7]
  let s := s.setCtx c.serial (fun c => { c with
    state := 0, flags := c.flags ||| bfParked, parkedSeq := s.store.nextJournal - 1, prepay := { c.prepay with mismatchRun := 0 } })
  s.poolKeep c.serial

theorem State.recordPark_roster (s : State) (c : Context) (instant : Nat) : (s.recordPark c instant).roster = s.roster := by
  simp [State.recordPark]

/-- A context leaves the live list and is parked; these parks run on. -/
def State.leaveSlot (s : State) (c : Context) (parking : List (Nat × Nat × Nat × Nat)) : State :=
  let s := s.freeSlot c
  { s with store := { s.store with parked := s.store.parked ++ [c.serial] }, bill := { s.bill with parking := parking } }

theorem State.leaveSlot_live (u : State) (c : Context) (parking : List (Nat × Nat × Nat × Nat)) :
    (u.leaveSlot c parking).live c.serial = none := by
  simp [State.live, State.leaveSlot, State.freeSlot]

theorem State.leaveSlot_parked (u : State) (c : Context) (parking : List (Nat × Nat × Nat × Nat)) :
    (u.leaveSlot c parking).store.parked = u.store.parked ++ [c.serial] := rfl

theorem State.leaveSlot_parking (u : State) (c : Context) (parking : List (Nat × Nat × Nat × Nat)) :
    (u.leaveSlot c parking).bill.parking = parking := rfl

theorem State.finishPark_written (held : s.live serial = some c) (writes : s.storeWrites = true) (tag instant : Nat) :
    s.finishPark serial tag instant =
      ((s.recordPark c instant).leaveSlot c (s.bill.parking.filter (fun x => x.1 ≠ serial))).completeOp tag stOk (le 4 serial) := by
  cases State.serial_of_live held
  unfold State.finishPark
  rw [held]
  simp only [writes, if_true, State.recordPark, State.leaveSlot]

theorem State.finishPark_frees (held : s.live serial = some c) (writes : s.storeWrites = true) (tag instant : Nat) :
    (s.finishPark serial tag instant).live serial = none ∧ (s.finishPark serial tag instant).store.parked = s.store.parked ++ [serial] ∧
      (∀ x ∈ (s.finishPark serial tag instant).bill.parking, x.1 ≠ serial) ∧ ∀ o ∈ (s.finishPark serial tag instant).host.ops, o.tag ≠ tag := by
  rw [State.finishPark_written held writes]
  cases State.serial_of_live held
  refine ⟨?_, ?_, ?_, State.completeOp_gone_all _ _ _ _⟩
  · rw [State.completeOp_live, State.leaveSlot_live]
  · rw [State.completeOp_store, State.leaveSlot_parked, parked_of_roster (State.recordPark_roster ..)]
  · rw [State.completeOp_bill, State.leaveSlot_parking]
    simp

/-- A park over a store that cannot take the record ends without it, and moves no context (log 96). -/
theorem State.finishPark_unwritten (held : s.live serial = some c) (keeps : s.storeWrites = false) (tag instant : Nat) :
    (s.finishPark serial tag instant).roster = { s.roster with parking := s.bill.parking.filter (fun x => x.1 ≠ serial) } ∧
      ∀ o ∈ (s.finishPark serial tag instant).host.ops, o.tag ≠ tag := by
  unfold State.finishPark
  rw [held]
  dsimp only
  rw [if_neg (by simp [keeps])]
  exact ⟨(State.completeOp_roster ..).trans ((State.runAgain_roster ..).trans (State.setCtx_roster _ serial (fun _ => rfl) (fun _ => rfl))),
    State.completeOp_gone_all _ _ _ _⟩

theorem State.finishPark_keeps (held : s.live serial = some c) (keeps : s.storeWrites = false) (tag instant : Nat) :
    (∃ x, (s.finishPark serial tag instant).live serial = some x) ∧ (s.finishPark serial tag instant).store.parked = s.store.parked ∧
      (∀ x ∈ (s.finishPark serial tag instant).bill.parking, x.1 ≠ serial) ∧ ∀ o ∈ (s.finishPark serial tag instant).host.ops, o.tag ≠ tag := by
  obtain ⟨kept, ended⟩ := State.finishPark_unwritten held keeps tag instant
  have parking : (s.finishPark serial tag instant).bill.parking = _ := congrArg Roster.parking kept
  refine ⟨?_, congrArg Roster.parked kept, ?_, ended⟩
  · obtain ⟨x, live, -⟩ := live_of_seat (congrFun (congrArg Roster.seat kept) serial) held
    exact ⟨x, live⟩
  · simp [parking]

theorem exec_ctxParkComplete (park : s.bill.parking.find? (fun x => x.1 = serial) = some (serial, tag, session, at_))
    (folded : at_ ≤ tickStart s.bill.nextFold) (clear : s.warned = false) (idle : s.bill.due = none) :
    exec (.ctxParkComplete t serial) s = .next ((s.tickTo t).finishPark serial tag (s.stamp at_)) := by
  show execCtxParkComplete t serial s = _
  have settled : (s.tickTo t).finishDue = s.tickTo t := State.settleThrough_of_none (s := s.tickTo t) idle ..
  have clear' : (s.tickTo t).warned = false := clear
  have stamp : (s.tickTo t).stamp at_ = s.stamp at_ := rfl
  simp [execCtxParkComplete, park, folded, clear', settled, stamp]

end Complete

/-! ### CTX_UNPARK -/

section Unpark
variable {t : Nat} {p : Port} {s : State} {q : Request} {c : Context}

/-- A parked context as it takes the first slot that is free. -/
def State.seated (s : State) (c : Context) : Context :=
  { c with slot := s.bill.free.headD 0, state := 0, flags := c.flags ||| bfParked }

/-- A parked context takes a slot, before it runs again. -/
def State.takeSeat (s : State) (c : Context) : State :=
  let u := s.addLive (s.seated c)
  { u with store := { u.store with parked := u.store.parked.filter (fun n => n ≠ c.serial) } }

theorem State.unpark_eq (s : State) (c : Context) (rxAt : Nat) : s.unpark c rxAt = (s.takeSeat c).runAgain (s.seated c) rxAt := rfl

theorem State.takeSeat_live (idle : s.live c.serial = none) : (s.takeSeat c).live c.serial = some (s.seated c) := by
  change s.bill.live.find? _ = none at idle
  simp [State.takeSeat, State.addLive, State.live, List.find?_append, idle, State.seated]

/-- A context unparked is off the parked list and live in the slot that was free (R254). -/
theorem State.unpark_seats (idle : s.live c.serial = none) (rxAt : Nat) :
    c.serial ∉ (s.unpark c rxAt).store.parked ∧ ∃ x ∈ (s.unpark c rxAt).bill.live, x.serial = c.serial ∧ x.slot = s.bill.free.headD 0 := by
  rw [State.unpark_eq]
  have kept := State.runAgain_roster (s.takeSeat c) (s.seated c) rxAt
  obtain ⟨x, found, slot⟩ := live_of_seat (congrFun (congrArg Roster.seat kept) c.serial) (State.takeSeat_live idle)
  refine ⟨?_, x, List.mem_of_find?_eq_some found, State.serial_of_live found, slot⟩
  rw [parked_of_roster kept]
  simp [State.takeSeat]

variable (called : ctxUnparkRow.calls t p s q = true)
include called

theorem ctxUnpark_badParam (absent : s.parkedContexts.find? (fun c => c.serial = (Req.of p q).u 0 4) = none) :
    Ends (.ctxUnpark t p) s (Req.of p q) stBadParam [] (s.taken t p) := by
  refine ends_of_body (row := ctxUnparkRow) rfl called ?_
  have absent' : (s.taken t p).parkedContexts.find? (fun c => c.serial = (Req.of p q).u 0 4) = none := by
    simpa [State.parkedContexts] using absent
  simp only [ctxUnparkRow, absent']
  rfl

section Parked
variable (parked : s.parkedContexts.find? (fun c => c.serial = (Req.of p q).u 0 4) = some c)
include parked

omit called in
theorem ctxUnparkRow_body : ctxUnparkRow.body (Req.of p q) (s.taken t p) =
    judged [(160 ≤ s.bill.live.length, stNoResource)] (s.taken t p)
      (.done stOk (le 2 (0x0200 + s.bill.free.headD 0) ++ zeros 2) ((s.taken t p).unpark c q.rxAt)) := by
  have parked' : (s.taken t p).parkedContexts.find? (fun c => c.serial = (Req.of p q).u 0 4) = some c := by
    simpa [State.parkedContexts] using parked
  have bill : (s.taken t p).bill = s.bill := by simp
  simp only [ctxUnparkRow, parked', bill]
  rfl

theorem ctxUnpark_noResource (full : 160 ≤ s.bill.live.length) : Ends (.ctxUnpark t p) s (Req.of p q) stNoResource [] (s.taken t p) :=
  ends_of_body rfl called ((ctxUnparkRow_body parked).trans (judged_hit (decide_eq_true full)))

theorem ctxUnpark_runs (few : s.bill.live.length < 160) (idle : s.live c.serial = none) :
    Answers (.ctxUnpark t p) s (Req.of p q) stOk (le 2 (0x0200 + s.bill.free.headD 0) ++ zeros 2) (fun u =>
      c.serial ∉ u.store.parked ∧ ∃ x ∈ u.bill.live, x.serial = c.serial ∧ x.slot = s.bill.free.headD 0) := by
  have bill : (s.taken t p).bill = s.bill := by simp
  have seats := State.unpark_seats (s := s.taken t p) (c := c) (by simpa [State.live] using idle) q.rxAt
  rw [bill] at seats
  exact ⟨_, ends_of_body rfl called ((ctxUnparkRow_body parked).trans (judged_miss (decide_eq_false (Nat.not_le.2 few)))), seats⟩

end Parked
end Unpark

end Sys2Proof.Machine
end

section
/-! SUPPORT. Parking: the obligation, from the lemmas on each command. -/

open Sys2Proof.Machine

/-- Settles O35: each request is its body, and what a context catches up with when it runs again moves no context and no park. -/
theorem contextsPark : Obligations.ContextsPark := by
  unfold Obligations.ContextsPark
  refine ⟨fun t p s q c called => ?_, fun t serial tag session at_ s c park folded clear idle held => ?_,
    fun t p s q called => ⟨ctxUnpark_badParam called, fun c parked => ⟨ctxUnpark_noResource called parked, ctxUnpark_runs called parked⟩⟩⟩
  · exact fun found => ⟨ctxPark_wrongState called found, ctxPark_busy called found, ctxPark_noResource called found,
      ctxPark_accepted called found⟩
  · have completes := exec_ctxParkComplete (t := t) park folded clear idle
    exact ⟨fun writes => ⟨_, completes, State.finishPark_frees (s := s.tickTo t) held writes ..⟩,
      fun keeps => ⟨_, completes, State.finishPark_keeps (s := s.tickTo t) held keeps ..⟩⟩

end

section
/-! SUPPORT. What prepayment decisions, relays and tamper records change of the contexts, the relays and the pins (R258-R263, R270). -/

namespace Sys2Proof.Machine

/-! ### Events and the store leave the contexts -/

@[simp] theorem State.raise_bill (s : State) (source time : Nat) (body : List Byte) : (s.raise source time body).bill = s.bill := by
  rw [State.raise_frame]

@[simp] theorem State.raise_pins (s : State) (source time : Nat) (body : List Byte) : (s.raise source time body).pins = s.pins := by
  rw [State.raise_frame]

@[simp] theorem State.raiseCtx_bill (s : State) (source n : Nat) (items : Context → List Byte) :
    (s.raiseCtx source n items).bill = s.bill := by
  unfold State.raiseCtx
  split <;> simp

@[simp] theorem State.raiseCtx_pins (s : State) (source n : Nat) (items : Context → List Byte) :
    (s.raiseCtx source n items).pins = s.pins := by
  unfold State.raiseCtx
  split <;> simp

@[simp] theorem State.raiseCtx_power (s : State) (source n : Nat) (items : Context → List Byte) :
    (s.raiseCtx source n items).power = s.power := by
  unfold State.raiseCtx
  split <;> simp

@[simp] theorem State.poolKeep_bill (s : State) (n : Nat) : (s.poolKeep n).bill = s.bill := by
  unfold State.poolKeep State.poolWrite
  (repeat' split) <;> rfl

@[simp] theorem State.recordSigned_bill (s : State) (job : SignJob) (signature : Option (List Byte)) :
    (s.recordSigned job signature).bill = s.bill := by
  unfold State.recordSigned
  dsimp only
  (repeat' split) <;> simp

@[simp] theorem State.storeTamper_bill (s : State) (x : TamperRecord) : (s.storeTamper x).bill = s.bill := by
  unfold State.storeTamper State.signRecord
  split
  · split
    · rw [State.queueJob_frame]
    · exact State.recordSigned_bill ..
  · rfl

/-- Who is live is read from the live list. -/
theorem live_of_list {s u : State} (same : u.bill.live = s.bill.live) (n : Nat) : u.live n = s.live n :=
  congrArg (List.find? (fun c : Context => c.serial = n)) same

/-- Who is live in a choice. -/
theorem State.live_ite {p : Prop} [Decidable p] (a b : State) (n : Nat) : (if p then a else b).live n = if p then a.live n else b.live n :=
  apply_ite (fun u : State => u.live n) p a b

/-- Who is live after a change of contexts of one serial, which keeps it. -/
theorem State.live_setCtx_map (s : State) (m n : Nat) {f : Context → Context} (same : ∀ x, (f x).serial = x.serial) :
    (s.setCtx m f).live n = (s.live n).map (fun c => if c.serial = m then f c else c) := by
  have serial (c : Context) : (if c.serial = m then f c else c).serial = c.serial := by split <;> simp [same]
  simp [State.live, State.setCtx, alterWhere, List.find?_map, serial]

/-! ### Relays (R263, R264) -/

/-- A context whose relay has moved at an instant. -/
def Context.relayMoved (c : Context) (change : Nat) : Context := { c with prepay := { c.prepay with lastChange := change } }

theorem Context.relayMoved_serial (c : Context) (change : Nat) : (c.relayMoved change).serial = c.serial := rfl

section SetRelay
variable (s : State) (k : Nat) (closed : Bool) (cause : Nat)

/-- A relay that takes a level either has it or may not take one now, and nothing changes; or it moves, and the context bound to it notes
the instant. -/
theorem State.setRelay_cases :
    ((4 ≤ k ∨ s.warned = true ∨ (nth s.bill.relays k).closed = closed) ∧ s.setRelay k closed cause = s) ∨
      (s.setRelay k closed cause).bill = { s.bill with
        relays := alter s.bill.relays k (fun x => { x with closed := closed, lastChange := s.stampNow })
        live := (s.boundTo k).elim s.bill.live (fun c => (s.setCtx c.serial (fun x => x.relayMoved s.stampNow)).bill.live) } := by
  unfold State.setRelay
  split
  · next stays => exact .inl ⟨by simpa [or_assoc] using stays, rfl⟩
  · refine .inr ((State.raise_bill ..).trans ?_)
    cases s.boundTo k <;> rfl

theorem State.setRelay_other {j : Nat} (other : j ≠ k) : nth (s.setRelay k closed cause).bill.relays j = nth s.bill.relays j := by
  obtain ⟨-, stays⟩ | moves := s.setRelay_cases k closed cause
  · rw [stays]
  · rw [moves, nth_alter_ne _ _ _ _ other]

@[simp] theorem State.setRelay_pins : (s.setRelay k closed cause).pins = s.pins := by
  unfold State.setRelay
  dsimp only
  split
  · rfl
  · rw [State.raise_pins]
    split <;> rfl

variable {s k}

theorem State.setRelay_closed (four : s.bill.relays.length = 4) (clear : s.warned = false) (part : k < 4) :
    (nth (s.setRelay k closed cause).bill.relays k).closed = closed := by
  obtain ⟨past | warned | same, stays⟩ | moves := s.setRelay_cases k closed cause
  · omega
  · rw [clear] at warned
    cases warned
  · rw [stays, same]
  · rw [moves, nth_alter _ _ _ (by omega)]

/-- A relay that no context binds moves, or not, without a change of any context (R263). -/
theorem State.setRelay_free (free : s.boundTo k = none) : (s.setRelay k closed cause).bill.live = s.bill.live := by
  obtain ⟨-, stays⟩ | moves := s.setRelay_cases k closed cause
  · rw [stays]
  · rw [moves, free]
    rfl

/-- A context keeps all but the instant of its relay's last change. -/
theorem State.setRelay_live {n : Nat} {c : Context} (held : s.live n = some c) :
    ∃ change, (s.setRelay k closed cause).live n = some (c.relayMoved change) := by
  have kept : c.relayMoved c.prepay.lastChange = c := rfl
  obtain ⟨-, stays⟩ | moves := s.setRelay_cases k closed cause
  · exact ⟨c.prepay.lastChange, by rw [stays, held, kept]⟩
  · have list := congrArg BillState.live moves
    cases bound : s.boundTo k with
    | none =>
      rw [bound] at list
      exact ⟨c.prepay.lastChange, by rw [live_of_list list, held, kept]⟩
    | some b =>
      rw [bound] at list
      rw [live_of_list (s := s.setCtx b.serial _) list, State.live_setCtx_map _ _ _ (fun x => x.relayMoved_serial _), held, Option.map_some]
      split
      · exact ⟨s.stampNow, rfl⟩
      · exact ⟨c.prepay.lastChange, by rw [kept]⟩

end SetRelay

/-! ### States (Table 8.1) -/

/-- A context in a state: with it only the count of disconnections and the instant of its relay's last change may have moved. -/
def Context.inState (c : Context) (state disconnections change : Nat) : Context :=
  { c with prepay := { c.prepay with state := state, disconnections := disconnections, lastChange := change } }

/-- A context to which a credit has been added. -/
def Context.credited (c : Context) (amount : Int) (number : Nat) : Context :=
  { c with prepay := { c.prepay with
    credit := c.prepay.credit + amount, added := c.prepay.added + amount, transactions := (number :: c.prepay.transactions).take 16 } }

/-- A context whose grant has ended. -/
def Context.repaid (c : Context) : Context := { c with prepay := { c.prepay with emergency := 0 } }

/-- The amount of an addition repays the grant of a context. -/
def Context.repays (c : Context) : Bool := decide (0 ≤ c.prepay.credit) && 0 < c.prepay.emergency

section EnterState
variable {s : State} {n : Nat} {c : Context} (held : s.live n = some c)
include held

/-- A context that enters a state has it, with its events raised; then its relay takes the level of the state. -/
theorem State.enterState_of_live (new cause : Nat) : ∃ u : State,
    (u.bill.relays = s.bill.relays ∧ u.warned = s.warned ∧ ∃ count, u.live n = some (c.inState new count c.prepay.lastChange)) ∧
      s.enterState n new cause =
        if c.prepay.mode = 1 && c.kind ≠ 1 && new ≠ 0 then u.setRelay c.prepay.relay (1 ≤ new && new ≤ 4) cause else u := by
  unfold State.enterState
  rw [held]
  refine ⟨_, ⟨?_, ?_, if new = 5 && c.prepay.state ≠ 5 then sat 16 (c.prepay.disconnections + 1) else c.prepay.disconnections, ?_⟩, rfl⟩
  · split_ifs <;> simp [State.setCtx]
  · split_ifs <;> simp [State.warned]
  · simp only [State.live_ite, State.raiseCtx_live, ite_self]
    exact State.live_setCtx held (fun _ => rfl)

theorem State.enterState_live (new cause : Nat) : ∃ count change, (s.enterState n new cause).live n = some (c.inState new count change) := by
  obtain ⟨u, ⟨-, -, count, entered⟩, run⟩ := State.enterState_of_live held new cause
  rw [run]
  split
  · obtain ⟨change, moved⟩ := State.setRelay_live (k := c.prepay.relay) (1 ≤ new && new ≤ 4) cause entered
    exact ⟨count, change, moved⟩
  · exact ⟨count, _, entered⟩

/-- The relay that a context binds takes the level of the state entered (Table 8.1). -/
theorem State.enterState_relay {new : Nat} (cause : Nat) (mode : c.prepay.mode = 1) (local_ : c.kind ≠ 1) (on : new ≠ 0)
    (four : s.bill.relays.length = 4) (clear : s.warned = false) (part : c.prepay.relay < 4) :
    (nth (s.enterState n new cause).bill.relays c.prepay.relay).closed = (1 ≤ new && new ≤ 4) := by
  obtain ⟨u, ⟨relays, warned, -⟩, run⟩ := State.enterState_of_live held new cause
  rw [run, if_pos (by simp [mode, local_, on])]
  exact State.setRelay_closed _ _ (relays ▸ four) (warned.trans clear) part

theorem State.reevaluate_live (cause : Nat) (mode : c.prepay.mode = 1) :
    ∃ count change, (s.reevaluate n cause).live n = some (c.inState c.prepay.decide count change) := by
  unfold State.reevaluate
  rw [held]
  dsimp only
  rw [if_neg (by omega)]
  exact State.enterState_live held _ cause

/-- An emergency grant raises G by its amount, and the state follows (R259, R260). -/
theorem State.grant_live (amount cause : Nat) (mode : c.prepay.mode = 1) :
    ∃ d, (s.grant n amount cause).live n = some d ∧ d.prepay.emergency = c.prepay.emergency + amount ∧
      d.prepay.credit = c.prepay.credit := by
  have granted := State.live_setCtx held (f := fun c => { c with prepay := { c.prepay with
    emergency := c.prepay.emergency + amount, grants := sat 16 (c.prepay.grants + 1) } }) (fun _ => rfl)
  obtain ⟨count, change, follows⟩ := State.reevaluate_live granted cause mode
  exact ⟨_, (State.raiseCtx_live ..).trans follows, rfl, rfl⟩

/-- What an addition of credit does: the amount joins, a grant that it repays ends, and the state is re-evaluated (R258-R260). -/
theorem State.addCredit_of_live (amount : Int) (number : Nat) :
    let u := s.setCtx n (fun c => c.credited amount number)
    s.addCredit n amount number =
      if (c.credited amount number).repays then ((u.setCtx n Context.repaid).reevaluate n 0).grantEvent n true else u.reevaluate n 0 := by
  intro u
  have added : u.live n = some (c.credited amount number) := State.live_setCtx held (fun _ => rfl)
  let kept := if (u.live n).any Context.repays then u.setCtx n Context.repaid else u
  show (if (u.live n).any Context.repays then (kept.reevaluate n 0).grantEvent n true else kept.reevaluate n 0) = _
  simp only [kept, added, Option.any_some]
  cases (c.credited amount number).repays <;> rfl

/-- An amount joins C, and a grant that it repays ends; the state follows. -/
theorem State.addCredit_live (amount : Int) (number : Nat) (mode : c.prepay.mode = 1) :
    ∃ d, (s.addCredit n amount number).live n = some d ∧ d.prepay.credit = c.prepay.credit + amount ∧
      d.prepay.transactions.head? = some number ∧ (0 ≤ d.prepay.credit → d.prepay.emergency = 0) ∧ d.regs = c.regs := by
  have added := State.live_setCtx held (f := fun c => c.credited amount number) (fun _ => rfl)
  rw [State.addCredit_of_live held]
  split
  · obtain ⟨count, change, follows⟩ := State.reevaluate_live (State.live_setCtx added (f := Context.repaid) (fun _ => rfl)) 0 mode
    exact ⟨_, (State.raiseCtx_live ..).trans follows, rfl, rfl, fun _ => rfl, rfl⟩
  · next stands =>
    obtain ⟨count, change, follows⟩ := State.reevaluate_live added 0 mode
    refine ⟨_, follows, rfl, rfl, fun covered => ?_, rfl⟩
    have none_ : ¬ 0 < c.prepay.emergency := fun granted =>
      stands (Bool.and_eq_true_iff.2 ⟨decide_eq_true covered, decide_eq_true granted⟩)
    exact Nat.eq_zero_of_not_pos none_

end EnterState

@[simp] theorem State.enterState_pins (s : State) (n new cause : Nat) : (s.enterState n new cause).pins = s.pins := by
  unfold State.enterState
  split <;> simp [apply_ite State.pins]

@[simp] theorem State.reevaluate_pins (s : State) (n cause : Nat) : (s.reevaluate n cause).pins = s.pins := by
  unfold State.reevaluate
  (repeat' split) <;> simp

@[simp] theorem State.grant_pins (s : State) (n amount cause : Nat) : (s.grant n amount cause).pins = s.pins := by
  simp [State.grant, State.grantEvent]

/-- A reconnection clears the hold and puts the relay of its context to closed (R263). -/
theorem State.reconnect_relay {s : State} {n : Nat} {c : Context} (held : s.live n = some c) (cause : Nat) (mode : c.prepay.mode = 1)
    (local_ : c.kind ≠ 1) (four : s.bill.relays.length = 4) (clear : s.warned = false) (part : c.prepay.relay < 4) :
    (nth (s.reconnect n cause).bill.relays c.prepay.relay).closed = true := by
  have released := State.live_setCtx held (f := fun c => { c with prepay := { c.prepay with hold := 0 } }) (fun _ => rfl)
  have state : 1 ≤ c.prepay.creditState ∧ c.prepay.creditState ≤ 3 := by
    unfold Prepay.creditState
    split_ifs <;> omega
  unfold State.reconnect
  rw [held]
  refine (State.enterState_relay released cause mode local_ (by omega) four clear part).trans ?_
  simp only [Bool.and_eq_true, decide_eq_true_eq]
  omega

/-! ### Tamper records (R270) -/

theorem State.closeTamper_live {s : State} {n : Nat} {c : Context} (held : s.live n = some c) (kind stop : Nat) (last : Nat × Nat)
    (through flags : Nat) : ∃ x, (s.closeTamper n kind stop last through flags).live n = some { c with tamper := x } := by
  unfold State.closeTamper
  rw [held]
  dsimp only
  split
  · exact ⟨c.tamper, held⟩
  · exact ⟨_, (live_of_list (congrArg BillState.live (State.storeTamper_bill ..)) n).trans (State.live_setCtx held (fun _ => rfl))⟩

/-- The closing of records changes a context's tamper section alone. -/
theorem State.closeTampers_live {s : State} {n : Nat} {c : Context} (held : s.live n = some c) (stop flags : Nat) (kinds : List Nat) :
    ∃ x, (s.closeTampers n stop flags kinds).live n = some { c with tamper := x } := by
  induction kinds generalizing s c with
  | nil => exact ⟨c.tamper, held⟩
  | cons k kinds ih =>
    have closed : ∃ x, (s.closeTamperAt n k stop flags).live n = some { c with tamper := x } := by
      unfold State.closeTamperAt
      rw [held]
      exact State.closeTamper_live held ..
    obtain ⟨x, first⟩ := closed
    exact ih (c := { c with tamper := x }) first

theorem State.disableTamper_live {s : State} {n : Nat} {c : Context} (held : s.live n = some c) (enables importOnly : Nat) :
    ∃ x, (s.disableTamper n enables importOnly).live n = some { c with tamper := x } := by
  unfold State.disableTamper
  rw [held]
  obtain ⟨x, closed⟩ := State.closeTampers_live held c.folded 0 ((List.range 7).filter (fun k => bit c.tamper.enables k && !bit enables k))
  exact ⟨_, State.live_setCtx closed (fun _ => rfl)⟩

/-- The start of a trail changes the trail and the open records that it leaves behind. -/
theorem Context.startTrail_frame (c : Context) : c.startTrail =
    { c with tamper := { c.tamper with trail := c.startTrail.tamper.trail, opened := c.startTrail.tamper.opened } } := by
  unfold Context.startTrail Tamper.trailPush
  dsimp only
  split
  · split <;> rfl
  · rfl

end Sys2Proof.Machine
end

section
/-! SUPPORT. PREPAY_CONFIG, FRIENDLY_SET, CREDIT_ADD, EMERGENCY_CREDIT and a press of the button (R255-R262). -/

namespace Sys2Proof.Machine

@[simp] theorem State.taken_live (s : State) (t : Nat) (p : Port) (n : Nat) : (s.taken t p).live n = s.live n := by simp [State.live]

@[simp] theorem State.taken_parkedContexts (s : State) (t : Nat) (p : Port) : (s.taken t p).parkedContexts = s.parkedContexts := by
  simp [State.parkedContexts]

theorem State.creditReply_of_live {s : State} {n : Nat} {c : Context} (held : s.live n = some c) (duplicate : Nat) :
    s.creditReply n duplicate = leInt 8 c.prepay.credit ++ octets [c.prepay.state, duplicate, 0, 0] := by
  unfold State.creditReply
  rw [held]

section Named
variable {t : Nat} {p : Port} {s : State} {q : Request} {c : Context}

/-- A request on a context that does not park is its row's body for that context. -/
theorem withCtx_found (f : Context → Req → State → Answer) (found : s.ctxOf (Req.of p q).handle = some c) (stays : bit c.state 1 = false) :
    withCtx f (Req.of p q) (s.taken t p) = f c (Req.of p q) (s.taken t p) := by
  have found' : (s.taken t p).ctxOf (Req.of p q).handle = some c := by simpa using found
  unfold withCtx
  rw [unparked_pass (fun d named => by cases found'.symm.trans named; exact stays), found']

variable (found : s.ctxOf (Req.of p q).handle = some c) (held : s.live c.serial = some c) (stays : bit c.state 1 = false)

include found stays

/-- A command of a row on contexts ends as the row's body for the context named ends. -/
theorem ends_of_ctx {i : Instr} {row : Row} {f : Context → Req → State → Answer} {status : Nat} {payload : List Byte} {u : State}
    (serves : exec i s = .next (row.serve t p s)) (called : row.calls t p s q = true) (about : row.body = withCtx f)
    (body : f c (Req.of p q) (s.taken t p) = .done status payload u) : Ends i s (Req.of p q) status payload u :=
  ends_of_body serves called ((congrFun (congrFun about _) _).trans ((withCtx_found f found stays).trans body))

/-! ### Settings that wait for a tick boundary (R255, R262) -/

section Settings
include held

omit found stays in
/-- A setting noted in a context is in its live record and, where it can be, in the pool; the relays stay. -/
theorem keptSetting (f : Context → Context) (same : ∀ x, (f x).serial = x.serial) :
    ((((s.taken t p).setCtx c.serial f).poolKeep c.serial).live c.serial = some (f c)) ∧
      (((s.taken t p).setCtx c.serial f).poolKeep c.serial).bill.relays = s.bill.relays := by
  refine ⟨?_, by simp [State.setCtx]⟩
  rw [live_of_list (congrArg BillState.live (State.poolKeep_bill ..)), State.live_setCtx (by simpa using held) same]

theorem prepayConfig_answers (called : prepayConfigRow.calls t p s q = true) (alone : (Req.of p q).u 1 1 = 255 ∨
      ∀ x ∈ s.bill.live ++ s.parkedContexts, x.serial ≠ c.serial → x.binds ((Req.of p q).u 1 1) = false) :
    Answers (.prepayConfig t p) s (Req.of p q) stOk [] (fun u =>
      u.live c.serial = some { c with newPrepay := some (nextBoundary (max s.now t), (Req.of p q).payload) } ∧
        u.bill.relays = s.bill.relays) := by
  have free : ((Req.of p q).u 1 1 ≤ 3 && ((s.taken t p).bill.live ++ (s.taken t p).parkedContexts).any
      (fun x => x.serial ≠ c.serial && x.binds ((Req.of p q).u 1 1))) = false := by
    obtain none_ | others := alone
    · simp [none_]
    · rw [Bool.and_eq_false_iff, List.any_eq_false]
      exact .inr (by simpa using others)
  rw [← show (s.taken t p).now = max s.now t by simp]
  exact ⟨_, ends_of_ctx found stays rfl called rfl (judged_miss free), keptSetting held _ (fun _ => rfl)⟩

theorem friendlySet_answers (called : friendlySetRow.calls t p s q = true) : Answers (.friendlySet t p) s (Req.of p q) stOk [] (fun u =>
    u.live c.serial = some { c with newFriendly := some (nextBoundary (max s.now t), (Req.of p q).payload) } ∧
      u.bill.relays = s.bill.relays) := by
  rw [← show (s.taken t p).now = max s.now t by simp]
  exact ⟨_, ends_of_ctx found stays rfl called rfl rfl, keptSetting held _ (fun _ => rfl)⟩

end Settings

/-! ### CREDIT_ADD (R258) -/

section CreditAdd
variable (called : creditAddRow.calls t p s q = true)
include called

theorem creditAdd_badParam (fresh : c.prepay.transactions.contains ((Req.of p q).u 8 4) = false)
    (past : creditLimit < ((c.prepay.credit + (Req.of p q).i 0 8).natAbs : Int)) :
    Ends (.creditAdd t p) s (Req.of p q) stBadParam [] (s.taken t p) :=
  ends_of_ctx found stays rfl called rfl (judged_hit (by rw [fresh, Bool.not_false, Bool.true_and]; exact decide_eq_true past))

variable (mode : c.prepay.mode = 1)
include held mode

theorem creditAdd_repeated (again : c.prepay.transactions.contains ((Req.of p q).u 8 4) = true) :
    Ends (.creditAdd t p) s (Req.of p q) stOk (leInt 8 c.prepay.credit ++ octets [c.prepay.state, 1, 0, 0]) (s.taken t p) := by
  rw [← State.creditReply_of_live (s := s.taken t p) (n := c.serial) (by simpa using held)]
  have fits : (!c.prepay.transactions.contains ((Req.of p q).u 8 4) &&
      decide (creditLimit < ((c.prepay.credit + (Req.of p q).i 0 8).natAbs : Int))) = false := by rw [again, Bool.not_true, Bool.false_and]
  exact ends_of_ctx found stays rfl called rfl ((judged_miss fits).trans ((judged_miss (by simp [mode])).trans (if_pos again)))

theorem creditAdd_adds (fresh : c.prepay.transactions.contains ((Req.of p q).u 8 4) = false)
    (within : ((c.prepay.credit + (Req.of p q).i 0 8).natAbs : Int) ≤ creditLimit) :
    ∃ state, Answers (.creditAdd t p) s (Req.of p q) stOk
      (leInt 8 (c.prepay.credit + (Req.of p q).i 0 8) ++ octets [state, 0, 0, 0]) (fun u => ∃ d, u.live c.serial = some d ∧
        d.prepay.credit = c.prepay.credit + (Req.of p q).i 0 8 ∧ d.prepay.transactions.head? = some ((Req.of p q).u 8 4) ∧
        d.prepay.state = state ∧ (0 ≤ d.prepay.credit → d.prepay.emergency = 0) ∧ d.regs = c.regs) := by
  obtain ⟨d, added, credit, number, repaid, regs⟩ := State.addCredit_live (s := s.taken t p) (n := c.serial) (by simpa using held)
    ((Req.of p q).i 0 8) ((Req.of p q).u 8 4) mode
  refine ⟨d.prepay.state, _, ?_, d, added, credit, number, rfl, repaid, regs⟩
  rw [← credit, ← State.creditReply_of_live added]
  have fits : (!c.prepay.transactions.contains ((Req.of p q).u 8 4) &&
      decide (creditLimit < ((c.prepay.credit + (Req.of p q).i 0 8).natAbs : Int))) = false := by
    rw [decide_eq_false (Int.not_lt.2 within), Bool.and_false]
  have new : ¬ c.prepay.transactions.contains ((Req.of p q).u 8 4) = true := by rw [fresh]; exact Bool.false_ne_true
  exact ends_of_ctx found stays rfl called rfl ((judged_miss fits).trans ((judged_miss (by simp [mode])).trans (if_neg new)))

end CreditAdd

/-! ### EMERGENCY_CREDIT (R260) -/

section EmergencyCredit
variable (called : emergencyCreditRow.calls t p s q = true)
include called

theorem emergencyCredit_badParam (past : c.prepay.ceiling < c.prepay.emergency + (Req.of p q).u 0 8) :
    Ends (.emergencyCredit t p) s (Req.of p q) stBadParam [] (s.taken t p) :=
  ends_of_ctx found stays rfl called rfl (judged_hit (Bool.or_eq_true_iff.2 (.inr (decide_eq_true past))))

include held

theorem emergencyCredit_grants (some_ : 0 < (Req.of p q).u 0 8) (within : c.prepay.emergency + (Req.of p q).u 0 8 ≤ c.prepay.ceiling)
    (mode : c.prepay.mode = 1) (low : c.prepay.credit < c.prepay.low) :
    ∃ state, Answers (.emergencyCredit t p) s (Req.of p q) stOk
      (le 8 (c.prepay.emergency + (Req.of p q).u 0 8) ++ octets [state, 0, 0, 0]) (fun u => ∃ d, u.live c.serial = some d ∧
        d.prepay.emergency = c.prepay.emergency + (Req.of p q).u 0 8 ∧ d.prepay.credit = c.prepay.credit) := by
  obtain ⟨d, granted, emergency, credit⟩ := State.grant_live (s := s.taken t p) (n := c.serial) (by simpa using held)
    ((Req.of p q).u 0 8) 2 mode
  have answered : (((s.taken t p).grant c.serial ((Req.of p q).u 0 8) 2).live c.serial).getD c = d := by rw [granted, Option.getD_some]
  refine ⟨d.prepay.state, _, ?_, d, granted, emergency, credit⟩
  rw [← emergency, ← answered]
  refine ends_of_ctx found stays rfl called rfl (judged_pass ?_)
  simp [mode, low, within, some_.ne']

end EmergencyCredit

end Named

/-! ### The button (R261) -/

section Button
variable {t high low : Nat} {s : State} {c : Context}

theorem creditBtnPress_short (short : high < 50 * Config.ms) : exec (.creditBtnPress t high low) s = .next (s.tickTo t) :=
  congrArg Host.Outcome.next (if_neg (by simp [Nat.not_le.2 short]))

/-- A press that lasts grants the ceiling to a context that enables it and has no grant. -/
theorem State.pressOn_grants (meters : c.kind = 0) (mode : c.prepay.mode = 1) (enabled : bit c.prepay.options 0 = true)
    (state : c.prepay.state ≠ 6) (low : c.prepay.credit < c.prepay.low) (none_ : c.prepay.emergency = 0) :
    s.pressOn c = s.grant c.serial c.prepay.ceiling 3 := by
  simp [State.pressOn, meters, mode, enabled, state, low, none_]

theorem creditBtnPress_grants (running : s.phase = .running) (alone : s.bill.live = [c]) (long : 50 * Config.ms ≤ high)
    (short : high ≤ 5 * secTicks) (released : 50 * Config.ms ≤ low) (meters : c.kind = 0) (mode : c.prepay.mode = 1)
    (enabled : bit c.prepay.options 0 = true) (state : c.prepay.state ≠ 6) (under : c.prepay.credit < c.prepay.low)
    (none_ : c.prepay.emergency = 0) : Leads (.creditBtnPress t high low) s (fun u => u.pins.button = max s.now t - low ∧
      ∃ d, u.live c.serial = some d ∧ d.prepay.emergency = c.prepay.ceiling ∧ d.prepay.credit = c.prepay.credit) := by
  let pressed : State := { s.tickTo t with pins := { s.pins with button := max s.now t - low } }
  have held : pressed.live c.serial = some c := by simp [pressed, State.live, alone]
  have run : exec (.creditBtnPress t high low) s = .next (pressed.grant c.serial c.prepay.ceiling 3) := by
    refine congrArg Host.Outcome.next ((if_pos (by simp [running, long, short, released])).trans ?_)
    have serials : pressed.serials = [c.serial] := by simp [pressed, State.serials, alone]
    show pressed.eachCtx (fun s c => s.pressOn c) = _
    rw [State.eachCtx, serials, List.foldl_cons, List.foldl_nil, held]
    exact State.pressOn_grants meters mode enabled state under none_
  obtain ⟨d, granted, emergency, credit⟩ := State.grant_live held c.prepay.ceiling 3 mode
  exact ⟨_, run, by rw [State.grant_pins], d, granted, by rw [emergency, none_, Nat.zero_add], credit⟩

end Button

/-! ### Charges and states (R256, R259) -/

/-- A charge takes whole micro-units from C and keeps the rest. -/
theorem Prepay.charge_keeps (p : Prepay) (tariff e : Nat) :
    1000000000 * (p.charge tariff e).charged + (p.charge tariff e).remainder = 1000000000 * p.charged + p.remainder + nth p.prices tariff * e ∧
      (p.charge tariff e).credit + (p.charge tariff e).charged = p.credit + p.charged ∧ (p.charge tariff e).remainder < 1000000000 := by
  simp only [Prepay.charge]
  generalize nth p.prices tariff * e = cost
  omega

section Decide
variable {p : Prepay} (mode : p.mode = 1) (free : p.hold = 0) (on : p.state ≠ 5) (armed : p.state ≠ 6)
include mode free on armed

theorem Prepay.decide_left (left : 0 < p.left) : p.decide = if p.emergency > 0 then 3 else if p.credit < p.low then 2 else 1 := by
  simp [Prepay.decide, Prepay.creditState, mode, free, on, armed, left]

theorem Prepay.decide_spent (spent : p.left ≤ 0) : p.decide = if p.friendly ≠ 0 then 4 else 5 := by
  simp [Prepay.decide, mode, free, on, armed, Int.not_lt.2 spent]

end Decide

end Sys2Proof.Machine
end

section
/-! SUPPORT. Prepayment: the obligation, from the lemmas on its commands. -/

open Sys2Proof.Machine

/-- Settles O39: each request is its body on the context it names, and every decision on credit changes of that context only what its rule says. -/
theorem prepaymentRuns : Obligations.PrepaymentRuns := by
  unfold Obligations.PrepaymentRuns
  refine ⟨fun t p s q c found held stays => ⟨prepayConfig_answers found held stays, friendlySet_answers found held stays,
      fun called mode again => creditAdd_repeated found held stays called mode again,
      fun called mode fresh => ⟨creditAdd_badParam found stays called fresh, creditAdd_adds found held stays called mode fresh⟩,
      emergencyCredit_badParam found stays, emergencyCredit_grants found held stays⟩,
    fun t high low s c running alone => ⟨creditBtnPress_grants running alone, creditBtnPress_short⟩,
    fun p tariff e => p.charge_keeps tariff e,
    fun p mode free on armed => ⟨Prepay.decide_left mode free on armed, Prepay.decide_spent mode free on armed⟩⟩

end

section
/-! SUPPORT. RELAY_CONTROL, TAMPER_CONFIG, TAMPER_READ and the tamper switches (R263, R268-R270). -/

namespace Sys2Proof.Machine

/-! ### A relay and the context it is bound to (R255, R263) -/

@[simp] theorem State.taken_boundTo (s : State) (t : Nat) (p : Port) (k : Nat) : (s.taken t p).boundTo k = s.boundTo k := by
  simp [State.boundTo]

@[simp] theorem State.taken_warned (s : State) (t : Nat) (p : Port) : (s.taken t p).warned = s.warned := by simp [State.warned]

/-- What binds a relay: prepayment on, of a context that is not a shadow. -/
theorem State.boundTo_some {s : State} {k : Nat} {c : Context} (bound : s.boundTo k = some c) :
    c.kind ≠ 1 ∧ c.prepay.mode = 1 ∧ c.prepay.relay = k := by
  simpa [and_assoc] using List.find?_some bound

/-- A valid RELAY_CONTROL names a relay of the part. -/
theorem Req.relay_of_valid {r : Req} (valid : r.relayValid = true) : r.u 0 1 < 4 := by
  simp only [Req.relayValid, Bool.and_eq_true, decide_eq_true_eq] at valid
  omega

/-- The reply of RELAY_CONTROL has the length of Table 16.18. -/
theorem State.length_relayReply (s : State) (k : Nat) : (s.relayReply k).length = 16 := by
  simp [State.relayReply, octets]

/-! ### The bodies of the actions (Table 8.2) -/

section Bodies
variable {r : Req} {s : State}

/-- An action that no test refuses answers the relay as its effect leaves it. -/
theorem relayRow_done {picks : Nat → Bool} {tests : Req → State → List (Bool × Nat)} {f : Nat → Req → State → State} {u : State}
    (passes : ∀ x ∈ tests r s, x.1 = false) (effect : f (r.u 0 1) r s = u) :
    (relayRow picks tests f).body r s = .done stOk (u.relayReply (r.u 0 1)) u := by
  subst effect
  exact judged_pass passes

theorem relayOpenRow_free (free : s.boundTo (r.u 0 1) = none) :
    ∃ payload, relayOpenRow.body r s = .done stOk payload (s.setRelay (r.u 0 1) false 2) :=
  ⟨_, relayRow_done (by simp [free]) (by simp only [free])⟩

theorem relayCloseRow_free (free : s.boundTo (r.u 0 1) = none) :
    ∃ payload, relayCloseRow.body r s = .done stOk payload (s.setRelay (r.u 0 1) true 2) :=
  ⟨_, relayRow_done (by simp [free]) (by simp only [free])⟩

section Bound
variable {c : Context} (bound : s.boundTo (r.u 0 1) = some c)
include bound

theorem relayOpenRow_denied (friendly : c.prepay.friendly ≠ 0) (plain : r.u 2 1 = 0) : relayOpenRow.body r s = .done stDenied [] s :=
  judged_hit (by simp [bound, friendly, plain])

theorem relayOpenRow_opens (may : c.prepay.friendly = 0 ∨ r.u 2 1 ≠ 0) : ∃ payload, relayOpenRow.body r s =
    .done stOk payload ((s.setCtx c.serial (fun c => { c with prepay := { c.prepay with hold := 1 } })).enterState c.serial 5 2) := by
  refine ⟨_, relayRow_done ?_ (by simp only [bound])⟩
  rcases may with none_ | forced
  · simp [bound, none_]
  · simp [forced]

theorem relayCloseRow_spent (spent : c.prepay.left ≤ 0) : relayCloseRow.body r s = .done stWrongState [] s :=
  judged_hit (by simp [bound, spent])

theorem relayCloseRow_closes (left : 0 < c.prepay.left) : ∃ payload, relayCloseRow.body r s = .done stOk payload
    (if c.prepay.state = 5 || c.prepay.state = 6 then s.reconnect c.serial 2 else s.setRelay (r.u 0 1) true 2) :=
  ⟨_, relayRow_done (by simp [bound, Int.not_le.2 left]) (by simp only [bound])⟩

theorem relayArmRow_wrongState (other : c.prepay.state ≠ 5) : relayArmRow.body r s = .done stWrongState [] s :=
  judged_hit (by simp [bound, other])

theorem relayArmRow_arms (state : c.prepay.state = 5) (hold : c.prepay.hold = 1) (left : 0 < c.prepay.left) : ∃ payload, relayArmRow.body r s =
    .done stOk payload ((s.setCtx c.serial (fun c => { c with prepay := { c.prepay with hold := 0 } })).enterState c.serial 6 2) :=
  ⟨_, relayRow_done (by simp [bound, state, hold, left]) (by simp only [bound])⟩

end Bound

end Bodies

/-! ### RELAY_CONTROL -/

section Relay
variable {t : Nat} {p : Port} {s : State} {q : Request}

theorem relayQuery_answers (called : relayQueryRow.calls t p s q = true) :
    Ends (.relayControlQuery t p) s (Req.of p q) stOk ((s.taken t p).relayReply ((Req.of p q).u 0 1)) (s.taken t p) ∧
      ((s.taken t p).relayReply ((Req.of p q).u 0 1)).length = 16 :=
  ⟨ends_of_body rfl called rfl, State.length_relayReply ..⟩

theorem relayPolarity_sets (four : s.bill.relays.length = 4) (called : relayPolarityRow.calls t p s q = true) :
    ∃ payload, Answers (.relayControlPolarity t p) s (Req.of p q) stOk payload (fun u =>
      nth u.bill.relays ((Req.of p q).u 0 1) =
          { nth s.bill.relays ((Req.of p q).u 0 1) with polarity := (Req.of p q).u 3 1 } ∧
        (∀ j, j ≠ (Req.of p q).u 0 1 → nth u.bill.relays j = nth s.bill.relays j) ∧
        u = { s.taken t p with bill := { (s.taken t p).bill with relays := u.bill.relays } }) := by
  have part := Req.relay_of_valid (valid_of_calls called)
  have bill : (s.taken t p).bill = s.bill := by simp
  refine ⟨_, _, ends_of_body rfl called rfl, ?_, fun j other => ?_, rfl⟩
  · rw [← bill]
    exact nth_alter _ _ _ (by rw [bill]; omega)
  · rw [← bill]
    exact nth_alter_ne _ _ _ _ other

section Moves
variable (four : s.bill.relays.length = 4) (clear : s.warned = false)
include four clear

/-- A relay that no context binds takes the level alone. -/
theorem setRelay_taken {k : Nat} (closed : Bool) (part : k < 4) (free : s.boundTo k = none) :
    (nth ((s.taken t p).setRelay k closed 2).bill.relays k).closed = closed ∧
      (∀ j, j ≠ k → nth ((s.taken t p).setRelay k closed 2).bill.relays j = nth s.bill.relays j) ∧
      ((s.taken t p).setRelay k closed 2).bill.live = s.bill.live := by
  refine ⟨State.setRelay_closed _ _ (by simpa using four) (by simpa using clear) part, fun j other => ?_, ?_⟩
  · simpa using (s.taken t p).setRelay_other k closed 2 other
  · simpa using State.setRelay_free closed 2 ((s.taken_boundTo t p k).trans free)

theorem relayOpen_free (called : relayOpenRow.calls t p s q = true) (free : s.boundTo ((Req.of p q).u 0 1) = none) :
    ∃ payload, Answers (.relayControlOpen t p) s (Req.of p q) stOk payload (fun u =>
      (nth u.bill.relays ((Req.of p q).u 0 1)).closed = false ∧
        (∀ j, j ≠ (Req.of p q).u 0 1 → nth u.bill.relays j = nth s.bill.relays j) ∧ u.bill.live = s.bill.live) :=
  let ⟨payload, body⟩ := relayOpenRow_free ((s.taken_boundTo t p _).trans free)
  ⟨payload, _, ends_of_body rfl called body, setRelay_taken four clear false (Req.relay_of_valid (valid_of_calls called)) free⟩

theorem relayClose_free (called : relayCloseRow.calls t p s q = true) (free : s.boundTo ((Req.of p q).u 0 1) = none) :
    ∃ payload, Answers (.relayControlClose t p) s (Req.of p q) stOk payload (fun u =>
      (nth u.bill.relays ((Req.of p q).u 0 1)).closed = true ∧
        (∀ j, j ≠ (Req.of p q).u 0 1 → nth u.bill.relays j = nth s.bill.relays j) ∧ u.bill.live = s.bill.live) :=
  let ⟨payload, body⟩ := relayCloseRow_free ((s.taken_boundTo t p _).trans free)
  ⟨payload, _, ends_of_body rfl called body, setRelay_taken four clear true (Req.relay_of_valid (valid_of_calls called)) free⟩

end Moves

section Bound
variable {c : Context} (bound : s.boundTo ((Req.of p q).u 0 1) = some c)
include bound

theorem relayOpen_denied (called : relayOpenRow.calls t p s q = true) (friendly : c.prepay.friendly ≠ 0) (plain : (Req.of p q).u 2 1 = 0) :
    Ends (.relayControlOpen t p) s (Req.of p q) stDenied [] (s.taken t p) :=
  ends_of_body rfl called (relayOpenRow_denied ((s.taken_boundTo t p _).trans bound) friendly plain)

theorem relayClose_spent (called : relayCloseRow.calls t p s q = true) (spent : c.prepay.left ≤ 0) :
    Ends (.relayControlClose t p) s (Req.of p q) stWrongState [] (s.taken t p) :=
  ends_of_body rfl called (relayCloseRow_spent ((s.taken_boundTo t p _).trans bound) spent)

theorem relayArm_wrongState (called : relayArmRow.calls t p s q = true) (other : c.prepay.state ≠ 5) :
    Ends (.relayControlArm t p) s (Req.of p q) stWrongState [] (s.taken t p) :=
  ends_of_body rfl called (relayArmRow_wrongState ((s.taken_boundTo t p _).trans bound) other)

variable (held : s.live c.serial = some c)
include held

theorem relayArm_arms (called : relayArmRow.calls t p s q = true) (state : c.prepay.state = 5) (hold : c.prepay.hold = 1)
    (left : 0 < c.prepay.left) : ∃ payload, Answers (.relayControlArm t p) s (Req.of p q) stOk payload (fun u =>
      ∃ d, u.live c.serial = some d ∧ d.prepay.state = 6 ∧ d.prepay.hold = 0) := by
  obtain ⟨payload, body⟩ := relayArmRow_arms ((s.taken_boundTo t p _).trans bound) state hold left
  have released := State.live_setCtx (s := s.taken t p) (serial := c.serial) (by simpa using held)
    (f := fun c => { c with prepay := { c.prepay with hold := 0 } }) (fun _ => rfl)
  obtain ⟨count, change, armed⟩ := State.enterState_live released 6 2
  exact ⟨payload, _, ends_of_body rfl called body, _, armed, rfl, rfl⟩

variable (four : s.bill.relays.length = 4) (clear : s.warned = false)
include four clear

theorem relayOpen_opens (called : relayOpenRow.calls t p s q = true) (may : c.prepay.friendly = 0 ∨ (Req.of p q).u 2 1 ≠ 0) :
    ∃ payload, Answers (.relayControlOpen t p) s (Req.of p q) stOk payload (fun u =>
      (nth u.bill.relays ((Req.of p q).u 0 1)).closed = false ∧
        ∃ d, u.live c.serial = some d ∧ d.prepay.state = 5 ∧ d.prepay.hold = 1 ∧ d.prepay.credit = c.prepay.credit) := by
  have part := Req.relay_of_valid (valid_of_calls called)
  obtain ⟨meters, mode, relay⟩ := State.boundTo_some bound
  obtain ⟨payload, body⟩ := relayOpenRow_opens ((s.taken_boundTo t p _).trans bound) may
  have kept := State.live_setCtx (s := s.taken t p) (serial := c.serial) (by simpa using held)
    (f := fun c => { c with prepay := { c.prepay with hold := 1 } }) (fun _ => rfl)
  obtain ⟨count, change, opened⟩ := State.enterState_live kept 5 2
  refine ⟨payload, _, ends_of_body rfl called body, ?_, _, opened, rfl, rfl, rfl⟩
  rw [← relay]
  exact State.enterState_relay kept 2 mode meters (by decide) (by simpa [State.setCtx] using four) ((s.taken_warned t p).trans clear)
    (relay ▸ part)

theorem relayClose_closes (called : relayCloseRow.calls t p s q = true) (left : 0 < c.prepay.left) :
    ∃ payload, Answers (.relayControlClose t p) s (Req.of p q) stOk payload (fun u =>
      (nth u.bill.relays ((Req.of p q).u 0 1)).closed = true) := by
  have part := Req.relay_of_valid (valid_of_calls called)
  have four' : (s.taken t p).bill.relays.length = 4 := by simpa using four
  have clear' : (s.taken t p).warned = false := (s.taken_warned t p).trans clear
  obtain ⟨meters, mode, relay⟩ := State.boundTo_some bound
  obtain ⟨payload, body⟩ := relayCloseRow_closes ((s.taken_boundTo t p _).trans bound) left
  refine ⟨payload, _, ends_of_body rfl called body, ?_⟩
  split
  · rw [← relay]
    exact State.reconnect_relay (by simpa using held) 2 mode meters four' clear' (by omega)
  · exact State.setRelay_closed _ _ four' clear' part

end Bound

end Relay

/-! ### TAMPER_CONFIG and TAMPER_READ (R268, R270) -/

section Tamper
variable {t : Nat} {p : Port} {s : State} {q : Request}

section Named
variable {c : Context} (found : s.ctxOf (Req.of p q).handle = some c) (stays : bit c.state 1 = false)
include found stays

theorem tamperContext_sets (held : s.live c.serial = some c) (called : tamperContextRow.calls t p s q = true) :
    Answers (.tamperConfigContext t p) s (Req.of p q) stOk [] (fun u => ∃ d, u.live c.serial = some d ∧
      d.tamper.enables = (Req.of p q).u 0 1 ∧ d.tamper.importOnly = (Req.of p q).u 1 1 ∧ d.tamper.ratio = (Req.of p q).f32 8 ∧
      d.regs = c.regs ∧ d.prepay = c.prepay) := by
  obtain ⟨x, disabled⟩ := State.disableTamper_live (s := s.taken t p) (n := c.serial) (by simpa using held)
    ((Req.of p q).u 0 1) ((Req.of p q).u 1 1)
  refine ⟨_, ends_of_ctx found stays rfl called rfl rfl, _,
    (live_of_list (congrArg BillState.live (State.poolKeep_bill ..)) _).trans
      (State.live_setCtx disabled (fun _ => Context.startTrail_serial _)), ?_⟩
  dsimp only
  rw [Context.startTrail_frame]
  exact ⟨rfl, rfl, rfl, rfl, rfl⟩

theorem tamperRead_reads {x : TamperRecord} (called : tamperReadRow.calls t p s q = true)
    (kept : s.store.tampers.find? (fun x => x.serial = c.serial && ((Req.of p q).u 0 4 = 0 || x.number = (Req.of p q).u 0 4)) = some x) :
    Ends (.tamperRead t p) s (Req.of p q) stOk x.bytes (s.taken t p) := by
  refine ends_of_ctx found stays rfl called rfl ?_
  have store : (s.taken t p).store = s.store := by simp
  simp only [store, kept]

theorem tamperRead_badParam (called : tamperReadRow.calls t p s q = true)
    (none_ : s.store.tampers.find? (fun x => x.serial = c.serial && ((Req.of p q).u 0 4 = 0 || x.number = (Req.of p q).u 0 4)) = none) :
    Ends (.tamperRead t p) s (Req.of p q) stBadParam [] (s.taken t p) := by
  refine ends_of_ctx found stays rfl called rfl ?_
  have store : (s.taken t p).store = s.store := by simp
  simp only [store, none_, refuse]

end Named

/-! ### The tamper switches (R268, R269) -/

theorem State.Inv.tamp (inv : s.Inv) : s.bill.tamp.length = 4 := by
  simp only [State.Inv, State.shape, partShape, List.cons.injEq] at inv
  obtain ⟨-, -, -, -, -, -, -, four, -⟩ := inv
  exact four

/-- Reading an entry of a list whose entries have changed by their places. -/
theorem nth_mapIdx {α : Type} [Inhabited α] {l : List α} {i : Nat} (f : Nat → α → α) (listed : i < l.length) :
    nth (l.mapIdx f) i = f i (nth l i) := by
  simp [nth, listed]

/-- A tamper input whose active level is set: it starts its 20 ms anew where that changes. -/
def TampInput.activeAt (x : TampInput) (high : Bool) (now : Nat) : TampInput :=
  if x.activeHigh = high then x else { x with activeHigh := high, since := now }

theorem TampInput.activeAt_activeHigh (x : TampInput) (high : Bool) (now : Nat) : (x.activeAt high now).activeHigh = high := by
  unfold TampInput.activeAt
  split
  · assumption
  · rfl

theorem TampInput.activeAt_level (x : TampInput) (high : Bool) (now : Nat) : (x.activeAt high now).level = x.level := by
  unfold TampInput.activeAt
  split <;> rfl

theorem tamperLevels_sets (called : tamperLevelsRow.calls t p s q = true) (inv : s.Inv) :
    Answers (.tamperConfigLevels t p) s (Req.of p q) stOk [] (fun u =>
      (∀ k, k < 4 → (nth u.bill.tamp k).activeHigh = bit ((Req.of p q).u 0 1) k ∧ (nth u.bill.tamp k).level = (nth s.bill.tamp k).level) ∧
      u = { s.taken t p with bill := { (s.taken t p).bill with tamp := u.bill.tamp } }) := by
  refine ⟨_, ends_of_body rfl called rfl, fun k part => ?_, rfl⟩
  have bill : (s.taken t p).bill = s.bill := by simp
  have set := nth_mapIdx (fun k (x : TampInput) => x.activeAt (bit ((Req.of p q).u 0 1) k) (s.taken t p).now)
    (show k < (s.taken t p).bill.tamp.length by rw [bill, inv.tamp]; exact part)
  rw [← bill]
  exact ⟨(congrArg TampInput.activeHigh set).trans (TampInput.activeAt_activeHigh ..),
    (congrArg TampInput.level set).trans (TampInput.activeAt_level ..)⟩

section Switch
variable {k : Nat} {level : Bool} (part : k < 4)
include part

theorem tamperSwitch_takes (inv : s.Inv) (other : (nth s.bill.tamp k).level ≠ level) : Leads (.tamperSwitch t k level) s (fun u =>
    nth u.bill.tamp k = { nth s.bill.tamp k with
      level := level, since := max s.now t - 20 * Config.ms, active := decide (level = (nth s.bill.tamp k).activeHigh) } ∧
    (∀ j, j ≠ k → nth u.bill.tamp j = nth s.bill.tamp j) ∧ u.bill.live = s.bill.live) := by
  have moved : ∃ u, exec (.tamperSwitch t k level) s = .next u ∧ u.bill = { s.bill with tamp := alter s.bill.tamp k (fun x => { x with
      level := level, since := max s.now t - 20 * Config.ms, active := decide (level = (nth s.bill.tamp k).activeHigh) }) } := by
    show ∃ u, execTamperSwitch t k level s = .next u ∧ _
    simp only [execTamperSwitch, part, decide_true, guarded_true, State.tickTo_bill, other, if_false, Nat.lt_irrefl]
    refine ⟨_, rfl, ?_⟩
    split <;> rfl
  obtain ⟨u, run, bill⟩ := moved
  refine ⟨u, run, ?_, fun j another => ?_, ?_⟩
  · rw [bill]
    exact nth_alter _ _ _ (by rw [inv.tamp]; exact part)
  · rw [bill]
    exact nth_alter_ne _ _ _ _ another
  · rw [bill]

theorem tamperSwitch_short (same : (nth s.bill.tamp k).level = level) (short : max s.now t - 20 * Config.ms < (nth s.bill.tamp k).since) :
    exec (.tamperSwitch t k level) s = .next (s.tickTo t) := by
  show execTamperSwitch t k level s = _
  simp only [execTamperSwitch, part, decide_true, guarded_true, State.tickTo_bill, State.tickTo_now_eq, same, if_true, short]

end Switch

end Tamper

end Sys2Proof.Machine
end

section
/-! SUPPORT. Relays and tamper inputs: the obligation, from the lemmas on each command. -/

open Sys2Proof.Machine

/-- Settles O40: each action on a relay is its body, the relay follows the state of the context that binds it, and a tamper setting or switch
changes what it names alone. -/
theorem relaysAndTampers : Obligations.RelaysAndTampers := by
  unfold Obligations.RelaysAndTampers
  refine ⟨fun t p s q => ?_, fun t p s q => ⟨fun c found held stays => ⟨tamperContext_sets found stays held,
    fun x => tamperRead_reads found stays, tamperRead_badParam found stays⟩, tamperLevels_sets⟩,
    fun t k level s part inv => ⟨tamperSwitch_takes part inv, tamperSwitch_short part⟩⟩
  exact fun four clear => ⟨relayQuery_answers, relayOpen_free four clear,
    fun c called bound held => ⟨relayOpen_denied bound called, relayOpen_opens bound held four clear called⟩,
    relayClose_free four clear, fun c called bound => relayClose_spent bound called,
    fun c called bound held => relayClose_closes bound held four clear called,
    fun c called bound held => ⟨relayArm_arms bound held called, relayArm_wrongState bound called⟩, relayPolarity_sets four⟩

end

section
/-! SUPPORT. The line: what its operations change, and what a configuration that waits leaves of it (R278, R295, R316). -/

namespace Sys2Proof.Machine

/-! ### Pieces of state -/

@[simp] theorem State.setLine_line (s : State) (f : LineState → LineState) : (s.setLine f).line = f s.line := rfl

@[simp] theorem State.setMesh_mesh (s : State) (f : MeshState → MeshState) : (s.setMesh f).mesh = f s.mesh := rfl

@[simp] theorem State.raise_line (s : State) (source time : Nat) (body : List Byte) : (s.raise source time body).line = s.line := by
  rw [State.raise_frame]

@[simp] theorem State.raise_mesh (s : State) (source time : Nat) (body : List Byte) : (s.raise source time body).mesh = s.mesh := by
  rw [State.raise_frame]

@[simp] theorem State.completeOp_line (s : State) (tag status : Nat) (detail : List Byte) : (s.completeOp tag status detail).line = s.line := by
  rw [State.completeOp_frame]

@[simp] theorem State.lineCount_line (s : State) (index n : Nat) :
    (s.lineCount index n).line = { s.line with counters := alter s.line.counters index (fun c => sat 32 (c + n)) } := rfl

/-- Two states whose lines are the same have the same neighbours. -/
theorem State.neighbour_of_line {u s : State} (same : u.line = s.line) (a : Nat) : u.neighbour a = s.neighbour a := by
  rw [State.neighbour, same, ← State.neighbour]

@[simp] theorem State.raise_neighbour (s : State) (source time : Nat) (body : List Byte) (a : Nat) :
    (s.raise source time body).neighbour a = s.neighbour a := State.neighbour_of_line (s.raise_line ..) a

@[simp] theorem State.lineCount_neighbour (s : State) (index n a : Nat) : (s.lineCount index n).neighbour a = s.neighbour a := rfl

/-! ### Neighbour slots (R309, R316) -/

theorem State.neighbour_node {s : State} {a : Nat} {n : Neighbour} (held : s.neighbour a = some n) : n.node = a :=
  by simpa using List.find?_some held

/-- A neighbour changed is changed in its slot, and nothing else of the line is. -/
theorem State.setNeighbour_line (s : State) (a : Nat) (f : Neighbour → Neighbour) :
    (s.setNeighbour a f).line = { s.line with neighbours := alterWhere s.line.neighbours (fun x => x.node = a) f } := by
  unfold State.setNeighbour
  split
  · next missing =>
    have none_ : ∀ x ∈ s.line.neighbours, x.node ≠ a := by simpa [State.neighbour] using missing
    have kept : alterWhere s.line.neighbours (fun x => x.node = a) f = s.line.neighbours :=
      (List.map_congr_left (fun x mem => if_neg (by simpa using none_ x mem))).trans (List.map_id _)
    rw [kept]
  · split <;> rfl

/-- Besides the line it may ask for a route pass. -/
theorem State.setNeighbour_frame (s : State) (a : Nat) (f : Neighbour → Neighbour) : s.setNeighbour a f =
    { s with line := (s.setNeighbour a f).line, mesh := { s.mesh with dirty := (s.setNeighbour a f).mesh.dirty } } := by
  unfold State.setNeighbour
  split
  · rfl
  · split <;> rfl

/-- The first neighbour of an address after a change of the neighbours of one. -/
theorem State.neighbour_setNeighbour {s : State} {a b : Nat} {f : Neighbour → Neighbour} (same : ∀ n, (f n).node = n.node) :
    (s.setNeighbour a f).neighbour b = (s.neighbour b).map (fun n => if n.node = a then f n else n) := by
  have node : ∀ n : Neighbour, (if n.node = a then f n else n).node = n.node := fun n => by split <;> simp [same]
  rw [State.neighbour, State.setNeighbour_line]
  simp only [alterWhere, List.find?_map, Function.comp_def, decide_eq_true_eq, node]
  rfl

theorem State.neighbour_setNeighbour_self {s : State} {a : Nat} {f : Neighbour → Neighbour} (same : ∀ n, (f n).node = n.node) :
    (s.setNeighbour a f).neighbour a = (s.neighbour a).map f := by
  rw [State.neighbour_setNeighbour same]
  exact Option.map_congr (fun n held => if_pos (State.neighbour_node held))

theorem State.neighbour_setNeighbour_ne {s : State} {a b : Nat} {f : Neighbour → Neighbour} (same : ∀ n, (f n).node = n.node) (other : b ≠ a) :
    (s.setNeighbour a f).neighbour b = s.neighbour b := by
  rw [State.neighbour_setNeighbour same]
  exact (Option.map_congr (fun n held => if_neg (by rwa [State.neighbour_node held]))).trans Option.map_id'

/-- The slot that is kept does not lose its maps (R295). -/
@[simp] theorem State.evictMaps_neighbour (s : State) (keep : Nat) : (s.evictMaps keep).neighbour keep = s.neighbour keep := by
  unfold State.evictMaps
  extract_lets cached
  split
  · rfl
  · split
    · rfl
    · next n chosen =>
      have spared : ∀ x ∈ some n, x.node ≠ keep := by
        rw [← chosen]
        refine List.foldlRecOn cached _ (motive := fun a : Option Neighbour => ∀ x ∈ a, x.node ≠ keep) (by simp) (fun a spared y _ => ?_)
        split
        · exact spared
        · next take => simp_all
      rw [State.lineCount_neighbour]
      exact State.neighbour_setNeighbour_ne (fun _ => rfl) (spared n rfl).symm

/-! ### A configuration that waits (R278) -/

/-- A configuration that waited comes into force, and a transmission that has ended leaves the line: nothing else changes. -/
theorem State.settleLine_frame (s : State) : s.settleLine = { s with
    line := { s.line with
      config := s.settleLine.line.config, next := s.settleLine.line.next, neighbours := s.settleLine.line.neighbours
      busy := s.settleLine.line.busy, sfskFlight := s.settleLine.line.sfskFlight }
    mesh := { s.mesh with dirty := s.settleLine.mesh.dirty } } := by
  unfold State.settleLine
  dsimp only
  (repeat' split) <;> rfl

section Settled
variable {s : State} (silent : s.line.sfskFlight = none)
include silent

theorem State.settleLine_of_next_none (next : s.line.next = none) : s.settleLine = s := by
  simp only [State.settleLine, silent, next]

/-- While a frame is in flight a configuration waits. -/
theorem State.settleLine_of_flight (sending : s.line.flight.isSome = true) : s.settleLine = s := by
  unfold State.settleLine
  simp only [silent, sending, Bool.true_or, if_true]
  split <;> rfl

theorem State.settleLine_of_next {c : LineConfig} (free : s.line.flight = none) (next : s.line.next = some c) : s.settleLine =
    (s.setLine (fun l => l.apply c)).setMesh (fun m => { m with dirty := m.dirty || c.coupling ≠ s.line.config.coupling }) := by
  simp [State.settleLine, silent, free, next]

end Settled

end Sys2Proof.Machine
end

section
/-! SUPPORT. The requests to the line modem: LINE_CONFIG, TONEMAP, PRIVILEGE_SET, LINE_STATS, and LINE_SEND in S-FSK mode (group 08h). -/

namespace Sys2Proof.Machine

/-! ### What taking a request leaves -/

section Taken
variable (s : State) (t : Nat) (p : Port)

@[simp] theorem State.taken_neighbour (a : Nat) : (s.taken t p).neighbour a = s.neighbour a := State.neighbour_of_line (by simp) a

@[simp] theorem State.taken_neighbourAt (h : Nat) : (s.taken t p).neighbourAt h = s.neighbourAt h := by simp [State.neighbourAt]

@[simp] theorem State.taken_lineDown : (s.taken t p).lineDown = s.lineDown := by simp [State.lineDown, State.linkLost, State.tickTo, State.die]

end Taken

/-! ### LINE_CONFIG (R277, R278) -/

/-- A configuration that passes the tests of its row waits for the frame in flight, if one is (Table 16.2). -/
theorem lineConfigRow_sets {r : Req} {s : State} (settled : s.settleLine = s) (up : s.lineDown = false)
    (on : (s.chan r.lineConfig.coupling).enabled = true) (same : r.lineConfig.mode = s.line.config.mode) :
    lineConfigRow.body r s = .done stOk [] (s.setLine (fun l => { l with next := some r.lineConfig })).settleLine := by
  simp only [lineConfigRow, settled]
  exact (judged_miss (by simp [on, same])).trans (judged_miss up)

section LineConfig
variable {t : Nat} {p : Port} {s : State} {q : Request} (up : s.lineDown = false) (called : lineConfigRow.calls t p s q = true)
  (on : (s.chan (Req.of p q).lineConfig.coupling).enabled = true) (same : (Req.of p q).lineConfig.mode = s.line.config.mode)
include up called on same

theorem lineConfig_answers (settled : (s.taken t p).settleLine = s.taken t p) {P : State → Prop}
    (after : P ((s.taken t p).setLine (fun l => { l with next := some (Req.of p q).lineConfig })).settleLine) :
    Answers (.lineConfig t p) s (Req.of p q) stOk [] P :=
  ⟨_, ends_of_body rfl called (lineConfigRow_sets settled (by simpa using up) (by simpa using on) (by simpa using same)), after⟩

variable (silent : s.line.sfskFlight = none)
include silent

/-- With no frame in flight LINE_CONFIG takes effect at once (R277). -/
theorem lineConfig_applies (free : s.line.flight = none) (next : s.line.next = none) :
    Answers (.lineConfig t p) s (Req.of p q) stOk [] (fun u =>
      u.line.config = (Req.of p q).lineConfig ∧ u.line.next = none ∧ u.line.queue = s.line.queue ∧
      ((Req.of p q).lineConfig.coupling = s.line.config.coupling → u.line.neighbours = s.line.neighbours) ∧
      u = { s.taken t p with line := u.line, mesh := { (s.taken t p).mesh with dirty := u.mesh.dirty } }) := by
  refine lineConfig_answers up called on same (State.settleLine_of_next_none (by simpa using silent) (by simpa using next)) ?_
  rw [State.settleLine_of_next (by simpa using silent) (by simpa using free) rfl]
  exact ⟨rfl, rfl, by simp [LineState.apply], fun coupled => by simp [LineState.apply, coupled], rfl⟩

/-- With one in flight the configuration waits for its end (R278). -/
theorem lineConfig_waits (sending : s.line.flight.isSome = true) :
    Answers (.lineConfig t p) s (Req.of p q) stOk [] (fun u =>
      u.line.config = s.line.config ∧ u.line.next = some (Req.of p q).lineConfig ∧ u = { s.taken t p with line := u.line }) := by
  refine lineConfig_answers up called on same (State.settleLine_of_flight (by simpa using silent) (by simpa using sending)) ?_
  rw [State.settleLine_of_flight (by simpa using silent) (by simpa using sending)]
  exact ⟨by simp, rfl, rfl⟩

end LineConfig

/-! ### TONEMAP (R296) -/

/-- What pinning a map sets in a slot: the map and the next version, at this instant. -/
def State.pinned (s : State) (n : Neighbour) (m : List (Option (List Nat))) : Neighbour :=
  { n with pinned := true, txMap := some { version := (n.txVersion + 1) % 16, entries := m }, txVersion := (n.txVersion + 1) % 16,
           updated := s.stampNow, usedAt := s.now }

section Tonemap
variable {r : Req} {s : State} (up : s.lineDown = false) {n : Neighbour} (named : s.neighbourAt r.handle = some n)
  (held : s.neighbour n.node = some n)
include up

theorem tonemapReadRow_reads : tonemapReadRow.body r s = .done stOk (s.toneReply r.handle) s := judged_miss up

include named held

theorem tonemapPinRow_pins {m : List (Option (List Nat))} (map : readMap ((r.payload.drop 4).take 32) = some m) :
    ∃ reply u, tonemapPinRow.body r s = .done stOk reply u ∧ u.neighbour n.node = some (s.pinned n m) := by
  refine ⟨_, _, (judged_miss up).trans (by simp only [named, map]; rfl), ?_⟩
  rw [State.evictMaps_neighbour, State.neighbour_setNeighbour_self, held, Option.map_some]
  · rfl
  · exact fun _ => rfl

theorem tonemapUnpinRow_unpins :
    ∃ reply u, tonemapUnpinRow.body r s = .done stOk reply u ∧ u.neighbour n.node = some { n with pinned := false } := by
  refine ⟨_, _, (judged_miss up).trans (by simp only [named]; rfl), ?_⟩
  rw [State.neighbour_setNeighbour_self, held, Option.map_some]
  exact fun _ => rfl

end Tonemap

/-! ### PRIVILEGE_SET (R298) -/

/-- How many slots besides the one of a handle are privileged. -/
def State.privilegedBeside (s : State) (h : Nat) : Nat := (s.line.neighbours.filter (fun n => n.privileged && n.handle ≠ h)).length

/-- A slot gets a privilege, or loses it. -/
def LineState.privilege (l : LineState) (h : Nat) (on : Bool) : LineState :=
  { l with neighbours := alterWhere l.neighbours (fun n => n.handle = h) (fun n => { n with privileged := on }) }

theorem LineState.privilege_sets {l : LineState} {h : Nat} {on : Bool} {n : Neighbour} (mem : n ∈ (l.privilege h on).neighbours)
    (mine : n.handle = h) : n.privileged = on := by
  obtain ⟨old, -, rfl⟩ := List.mem_map.1 mem
  by_cases named : old.handle = h
  · simp [named]
  · simp [named] at mine

theorem LineState.privilege_keeps {l : LineState} {h : Nat} {on : Bool} {n : Neighbour} (mem : n ∈ l.neighbours) (other : n.handle ≠ h) :
    n ∈ (l.privilege h on).neighbours := List.mem_map.2 ⟨n, mem, if_neg (by simpa using other)⟩

section Privilege
variable {r : Req} {s : State}

@[simp] theorem State.taken_privilegedBeside (t : Nat) (p : Port) (h : Nat) : (s.taken t p).privilegedBeside h = s.privilegedBeside h := by
  simp [State.privilegedBeside]

theorem privilegeSetRow_noResource (full : 16 ≤ s.privilegedBeside r.handle) : privilegeSetRow.body r s = .done stNoResource [] s :=
  judged_hit (decide_eq_true full)

variable (up : s.lineDown = false)
include up

theorem privilegeSetRow_sets (room : s.privilegedBeside r.handle < 16) :
    privilegeSetRow.body r s = .done stOk [] (s.setLine (fun l => l.privilege r.handle true)) :=
  (judged_miss (decide_eq_false (Nat.not_le.2 room))).trans (judged_miss up)

theorem privilegeClearRow_clears : privilegeClearRow.body r s = .done stOk [] (s.setLine (fun l => l.privilege r.handle false)) := judged_miss up

end Privilege

/-! ### LINE_STATS (R304, R331, R496) -/

section LineStats
variable {r : Req} {s : State}

theorem lineStatsNeighbourRow_reads {n : Neighbour} (named : s.neighbourAt r.handle = some n) : lineStatsNeighbourRow.body r s = .done stOk
    (n.counters.flatMap (le 4) ++ octets [n.aLink] ++ leInt 1 n.reported ++ zeros 2 ++ le 8 n.lastValid) s := by
  simp only [lineStatsNeighbourRow, named]

theorem lineStatsSfskFramesRow_wrongState (other : s.lineNow.mode ≠ 2) : lineStatsSfskFramesRow.body r s = .done stWrongState [] s :=
  judged_hit (decide_eq_true other)

/-- The frames returned, 15 at most, are released. -/
theorem lineStatsSfskFramesRow_reads (sfsk : s.lineNow.mode = 2) : lineStatsSfskFramesRow.body r s = .done stOk
    (octets [(s.line.sfsk.take 15).length] ++ zeros 3 ++ (s.line.sfsk.take 15).flatMap SfskFrame.record)
    (s.setLine (fun x => { x with sfsk := x.sfsk.drop 15 })) :=
  judged_miss (decide_eq_false (not_not.2 sfsk))

theorem lineStatsResponseRow_wrongState (gone : s.mesh.responses.find? (fun x => x.tag = r.u 2 2) = none) :
    lineStatsResponseRow.body r s = .done stWrongState [] s := by
  simp only [lineStatsResponseRow, gone, refuse]

theorem lineStatsResponseRow_reads {x : HeldResponse} (held : s.mesh.responses.find? (fun x => x.tag = r.u 2 2) = some x) :
    lineStatsResponseRow.body r s = .done stOk (le 2 x.tag ++ le 2 x.node ++ le 2 x.data.length ++ zeros 2 ++ x.data)
      (s.setMesh (fun m => { m with responses := m.responses.filter (fun y => y.tag ≠ x.tag) })) := by
  simp only [lineStatsResponseRow, held]

end LineStats

/-! ### LINE_SEND in S-FSK mode (R303) -/

section LineSendSfsk
variable {r : Req} {s : State} (silent : s.line.sfskFlight = none) (next : s.line.next = none)
include silent next

/-- One transmission is the next to start, and four more are held (R303). -/
theorem lineSendSfskRow_busy (full : 5 ≤ s.line.sfskQueue.length) : lineSendSfskRow.body r s = .done stBusy [] s := by
  simp only [lineSendSfskRow, State.settleLine_of_next_none silent next]
  exact judged_hit (decide_eq_true (by simpa [silent, ofBool] using full))

theorem lineSendSfskRow_queues (up : s.lineDown = false) (room : s.line.sfskQueue.length < 5) : lineSendSfskRow.body r s = .done stOk []
    (s.setLine (fun l => { l with sfskQueue := l.sfskQueue ++ [(r.u 4 2, r.payload.drop 8, s.now)] })) := by
  simp only [lineSendSfskRow, State.settleLine_of_next_none silent next]
  exact (judged_miss (decide_eq_false (by simpa [silent, ofBool] using room))).trans (judged_miss up)

end LineSendSfsk

end Sys2Proof.Machine
end

section
/-! SUPPORT. The requests to the line modem: the obligation, from the lemmas on each. -/

open Sys2Proof.Machine

/-- Settles O41: each request by its row's rules; a change of the configuration waits for the frame in flight. -/
theorem lineRequests : Obligations.LineRequests := by
  unfold Obligations.LineRequests
  intro t p s q r c u₀ up
  have upTaken : u₀.lineDown = false := by simpa [u₀] using up
  refine ⟨fun called silent on same => ⟨lineConfig_applies up called on same silent, lineConfig_waits up called on same silent⟩,
    fun called => ends_of_body rfl called (tonemapReadRow_reads upTaken), fun n m named held map called => ?_, fun n named held called => ?_,
    fun called => ⟨fun full => ?_, fun room => ?_⟩, fun called => ?_, fun n named called => ?_, fun called => ?_,
    fun called => ⟨fun sfsk => ?_, fun other => ?_⟩, fun called => ⟨fun x held => ?_, fun gone => ?_⟩,
    fun called silent next => ⟨fun full => ?_, fun room => ?_⟩⟩
  · obtain ⟨reply, u, body, pinned⟩ := tonemapPinRow_pins upTaken (r := r) (by simpa [u₀] using named) (by simpa [u₀] using held) map
    exact ⟨reply, u, ends_of_body rfl called body, _, pinned, rfl, rfl, rfl, rfl⟩
  · obtain ⟨reply, u, body, unpinned⟩ := tonemapUnpinRow_unpins upTaken (r := r) (by simpa [u₀] using named) (by simpa [u₀] using held)
    exact ⟨reply, u, ends_of_body rfl called body, _, unpinned, rfl⟩
  · exact ends_of_body rfl called (privilegeSetRow_noResource (by rwa [State.taken_privilegedBeside]))
  · exact ⟨_, ends_of_body rfl called (privilegeSetRow_sets upTaken (by rwa [State.taken_privilegedBeside])),
      fun n mem mine => LineState.privilege_sets mem mine, fun n mem other => LineState.privilege_keeps (by simpa using mem) other, rfl⟩
  · exact ⟨_, ends_of_body rfl called (privilegeClearRow_clears upTaken), fun n mem mine => LineState.privilege_sets mem mine, rfl⟩
  · exact ends_of_body rfl called (lineStatsNeighbourRow_reads (by simpa using named))
  · exact ends_of_body rfl called (by simp [lineStatsCountersRow, u₀])
  · have body := lineStatsSfskFramesRow_reads (r := r) sfsk
    simp only [u₀, State.take_line, State.tickTo_line] at body
    exact ⟨_, ends_of_body rfl called body, by simp [u₀, State.setLine]⟩
  · exact ends_of_body rfl called (lineStatsSfskFramesRow_wrongState other)
  · exact ⟨_, ends_of_body rfl called (lineStatsResponseRow_reads (by simpa [u₀] using held)), by simp, rfl⟩
  · exact ends_of_body rfl called (lineStatsResponseRow_wrongState (by simpa using gone))
  · exact ends_of_body rfl called (lineSendSfskRow_busy (by simpa using silent) (by simpa using next) (by simpa using full))
  · have body := lineSendSfskRow_queues (s := u₀) (r := r) (by simpa [u₀] using silent) (by simpa [u₀] using next) upTaken
      (by simpa [u₀] using room)
    exact ⟨_, ends_of_body rfl called body, by simp [u₀, State.setLine]⟩

end

section
/-! SUPPORT. The line modem between its events: what the settling of the line, the noise judged in idle half cycles and a failed attempt leave
(R278, R292, R329). -/

namespace Sys2Proof.Machine

/-! ### The settling of the line (R278) -/

section Settled
variable (s : State)

@[simp] theorem State.settleLine_phase : s.settleLine.phase = s.phase := by rw [State.settleLine_frame]
@[simp] theorem State.settleLine_now : s.settleLine.now = s.now := by rw [State.settleLine_frame]
@[simp] theorem State.settleLine_clock : s.settleLine.clock = s.clock := by rw [State.settleLine_frame]
@[simp] theorem State.settleLine_dies : s.settleLine.dies = s.dies := by rw [State.settleLine_frame]
@[simp] theorem State.settleLine_tracker : s.settleLine.tracker = s.tracker := by rw [State.settleLine_frame]
@[simp] theorem State.settleLine_meas : s.settleLine.meas = s.meas := by rw [State.settleLine_frame]
@[simp] theorem State.settleLine_mesh_nodes : s.settleLine.mesh.nodes = s.mesh.nodes := by rw [State.settleLine_frame]
@[simp] theorem State.settleLine_mesh_flights : s.settleLine.mesh.flights = s.mesh.flights := by rw [State.settleLine_frame]
@[simp] theorem State.settleLine_queue : s.settleLine.line.queue = s.line.queue := by rw [State.settleLine_frame]
@[simp] theorem State.settleLine_flight : s.settleLine.line.flight = s.line.flight := by rw [State.settleLine_frame]
@[simp] theorem State.settleLine_receiving : s.settleLine.line.receiving = s.line.receiving := by rw [State.settleLine_frame]
@[simp] theorem State.settleLine_protection : s.settleLine.line.protection = s.line.protection := by rw [State.settleLine_frame]
@[simp] theorem State.settleLine_counters : s.settleLine.line.counters = s.line.counters := by rw [State.settleLine_frame]
@[simp] theorem State.settleLine_anchor : s.settleLine.line.anchor = s.line.anchor := by rw [State.settleLine_frame]
@[simp] theorem State.settleLine_half : s.settleLine.line.half = s.line.half := by rw [State.settleLine_frame]
@[simp] theorem State.settleLine_predicted : s.settleLine.line.predicted = s.line.predicted := by rw [State.settleLine_frame]
@[simp] theorem State.settleLine_sfsk : s.settleLine.line.sfsk = s.line.sfsk := by rw [State.settleLine_frame]
@[simp] theorem State.settleLine_sfskQueue : s.settleLine.line.sfskQueue = s.line.sfskQueue := by rw [State.settleLine_frame]

@[simp] theorem State.settleLine_lineRuns : s.settleLine.lineRuns = s.lineRuns := by simp [State.lineRuns]

@[simp] theorem State.settleLine_lineDown : s.settleLine.lineDown = s.lineDown := by simp [State.lineDown, State.linkLost, State.die]

@[simp] theorem State.settleLine_admitted (a : Nat) : s.settleLine.admitted a = s.admitted a := by simp [State.admitted]

@[simp] theorem State.settleLine_toModem (tick : Nat) : s.settleLine.toModem tick = s.toModem tick := by simp [State.toModem, State.modemRate]

@[simp] theorem State.settleLine_predictedNext : s.settleLine.predictedNext = s.predictedNext := by
  simp [State.predictedNext, State.ofModem, State.modemRate]

variable (t : Nat)

@[simp] theorem State.tickTo_lineRuns : (s.tickTo t).lineRuns = s.lineRuns := rfl
@[simp] theorem State.tickTo_lineDown : (s.tickTo t).lineDown = s.lineDown := rfl
@[simp] theorem State.tickTo_admitted (a : Nat) : (s.tickTo t).admitted a = s.admitted a := rfl
@[simp] theorem State.tickTo_toModem (tick : Nat) : (s.tickTo t).toModem tick = s.toModem tick := rfl
@[simp] theorem State.tickTo_predictedNext : (s.tickTo t).predictedNext = s.predictedNext := rfl

end Settled

/-! ### The addresses of the neighbour slots (R309) -/

/-- The nodes that hold a neighbour slot, in the order of the slots. -/
def State.addresses (s : State) : List Nat := s.line.neighbours.map (fun n => n.node)

theorem State.neighbour_isSome {s : State} {a : Nat} : (s.neighbour a).isSome = true ↔ a ∈ s.addresses := by
  simp [State.neighbour, State.addresses]

@[simp] theorem State.tickTo_addresses (s : State) (t : Nat) : (s.tickTo t).addresses = s.addresses := rfl

theorem LineState.apply_addresses (l : LineState) (c : LineConfig) :
    (l.apply c).neighbours.map (fun n => n.node) = l.neighbours.map (fun n => n.node) := by
  unfold LineState.apply
  dsimp only
  split
  · rfl
  · rw [List.map_map]
    rfl

@[simp] theorem State.settleLine_addresses (s : State) : s.settleLine.addresses = s.addresses := by
  unfold State.settleLine
  dsimp only
  (repeat' split) <;> simp [State.addresses, LineState.vacated, LineState.apply_addresses]

/-! ### The receiver between frames (R292, R297) -/

/-- A state without its line: what the receiver never changes. -/
def State.lineless (s : State) : State := { s with line := {} }

theorem State.eq_of_lineless {u v : State} (same : u.lineless = v.lineless) : u = { v with line := u.line } := by
  calc u = { u.lineless with line := u.line } := rfl
    _ = { v.lineless with line := u.line } := by rw [same]

@[simp] theorem State.setLine_lineless (s : State) (f : LineState → LineState) : (s.setLine f).lineless = s.lineless := rfl

@[simp] theorem State.lineCount_lineless (s : State) (index n : Nat) : (s.lineCount index n).lineless = s.lineless := rfl

theorem State.judgeHalf_lineless (s : State) (h : Nat × Rat × List Int) : (s.judgeHalf h).lineless = s.lineless := by
  simp only [State.judgeHalf, State.receiveSlots, State.setLine_lineless, State.lineCount_lineless]

@[simp] theorem State.judgeBefore_lineless (s : State) (tick : Nat) : (s.judgeBefore tick).lineless = s.lineless :=
  foldl_keeps State.lineless _ State.judgeHalf_lineless _ _

@[simp] theorem State.hearHalfCycle_lineless (s : State) (samples : List Int) : (s.hearHalfCycle samples).lineless = s.lineless := by
  unfold State.hearHalfCycle
  dsimp only
  (repeat' split)
  · rfl
  · rfl
  · exact foldl_keeps State.lineless _ State.judgeHalf_lineless _ _
  · rfl

/-- Whether a frame is being received, by which configuration, and from which neighbours it can come. -/
def State.reception (s : State) : Bool × LineConfig × List Nat := (s.line.receiving, s.line.config, s.addresses)

theorem State.judgeHalf_reception (s : State) (h : Nat × Rat × List Int) : (s.judgeHalf h).reception = s.reception := by
  have kept : (s.judgeHalf h).addresses = s.addresses := by
    simp [State.addresses, State.judgeHalf, State.receiveSlots, State.lineCount, Neighbour.hearIdle]
  unfold State.reception
  rw [kept]
  rfl

theorem State.judgeBefore_reception (s : State) (tick : Nat) : (s.judgeBefore tick).reception = s.reception :=
  foldl_keeps State.reception _ State.judgeHalf_reception _ _

/-! ### The transmitter while an attempt fails (R302, R329) -/

/-- The frame on the line from the part, and whether the driver's protection acts. -/
def State.driver (s : State) : Option Flight × Bool := (s.line.flight, s.line.protection)

theorem State.driver_of_line {u s : State} (same : u.line = s.line) : u.driver = s.driver := by rw [State.driver, same, ← State.driver]

theorem State.driver_ite {c : Prop} [Decidable c] (a b : State) : (if c then a else b).driver = if c then a.driver else b.driver :=
  apply_ite State.driver c a b

@[simp] theorem State.raise_driver (s : State) (source time : Nat) (body : List Byte) : (s.raise source time body).driver = s.driver :=
  State.driver_of_line (s.raise_line ..)

@[simp] theorem State.completeOp_driver (s : State) (tag status : Nat) (detail : List Byte) :
    (s.completeOp tag status detail).driver = s.driver := State.driver_of_line (s.completeOp_line ..)

@[simp] theorem State.setMesh_driver (s : State) (f : MeshState → MeshState) : (s.setMesh f).driver = s.driver := rfl

@[simp] theorem State.setNeighbour_driver (s : State) (a : Nat) (f : Neighbour → Neighbour) : (s.setNeighbour a f).driver = s.driver := by
  rw [State.driver, State.setNeighbour_line, ← State.driver]

@[simp] theorem State.settleLine_driver (s : State) : s.settleLine.driver = s.driver := by simp [State.driver]

@[simp] theorem State.lineCount_driver (s : State) (index n : Nat) : (s.lineCount index n).driver = s.driver := rfl

@[simp] theorem State.discover_driver (s : State) (a : Nat) : (s.discover a).driver = s.driver := by
  simp [State.discover, State.setNode, ↓State.driver_ite]

@[simp] theorem State.failFlight_driver (s : State) (x : Transaction) (status : Nat) : (s.failFlight x status).driver = s.driver := by
  unfold State.failFlight
  split <;> simp [State.setNode, State.dropFlight, ↓State.driver_ite]

@[simp] theorem State.raiseLevel_driver (s : State) (a by_ : Nat) : (s.raiseLevel a by_).driver = s.driver := by
  unfold State.raiseLevel
  split <;> simp [↓State.driver_ite]

@[simp] theorem State.failAttempt_driver (s : State) (x : Transaction) (routeError : Bool) : (s.failAttempt x routeError).driver = s.driver := by
  simp [State.failAttempt, State.setFlight, ↓State.driver_ite]

/-- The frame in flight stops (Table 9.9). -/
@[simp] theorem State.stopFlight_driver (s : State) : s.stopFlight.driver = (none, s.line.protection) := by
  have stopped : (s.setLine (fun l => { l.vacated true s.now with flight := none, sfskFlight := none })).driver = (none, s.line.protection) := rfl
  unfold State.stopFlight
  dsimp only
  (repeat' split) <;> simp [stopped]

/-! ### The last sighting of a neighbour (R290, R316) -/

/-- Whether a frame is being received, and of a neighbour when its last valid frame came and whether it is silent. -/
def State.sighting (s : State) (a : Nat) : Bool × Option (Nat × Bool) :=
  (s.line.receiving, (s.neighbour a).map (fun n => (n.validAt, n.silent)))

theorem State.sighting_of_line {u s : State} (same : u.line = s.line) (a : Nat) : u.sighting a = s.sighting a := by
  rw [State.sighting, same, State.neighbour_of_line same, ← State.sighting]

theorem State.sighting_ite {c : Prop} [Decidable c] (u v : State) (a : Nat) :
    (if c then u else v).sighting a = if c then u.sighting a else v.sighting a := apply_ite (fun s => State.sighting s a) c u v

@[simp] theorem State.raise_sighting (s : State) (source time : Nat) (body : List Byte) (a : Nat) :
    (s.raise source time body).sighting a = s.sighting a := State.sighting_of_line (s.raise_line ..) a

@[simp] theorem State.setMesh_sighting (s : State) (f : MeshState → MeshState) (a : Nat) : (s.setMesh f).sighting a = s.sighting a := rfl

@[simp] theorem State.lineCount_sighting (s : State) (index n a : Nat) : (s.lineCount index n).sighting a = s.sighting a := rfl

/-- A change of a slot that leaves its node and its last valid frame leaves the sighting. -/
@[simp] theorem State.setNeighbour_sighting (s : State) (a b : Nat) {f : Neighbour → Neighbour} (same : ∀ n, (f n).node = n.node)
    (valid : ∀ n, (f n).validAt = n.validAt) (silent : ∀ n, (f n).silent = n.silent) : (s.setNeighbour a f).sighting b = s.sighting b := by
  have kept : ∀ n : Neighbour, ((if n.node = a then f n else n).validAt, (if n.node = a then f n else n).silent) = (n.validAt, n.silent) :=
    fun n => by split <;> simp [valid, silent]
  simp only [State.sighting, State.setNeighbour_line, State.neighbour_setNeighbour same, Option.map_map, Function.comp_def, kept]

@[simp] theorem State.evictMaps_receiving (s : State) (keep : Nat) : (s.evictMaps keep).line.receiving = s.line.receiving := by
  unfold State.evictMaps
  dsimp only
  (repeat' split) <;> simp [State.setNeighbour_line]

@[simp] theorem State.evictMaps_sighting (s : State) (keep : Nat) : (s.evictMaps keep).sighting keep = s.sighting keep := by
  simp [State.sighting]

@[simp] theorem State.raiseLevel_sighting (s : State) (a by_ b : Nat) : (s.raiseLevel a by_).sighting b = s.sighting b := by
  unfold State.raiseLevel
  split <;> simp [↓State.sighting_ite]

@[simp] theorem State.measureDelta_sighting (s : State) (a start : Nat) (f : RxFrame) (b : Nat) :
    (s.measureDelta a start f).sighting b = s.sighting b := by
  simp [State.measureDelta, ↓State.sighting_ite]

/-- A frame that joins the transmit queue, and one that waits for P1, leave what is received. -/
theorem State.setLine_sighting {s : State} {f : LineState → LineState} (receiving : (f s.line).receiving = s.line.receiving)
    (neighbours : (f s.line).neighbours = s.line.neighbours) (a : Nat) : (s.setLine f).sighting a = s.sighting a := by
  simp [State.sighting, State.neighbour, receiving, neighbours]

@[simp] theorem State.issueMap_sighting (s : State) (a : Nat) (f : RxFrame) (forced : Bool) :
    (s.issueMap a f forced).sighting a = s.sighting a := by
  unfold State.issueMap
  split
  · rfl
  · simp [State.setLine_sighting, ↓State.sighting_ite]

@[simp] theorem State.mapReceived_sighting (s : State) (a : Nat) (data : List Byte) : (s.mapReceived a data).sighting a = s.sighting a := by
  unfold State.mapReceived
  split <;> simp [↓State.sighting_ite]

@[simp] theorem State.authFails_sighting (s : State) (origin a : Nat) : (s.authFails origin).sighting a = s.sighting a := by
  unfold State.authFails
  dsimp only
  split
  · simp [State.meshCount]
  · simp [State.meshCount, State.setNode]

@[simp] theorem State.openFrame_sighting (s : State) (data : List Byte) (a : Nat) : (s.openFrame data).sighting a = s.sighting a := by
  unfold State.openFrame
  dsimp only
  (repeat' split)
  · rfl
  · exact State.authFails_sighting ..
  · exact State.authFails_sighting ..
  · exact State.authFails_sighting ..
  · exact State.setLine_sighting rfl rfl a

@[simp] theorem State.acceptFrame_sighting (s : State) (data : List Byte) (a : Nat) : (s.acceptFrame data).sighting a = s.sighting a := by
  unfold State.acceptFrame
  split
  · exact State.setLine_sighting rfl rfl a
  · exact State.openFrame_sighting ..

/-- A change of a slot that notes a valid frame. -/
theorem State.setNeighbour_sighting_self (s : State) (a : Nat) {f : Neighbour → Neighbour} {now : Nat} (same : ∀ n, (f n).node = n.node)
    (valid : ∀ n, (f n).validAt = now) (silent : ∀ n, (f n).silent = false) :
    (s.setNeighbour a f).sighting a = ((s.sighting a).1, (s.sighting a).2.map (fun _ => (now, false))) := by
  simp [State.sighting, State.setNeighbour_line, State.neighbour_setNeighbour_self same, Function.comp_def, valid, silent]

/-- A neighbour's valid frame ends its silence (R290, R316). -/
theorem State.heard_sighting {s : State} {a : Nat} (held : a ∈ s.addresses) (start : Nat) (f : RxFrame) (data : List Byte) :
    (s.heard a start f data).sighting a = (s.line.receiving, some (s.now, false)) := by
  obtain ⟨n, found⟩ := Option.isSome_iff_exists.1 (State.neighbour_isSome.2 held)
  have slot : (s.lineCount 1 1).assignSlot a = s.lineCount 1 1 := by simp [State.assignSlot, found]
  have seen : s.sighting a = (s.line.receiving, some (n.validAt, n.silent)) := by simp [State.sighting, found]
  unfold State.heard
  rw [slot]
  extract_lets noted mapped
  have heard : noted.sighting a = (s.line.receiving, some (s.now, false)) := by
    refine (State.setNeighbour_sighting_self _ a (now := s.now) ?_ ?_ ?_).trans (by simp [seen]) <;> exact fun _ => rfl
  split <;> simp [mapped, heard]

end Sys2Proof.Machine
end

section
/-! SUPPORT. The modem's events: anchors, frames sent, the driver, frames received, the erasure window and S-FSK (R281-R305). -/

namespace Sys2Proof.Machine

/-! ### The anchor predicted next (R281, R282) -/

theorem le_ceilRat (x : Rat) : x ≤ (ceilRat x : Rat) := by
  have below := Rat.floor_le (-x)
  unfold ceilRat
  push_cast
  linarith

theorem Tracker.meanPeriod_pos {x : Tracker} (running : 0 < x.period) : 0 < x.meanPeriod := by
  have period : (0 : Rat) < x.period := by exact_mod_cast running
  unfold Tracker.meanPeriod
  split
  · exact period
  · push_cast
    positivity

/-- The first term, at or after the origin, of a series that reaches a bound lies at the bound or beyond. -/
theorem le_series {origin least period : Rat} (positive : 0 < period) :
    least ≤ origin + ((max 0 (ceilRat ((least - origin) * 2 / period)) : Int) : Rat) * period / 2 := by
  have steps : (least - origin) * 2 / period ≤ ((max 0 (ceilRat ((least - origin) * 2 / period)) : Int) : Rat) :=
    (le_ceilRat _).trans (by exact_mod_cast le_max_right _ _)
  rw [div_le_iff₀ positive] at steps
  linarith

/-- The anchor that S predicts lies at least 5 ms ahead (R282). -/
theorem State.nextAnchor_ahead {s : State} (running : 0 < s.tracker.period) (phase : Rat) :
    ((512 * (s.now + 5 * Config.ms) : Nat) : Rat) ≤ (s.nextAnchor phase).1 :=
  (le_max_left _ _).trans (le_series (Tracker.meanPeriod_pos running))

/-! ### Anchors (R283, R285) -/

section Anchors
variable {t : Nat} {s : State}

theorem execAnchorPrediction_predicts {phase : Rat} (able : (s.tickTo t).settleLine.canPredict = true)
    (known : (s.tickTo t).settleLine.anchorPhase = some phase) : execAnchorPrediction t s = .next
      ((s.tickTo t).settleLine.setLine (fun l => { l with
        predicted := l.predicted ++ [((s.tickTo t).settleLine.toModem (((s.tickTo t).settleLine.nextAnchor phase).1 / 512).floor.toNat,
          ((s.tickTo t).settleLine.nextAnchor phase).2, (s.tickTo t).settleLine.tracker.meanPeriod / 1024)] })) := by
  simp only [execAnchorPrediction, able, known, Bool.not_true, Bool.false_eq_true, if_false]

theorem anchorPrediction_leads {phase : Rat} (able : (s.tickTo t).settleLine.canPredict = true)
    (known : (s.tickTo t).settleLine.anchorPhase = some phase) : Leads (.anchorPrediction t) s (fun u =>
      u.line.predicted = s.line.predicted ++ [(s.toModem (((s.tickTo t).settleLine.nextAnchor phase).1 / 512).floor.toNat,
        ((s.tickTo t).settleLine.nextAnchor phase).2, s.tracker.meanPeriod / 1024)] ∧
      ((512 * (max s.now t + 5 * Config.ms) : Nat) : Rat) ≤ ((s.tickTo t).settleLine.nextAnchor phase).1 ∧
      u = { (s.tickTo t).settleLine with line := { (s.tickTo t).settleLine.line with predicted := u.line.predicted } }) := by
  refine ⟨_, execAnchorPrediction_predicts able known, by simp, ?_, rfl⟩
  have running : 0 < (s.tickTo t).settleLine.tracker.period := by
    simp only [State.canPredict, Bool.and_eq_true, decide_eq_true_eq] at able
    tauto
  have ahead := State.nextAnchor_ahead running phase
  rwa [State.settleLine_now, State.tickTo_now_eq] at ahead

variable (runs : s.lineRuns = true)
include runs

theorem execAnchor_predicted {a : Nat} {b : Bool} {h : Rat} {rest : List (Nat × Bool × Rat)} {line : List Int}
    (next : s.predictedNext = some ((a, b, h), rest)) (reached : a ≤ max s.now t) : execAnchor t b line s = .next
      ((((s.tickTo t).settleLine.hearHalfCycle line).passAnchor a b h).setLine (fun l => { l with
        predicted := rest, freeRun := false, validRun := min 10 (l.validRun + 1) })) := by
  simp [execAnchor, runs, next, reached]

theorem execAnchor_freeRuns {a : Nat} {b : Bool} {line : List Int} (missing : s.predictedNext = none) (last : s.line.anchor = some (a, b))
    (reached : a + s.line.half.floor.toNat ≤ max s.now t) : execAnchor t (!b) line s = .next
      ((((s.tickTo t).settleLine.hearHalfCycle line).passAnchor (a + s.line.half.floor.toNat) (!b) s.line.half).setLine (fun l => { l with
        validRun := 0, freeSince := if l.freeRun then l.freeSince else a + s.line.half.floor.toNat, freeRun := true })) := by
  simp [execAnchor, runs, missing, last, reached]

theorem anchor_predicted {a : Nat} {b : Bool} {h : Rat} {rest : List (Nat × Bool × Rat)} {line : List Int}
    (next : s.predictedNext = some ((a, b, h), rest)) (reached : a ≤ max s.now t) : Leads (.anchor t b line) s (fun u =>
      u.line.anchor = some (a, b) ∧ u.line.zcOut = b ∧ u.line.half = h ∧ u.line.predicted = rest ∧ u.line.freeRun = false ∧
      u = { (s.tickTo t).settleLine with line := u.line }) :=
  ⟨_, execAnchor_predicted runs next reached, rfl, rfl, rfl, rfl, rfl, State.eq_of_lineless (by simp [State.passAnchor])⟩

theorem anchor_freeRuns {a : Nat} {b : Bool} {line : List Int} (missing : s.predictedNext = none) (last : s.line.anchor = some (a, b))
    (reached : a + s.line.half.floor.toNat ≤ max s.now t) : Leads (.anchor t (!b) line) s (fun u =>
      u.line.anchor = some (a + s.line.half.floor.toNat, !b) ∧ u.line.zcOut = (!b) ∧ u.line.half = s.line.half ∧ u.line.freeRun = true ∧
      u.line.validRun = 0 ∧ u = { (s.tickTo t).settleLine with line := u.line }) :=
  ⟨_, execAnchor_freeRuns runs missing last reached, rfl, rfl, rfl, rfl, rfl, State.eq_of_lineless (by simp [State.passAnchor])⟩

theorem freeRunTimeout_leads (free : s.line.freeRun = true) (all : s.line.defaultOnly = false)
    (passed : s.line.freeSince + 2 * secTicks ≤ max s.now t) : Leads (.freeRunTimeout t) s (fun u => u.line.defaultOnly = true) :=
  ⟨_, congrArg Host.Outcome.next (if_pos (by simp [runs, free, all, passed])), by simp⟩

theorem anchorResume_leads (only : s.line.defaultOnly = true) (valid : 10 ≤ s.line.validRun) :
    Leads (.anchorResume t) s (fun u => u.line.defaultOnly = false) :=
  ⟨_, congrArg Host.Outcome.next (if_pos (by simp [runs, only, valid])), by simp⟩

end Anchors

/-! ### Sending (R286, R302) -/

@[simp] theorem Flight.continue_frame (x : Flight) (start : Nat) (half : Rat) (ceiling : List Nat) :
    (x.continue_ start half ceiling).frame = x.frame := by
  unfold Flight.continue_
  split <;> rfl

@[simp] theorem Flight.continue_startAt (x : Flight) (start : Nat) (half : Rat) (ceiling : List Nat) :
    (x.continue_ start half ceiling).startAt = x.startAt := by
  unfold Flight.continue_
  split <;> rfl

/-- With no transaction in flight none is passed to the modem. -/
theorem State.pump_of_idle {s : State} (idle : s.mesh.flights = []) : s.pump = s := by simp [State.pump, idle]

theorem State.flight_of_idle {s : State} (idle : s.mesh.flights = []) (id : Nat) : s.flight id = none := by simp [State.flight, idle]

@[simp] theorem State.setNeighbour_flights (s : State) (a : Nat) (f : Neighbour → Neighbour) :
    (s.setNeighbour a f).mesh.flights = s.mesh.flights := by
  rw [State.setNeighbour_frame]

/-- A frame that starts leaves the queue, and is in flight from this instant (R286). -/
theorem State.launch_line (s : State) (f : TxFrame) :
    (∃ x, (s.launch f).line.flight = some x ∧ x.frame = f ∧ x.startAt = s.now) ∧ (s.launch f).line.queue = s.line.queue.erase f := by
  unfold State.launch
  dsimp only
  split <;> simp [State.setFlight, State.setNeighbour_line]

theorem State.launch_flights {s : State} (idle : s.mesh.flights = []) (f : TxFrame) : (s.launch f).mesh.flights = [] := by
  unfold State.launch
  dsimp only
  split <;> simp [State.setFlight, alterWhere, idle]

theorem State.flight_of_mayTransmit {s : State} (may : s.mayTransmit = true) : s.line.flight = none := by
  simp only [State.mayTransmit, Bool.and_eq_true, Option.isNone_iff_eq_none] at may
  tauto

section Sending
variable {t : Nat} {s : State} {f : TxFrame} (native : (s.tickTo t).settleLine.line.config.mode = 1)
  (may : (s.tickTo t).settleLine.mayTransmit = true) (starts : (s.tickTo t).settleLine.startOf f = some (max s.now t))
include native may starts

theorem execFrameTransmit_starts (waits : s.line.queue.find? (fun f => !f.isMap) = some f) (noMap : (s.tickTo t).settleLine.dueMap = none) :
    execFrameTransmit t s = .next (if s.line.receiving then (s.tickTo t).settleLine.lineCount 8 1 else ((s.tickTo t).settleLine.launch f).pump) := by
  simp [execFrameTransmit, waits, native, may, noMap, starts]

theorem execMapFrameSend_starts (due : (s.tickTo t).settleLine.dueMap = some f) :
    execMapFrameSend t s = .next (if s.line.receiving then (s.tickTo t).settleLine.lineCount 8 1 else (s.tickTo t).settleLine.launch f) := by
  simp [execMapFrameSend, due, native, may, starts]

/-- While a frame is being received the modem waits (R302). -/
theorem frameTransmit_waits (waits : s.line.queue.find? (fun f => !f.isMap) = some f) (noMap : (s.tickTo t).settleLine.dueMap = none)
    (hears : s.line.receiving = true) : Leads (.frameTransmit t) s (fun u => u.line.flight = none ∧ u.line.queue = s.line.queue) :=
  ⟨_, (execFrameTransmit_starts native may starts waits noMap).trans (congrArg _ (if_pos hears)), State.flight_of_mayTransmit may, by simp⟩

variable (hears : s.line.receiving = false)
include hears

theorem frameTransmit_sends (idle : s.mesh.flights = []) (waits : s.line.queue.find? (fun f => !f.isMap) = some f)
    (noMap : (s.tickTo t).settleLine.dueMap = none) : Leads (.frameTransmit t) s (fun u =>
      (∃ x, u.line.flight = some x ∧ x.frame = f ∧ x.startAt = max s.now t) ∧ u.line.queue = s.line.queue.erase f) := by
  refine ⟨_, (execFrameTransmit_starts native may starts waits noMap).trans (congrArg _ (if_neg (by simp [hears]))), ?_⟩
  rw [State.pump_of_idle (State.launch_flights (by simpa using idle) f)]
  simpa using (s.tickTo t).settleLine.launch_line f

theorem mapFrameSend_sends (due : (s.tickTo t).settleLine.dueMap = some f) : Leads (.mapFrameSend t) s (fun u =>
    (∃ x, u.line.flight = some x ∧ x.frame = f ∧ x.startAt = max s.now t) ∧ u.line.queue = s.line.queue.erase f) := by
  refine ⟨_, (execMapFrameSend_starts native may starts due).trans (congrArg _ (if_neg (by simp [hears]))), ?_⟩
  simpa using (s.tickTo t).settleLine.launch_line f

end Sending

/-- The line after a frame sent: free, with the frame counted for the part and for its neighbour (Table 9.13). -/
def State.endFrame (s : State) (x : Flight) : State :=
  (if x.frame.isMap then ((s.setLine (fun l => { l.vacated true x.endAt with flight := none })).lineCount 0 1).lineCount 4 1
    else (s.setLine (fun l => { l.vacated true x.endAt with flight := none })).lineCount 0 1).setNeighbour x.frame.node
      (fun n => { n with counters := alter n.counters 0 (fun c => sat 32 (c + 1)) })

theorem State.endFrame_line (s : State) (x : Flight) : (s.endFrame x).line.flight = none ∧ (s.endFrame x).line.queue = s.line.queue ∧
    (0 < s.line.counters.length → nth (s.endFrame x).line.counters 0 = sat 32 (nth s.line.counters 0 + 1)) := by
  rw [State.endFrame, State.setNeighbour_line]
  cases x.frame.isMap with
  | false => exact ⟨rfl, rfl, nth_alter _ _ _⟩
  | true => exact ⟨rfl, rfl, fun counted => (nth_alter_ne _ _ _ _ (by decide)).trans (nth_alter _ _ _ counted)⟩

@[simp] theorem State.endFrame_flights (s : State) (x : Flight) : (s.endFrame x).mesh.flights = s.mesh.flights := by
  rw [State.endFrame, State.setNeighbour_flights]
  cases x.frame.isMap <;> rfl

section FrameSent
variable {t : Nat} {s : State} {x : Flight} (sending : s.line.flight = some x)
include sending

theorem frameSent_unfinished (more : max s.now t < x.endAt ∨ x.fixed ≠ [] ∨ x.symbols ≠ []) :
    exec (.frameSent t) s = .next (s.tickTo t) := by
  show execFrameSent t s = _
  simp only [execFrameSent, State.tickTo_line, sending]
  exact congrArg _ (if_pos (by simpa [or_assoc] using more))

variable (idle : s.mesh.flights = []) (ended : x.endAt ≤ max s.now t) (fixed : x.fixed = []) (symbols : x.symbols = [])
include idle ended fixed symbols

/-- All its half cycles sent, a frame leaves the line, and a configuration that waited for it comes into force (R278, R286). -/
theorem execFrameSent_ends : execFrameSent t s = .next ((s.tickTo t).endFrame x).settleLine := by
  have settled : ((s.tickTo t).endFrame x).settleLine.mesh.flights = [] := by simp [idle]
  have done : ¬((s.tickTo t).now < x.endAt) := Nat.not_lt.2 ended
  have none_ : ∀ id, ((s.tickTo t).endFrame x).flight id = none := State.flight_of_idle (by simp [idle])
  rw [← State.pump_of_idle settled]
  unfold State.endFrame at none_ ⊢
  simp only [execFrameSent, State.tickTo_line, sending, done, fixed, symbols, none_, List.isEmpty_nil, Bool.not_true, Bool.or_false, decide_false,
    Bool.false_eq_true, if_false]

theorem frameSent_leads : Leads (.frameSent t) s (fun u => u.line.flight = none ∧ u.line.queue = s.line.queue ∧
    (s.line.counters.length = 13 → nth u.line.counters 0 = sat 32 (nth s.line.counters 0 + 1))) := by
  obtain ⟨free, queue, counted⟩ := (s.tickTo t).endFrame_line x
  refine ⟨_, execFrameSent_ends sending idle ended fixed symbols, ?_, ?_, fun all => ?_⟩
  · rwa [State.settleLine_flight]
  · rwa [State.settleLine_queue]
  · rw [State.settleLine_counters]
    exact counted (by rw [State.tickTo_line, all]; decide)

end FrameSent

/-! ### The driver (R302) -/

theorem State.line_of_driver {s : State} {x : Option Flight} {acts : Bool} (same : s.driver = (x, acts)) :
    s.line.protection = acts ∧ s.line.flight = x := (Prod.mk.inj same).symm

section Driver
variable {t : Nat} {s : State} (runs : s.lineRuns = true)
include runs

theorem driverProtection_leads (off : s.line.protection = false) :
    Leads (.driverProtection t) s (fun u => u.line.protection = true ∧ u.line.flight = none) :=
  ⟨_, congrArg Host.Outcome.next (if_pos (by simp [runs, off])), State.line_of_driver (by simp)⟩

theorem driverProtectionClear_leads (on : s.line.protection = true) :
    Leads (.driverProtectionClear t) s (fun u => u.line.protection = false ∧ u.line.holdUntil = max s.now t + secTicks) :=
  ⟨_, congrArg Host.Outcome.next (if_pos (by simp [runs, on])), by simp⟩

end Driver

/-! ### Frames received (R287, R290, R302, R316) -/

theorem delimiterDetected_leads {t : Nat} {s : State} (runs : s.lineRuns = true) (native : (s.tickTo t).settleLine.line.config.mode = 1)
    (free : s.line.flight = none) : Leads (.delimiterDetected t) s (fun u => u = { (s.tickTo t).settleLine with
      line := { (s.tickTo t).settleLine.line.occupied false (max s.now t - (s.tickTo t).settleLine.spanOf 0 32) with receiving := true } }) :=
  ⟨_, congrArg Host.Outcome.next (if_pos (by simp [runs, native, free])), by simp [State.setLine]⟩

/-- What is counted of a frame whatever it holds: its slots, those erased, and its samples blanked (R297, R305). -/
def State.countSlots (s : State) (f : RxFrame) : State :=
  ((s.setLine (fun l => { l with window := (l.window.1 + f.slots.length, l.window.2 + f.erased) })).lineCount 6 f.erased).lineCount 7 f.blanked

section CountSlots
variable (s : State) (f : RxFrame)

@[simp] theorem State.countSlots_now : (s.countSlots f).now = s.now := rfl
@[simp] theorem State.countSlots_receiving : (s.countSlots f).line.receiving = s.line.receiving := rfl
@[simp] theorem State.countSlots_addresses : (s.countSlots f).addresses = s.addresses := rfl

end CountSlots

/-- A frame on the default map, whole and from an admitted node, is heard (R287, R290, R310). -/
theorem State.takeFrame_heard {s : State} {start : Nat} {places : List (Rat × Nat)} {f : RxFrame} {data : List Byte}
    (opened : f.delimiter = true) (crc : headerCrc f.header = true) (good : headerGood f.header = true) (default_ : headerLink f.header = false)
    (known : s.admitted (headerSource f.header) = true)
    (read : s.line.config.readPayload places (s.meas.config.nominal = 1) none f = some data) (whole : frameWhole data = true) :
    s.takeFrame start places f = (s.countSlots f).heard (headerSource f.header) start f data := by
  have stillKnown : (s.countSlots f).admitted (headerSource f.header) = true := known
  have stillRead : (s.countSlots f).line.config.readPayload places ((s.countSlots f).meas.config.nominal = 1) none f = some data := read
  unfold State.countSlots at stillKnown stillRead ⊢
  simp only [State.takeFrame, opened, crc, good, default_, stillKnown, stillRead, whole, Bool.not_true, Bool.false_and, Bool.or_false,
    Bool.false_eq_true, if_true, if_false]

/-- So its neighbour is no longer silent (R316). -/
theorem State.takeFrame_sighting {s : State} {start : Nat} {places : List (Rat × Nat)} {f : RxFrame} {data : List Byte}
    (opened : f.delimiter = true) (crc : headerCrc f.header = true) (good : headerGood f.header = true) (default_ : headerLink f.header = false)
    (known : s.admitted (headerSource f.header) = true) (held : headerSource f.header ∈ s.addresses)
    (read : s.line.config.readPayload places (s.meas.config.nominal = 1) none f = some data) (whole : frameWhole data = true) :
    (s.takeFrame start places f).sighting (headerSource f.header) = (s.line.receiving, some (s.now, false)) := by
  rw [State.takeFrame_heard opened crc good default_ known read whole, State.heard_sighting (by simpa using held)]
  simp

/-- A native frame that meets no transmission of the part reaches the receiver after the idle slots before it (R292, Table 9.9). -/
theorem State.hear_takes {s : State} {f : LineFrame} (runs : s.lineRuns = true) (native : s.line.config.mode = 1) (up : s.lineDown = false)
    (quiet : s.line.sentWithin f.start (s.spanOf f.start f.slots.length) = false) :
    s.hear f = (((s.meets f).judgeBefore f.start).receiveSlots f.slots).2.takeFrame f.start (((s.meets f).judgeBefore f.start).placesOf f)
      (((s.meets f).judgeBefore f.start).readFrame f) := by
  have stillRuns : (s.meets f).lineRuns = true := runs
  have stillNative : (s.meets f).line.config.mode = 1 := native
  have stillUp : (s.meets f).lineDown = false := up
  simp only [State.hear, stillRuns, stillNative, stillUp, quiet, Bool.not_true, Bool.or_false, ne_eq, not_true_eq_false, decide_false,
    Bool.false_eq_true, if_false]

theorem State.hear_sighting {s : State} {f : LineFrame} {data : List Byte} (runs : s.lineRuns = true) (native : s.line.config.mode = 1)
    (up : s.lineDown = false) (quiet : s.line.sentWithin f.start (s.spanOf f.start f.slots.length) = false) {h : State} {x : RxFrame}
    (judged_ : (s.meets f).judgeBefore f.start = h) (reads : h.readFrame f = x)
    (opened : x.delimiter = true) (crc : headerCrc x.header = true) (good : headerGood x.header = true) (default_ : headerLink x.header = false)
    (known : s.admitted (headerSource x.header) = true) (held : headerSource x.header ∈ s.addresses)
    (read : h.line.config.readPayload (h.placesOf f) (s.meas.config.nominal = 1) none x = some data) (whole : frameWhole data = true) :
    (s.hear f).sighting (headerSource x.header) = (false, some (s.now, false)) := by
  have beside : h.lineless = s.lineless := by
    rw [← judged_, State.judgeBefore_lineless]
    rfl
  have received : h.reception = (false, s.line.config, s.addresses) := by
    rw [← judged_, State.judgeBefore_reception]
    rfl
  obtain ⟨free, -, slots⟩ := by simpa [State.reception] using received
  have mesh : h.mesh = s.mesh := by rw [State.eq_of_lineless beside]
  have meas : h.meas = s.meas := by rw [State.eq_of_lineless beside]
  have now : h.now = s.now := by rw [State.eq_of_lineless beside]
  rw [State.hear_takes runs native up quiet, judged_, reads]
  refine (State.takeFrame_sighting opened crc good default_ ?_ ?_ (data := data) ?_ whole).trans
    (congrArg₂ (fun r n => (r, some (n, false))) free now)
  · change h.admitted _ = true
    rwa [State.admitted, mesh, ← State.admitted]
  · change _ ∈ h.addresses
    rwa [slots]
  · change h.line.config.readPayload _ (h.meas.config.nominal = 1) _ _ = _
    rwa [meas]

theorem State.line_of_sighting {s : State} {a now : Nat} {receiving silent : Bool} (seen : s.sighting a = (receiving, some (now, silent))) :
    s.line.receiving = receiving ∧ ∃ d, s.neighbour a = some d ∧ d.validAt = now ∧ d.silent = silent := by
  simpa [State.sighting] using seen

/-! ### The erasure rate (R305) -/

/-- The window starts anew; a rate above 10 % is raised once. -/
theorem erasureRateWindow_leads {t : Nat} {s : State} (runs : s.lineRuns = true) (passed : s.line.windowAt + 10 * secTicks ≤ max s.now t) :
    Leads (.erasureRateWindow t) s (fun u => u.line.window = (0, 0) ∧ u.line.windowAt = max s.now t ∧
      (0 < s.line.window.1 → s.line.window.1 < 10 * s.line.window.2 → u.line.erasureRaised = true)) := by
  refine ⟨_, congrArg Host.Outcome.next (if_pos (by simpa [runs] using passed)), ?_⟩
  dsimp only
  split
  · simp
  · next calm =>
    split
    · next below =>
      refine ⟨rfl, rfl, fun some_ above => ?_⟩
      have low : (decide (20 * s.line.window.2 < s.line.window.1) || decide (s.line.window.1 = 0)) = true := below
      simp only [Bool.or_eq_true, decide_eq_true_eq] at low
      omega
    · refine ⟨rfl, rfl, fun _ above => ?_⟩
      simpa [above] using calm

/-! ### S-FSK (R303, R304) -/

section Sfsk
variable {t : Nat} {s : State}

/-- The oldest transmission starts at the first anchor 5 ms after its reply, plus the offset. -/
theorem sfskTransmit_starts {bits : Nat} {data : List Byte} {ok a : Nat} {b : Bool} {rest : List (Nat × List Byte × Nat)}
    (waits : s.line.sfskQueue = (bits, data, ok) :: rest) (anchor : s.line.anchor = some (a, b))
    (sfsk : (s.tickTo t).settleLine.line.config.mode = 2) (may : (s.tickTo t).settleLine.mayTransmit = true) (ready : ok + 5 * Config.ms ≤ a)
    (starts : max s.now t = a + (((s.tickTo t).settleLine.line.config.offset : Rat) * s.line.half / 1024).floor.toNat) :
    Leads (.sfskTransmit t) s (fun u => u.line.sfskQueue = rest ∧ u.line.sfskFlight = some {
      tones := (s.tickTo t).settleLine.line.config.sfskTones bits data, startAt := max s.now t
      endAt := max s.now t + (s.tickTo t).settleLine.bitTicks bits }) := by
  have run : execSfskTransmit t s = .next ((s.tickTo t).settleLine.setLine (fun l => { l with
      sfskQueue := rest, busy := (l.occupied true (s.tickTo t).settleLine.now).busy
      sfskFlight := some {
        tones := l.config.sfskTones bits data, startAt := (s.tickTo t).settleLine.now
        endAt := (s.tickTo t).settleLine.now + (s.tickTo t).settleLine.bitTicks bits } })) := by
    simp [execSfskTransmit, waits, anchor, sfsk, may, ready, ← starts]
  exact ⟨_, run, rfl, by simp⟩

section Received
variable {bits : List (List Int)} {data : List Bool} (runs : s.lineRuns = true) (sfsk : (s.tickTo t).settleLine.line.config.mode = 2)
  (up : s.lineDown = false)
  (quiet : (s.tickTo t).settleLine.line.sentWithin (max s.now t - (s.tickTo t).settleLine.bitTicks
    ((s.tickTo t).settleLine.line.config.syncLength + 8 * (s.tickTo t).settleLine.line.config.frameLength)) (max s.now t) = false)
  (captured : (s.tickTo t).settleLine.line.config.captured (decideBits (bits.map (s.tickTo t).settleLine.line.config.bitEnergies)) = some data)
include runs sfsk up quiet captured

theorem sfskFrameReceived_holds (room : s.line.sfsk.length < 16) :
    Leads (.sfskFrameReceived t bits) s (fun u => ∃ f, u.line.sfsk = s.line.sfsk ++ [f] ∧ f.data = bytesMsb data) := by
  show ∃ u, execSfskFrameReceived t bits s = .next u ∧ _
  simp [execSfskFrameReceived, captured, runs, up, sfsk, quiet, Nat.not_le.2 room]

/-- One that finds 16 held is dropped (R304). -/
theorem sfskFrameReceived_drops (full : 16 ≤ s.line.sfsk.length) :
    Leads (.sfskFrameReceived t bits) s (fun u => u.line.sfsk = s.line.sfsk) := by
  show ∃ u, execSfskFrameReceived t bits s = .next u ∧ _
  simp [execSfskFrameReceived, captured, runs, up, sfsk, quiet, full]

end Received

end Sfsk

end Sys2Proof.Machine
end

section
/-! SUPPORT. The modem's events: the obligation, from the lemmas on each. -/

open Sys2Proof.Machine

/-- Settles O43: each event by its own rules, in the state where a configuration that waited for an ended transmission is in force. -/
theorem modemEvents : Obligations.ModemEvents := by
  unfold Obligations.ModemEvents
  intro t s runs now u₀ v
  refine ⟨fun phase => anchorPrediction_leads, fun a b h rest line => anchor_predicted runs, fun a b line => anchor_freeRuns runs,
    freeRunTimeout_leads runs, anchorResume_leads runs, fun f waits native may noMap starts idle => ⟨fun hears => ?_, fun hears => ?_⟩,
    fun f due native may starts hears _ => mapFrameSend_sends native may starts hears due,
    fun x sending _ idle => ⟨frameSent_leads sending idle, frameSent_unfinished sending⟩, driverProtection_leads runs,
    driverProtectionClear_leads runs, fun native free => delimiterDetected_leads runs native free, fun f n data => ?_,
    erasureRateWindow_leads runs, fun bits data ok rest a b => sfskTransmit_starts, fun bits data => ?_⟩
  · exact frameTransmit_sends native may starts hears idle waits noMap
  · exact frameTransmit_waits native may starts waits noMap hears
  · intro h x taken quiet native up opened crc good default_ known held read whole
    have slot : headerSource x.header ∈ s.addresses := State.neighbour_isSome.1 (held ▸ rfl)
    have seen := State.hear_sighting (s := v) (by simpa [v, u₀] using runs) native (by simpa [v, u₀] using up) quiet rfl rfl opened crc good
      default_ (by simpa [v, u₀] using known) (by simpa [v, u₀] using slot) (by simpa [v, u₀] using read) whole
    rw [State.settleLine_now, State.tickTo_now_eq] at seen
    have heard := State.line_of_sighting seen
    exact ⟨⟨_, rfl, heard⟩, fun map => ⟨_, congrArg Host.Outcome.next (if_pos map), heard⟩⟩
  · intro c sfsk up quiet captured
    exact ⟨sfskFrameReceived_holds runs sfsk up quiet captured, sfskFrameReceived_drops runs sfsk up quiet captured⟩

end

section
/-! SUPPORT. What billing leaves of the line and the mesh: all of it. The lemmas below say so for the operations that a feed record of a polled
node runs through, in the model's order (R250-R252, R330). -/

namespace Sys2Proof.Machine

/-- The line modem's state and the mesh's. -/
def State.lineAndMesh (s : State) : LineState × MeshState := (s.line, s.mesh)

theorem State.lineAndMesh_update (s : State) {now : Nat} {phase : Phase} {host : HostState} {clock : ClockState} {channels : List Channel}
    {converters : List Converter} {dies : List Die} {samplePhase : Nat} {timers : List Timer} {tracker : Tracker} {captures : List Capture}
    {sweep : SweepState} {cal : CalState} {meas : MeasState} {bill : BillState} {store : StoreState} {sec : SecurityState}
    {health : HealthState} {gate : GatehouseState} {power : PowerState} {pins : PinState} {draws : Nat} :
    State.lineAndMesh { s with
      now := now, phase := phase, host := host, clock := clock, channels := channels, converters := converters, dies := dies
      samplePhase := samplePhase, timers := timers, tracker := tracker, captures := captures, sweep := sweep, cal := cal, meas := meas
      bill := bill, store := store, sec := sec, health := health, gate := gate, power := power, pins := pins, draws := draws } =
      s.lineAndMesh := rfl

theorem State.lineAndMesh_ite {c : Prop} [Decidable c] (a b : State) :
    (if c then a else b).lineAndMesh = if c then a.lineAndMesh else b.lineAndMesh := apply_ite State.lineAndMesh c a b

theorem lineAndMesh_foldl {α : Type} (op : State → α → State) (keeps : ∀ u a, (op u a).lineAndMesh = u.lineAndMesh) (l : List α)
    (s : State) : (l.foldl op s).lineAndMesh = s.lineAndMesh := foldl_keeps State.lineAndMesh op keeps l s

/-! ### Setters, events and contexts -/

@[simp] theorem State.setCtx_lineAndMesh (s : State) (n : Nat) (f : Context → Context) : (s.setCtx n f).lineAndMesh = s.lineAndMesh := rfl

@[simp] theorem State.putCtx_lineAndMesh (s : State) (c : Context) : (s.putCtx c).lineAndMesh = s.lineAndMesh := rfl

@[simp] theorem State.setGroup_lineAndMesh (s : State) (g : Nat) (f : Group → Group) : (s.setGroup g f).lineAndMesh = s.lineAndMesh := rfl

@[simp] theorem State.setAnyCtx_lineAndMesh (s : State) (n : Nat) (f : Context → Context) : (s.setAnyCtx n f).lineAndMesh = s.lineAndMesh := by
  unfold State.setAnyCtx
  split <;> rfl

@[simp] theorem State.raise_lineAndMesh (s : State) (source time : Nat) (body : List Byte) :
    (s.raise source time body).lineAndMesh = s.lineAndMesh := by
  rw [State.raise_frame]
  rfl

/-! ### The journal, the pool and the signing queues (R246, R387, R403) -/

@[simp] theorem State.journalAdd_lineAndMesh (s : State) (r : JournalRecord) : (s.journalAdd r).lineAndMesh = s.lineAndMesh := by
  rw [State.journalAdd_frame]
  rfl

@[simp] theorem State.journalCtx_lineAndMesh (s : State) (c : Context) (type code time : Nat) (provisional : Bool) :
    (s.journalCtx c type code time provisional).lineAndMesh = s.lineAndMesh := by
  simp [State.journalCtx, ↓State.lineAndMesh_ite]

@[simp] theorem State.journalFeed_lineAndMesh (s : State) (n : Nat) (bytes : List Byte) : (s.journalFeed n bytes).lineAndMesh = s.lineAndMesh := by
  simp [State.journalFeed, ↓State.lineAndMesh_ite]

@[simp] theorem State.poolKeep_lineAndMesh (s : State) (n : Nat) : (s.poolKeep n).lineAndMesh = s.lineAndMesh := by
  unfold State.poolKeep State.poolWrite
  (repeat' split) <;> rfl

@[simp] theorem State.recordSigned_lineAndMesh (s : State) (job : SignJob) (signature : Option (List Byte)) :
    (s.recordSigned job signature).lineAndMesh = s.lineAndMesh := by
  unfold State.recordSigned
  dsimp only
  (repeat' split) <;> simp [↓State.lineAndMesh_update]

@[simp] theorem State.signRecord_lineAndMesh (s : State) (job : SignJob) : (s.signRecord job).lineAndMesh = s.lineAndMesh := by
  unfold State.signRecord
  split
  · rw [State.queueJob_frame]
    rfl
  · exact State.recordSigned_lineAndMesh ..

@[simp] theorem State.storeSnapshot_lineAndMesh (s : State) (x : Snapshot) : (s.storeSnapshot x).lineAndMesh = s.lineAndMesh := by
  simp [State.storeSnapshot, ↓State.lineAndMesh_update, ↓State.lineAndMesh_ite]

@[simp] theorem State.storeProfile_lineAndMesh (s : State) (c : Context) (bytes : List Byte) :
    (s.storeProfile c bytes).lineAndMesh = s.lineAndMesh := by
  simp [State.storeProfile, ↓State.lineAndMesh_update, ↓State.lineAndMesh_ite]

@[simp] theorem State.storeTamper_lineAndMesh (s : State) (x : TamperRecord) : (s.storeTamper x).lineAndMesh = s.lineAndMesh := by
  simp [State.storeTamper, ↓State.lineAndMesh_update, ↓State.lineAndMesh_ite]

/-! ### Balance groups (R274) -/

@[simp] theorem State.groupFeedTo_lineAndMesh (s : State) (k : Nat) (f : GroupFeed) : (s.groupFeedTo k f).lineAndMesh = s.lineAndMesh := by
  simp [State.groupFeedTo, ↓State.lineAndMesh_ite]

@[simp] theorem State.groupFeed_lineAndMesh (s : State) (f : GroupFeed) : (s.groupFeed f).lineAndMesh = s.lineAndMesh := by
  simp [State.groupFeed, lineAndMesh_foldl]

/-! ### Relays, states and tamper records (R259-R263, R270) -/

@[simp] theorem State.setRelay_lineAndMesh (s : State) (k : Nat) (closed : Bool) (cause : Nat) :
    (s.setRelay k closed cause).lineAndMesh = s.lineAndMesh := by
  unfold State.setRelay
  dsimp only
  (repeat' split) <;> simp [↓State.lineAndMesh_update]

@[simp] theorem State.raiseCtx_lineAndMesh (s : State) (source n : Nat) (items : Context → List Byte) :
    (s.raiseCtx source n items).lineAndMesh = s.lineAndMesh := by
  unfold State.raiseCtx
  split <;> simp

@[simp] theorem State.enterState_lineAndMesh (s : State) (n new cause : Nat) : (s.enterState n new cause).lineAndMesh = s.lineAndMesh := by
  unfold State.enterState
  split <;> simp [↓State.lineAndMesh_ite]

@[simp] theorem State.reevaluate_lineAndMesh (s : State) (n cause : Nat) : (s.reevaluate n cause).lineAndMesh = s.lineAndMesh := by
  unfold State.reevaluate
  split <;> simp [↓State.lineAndMesh_ite]

@[simp] theorem State.setFriendly_lineAndMesh (s : State) (n new : Nat) : (s.setFriendly n new).lineAndMesh = s.lineAndMesh := by
  unfold State.setFriendly
  split <;> simp [↓State.lineAndMesh_ite]

@[simp] theorem State.prepayDecide_lineAndMesh (s : State) (c : Context) (utc : Int) : (s.prepayDecide c utc).lineAndMesh = s.lineAndMesh := by
  simp [State.prepayDecide, ↓State.lineAndMesh_ite]

@[simp] theorem State.openTamper_lineAndMesh (s : State) (n kind source start : Nat) (base : Nat × Nat) (extreme : Rat) (flags : Nat) :
    (s.openTamper n kind source start base extreme flags).lineAndMesh = s.lineAndMesh := by
  unfold State.openTamper
  split <;> simp [↓State.lineAndMesh_ite]

@[simp] theorem State.closeTamper_lineAndMesh (s : State) (n kind stop : Nat) (last : Nat × Nat) (through flags : Nat) :
    (s.closeTamper n kind stop last through flags).lineAndMesh = s.lineAndMesh := by
  unfold State.closeTamper
  dsimp only
  (repeat' split) <;> simp

@[simp] theorem State.closeTamperAt_lineAndMesh (s : State) (n kind stop flags : Nat) :
    (s.closeTamperAt n kind stop flags).lineAndMesh = s.lineAndMesh := by
  unfold State.closeTamperAt
  split <;> simp

/-! ### The steps of a boundary (R225-R234, R244) -/

@[simp] theorem State.closeDemand_lineAndMesh (s : State) (n stop flags now : Nat) :
    (s.closeDemand n stop flags now).lineAndMesh = s.lineAndMesh := by
  unfold State.closeDemand
  split <;> simp [↓State.lineAndMesh_ite]

@[simp] theorem State.closeProfile_lineAndMesh (s : State) (n stop flags now : Nat) :
    (s.closeProfile n stop flags now).lineAndMesh = s.lineAndMesh := by
  unfold State.closeProfile
  split <;> simp [↓State.lineAndMesh_ite]

@[simp] theorem State.changeTariff_lineAndMesh (s : State) (n new instant : Nat) :
    (s.changeTariff n new instant).lineAndMesh = s.lineAndMesh := by
  unfold State.changeTariff
  split <;> simp [↓State.lineAndMesh_ite]

@[simp] theorem State.decideAt_lineAndMesh (s : State) (n instant : Nat) : (s.decideAt n instant).lineAndMesh = s.lineAndMesh := by
  unfold State.decideAt
  split <;> simp

@[simp] theorem State.takeSnapshot_lineAndMesh (s : State) (n flags boundaries stop last : Nat) :
    (s.takeSnapshot n flags boundaries stop last).lineAndMesh = s.lineAndMesh := by
  unfold State.takeSnapshot
  split <;> simp

@[simp] theorem State.journalDue_lineAndMesh (s : State) (n mask instant : Nat) : (s.journalDue n mask instant).lineAndMesh = s.lineAndMesh := by
  unfold State.journalDue
  split <;> simp

@[simp] theorem State.journalDone_lineAndMesh (s : State) (n code : Nat) : (s.journalDone n code).lineAndMesh = s.lineAndMesh := by
  unfold State.journalDone
  split <;> simp

/-! ### Feeds (R250-R253, R266, R267) -/

@[simp] theorem State.passInstants_lineAndMesh (s : State) (n flags : Nat) (own : Bool) (l : List (Nat × Bool)) :
    (s.passInstants n flags own l).lineAndMesh = s.lineAndMesh := by
  simp [State.passInstants, ↓State.lineAndMesh_ite, lineAndMesh_foldl]

@[simp] theorem State.compareRelay_lineAndMesh (s : State) (n : Nat) (b : List Byte) : (s.compareRelay n b).lineAndMesh = s.lineAndMesh := by
  unfold State.compareRelay
  split <;> simp [↓State.lineAndMesh_ite]

@[simp] theorem State.feedSteps_lineAndMesh (s : State) (n : Nat) (x : FeedPlan) (changed : Bool) (at_ : List (Nat × Bool)) :
    (s.feedSteps n x changed at_).lineAndMesh = s.lineAndMesh := by
  simp [State.feedSteps, ↓State.lineAndMesh_ite]

@[simp] theorem State.useFeed_lineAndMesh (s : State) (c : Context) (b : List Byte) (parked : Nat) (journal : Bool) :
    (s.useFeed c b parked journal).2.lineAndMesh = s.lineAndMesh := by
  simp [State.useFeed, ↓State.lineAndMesh_ite]

@[simp] theorem State.feedLive_lineAndMesh (s : State) (c : Context) (b : List Byte) (parked : Nat) (journal : Bool) :
    (s.feedLive c b parked journal).2.lineAndMesh = s.lineAndMesh := by
  unfold State.feedLive
  (repeat' split) <;> simp

@[simp] theorem State.feedParked_lineAndMesh (s : State) (c : Context) (b : List Byte) : (s.feedParked c b).2.lineAndMesh = s.lineAndMesh := by
  unfold State.feedParked
  split <;> simp

@[simp] theorem State.feed_lineAndMesh (s : State) (b : List Byte) : (s.feed b).2.lineAndMesh = s.lineAndMesh := by
  unfold State.feed
  split
  · split <;> simp
  · split <;> simp

end Sys2Proof.Machine
end

section
/-! SUPPORT. The operations of the mesh: what each changes of the line and the mesh, and what it leaves (R278, R308-R331). -/

namespace Sys2Proof.Machine

/-! ### Pieces of state -/

@[simp] theorem State.completeOp_mesh (s : State) (tag status : Nat) (detail : List Byte) : (s.completeOp tag status detail).mesh = s.mesh := by
  rw [State.completeOp_frame]

@[simp] theorem State.journalSettings_mesh (s : State) : s.journalSettings.mesh = s.mesh := by rw [State.journalSettings_frame]

theorem State.line_ite {c : Prop} [Decidable c] (a b : State) : (if c then a else b).line = if c then a.line else b.line :=
  apply_ite State.line c a b

theorem State.mesh_ite {c : Prop} [Decidable c] (a b : State) : (if c then a else b).mesh = if c then a.mesh else b.mesh :=
  apply_ite State.mesh c a b

/-- A neighbour changed may ask for a route pass (R321). -/
theorem State.setNeighbour_mesh (s : State) (a : Nat) (f : Neighbour → Neighbour) :
    ∃ dirty, (s.setNeighbour a f).mesh = { s.mesh with dirty := dirty } := by
  rw [State.setNeighbour_frame]
  exact ⟨_, rfl⟩

@[simp] theorem State.dropFlight_mesh (s : State) (id : Nat) :
    (s.dropFlight id).mesh = { s.mesh with flights := s.mesh.flights.filter (fun y => y.id ≠ id) } := rfl

theorem State.network_of_canOriginate {s : State} (keys : s.canOriginate = true) : ∃ net, s.sec.network = some net := by
  simp only [State.canOriginate, Bool.and_eq_true] at keys
  exact Option.isSome_iff_exists.1 keys.1

/-! ### The settling of the line (R278) -/

/-- Once the line has settled, the configuration in force is the one that is at this instant. -/
theorem State.settleLine_config (s : State) : s.settleLine.line.config = s.lineNow := by
  unfold State.settleLine State.lineNow
  extract_lets u
  have left : u.line.next = s.line.next ∧ u.line.config = s.line.config ∧ u.line.flight = s.line.flight ∧
      u.line.sfskFlight.isSome = !s.line.sfskFlight.all (fun f => f.endAt ≤ s.now) := by
    unfold u
    split
    · next f sending => by_cases ended : f.endAt ≤ s.now <;> simp [sending, ended, LineState.vacated]
    · next silent => simp [silent]
  obtain ⟨next, config, flight, sfsk⟩ := left
  simp only [next, flight, sfsk]
  cases s.line.next with
  | none => exact config
  | some c =>
    cases s.line.flight <;> cases s.line.sfskFlight.all (fun f => f.endAt ≤ s.now) <;> simp [config, LineState.apply]

section Settled
variable (s : State)

@[simp] theorem State.settleLine_host : s.settleLine.host = s.host := by rw [State.settleLine_frame]
@[simp] theorem State.settleLine_sec : s.settleLine.sec = s.sec := by rw [State.settleLine_frame]
@[simp] theorem State.settleLine_power : s.settleLine.power = s.power := by rw [State.settleLine_frame]
@[simp] theorem State.settleLine_mesh_polls : s.settleLine.mesh.polls = s.mesh.polls := by rw [State.settleLine_frame]
@[simp] theorem State.settleLine_mesh_running : s.settleLine.mesh.running = s.mesh.running := by rw [State.settleLine_frame]
@[simp] theorem State.settleLine_mesh_limit : s.settleLine.mesh.limit = s.mesh.limit := by rw [State.settleLine_frame]
@[simp] theorem State.settleLine_mesh_reports : s.settleLine.mesh.reports = s.mesh.reports := by rw [State.settleLine_frame]
@[simp] theorem State.settleLine_mesh_counter : s.settleLine.mesh.counter = s.mesh.counter := by rw [State.settleLine_frame]
@[simp] theorem State.settleLine_mesh_nextNumber : s.settleLine.mesh.nextNumber = s.mesh.nextNumber := by rw [State.settleLine_frame]
@[simp] theorem State.settleLine_mesh_discoveries : s.settleLine.mesh.discoveries = s.mesh.discoveries := by rw [State.settleLine_frame]
@[simp] theorem State.settleLine_mesh_discovering : s.settleLine.mesh.discovering = s.mesh.discovering := by rw [State.settleLine_frame]

@[simp] theorem State.settleLine_node (a : Nat) : s.settleLine.node a = s.node a := by simp [State.node]
@[simp] theorem State.settleLine_offLimits (a : Nat) : s.settleLine.offLimits a = s.offLimits a := by simp [State.offLimits]
@[simp] theorem State.settleLine_linkLost (d : Nat) : s.settleLine.linkLost d = s.linkLost d := by simp [State.linkLost, State.die]
@[simp] theorem State.settleLine_canOriginate : s.settleLine.canOriginate = s.canOriginate := by simp [State.canOriginate]
@[simp] theorem State.settleLine_dataQueue : s.settleLine.dataQueue = s.dataQueue := by simp [State.dataQueue]
@[simp] theorem State.settleLine_opRoom (k : Nat) : s.settleLine.opRoom k = s.opRoom k := by simp [State.opRoom]

end Settled

/-! ### The addresses of the admitted nodes (R308, R320) -/

/-- The mesh without its nodes and the nodes that wait for discovery, and the addresses of its nodes: what a pass leaves. -/
def State.census (s : State) : MeshState × List Nat := ({ s.mesh with nodes := [], discoveries := [] }, s.mesh.nodes.map (fun n => n.address))

theorem State.census_of_mesh {u s : State} (same : u.mesh = s.mesh) : u.census = s.census := by rw [State.census, same, ← State.census]

theorem State.census_ite {c : Prop} [Decidable c] (a b : State) : (if c then a else b).census = if c then a.census else b.census :=
  apply_ite State.census c a b

@[simp] theorem State.raise_census (s : State) (source time : Nat) (body : List Byte) : (s.raise source time body).census = s.census :=
  State.census_of_mesh (s.raise_mesh ..)

@[simp] theorem State.completeOp_census (s : State) (tag status : Nat) (detail : List Byte) : (s.completeOp tag status detail).census = s.census :=
  State.census_of_mesh (s.completeOp_mesh ..)

/-- A change of a node that leaves its address. -/
@[simp] theorem State.setNode_census (s : State) (a : Nat) {f : Node → Node} (same : ∀ n, (f n).address = n.address) :
    (s.setNode a f).census = s.census := by
  have kept : ∀ n : Node, (if n.address = a then f n else n).address = n.address := fun n => by split <;> simp [same]
  simp [State.census, State.setNode, alterWhere, Function.comp_def, kept]

@[simp] theorem State.discover_census (s : State) (a : Nat) : (s.discover a).census = s.census := by
  have kept : (s.setNode a (fun n => if n.state = 2 then n else { n with state := 3 })).census = s.census :=
    State.setNode_census s a (fun n => by split <;> rfl)
  unfold State.discover
  extract_lets u
  split
  · exact kept
  · exact kept

@[simp] theorem State.discoverRouteless_census (s : State) : s.discoverRouteless.census = s.census :=
  foldl_keeps State.census _ (fun u (n : Node) => State.discover_census u n.address) _ _

theorem flights_of_census {u s : State} (same : u.census = s.census) : u.mesh.flights = s.mesh.flights :=
  congrArg (fun c : MeshState × List Nat => c.1.flights) same

/-! ### Frames that the part originates (R313) -/

/-- A frame counted takes the next counter, which may go to the journal. -/
theorem State.countFrame_frame (s : State) : s.countFrame = { s with
    mesh := { s.mesh with counter := s.mesh.counter + 1, journaled := s.countFrame.mesh.journaled }, store := s.countFrame.store } := by
  unfold State.countFrame
  extract_lets u
  split
  · rw [State.journalSettings_frame]
    rfl
  · rfl

/-- A route loaded changes the nodes alone, by what they hold of the cache. -/
theorem State.loadRoute_frame (s : State) (a : Nat) :
    s.loadRoute a = { s with mesh := { s.mesh with nodes := (s.loadRoute a).mesh.nodes } } := by
  unfold State.loadRoute
  extract_lets had u
  split
  · rfl
  · split <;> rfl

/-- A transaction whose attempt has been passed to the modem: its route, the counter of its frame, and the map frames seen before it. -/
def Transaction.sent (x : Transaction) (r : Route) (counter maps : Nat) : Transaction :=
  { x with
    route := r, attempts := x.attempts + 1, counter := counter, queued := true, deadline := none, waits := false, mapsSeen := maps }

/-- What passing an attempt of the one transaction in flight to the modem leaves: its frame joins the queue, for the first hop (R328). -/
structure State.Sends (s : State) (x : Transaction) (r : Route) (u : State) : Prop where
  flights : ∃ maps, u.mesh.flights = [x.sent r s.mesh.counter maps]
  queue : ∃ data, u.line.queue =
    s.line.queue ++ [{ node := firstHop r.relays x.node, data := data, long := x.long, transaction := x.id }]
  counter : u.mesh.counter = s.mesh.counter + 1
  polls : u.mesh.polls = s.mesh.polls

theorem State.sendAttempt_sends {s : State} {x : Transaction} {r : Route} {net : List Byte} (alone : s.mesh.flights = [x])
    (way : s.attemptRoute x = some r) (key : s.sec.network = some net) : s.Sends x r (s.sendAttempt x) := by
  simp only [State.sendAttempt, way, key]
  rw [State.countFrame_frame, State.loadRoute_frame]
  constructor
  · exact ⟨_, by simp [State.setFlight, State.enqueueFrame, alterWhere, alone, Transaction.sent]; rfl⟩
  · exact ⟨_, rfl⟩
  · rfl
  · rfl

/-! ### The one transaction in flight (R327, R328) -/

/-- A transaction as it joins those in flight: under the next identifier and the next number. -/
def State.numbered (s : State) (x : Transaction) : Transaction := { x with id := s.mesh.nextId, number := s.mesh.nextNumber }

theorem State.startFlight_flights {s : State} (idle : s.mesh.flights = []) (x : Transaction) : (s.startFlight x).mesh.flights = [s.numbered x] := by
  simp [State.startFlight, State.numbered, idle]

section Alone
variable {s : State} {x : Transaction} (alone : s.mesh.flights = [x])
include alone

theorem State.flight_of_alone : s.flight x.id = some x := by simp [State.flight, alone]

theorem State.pump_of_alone : s.pump =
    if x.queued || x.waits || 4 ≤ s.dataQueue || s.lineDown || s.linkLost 7 || s.power.warning.isSome || s.line.config.mode ≠ 1 then s
    else if !s.canOriginate then s.failFlight x stDegraded
    else s.sendAttempt x := by
  simp only [State.pump, alone, List.foldl_cons, List.foldl_nil, State.flight_of_alone alone]

/-- While the vault cannot be reached an attempt waits for its keys (Table 1.2). -/
theorem State.pump_waits (cut : s.linkLost 7 = true) : s.pump = s := by
  rw [State.pump_of_alone alone, if_pos (by simp [cut])]

theorem State.pump_sends {r : Route} (fresh : x.queued = false) (free : x.waits = false) (reach : s.linkLost 7 = false) (up : s.lineDown = false)
    (calm : s.power.warning = none) (native : s.line.config.mode = 1) (room : s.dataQueue < 4) (keys : s.canOriginate = true)
    (way : s.attemptRoute x = some r) : s.Sends x r s.pump := by
  obtain ⟨net, key⟩ := State.network_of_canOriginate keys
  rw [State.pump_of_alone alone, if_neg (by simp [fresh, free, room, up, reach, calm, native]), if_neg (by simp [keys])]
  exact State.sendAttempt_sends alone way key

end Alone

/-- The route of a node is the one an attempt to it takes. -/
theorem State.attemptRoute_of_node {s : State} {x : Transaction} {r : Route} (way : (s.node x.node).bind Node.route = some r) :
    s.attemptRoute x = some r := by
  obtain ⟨n, held, route⟩ := Option.bind_eq_some_iff.1 way
  simp [State.attemptRoute, held, route]

/-- A transaction that starts while none is in flight sends its first attempt (R327). -/
theorem State.pump_startFlight {s : State} {x : Transaction} {r : Route} (idle : s.mesh.flights = []) (fresh : x.queued = false)
    (free : x.waits = false) (reach : s.linkLost 7 = false) (up : s.lineDown = false) (calm : s.power.warning = none)
    (native : s.line.config.mode = 1) (room : s.dataQueue < 4) (keys : s.canOriginate = true)
    (way : (s.node x.node).bind Node.route = some r) : (s.startFlight x).Sends (s.numbered x) r (s.startFlight x).pump :=
  State.pump_sends (State.startFlight_flights idle x) fresh free reach up calm native room keys (State.attemptRoute_of_node way)

/-! ### Ends of transactions (R317, R329) -/

/-- A transaction that completes leaves those in flight; a node and a link cost may change, and nothing else of the line and the mesh does. -/
theorem State.completeFlight_line (s : State) (x : Transaction) (length : Nat) :
    (s.completeFlight x length).line = { s.line with neighbours := (s.completeFlight x length).line.neighbours } := by
  unfold State.completeFlight
  dsimp only
  split <;> simp [State.setNode, State.setNeighbour_line, State.dropFlight, ↓State.line_ite]

theorem State.completeFlight_mesh (s : State) (x : Transaction) (length : Nat) : (s.completeFlight x length).mesh =
    { s.mesh with
      nodes := (s.completeFlight x length).mesh.nodes, dirty := (s.completeFlight x length).mesh.dirty
      flights := s.mesh.flights.filter (fun y => y.id ≠ x.id) } := by
  obtain ⟨dirty, mesh⟩ := (s.dropFlight x.id).setNeighbour_mesh (firstHop x.route.relays x.node) (fun n => { n with retry := scoreDown n.retry })
  unfold State.completeFlight
  dsimp only
  split <;> simp [State.setNode, mesh, ↓State.mesh_ite]

/-- Its operation is complete. -/
theorem State.completeFlight_ops {s : State} {x : Transaction} {length tag k : Nat} (op : x.op = some (tag, k)) :
    ∀ o ∈ (s.completeFlight x length).host.ops, o.tag ≠ tag := by
  simp [State.completeFlight, op, State.completeOp_ops]

theorem State.failFlight_census (s : State) (x : Transaction) (status : Nat) : (s.failFlight x status).census = (s.dropFlight x.id).census := by
  unfold State.failFlight
  split <;> simp [↓State.census_ite]

theorem State.failFlight_ops {s : State} {x : Transaction} {status tag k : Nat} (op : x.op = some (tag, k)) :
    ∀ o ∈ (s.failFlight x status).host.ops, o.tag ≠ tag := by
  simp [State.failFlight, op, State.completeOp_ops]

/-- The last attempt's failure is the transaction's. -/
theorem State.failAttempt_last {s : State} {x : Transaction} (last : x.allowed ≤ x.attempts) : s.failAttempt x false =
    (s.setNeighbour (firstHop x.route.relays x.node) (fun n => { n with retry := scoreUp n.retry })).failFlight x stTimeout :=
  if_pos last

/-! ### The route pass (R320-R322) -/

theorem State.routeNode_address (s : State) (paths : List PathTo) (n : Node) : (s.routeNode paths n).1.address = n.address := by
  unfold State.routeNode
  dsimp only
  (repeat' split) <;> rfl

/-- With no transaction in flight a pass clears what asked for it, notes its instant, and may change routes and who waits for discovery. -/
theorem State.routePass_census {s : State} (idle : s.mesh.flights = []) : s.routePass.census =
    ({ s.mesh with nodes := [], discoveries := [], dirty := false, urgent := false, passAt := some s.now },
      s.mesh.nodes.map (fun n => n.address)) := by
  unfold State.routePass
  extract_lets paths l lost found u v
  have kept : u.census = ({ s.mesh with nodes := [], discoveries := [], dirty := false, urgent := false, passAt := some s.now },
      s.mesh.nodes.map (fun n => n.address)) := by
    simp [u, l, State.census, idle, State.routeNode_address, Function.comp_def]
  have keptV : v.census = u.census :=
    (State.discoverRouteless_census _).trans (foldl_keeps State.census _ (fun _ _ => by simp) lost u)
  have raised := (State.raise_census v 138 v.stampNow (objBody 0 (countItem (l.filter (fun p => p.2)).length))).trans (keptV.trans kept)
  rw [State.pump_of_idle, raised]
  exact (congrArg (fun c : MeshState × List Nat => c.1.flights) raised).trans idle

end Sys2Proof.Machine
end

section
/-! SUPPORT. The requests to the mesh: NODE_ADMIT, ROUTE_READ, POLL_LIST_LOAD, POLL_START, POLL_STOP, and LINE_SEND in native mode (group 08h). -/

namespace Sys2Proof.Machine

/-! ### What taking a request leaves -/

section Taken
variable (s : State) (t : Nat) (p : Port)

@[simp] theorem State.taken_nodeHandle (a : Nat) : (s.taken t p).nodeHandle a = s.nodeHandle a := by simp [State.nodeHandle]

@[simp] theorem State.taken_admitted (a : Nat) : (s.taken t p).admitted a = s.admitted a := by simp [State.admitted]

@[simp] theorem State.taken_node (a : Nat) : (s.taken t p).node a = s.node a := by simp [State.node]

@[simp] theorem State.taken_canOriginate : (s.taken t p).canOriginate = s.canOriginate := by simp [State.canOriginate]

@[simp] theorem State.taken_dataQueue : (s.taken t p).dataQueue = s.dataQueue := by simp [State.dataQueue]

@[simp] theorem State.taken_linkLost (d : Nat) : (s.taken t p).linkLost d = s.linkLost d := by simp [State.linkLost]

end Taken

/-! ### NODE_ADMIT (R308, R309) -/

theorem alterWhere_eq_self {α : Type} {l : List α} {p : α → Bool} {f : α → α} (none_ : ∀ x ∈ l, p x = false) : alterWhere l p f = l :=
  (List.map_congr_left (fun x mem => by simp [none_ x mem])).trans (List.map_id _)

theorem State.not_admitted {s : State} {a : Nat} : s.admitted a = false ↔ ∀ n ∈ s.mesh.nodes, n.address ≠ a := by simp [State.admitted]

@[simp] theorem State.discover_line (s : State) (a : Nat) : (s.discover a).line = s.line := by
  simp [State.discover, State.setNode, ↓State.line_ite]

/-- A node in discovery is among those that wait for it. -/
theorem State.mem_discoveries (s : State) (a : Nat) : a ∈ (s.discover a).mesh.discoveries := by
  unfold State.discover
  extract_lets u
  split
  · next held => simpa using held
  · simp

theorem State.discover_nodes (s : State) (a : Nat) : (s.discover a).mesh.nodes =
    alterWhere s.mesh.nodes (fun n => n.address = a) (fun n => if n.state = 2 then n else { n with state := 3 }) := by
  unfold State.discover
  extract_lets u
  split <;> rfl

/-- What admitting a node does: it joins the nodes and enters discovery, with event source 128. -/
def State.admitNode (s : State) (a : Nat) : State :=
  ((s.setMesh (fun m => { m with nodes := m.nodes ++ [{ address := a }], dirty := true })).discover a).raise 128 s.stampNow
    (objBody 0 (le 2 a ++ octets [0]))

@[simp] theorem State.admitNode_line (s : State) (a : Nat) : (s.admitNode a).line = s.line := by simp [State.admitNode]

theorem State.admitNode_nodes {s : State} {a : Nat} (new : s.admitted a = false) :
    (s.admitNode a).mesh.nodes = s.mesh.nodes ++ [{ address := a, state := 3 }] := by
  have others : ∀ n ∈ s.mesh.nodes, decide (n.address = a) = false := by simpa using State.not_admitted.1 new
  simp only [State.admitNode, State.raise_mesh, State.discover_nodes, State.setMesh_mesh, alterWhere, List.map_append]
  exact congrArg₂ (· ++ ·) (alterWhere_eq_self others) (by simp)

theorem State.admitNode_node {s : State} {a : Nat} (new : s.admitted a = false) :
    (s.admitNode a).node a = some { address := a, state := 3 } := by
  have others : s.mesh.nodes.find? (fun n => n.address = a) = none := by simpa using State.not_admitted.1 new
  simp [State.node, State.admitNode_nodes new, others]

theorem State.admitNode_discovers (s : State) (a : Nat) : a ∈ (s.admitNode a).mesh.discoveries := by
  rw [State.admitNode, State.raise_mesh]
  exact State.mem_discoveries _ a

section NodeAdmit
variable {r : Req} {s : State}

theorem nodeAdmitAdmitRow_noResource (new : s.admitted (r.u 0 2) = false) (full : 65535 ≤ s.mesh.nodes.length) :
    nodeAdmitAdmitRow.body r s = .done stNoResource [] s := judged_hit (by simp [new, full])

variable (up : s.lineDown = false)
include up

theorem nodeAdmitAdmitRow_known (known : s.admitted (r.u 0 2) = true) :
    nodeAdmitAdmitRow.body r s = .done stOk (le 2 (s.nodeHandle (r.u 0 2)) ++ zeros 2) s :=
  ((judged_miss (by simp [known])).trans (judged_miss up)).trans (by simp [known, judged, firstOf])

theorem nodeAdmitAdmitRow_admits (new : s.admitted (r.u 0 2) = false) (room : s.mesh.nodes.length < 65535) :
    nodeAdmitAdmitRow.body r s = .done stOk (le 2 (s.nodeHandle (r.u 0 2)) ++ zeros 2) (s.admitNode (r.u 0 2)) := by
  have handle : (s.admitNode (r.u 0 2)).nodeHandle (r.u 0 2) = s.nodeHandle (r.u 0 2) := by
    simp [State.nodeHandle, State.neighbour]
  rw [← handle]
  exact ((judged_miss (by simp [room])).trans (judged_miss up)).trans (by simp [new, judged, firstOf, State.admitNode])

theorem nodeAdmitRemoveRow_removes : nodeAdmitRemoveRow.body r s = .done stOk (le 2 (s.nodeHandle (r.u 0 2)) ++ zeros 2)
    ((s.removeNode (r.u 0 2)).raise 128 s.stampNow (objBody 0 (le 2 (r.u 0 2) ++ octets [1]))) := judged_miss up

end NodeAdmit

/-- A node removed is gone from the nodes, the neighbour slots and those that wait for discovery; the other nodes stay. -/
theorem State.removeNode_removes (s : State) (a : Nat) : (s.removeNode a).admitted a = false ∧ (s.removeNode a).neighbour a = none ∧
    a ∉ (s.removeNode a).mesh.discoveries ∧ (∀ n ∈ s.mesh.nodes, n.address ≠ a → n ∈ (s.removeNode a).mesh.nodes) := by
  simp +contextual [State.removeNode, State.admitted, State.neighbour]

/-! ### ROUTE_READ (R323) -/

theorem routeReadRow_reads {r : Req} {s : State} {n : Node} (named : s.routeNodeOf r = some n) :
    routeReadRow.body r s = .done stOk (s.routeRecord n) s := by
  simp [routeReadRow, named]

/-! ### The poll list and polling (R325, R326) -/

/-- The poll list once a request's entries have taken the place of those of their indices: an entry of node 0 is empty (R325). -/
def Req.pollList (r : Req) (s : State) : List PollEntry :=
  s.mesh.polls.filter (fun e => !r.pollEntries.any (fun x => x.index = e.index)) ++
    (r.pollEntries.filter (fun e => e.node ≠ 0)).map (fun e => e.from_ s.stampNow)

section Polling
variable {r : Req} {s : State}

theorem Req.pollList_keeps {e : PollEntry} (mem : e ∈ s.mesh.polls) (other : ∀ x ∈ r.pollEntries, x.index ≠ e.index) :
    e ∈ r.pollList s := by
  exact List.mem_append_left _ (List.mem_filter.2 ⟨mem, by simpa using other⟩)

theorem Req.mem_pollList {x : PollEntry} (mem : x ∈ r.pollList s) : x ∈ s.mesh.polls ∨
    ∃ e ∈ r.pollEntries, e.node ≠ 0 ∧ x.index = e.index ∧ x.node = e.node ∧ x.period = e.period ∧ x.readyAt = none := by
  rcases List.mem_append.1 mem with old | new
  · exact .inl (List.mem_of_mem_filter old)
  · obtain ⟨e, loaded, rfl⟩ := List.mem_map.1 new
    obtain ⟨given, used⟩ := List.mem_filter.1 loaded
    exact .inr ⟨e, given, by simpa using used, rfl, rfl, rfl, rfl⟩

theorem pollListLoadRow_loads (up : s.lineDown = false) :
    pollListLoadRow.body r s = .done stOk [] (s.setMesh (fun m => { m with polls := r.pollList s })) := judged_miss up

theorem State.startPolling_mesh (s : State) (limit : Nat) : (s.startPolling limit).mesh = { s.mesh with
    running := true, limit := limit
    polls := if s.mesh.running then s.mesh.polls else s.mesh.polls.map (fun e => e.from_ s.stampNow) } := by
  simp [State.startPolling, ↓State.mesh_ite]

/-- Polling stops, and the entries that were ready no longer are. -/
theorem State.stopPolling_mesh (s : State) : s.stopPolling.mesh = { s.mesh with
    running := false
    polls := if s.mesh.running then s.mesh.polls.map (fun e => { e with readyAt := none }) else s.mesh.polls } := by
  unfold State.stopPolling
  split
  · simp [*]
  · next stopped => simp [← Bool.eq_false_iff.2 stopped]

theorem pollStartRow_wrongState (other : s.lineNow.mode ≠ 1) : pollStartRow.body r s = .done stWrongState [] s.settleLine :=
  judged_hit (by simp [State.settleLine_config, other])

theorem pollStartRow_starts (native : s.lineNow.mode = 1) (listed : ∃ e ∈ s.mesh.polls, has e.flags 1 = true) (up : s.lineDown = false)
    (keys : s.canOriginate = true) :
    pollStartRow.body r s = .done stOk [] (s.settleLine.startPolling (r.u 0 1)).journalSettings := by
  refine (judged_miss ?_).trans (judged_miss ?_)
  · simpa [State.settleLine_config, native] using listed
  · simp [up, keys]

end Polling

/-! ### LINE_SEND in native mode (R313, R331) -/

/-- The transaction that a LINE_SEND starts, with 2 retries. -/
def Req.lineSend (r : Req) (tag : Nat) : Transaction :=
  { node := r.u 0 2, type := 3, op := some (tag, r.session), expect := bit (r.u 2 1) 1, message := octets [3, 0, 0, 0] ++ r.payload.drop 8
    long := bit (r.u 2 1) 0, allowed := 3 }

/-- The state in which it starts: the operation is accepted, and a response held under its tag is gone. -/
def State.acceptSend (s : State) (r : Req) : State :=
  (s.startOp r.opcode r.handle r.session).2.setMesh (fun m => { m with
    tags := m.tags.filter (fun a => a ≠ s.host.nextTag) ++ [s.host.nextTag]
    responses := m.responses.filter (fun x => x.tag ≠ s.host.nextTag) })

section LineSend
variable {r : Req} {s : State}

theorem lineSendRow_wrongState (other : s.lineNow.mode ≠ 1 ∨ s.admitted (r.u 0 2) = false) :
    lineSendRow.body r s = .done stWrongState [] s.settleLine :=
  judged_hit (by simpa [State.settleLine_config] using other)

variable (native : s.lineNow.mode = 1) (idle : s.mesh.flights = []) (up : s.lineDown = false) (keys : s.canOriginate = true)
include native idle up keys

theorem lineSendRow_accepts (known : s.admitted (r.u 0 2) = true) (tags : s.opRoom r.session = true) :
    lineSendRow.body r s = .done stAccepted (le 2 s.host.nextTag)
      ((s.settleLine.acceptSend r).startFlight (r.lineSend s.host.nextTag)).pump := by
  have room : s.settleLine.opRoom r.session = true := by simpa using tags
  rw [← State.settleLine_host]
  exact (judged_pass (by simp [State.settleLine_config, native, known, tags, idle, up, keys])).trans (accept_room room)

variable (reach : s.linkLost 7 = false) (calm : s.power.warning = none) (room : s.dataQueue < 4) {route : Route}
  (way : (s.node (r.u 0 2)).bind Node.route = some route)
include reach calm room way

/-- Its frame leaves for the first hop under the next counter. -/
theorem State.acceptSend_sends : ((s.settleLine.acceptSend r).startFlight (r.lineSend s.host.nextTag)).Sends
    ((s.settleLine.acceptSend r).numbered (r.lineSend s.host.nextTag)) route
    ((s.settleLine.acceptSend r).startFlight (r.lineSend s.host.nextTag)).pump := by
  refine State.pump_startFlight ?_ rfl rfl ?_ ?_ ?_ ?_ ?_ ?_ ?_
  · exact (State.settleLine_mesh_flights s).trans idle
  · exact (State.settleLine_linkLost s 7).trans reach
  · exact (State.settleLine_lineDown s).trans up
  · exact (congrArg PowerState.warning (State.settleLine_power s)).trans calm
  · exact (congrArg LineConfig.mode (State.settleLine_config s)).trans native
  · exact (State.settleLine_dataQueue s).trans_lt room
  · exact (State.settleLine_canOriginate s).trans keys
  · exact (congrArg (Option.bind · Node.route) (State.settleLine_node s _)).trans way

end LineSend

/-- In native mode LINE_SEND is accepted, and the first of its 3 attempts is passed to the modem. -/
theorem lineSend_answers {t : Nat} {p : Port} {s : State} {q : Request} {route : Route} (up : s.lineDown = false) (keys : s.canOriginate = true)
    (idle : s.mesh.flights = []) (reach : s.linkLost 7 = false) (calm : s.power.warning = none) (room : s.dataQueue < 4)
    (called : lineSendRow.calls t p s q = true) (native : (s.taken t p).lineNow.mode = 1) (known : s.admitted ((Req.of p q).u 0 2) = true)
    (tags : s.opRoom (Req.of p q).session = true) (way : (s.node ((Req.of p q).u 0 2)).bind Node.route = some route) :
    Answers (.lineSend t p) s (Req.of p q) stAccepted (le 2 s.host.nextTag) (fun u =>
      (∃ x, u.mesh.flights = [x] ∧ x.node = (Req.of p q).u 0 2 ∧ x.type = 3 ∧ x.op = some (s.host.nextTag, (Req.of p q).session) ∧
        x.attempts = 1 ∧ x.allowed = 3 ∧ x.queued = true) ∧
      (∃ f, u.line.queue = s.line.queue ++ [f] ∧ f.isMap = false ∧ f.node = route.relays.headD ((Req.of p q).u 0 2)) ∧
      u.mesh.counter = s.mesh.counter + 1) := by
  have tag : (s.taken t p).host.nextTag = s.host.nextTag := by simp
  have waiting : (s.taken t p).settleLine.line.queue = s.line.queue := by simp
  have next : (s.taken t p).settleLine.mesh.counter = s.mesh.counter := by simp
  have body := lineSendRow_accepts (r := Req.of p q) native (by simpa using idle) (by simpa using up) (by simpa using keys)
    (by simpa using known) (by simpa using tags)
  obtain ⟨⟨maps, flights⟩, ⟨data, queue⟩, counter, -⟩ := State.acceptSend_sends (r := Req.of p q) native (by simpa using idle)
    (by simpa using up) (by simpa using keys) (by simpa using reach) (by simpa using calm) (by simpa using room) (by simpa using way)
  rw [tag] at body flights queue counter
  exact ⟨_, ends_of_body rfl called body, ⟨_, flights, rfl, rfl, rfl, rfl, rfl, rfl⟩,
    ⟨_, queue.trans (congrArg (· ++ _) waiting), rfl, rfl⟩, counter.trans (congrArg (· + 1) next)⟩

end Sys2Proof.Machine
end

section
/-! SUPPORT. The requests to the mesh: the obligation, from the lemmas on each. -/

open Sys2Proof.Machine

/-- Settles O42: each request by its row's rules, in the state where a configuration that waited for an ended transmission is in force. -/
theorem meshRequests : Obligations.MeshRequests := by
  unfold Obligations.MeshRequests
  intro t p s q r a u₀ up
  have upTaken : u₀.lineDown = false := by simpa [u₀] using up
  refine ⟨fun called => ⟨fun known => ?_, fun new full => ?_, fun new room => ?_⟩, fun called => ?_, fun n called named => ?_, fun called => ?_,
    fun called native listed keys => ?_, fun called other => ?_, fun called => ?_,
    fun route called native reach known tags idle keys room calm way => ?_, fun called other => ?_⟩
  · exact ends_of_body rfl called ((nodeAdmitAdmitRow_known upTaken (by simpa [u₀] using known)).trans (by simp [u₀, r, a]))
  · exact ends_of_body rfl called (nodeAdmitAdmitRow_noResource (by simpa using new) (by simpa using full))
  · have newTaken : u₀.admitted a = false := by simpa [u₀] using new
    refine ⟨u₀.admitNode a, ends_of_body rfl called ?_, ⟨_, State.admitNode_node newTaken, rfl, rfl⟩, State.admitNode_discovers u₀ a,
      fun n mem => ?_, by simp [u₀]⟩
    · exact (nodeAdmitAdmitRow_admits upTaken newTaken (by simpa [u₀] using room)).trans (by simp [u₀, r, a])
    · rw [State.admitNode_nodes newTaken]
      exact List.mem_append_left _ (by simpa [u₀] using mem)
  · obtain ⟨gone, slot, quiet, others⟩ := u₀.removeNode_removes a
    refine ⟨_, ends_of_body rfl called ((nodeAdmitRemoveRow_removes upTaken).trans (by rw [State.taken_nodeHandle])), ?_, ?_, ?_, ?_⟩
    · simpa [State.admitted] using gone
    · simpa using slot
    · simpa using quiet
    · simpa [u₀] using others
  · exact ends_of_body rfl called (routeReadRow_reads named)
  · exact ⟨_, ends_of_body rfl called (pollListLoadRow_loads upTaken), fun e mem other => Req.pollList_keeps (by simpa using mem) other,
      fun x mem => by simpa using Req.mem_pollList mem, rfl⟩
  · refine ⟨_, ends_of_body rfl called (pollStartRow_starts native (by simpa using listed) upTaken (by simpa [u₀] using keys)), ?_⟩
    simp +contextual [State.startPolling_mesh, apply_ite List.length, r]
  · exact ends_of_body rfl called (pollStartRow_wrongState other)
  · refine ⟨_, ends_of_body rfl called rfl, ?_⟩
    simp +contextual [State.stopPolling_mesh]
  · exact lineSend_answers up keys idle reach calm room called native known tags way
  · exact ends_of_body rfl called (lineSendRow_wrongState (by simpa using other))

end

section
/-! SUPPORT. The mesh's events: poll entries due, transactions started and failed, messages received, discovery, the route pass and silent links
(R316-R331, R507). -/

namespace Sys2Proof.Machine

/-! ### The instant of an event -/

section Tick
variable (s : State) (t : Nat)

@[simp] theorem State.tickTo_canOriginate : (s.tickTo t).canOriginate = s.canOriginate := rfl
@[simp] theorem State.tickTo_linkLost (d : Nat) : (s.tickTo t).linkLost d = s.linkLost d := rfl
@[simp] theorem State.tickTo_node (a : Nat) : (s.tickTo t).node a = s.node a := rfl
@[simp] theorem State.tickTo_offLimits (a : Nat) : (s.tickTo t).offLimits a = s.offLimits a := rfl
@[simp] theorem State.tickTo_dataQueue : (s.tickTo t).dataQueue = s.dataQueue := rfl
@[simp] theorem State.tickTo_neighbour (a : Nat) : (s.tickTo t).neighbour a = s.neighbour a := rfl

end Tick

/-! ### Poll entries (R326, R327, R507) -/

@[simp] theorem State.skipPoll_polls (s : State) : s.skipPoll.mesh.polls = s.mesh.polls := by
  unfold State.skipPoll
  extract_lets u
  split
  · rfl
  · rw [State.raise_mesh]
    rfl

section PollDue
variable {t : Nat} {s : State} {e : PollEntry} (only : s.mesh.polls = [e]) (runs : s.phase = .running) (polls : s.mesh.running = true)
  (enabled : has e.flags 1 = true) (known : s.admitted e.node = true) (late : e.lastDue < e.dueBefore (s.tickTo t).stampNow)
  (begun : e.offset * minTicks ≤ (s.tickTo t).stampNow)
include only runs polls enabled known late begun

/-- The due instant is noted; then the entry is skipped, or becomes ready. -/
theorem execPollEntryDue_due {u : State}
    (noted : (s.tickTo t).setPoll e.index (fun x => { x with lastDue := e.dueBefore (s.tickTo t).stampNow }) = u) :
    execPollEntryDue t e.index s = .next
      (if e.readyAt.isSome || s.polling e.index || s.line.config.mode ≠ 1 then u.skipPoll
      else if s.offLimits e.node then u.meshCount 3 1
      else u.setPoll e.index (fun x => { x with readyAt := some (e.dueBefore (s.tickTo t).stampNow) })) := by
  subst noted
  have due : ((s.tickTo t).phase = .running && (s.tickTo t).mesh.running && has e.flags 1 && (s.tickTo t).admitted e.node &&
      e.lastDue < e.dueBefore (s.tickTo t).stampNow && e.offset * minTicks ≤ (s.tickTo t).stampNow) = true := by
    simp [runs, polls, enabled, known, late, begun]
  have found : (s.tickTo t).mesh.polls.find? (fun x => x.index = e.index) = some e := by simp [only]
  unfold execPollEntryDue
  simp only [found]
  exact congrArg Host.Outcome.next (if_pos due)

theorem pollEntryDue_ready (waiting : e.readyAt = none) (quiet : s.polling e.index = false) (native : s.line.config.mode = 1)
    (reach : s.offLimits e.node = false) : Leads (.pollEntryDue t e.index) s (fun u => u.mesh.polls =
      [{ e with lastDue := e.dueBefore (s.tickTo t).stampNow, readyAt := some (e.dueBefore (s.tickTo t).stampNow) }]) := by
  refine ⟨_, execPollEntryDue_due only runs polls enabled known late begun rfl, ?_⟩
  simp [waiting, quiet, native, reach, State.setPoll, alterWhere, only]

theorem pollEntryDue_skips (skips : e.readyAt.isSome = true ∨ s.line.config.mode ≠ 1) : Leads (.pollEntryDue t e.index) s (fun u =>
    u.mesh.polls = [{ e with lastDue := e.dueBefore (s.tickTo t).stampNow }]) := by
  refine ⟨_, execPollEntryDue_due only runs polls enabled known late begun rfl, ?_⟩
  rw [if_pos (by rcases skips with ready | other <;> simp [*])]
  simp [State.setPoll, alterWhere, only]

end PollDue

/-! ### Transactions started (R327, R328) -/

/-- An entry is taken: it is no longer ready, and keeps the due instant of the transaction that starts for it. -/
def State.takePoll (s : State) (e : PollEntry) : State :=
  (s.meshCount 3 0).setPoll e.index (fun x => { x with readyAt := none, takenDue := e.readyAt.getD 0 })

/-- The transaction that starts for an entry. -/
def State.pollFlight (s : State) (e : PollEntry) : Transaction :=
  { node := e.node, type := e.type, entry := some e.index, due := e.readyAt.getD 0, message := s.pollMessage e, long := has e.flags 4
    allowed := 1 + e.retries }

section Only
variable {s : State} {e : PollEntry} (only : s.mesh.polls = [e])
include only

theorem State.dropUnreachable_reachable (reach : s.offLimits e.node = false) : s.dropUnreachable = s.meshCount 3 0 := by
  have kept : alterWhere s.mesh.polls (fun e => e.readyAt.isSome && s.offLimits e.node) (fun e => { e with readyAt := none }) = s.mesh.polls :=
    alterWhere_eq_self (by simp [only, reach])
  have none_ : (s.mesh.polls.filter (fun e => e.readyAt.isSome && s.offLimits e.node)).length = 0 := by simp [only, reach]
  simp only [State.dropUnreachable, none_]
  exact congrArg (fun l => (s.meshCount 3 0).setMesh (fun m => { m with polls := l })) kept

theorem State.readyEntry_only (ready : e.readyAt.isSome = true) (known : s.admitted e.node = true) (idle : s.mesh.flights = []) :
    s.readyEntry = some e := by
  simp [State.readyEntry, only, ready, known, idle]

theorem State.takePoll_polls : (s.takePoll e).mesh.polls = [{ e with readyAt := none, takenDue := e.readyAt.getD 0 }] := by
  simp [State.takePoll, State.setPoll, State.meshCount, alterWhere, only]

end Only

section TransactionStart
variable {t : Nat} {s : State} {e : PollEntry} {r : Route} (runs : s.lineRuns = true) (up : s.lineDown = false) (calm : s.power.warning = none)
  (native : (s.tickTo t).lineNow.mode = 1) (only : s.mesh.polls = [e]) (ready : e.readyAt.isSome = true) (idle : s.mesh.flights = [])
  (none_ : s.mesh.reports = []) (running : s.phase = .running) (polls : s.mesh.running = true) (limit : 0 < s.mesh.limit)
  (keys : s.canOriginate = true) (known : s.admitted e.node = true) (reach : s.offLimits e.node = false)
include runs up calm native only ready idle none_ running polls limit keys known reach

theorem execTransactionStart_polls {v : State} (settled : (s.tickTo t).settleLine = v) : execTransactionStart t s = .next
    ((v.takePoll e).startFlight ((v.takePoll e).pollFlight e)).pump := by
  have free : v.mesh.flights = [] := by simpa [← settled] using idle
  have only' : v.mesh.polls = [e] := by simpa [← settled] using only
  have entry : (v.meshCount 3 0).readyEntry = some e :=
    State.readyEntry_only only' ready (by simpa [← settled, State.meshCount, State.admitted] using known) free
  have may : (v.lineRuns && !v.lineDown && v.power.warning.isNone && v.line.config.mode = 1) = true := by
    simp [← settled, State.settleLine_config, runs, up, calm, native]
  have starts : (v.phase = .running && v.mesh.running && v.mesh.flights.length < v.mesh.limit && v.canOriginate) = true := by
    simp [← settled, running, polls, idle, limit, keys]
  unfold execTransactionStart
  simp only [settled]
  refine congrArg Host.Outcome.next ((if_pos may).trans ?_)
  rw [State.pump_of_idle free, show v.mesh.reports = [] by simpa [← settled] using none_]
  refine (if_neg (by simp [free])).trans ((if_pos starts).trans ?_)
  rw [State.dropUnreachable_reachable only' (by simpa [← settled] using reach)]
  simp only [entry]
  rfl

/-- Its first attempt is passed to the modem, or waits for the keys of the vault. -/
theorem transactionStart_polls (room : s.dataQueue < 4) (way : (s.node e.node).bind Node.route = some r) :
    Leads (.transactionStart t) s (fun u => u.mesh.polls = [{ e with readyAt := none, takenDue := e.readyAt.getD 0 }] ∧
      ∃ x, u.mesh.flights = [x] ∧ x.node = e.node ∧ x.type = e.type ∧ x.entry = some e.index ∧ x.allowed = 1 + e.retries ∧
        x.attempts = if s.linkLost 7 then 0 else 1) := by
  refine ⟨_, execTransactionStart_polls runs up calm native only ready idle none_ running polls limit keys known reach rfl, ?_⟩
  generalize settled : (s.tickTo t).settleLine = v
  have free : v.mesh.flights = [] := by simpa [← settled] using idle
  have taken : ((v.takePoll e).startFlight ((v.takePoll e).pollFlight e)).mesh.polls =
    [{ e with readyAt := none, takenDue := e.readyAt.getD 0 }] := State.takePoll_polls (by simpa [← settled] using only)
  cases link : s.linkLost 7 with
  | true =>
    have cut : v.linkLost 7 = true := by simpa [← settled] using link
    have alone := State.startFlight_flights (s := v.takePoll e) free ((v.takePoll e).pollFlight e)
    rw [State.pump_waits alone cut]
    exact ⟨taken, _, alone, rfl, rfl, rfl, rfl, rfl⟩
  | false =>
    have sends : ((v.takePoll e).startFlight ((v.takePoll e).pollFlight e)).Sends ((v.takePoll e).numbered ((v.takePoll e).pollFlight e)) r
        ((v.takePoll e).startFlight ((v.takePoll e).pollFlight e)).pump := by
      refine State.pump_startFlight free rfl rfl ?_ ?_ ?_ ?_ ?_ ?_ ?_
      · exact show v.linkLost 7 = false by simpa [← settled] using link
      · exact show v.lineDown = false by simpa [← settled] using up
      · exact show v.power.warning = none by simpa [← settled] using calm
      · exact show v.line.config.mode = 1 by simpa [← settled, State.settleLine_config] using native
      · exact show v.dataQueue < 4 by simpa [← settled] using room
      · exact show v.canOriginate = true by simpa [← settled] using keys
      · exact show (v.node e.node).bind Node.route = some r by simpa [← settled] using way
    obtain ⟨⟨maps, flights⟩, -, -, kept⟩ := sends
    exact ⟨kept.trans taken, _, flights, rfl, rfl, rfl, rfl, rfl⟩

end TransactionStart

/-! ### Attempts that fail (R329) -/

section Deadline
variable {t : Nat} {s : State} {x : Transaction} {d : Nat} (alone : s.mesh.flights = [x]) (deadline : x.deadline = some d)
include alone deadline

theorem execTransactionDeadline_of_alone : execTransactionDeadline t x.id s = .next
    (if d ≤ max s.now t then ((s.tickTo t).failAttempt x false).pump else s.tickTo t) := by
  have found : (s.tickTo t).flight x.id = some x := State.flight_of_alone (by simpa using alone)
  simp only [execTransactionDeadline, found, deadline, Option.any_some, decide_eq_true_eq]
  rfl

theorem transactionDeadline_early (early : max s.now t < d) : exec (.transactionDeadline t x.id) s = .next (s.tickTo t) := by
  exact (execTransactionDeadline_of_alone alone deadline).trans (congrArg _ (if_neg (Nat.not_le.2 early)))

/-- After the last attempt the transaction fails, and its operation completes. -/
theorem transactionDeadline_fails (passed : d ≤ max s.now t) (last : x.allowed ≤ x.attempts) : Leads (.transactionDeadline t x.id) s (fun u =>
    u.mesh.flights = [] ∧ ∀ y, x.op = some y → ∀ o ∈ u.host.ops, o.tag ≠ y.1) := by
  have ended : ((s.tickTo t).failAttempt x false).mesh.flights = [] := by
    rw [State.failAttempt_last last, flights_of_census (State.failFlight_census ..)]
    simp [alone]
  refine ⟨_, (execTransactionDeadline_of_alone alone deadline).trans (congrArg _ (if_pos passed)), ?_⟩
  rw [State.pump_of_idle ended]
  refine ⟨ended, fun y op => ?_⟩
  rw [State.failAttempt_last last]
  exact State.failFlight_ops op

end Deadline

/-! ### Messages received (R318, R330, R331) -/

/-- What is in flight, and what waits in the modem's inbox. -/
def State.traffic (s : State) : List Transaction × List (List Byte × List Byte) := (s.mesh.flights, s.line.inbox)

theorem State.traffic_of_lineAndMesh {u s : State} (same : u.lineAndMesh = s.lineAndMesh) : u.traffic = s.traffic :=
  congrArg (fun x : LineState × MeshState => (x.2.flights, x.1.inbox)) same

theorem State.traffic_ite {c : Prop} [Decidable c] (a b : State) : (if c then a else b).traffic = if c then a.traffic else b.traffic :=
  apply_ite State.traffic c a b

@[simp] theorem State.meshCount_traffic (s : State) (index n : Nat) : (s.meshCount index n).traffic = s.traffic := rfl

@[simp] theorem State.readyAgain_traffic (s : State) (origin : Nat) (x : Option Transaction) : (s.readyAgain origin x).traffic = s.traffic := rfl

@[simp] theorem State.feed_traffic (s : State) (b : List Byte) : (s.feed b).2.traffic = s.traffic :=
  State.traffic_of_lineAndMesh (s.feed_lineAndMesh b)

@[simp] theorem State.pollRecord_traffic (s : State) (origin : Nat) (b : List Byte) : (s.pollRecord origin b).traffic = s.traffic := by
  simp [State.pollRecord, ↓State.traffic_ite]

theorem State.completeFlight_traffic (s : State) (x : Transaction) (length : Nat) :
    (s.completeFlight x length).traffic = (s.mesh.flights.filter (fun y => y.id ≠ x.id), s.line.inbox) := by
  rw [State.traffic, State.completeFlight_mesh, State.completeFlight_line]

/-- The links of a report, each with its cost, are all that its reporter reports (R318). -/
theorem State.applyReport_links (s : State) (origin : Nat) (m : List Byte) :
    (∀ e ∈ reportEntries m, e.1 ≠ 0 → ∃ l ∈ (s.applyReport origin m).mesh.links, l.a = origin ∧ l.b = e.1 ∧ l.cost = e.2.1) ∧
    ∀ l ∈ (s.applyReport origin m).mesh.links, l.a = origin → l.reported = true → ∃ e ∈ reportEntries m, e.1 = l.b := by
  simp only [State.applyReport, State.setNode, State.setMesh_mesh, List.mem_append, List.mem_filter, List.mem_map]
  constructor
  · intro e mem used
    exact ⟨_, .inr ⟨e, ⟨mem, by simpa using used⟩, rfl⟩, rfl, rfl, rfl⟩
  · rintro l (⟨-, other⟩ | ⟨e, ⟨mem, -⟩, rfl⟩) mine reported
    · simp [mine, reported] at other
    · exact ⟨e, mem, rfl⟩

/-- What interval data does besides completing its transaction: its records are applied, and with MORE its entry is ready again (R330). -/
def State.takeIntervals (s : State) (h m : List Byte) (x : Transaction) : State :=
  let s := if s.admitted (netOrigin h) && bit (netFormat h) 5 then (recordsOf m).foldl (fun (s : State) b => s.pollRecord (netOrigin h) b) s else s
  if has (byteAt m 1) 1 && bit (netFormat h) 5 then s.readyAgain (netOrigin h) (some x) else s

@[simp] theorem State.takeIntervals_traffic (s : State) (h m : List Byte) (x : Transaction) : (s.takeIntervals h m x).traffic = s.traffic := by
  simp [State.takeIntervals, ↓State.traffic_ite, foldl_keeps State.traffic]

/-- The state in which the one message of the inbox has been taken from it. -/
def State.readInbox (s : State) : State := s.setLine (fun l => { l with inbox := [] })

/-- A response is held under the tag of its operation, with event source 139 (R331). -/
def State.holdResponse (s : State) (tag node : Nat) (data : List Byte) : State :=
  let u := s.setMesh (fun k => { k with
    responses := k.responses ++ [{ tag := tag, node := node, data := data }], tags := k.tags.filter (fun a => a ≠ tag) })
  u.raise 139 u.stampNow (objBody 0 (le 2 tag))

section HoldResponse
variable (s : State) (tag node : Nat) (data : List Byte)

@[simp] theorem State.holdResponse_responses :
    (s.holdResponse tag node data).mesh.responses = s.mesh.responses ++ [{ tag := tag, node := node, data := data }] := by
  simp [State.holdResponse]

@[simp] theorem State.holdResponse_flights : (s.holdResponse tag node data).mesh.flights = s.mesh.flights := by simp [State.holdResponse]

@[simp] theorem State.holdResponse_ops : (s.holdResponse tag node data).host.ops = s.host.ops := by
  rw [State.holdResponse, State.raise_frame]
  rfl

end HoldResponse

/-- The one transaction in flight completed, none is left. -/
theorem State.completed_mesh {s v : State} {t length : Nat} {x : Transaction} (alone : s.mesh.flights = [x])
    (completed : (s.tickTo t).readInbox.completeFlight x length = v) : v.mesh.responses = s.mesh.responses ∧ v.mesh.flights = [] := by
  rw [← completed, State.completeFlight_mesh]
  exact ⟨rfl, by simp [State.readInbox, alone]⟩

section Inbox
variable {t : Nat} {s : State} {h m : List Byte} (only : s.line.inbox = [(h, m)])
include only

theorem State.takeMessage_only {type : Nat} (named : byteAt m 0 = type) :
    (s.tickTo t).takeMessage type = some ((h, m), (s.tickTo t).readInbox) := by
  simp [State.takeMessage, only, named, State.readInbox, State.setLine]

theorem intervalDataResponse_leads {x : Transaction} (named : byteAt m 0 = 0x81) (alone : s.mesh.flights = [x])
    (answers : (s.tickTo t).answered h 1 = some x) : Leads (.intervalDataResponse t) s (fun u => u.line.inbox = [] ∧ u.mesh.flights = []) := by
  have answers' : (s.tickTo t).readInbox.answered h 1 = some x := answers
  have run : execIntervalDataResponse t s = .next (((s.tickTo t).readInbox.completeFlight x 0).takeIntervals h m x).pump := by
    simp only [execIntervalDataResponse, State.takeMessage_only only named, answers']
    rfl
  have left : (((s.tickTo t).readInbox.completeFlight x 0).takeIntervals h m x).traffic = ([], []) := by
    simp [State.completeFlight_traffic, State.readInbox, alone]
  refine ⟨_, run, ?_⟩
  rw [State.pump_of_idle (Prod.mk.inj left).1]
  exact ⟨(Prod.mk.inj left).2, (Prod.mk.inj left).1⟩

theorem routeError_leads (named : byteAt m 0 = 0x04) (idle : s.mesh.flights = []) : Leads (.routeError t) s (fun u =>
    u.line.inbox = [] ∧ u.mesh.urgent = true ∧ ∃ l ∈ u.mesh.links, l.a = netOrigin h ∧ l.b = field m 4 2 ∧ l.cost = 255) := by
  show ∃ u, execRouteError t s = .next u ∧ _
  simp [execRouteError, State.takeMessage_only only named, State.readInbox, idle]

theorem neighbourReport_leads (named : byteAt m 0 = 0x82) (idle : s.mesh.flights = []) (quiet : s.mesh.discovering = none)
    (known : s.admitted (netOrigin h) = true) : Leads (.neighbourReport t) s (fun u => u.line.inbox = [] ∧ u.mesh.dirty = true ∧
      (∀ e ∈ reportEntries m, e.1 ≠ 0 → ∃ l ∈ u.mesh.links, l.a = netOrigin h ∧ l.b = e.1 ∧ l.cost = e.2.1) ∧
      ∀ l ∈ u.mesh.links, l.a = netOrigin h → l.reported = true → ∃ e ∈ reportEntries m, e.1 = l.b) := by
  have run : execNeighbourReport t s = .next ((s.tickTo t).readInbox.applyReport (netOrigin h) m) := by
    have unasked : (s.tickTo t).readInbox.answered h 2 = none := by simp [State.answered, State.readInbox, idle]
    have known' : (s.tickTo t).readInbox.admitted (netOrigin h) = true := known
    have quiet' : ((s.tickTo t).readInbox.applyReport (netOrigin h) m).mesh.discovering = none := quiet
    simp only [execNeighbourReport, State.takeMessage_only only named, unasked, known', quiet', Bool.not_true, Bool.false_eq_true, if_false]
    exact congrArg _ (State.pump_of_idle idle)
  exact ⟨_, run, rfl, rfl, State.applyReport_links ..⟩

section HostResponse
variable {x : Transaction} {tag k : Nat} (named : byteAt m 0 = 0x83) (alone : s.mesh.flights = [x])
  (answers : (s.tickTo t).answered h 3 = some x) (op : x.op = some (tag, k)) (known : s.admitted x.node = true)
include named answers op known

theorem execHostResponse_answers {v : State} (completed : (s.tickTo t).readInbox.completeFlight x (m.drop 4).length = v) :
    execHostResponse t s = .next
      (if 16 ≤ s.mesh.responses.length then (v.meshCount 5 1).pump else (v.holdResponse tag x.node (m.drop 4)).pump) := by
  have answers' : (s.tickTo t).readInbox.answered h 3 = some x := answers
  have known' : (s.tickTo t).readInbox.admitted x.node = true := known
  have held : v.mesh.responses = s.mesh.responses := by
    rw [← completed, State.completeFlight_mesh]
    rfl
  simp only [execHostResponse, State.takeMessage_only only named, answers', known', op, completed, held, if_true, Bool.not_true, Bool.false_eq_true,
    if_false]
  rfl

include alone

theorem hostResponse_holds (room : s.mesh.responses.length < 16) : Leads (.hostResponse t) s (fun u =>
    u.mesh.responses = s.mesh.responses ++ [{ tag := tag, node := x.node, data := m.drop 4 }] ∧ u.mesh.flights = [] ∧
    ∀ o ∈ u.host.ops, o.tag ≠ tag) := by
  refine ⟨_, (execHostResponse_answers only named answers op known rfl).trans (congrArg _ (if_neg (Nat.not_le.2 room))), ?_⟩
  generalize completed : (s.tickTo t).readInbox.completeFlight x (m.drop 4).length = v
  obtain ⟨held, ended⟩ := State.completed_mesh (t := t) alone completed
  have ops : ∀ o ∈ v.host.ops, o.tag ≠ tag := by
    rw [← completed]
    exact State.completeFlight_ops op
  rw [State.pump_of_idle (by simpa using ended)]
  exact ⟨by simp [State.holdResponse, held], by simpa using ended, by simpa using ops⟩

theorem hostResponse_drops (full : 16 ≤ s.mesh.responses.length) :
    Leads (.hostResponse t) s (fun u => u.mesh.responses = s.mesh.responses) := by
  refine ⟨_, (execHostResponse_answers only named answers op known rfl).trans (congrArg _ (if_pos full)), ?_⟩
  generalize completed : (s.tickTo t).readInbox.completeFlight x (m.drop 4).length = v
  obtain ⟨held, ended⟩ := State.completed_mesh (t := t) alone completed
  rw [State.pump_of_idle (s := v.meshCount 5 1) ended]
  exact held

end HostResponse

end Inbox

/-! ### Discovery (R322) -/

/-- The discovery that runs ends without an answer. -/
def State.endDiscovery (s : State) (a since : Nat) : State :=
  let u := s.setNode a (fun n => { n with
    state := if n.state = 3 then (if n.route.isSome then 1 else 0) else n.state, nextTry := since + 3600 * secTicks })
  u.setMesh (fun m => { m with
    discovering := none
    discoveries := m.discoveries.filter (fun x => x ≠ a) ++ (if (u.node a).any (fun n => n.route.isNone) then [a] else []) })

section Discovery
variable {t : Nat} {s : State}

theorem discoveryStart_cut (cut : s.linkLost 7 = true) : exec (.discoveryStart t) s = .next (s.tickTo t).settleLine :=
  congrArg Host.Outcome.next (if_neg (by simp [cut]))

theorem State.sendDiscovery_sends (s : State) (net : List Byte) (a : Nat) :
    (s.sendDiscovery net a).mesh.discovering = some (a, s.now, s.mesh.nextNumber) ∧ (s.sendDiscovery net a).mesh.counter = s.mesh.counter + 1 ∧
      ∃ f, (s.sendDiscovery net a).line.queue = s.line.queue ++ [f] ∧ f.node = 0 := by
  unfold State.sendDiscovery
  rw [State.countFrame_frame]
  exact ⟨rfl, rfl, _, rfl, rfl⟩

theorem discoveryStart_sends {a : Nat} {n : Node} {net : List Byte} (runs : s.lineRuns = true) (up : s.lineDown = false)
    (calm : s.power.warning = none) (native : (s.tickTo t).lineNow.mode = 1) (quiet : s.mesh.discovering = none) (keys : s.canOriginate = true)
    (room : s.dataQueue < 4) (only : s.mesh.discoveries = [a]) (held : s.node a = some n) (due : n.nextTry ≤ max s.now t)
    (key : s.sec.network = some net) (reach : s.linkLost 7 = false) : Leads (.discoveryStart t) s (fun u =>
      u.mesh.discovering = some (a, max s.now t, s.mesh.nextNumber) ∧ u.mesh.counter = s.mesh.counter + 1 ∧
      ∃ f, u.line.queue = s.line.queue ++ [f] ∧ f.node = 0) := by
  generalize settled : (s.tickTo t).settleLine = v
  have may : (v.lineRuns && !v.lineDown && !v.linkLost 7 && v.power.warning.isNone && v.line.config.mode = 1 && v.mesh.discovering.isNone &&
      v.canOriginate && v.dataQueue < 4) = true := by
    simp [← settled, State.settleLine_config, runs, up, calm, native, quiet, keys, room, reach]
  have now : v.now = max s.now t := by simp [← settled]
  have first : v.mesh.discoveries.find? (fun a => (v.node a).any (fun n => n.nextTry ≤ v.now)) = some a := by
    rw [now, show v.mesh.discoveries = [a] by simpa [← settled] using only, List.find?_cons_of_pos]
    rw [show v.node a = some n by simpa [← settled] using held]
    exact decide_eq_true due
  have key' : v.sec.network = some net := by simpa [← settled] using key
  have run : execDiscoveryStart t s = .next ((v.setNode a (fun n => { n with state := if n.state = 2 then 2 else 3 })).sendDiscovery net a) := by
    unfold execDiscoveryStart
    simp only [settled]
    refine congrArg Host.Outcome.next ((if_pos may).trans ?_)
    simp only [first, key']
  refine ⟨_, run, ?_⟩
  obtain ⟨discovering, counter, queue⟩ := (v.setNode a (fun n => { n with state := if n.state = 2 then 2 else 3 })).sendDiscovery_sends net a
  have numbers : v.mesh.nextNumber = s.mesh.nextNumber ∧ v.mesh.counter = s.mesh.counter ∧ v.line.queue = s.line.queue := by simp [← settled]
  obtain ⟨number, count, waiting⟩ := numbers
  rw [← now, ← number, ← count, ← waiting]
  exact ⟨discovering, counter, queue⟩

section Running
variable {a since number : Nat} (running : s.mesh.discovering = some (a, since, number))
include running

/-- After 60 s it ends; a node still without a route waits to be sought again. -/
theorem execDiscoveryTimeout_running : execDiscoveryTimeout t s = .next
    (if since + 60 * secTicks ≤ max s.now t then (s.tickTo t).endDiscovery a since else s.tickTo t) := by
  simp only [execDiscoveryTimeout, State.tickTo_mesh, running]
  rfl

theorem discoveryTimeout_ends (passed : since + 60 * secTicks ≤ max s.now t) :
    Leads (.discoveryTimeout t) s (fun u => u.mesh.discovering = none ∧ u.line = s.line) := by
  refine ⟨_, (execDiscoveryTimeout_running running).trans (congrArg _ (if_pos passed)), rfl, rfl⟩

theorem discoveryTimeout_early (early : max s.now t < since + 60 * secTicks) : exec (.discoveryTimeout t) s = .next (s.tickTo t) := by
  exact (execDiscoveryTimeout_running running).trans (congrArg _ (if_neg (Nat.not_le.2 early)))

end Running

end Discovery

/-! ### The route pass and silent links (R316, R321) -/

theorem routePass_leads {t : Nat} {s : State} (runs : s.lineRuns = true) (asked : s.mesh.urgent = true) (idle : s.mesh.flights = []) :
    Leads (.routePass t) s (fun u => u.mesh.dirty = false ∧ u.mesh.urgent = false ∧ u.mesh.passAt = some (max s.now t) ∧
      u.mesh.nodes.map (fun n => n.address) = s.mesh.nodes.map (fun n => n.address)) := by
  refine ⟨_, congrArg Host.Outcome.next (if_pos (by simp [runs, asked])), ?_⟩
  obtain ⟨mesh, addresses⟩ := Prod.mk.inj (State.routePass_census (s := s.tickTo t) idle)
  exact ⟨congrArg MeshState.dirty mesh, congrArg MeshState.urgent mesh, congrArg MeshState.passAt mesh, addresses⟩

theorem linkSilence_leads {t h : Nat} {s : State} {n : Neighbour} (named : s.line.neighbours.find? (fun n => n.handle = h) = some n)
    (held : s.neighbour n.node = some n) (passed : n.validAt + 30 * minTicks ≤ max s.now t) (heard : n.silent = false) :
    Leads (.linkSilence t h) s (fun u => u.neighbour n.node = some { n with silent := true }) := by
  have run : execLinkSilence t h s = .next ((s.tickTo t).setNeighbour n.node (fun n => { n with silent := true })) := by
    simp only [execLinkSilence, State.tickTo_line, named]
    exact congrArg Host.Outcome.next (if_pos (by simpa [heard] using passed))
  refine ⟨_, run, ?_⟩
  simp [State.neighbour_setNeighbour_self, held]

end Sys2Proof.Machine
end

section
/-! SUPPORT. The mesh's events: the obligation, from the lemmas on each. -/

open Sys2Proof.Machine

/-- Settles O44: each event by its own rules; those that send act in the state where a configuration that waited for an ended transmission is
in force. -/
theorem meshEvents : Obligations.MeshEvents := by
  unfold Obligations.MeshEvents
  refine ⟨fun t s runs up calm config native => ?_, fun t s e other only running polls enabled known late begun =>
    pollEntryDue_skips only running polls enabled known late begun (.inr other)⟩
  refine ⟨fun e only running polls enabled known late begun => ⟨fun waiting quiet reach => ?_, fun ready => ?_⟩,
    fun e route only ready idle reports running polls limit keys known reach room way => ?_, fun x d alone deadline => ⟨?_, ?_⟩,
    fun h m only => ⟨fun x named alone answers => ?_, fun named idle => ?_, fun named idle quiet known => ?_,
      fun x tag k named alone answers op known => ⟨?_, ?_⟩⟩,
    fun a n net quiet keys room only held due key reach => ?_, discoveryStart_cut, fun a since c running => ⟨?_, ?_⟩,
    routePass_leads runs, fun n h => linkSilence_leads⟩
  · exact pollEntryDue_ready only running polls enabled known late begun waiting quiet config reach
  · exact pollEntryDue_skips only running polls enabled known late begun (.inl ready)
  · exact transactionStart_polls runs up calm native only ready idle reports running polls limit keys known reach room way
  · exact transactionDeadline_fails alone deadline
  · exact transactionDeadline_early alone deadline
  · exact intervalDataResponse_leads only named alone answers
  · exact routeError_leads only named idle
  · exact neighbourReport_leads only named idle quiet known
  · exact hostResponse_holds only named alone answers op known
  · exact hostResponse_drops only named alone answers op known
  · exact discoveryStart_sends runs up calm native quiet keys room only held due key reach
  · exact discoveryTimeout_ends running
  · exact discoveryTimeout_early running

end

section
/-! SUPPORT. The course of a state: how far its time has come, which commands wait, and the security state that only leads forward. All but
a few operations leave it, and the lemmas below say so, one for each operation of the model and in its order. -/

namespace Sys2Proof.Machine

/-- What of a state moves on with time, with the queue of commands, or with the steps of chapter 13 that lead forward, and with nothing
else. -/
structure Course where
  now : Nat
  pending : List Instr
  lifecycle : Nat
  counter : Nat
  transition : Option (Nat × Nat)
  /-- the counter that a confirmation found, whose writing a power loss may yet cut (R425) -/
  confirmed : Option Nat

def State.course (s : State) : Course where
  now := s.now
  pending := s.pending
  lifecycle := s.sec.lifecycle
  counter := s.sec.counter
  transition := s.sec.transition
  confirmed := (s.store.bootWrite.bind BootWrite.confirms).map Prod.fst

/-- An update that leaves time and queue leaves the course where it leaves four fields of the store and of the security state. -/
theorem State.course_update (s : State) {phase : Phase} {host : HostState} {clock : ClockState} {channels : List Channel}
    {converters : List Converter} {dies : List Die} {samplePhase : Nat} {timers : List Timer} {tracker : Tracker} {captures : List Capture}
    {sweep : SweepState} {cal : CalState} {meas : MeasState} {bill : BillState} {line : LineState} {mesh : MeshState} {store : StoreState}
    {sec : SecurityState} {health : HealthState} {gate : GatehouseState} {power : PowerState} {pins : PinState} {draws : Nat}
    (lifecycle : sec.lifecycle = s.sec.lifecycle) (counter : sec.counter = s.sec.counter) (transition : sec.transition = s.sec.transition)
    (bootWrite : store.bootWrite = s.store.bootWrite) :
    State.course { s with
      phase := phase, host := host, clock := clock, channels := channels, converters := converters, dies := dies, samplePhase := samplePhase
      timers := timers, tracker := tracker, captures := captures, sweep := sweep, cal := cal, meas := meas, bill := bill, line := line
      mesh := mesh, store := store, sec := sec, health := health, gate := gate, power := power, pins := pins, draws := draws } =
      s.course := by
  simp only [State.course, lifecycle, counter, transition, bootWrite]

/-- The course of a choice. -/
theorem State.course_ite {c : Prop} [Decidable c] (a b : State) : (if c then a else b).course = if c then a.course else b.course :=
  apply_ite State.course c a b

/-- A choice between two states of one course has it. -/
theorem State.course_of_ite {c : Prop} [Decidable c] {a b s : State} (yes : a.course = s.course) (no : b.course = s.course) :
    (if c then a else b).course = s.course := by
  rw [State.course_ite, yes, no, ite_self]

/-- What every step of a fold leaves of the course, the fold leaves. -/
theorem course_foldl {α : Type} (op : State → α → State) (keeps : ∀ u a, (op u a).course = u.course) (l : List α) (s : State) :
    (l.foldl op s).course = s.course := foldl_keeps State.course op keeps l s

/-- The same of a fold that collects results beside the state. -/
theorem course_foldl_pair {α β : Type} (op : State × β → α → State × β)
    (keeps : ∀ r a v b, op r a = (v, b) → v.course = r.1.course) (l : List α) (r : State × β) :
    (l.foldl op r).1.course = r.1.course :=
  foldl_keeps (fun r : State × β => r.1.course) op (fun r a => keeps r a _ _ rfl) l r

/-! ### Setters, events and operations -/

@[simp] theorem State.setChan_course (s : State) (n : Nat) (f : Channel → Channel) : (s.setChan n f).course = s.course :=
  State.course_update s rfl rfl rfl rfl

@[simp] theorem State.setConv_course (s : State) (u : Nat) (f : Converter → Converter) : (s.setConv u f).course = s.course :=
  State.course_update s rfl rfl rfl rfl

@[simp] theorem State.setDie_course (s : State) (d : Nat) (f : Die → Die) : (s.setDie d f).course = s.course :=
  State.course_update s rfl rfl rfl rfl

@[simp] theorem State.setSide_course (s : State) (d : Nat) (f : SideSlice → SideSlice) : (s.setSide d f).course = s.course :=
  State.setDie_course ..

@[simp] theorem State.setLink_course (s : State) (d : Nat) (f : Link → Link) : (s.setLink d f).course = s.course := State.setDie_course ..

@[simp] theorem State.setSession_course (s : State) (k : Nat) (f : Session → Session) : (s.setSession k f).course = s.course :=
  State.course_update s rfl rfl rfl rfl

@[simp] theorem State.logAppend_course (s : State) (kind time : Nat) (body : List Byte) : (s.logAppend kind time body).course = s.course := by
  rw [State.logAppend_frame, State.logAppend_store]
  rfl

@[simp] theorem State.queueAll_course (s : State) (source time : Nat) (body : List Byte) : (s.queueAll source time body).course = s.course :=
  State.course_update s rfl rfl rfl rfl

@[simp] theorem State.raise_course (s : State) (source time : Nat) (body : List Byte) : (s.raise source time body).course = s.course := by
  simp [State.raise, ↓State.course_ite]

@[simp] theorem State.raiseTo_course (s : State) (k source time : Nat) (body : List Byte) : (s.raiseTo k source time body).course = s.course :=
  State.setSession_course ..

@[simp] theorem State.draw_course (s : State) : s.draw.2.course = s.course := State.course_update s rfl rfl rfl rfl

@[simp] theorem State.setCarrier_course (s : State) (n : Nat) (c : Carrier) (interrupted : Bool) :
    (s.setCarrier n c interrupted).course = s.course := State.setChan_course ..

@[simp] theorem State.pick_course (s : State) (l : List Nat) : (s.pick l).2.course = s.course := by
  unfold State.pick
  split <;> simp

/-- The same where the choice has been taken apart. -/
theorem State.course_of_pick {s u : State} {l : List Nat} {k : Option Nat} (picked : s.pick l = (k, u)) : u.course = s.course := by
  rw [← State.pick_course s l, picked]

end Sys2Proof.Machine
end

section
/-! SUPPORT. The operations of the model leave the course of a state, in the model's order. -/

namespace Sys2Proof.Machine

/-! ### Time -/

@[simp] theorem State.reanchor_course (s : State) : s.reanchor.course = s.course := by
  simp [State.reanchor, ↓State.course_update]

/-! ### Health log (R355) -/

@[simp] theorem State.healthLog_course (s : State) (e : HealthEntry) : (s.healthLog e).course = s.course := by
  simp [State.healthLog, ↓State.course_update]

@[simp] theorem State.repair_course (s : State) (e : HealthEntry) : (s.repair e).course = s.course := by
  simp [State.repair]

/-! ### Accepted operations (R54-R56) -/

@[simp] theorem State.startOp_course (s : State) (opcode handle session : Nat) :
    (s.startOp opcode handle session).2.course = s.course := by
  simp [State.startOp, ↓State.course_update]

@[simp] theorem State.completeOp_course (s : State) (tag status : Nat) (detail : List Byte) :
    (s.completeOp tag status detail).course = s.course := by
  unfold State.completeOp
  split <;> simp [↓State.course_update]

/-! ### ALARM_N (R98, R20) -/

@[simp] theorem State.alarmExit_course (s : State) (channel : Nat) (slow : Bool) : (s.alarmExit channel slow).course = s.course := by
  simp [State.alarmExit, ↓State.course_update]

@[simp] theorem State.alarmClear_course (s : State) (channel : Nat) (slow : Bool) : (s.alarmClear channel slow).course = s.course := by
  simp [State.alarmClear, ↓State.course_update]

/-! ### IRQ lines (R41) -/

@[simp] theorem State.setPort_course (s : State) (p : Port) (f : PortState → PortState) : (s.setPort p f).course = s.course := by
  unfold State.setPort
  split <;> simp [↓State.course_update]

/-! ### Forming a reply (Table 2.4) -/

@[simp] theorem State.queueReply_course (s : State) (p : Port) (x : Reply) : (s.queueReply p x).course = s.course := by
  simp [State.queueReply]

@[simp] theorem State.answer_course (s : State) (r : Req) (status : Nat) (payload : List Byte) :
    (s.answer r status payload).course = s.course := by
  simp [State.answer, ↓State.course_ite]

@[simp] theorem State.answerUnstored_course (s : State) (r : Req) (status : Nat) : (s.answerUnstored r status).course = s.course := by
  simp [State.answerUnstored]

/-! ### The order of requests (R40, R45, R49) -/

@[simp] theorem State.take_course (s : State) (p : Port) : (s.take p).course = s.course := by
  simp [State.take]

/-! ### Settling suppression (R127, Table 4.10) -/

@[simp] theorem State.disturbNarrow_course (s : State) (u : Nat) : (s.disturbNarrow u).course = s.course := by
  simp [State.disturbNarrow]

@[simp] theorem State.disturb_course (s : State) (u : Nat) : (s.disturb u).course = s.course := by
  unfold State.disturb
  split <;> simp

@[simp] theorem State.cutOver_course (s : State) (n old new : Nat) : (s.cutOver n old new).course = s.course := by
  simp [State.cutOver]

/-! ### Window comparators (R94-R99) -/

@[simp] theorem State.rearm_course (s : State) (n : Nat) (slow : Bool) : (s.rearm n slow).course = s.course := by
  simp [State.rearm]

@[simp] theorem State.windowSees_course (s : State) (n : Nat) (slow : Bool) (value : Int) (time : Nat) :
    (s.windowSees n slow value time).1.course = s.course := by
  unfold State.windowSees
  dsimp only
  split <;> simp [↓State.course_ite]

/-! ### Transient buffers (R136-R139) -/

@[simp] theorem State.setCapture_course (s : State) (r : Nat) (f : Capture → Capture) : (s.setCapture r f).course = s.course := by
  simp [State.setCapture, ↓State.course_update]

@[simp] theorem State.captureTrigger_course (s : State) (r cause tick : Nat) : (s.captureTrigger r cause tick).course = s.course := by
  simp [State.captureTrigger, ↓State.course_ite]

@[simp] theorem State.record_course (s : State) (u index : Nat) (code : Int) (flags : Nat) :
    (s.record u index code flags).course = s.course := by
  simp [State.record, course_foldl]

/-! ### Synchronising resets (R128, R106, R135, R139) -/

@[simp] theorem State.settleDrains_course (s : State) (d : Nat) : (s.settleDrains d).course = s.course := by
  simp [State.settleDrains, ↓State.course_update]

@[simp] theorem State.syncDie_course (s : State) (d c : Nat) : (s.syncDie d c).course = s.course := by
  simp [State.syncDie, ↓State.course_update, course_foldl]

@[simp] theorem State.syncTracker_course (s : State) (dies : List Nat) : (s.syncTracker dies).course = s.course := by
  simp [State.syncTracker, ↓State.course_update, ↓State.course_ite]

@[simp] theorem State.syncAt_course (s : State) (dies : List Nat) (c : Nat) : (s.syncAt dies c).course = s.course := by
  simp [State.syncAt, course_foldl]

/-! ### Health entries -/

@[simp] theorem State.noteOf_course (s : State) (kind outcome handle carrier rung detail : Nat) :
    (s.noteOf kind outcome handle carrier rung detail).course = s.course := by
  simp [State.noteOf]

@[simp] theorem State.note_course (s : State) (kind outcome handle carrier rung : Nat) :
    (s.note kind outcome handle carrier rung).course = s.course := by
  simp [State.note]

/-! ### Carriers (R352) -/

@[simp] theorem State.lose_course (s : State) (n : Nat) : (s.lose n).course = s.course := by
  simp [State.lose, ↓State.course_ite]

@[simp] theorem State.carry_course (s : State) (n : Nat) (c : Carrier) : (s.carry n c).course = s.course := by
  unfold State.carry
  extract_lets was u'
  have kept : u'.course = s.course := by simp [u']
  split
  · rw [State.note_course, kept]
  · exact kept

@[simp] theorem State.goHome_course (s : State) (n : Nat) : (s.goHome n).course = s.course := by
  simp [State.goHome, ↓State.course_ite]

/-! ### Lanes (R344) -/

@[simp] theorem State.pauseChecker_course (s : State) (k : Nat) : (s.pauseChecker k).course = s.course := by
  simp [State.pauseChecker, ↓State.course_update, ↓State.course_ite]

@[simp] theorem State.release_course (s : State) (k : Nat) : (s.release k).course = s.course := by
  simp [State.release]

@[simp] theorem State.letGo_course (s : State) (k : Nat) : (s.letGo k).course = s.course := by
  simp [State.letGo]

@[simp] theorem State.pauseRotation_course (s : State) : s.pauseRotation.course = s.course := by
  unfold State.pauseRotation
  split <;> simp [↓State.course_update]

@[simp] theorem State.assign_course (s : State) (k n prec : Nat) : (s.assign k n prec).course = s.course := by
  simp [State.assign]

/-! ### Channel substitution (R345) -/

@[simp] theorem State.substitute_course (s : State) (n k : Nat) : (s.substitute n k).course = s.course := by
  simp [State.substitute, ↓State.course_update, ↓State.course_ite]

@[simp] theorem State.keepLane_course (s : State) (n k : Nat) : (s.keepLane n k).course = s.course := by
  unfold State.keepLane
  extract_lets u _ v waits rest
  have keptU : u.course = s.course := State.setConv_course ..
  have kept : v.course = s.course := by
    refine State.course_of_ite ?_ keptU
    simp [↓State.course_update, keptU]
  simp [↓State.course_update, kept]

@[simp] theorem State.substituteIfFree_course (s : State) (n : Nat) : (s.substituteIfFree n).course = s.course := by
  unfold State.substituteIfFree
  split
  · next picked => exact State.course_of_pick picked
  · next picked => rw [State.substitute_course, State.course_of_pick picked]

/-! ### Slices and benches (R340-R342) -/

@[simp] theorem State.benchFails_course (s : State) (u b : Nat) : (s.benchFails u b).course = s.course := by
  unfold State.benchFails
  extract_lets old failed repaired held noted dead settled
  have keptHeld : held.course = s.course := by simp [held, repaired, failed, ↓State.course_ite]
  have keptNoted : noted.course = s.course := by simp [noted, keptHeld]
  have keptSettled : settled.course = s.course := by
    refine State.course_of_ite ?_ keptNoted
    split
    · simp [keptNoted]
    · simp [keptNoted, ↓State.course_ite]
  refine State.course_of_ite (State.course_of_ite ?_ keptSettled) keptNoted
  split
  · simp [↓State.course_update, keptSettled]
  · simp [keptSettled]

@[simp] theorem State.settleBench_course (s : State) (u b : Nat) (failing : List Nat) :
    (s.settleBench u b failing).course = s.course := by
  unfold State.settleBench
  split <;> simp [↓State.course_ite]

@[simp] theorem State.settleSlices_course (s : State) (u : Nat) : (s.settleSlices u).course = s.course := by
  simp [State.settleSlices, ↓State.course_ite]

@[simp] theorem State.sliceFails_course (s : State) (u e : Nat) : (s.sliceFails u e).course = s.course := by
  unfold State.sliceFails
  refine State.course_of_ite rfl ?_
  extract_lets v
  have kept : v.course = s.course := State.setConv_course ..
  split
  · split
    · next picked => rw [State.settleSlices_course, State.course_of_pick picked, kept]
    · next picked => simp [↓State.course_update, State.course_of_pick picked, kept]
  · simp [↓State.course_ite, kept]

/-! ### A sweep without results (R158, R162) -/

@[simp] theorem State.setCal_course (s : State) (u : Nat) (f : Calibration → Calibration) : (s.setCal u f).course = s.course := by
  simp [State.setCal]

@[simp] theorem State.sweepEvent_course (s : State) (u kind : Nat) (outcomes : List Byte) (rms slope : Nat) :
    (s.sweepEvent u kind outcomes rms slope).course = s.course := by
  simp [State.sweepEvent]

@[simp] theorem State.abortUnit_course (s : State) (u : Nat) : (s.abortUnit u).course = s.course := by
  simp [State.abortUnit]

/-! ### Interruption of a swept channel (R147, R150) -/

@[simp] theorem State.interrupt_course (s : State) (u : Nat) (bridge : Option Nat) : (s.interrupt u bridge).course = s.course := by
  unfold State.interrupt
  extract_lets v
  have kept : v.course = s.course := by
    unfold v
    split
    · split <;> simp
    · rfl
  simp [↓State.course_update, kept]

@[simp] theorem State.sweepLosesLane_course (s : State) (k : Nat) : (s.sweepLosesLane k).course = s.course := by
  unfold State.sweepLosesLane
  dsimp only
  (repeat' split) <;> simp [↓State.course_update]

/-! ### Preemption (Table 11.2) -/

@[simp] theorem State.evict_course (s : State) (k : Nat) : (s.evict k).course = s.course := by
  unfold State.evict
  split <;> simp [↓State.course_update, ↓State.course_ite]

@[simp] theorem State.startConfirming_course (s : State) (n first k : Nat) : (s.startConfirming n first k).course = s.course := by
  simp [State.startConfirming, ↓State.course_update]

@[simp] theorem State.lanesFreed_course (s : State) : s.lanesFreed.course = s.course := by
  unfold State.lanesFreed
  extract_lets u
  have kept : u.course = s.course := by
    refine course_foldl _ (fun v n => ?_) _ _
    split <;> simp
  split
  · exact kept
  · split
    · next picked => rw [State.course_of_pick picked, kept]
    · next picked => rw [State.startConfirming_course, State.course_of_pick picked, kept]

/-! ### Die substitution (R350) -/

@[simp] theorem State.substituteDie_course (s : State) (d : Nat) : (s.substituteDie d).course = s.course := by
  unfold State.substituteDie
  extract_lets home evicted lanes selected _ settling
  have keptHome : home.course = s.course := by
    refine course_foldl _ (fun u k => ?_) _ _
    split
    · refine State.course_of_ite ?_ rfl
      extract_lets back
      have keptBack : back.course = u.course := State.setCarrier_course ..
      rw [State.release_course]
      simp [↓State.course_update, keptBack]
    · rfl
  have keptEvicted : evicted.course = s.course := by
    refine (course_foldl _ (fun u p => course_foldl _ (fun v k => ?_) _ _) _ _).trans keptHome
    exact State.course_of_ite (State.evict_course ..) rfl
  have keptSelected : selected.course = s.course := by
    refine (course_foldl _ (fun u j => ?_) _ _).trans keptEvicted
    dsimp only
    split
    · simp [↓State.course_ite]
    · exact State.lose_course ..
  simp [settling, ↓State.course_update, keptSelected]

/-! ### Pair check (R339, R340) -/

@[simp] theorem State.blame_course (s : State) (u e now : Nat) : (s.blame u e now).course = s.course := by
  simp [State.blame, ↓State.course_ite]

/-! ### Delivery of one raw sample -/

@[simp] theorem State.deliverRaw_course (s : State) (u index : Nat) (code : Int) (flags : Nat) :
    (s.deliverRaw u index code flags).course = s.course := by
  unfold State.deliverRaw
  dsimp only
  split <;> simp [↓State.course_ite, course_foldl]

@[simp] theorem State.patchHeld_course (s : State) (u : Nat) (next : Int) : (s.patchHeld u next).course = s.course := by
  unfold State.patchHeld
  dsimp only
  (repeat' split) <;> simp

/-! ### Over-range (R79-R82) -/

@[simp] theorem State.overRangeStarts_course (s : State) (n tick : Nat) (negative : Bool) :
    (s.overRangeStarts n tick negative).course = s.course := by
  simp [State.overRangeStarts, ↓State.course_ite]

@[simp] theorem State.overRange_course (s : State) (u tick flags : Nat) (negative : Bool) :
    (s.overRange u tick flags negative).course = s.course := by
  unfold State.overRange
  split <;> simp [↓State.course_ite, course_foldl]

/-! ### The capture of a sweep (R142, R152) -/

@[simp] theorem State.captureSample_course (s : State) (u pos tick flags : Nat) (b : BenchSample) :
    (s.captureSample u pos tick flags b).course = s.course := by
  simp [State.captureSample, ↓State.course_update, ↓State.course_ite]

@[simp] theorem State.sampleUnit_course (s : State) (u index tick : Nat) (b : BenchSample) :
    (s.sampleUnit u index tick b).course = s.course := by
  simp [State.sampleUnit, ↓State.course_ite]

@[simp] theorem State.gateSample_course (s : State) (u index : Nat) (b : BenchSample) : (s.gateSample u index b).course = s.course := by
  unfold State.gateSample
  dsimp only
  split <;> simp

/-! ### Outcomes (R152, R153, R156-R158) -/

@[simp] theorem State.applySweep_course (s : State) (d : SweepDone) (o : List Nat) (m : SweepMeasure) :
    (s.applySweep d o m).course = s.course := by
  simp [State.applySweep, ↓State.course_update, ↓State.course_ite]

/-! ### Operations (R145, R159) -/

@[simp] theorem State.setRunning_course (s : State) (f : SweepOp → SweepOp) : (s.setRunning f).course = s.course := by
  simp [State.setRunning, ↓State.course_update]

@[simp] theorem State.endSweepOp_course (s : State) (status : Nat) : (s.endSweepOp status).course = s.course := by
  unfold State.endSweepOp
  split <;> simp [↓State.course_update]

@[simp] theorem State.finishSweepOp_course (s : State) : s.finishSweepOp.course = s.course := by
  unfold State.finishSweepOp
  split <;> simp [↓State.course_ite]

/-! ### Aborts (R162) -/

@[simp] theorem State.resume_course (s : State) (u : Nat) : (s.resume u).course = s.course := by
  simp [State.resume, ↓State.course_ite]

@[simp] theorem State.abortSweep_course (s : State) (status : Nat) (restore : Bool) :
    (s.abortSweep status restore).course = s.course := by
  unfold State.abortSweep
  split
  · rfl
  · extract_lets w started aborted freed _ cleared ended released
    have keptAborted : aborted.course = s.course := course_foldl _ (fun _ _ => State.abortUnit_course ..) _ _
    have keptFreed : freed.course = s.course := by
      unfold freed
      split <;> simp [keptAborted]
    have kept : ended.course = s.course := by simp [ended, cleared, ↓State.course_update, keptFreed]
    have keptReleased : released.course = s.course := by
      unfold released
      split <;> simp [kept]
    split
    · exact kept
    · refine State.course_of_ite ?_ (State.course_of_ite ?_ ?_)
      · simp [↓State.course_update, keptReleased]
      · dsimp only
        simp [↓State.course_update, ↓State.course_ite, kept]
      · extract_lets resumed last
        have keptLast : last.course = s.course := by
          unfold last
          split <;> simp [resumed, kept]
        simp [↓State.course_update, keptLast]

/-! ### Turns (R145-R147, R151) -/

@[simp] theorem State.skipUnit_course (s : State) (u : Nat) : (s.skipUnit u).course = s.course := by
  simp [State.skipUnit]

@[simp] theorem State.startUnit_course (s : State) (u temperature reference excitation : Nat) :
    (s.startUnit u temperature reference excitation).course = s.course := by
  unfold State.startUnit
  extract_lets counted side _ w v
  have kept : w.course = s.course := by simp [w, side, counted, ↓State.course_update]
  split
  · split
    · next picked => rw [State.interrupt_course, State.course_of_pick picked, kept]
    · next picked => simp [↓State.course_update, State.course_of_pick picked, kept]
  · simp [v, kept]

@[simp] theorem turnFrom_course (fuel reference temperature : Nat) (s : State) :
    (turnFrom fuel reference temperature s).course = s.course := by
  induction fuel generalizing s with
  | zero => rfl
  | succ fuel ih =>
    unfold turnFrom
    dsimp only
    repeat' split
    all_goals simp [ih]

@[simp] theorem correlateFrom_course (fuel reference temperature : Nat) (s : State) :
    (correlateFrom fuel reference temperature s).course = s.course := by
  induction fuel generalizing s with
  | zero => rfl
  | succ fuel ih =>
    unfold correlateFrom
    split
    · rfl
    · split
      · rfl
      · refine State.course_of_ite rfl (State.course_of_ite ?_ (State.course_of_ite rfl ?_))
        · simp [ih]
        · split
          · next picked => exact State.course_of_pick picked
          · next picked => simp [↓State.course_update, State.course_of_pick picked]

@[simp] theorem State.promoteNext_course (s : State) : s.promoteNext.course = s.course := by
  unfold State.promoteNext
  split <;> simp [↓State.course_update, ↓State.course_ite]

@[simp] theorem State.endInterruption_course (s : State) (u : Nat) : (s.endInterruption u).course = s.course := by
  unfold State.endInterruption
  dsimp only
  (repeat' split) <;> simp [↓State.course_update]

/-! ### Trigger sources and actions (R89-R93) -/

@[simp] theorem State.setTrigger_course (s : State) (c : Consumer) (f : Trigger → Trigger) : (s.setTrigger c f).course = s.course := by
  unfold State.setTrigger
  split <;> simp

@[simp] theorem State.missTrigger_course (s : State) (c : Consumer) : (s.missTrigger c).course = s.course := by
  unfold State.missTrigger
  split <;> simp

@[simp] theorem State.endInject_course (s : State) (c : Conv) (status : Nat) (payload : List Byte) :
    (s.endInject c status payload).course = s.course := by
  unfold State.endInject
  split
  · rfl
  · rw [State.answer_course, State.setSession_course]

@[simp] theorem State.enqueueTrigger_course (s : State) (d a : Nat) (codes : List Nat) :
    (s.enqueueTrigger d a codes).course = s.course := by
  unfold State.enqueueTrigger
  extract_lets q kept mine list answered
  refine State.course_of_ite (State.missTrigger_course ..) ((State.setSide_course ..).trans ?_)
  refine foldl_keeps (fun r : State × List Conv => r.1.course) _ (fun r k => ?_) _ _
  dsimp only
  split
  · rfl
  · cases (mine.filter (fun c => c.session = k)).head? with
    | none => rfl
    | some c => exact State.endInject_course ..

@[simp] theorem State.triggerActs_course (s : State) (c : Consumer) : (s.triggerActs c).course = s.course := by
  unfold State.triggerActs
  dsimp only
  (repeat' split) <;> simp

@[simp] theorem State.fireSource_course (s : State) (sources : List Nat) (quarter : Nat) :
    (s.fireSource sources quarter).course = s.course := by
  simp [State.fireSource, ↓State.course_ite, course_foldl]

/-! ### PWMIN edges (R92) -/

@[simp] theorem State.settlePin_course (s : State) (pin quarter : Nat) : (s.settlePin pin quarter).course = s.course := by
  unfold State.settlePin
  split <;> simp [↓State.course_update, ↓State.course_ite]

@[simp] theorem State.settlePwm_course (s : State) : s.settlePwm.course = s.course := by
  simp [State.settlePwm]

/-! ### Side slice (R84-R86) -/

@[simp] theorem State.answerInject_course (s : State) (d : Nat) (c : Conv) : (s.answerInject d c).course = s.course := by
  simp [State.answerInject]

@[simp] theorem State.dropSide_course (s : State) (d : Nat) : (s.dropSide d).course = s.course := by
  simp [State.dropSide, course_foldl]

@[simp] theorem State.conversionEvent_course (s : State) (d : Nat) : (s.conversionEvent d).course = s.course := by
  simp [State.conversionEvent]

/-! ### Capture rings (R137, R138, R394-R397) -/

@[simp] theorem State.overtakeMarks_course (s : State) (r : Nat) : (s.overtakeMarks r).course = s.course := by
  simp [State.overtakeMarks, course_foldl]

@[simp] theorem State.writeCapture_course (s : State) (r : Nat) (x : PendingRecord) : (s.writeCapture r x).course = s.course := by
  simp [State.writeCapture, ↓State.course_update]

/-! ### Acquisition -/

@[simp] theorem State.disturbChannel_course (s : State) (n : Nat) : (s.disturbChannel n).course = s.course := by
  simp [State.disturbChannel, ↓State.course_ite, course_foldl]

/-! ### CH_CONFIG (R100) -/

@[simp] theorem State.configure_course (s : State) (n : Nat) (enabled : Bool) (mode : Nat) (forwarding : Bool) :
    (s.configure n enabled mode forwarding).course = s.course := by
  unfold State.configure
  dsimp only
  split <;> simp [↓State.course_ite]

/-! ### TRIG_CONFIG (R89-R91) -/

@[simp] theorem State.fireUntil_course (s : State) (k tick : Nat) : (s.fireUntil k tick).course = s.course := by
  simp [State.fireUntil, ↓State.course_ite, course_foldl]

/-! ### SYNC (R128) -/

@[simp] theorem State.synchronise_course (s : State) (dies : List Nat) : (s.synchronise dies).course = s.course := by
  simp [State.synchronise, ↓State.course_ite]

/-! ### Live contexts -/

@[simp] theorem State.setCtx_course (s : State) (serial : Nat) (f : Context → Context) : (s.setCtx serial f).course = s.course := by
  simp [State.setCtx, ↓State.course_update]

@[simp] theorem State.putCtx_course (s : State) (c : Context) : (s.putCtx c).course = s.course := by
  simp [State.putCtx]

@[simp] theorem State.eachCtx_course (s : State) (f : State → Context → State) (keeps : ∀ u c, (f u c).course = u.course) :
    (s.eachCtx f).course = s.course := by
  refine course_foldl _ (fun u n => ?_) _ _
  split
  · exact keeps ..
  · rfl

/-! ### The journal (R387) -/

@[simp] theorem State.journalAdd_course (s : State) (r : JournalRecord) : (s.journalAdd r).course = s.course := by
  simp [State.journalAdd, ↓State.course_update, ↓State.course_ite]

@[simp] theorem State.journalCtx_course (s : State) (c : Context) (type code time : Nat) (provisional : Bool) :
    (s.journalCtx c type code time provisional).course = s.course := by
  simp [State.journalCtx, ↓State.course_ite]

@[simp] theorem State.journalFeed_course (s : State) (serial : Nat) (bytes : List Byte) :
    (s.journalFeed serial bytes).course = s.course := by
  simp [State.journalFeed, ↓State.course_ite]

@[simp] theorem State.journalSettings_course (s : State) : s.journalSettings.course = s.course := by
  simp [State.journalSettings]

@[simp] theorem State.journalBalance_course (s : State) (group : Nat) (x : GroupInterval) :
    (s.journalBalance group x).course = s.course := by
  simp [State.journalBalance]

@[simp] theorem State.renewJournal_course (s : State) : s.renewJournal.course = s.course := by
  unfold State.renewJournal
  extract_lets low held old u now
  have kept : u.course = s.course := by
    refine course_foldl _ (fun v r => ?_) _ _
    refine State.course_of_ite rfl ?_
    split <;> simp [↓State.course_ite]
  exact (State.course_update u rfl rfl rfl rfl).trans kept

/-! ### The pool (R246, R383) -/

@[simp] theorem State.poolWrite_course (s : State) (c : Context) : (s.poolWrite c).course = s.course := by
  simp [State.poolWrite, ↓State.course_update, ↓State.course_ite]

@[simp] theorem State.poolKeep_course (s : State) (serial : Nat) : (s.poolKeep serial).course = s.course := by
  unfold State.poolKeep
  split <;> simp

@[simp] theorem State.setPool_course (s : State) (serial : Nat) (f : Context → Context) : (s.setPool serial f).course = s.course := by
  simp [State.setPool, ↓State.course_update]

@[simp] theorem State.setAnyCtx_course (s : State) (serial : Nat) (f : Context → Context) :
    (s.setAnyCtx serial f).course = s.course := by
  simp [State.setAnyCtx, ↓State.course_ite]

/-! ### The keys of the vault and the crypto engine (R400, R402) -/

@[simp] theorem State.takeUp_course (s : State) : s.takeUp.course = s.course := by
  simp [State.takeUp, ↓State.course_update, ↓State.course_ite]

/-! ### Signatures (R403-R405) -/

@[simp] theorem State.signature_course (s : State) (message : List Byte) : (s.signature message).2.course = s.course := by
  simp [State.signature, ↓State.course_update]

@[simp] theorem State.recordSigned_course (s : State) (job : SignJob) (signature : Option (List Byte)) :
    (s.recordSigned job signature).course = s.course := by
  unfold State.recordSigned
  dsimp only
  (repeat' split) <;> simp [↓State.course_update]

@[simp] theorem State.backlogEvent_course (s : State) : s.backlogEvent.course = s.course := by
  simp [State.backlogEvent]

@[simp] theorem State.raiseBacklog_course (s : State) : s.raiseBacklog.course = s.course := by
  simp [State.raiseBacklog, ↓State.course_update, ↓State.course_ite]

@[simp] theorem State.queueJob_course (s : State) (job : SignJob) : (s.queueJob job).course = s.course := by
  simp [State.queueJob, ↓State.course_update, ↓State.course_ite]

@[simp] theorem State.signRecord_course (s : State) (job : SignJob) : (s.signRecord job).course = s.course := by
  simp [State.signRecord, ↓State.course_ite]

/-! ### Records of a context in the store -/

@[simp] theorem State.storeSnapshot_course (s : State) (x : Snapshot) : (s.storeSnapshot x).course = s.course := by
  simp [State.storeSnapshot, ↓State.course_update, ↓State.course_ite]

@[simp] theorem State.storeProfile_course (s : State) (c : Context) (bytes : List Byte) :
    (s.storeProfile c bytes).course = s.course := by
  simp [State.storeProfile, ↓State.course_update, ↓State.course_ite]

@[simp] theorem State.storeTamper_course (s : State) (x : TamperRecord) : (s.storeTamper x).course = s.course := by
  simp [State.storeTamper, ↓State.course_update, ↓State.course_ite]

/-! ### Balance -/

@[simp] theorem State.setGroup_course (s : State) (g : Nat) (f : Group → Group) : (s.setGroup g f).course = s.course := by
  simp [State.setGroup, ↓State.course_update]

/-! ### Columns (R273, R274) -/

@[simp] theorem State.groupTick_course (s : State) (serial : Nat) (energy : List Int) (flags : Nat) :
    (s.groupTick serial energy flags).course = s.course := by
  simp [State.groupTick, ↓State.course_update]

/-! ### Shadow feeds (R274) -/

@[simp] theorem State.groupFeedTo_course (s : State) (k : Nat) (f : GroupFeed) : (s.groupFeedTo k f).course = s.course := by
  simp [State.groupFeedTo, ↓State.course_ite]

@[simp] theorem State.groupFeed_course (s : State) (f : GroupFeed) : (s.groupFeed f).course = s.course := by
  simp [State.groupFeed, course_foldl]

/-! ### Missing members (R273, R274) -/

@[simp] theorem State.groupDelete_course (s : State) (serial : Nat) : (s.groupDelete serial).course = s.course := by
  simp [State.groupDelete, ↓State.course_update]

@[simp] theorem State.groupPark_course (s : State) (serial : Nat) : (s.groupPark serial).course = s.course := by
  simp [State.groupPark, ↓State.course_update]

/-! ### Intervals (R273-R275) -/

@[simp] theorem State.dropFeeder_course (s : State) (serial k : Nat) : (s.dropFeeder serial k).course = s.course := by
  simp [State.dropFeeder]

@[simp] theorem State.nameFeeder_course (s : State) (serial k : Nat) : (s.nameFeeder serial k).course = s.course := by
  simp [State.nameFeeder]

@[simp] theorem State.setFeeder_course (s : State) (old new k : Nat) : (s.setFeeder old new k).course = s.course := by
  simp [State.setFeeder, ↓State.course_ite]

@[simp] theorem State.applyGroup_course (s : State) (k : Nat) : (s.applyGroup k).course = s.course := by
  unfold State.applyGroup
  dsimp only
  split <;> simp

@[simp] theorem State.openGroup_course (s : State) (k start flags : Nat) : (s.openGroup k start flags).course = s.course := by
  simp [State.openGroup, ↓State.course_ite]

@[simp] theorem State.endGroup_course (s : State) (k flags : Nat) : (s.endGroup k flags).course = s.course := by
  unfold State.endGroup
  split <;> simp [↓State.course_ite]

@[simp] theorem State.groupTurn_course (s : State) (k : Nat) : (s.groupTurn k).course = s.course := by
  unfold State.groupTurn
  dsimp only
  split <;> simp [↓State.course_ite]

@[simp] theorem State.groupTurns_course (s : State) : s.groupTurns.course = s.course := by
  simp [State.groupTurns, course_foldl]

@[simp] theorem State.cutGroups_course (s : State) (a a' : Nat) : (s.cutGroups a a').course = s.course := by
  unfold State.cutGroups
  refine course_foldl _ (fun u k => ?_) _ _
  dsimp only
  split <;> simp

/-! ### Finalisation and alerts (R275, R276) -/

@[simp] theorem State.finaliseGroup_course (s : State) (k : Nat) (x : GroupInterval) : (s.finaliseGroup k x).course = s.course := by
  simp [State.finaliseGroup, ↓State.course_ite, course_foldl]

/-! ### Dips, swells and interruptions (R202-R205, Table 6.5) -/

@[simp] theorem State.raisePq_course (s : State) (sys source time handle : Nat) (items : List Byte) :
    (s.raisePq sys source time handle items).course = s.course := by
  simp [State.raisePq, ↓State.course_ite]

@[simp] theorem State.pqKind_course (s : State) (kind sys : Nat) (vals : List HalfValue) (stamp : Nat) :
    (s.pqKind kind sys vals stamp).course = s.course := by
  unfold State.pqKind
  dsimp only
  (repeat' split) <;> simp [↓State.course_update]

/-! ### Rapid voltage changes (R206) -/

@[simp] theorem State.rvcSees_course (s : State) (sys : Nat) (v : HalfValue) (stamp : Nat) (spoiled : Bool) :
    (s.rvcSees sys v stamp spoiled).course = s.course := by
  simp [State.rvcSees, ↓State.course_update, ↓State.course_ite]

@[simp] theorem State.pqHalf_course (s : State) (sys : Nat) (vals : List HalfValue) (stamp : Nat) :
    (s.pqHalf sys vals stamp).course = s.course := by
  simp [State.pqHalf, ↓State.course_ite, course_foldl]

/-! ### Limit events (R207) -/

@[simp] theorem State.limitEvent_course (s : State) (source key handle : Nat) (enabled : Bool) (out : Bool) (value limit : F32)
    (who : List Byte) (stop : Nat) :
    (s.limitEvent source key handle enabled out value limit who stop).course = s.course := by
  simp [State.limitEvent, ↓State.course_update, ↓State.course_ite]

/-! ### Limit events on 10-minute values (R207) -/

@[simp] theorem State.channelLimit_course (s : State) (source n key : Nat) (bitNo : Nat) (v limit : Rat) (stop : Nat) :
    (s.channelLimit source n key bitNo v limit stop).course = s.course := by
  simp [State.channelLimit]

@[simp] theorem State.pstLimits_course (s : State) (vs : List MeasValue) (stop : Nat) : (s.pstLimits vs stop).course = s.course := by
  refine course_foldl _ (fun u v => ?_) _ _
  dsimp only
  split <;> simp [↓State.course_ite]

@[simp] theorem State.harmonicLimits_course (s : State) (b : MeasBlock) (n : Nat) : (s.harmonicLimits b n).course = s.course := by
  unfold State.harmonicLimits
  extract_lets p u
  have kept : u.course = s.course := by
    unfold u
    split <;> simp
  refine (course_foldl _ (fun v k => ?_) _ _).trans kept
  split <;> simp [↓State.course_ite]

@[simp] theorem State.unbalanceLimit_course (s : State) (b : MeasBlock) (k : Nat) : (s.unbalanceLimit b k).course = s.course := by
  unfold State.unbalanceLimit
  split <;> simp

@[simp] theorem State.tenLimits_course (s : State) (b : MeasBlock) : (s.tenLimits b).course = s.course := by
  simp [State.tenLimits, ↓State.course_ite, course_foldl]

/-! ### Pst (R198, R199) -/

@[simp] theorem State.closePst_course (s : State) (n start stop own : Nat) (keys : Nat → Bool) :
    (s.closePst n start stop own keys).course = s.course := by
  simp [State.closePst, ↓State.course_update]

@[simp] theorem State.closePsts_course (s : State) (t : Track) (start stop own : Nat) (keys : Nat → Bool) :
    (s.closePsts t start stop own keys).course = s.course := by
  simp [State.closePsts, course_foldl]

/-! ### 10 minutes (R180, R197) -/

@[simp] theorem State.closeTenTrack_course (s : State) (t : Track) (take : MeasBlock → Bool) (stop own : Nat) :
    (s.closeTenTrack t take stop own).course = s.course := by
  unfold State.closeTenTrack
  dsimp only
  split <;> simp [↓State.course_update]

@[simp] theorem State.closeTen_course (s : State) (take : MeasBlock → Bool) (stop next own after : Nat) :
    (s.closeTen take stop next own after).course = s.course := by
  simp [State.closeTen, ↓State.course_update, course_foldl]

/-! ### 2 hours (R182, R198) -/

@[simp] theorem State.closeTwoTrack_course (s : State) (t : Track) (take : MeasBlock → Bool) (stop own : Nat) :
    (s.closeTwoTrack t take stop own).course = s.course := by
  simp [State.closeTwoTrack, ↓State.course_update]

@[simp] theorem State.closeTwo_course (s : State) (take : MeasBlock → Bool) (stop next own after : Nat) :
    (s.closeTwo take stop next own after).course = s.course := by
  simp [State.closeTwo, ↓State.course_update, course_foldl]

/-! ### Supraharmonic blocks (R195-R197) -/

@[simp] theorem State.endBlock_course (s : State) (d : Nat) : (s.endBlock d).course = s.course := by
  simp [State.endBlock, ↓State.course_update, ↓State.course_ite]

/-! ### Clock adjustments (R186) -/

@[simp] theorem State.closePassedTwo_course (s : State) (stop : Nat) : (s.closePassedTwo stop).course = s.course := by
  unfold State.closePassedTwo
  split <;> simp [↓State.course_ite]

@[simp] theorem State.closeCut_course (s : State) (c : ClockCut) : (s.closeCut c).course = s.course := by
  simp [State.closeCut, ↓State.course_update, ↓State.course_ite]

@[simp] theorem State.settleCut_course (s : State) : s.settleCut.course = s.course := by
  simp [State.settleCut, ↓State.course_ite, course_foldl]

@[simp] theorem State.cutPsts_course (s : State) (start flags a : Nat) (tracks : List Track) :
    (s.cutPsts start flags a tracks).course = s.course := by
  simp [State.cutPsts, course_foldl]

@[simp] theorem State.clockCut_course (s : State) (b a a' : Nat) : (s.clockCut b a a').course = s.course := by
  unfold State.clockCut
  dsimp only
  split <;> simp [↓State.course_update]

/-! ### MEAS_CONFIG takes effect (R177, R201, R205) -/

@[simp] theorem State.applyConfig_course (s : State) (stamp tick : Nat) : (s.applyConfig stamp tick).course = s.course := by
  simp [State.applyConfig, ↓State.course_update, ↓State.course_ite, course_foldl]

/-! ### Basic intervals (R179, R183-R185) -/

@[simp] theorem State.endBasic_course (s : State) (b : BasicOpen) : (s.endBasic b).course = s.course := by
  simp [State.endBasic, ↓State.course_update]

@[simp] theorem State.endOldestBasic_course (s : State) : s.endOldestBasic.course = s.course := by
  unfold State.endOldestBasic
  split <;> simp [↓State.course_update, ↓State.course_ite]

@[simp] theorem State.settleConfig_course (s : State) : s.settleConfig.course = s.course := by
  unfold State.settleConfig
  split <;> simp [↓State.course_ite]

/-! ### TICK_CLOSE (R211) -/

@[simp] theorem State.closeTick_course (s : State) : s.closeTick.course = s.course := by
  simp [State.closeTick, ↓State.course_update]

/-! ### Wideband (R108, R133) -/

@[simp] theorem State.putEnvelope_course (s : State) (u n : Nat) (w : Int) (block : Option (Rat × Nat)) :
    (s.putEnvelope u n w block).course = s.course := by
  unfold State.putEnvelope
  split <;> simp

/-! #### Flickermeter (R198) -/

@[simp] theorem State.deliverWide_course (s : State) (u n : Nat) (x : StreamSample) : (s.deliverWide u n x).course = s.course := by
  simp [State.deliverWide, ↓State.course_update, ↓State.course_ite]

@[simp] theorem State.formWide_course (s : State) (u n : Nat) (w : Int) : (s.formWide u n w).course = s.course := by
  simp [State.formWide, ↓State.course_ite]

@[simp] theorem State.skipWide_course (s : State) (u n : Nat) (w : Int) : (s.skipWide u n w).course = s.course := by
  simp [State.skipWide, ↓State.course_ite]

/-! ### Narrowband (R109, R112, R116) -/

@[simp] theorem State.correlates_course (s : State) (u : Nat) (x : StreamSample) : (s.correlates u x).course = s.course := by
  simp [State.correlates, ↓State.course_update, ↓State.course_ite]

@[simp] theorem State.formNarrow_course (s : State) (u n : Nat) (v : Int) (crossing : Option Nat) :
    (s.formNarrow u n v crossing).course = s.course := by
  unfold State.formNarrow
  extract_lets c on delivered ch y x formed correlated forwarded
  have keptDelivered : delivered.course = s.course := State.setChan_course ..
  have kept : correlated.course = s.course := by simp [correlated, formed, keptDelivered]
  have keptForwarded : forwarded.course = s.course := by simp [forwarded, kept]
  refine State.course_of_ite ?_ kept
  split
  · simp [↓State.course_update, ↓State.course_ite, keptForwarded]
  · exact keptForwarded

/-! ### The tally's samples (R361) -/

@[simp] theorem State.tallySample_course (s : State) (k : Nat) (x : StreamSample) : (s.tallySample k x).course = s.course := by
  simp [State.tallySample, ↓State.course_update]

@[simp] theorem State.gateNarrow_course (s : State) (u n : Nat) (v : Int) : (s.gateNarrow u n v).course = s.course := by
  simp [State.gateNarrow]

/-! ### Synchronous samples (R122, R125-R127) -/

@[simp] theorem State.spend_course (s : State) (u : Nat) (v : Int) (tick : Nat) (first : Bool) :
    (s.spend u v tick first).1.course = s.course := by
  unfold State.spend
  dsimp only
  split <;> simp

@[simp] theorem State.unitCycle_course (s : State) (c : CycleRecord) (u : Nat) : (s.unitCycle c u).1.course = s.course := by
  unfold State.unitCycle
  refine foldl_keeps (fun r : State × List (Option StreamSample) => r.1.course) _ (fun r j => ?_) (List.range 1024) (s, [])
  dsimp only
  split <;> simp

@[simp] theorem State.unitCycles_course (s : State) (c : CycleRecord) : (s.unitCycles c).1.course = s.course := by
  unfold State.unitCycles
  refine course_foldl_pair _ (fun r u v units same => ?_) _ _
  obtain ⟨same, -⟩ := Prod.mk.inj same
  rw [← same, State.unitCycle_course]

/-! ### Home and lane compared (R346, R347, R353) -/

@[simp] theorem State.compare_course (s : State) (c : CycleRecord) (units : List (List (Option StreamSample))) (n : Nat) :
    (s.compare c units n).course = s.course := by
  unfold State.compare
  split
  · rfl
  · split <;> simp

@[simp] theorem State.samples_course (s : State) (c : CycleRecord) : (s.samples c).1.course = s.course := by
  simp [State.samples, ↓State.course_update, course_foldl]

/-! ### Half-cycle peaks (R131) -/

@[simp] theorem State.halfCyclePeaks_course (s : State) (c : CycleRecord) (n : Nat) : (s.halfCyclePeaks c n).course = s.course := by
  unfold State.halfCyclePeaks
  dsimp only
  (repeat' split) <;> simp

/-! ### One-cycle RMS (R132) -/

@[simp] theorem State.rmsResult_course (s : State) (n index time value flags : Nat) :
    (s.rmsResult n index time value flags).course = s.course := by
  simp [State.rmsResult]

@[simp] theorem State.halfValue_course (s : State) (c : CycleRecord) (n half start stop : Nat) :
    (s.halfValue c n half start stop).1.course = s.course := by
  unfold State.halfValue
  split <;> simp

@[simp] theorem State.halfCycle_course (s : State) (c : CycleRecord) (half : Nat) : (s.halfCycle c half).course = s.course := by
  unfold State.halfCycle
  extract_lets end_ stop start r u
  have keptHalves : r.1.course = s.course :=
    foldl_keeps (fun a : State × List HalfValue => a.1.course) _ (fun a n => State.halfValue_course ..) _ _
  have kept : u.course = s.course := (course_foldl _ (fun _ _ => State.pqHalf_course ..) _ _).trans keptHalves
  refine State.course_of_ite kept ?_
  simp [↓State.course_update, kept]

/-! ### Powers and energies (R208-R212) -/

@[simp] theorem State.integrate_course (s : State) (c : CycleRecord) (system : Bool) (object : Nat)
    (grid : List (Option GridPower)) (q a : Option Rat) :
    (s.integrate c system object grid q a).course = s.course := by
  simp [State.integrate, ↓State.course_update]

@[simp] theorem State.integrateAll_course (s : State) (c : CycleRecord) : (s.integrateAll c).course = s.course := by
  simp [State.integrateAll, course_foldl]

@[simp] theorem State.cycleLatest_course (s : State) (c : CycleRecord) : (s.cycleLatest c).course = s.course := by
  simp [State.cycleLatest, ↓State.course_update]

/-! ### Basic intervals (R179, R180) -/

@[simp] theorem State.openBasic_course (s : State) (c : CycleRecord) : (s.openBasic c).course = s.course := by
  unfold State.openBasic
  dsimp only
  (repeat' split) <;> simp [↓State.course_update]

@[simp] theorem State.growBasics_course (s : State) (c : CycleRecord) : (s.growBasics c).course = s.course := by
  simp [State.growBasics, ↓State.course_update]

/-! ### The row -/

@[simp] theorem State.baseCycles_course (s : State) (c : CycleRecord) : (s.baseCycles c).course = s.course := by
  simp [State.baseCycles, ↓State.course_update]

@[simp] theorem State.cycle_course (s : State) (c : CycleRecord) : (s.cycle c).course = s.course := by
  simp [State.cycle, ↓State.course_update, course_foldl]

/-! ### MEAS_CONFIG (R174-R177, R506) -/

@[simp] theorem State.acceptConfig_course (s : State) (c : MeasConfig) : (s.acceptConfig c).course = s.course := by
  simp [State.acceptConfig, ↓State.course_update]

/-! ### 10-second frequency (R189, R207) -/

@[simp] theorem State.bandLimit_course (s : State) (b : MeasBlock) : (s.bandLimit b).course = s.course := by
  unfold State.bandLimit
  split <;> simp

@[simp] theorem State.closeSecond_course (s : State) (start next : Nat) : (s.closeSecond start next).course = s.course := by
  simp [State.closeSecond, ↓State.course_update]

@[simp] theorem State.cutSecond_course (s : State) (a' : Nat) : (s.cutSecond a').course = s.course := by
  unfold State.cutSecond
  split <;> simp [↓State.course_update, ↓State.course_ite]

@[simp] theorem State.cutPinst_course (s : State) (a a' : Nat) : (s.cutPinst a a').course = s.course := by
  simp [State.cutPinst, ↓State.course_update, ↓State.course_ite]

/-! ### Relays (R263, R264) -/

@[simp] theorem State.setRelay_course (s : State) (k : Nat) (closed : Bool) (cause : Nat) :
    (s.setRelay k closed cause).course = s.course := by
  unfold State.setRelay
  dsimp only
  (repeat' split) <;> simp [↓State.course_update]

/-! ### States (Table 8.1) -/

@[simp] theorem State.raiseCtx_course (s : State) (source serial : Nat) (items : Context → List Byte) :
    (s.raiseCtx source serial items).course = s.course := by
  unfold State.raiseCtx
  split <;> simp

@[simp] theorem State.enterState_course (s : State) (serial new cause : Nat) : (s.enterState serial new cause).course = s.course := by
  unfold State.enterState
  split <;> simp [↓State.course_ite]

@[simp] theorem State.driveRelay_course (s : State) (c : Context) (cause : Nat) : (s.driveRelay c cause).course = s.course := by
  simp [State.driveRelay, ↓State.course_ite]

@[simp] theorem State.reevaluate_course (s : State) (serial cause : Nat) : (s.reevaluate serial cause).course = s.course := by
  unfold State.reevaluate
  split <;> simp [↓State.course_ite]

@[simp] theorem State.grantEvent_course (s : State) (serial : Nat) (ended : Bool) : (s.grantEvent serial ended).course = s.course := by
  simp [State.grantEvent]

@[simp] theorem State.grant_course (s : State) (serial amount cause : Nat) : (s.grant serial amount cause).course = s.course := by
  simp [State.grant]

@[simp] theorem State.reconnect_course (s : State) (serial cause : Nat) : (s.reconnect serial cause).course = s.course := by
  unfold State.reconnect
  split <;> simp

/-! ### Friendly hours (R262) -/

@[simp] theorem State.setFriendly_course (s : State) (serial new : Nat) : (s.setFriendly serial new).course = s.course := by
  unfold State.setFriendly
  split <;> simp [↓State.course_ite]

@[simp] theorem State.prepayDecide_course (s : State) (c : Context) (utc : Int) : (s.prepayDecide c utc).course = s.course := by
  simp [State.prepayDecide, ↓State.course_ite]

/-! ### Records (R270) -/

@[simp] theorem State.openTamper_course (s : State) (serial kind source start : Nat) (base : Nat × Nat) (extreme : Rat) (flags : Nat) :
    (s.openTamper serial kind source start base extreme flags).course = s.course := by
  unfold State.openTamper
  split <;> simp [↓State.course_ite]

@[simp] theorem State.closeTamper_course (s : State) (serial kind stop : Nat) (last : Nat × Nat) (through flags : Nat) :
    (s.closeTamper serial kind stop last through flags).course = s.course := by
  unfold State.closeTamper
  dsimp only
  (repeat' split) <;> simp

@[simp] theorem State.closeTamperAt_course (s : State) (serial kind stop flags : Nat) :
    (s.closeTamperAt serial kind stop flags).course = s.course := by
  unfold State.closeTamperAt
  split <;> simp

@[simp] theorem State.closeTampers_course (s : State) (serial stop flags : Nat) (kinds : List Nat) :
    (s.closeTampers serial stop flags kinds).course = s.course := by
  simp [State.closeTampers, course_foldl]

/-! ### Reversed current (kind 0) -/

@[simp] theorem State.tamperElement_course (s : State) (serial element : Nat) (energy : Int) (start : Nat) (before after : Nat × Nat) :
    (s.tamperElement serial element energy start before after).course = s.course := by
  unfold State.tamperElement
  split <;> simp [↓State.course_ite]

/-! ### Switch inputs (kinds 3-6) -/

@[simp] theorem State.tamperSwitches_course (s : State) (serial : Nat) : (s.tamperSwitches serial).course = s.course := by
  refine course_foldl _ (fun u k => ?_) _ _
  dsimp only
  split <;> simp [↓State.course_ite]

/-! ### Bypass and missing neutral (kinds 1 and 2) -/

@[simp] theorem State.tamperRunInterval_course (s : State) (serial kind : Nat) (b : MeasBlock) (test : Option (Bool × Rat)) (need : Nat) :
    (s.tamperRunInterval serial kind b test need).course = s.course := by
  unfold State.tamperRunInterval
  dsimp only
  (repeat' split) <;> simp

@[simp] theorem State.tamperInterval_course (s : State) (b : MeasBlock) : (s.tamperInterval b).course = s.course := by
  simp [State.tamperInterval, ↓State.course_ite]

@[simp] theorem State.tamperIntervals_course (s : State) (u : Nat) : (s.tamperIntervals u).course = s.course := by
  simp [State.tamperIntervals, ↓State.course_update, course_foldl]

/-! ### Step 1: folding (R222) -/

@[simp] theorem State.foldCtx_course (s : State) (c : Context) (k : ClosedTick) (u0 u own : Nat) :
    (s.foldCtx c k u0 u own).course = s.course := by
  simp [State.foldCtx, ↓State.course_ite, course_foldl]

/-! ### Step 2: demand and load profile (R229-R232) -/

@[simp] theorem State.closeDemand_course (s : State) (serial stop flags now : Nat) :
    (s.closeDemand serial stop flags now).course = s.course := by
  unfold State.closeDemand
  split <;> simp [↓State.course_ite]

@[simp] theorem State.closeProfile_course (s : State) (serial stop flags now : Nat) :
    (s.closeProfile serial stop flags now).course = s.course := by
  unfold State.closeProfile
  split <;> simp [↓State.course_ite]

@[simp] theorem State.closeOpen_course (s : State) (serial stop flags : Nat) : (s.closeOpen serial stop flags).course = s.course := by
  simp [State.closeOpen]

@[simp] theorem State.applyDemand_course (s : State) (serial now : Nat) (mode length n : Nat) :
    (s.applyDemand serial now mode length n).course = s.course := by
  unfold State.applyDemand
  split <;> simp [↓State.course_ite]

/-! ### Steps 3 and 4: tariff and snapshot (R225-R227, R234) -/

@[simp] theorem State.changeTariff_course (s : State) (serial new instant : Nat) :
    (s.changeTariff serial new instant).course = s.course := by
  unfold State.changeTariff
  split <;> simp [↓State.course_ite]

@[simp] theorem State.sourceTariff_course (s : State) (serial boundary instant : Nat) :
    (s.sourceTariff serial boundary instant).course = s.course := by
  unfold State.sourceTariff
  split <;> simp

@[simp] theorem State.decideAt_course (s : State) (serial instant : Nat) : (s.decideAt serial instant).course = s.course := by
  unfold State.decideAt
  split <;> simp

@[simp] theorem State.takeSnapshot_course (s : State) (serial flags boundaries stop last : Nat) :
    (s.takeSnapshot serial flags boundaries stop last).course = s.course := by
  unfold State.takeSnapshot
  split <;> simp

@[simp] theorem State.snapshotEach_course (s : State) (serial flags : Nat) (bs : List Nat) :
    (s.snapshotEach serial flags bs).course = s.course := by
  simp [State.snapshotEach, ↓State.course_ite, course_foldl]

@[simp] theorem State.snapshotForced_course (s : State) (serial stop : Nat) (bs : List Nat) :
    (s.snapshotForced serial stop bs).course = s.course := by
  simp [State.snapshotForced, ↓State.course_ite]

/-! ### What is due at a boundary (R236, R244, Table 7.11) -/

@[simp] theorem State.journalDue_course (s : State) (serial mask instant : Nat) :
    (s.journalDue serial mask instant).course = s.course := by
  unfold State.journalDue
  split <;> simp

@[simp] theorem State.journalDone_course (s : State) (serial code : Nat) : (s.journalDone serial code).course = s.course := by
  unfold State.journalDone
  split <;> simp

@[simp] theorem State.startDue_course (s : State) (d : DueActions) : (s.startDue d).course = s.course := by
  simp [State.startDue, ↓State.course_update, course_foldl]

@[simp] theorem State.writeDone_course (s : State) (d : DueActions) (maskBit code : Nat) :
    (s.writeDone d maskBit code).course = s.course := by
  simp [State.writeDone, ↓State.course_ite, course_foldl]

@[simp] theorem State.demandStep_course (s : State) (d : DueActions) (c : Context) : (s.demandStep d c).course = s.course := by
  unfold State.demandStep
  dsimp only
  (repeat' split) <;> simp

@[simp] theorem State.profileStep_course (s : State) (d : DueActions) (c : Context) : (s.profileStep d c).course = s.course := by
  unfold State.profileStep
  dsimp only
  (repeat' split) <;> simp

@[simp] theorem State.checkpointAll_course (s : State) (time : Nat) : (s.checkpointAll time).course = s.course := by
  unfold State.checkpointAll
  rw [State.renewJournal_course, course_foldl _ (fun u k => ?_)]
  · simp
  · split <;> simp

@[simp] theorem State.runStep_course (s : State) (d : DueActions) (k : Nat) : (s.runStep d k).course = s.course := by
  unfold State.runStep
  split <;> simp [↓State.course_update, ↓State.course_ite]

@[simp] theorem State.stepOnce_course (s : State) : s.stepOnce.course = s.course := by
  unfold State.stepOnce
  split <;> simp [↓State.course_update]

@[simp] theorem State.advance_course (n : Nat) (s : State) : (State.advance n s).course = s.course := by
  induction n generalizing s with
  | zero => rfl
  | succ n ih =>
    unfold State.advance
    split
    · rfl
    · exact State.course_of_ite rfl ((ih _).trans (State.stepOnce_course s))

@[simp] theorem State.settleThrough_course (k n : Nat) (s : State) : (State.settleThrough k n s).course = s.course := by
  induction n generalizing s with
  | zero => rfl
  | succ n ih =>
    unfold State.settleThrough
    split
    · rfl
    · exact State.course_of_ite ((ih _).trans (State.stepOnce_course s)) rfl

@[simp] theorem State.finishDue_course (s : State) : s.finishDue.course = s.course := by
  simp [State.finishDue]

/-! ### Clock adjustments (R238-R242) -/

@[simp] theorem State.commitStep_course (s : State) (a : Adjustment) : (s.commitStep a).course = s.course := by
  simp [State.commitStep, ↓State.course_update]

@[simp] theorem State.ppsEvent_course (s : State) (state : Nat) (step : Int) : (s.ppsEvent state step).course = s.course := by
  simp [State.ppsEvent]

@[simp] theorem State.restartAfter_course (s : State) (b : Nat) (split : Bool) (a' : Nat) (c : Context) :
    (s.restartAfter b split a' c).course = s.course := by
  simp [State.restartAfter]

@[simp] theorem State.adjust_course (s : State) (b : Nat) (x : Adjustment) : (s.adjust b x).course = s.course := by
  simp [State.adjust, ↓State.course_ite]

@[simp] theorem State.adjustAll_course (s : State) (b : Nat) : (s.adjustAll b).course = s.course := by
  simp [State.adjustAll, course_foldl]

/-! ### The fold (R16, R222, R236) -/

@[simp] theorem State.foldTick_course (s : State) : s.foldTick.course = s.course := by
  unfold State.foldTick
  split <;> simp [↓State.course_update, ↓State.course_ite]

@[simp] theorem State.queueTick_course (s : State) : s.queueTick.course = s.course := by
  simp [State.queueTick, ↓State.course_update, ↓State.course_ite]

@[simp] theorem State.dueRow_course (s : State) (k : Nat) : (s.dueRow k).course = s.course := by
  unfold State.dueRow
  split <;> simp [↓State.course_ite]

/-! ### Images (R166-R168, Tables 5.11 and 5.12) -/

@[simp] theorem State.takeImage_course (s : State) (r : Req) (u k : Nat) : (s.takeImage r u k).course = s.course := by
  simp [State.takeImage, ↓State.course_ite]

/-! ### Store slots (R169-R173) -/

@[simp] theorem State.restoreCal_course (s : State) (k : CalSlot) (ramp : Bool) : (s.restoreCal k ramp).course = s.course := by
  simp [State.restoreCal, ↓State.course_update]

/-! ### SET_TIME, GET_TIME, SET_CLOCK_POLICY -/

@[simp] theorem State.planStep_course (s : State) (a : Adjustment) : (s.planStep a).course = s.course := by
  simp [State.planStep, ↓State.course_update]

/-! ### PPS (R448-R452) -/

@[simp] theorem State.ppsStep_course (s : State) (d : Int) : (s.ppsStep d).course = s.course := by
  simp [State.ppsStep, ↓State.course_update, ↓State.course_ite]

@[simp] theorem State.releaseStep_course (s : State) : s.releaseStep.course = s.course := by
  unfold State.releaseStep
  split <;> simp [↓State.course_update, ↓State.course_ite]

@[simp] theorem State.correctPhase_course (s : State) (quarter : Nat) : (s.correctPhase quarter).course = s.course := by
  simp [State.correctPhase, ↓State.course_update, ↓State.course_ite]

@[simp] theorem State.estimate_course (s : State) (length : Nat) : (s.estimate length).course = s.course := by
  simp [State.estimate, ↓State.course_update, ↓State.course_ite]

@[simp] theorem State.ppsSeen_course (s : State) (quarter : Nat) : (s.ppsSeen quarter).course = s.course := by
  simp [State.ppsSeen, ↓State.course_update, ↓State.course_ite]

/-! ### The RTC (R453, R454, R243) -/

@[simp] theorem State.rtcLost_course (s : State) : s.rtcLost.course = s.course := by
  simp [State.rtcLost, ↓State.course_update, ↓State.course_ite]

/-! ### Boundaries and midnights between feeds (R252, R266) -/

@[simp] theorem State.passInstants_course (s : State) (serial flags : Nat) (own : Bool) (l : List (Nat × Bool)) :
    (s.passInstants serial flags own l).course = s.course := by
  simp [State.passInstants, ↓State.course_ite, course_foldl]

/-! ### Prepayment of shadow contexts (R267) -/

@[simp] theorem State.compareRelay_course (s : State) (serial : Nat) (b : List Byte) : (s.compareRelay serial b).course = s.course := by
  unfold State.compareRelay
  split <;> simp [↓State.course_ite]

/-! ### Applying a feed (R251) -/

@[simp] theorem State.feedSteps_course (s : State) (serial : Nat) (x : FeedPlan) (changed : Bool) (at_ : List (Nat × Bool)) :
    (s.feedSteps serial x changed at_).course = s.course := by
  simp [State.feedSteps, ↓State.course_ite]

@[simp] theorem State.useFeed_course (s : State) (c : Context) (b : List Byte) (parked : Nat) (journal : Bool) :
    (s.useFeed c b parked journal).2.course = s.course := by
  simp [State.useFeed, ↓State.course_ite]

@[simp] theorem State.feedLive_course (s : State) (c : Context) (b : List Byte) (parked : Nat) (journal : Bool) :
    (s.feedLive c b parked journal).2.course = s.course := by
  unfold State.feedLive
  dsimp only
  (repeat' split) <;> simp

@[simp] theorem State.feedParked_course (s : State) (c : Context) (b : List Byte) : (s.feedParked c b).2.course = s.course := by
  unfold State.feedParked
  split <;> simp

@[simp] theorem State.feed_course (s : State) (b : List Byte) : (s.feed b).2.course = s.course := by
  unfold State.feed
  split
  · split <;> simp
  · split <;> simp

@[simp] theorem State.feedAll_course (s : State) (l : List (List Byte)) : (s.feedAll l).2.course = s.course :=
  foldl_keeps (fun a : List Nat × State => a.2.course) _ (fun _ _ => State.feed_course ..) _ _

@[simp] theorem State.feedPending_course (s : State) (serial : Nat) : (s.feedPending serial).course = s.course := by
  unfold State.feedPending
  split
  · rfl
  · extract_lets u v
    have kept : u.course = s.course := State.setCtx_course ..
    have keptV : v.course = s.course := by
      refine (course_foldl _ (fun w b => ?_) _ _).trans kept
      split <;> simp
    exact (State.setCtx_course ..).trans keptV

/-! ### The pool (R382, R383) -/

@[simp] theorem State.poolLow_course (s : State) (before : Nat) : (s.poolLow before).course = s.course := by
  simp [State.poolLow, ↓State.course_ite]

/-! ### CTX_CREATE (R217, R218) -/

@[simp] theorem State.addLive_course (s : State) (c : Context) : (s.addLive c).course = s.course := by
  simp [State.addLive, ↓State.course_update]

/-! ### CTX_DELETE (R219) -/

@[simp] theorem State.freeSlot_course (s : State) (c : Context) : (s.freeSlot c).course = s.course := by
  simp [State.freeSlot, ↓State.course_update]

@[simp] theorem State.deleteContext_course (s : State) (c : Context) : (s.deleteContext c).course = s.course := by
  simp [State.deleteContext, ↓State.course_update, ↓State.course_ite]

/-! ### CTX_PARK (R253) -/

@[simp] theorem State.catchUp_course (s : State) (serial lo hi flags : Nat) : (s.catchUp serial lo hi flags).course = s.course := by
  unfold State.catchUp
  split <;> simp [↓State.course_ite, course_foldl]

@[simp] theorem State.runAgain_course (s : State) (c : Context) (at_ : Nat) : (s.runAgain c at_).course = s.course := by
  simp [State.runAgain, ↓State.course_ite]

@[simp] theorem State.finishPark_course (s : State) (serial tag instant : Nat) :
    (s.finishPark serial tag instant).course = s.course := by
  unfold State.finishPark
  split <;> simp [↓State.course_update, ↓State.course_ite]

/-! ### CTX_UNPARK (R254, R247) -/

@[simp] theorem State.unpark_course (s : State) (c : Context) (rxAt : Nat) : (s.unpark c rxAt).course = s.course := by
  simp [State.unpark, ↓State.course_update]

/-! ### BALANCE_CONFIG (R273, R493) -/

@[simp] theorem State.acceptGroup_course (s : State) (g : Nat) (n : GroupChange) : (s.acceptGroup g n).course = s.course := by
  simp [State.acceptGroup, ↓State.course_ite]

/-! ### Firmware update of a session (R417) -/

@[simp] theorem State.abandonUpdate_course (s : State) : s.abandonUpdate.course = s.course := by
  unfold State.abandonUpdate
  split <;> simp [↓State.course_update]

@[simp] theorem State.abandonUpdateOf_course (s : State) (k : Nat) : (s.abandonUpdateOf k).course = s.course := by
  simp [State.abandonUpdateOf, ↓State.course_ite]

/-! ### Handover -/

@[simp] theorem State.endHandover_course (s : State) (status : Nat) : (s.endHandover status).course = s.course := by
  unfold State.endHandover
  split <;> simp [↓State.course_update]

/-! ### Session -/

@[simp] theorem State.openEvents_course (s : State) (k : Nat) : (s.openEvents k).course = s.course := by
  unfold State.openEvents
  dsimp only
  split <;> simp [↓State.course_ite]

/-! ### EVENT_READ (R375, R379) -/

@[simp] theorem State.setQueue_course (s : State) (k : Nat) (f : EventQueue → EventQueue) :
    (s.setQueue k f).course = s.course := by
  simp [State.setQueue]

/-! ### Equaliser banks (R113-R118) -/

@[simp] theorem State.disturbBank_course (s : State) (n : Nat) : (s.disturbBank n).course = s.course := by
  simp [State.disturbBank, ↓State.course_ite, course_foldl]

@[simp] theorem State.loadBank_course (s : State) (n bank : Nat) (l : List Int) : (s.loadBank n bank l).course = s.course := by
  simp [State.loadBank, ↓State.course_ite]

/-! ### Pieces of state -/

@[simp] theorem State.setLine_course (s : State) (f : LineState → LineState) : (s.setLine f).course = s.course := by
  simp [State.setLine, ↓State.course_update]

@[simp] theorem State.setMesh_course (s : State) (f : MeshState → MeshState) : (s.setMesh f).course = s.course := by
  simp [State.setMesh, ↓State.course_update]

@[simp] theorem State.lineCount_course (s : State) (index n : Nat) : (s.lineCount index n).course = s.course := by
  simp [State.lineCount]

@[simp] theorem State.meshCount_course (s : State) (index n : Nat) : (s.meshCount index n).course = s.course := by
  simp [State.meshCount]

@[simp] theorem State.setNode_course (s : State) (address : Nat) (f : Node → Node) : (s.setNode address f).course = s.course := by
  simp [State.setNode]

/-! ### Link cost (R316) -/

@[simp] theorem State.setNeighbour_course (s : State) (address : Nat) (f : Neighbour → Neighbour) :
    (s.setNeighbour address f).course = s.course := by
  unfold State.setNeighbour
  split <;> simp [↓State.course_ite]

@[simp] theorem State.evictMaps_course (s : State) (keep : Nat) : (s.evictMaps keep).course = s.course := by
  unfold State.evictMaps
  dsimp only
  (repeat' split) <;> simp

/-! ### Slots (R309) -/

@[simp] theorem State.assignSlot_course (s : State) (address : Nat) : (s.assignSlot address).course = s.course := by
  unfold State.assignSlot
  dsimp only
  (repeat' split) <;> simp

/-! ### Network frames (R311-R314) -/

@[simp] theorem State.countFrame_course (s : State) : s.countFrame.course = s.course := by
  simp [State.countFrame, ↓State.course_ite]

@[simp] theorem State.enqueueFrame_course (s : State) (f : TxFrame) : (s.enqueueFrame f).course = s.course := by
  simp [State.enqueueFrame]

/-! ### Transactions (R327-R331) -/

@[simp] theorem State.setFlight_course (s : State) (id : Nat) (f : Transaction → Transaction) :
    (s.setFlight id f).course = s.course := by
  simp [State.setFlight]

@[simp] theorem State.dropFlight_course (s : State) (id : Nat) : (s.dropFlight id).course = s.course := by
  simp [State.dropFlight]

@[simp] theorem State.discover_course (s : State) (address : Nat) : (s.discover address).course = s.course := by
  simp [State.discover, ↓State.course_ite]

@[simp] theorem State.completeFlight_course (s : State) (x : Transaction) (length : Nat) :
    (s.completeFlight x length).course = s.course := by
  unfold State.completeFlight
  split <;> simp [↓State.course_ite]

@[simp] theorem State.failFlight_course (s : State) (x : Transaction) (status : Nat) : (s.failFlight x status).course = s.course := by
  unfold State.failFlight
  split <;> simp [↓State.course_ite]

@[simp] theorem State.raiseLevel_course (s : State) (address by_ : Nat) : (s.raiseLevel address by_).course = s.course := by
  unfold State.raiseLevel
  split <;> simp [↓State.course_ite]

@[simp] theorem State.failAttempt_course (s : State) (x : Transaction) (routeError : Bool) :
    (s.failAttempt x routeError).course = s.course := by
  simp [State.failAttempt, ↓State.course_ite]

@[simp] theorem State.loadRoute_course (s : State) (address : Nat) : (s.loadRoute address).course = s.course := by
  unfold State.loadRoute
  dsimp only
  (repeat' split) <;> simp

@[simp] theorem State.sendAttempt_course (s : State) (x : Transaction) : (s.sendAttempt x).course = s.course := by
  unfold State.sendAttempt
  split <;> simp

@[simp] theorem State.pump_course (s : State) : s.pump.course = s.course := by
  unfold State.pump
  refine course_foldl _ (fun u x => ?_) _ _
  split
  · simp [↓State.course_ite]
  · rfl

@[simp] theorem State.startFlight_course (s : State) (x : Transaction) : (s.startFlight x).course = s.course := by
  simp [State.startFlight]

@[simp] theorem State.endFlights_course (s : State) : s.endFlights.course = s.course := by
  unfold State.endFlights
  extract_lets xs u v
  have kept : v.course = s.course := by simp [v, u]
  refine (course_foldl _ (fun w x => ?_) _ _).trans kept
  split <;> simp

/-! ### Routes (R318-R321) -/

@[simp] theorem State.discoverRouteless_course (s : State) : s.discoverRouteless.course = s.course := by
  simp [State.discoverRouteless, course_foldl]

@[simp] theorem State.routePass_course (s : State) : s.routePass.course = s.course := by
  simp [State.routePass, course_foldl]

/-! ### Received data frames (R310, R313, R315, R328) -/

@[simp] theorem State.authFails_course (s : State) (origin : Nat) : (s.authFails origin).course = s.course := by
  simp [State.authFails, ↓State.course_ite]

@[simp] theorem State.openFrame_course (s : State) (data : List Byte) : (s.openFrame data).course = s.course := by
  unfold State.openFrame
  dsimp only
  (repeat' split) <;> simp

@[simp] theorem State.acceptFrame_course (s : State) (data : List Byte) : (s.acceptFrame data).course = s.course := by
  simp [State.acceptFrame, ↓State.course_ite]

@[simp] theorem State.openKeyless_course (s : State) : s.openKeyless.course = s.course := by
  simp [State.openKeyless, course_foldl]

/-! ### A native frame (R286-R290) -/

@[simp] theorem State.receiveSlots_course (s : State) (l : List (List Int)) : (s.receiveSlots l).2.course = s.course := by
  simp [State.receiveSlots]

/-! ### Noise levels and SNR (R292) -/

@[simp] theorem State.judgeHalf_course (s : State) (h : Nat × Rat × List Int) : (s.judgeHalf h).course = s.course := by
  simp [State.judgeHalf]

@[simp] theorem State.judgeBefore_course (s : State) (tick : Nat) : (s.judgeBefore tick).course = s.course := by
  simp [State.judgeBefore, course_foldl]

@[simp] theorem State.hearHalfCycle_course (s : State) (samples : List Int) : (s.hearHalfCycle samples).course = s.course := by
  unfold State.hearHalfCycle
  split <;> simp [↓State.course_ite, course_foldl]

/-! ### Configuration that waits (R278) -/

@[simp] theorem State.settleLine_course (s : State) : s.settleLine.course = s.course := by
  unfold State.settleLine
  dsimp only
  (repeat' split) <;> simp

/-! ### Anchors (R281-R285) -/

@[simp] theorem State.passAnchor_course (s : State) (a : Nat) (positive : Bool) (half : Rat) :
    (s.passAnchor a positive half).course = s.course := by
  simp [State.passAnchor]

/-! ### Sending (R286, R302) -/

@[simp] theorem State.launch_course (s : State) (f : TxFrame) : (s.launch f).course = s.course := by
  unfold State.launch
  dsimp only
  split <;> simp

@[simp] theorem State.stopFlight_course (s : State) : s.stopFlight.course = s.course := by
  unfold State.stopFlight
  dsimp only
  (repeat' split) <;> simp

/-! ### Tone maps (R291-R295) -/

@[simp] theorem State.issueMap_course (s : State) (address : Nat) (f : RxFrame) (forced : Bool) :
    (s.issueMap address f forced).course = s.course := by
  unfold State.issueMap
  split <;> simp [↓State.course_ite]

@[simp] theorem State.mapReceived_course (s : State) (address : Nat) (data : List Byte) :
    (s.mapReceived address data).course = s.course := by
  unfold State.mapReceived
  split <;> simp [↓State.course_ite]

/-! ### Receiving (R287, R290, R293, R302) -/

@[simp] theorem State.stranger_course (s : State) (address : Nat) : (s.stranger address).course = s.course := by
  simp [State.stranger, ↓State.course_ite]

@[simp] theorem State.measureDelta_course (s : State) (address start : Nat) (f : RxFrame) :
    (s.measureDelta address start f).course = s.course := by
  simp [State.measureDelta, ↓State.course_ite]

@[simp] theorem State.heard_course (s : State) (address start : Nat) (f : RxFrame) (data : List Byte) :
    (s.heard address start f data).course = s.course := by
  simp [State.heard, ↓State.course_ite]

@[simp] theorem State.misheard_course (s : State) (address start : Nat) (f : RxFrame) :
    (s.misheard address start f).course = s.course := by
  simp [State.misheard]

@[simp] theorem State.takeFrame_course (s : State) (start : Nat) (places : List (Rat × Nat)) (f : RxFrame) :
    (s.takeFrame start places f).course = s.course := by
  unfold State.takeFrame
  dsimp only
  (repeat' split) <;> simp

@[simp] theorem State.meets_course (s : State) (f : LineFrame) : (s.meets f).course = s.course := by
  simp [State.meets]

@[simp] theorem State.hear_course (s : State) (f : LineFrame) : (s.hear f).course = s.course := by
  simp [State.hear, ↓State.course_ite]

/-! ### Poll entries (R326, R327) -/

@[simp] theorem State.setPoll_course (s : State) (index : Nat) (f : PollEntry → PollEntry) : (s.setPoll index f).course = s.course := by
  simp [State.setPoll]

@[simp] theorem State.skipPoll_course (s : State) : s.skipPoll.course = s.course := by
  unfold State.skipPoll
  dsimp only
  simp [↓State.course_ite]

@[simp] theorem State.dropUnreachable_course (s : State) : s.dropUnreachable.course = s.course := by
  simp [State.dropUnreachable]

/-! ### Messages received (R324, R328-R331) -/

@[simp] theorem State.pollRecord_course (s : State) (origin : Nat) (b : List Byte) : (s.pollRecord origin b).course = s.course := by
  simp [State.pollRecord, ↓State.course_ite]

@[simp] theorem State.readyAgain_course (s : State) (origin : Nat) (x : Option Transaction) :
    (s.readyAgain origin x).course = s.course := by
  simp [State.readyAgain]

@[simp] theorem State.applyReport_course (s : State) (origin : Nat) (m : List Byte) : (s.applyReport origin m).course = s.course := by
  simp [State.applyReport]

@[simp] theorem State.recordPath_course (s : State) (relays : List Nat) (target : Nat) :
    (s.recordPath relays target).course = s.course := by
  simp [State.recordPath]

/-! ### Discovery (R322) -/

@[simp] theorem State.sendDiscovery_course (s : State) (net : List Byte) (target : Nat) :
    (s.sendDiscovery net target).course = s.course := by
  simp [State.sendDiscovery]

/-! ### Log checkpoints (R392) -/

@[simp] theorem State.writeCheckpoint_course (s : State) : s.writeCheckpoint.course = s.course := by
  simp [State.writeCheckpoint, ↓State.course_update, ↓State.course_ite]

/-! ### Read-only, blocks (R385) -/

@[simp] theorem State.storeReadOnly_course (s : State) : s.storeReadOnly.course = s.course := by
  simp [State.storeReadOnly, ↓State.course_update, ↓State.course_ite]

/-! ### The pages of an encrypted region (R384) -/

@[simp] theorem State.losePage_course (s : State) (x : LostPage) : (s.losePage x).course = s.course := by
  unfold State.losePage
  split <;> simp [↓State.course_update]

/-! ### Format (R386, R409, R401) -/

@[simp] theorem State.setBoot_course (s : State) (f : BootTable → BootTable) :
    (s.setBoot f).course = { s.course with confirmed := none } := rfl

@[simp] theorem State.endParks_course (s : State) : s.endParks.course = s.course := by
  simp [State.endParks, course_foldl]

/-! ### Rings and marks (R396, R397) -/

@[simp] theorem State.placeMark_course (s : State) (session : Nat) (m : Mark) :
    (s.placeMark session m).course = s.course := by
  simp [State.placeMark]

/-! ### FW_END (R419) -/

@[simp] theorem State.retryStatus_course (s : State) (slot : Nat) : (s.retryStatus slot).2.course = s.course := by
  unfold State.retryStatus
  dsimp only
  split <;> simp

/-! ### KEY_PROVISION (R420) -/

@[simp] theorem State.provisioned_course (s : State) (item : Nat) : (s.provisioned item).course = s.course := by
  simp [State.provisioned]

@[simp] theorem State.installNetworkKey_course (s : State) (key : List Byte) : (s.installNetworkKey key).course = s.course := by
  simp [State.installNetworkKey, ↓State.course_update, course_foldl]

/-! ### Signatures (R404) -/

@[simp] theorem State.signCheckpoint_course (s : State) (n : Nat) (signature : List Byte) :
    (s.signCheckpoint n signature).course = s.course := by
  unfold State.signCheckpoint
  split <;> simp [↓State.course_update]

@[simp] theorem State.signQuote_course (s : State) (session tag : Nat) (signature : List Byte) :
    (s.signQuote session tag signature).course = s.course := by
  simp [State.signQuote]

@[simp] theorem State.signNext_course (s : State) : s.signNext.course = s.course := by
  unfold State.signNext
  dsimp only
  (repeat' split) <;> simp [↓State.course_update]

/-! ### Debug access (R422) -/

@[simp] theorem State.debugEvent_course (s : State) (action : Nat) : (s.debugEvent action).course = s.course := by
  simp [State.debugEvent]

@[simp] theorem State.nextChallenge_course (s : State) : s.nextChallenge.course = s.course := by
  simp [State.nextChallenge, ↓State.course_update]

/-! ### Bridges (R341) -/

@[simp] theorem State.dropBridge_course (s : State) (n : Nat) : (s.dropBridge n).course = s.course := by
  simp [State.dropBridge, ↓State.course_update]

@[simp] theorem State.homeSettles_course (s : State) (n : Nat) : (s.homeSettles n).course = s.course := by
  simp [State.homeSettles, ↓State.course_ite]

@[simp] theorem State.handOverTo_course (s : State) (n k kind : Nat) : (s.handOverTo n k kind).course = s.course := by
  simp [State.handOverTo, ↓State.course_update, ↓State.course_ite]

/-! ### Checker rotation (R346-R348) -/

@[simp] theorem State.compareFrom_course (s : State) (n : Nat) : (s.compareFrom n).course = s.course := by
  simp [State.compareFrom]

@[simp] theorem State.startDwell_course (s : State) : s.startDwell.course = s.course := by
  unfold State.startDwell
  extract_lets order u
  have kept : u.course = s.course := by simp [u, ↓State.course_update]
  refine State.course_of_ite rfl (State.course_of_ite kept ?_)
  split
  · next picked =>
    extract_lets v
    have keptV : v.course = s.course := by
      rw [State.compareFrom_course, State.assign_course, State.course_of_pick picked, kept]
    simp [↓State.course_update, keptV]
  · exact kept

@[simp] theorem State.keepDwell_course (s : State) (n : Nat) : (s.keepDwell n).course = s.course := by
  simp [State.keepDwell]

@[simp] theorem State.confirm_course (s : State) (n first : Nat) : (s.confirm n first).course = s.course := by
  unfold State.confirm
  split
  · next picked => simp [↓State.course_update, State.course_of_pick picked]
  · next picked => rw [State.startConfirming_course, State.evict_course, State.course_of_pick picked]

@[simp] theorem State.dwellEnds_course (s : State) (n k : Nat) : (s.dwellEnds n k).course = s.course := by
  simp [State.dwellEnds, ↓State.course_update, ↓State.course_ite]

@[simp] theorem State.excludeLane_course (s : State) (k : Nat) : (s.excludeLane k).course = s.course := by
  simp [State.excludeLane]

@[simp] theorem State.checkerOutcome_course (s : State) (n outcome : Nat) : (s.checkerOutcome n outcome).course = s.course := by
  simp [State.checkerOutcome]

@[simp] theorem State.confirmed_course (s : State) (n first k : Nat) (agree : Bool) :
    (s.confirmed n first k agree).course = s.course := by
  unfold State.confirmed
  extract_lets _ u v cleared _ faulty
  have kept : v.course = s.course := by simp [v, u, ↓State.course_update]
  have keptCleared : cleared.course = s.course := by simp [cleared, kept]
  have keptFaulty : faulty.course = s.course := by simp [faulty, kept]
  refine State.course_of_ite ?_ (State.course_of_ite ?_ ?_)
  · simp [↓State.course_update, keptCleared]
  · split
    · next picked => rw [State.course_of_pick picked, keptFaulty]
    · next picked => rw [State.substitute_course, State.evict_course, State.course_of_pick picked, keptFaulty]
  · simp [kept]

/-! ### The belvedere out of service (Table 1.2, Table 11.10) -/

@[simp] theorem State.dropLane_course (s : State) (k : Nat) : (s.dropLane k).course = s.course := by
  unfold State.dropLane
  split <;> simp [↓State.course_update, ↓State.course_ite]

@[simp] theorem State.endQueuedSweeps_course (s : State) (d : Nat) : (s.endQueuedSweeps d).course = s.course := by
  simp [State.endQueuedSweeps, ↓State.course_update, course_foldl]

@[simp] theorem State.failSweeps_course (s : State) (d : Nat) : (s.failSweeps d).course = s.course := by
  simp [State.failSweeps, ↓State.course_ite]

@[simp] theorem State.belvedereOut_course (s : State) : s.belvedereOut.course = s.course := by
  simp [State.belvedereOut, ↓State.course_update, ↓State.course_ite, course_foldl]

@[simp] theorem State.substituteNext_course (s : State) : s.substituteNext.course = s.course := by
  unfold State.substituteNext
  refine State.course_of_ite rfl ?_
  split
  · exact State.substituteDie_course ..
  · rfl

@[simp] theorem State.recarry_course (s : State) : s.recarry.course = s.course := by
  simp [State.recarry, ↓State.course_ite, course_foldl]

@[simp] theorem State.belvedereBack_course (s : State) : s.belvedereBack.course = s.course := by
  simp [State.belvedereBack]

/-! ### Die failure and substitution (R349-R352) -/

@[simp] theorem State.failHome_course (s : State) (d : Nat) : (s.failHome d).course = s.course := by
  simp [State.failHome, ↓State.course_ite, course_foldl]

@[simp] theorem State.markFailed_course (s : State) (d : Nat) : (s.markFailed d).course = s.course := by
  simp [State.markFailed]

/-! ### Return (R353) -/

@[simp] theorem State.probation_course (s : State) (d : Nat) : (s.probation d).course = s.course := by
  simp [State.probation, course_foldl]

@[simp] theorem State.dieReturns_course (s : State) (d : Nat) : (s.dieReturns d).course = s.course := by
  unfold State.dieReturns
  extract_lets u _ v w
  have kept : u.course = s.course := State.setDie_course ..
  have keptV : v.course = s.course := by
    refine State.course_of_ite ((course_foldl _ (fun x k => ?_) _ _).trans ?_) kept
    · simp [↓State.course_ite]
    · simp [↓State.course_update, kept]
  have keptW : w.course = s.course := by
    refine (course_foldl _ (fun x n => ?_) _ _).trans keptV
    simp [↓State.course_ite]
  simp [keptW]

/-! ### Memories and the vector DSP (R335, R338) -/

@[simp] theorem State.countRestart_course (s : State) (i : Nat) : (s.countRestart i).course = s.course := by
  simp [State.countRestart, ↓State.course_update]

/-! ### FORCE_SUBSTITUTE (R357) -/

@[simp] theorem State.releaseChannel_course (s : State) (n : Nat) : (s.releaseChannel n).course = s.course := by
  unfold State.releaseChannel
  dsimp only
  split <;> simp [↓State.course_update, ↓State.course_ite]

@[simp] theorem State.keepOnLane_course (s : State) (n k : Nat) : (s.keepOnLane n k).course = s.course := by
  simp [State.keepOnLane, ↓State.course_update]

/-! ### NODE_ADMIT (R308, R309) -/

@[simp] theorem State.removeNode_course (s : State) (a : Nat) : (s.removeNode a).course = s.course := by
  simp [State.removeNode]

/-! ### Poll list (R325, R326) -/

@[simp] theorem State.startPolling_course (s : State) (limit : Nat) : (s.startPolling limit).course = s.course := by
  simp [State.startPolling, ↓State.course_ite]

@[simp] theorem State.stopPolling_course (s : State) : s.stopPolling.course = s.course := by
  simp [State.stopPolling, ↓State.course_ite]

/-! ### The commit (R245) -/

@[simp] theorem State.closeThrough_course (s : State) (b : Nat) : (s.closeThrough b).course = s.course := by
  simp [State.closeThrough, course_foldl]

@[simp] theorem State.foldThrough_course (s : State) : s.foldThrough.course = s.course := by
  unfold State.foldThrough
  refine course_foldl _ (fun u _ => ?_) _ _
  split
  · rfl
  · simp [↓State.course_ite]

@[simp] theorem State.writeCommit_course (s : State) (b : Nat) : (s.writeCommit b).course = s.course := by
  unfold State.writeCommit
  extract_lets first u v w
  have kept : u.course = s.course := by simp [u]
  have keptV : v.course = s.course := by
    refine (course_foldl _ (fun x k => ?_) _ _).trans kept
    split <;> simp
  have keptW : w.course = s.course := by simp [w, keptV]
  simp [↓State.course_update, keptW]

@[simp] theorem State.startCommit_course (s : State) : s.startCommit.course = s.course := by
  simp [State.startCommit, ↓State.course_update, ↓State.course_ite]

@[simp] theorem State.endAbandonedStore_course (s : State) : s.endAbandonedStore.course = s.course := by
  unfold State.endAbandonedStore
  split <;> simp [↓State.course_update, ↓State.course_ite]

@[simp] theorem State.commitOver_course (s : State) : s.commitOver.course = s.course := by
  simp [State.commitOver, ↓State.course_update]

@[simp] theorem State.askReset_course (s : State) (cause : Nat) : (s.askReset cause).course = s.course := by
  simp [State.askReset, ↓State.course_update]

/-! ### The end of FW_END (R419) -/

@[simp] theorem State.verify_course (s : State) (slot : Nat) (retry : Bool) : (s.verify slot retry).2.course = s.course := by
  unfold State.verify
  split
  · exact State.retryStatus_course ..
  · split <;> rfl

/-! ### Restart -/

@[simp] theorem State.restartPair_course (s : State) (pair : Nat) : (s.restartPair pair).course = s.course := by
  simp [State.restartPair, ↓State.course_update, ↓State.course_ite]

@[simp] theorem State.repaired_course (s : State) (die handle : Nat) : (s.repaired die handle).course = s.course := by
  simp [State.repaired]

@[simp] theorem State.restartStages_course (s : State) (u : Nat) : (s.restartStages u).course = s.course := by
  unfold State.restartStages
  refine State.course_of_ite ?_ (State.disturb_course ..)
  split
  · next picked => rw [State.disturb_course, State.course_of_pick picked]
  · next picked => simp [↓State.course_update, State.course_of_pick picked]

@[simp] theorem State.discardSlot_course (s : State) (slot : Nat) : (s.discardSlot slot).course = s.course := by
  simp [State.discardSlot, ↓State.course_ite]

/-! ### Replaying a boundary record (R246) -/

@[simp] theorem State.reviveContext_course (s : State) (c : Context) : (s.reviveContext c).course = s.course := by
  simp [State.reviveContext]

@[simp] theorem State.markJournal_course (s : State) (serial : Nat) : (s.markJournal serial).course = s.course := by
  simp [State.markJournal]

@[simp] theorem State.bringForward_course (s : State) (p : Plan) : (s.bringForward p).course = s.course := by
  unfold State.bringForward
  dsimp only
  (repeat' split) <;> simp

@[simp] theorem State.replayDemand_course (s : State) (serial instant : Nat) (parking : Bool) :
    (s.replayDemand serial instant parking).course = s.course := by
  unfold State.replayDemand
  dsimp only
  (repeat' split) <;> simp

@[simp] theorem State.replaySnapshot_course (s : State) (serial flags boundaries stop last : Nat) :
    (s.replaySnapshot serial flags boundaries stop last).course = s.course := by
  unfold State.replaySnapshot
  split <;> simp [↓State.course_ite]

@[simp] theorem State.replaySnapshots_course (s : State) (serial lo instant : Nat) (forced : Bool) :
    (s.replaySnapshots serial lo instant forced).course = s.course := by
  unfold State.replaySnapshots
  split <;> simp [↓State.course_ite, course_foldl]

@[simp] theorem State.replayStanding_course (s : State) (p : Plan) (lo instant : Nat) :
    (s.replayStanding p lo instant).course = s.course := by
  unfold State.replayStanding
  split <;> simp

@[simp] theorem State.replay_course (s : State) (p : Plan) (mask : Nat) : (s.replay p mask).course = s.course := by
  simp [State.replay, ↓State.course_ite]

/-! ### One context (R246, R247, R271) -/

@[simp] theorem State.applyTampLog_course (s : State) (serial : Nat) : (s.applyTampLog serial).course = s.course := by
  unfold State.applyTampLog
  extract_lets u
  have kept : u.course = s.course := by
    refine course_foldl _ (fun v e => ?_) _ _
    split <;> simp [↓State.course_ite]
  simp [↓State.course_ite, kept]

@[simp] theorem State.cutTampers_course (s : State) (serial instant : Nat) : (s.cutTampers serial instant).course = s.course := by
  simp [State.cutTampers]

@[simp] theorem State.placeRelay_course (s : State) (serial : Nat) : (s.placeRelay serial).course = s.course := by
  unfold State.placeRelay
  split <;> simp [↓State.course_update, ↓State.course_ite]

@[simp] theorem State.restoreLocal_course (s : State) (p : Plan) (tick start : Nat) :
    (s.restoreLocal p tick start).course = s.course := by
  unfold State.restoreLocal
  split <;> simp [↓State.course_ite]

@[simp] theorem State.restoreShadow_course (s : State) (p : Plan) : (s.restoreShadow p).course = s.course := by
  unfold State.restoreShadow
  extract_lets n u v w
  have kept : u.course = s.course := State.reviveContext_course ..
  have keptV : v.course = s.course := by
    unfold v
    split <;> simp [↓State.course_ite, kept]
  have keptW : w.course = s.course := by simp [w, keptV]
  refine (course_foldl _ (fun x b => ?_) _ _).trans keptW
  split <;> simp

@[simp] theorem State.restoreContext_course (s : State) (p : Plan) (tick start : Nat) :
    (s.restoreContext p tick start).course = s.course := by
  simp [State.restoreContext, ↓State.course_ite]

/-! ### Balance groups (R275, R388) -/

@[simp] theorem State.restoreGroup_course (s : State) (plans : List Plan) (k : Nat) : (s.restoreGroup plans k).course = s.course := by
  unfold State.restoreGroup
  dsimp only
  split <;> simp

/-! ### Settings and signatures -/

@[simp] theorem State.restorePolicy_course (s : State) : s.restorePolicy.course = s.course := by
  unfold State.restorePolicy
  split <;> simp [↓State.course_update]

@[simp] theorem State.restoreSettings_course (s : State) : s.restoreSettings.course = s.course := by
  unfold State.restoreSettings
  split <;> simp [↓State.course_ite]

@[simp] theorem State.reconcileFeeders_course (s : State) : s.reconcileFeeders.course = s.course := by
  simp [State.reconcileFeeders, ↓State.course_update]

@[simp] theorem State.requeue_course (s : State) (job : SignJob) : (s.requeue job).course = s.course := by
  simp [State.requeue, ↓State.course_ite]

@[simp] theorem State.requeueUnsigned_course (s : State) : s.requeueUnsigned.course = s.course := by
  unfold State.requeueUnsigned
  refine State.course_of_ite rfl ?_
  rw [course_foldl _ (fun _ _ => State.requeue_course ..), course_foldl _ (fun _ _ => State.requeue_course ..),
    course_foldl _ (fun _ _ => State.requeue_course ..)]

/-! ### The power warning (R427, R432, Table 14.2) -/

@[simp] theorem State.abandonFormat_course (s : State) : s.abandonFormat.course = s.course := by
  unfold State.abandonFormat
  split <;> simp [↓State.course_update]

@[simp] theorem State.cutCaptureWrites_course (s : State) : s.cutCaptureWrites.course = s.course := by
  simp [State.cutCaptureWrites, ↓State.course_update]

@[simp] theorem State.reportCutCaptures_course (s : State) : s.reportCutCaptures.course = s.course := by
  simp [State.reportCutCaptures, ↓State.course_update, course_foldl]

@[simp] theorem State.stopForCommit_course (s : State) : s.stopForCommit.course = s.course := by
  simp [State.stopForCommit, ↓State.course_update]

@[simp] theorem State.latchWarning_course (s : State) : s.latchWarning.course = s.course := by
  simp [State.latchWarning, ↓State.course_update]

@[simp] theorem State.endCommit_course (s : State) : s.endCommit.course = s.course := by
  simp [State.endCommit]

/-! ### Ride-through (R435, R249) -/

@[simp] theorem State.markProvisional_course (s : State) : s.markProvisional.course = s.course := by
  simp [State.markProvisional, ↓State.course_update, ↓State.course_ite]

/-! ### Resets (Table 14.5) -/

@[simp] theorem State.loseBattery_course (s : State) : s.loseBattery.course = s.course := by
  simp [State.loseBattery, ↓State.course_update]

/-! ### Start-up (Table 14.4) -/

@[simp] theorem State.batteryEvent_course (s : State) (ended : Bool) (volts : F32) : (s.batteryEvent ended volts).course = s.course := by
  simp [State.batteryEvent]

@[simp] theorem State.startClock_course (s : State) : s.startClock.course = s.course := by
  simp [State.startClock, ↓State.course_update, ↓State.course_ite, course_foldl]

@[simp] theorem State.keysGone_course (s : State) : s.keysGone.course = s.course := by
  simp [State.keysGone, ↓State.course_update]

@[simp] theorem State.startCal_course (s : State) : s.startCal.course = s.course := by
  unfold State.startCal
  dsimp only
  (repeat' split) <;> simp [↓State.course_update]

@[simp] theorem State.endReset_course (s : State) (h1mode bootsel : Bool) (vioH vioS : Nat) :
    (s.endReset h1mode bootsel vioH vioS).course = s.course := by
  simp [State.endReset, ↓State.course_update]

@[simp] theorem State.startEvents_course (s : State) : s.startEvents.course = s.course := by
  unfold State.startEvents
  dsimp only
  split <;> simp [↓State.course_update, ↓State.course_ite]

/-! ### Supply faults (R429-R431) -/

@[simp] theorem State.supplyEvent_course (s : State) (kind : Nat) (ended : Bool) (volts : F32) :
    (s.supplyEvent kind ended volts).course = s.course := by
  simp [State.supplyEvent]

@[simp] theorem State.batteryPasses_course (s : State) (low : Bool) (volts : F32) : (s.batteryPasses low volts).course = s.course := by
  simp [State.batteryPasses, ↓State.course_update, ↓State.course_ite]

/-! ### The modem crystal (R454) -/

@[simp] theorem State.stopLine_course (s : State) : s.stopLine.course = s.course := by
  simp [State.stopLine]

/-! ### Loss of a lane (R23, Table 1.2) -/

@[simp] theorem State.linkGone_course (s : State) (d : Nat) (belvedere : Bool) : (s.linkGone d belvedere).course = s.course := by
  simp [State.linkGone, ↓State.course_ite]

@[simp] theorem State.loseLane_course (s : State) (d k : Nat) : (s.loseLane d k).course = s.course := by
  simp [State.loseLane, ↓State.course_ite]

/-! ### Retraining (R24) -/

@[simp] theorem State.returnLane_course (s : State) (d k : Nat) : (s.returnLane d k).course = s.course := by
  simp [State.returnLane, ↓State.course_ite]

/-! ### The tally (R361) -/

@[simp] theorem State.addTotal_course (s : State) (k : Nat) (mwh : Rat) : (s.addTotal k mwh).course = s.course := by
  unfold State.addTotal
  dsimp only
  split <;> simp [↓State.course_update]

@[simp] theorem State.addElement_course (s : State) (i : Nat) (mwh : Rat) : (s.addElement i mwh).course = s.course := by
  simp [State.addElement, ↓State.course_ite]

@[simp] theorem State.tally_course (s : State) : s.tally.course = s.course := by
  simp [State.tally, ↓State.course_update, course_foldl]

/-! ### Host -/

@[simp] theorem State.receive_course (s : State) (p : Port) (bytes : List Byte) : (s.receive p bytes).course = s.course := by
  unfold State.receive
  dsimp only
  (repeat' split) <;> simp

@[simp] theorem State.refuseLength_course (s : State) (p : Port) (bytes : List Byte) : (s.refuseLength p bytes).course = s.course := by
  simp [State.refuseLength]

@[simp] theorem State.writeTransfer_course (s : State) (p : Port) (bytes : List Byte) : (s.writeTransfer p bytes).course = s.course := by
  simp [State.writeTransfer, ↓State.course_ite]

/-! ### UART (R42-R45) -/

@[simp] theorem State.uartByte_course (s : State) (b : Byte) : (s.uartByte b).course = s.course := by
  simp [State.uartByte, ↓State.course_update, ↓State.course_ite]

/-! ### CREDIT_ADD (R258) -/

@[simp] theorem State.addCredit_course (s : State) (serial : Nat) (amount : Int) (number : Nat) :
    (s.addCredit serial amount number).course = s.course := by
  unfold State.addCredit
  dsimp only
  split <;> simp

/-! ### TAMPER_CONFIG (R268) -/

@[simp] theorem State.disableTamper_course (s : State) (serial enables importOnly : Nat) :
    (s.disableTamper serial enables importOnly).course = s.course := by
  unfold State.disableTamper
  split <;> simp

/-! ### Pins (R261, R268, R269) -/

@[simp] theorem State.pressOn_course (s : State) (c : Context) : (s.pressOn c).course = s.course := by
  simp [State.pressOn, ↓State.course_ite]

/-! ### GET_INFO (R482) -/

@[simp] theorem State.runningImage_course (s : State) : s.runningImage.2.course = s.course := by
  unfold State.runningImage
  split <;> simp

/-! ### RESET (R443, R364) -/

@[simp] theorem State.gateReset_course (s : State) : s.gateReset.course = s.course := by
  simp [State.gateReset, ↓State.course_update]

end Sys2Proof.Machine
end

section
/-! SUPPORT. Rows and commands that leave the course of a state, in the model's order. -/

namespace Sys2Proof.Machine

/-! ### Answers and rows -/

/-- A choice between two answers that leave the course leaves it. -/
theorem Answer.course_of_ite {c : Prop} [Decidable c] {a b : Answer} {s : State} (yes : a.state.course = s.course)
    (no : b.state.course = s.course) : (if c then a else b).state.course = s.course := by
  split
  · exact yes
  · exact no

/-- A body that judges tests first leaves the course where its effect does. -/
@[simp] theorem judged_course {tests : List (Bool × Nat)} {s : State} {ok : Answer} (kept : ok.state.course = s.course) :
    (judged tests s ok).state.course = s.course := by
  unfold judged
  split
  · rfl
  · exact kept

/-- An accepted operation leaves the course where its effect does. -/
@[simp] theorem accept_course {r : Req} {s : State} {f : Nat → State → State} (keeps : ∀ tag u, (f tag u).course = u.course) :
    (accept r s f).state.course = s.course := by
  unfold accept
  split
  · exact (keeps ..).trans (State.startOp_course ..)
  · rfl

@[simp] theorem unparked_course {f : Req → State → Answer} (keeps : ∀ r s, (f r s).state.course = s.course) (r : Req) (s : State) :
    (unparked f r s).state.course = s.course := by
  unfold unparked
  split
  · exact Answer.course_of_ite rfl (keeps ..)
  · exact keeps ..

@[simp] theorem withCtx_course {f : Context → Req → State → Answer} (keeps : ∀ c r s, (f c r s).state.course = s.course)
    (r : Req) (s : State) : (withCtx f r s).state.course = s.course := by
  refine unparked_course (fun r s => ?_) r s
  split
  · exact keeps ..
  · rfl

@[simp] theorem startVerify_course (r : Req) (s : State) (slot : Nat) (retry : Bool) : (startVerify r s slot retry).state.course = s.course := by
  simp [startVerify, ↓State.course_update]

@[simp] theorem endUpdate_course (r : Req) (s : State) : (endUpdate r s).state.course = s.course := by
  unfold endUpdate
  split
  · exact Answer.course_of_ite rfl (startVerify_course ..)
  · rfl

@[simp] theorem State.forceChannel_course (s : State) (n : Nat) : (s.forceChannel n).state.course = s.course := by
  unfold State.forceChannel
  refine Answer.course_of_ite rfl ?_
  split
  · exact State.keepOnLane_course ..
  · refine judged_course ?_
    split
    · next picked =>
      extract_lets u
      have kept : u.course = s.course := (State.evict_course ..).trans (State.course_of_pick picked)
      simp [↓State.course_update, kept]
    · next picked => exact State.course_of_pick picked

/-- A message taken off the inbox leaves the course. -/
theorem State.course_of_takeMessage {s u : State} {type : Nat} {m : List Byte × List Byte} (taken : s.takeMessage type = some (m, u)) :
    u.course = s.course := by
  unfold State.takeMessage at taken
  split at taken
  · cases taken
    exact State.setLine_course ..
  · cases taken

@[simp] theorem Answer.finish_course (a : Answer) (q : Request) (r : Req) : (a.finish q r).course = a.state.course := by
  cases a with
  | done status payload s => exact State.answer_course ..
  | defer s => exact State.setSession_course ..

/-- A row whose effects leave the course. -/
structure Row.KeepsCourse (row : Row) : Prop where
  body : ∀ r s, (row.body r s).state.course = s.course
  gate : ∀ g, row.gate = some g → ∀ r s, (g r s).state.course = s.course

/-! ### Commands -/

/-- A command that completes moves time on to an instant, and leaves the rest of the course. -/
def KeepsCourse (s : State) : Out → Prop
  | .next u => ∃ t, u.course = (s.tickTo t).course
  | _ => True

theorem KeepsCourse.next {s u : State} (t : Nat) (kept : u.course = (s.tickTo t).course) : KeepsCourse s (.next u) := ⟨t, kept⟩

theorem KeepsCourse.guarded {ok : Bool} {s u : State} (t : Nat) (kept : u.course = (s.tickTo t).course) : KeepsCourse s (guarded ok u) := by
  cases ok
  · trivial
  · exact .next t kept

/-! ### The capture of a sweep (R142, R152) -/

@[simp] theorem execRawSample_course (t unit : Nat) (sample : BenchSample) (s : State) : KeepsCourse s (execRawSample t unit sample s) := by
  unfold execRawSample
  exact .guarded t (by simp [↓State.course_ite])

/-! ### Turns (R145-R147, R151) -/

@[simp] theorem execSweepTurn_course (t : Nat) (reference temperature : SideCode) (s : State) :
    KeepsCourse s (execSweepTurn t reference temperature s) := by
  unfold execSweepTurn
  refine .next t ?_
  generalize s.tickTo t = u
  dsimp only
  (repeat' split) <;> simp [↓State.course_update]

@[simp] theorem execCorrelationPhaseEnd_course (t : Nat) (s : State) : KeepsCourse s (execCorrelationPhaseEnd t s) := by
  unfold execCorrelationPhaseEnd
  refine .next t ?_
  generalize s.tickTo t = u
  dsimp only
  (repeat' split) <;> simp [↓State.course_update]

@[simp] theorem execSweepCaptureHalf_course (t : Nat) (s : State) : KeepsCourse s (execSweepCaptureHalf t s) := by
  unfold execSweepCaptureHalf
  refine .next t ?_
  generalize s.tickTo t = u
  simp [↓State.course_update, ↓State.course_ite]

@[simp] theorem execSweepCaptureEnd_course (t : Nat) (s : State) : KeepsCourse s (execSweepCaptureEnd t s) := by
  unfold execSweepCaptureEnd
  refine .next t ?_
  generalize s.tickTo t = u
  dsimp only
  (repeat' split) <;> simp [↓State.course_update]

@[simp] theorem execInterruptionEnd_course (t : Nat) (s : State) : KeepsCourse s (execInterruptionEnd t s) := by
  unfold execInterruptionEnd
  refine .next t ?_
  (repeat' split) <;> simp

@[simp] theorem execSweepResult_course (t : Nat) (s : State) : KeepsCourse s (execSweepResult t s) := by
  unfold execSweepResult
  refine .next t ?_
  dsimp only
  (repeat' split) <;> simp [↓State.course_update]

@[simp] theorem execRampStep_course (t : Nat) (s : State) : KeepsCourse s (execRampStep t s) := by
  unfold execRampStep
  refine .next t ?_
  generalize s.tickTo t = u
  simp [↓State.course_update]

@[simp] theorem execNewSweepRecommended_course (t channel : Nat) (s : State) : KeepsCourse s (execNewSweepRecommended t channel s) := by
  unfold execNewSweepRecommended
  exact .guarded t (by simp [↓State.course_ite])

/-! ### PWMIN edges (R92) -/

@[simp] theorem execPwminEdge_course (t pin : Nat) (rising : Bool) (quarter : Nat) (s : State) :
    KeepsCourse s (execPwminEdge t pin rising quarter s) := by
  unfold execPwminEdge
  exact .guarded t (by simp [↓State.course_update, ↓State.course_ite])

/-! ### Rows of triggers -/

@[simp] theorem execTriggerTimerFiring_course (t timer : Nat) (s : State) : KeepsCourse s (execTriggerTimerFiring t timer s) := by
  unfold execTriggerTimerFiring
  extract_lets u v x w
  have kept : v.course = u.course := State.settlePwm_course ..
  refine .guarded t (State.course_of_ite ?_ kept)
  rw [State.fireSource_course]
  simp [w, ↓State.course_update, kept, u]

@[simp] theorem execTriggerAction_course (t : Nat) (consumer : Consumer) (s : State) : KeepsCourse s (execTriggerAction t consumer s) := by
  unfold execTriggerAction
  exact .guarded t (by simp)

/-! ### Side slice (R84-R86) -/

@[simp] theorem execSideSliceConversion_course (t die : Nat) (code : SideCode) (s : State) :
    KeepsCourse s (execSideSliceConversion t die code s) := by
  unfold execSideSliceConversion
  refine .guarded t ?_
  dsimp only
  (repeat' split) <;> simp

/-! ### Capture rings (R137, R138, R394-R397) -/

@[simp] theorem execPostTriggerEnd_course (t ring : Nat) (s : State) : KeepsCourse s (execPostTriggerEnd t ring s) := by
  unfold execPostTriggerEnd
  exact .guarded t (by simp [↓State.course_ite])

@[simp] theorem execDrainEnd_course (t ring : Nat) (s : State) : KeepsCourse s (execDrainEnd t ring s) := by
  unfold execDrainEnd
  exact .guarded t (by simp [↓State.course_ite])

@[simp] theorem execCaptureRecordComplete_course (t ring : Nat) (s : State) : KeepsCourse s (execCaptureRecordComplete t ring s) := by
  unfold execCaptureRecordComplete
  refine .guarded t ?_
  dsimp only
  (repeat' split) <;> simp

/-! ### CH_CONFIG (R100) -/

@[simp] theorem chConfigRow_course : chConfigRow.KeepsCourse := ⟨fun r s => by simp [chConfigRow], nofun⟩

/-! ### CH_QUERY (R101, R119, R485) -/

@[simp] theorem chQueryRow_course : chQueryRow.KeepsCourse := ⟨fun r s => by simp [chQueryRow], nofun⟩

/-! ### TRIG_CONFIG (R89-R91) -/

@[simp] theorem trigConfigRow_course : trigConfigRow.KeepsCourse := by
  refine ⟨fun r s => ?_, nofun⟩
  unfold trigConfigRow
  dsimp only
  split <;> simp [↓State.course_update]

/-! ### INJECT (R85-R88) -/

@[simp] theorem injectRow_course : injectRow.KeepsCourse := ⟨fun r s => by simp [injectRow], nofun⟩

/-! ### WINDOW_SET (R94, R99) -/

@[simp] theorem windowSetRow_course : windowSetRow.KeepsCourse := ⟨fun r s => by simp [windowSetRow], nofun⟩

/-! ### SYNC (R128) -/

@[simp] theorem syncRow_course : syncRow.KeepsCourse := ⟨fun r s => by simp [syncRow], nofun⟩

/-! ### CAPTURE_ARM and CAPTURE_STOP (R136, R138) -/

@[simp] theorem captureArmRow_course : captureArmRow.KeepsCourse := ⟨fun r s => by simp [captureArmRow], nofun⟩

@[simp] theorem captureStopRow_course : captureStopRow.KeepsCourse := ⟨fun r s => by simp [captureStopRow], nofun⟩

/-! ### Finalisation and alerts (R275, R276) -/

@[simp] theorem execGroupIntervalEnd_course (t group : Nat) (s : State) : KeepsCourse s (execGroupIntervalEnd t group s) := by
  unfold execGroupIntervalEnd
  exact .guarded t (by simp [↓State.course_ite])

@[simp] theorem execGroupIntervalFinal_course (t group : Nat) (s : State) : KeepsCourse s (execGroupIntervalFinal t group s) := by
  unfold execGroupIntervalFinal
  dsimp only
  refine .guarded t ?_
  (repeat' split) <;> simp

/-! ### StreamRows -/

@[simp] theorem execWindowRearm_course (t channel : Nat) (slow : Bool) (s : State) : KeepsCourse s (execWindowRearm t channel slow s) := by
  unfold execWindowRearm
  exact .guarded t (by simp [↓State.course_ite])

/-! #### Flickermeter (R198) -/

@[simp] theorem execWidebandSample_course (t unit : Nat) (s : State) : KeepsCourse s (execWidebandSample t unit s) := by
  unfold execWidebandSample
  refine .guarded t ?_
  dsimp only
  (repeat' split) <;> simp

/-! ### Tracker (R121-R124) -/

@[simp] theorem execTrackerHoldover_course (t : Nat) (s : State) : KeepsCourse s (execTrackerHoldover t s) := by
  unfold execTrackerHoldover
  refine .next t ?_
  generalize s.tickTo t = u
  (repeat' split) <;> simp [↓State.course_update]

/-! ### The tally's samples (R361) -/

@[simp] theorem execNarrowbandSample_course (t unit : Nat) (crossing : Option Nat) (s : State) :
    KeepsCourse s (execNarrowbandSample t unit crossing s) := by
  unfold execNarrowbandSample
  refine .guarded t ?_
  dsimp only
  (repeat' split) <;> simp

@[simp] theorem execFadeEnd_course (t channel : Nat) (s : State) : KeepsCourse s (execFadeEnd t channel s) := by
  unfold execFadeEnd
  exact .guarded t (by simp)

/-! ### Window peak (R131) -/

@[simp] theorem execPeakWindowEnd_course (t channel : Nat) (s : State) : KeepsCourse s (execPeakWindowEnd t channel s) := by
  unfold execPeakWindowEnd
  exact .guarded t (by simp [↓State.course_ite])

/-! ### The row -/

@[simp] theorem execSynchronousCycle_course (t next512 : Nat) (s : State) : KeepsCourse s (execSynchronousCycle t next512 s) := by
  unfold execSynchronousCycle
  refine .next t ?_
  (repeat' split) <;> simp

/-! ### MEAS_CONFIG (R174-R177, R506) -/

@[simp] theorem measConfigRow_course : measConfigRow.KeepsCourse := ⟨fun r s => by simp [measConfigRow], nofun⟩

/-! ### Reading blocks (R213, R214, Tables 6.9-6.12) -/

@[simp] theorem measReadRow_course : measReadRow.KeepsCourse := by
  refine ⟨fun r s => ?_, nofun⟩
  unfold measReadRow
  dsimp only
  refine unparked_course ?_ r s
  intro r s
  split <;> rfl

@[simp] theorem harmonicReadRow_course : harmonicReadRow.KeepsCourse := by
  refine ⟨fun r s => ?_, nofun⟩
  unfold harmonicReadRow
  dsimp only
  split <;> simp

@[simp] theorem flickerReadRow_course : flickerReadRow.KeepsCourse := by
  refine ⟨fun r s => ?_, nofun⟩
  unfold flickerReadRow
  dsimp only
  refine judged_course ?_
  simp

/-! ### PQ_EVENT_CONFIG (R201, R491) -/

@[simp] theorem pqEventConfigRow_course : pqEventConfigRow.KeepsCourse := by
  refine ⟨fun r s => ?_, nofun⟩
  unfold pqEventConfigRow
  dsimp only
  split <;> simp [↓State.course_update]

/-! ### Intervals -/

@[simp] theorem execBasicIntervalEnd_course (t : Nat) (s : State) : KeepsCourse s (execBasicIntervalEnd t s) := by
  unfold execBasicIntervalEnd
  exact .next t (by simp)

/-! ### 150/180 cycles (R181) -/

@[simp] theorem execAggregate150180_course (t : Nat) (s : State) : KeepsCourse s (execAggregate150180 t s) := by
  unfold execAggregate150180
  refine .next t ?_
  generalize s.tickTo t = u
  simp [↓State.course_update]

/-! ### 10 minutes and 2 hours (R180, R182) -/

@[simp] theorem execTenMinutePeriodEnd_course (t : Nat) (s : State) : KeepsCourse s (execTenMinutePeriodEnd t s) := by
  unfold execTenMinutePeriodEnd
  refine .next t ?_
  dsimp only
  (repeat' split) <;> simp [course_foldl]

@[simp] theorem execTwoHourWindowEnd_course (t : Nat) (s : State) : KeepsCourse s (execTwoHourWindowEnd t s) := by
  unfold execTwoHourWindowEnd
  refine .next t ?_
  dsimp only
  (repeat' split) <;> simp

/-! ### 10-second frequency (R189, R207) -/

@[simp] theorem execTenSecondFrequency_course (t : Nat) (s : State) : KeepsCourse s (execTenSecondFrequency t s) := by
  unfold execTenSecondFrequency
  refine .next t ?_
  (repeat' split) <;> simp

/-! ### Supraharmonics and Pinst (R195-R198) -/

@[simp] theorem execSupraharmonicBlockEnd_course (t : Nat) (s : State) : KeepsCourse s (execSupraharmonicBlockEnd t s) := by
  unfold execSupraharmonicBlockEnd
  exact .next t (by simp)

@[simp] theorem execPinstSecond_course (t : Nat) (s : State) : KeepsCourse s (execPinstSecond t s) := by
  unfold execPinstSecond
  refine .next t ?_
  generalize s.tickTo t = u
  simp [↓State.course_update, ↓State.course_ite]

/-! ### The fold (R16, R222, R236) -/

@[simp] theorem execTickClose_course (t : Nat) (s : State) : KeepsCourse s (execTickClose t s) := by
  unfold execTickClose
  exact .next t (by simp [↓State.course_ite])

@[simp] theorem execTickFold_course (t : Nat) (s : State) : KeepsCourse s (execTickFold t s) := by
  unfold execTickFold
  refine .next t ?_
  (repeat' split) <;> simp

@[simp] theorem execDemandIntervalEnd_course (t : Nat) (s : State) : KeepsCourse s (execDemandIntervalEnd t s) := by
  unfold execDemandIntervalEnd
  exact .next t (by simp)

@[simp] theorem execLoadProfileEntry_course (t : Nat) (s : State) : KeepsCourse s (execLoadProfileEntry t s) := by
  unfold execLoadProfileEntry
  exact .next t (by simp)

@[simp] theorem execTariffChange_course (t : Nat) (s : State) : KeepsCourse s (execTariffChange t s) := by
  unfold execTariffChange
  exact .next t (by simp)

@[simp] theorem execBillingBoundary_course (t : Nat) (s : State) : KeepsCourse s (execBillingBoundary t s) := by
  unfold execBillingBoundary
  exact .next t (by simp)

@[simp] theorem execStandingCharge_course (t : Nat) (s : State) : KeepsCourse s (execStandingCharge t s) := by
  unfold execStandingCharge
  exact .next t (by simp)

@[simp] theorem execFriendlyTimeChange_course (t : Nat) (s : State) : KeepsCourse s (execFriendlyTimeChange t s) := by
  unfold execFriendlyTimeChange
  exact .next t (by simp)

@[simp] theorem execCheckpoint_course (t : Nat) (s : State) : KeepsCourse s (execCheckpoint t s) := by
  unfold execCheckpoint
  exact .next t (by simp)

@[simp] theorem execTariffPinCode_course (t code : Nat) (s : State) : KeepsCourse s (execTariffPinCode t code s) := by
  unfold execTariffPinCode
  refine .guarded t ?_
  generalize s.tickTo t = u
  simp [↓State.course_update, ↓State.course_ite]

/-! ### CAL_SWEEP (R144, Table 5.3) -/

@[simp] theorem calSweepRow_course : calSweepRow.KeepsCourse := by
  refine ⟨fun r s => ?_, nofun⟩
  unfold calSweepRow
  dsimp only
  refine judged_course ?_
  simp [↓State.course_update]

/-! ### CAL_STATUS (R163, R488, Table 16.12) -/

@[simp] theorem calStatusRow_course : calStatusRow.KeepsCourse := ⟨fun r s => by simp [calStatusRow], nofun⟩

/-! ### Images (R166-R168, Tables 5.11 and 5.12) -/

@[simp] theorem calImageReadRow_course : calImageReadRow.KeepsCourse := ⟨fun r s => by simp [calImageReadRow], nofun⟩

@[simp] theorem calImageWriteRow_course : calImageWriteRow.KeepsCourse :=
  ⟨fun r s => by simp [calImageWriteRow, ↓State.course_update, course_foldl], nofun⟩

/-! ### Store slots (R169-R173) -/

@[simp] theorem calStoreRow_course : calStoreRow.KeepsCourse := by
  refine ⟨fun r s => ?_, nofun⟩
  unfold calStoreRow
  dsimp only
  refine judged_course ?_
  simp [↓State.course_update]

@[simp] theorem execCalStoreComplete_course (t : Nat) (s : State) : KeepsCourse s (execCalStoreComplete t s) := by
  unfold execCalStoreComplete
  refine .next t ?_
  generalize s.tickTo t = u
  dsimp only
  (repeat' split) <;> simp [↓State.course_update]

@[simp] theorem calRestoreRow_course : calRestoreRow.KeepsCourse := by
  refine ⟨fun r s => ?_, nofun⟩
  unfold calRestoreRow
  dsimp only
  split
  · rfl
  · refine judged_course (accept_course (fun tag u => ?_))
    simp [↓State.course_update]

@[simp] theorem execCalRestoreComplete_course (t : Nat) (s : State) : KeepsCourse s (execCalRestoreComplete t s) := by
  unfold execCalRestoreComplete
  refine .next t ?_
  generalize s.tickTo t = u
  dsimp only
  (repeat' split) <;> simp [↓State.course_update]

/-! ### CAL_LIMITS (R164, R487) -/

@[simp] theorem calLimitsReadRow_course : calLimitsReadRow.KeepsCourse := ⟨fun r s => by simp [calLimitsReadRow], nofun⟩

@[simp] theorem calLimitsWriteRow_course : calLimitsWriteRow.KeepsCourse := ⟨fun r s => by simp [calLimitsWriteRow, ↓State.course_update], nofun⟩

/-! ### SET_TIME, GET_TIME, SET_CLOCK_POLICY -/

@[simp] theorem setTimeRow_course : setTimeRow.KeepsCourse := ⟨fun r s => by simp [setTimeRow, ↓State.course_update, ↓State.course_ite], nofun⟩

@[simp] theorem getTimeRow_course : getTimeRow.KeepsCourse := ⟨fun r s => by simp [getTimeRow], nofun⟩

@[simp] theorem setClockPolicyRow_course : setClockPolicyRow.KeepsCourse := ⟨fun r s => by simp [setClockPolicyRow, ↓State.course_update], nofun⟩

/-! ### PPS (R448-R452) -/

@[simp] theorem execPpsEdge_course (t quarter : Nat) (s : State) : KeepsCourse s (execPpsEdge t quarter s) := by
  unfold execPpsEdge
  exact .next t (by simp [↓State.course_ite])

@[simp] theorem execPpsUnlock_course (t : Nat) (s : State) : KeepsCourse s (execPpsUnlock t s) := by
  unfold execPpsUnlock
  refine .next t ?_
  generalize s.tickTo t = u
  simp [↓State.course_update, ↓State.course_ite]

@[simp] theorem execRateEstimateExpiry_course (t : Nat) (s : State) : KeepsCourse s (execRateEstimateExpiry t s) := by
  unfold execRateEstimateExpiry
  exact .next t (by simp [↓State.course_update, ↓State.course_ite])

/-! ### The RTC (R453, R454, R243) -/

@[simp] theorem execRtcWrite_course (t : Nat) (s : State) : KeepsCourse s (execRtcWrite t s) := by
  unfold execRtcWrite
  refine .next t ?_
  generalize s.tickTo t = u
  simp [↓State.course_update, ↓State.course_ite]

@[simp] theorem execRtcCrystalStop_course (t : Nat) (s : State) : KeepsCourse s (execRtcCrystalStop t s) := by
  unfold execRtcCrystalStop
  refine .next t ?_
  generalize s.tickTo t = u
  simp [↓State.course_update, ↓State.course_ite]

@[simp] theorem execRtcOscillatorRestart_course (t : Nat) (s : State) : KeepsCourse s (execRtcOscillatorRestart t s) := by
  unfold execRtcOscillatorRestart
  refine .next t ?_
  generalize s.tickTo t = u
  simp [↓State.course_update, ↓State.course_ite]

/-! ### The SYNC pin (R447) and the modem clock (R32) -/

@[simp] theorem execSyncEdge_course (t widthNs : Nat) (s : State) : KeepsCourse s (execSyncEdge t widthNs s) := by
  unfold execSyncEdge
  refine .next t ?_
  generalize s.tickTo t = u
  simp [↓State.course_update, ↓State.course_ite]

@[simp] theorem execTimingMessage_course (t modemCount : Nat) (s : State) : KeepsCourse s (execTimingMessage t modemCount s) := by
  unfold execTimingMessage
  refine .next t ?_
  generalize s.tickTo t = u
  simp [↓State.course_update, ↓State.course_ite]

/-! ### CTX_CREATE (R217, R218) -/

@[simp] theorem ctxCreateRow_course : ctxCreateRow.KeepsCourse := by
  refine ⟨fun r s => judged_course ?_, nofun⟩
  extract_lets c before u v
  have kept : u.course = s.course := State.addLive_course ..
  rw [Answer.done_state, State.poolLow_course, State.poolWrite_course]
  exact (State.course_update u rfl rfl rfl rfl).trans kept

/-! ### CTX_DELETE (R219) -/

@[simp] theorem ctxDeleteRow_course : ctxDeleteRow.KeepsCourse := by
  refine ⟨fun r s => ?_, nofun⟩
  unfold ctxDeleteRow
  dsimp only
  refine unparked_course ?_ r s
  intro r s
  generalize (if r.handle = 0 then _ else _ : Option Context) = found
  cases found <;> simp

/-! ### CTX_READ (R220) -/

@[simp] theorem ctxReadRow_course : ctxReadRow.KeepsCourse := by
  refine ⟨fun r s => ?_, nofun⟩
  unfold ctxReadRow
  dsimp only
  split <;> simp

/-! ### CTX_TARIFF_TABLE and CTX_DEMAND_CONFIG (R228, R229) -/

@[simp] theorem ctxTariffTableRow_course : ctxTariffTableRow.KeepsCourse := ⟨fun r s => by simp [ctxTariffTableRow], nofun⟩

@[simp] theorem ctxDemandConfigRow_course : ctxDemandConfigRow.KeepsCourse := ⟨fun r s => by simp [ctxDemandConfigRow], nofun⟩

/-! ### CTX_SNAPSHOT_READ (R235) -/

@[simp] theorem ctxSnapshotReadRow_course : ctxSnapshotReadRow.KeepsCourse := by
  refine ⟨fun r s => ?_, nofun⟩
  unfold ctxSnapshotReadRow
  dsimp only
  refine withCtx_course ?_ r s
  intro c r s
  split <;> rfl

/-! ### CTX_PARK (R253) -/

@[simp] theorem ctxParkRow_course : ctxParkRow.KeepsCourse := by
  refine ⟨fun r s => ?_, nofun⟩
  unfold ctxParkRow
  dsimp only
  split
  · rfl
  · refine judged_course (accept_course (fun tag u => ?_))
    generalize kept : u.setCtx _ _ = v
    simp [↓State.course_update, ← kept]

@[simp] theorem execCtxParkComplete_course (t serial : Nat) (s : State) : KeepsCourse s (execCtxParkComplete t serial s) := by
  unfold execCtxParkComplete
  refine .next t ?_
  (repeat' split) <;> simp

/-! ### CTX_UNPARK (R254, R247) -/

@[simp] theorem ctxUnparkRow_course : ctxUnparkRow.KeepsCourse := by
  refine ⟨fun r s => ?_, nofun⟩
  unfold ctxUnparkRow
  dsimp only
  split <;> simp

/-! ### CTX_SHADOW_FEED (R251) -/

@[simp] theorem ctxShadowFeedRow_course : ctxShadowFeedRow.KeepsCourse := ⟨fun r s => by simp [ctxShadowFeedRow], nofun⟩

/-! ### BALANCE_CONFIG (R273, R493) -/

@[simp] theorem balanceParametersRow_course : balanceParametersRow.KeepsCourse := ⟨fun r s => by simp [balanceParametersRow], nofun⟩

@[simp] theorem balanceAddRow_course : balanceAddRow.KeepsCourse := ⟨fun r s => by simp [balanceAddRow], nofun⟩

@[simp] theorem balanceRemoveRow_course : balanceRemoveRow.KeepsCourse := ⟨fun r s => by simp [balanceRemoveRow], nofun⟩

@[simp] theorem balanceDissolveRow_course : balanceDissolveRow.KeepsCourse := ⟨fun r s => by simp [balanceDissolveRow, ↓State.course_ite], nofun⟩

/-! ### BALANCE_READ (R275, R493) -/

@[simp] theorem balanceReadResultsRow_course : balanceReadResultsRow.KeepsCourse := ⟨fun r s => by simp [balanceReadResultsRow], nofun⟩

@[simp] theorem balanceReadMembersRow_course : balanceReadMembersRow.KeepsCourse := ⟨fun r s => by simp [balanceReadMembersRow], nofun⟩

/-! ### Session -/

@[simp] theorem yieldRow_course : yieldRow.KeepsCourse := by
  refine ⟨fun r s => ?_, nofun⟩
  unfold yieldRow
  dsimp only
  (repeat' split) <;> simp [↓State.course_update]

@[simp] theorem keepaliveRow_course :
    keepaliveRow.KeepsCourse := ⟨fun r s => by simp [keepaliveRow, ↓State.course_update, ↓State.course_ite], nofun⟩

@[simp] theorem whoOwnsRow_course : whoOwnsRow.KeepsCourse := ⟨fun r s => by simp [whoOwnsRow], nofun⟩

/-! ### EVENT_READ (R375, R379) -/

@[simp] theorem eventReadRow_course : eventReadRow.KeepsCourse := ⟨fun r s => by simp [eventReadRow], nofun⟩

@[simp] theorem eventReadFlushRow_course : eventReadFlushRow.KeepsCourse := ⟨fun r s => by simp [eventReadFlushRow], nofun⟩

/-! ### EVENT_MASK and WATERMARK_SET (R374, R380) -/

@[simp] theorem eventMaskRow_course : eventMaskRow.KeepsCourse := ⟨fun r s => by simp [eventMaskRow], nofun⟩

@[simp] theorem watermarkSetRow_course : watermarkSetRow.KeepsCourse := ⟨fun r s => by simp [watermarkSetRow], nofun⟩

/-! ### FENCE (R376) -/

@[simp] theorem fenceRow_course : fenceRow.KeepsCourse := ⟨fun r s => by simp [fenceRow], nofun⟩

@[simp] theorem execFenceMarker_course (t session : Nat) (s : State) : KeepsCourse s (execFenceMarker t session s) := by
  unfold execFenceMarker
  exact .guarded t (by simp)

/-! ### Equaliser banks (R113-R118) -/

@[simp] theorem bankLoadRow_course : bankLoadRow.KeepsCourse := ⟨fun r s => by simp [bankLoadRow], nofun⟩

@[simp] theorem bankSwapRow_course : bankSwapRow.KeepsCourse := by
  refine ⟨fun r s => ?_, nofun⟩
  unfold bankSwapRow
  dsimp only
  (repeat' split) <;> simp

/-! ### DETECTOR_SET (R130) -/

@[simp] theorem detectorSetRow_course : detectorSetRow.KeepsCourse := ⟨fun r s => by simp [detectorSetRow], nofun⟩

/-! ### RESAMPLER_SET (R120, R124, R126) -/

@[simp] theorem resamplerSetRow_course : resamplerSetRow.KeepsCourse := ⟨fun r s => by simp [resamplerSetRow, ↓State.course_update], nofun⟩

@[simp] theorem resamplerSetDelayRow_course : resamplerSetDelayRow.KeepsCourse := ⟨fun r s => by simp [resamplerSetDelayRow], nofun⟩

/-! ### STREAM_READ (R134, R135, R486) -/

@[simp] theorem streamReadRow_course : streamReadRow.KeepsCourse := by
  refine ⟨fun r s => ?_, nofun⟩
  unfold streamReadRow
  dsimp only
  refine judged_course ?_
  (repeat' split) <;> simp

/-! ### Anchors (R281-R285) -/

@[simp] theorem execAnchorPrediction_course (t : Nat) (s : State) : KeepsCourse s (execAnchorPrediction t s) := by
  unfold execAnchorPrediction
  refine .next t ?_
  dsimp only
  (repeat' split) <;> simp

@[simp] theorem execAnchor_course (t : Nat) (positive : Bool) (line : List Int) (s : State) : KeepsCourse s (execAnchor t positive line s) := by
  unfold execAnchor
  refine .next t ?_
  dsimp only
  (repeat' split) <;> simp

@[simp] theorem execFreeRunTimeout_course (t : Nat) (s : State) : KeepsCourse s (execFreeRunTimeout t s) := by
  unfold execFreeRunTimeout
  exact .next t (by simp [↓State.course_ite])

@[simp] theorem execAnchorResume_course (t : Nat) (s : State) : KeepsCourse s (execAnchorResume t s) := by
  unfold execAnchorResume
  exact .next t (by simp [↓State.course_ite])

/-! ### Sending (R286, R302) -/

@[simp] theorem execFrameTransmit_course (t : Nat) (s : State) : KeepsCourse s (execFrameTransmit t s) := by
  unfold execFrameTransmit
  refine .next t ?_
  (repeat' split) <;> simp

@[simp] theorem execMapFrameSend_course (t : Nat) (s : State) : KeepsCourse s (execMapFrameSend t s) := by
  unfold execMapFrameSend
  refine .next t ?_
  (repeat' split) <;> simp

@[simp] theorem execFrameSent_course (t : Nat) (s : State) : KeepsCourse s (execFrameSent t s) := by
  unfold execFrameSent
  refine .next t ?_
  dsimp only
  (repeat' split) <;> simp

@[simp] theorem execDriverProtection_course (t : Nat) (s : State) : KeepsCourse s (execDriverProtection t s) := by
  unfold execDriverProtection
  exact .next t (by simp [↓State.course_ite])

@[simp] theorem execDriverProtectionClear_course (t : Nat) (s : State) : KeepsCourse s (execDriverProtectionClear t s) := by
  unfold execDriverProtectionClear
  exact .next t (by simp [↓State.course_ite])

/-! ### Receiving (R287, R290, R293, R302) -/

@[simp] theorem execDelimiterDetected_course (t : Nat) (s : State) : KeepsCourse s (execDelimiterDetected t s) := by
  unfold execDelimiterDetected
  exact .next t (by simp [↓State.course_ite])

@[simp] theorem execFrameReceived_course (t : Nat) (frame : LineFrame) (s : State) : KeepsCourse s (execFrameReceived t frame s) := by
  unfold execFrameReceived
  exact .next t (by simp)

@[simp] theorem execMapFrameReceived_course (t : Nat) (frame : LineFrame) (s : State) : KeepsCourse s (execMapFrameReceived t frame s) := by
  unfold execMapFrameReceived
  exact .next t (by simp [↓State.course_ite])

@[simp] theorem execErasureRateWindow_course (t : Nat) (s : State) : KeepsCourse s (execErasureRateWindow t s) := by
  unfold execErasureRateWindow
  exact .next t (by simp [↓State.course_ite])

/-! ### S-FSK (R303, R304) -/

@[simp] theorem execSfskTransmit_course (t : Nat) (s : State) : KeepsCourse s (execSfskTransmit t s) := by
  unfold execSfskTransmit
  refine .next t ?_
  dsimp only
  (repeat' split) <;> simp

@[simp] theorem execSfskFrameReceived_course (t : Nat) (bits : List (List Int)) (s : State) : KeepsCourse s (execSfskFrameReceived t bits s) := by
  unfold execSfskFrameReceived
  refine .next t ?_
  dsimp only
  (repeat' split) <;> simp

/-! ### Poll entries (R326, R327) -/

@[simp] theorem execPollEntryDue_course (t index : Nat) (s : State) : KeepsCourse s (execPollEntryDue t index s) := by
  unfold execPollEntryDue
  refine .next t ?_
  dsimp only
  (repeat' split) <;> simp

@[simp] theorem execTransactionStart_course (t : Nat) (s : State) : KeepsCourse s (execTransactionStart t s) := by
  unfold execTransactionStart
  refine .next t ?_
  dsimp only
  (repeat' split) <;> simp

@[simp] theorem execTransactionDeadline_course (t id : Nat) (s : State) : KeepsCourse s (execTransactionDeadline t id s) := by
  unfold execTransactionDeadline
  refine .next t ?_
  (repeat' split) <;> simp

/-! ### Messages received (R324, R328-R331) -/

@[simp] theorem execIntervalDataResponse_course (t : Nat) (s : State) : KeepsCourse s (execIntervalDataResponse t s) := by
  unfold execIntervalDataResponse
  extract_lets u
  refine .next t ?_
  split
  · rfl
  · next taken =>
    extract_lets x w v y
    clear_value x
    have kept := State.course_of_takeMessage taken
    have keptW : w.course = u.course := by
      unfold w
      split <;> simp [kept]
    have keptV : v.course = u.course :=
      State.course_of_ite ((course_foldl _ (fun _ _ => State.pollRecord_course ..) _ _).trans keptW) keptW
    have keptY : y.course = u.course := State.course_of_ite ((State.readyAgain_course ..).trans keptV) keptV
    exact (State.pump_course ..).trans keptY

@[simp] theorem execRouteError_course (t : Nat) (s : State) : KeepsCourse s (execRouteError t s) := by
  unfold execRouteError
  extract_lets u
  refine .next t ?_
  split
  · rfl
  · next taken =>
    extract_lets relay next lost v old w
    have kept : w.course = u.course := by
      rw [State.setMesh_course, State.raise_course, State.course_of_takeMessage taken]
    split
    · exact (State.failAttempt_course ..).trans kept
    · exact kept

@[simp] theorem execNeighbourReport_course (t : Nat) (s : State) : KeepsCourse s (execNeighbourReport t s) := by
  unfold execNeighbourReport
  extract_lets u
  refine .next t ?_
  split
  · rfl
  · next taken =>
    extract_lets origin v w x
    have keptV : v.course = u.course := by
      unfold v
      split <;> simp [State.course_of_takeMessage taken, u]
    have keptW : w.course = u.course := (State.applyReport_course ..).trans keptV
    have keptX : x.course = u.course := by
      unfold x
      split
      · exact State.course_of_ite ((State.recordPath_course ..).trans keptW) keptW
      · exact keptW
    exact State.course_of_ite keptV ((State.pump_course ..).trans keptX)

@[simp] theorem execHostResponse_course (t : Nat) (s : State) : KeepsCourse s (execHostResponse t s) := by
  unfold execHostResponse
  extract_lets u
  refine .next t ?_
  split
  · rfl
  · next taken =>
    have kept := State.course_of_takeMessage taken
    split
    · exact kept
    · extract_lets data known v
      have keptV : v.course = u.course := (State.completeFlight_course ..).trans kept
      split
      · exact (State.pump_course ..).trans keptV
      · simp [↓State.course_ite, keptV, u]

/-! ### Discovery (R322) -/

@[simp] theorem execDiscoveryStart_course (t : Nat) (s : State) : KeepsCourse s (execDiscoveryStart t s) := by
  unfold execDiscoveryStart
  refine .next t ?_
  (repeat' split) <;> simp

@[simp] theorem execDiscoveryTimeout_course (t : Nat) (s : State) : KeepsCourse s (execDiscoveryTimeout t s) := by
  unfold execDiscoveryTimeout
  refine .next t ?_
  dsimp only
  (repeat' split) <;> simp

@[simp] theorem execRoutePass_course (t : Nat) (s : State) : KeepsCourse s (execRoutePass t s) := by
  unfold execRoutePass
  exact .next t (by simp [↓State.course_ite])

@[simp] theorem execLinkSilence_course (t handle : Nat) (s : State) : KeepsCourse s (execLinkSilence t handle s) := by
  unfold execLinkSilence
  refine .next t ?_
  (repeat' split) <;> simp

/-! ### Log checkpoints (R392) -/

@[simp] theorem execLogCheckpoint_course (t : Nat) (s : State) : KeepsCourse s (execLogCheckpoint t s) := by
  unfold execLogCheckpoint
  exact .next t (by simp [↓State.course_ite])

/-! ### The pages of an encrypted region (R384) -/

@[simp] theorem execBlockRetire_course (t device : Nat) (lost : List LostPage) (s : State) : KeepsCourse s (execBlockRetire t device lost s) := by
  unfold execBlockRetire
  refine .guarded t ?_
  dsimp only
  (repeat' split) <;> simp [↓State.course_update, course_foldl]

/-! ### Format (R386, R409, R401) -/

@[simp] theorem storeFormatRow_course : storeFormatRow.KeepsCourse := by
  refine ⟨fun r s => ?_, nofun⟩
  unfold storeFormatRow
  dsimp only
  refine judged_course ?_
  simp [↓State.course_update]

/-! ### STORE_INFO (R499) -/

@[simp] theorem storeInfoRow_course : storeInfoRow.KeepsCourse := ⟨fun r s => by simp [storeInfoRow], nofun⟩

/-! ### Rings and marks (R396, R397) -/

@[simp] theorem captureReadRow_course : captureReadRow.KeepsCourse := by
  refine ⟨fun r s => ?_, nofun⟩
  unfold captureReadRow
  dsimp only
  (repeat' split) <;> simp

@[simp] theorem markSetRow_course : markSetRow.KeepsCourse := ⟨fun r s => by simp [markSetRow], nofun⟩

@[simp] theorem markClearRow_course : markClearRow.KeepsCourse := ⟨fun _ _ => State.setSession_course .., nofun⟩

/-! ### LOG_READ (R393) -/

@[simp] theorem logReadRow_course : logReadRow.KeepsCourse := by
  refine ⟨fun r s => ?_, nofun⟩
  unfold logReadRow
  dsimp only
  split <;> simp

/-! ### FW_BEGIN (R417) -/

@[simp] theorem execFwBeginComplete_course (t : Nat) (s : State) : KeepsCourse s (execFwBeginComplete t s) := by
  unfold execFwBeginComplete
  refine .next t ?_
  generalize s.tickTo t = u
  dsimp only
  (repeat' split) <;> simp [↓State.course_update]

/-! ### FW_DATA (R418) -/

@[simp] theorem fwDataRow_course : fwDataRow.KeepsCourse := by
  refine ⟨fun r s => ?_, nofun⟩
  unfold fwDataRow
  dsimp only
  split
  · rfl
  · next u _ =>
    have drawn : (if u.data.length < 65536 then (0, s) else s.draw).2.course = s.course := by
      split <;> rfl
    generalize (if u.data.length < 65536 then (0, s) else s.draw) = d at drawn ⊢
    rw [judged_course]
    · exact drawn
    · simp [↓State.course_update]

/-! ### FW_END (R419) -/

@[simp] theorem fwEndRow_course : fwEndRow.KeepsCourse := ⟨fun r s => by simp [fwEndRow], nofun⟩

@[simp] theorem fwEndRetryRow_course : fwEndRetryRow.KeepsCourse := by
  refine ⟨fun r s => ?_, nofun⟩
  unfold fwEndRetryRow
  dsimp only
  split <;> simp

/-! ### ATTEST (R421) -/

@[simp] theorem attestQuoteRow_course : attestQuoteRow.KeepsCourse := by
  refine ⟨fun r s => judged_course (accept_course (fun tag u => ?_)), nofun⟩
  extract_lets q
  rw [State.queueJob_course, State.setSession_course]

@[simp] theorem attestFetchRow_course : attestFetchRow.KeepsCourse := by
  refine ⟨fun r s => ?_, nofun⟩
  unfold attestFetchRow
  dsimp only
  split
  · rfl
  · exact Answer.course_of_ite (State.setSession_course ..) rfl

@[simp] theorem attestPublicKeyRow_course : attestPublicKeyRow.KeepsCourse := ⟨fun r s => by simp [attestPublicKeyRow], nofun⟩

@[simp] theorem attestCertificateRow_course : attestCertificateRow.KeepsCourse := by
  refine ⟨fun r s => ?_, nofun⟩
  unfold attestCertificateRow
  dsimp only
  refine judged_course ?_
  simp

/-! ### KEY_PROVISION (R420) -/

@[simp] theorem keyProvisionTransportKeyRow_course : keyProvisionTransportKeyRow.KeepsCourse :=
  ⟨fun r s => by simp [keyProvisionTransportKeyRow, ↓State.course_update], nofun⟩

@[simp] theorem keyProvisionNetworkKeyRow_course : keyProvisionNetworkKeyRow.KeepsCourse := by
  refine ⟨fun r s => ?_, nofun⟩
  unfold keyProvisionNetworkKeyRow
  dsimp only
  refine judged_course ?_
  split <;> simp

/-! ### Signatures (R404) -/

@[simp] theorem execSignatureComplete_course (t : Nat) (s : State) : KeepsCourse s (execSignatureComplete t s) := by
  unfold execSignatureComplete
  exact .next t (by simp [↓State.course_ite])

/-! ### Debug access (R422) -/

@[simp] theorem execDebugAuthentication_course (t : Nat) (signature : List Byte) (s : State) :
    KeepsCourse s (execDebugAuthentication t signature s) := by
  unfold execDebugAuthentication
  exact .next t (by simp [↓State.course_update, ↓State.course_ite])

/-! ### Bridges (R341) -/

@[simp] theorem execBridgeHandover_course (t channel : Nat) (s : State) : KeepsCourse s (execBridgeHandover t channel s) := by
  unfold execBridgeHandover
  dsimp only
  refine .guarded t ?_
  (repeat' split) <;> simp

@[simp] theorem execBridgeHandback_course (t channel : Nat) (s : State) : KeepsCourse s (execBridgeHandback t channel s) := by
  unfold execBridgeHandback
  dsimp only
  refine .guarded t ?_
  (repeat' split) <;> simp

/-! ### Checker rotation (R346-R348) -/

@[simp] theorem execCheckerDwellEnd_course (t : Nat) (s : State) : KeepsCourse s (execCheckerDwellEnd t s) := by
  unfold execCheckerDwellEnd
  refine .next t ?_
  (repeat' split) <;> simp

@[simp] theorem execConfirmingDwellEnd_course (t : Nat) (lanesAgree : Bool) (s : State) :
    KeepsCourse s (execConfirmingDwellEnd t lanesAgree s) := by
  unfold execConfirmingDwellEnd
  refine .next t ?_
  generalize s.tickTo t = u
  dsimp only
  (repeat' split) <;> simp [↓State.course_update]

/-! ### Die failure and substitution (R349-R352) -/

@[simp] theorem execDieFailure_course (t die : Nat) (cause : DieFault) (s : State) : KeepsCourse s (execDieFailure t die cause s) := by
  unfold execDieFailure
  refine .guarded t ?_
  generalize s.tickTo t = u
  simp [↓State.course_update, ↓State.course_ite]

@[simp] theorem execSubstitutionComplete_course (t : Nat) (s : State) : KeepsCourse s (execSubstitutionComplete t s) := by
  unfold execSubstitutionComplete
  refine .next t ?_
  generalize s.tickTo t = u
  dsimp only
  (repeat' split) <;> simp [↓State.course_update]

/-! ### Return (R353) -/

@[simp] theorem execDieReturnTry_course (t die : Nat) (selfTest : Bool) (s : State) : KeepsCourse s (execDieReturnTry t die selfTest s) := by
  unfold execDieReturnTry
  exact .guarded t (by simp [↓State.course_ite])

@[simp] theorem execDieReturn_course (t die : Nat) (s : State) : KeepsCourse s (execDieReturn t die s) := by
  unfold execDieReturn
  exact .guarded t (by simp [↓State.course_ite])

/-! ### Memories and the vector DSP (R335, R338) -/

@[simp] theorem execScrub_course (t die region corrected : Nat) (s : State) : KeepsCourse s (execScrub t die region corrected s) := by
  unfold execScrub
  exact .guarded t (by simp [↓State.course_ite])

@[simp] theorem execDspFault_course (t : Nat) (s : State) : KeepsCourse s (execDspFault t s) := by
  unfold execDspFault
  refine .next t ?_
  dsimp only
  (repeat' split) <;> simp

@[simp] theorem execProcessorCheckpoint_course (t : Nat) (s : State) : KeepsCourse s (execProcessorCheckpoint t s) := by
  unfold execProcessorCheckpoint
  exact .next t (by simp)

/-! ### HEALTH_READ (Table 16.24) -/

@[simp] theorem healthReadRow_course : healthReadRow.KeepsCourse := ⟨fun r s => by simp [healthReadRow], nofun⟩

/-! ### CHECKER_CONFIG (R356) -/

@[simp] theorem checkerConfigRow_course : checkerConfigRow.KeepsCourse := ⟨fun r s => by simp [checkerConfigRow, ↓State.course_update], nofun⟩

@[simp] theorem checkerConfigSkipMaskRow_course : checkerConfigSkipMaskRow.KeepsCourse := ⟨fun r s => by simp [checkerConfigSkipMaskRow], nofun⟩

/-! ### REPAIR_LOG (R355) -/

@[simp] theorem repairLogRow_course : repairLogRow.KeepsCourse := by
  refine ⟨fun r s => ?_, nofun⟩
  unfold repairLogRow
  dsimp only
  (repeat' split) <;> simp

/-! ### FORCE_SUBSTITUTE (R357) -/

@[simp] theorem forceReleaseRow_course : forceReleaseRow.KeepsCourse := ⟨fun r s => by simp [forceReleaseRow, ↓State.course_ite], nofun⟩

@[simp] theorem forceChannelRow_course : forceChannelRow.KeepsCourse := ⟨fun r s => by simp [forceChannelRow], nofun⟩

@[simp] theorem forceDieRow_course : forceDieRow.KeepsCourse :=
  ⟨fun r s => by simp [forceDieRow, ↓State.course_ite, course_foldl], nofun⟩

/-! ### LINE_CONFIG (R277, R278) -/

@[simp] theorem lineConfigRow_course : lineConfigRow.KeepsCourse := ⟨fun r s => by simp [lineConfigRow], nofun⟩

/-! ### TONEMAP (R296) -/

@[simp] theorem tonemapReadRow_course : tonemapReadRow.KeepsCourse := by
  refine ⟨fun r s => ?_, nofun⟩
  unfold tonemapReadRow
  dsimp only
  refine judged_course ?_
  simp

@[simp] theorem tonemapPinRow_course : tonemapPinRow.KeepsCourse := by
  refine ⟨fun r s => ?_, nofun⟩
  unfold tonemapPinRow
  dsimp only
  refine judged_course ?_
  split <;> simp

@[simp] theorem tonemapUnpinRow_course : tonemapUnpinRow.KeepsCourse := by
  refine ⟨fun r s => ?_, nofun⟩
  unfold tonemapUnpinRow
  dsimp only
  refine judged_course ?_
  split <;> simp

/-! ### NODE_ADMIT (R308, R309) -/

@[simp] theorem nodeAdmitAdmitRow_course : nodeAdmitAdmitRow.KeepsCourse := ⟨fun r s => by simp [nodeAdmitAdmitRow, ↓State.course_ite], nofun⟩

@[simp] theorem nodeAdmitRemoveRow_course : nodeAdmitRemoveRow.KeepsCourse := ⟨fun r s => by simp [nodeAdmitRemoveRow], nofun⟩

/-! ### ROUTE_READ (R323) -/

@[simp] theorem routeReadRow_course : routeReadRow.KeepsCourse := ⟨fun r s => by simp [routeReadRow], nofun⟩

/-! ### Poll list (R325, R326) -/

@[simp] theorem pollListLoadRow_course : pollListLoadRow.KeepsCourse := ⟨fun r s => by simp [pollListLoadRow], nofun⟩

@[simp] theorem pollStartRow_course : pollStartRow.KeepsCourse := ⟨fun r s => by simp [pollStartRow], nofun⟩

@[simp] theorem pollStopRow_course : pollStopRow.KeepsCourse := ⟨fun r s => by simp [pollStopRow], nofun⟩

/-! ### LINE_SEND (R331, R303) -/

@[simp] theorem lineSendRow_course : lineSendRow.KeepsCourse := ⟨fun r s => by simp [lineSendRow], nofun⟩

@[simp] theorem lineSendSfskRow_course : lineSendSfskRow.KeepsCourse := ⟨fun r s => by simp [lineSendSfskRow], nofun⟩

/-! ### LINE_STATS (R306, R496) -/

@[simp] theorem lineStatsNeighbourRow_course : lineStatsNeighbourRow.KeepsCourse := ⟨fun r s => by simp [lineStatsNeighbourRow], nofun⟩

@[simp] theorem lineStatsCountersRow_course : lineStatsCountersRow.KeepsCourse := ⟨fun r s => by simp [lineStatsCountersRow], nofun⟩

@[simp] theorem lineStatsSfskFramesRow_course : lineStatsSfskFramesRow.KeepsCourse := ⟨fun r s => by simp [lineStatsSfskFramesRow], nofun⟩

@[simp] theorem lineStatsResponseRow_course : lineStatsResponseRow.KeepsCourse := by
  refine ⟨fun r s => ?_, nofun⟩
  unfold lineStatsResponseRow
  dsimp only
  split <;> simp

/-! ### PRIVILEGE_SET (R298) -/

@[simp] theorem privilegeSetRow_course : privilegeSetRow.KeepsCourse := ⟨fun r s => by simp [privilegeSetRow], nofun⟩

@[simp] theorem privilegeClearRow_course : privilegeClearRow.KeepsCourse := ⟨fun r s => by simp [privilegeClearRow], nofun⟩

/-! ### Restart -/

@[simp] theorem execLockstepMismatch_course (t pair : Nat) (s : State) : KeepsCourse s (execLockstepMismatch t pair s) := by
  unfold execLockstepMismatch
  exact .guarded t (by simp [↓State.course_ite])

@[simp] theorem execUncorrectableError_course (t : Nat) (place : MemWhere) (s : State) : KeepsCourse s (execUncorrectableError t place s) := by
  unfold execUncorrectableError
  dsimp only
  refine .guarded t ?_
  (repeat' split) <;> simp

/-! ### The power warning (R427, R432, Table 14.2) -/

@[simp] theorem execPowerWarning_course (t : Nat) (s : State) : KeepsCourse s (execPowerWarning t s) := by
  unfold execPowerWarning
  exact .next t (by simp [↓State.course_ite])

/-! ### Ride-through (R435, R249) -/

@[simp] theorem execRideThrough_course (t : Nat) (lowest : F32) (s : State) : KeepsCourse s (execRideThrough t lowest s) := by
  unfold execRideThrough
  refine .next t ?_
  dsimp only
  (repeat' split) <;> simp [↓State.course_update]

@[simp] theorem execRideThroughCheckpointEnd_course (t : Nat) (belowWarning : Bool) (s : State) :
    KeepsCourse s (execRideThroughCheckpointEnd t belowWarning s) := by
  unfold execRideThroughCheckpointEnd
  exact .next t (by simp [↓State.course_update, ↓State.course_ite])

/-! ### Supply faults (R429-R431) -/

@[simp] theorem execVanaSupplyFault_course (t : Nat) (dies : List Nat) (volts : F32) (s : State) :
    KeepsCourse s (execVanaSupplyFault t dies volts s) := by
  unfold execVanaSupplyFault
  refine .guarded t ?_
  generalize s.tickTo t = u
  simp [↓State.course_update, ↓State.course_ite]

@[simp] theorem execVanaRecovery_course (t : Nat) (volts : F32) (s : State) : KeepsCourse s (execVanaRecovery t volts s) := by
  unfold execVanaRecovery
  refine .next t ?_
  generalize s.tickTo t = u
  simp [↓State.course_update, ↓State.course_ite]

@[simp] theorem execVioSFault_course (t : Nat) (volts : F32) (s : State) : KeepsCourse s (execVioSFault t volts s) := by
  unfold execVioSFault
  refine .next t ?_
  generalize s.tickTo t = u
  simp [↓State.course_update, ↓State.course_ite]

@[simp] theorem execVioSRecovery_course (t : Nat) (volts : F32) (s : State) : KeepsCourse s (execVioSRecovery t volts s) := by
  unfold execVioSRecovery
  refine .next t ?_
  generalize s.tickTo t = u
  simp [↓State.course_update, ↓State.course_ite]

@[simp] theorem execVbatLow_course (t : Nat) (volts : F32) (s : State) : KeepsCourse s (execVbatLow t volts s) := by
  unfold execVbatLow
  exact .next t (by simp [↓State.course_ite])

@[simp] theorem execVbatLowClear_course (t : Nat) (volts : F32) (s : State) : KeepsCourse s (execVbatLowClear t volts s) := by
  unfold execVbatLowClear
  exact .next t (by simp [↓State.course_ite])

/-! ### The modem crystal (R454) -/

@[simp] theorem execModemCrystalLoss_course (t : Nat) (s : State) : KeepsCourse s (execModemCrystalLoss t s) := by
  unfold execModemCrystalLoss
  refine .next t ?_
  generalize s.tickTo t = u
  simp [↓State.course_update, ↓State.course_ite]

/-! ### Loss of a lane (R23, Table 1.2) -/

@[simp] theorem execVarfinFrame_course (t link lane seq : Nat) (crcOk : Bool) (s : State) :
    KeepsCourse s (execVarfinFrame t link lane seq crcOk s) := by
  unfold execVarfinFrame
  exact .guarded t (by simp [↓State.course_ite])

@[simp] theorem execVarfinResendTimeout_course (t link : Nat) (s : State) : KeepsCourse s (execVarfinResendTimeout t link s) := by
  unfold execVarfinResendTimeout
  exact .guarded t (by simp [↓State.course_ite])

@[simp] theorem execLaneLoss_course (t die lane : Nat) (s : State) : KeepsCourse s (execLaneLoss t die lane s) := by
  unfold execLaneLoss
  exact .guarded t (by simp [↓State.course_ite])

/-! ### Retraining (R24) -/

@[simp] theorem execLaneRetrain_course (t die lane : Nat) (s : State) : KeepsCourse s (execLaneRetrain t die lane s) := by
  unfold execLaneRetrain
  exact .guarded t (by simp [↓State.course_ite])

@[simp] theorem execLaneReturn_course (t die lane : Nat) (s : State) : KeepsCourse s (execLaneReturn t die lane s) := by
  unfold execLaneReturn
  exact .guarded t (by simp [↓State.course_ite])

/-! ### The register set (Table 11.8) -/

@[simp] theorem gatehouseReadRow_course : gatehouseReadRow.KeepsCourse := by
  refine ⟨fun r s => ?_, fun g given r s => ?_⟩
  · simp [gatehouseReadRow]
  · cases given
    simp

/-! ### The tally (R361) -/

@[simp] theorem execTallyTick_course (t : Nat) (s : State) : KeepsCourse s (execTallyTick t s) := by
  unfold execTallyTick
  exact .next t (by simp [↓State.course_update, ↓State.course_ite])

/-! ### Host -/

@[simp] theorem execWritePacket_course (t : Nat) (p : Port) (code : Nat) (bytes : List Byte) (s : State) :
    KeepsCourse s (execWritePacket t p code bytes s) := by
  unfold execWritePacket
  exact .next t (by simp [↓State.course_ite])

@[simp] theorem execReadPacket_course (t : Nat) (p : Port) (clocked : Nat) (s : State) : KeepsCourse s (execReadPacket t p clocked s) := by
  unfold execReadPacket
  exact .next t (by simp [↓State.course_ite])

@[simp] theorem execReadStatus_course (t : Nat) (p : Port) (clocked : Nat) (s : State) : KeepsCourse s (execReadStatus t p clocked s) := by
  unfold execReadStatus
  exact .next t (by simp [↓State.course_ite])

/-! ### UART (R42-R45) -/

@[simp] theorem execSyncByte_course (t : Nat) (value : Nat) (baud : Nat) (s : State) : KeepsCourse s (execSyncByte t value baud s) := by
  unfold execSyncByte
  refine .next t ?_
  generalize s.tickTo t = u
  simp [↓State.course_update, ↓State.course_ite]

@[simp] theorem execUartRequest_course (t : Nat) (bytes : List Byte) (s : State) : KeepsCourse s (execUartRequest t bytes s) := by
  unfold execUartRequest
  exact .next t (by simp [↓State.course_ite, course_foldl])

@[simp] theorem execUartIdleGap_course (t : Nat) (gap : Nat) (s : State) : KeepsCourse s (execUartIdleGap t gap s) := by
  unfold execUartIdleGap
  refine .next t ?_
  generalize s.tickTo t = u
  simp [↓State.course_update, ↓State.course_ite]

@[simp] theorem execBreakLine_course (t : Nat) (bits : Nat) (s : State) : KeepsCourse s (execBreakLine t bits s) := by
  unfold execBreakLine
  refine .next t ?_
  generalize s.tickTo t = u
  simp [↓State.course_update, ↓State.course_ite]

@[simp] theorem execUartReplySent_course (t : Nat) (s : State) : KeepsCourse s (execUartReplySent t s) := by
  unfold execUartReplySent
  refine .next t ?_
  generalize s.tickTo t = u
  dsimp only
  (repeat' split) <;> simp [↓State.course_update]

/-! ### PREPAY_CONFIG (R255) -/

@[simp] theorem prepayConfigRow_course : prepayConfigRow.KeepsCourse := ⟨fun r s => by simp [prepayConfigRow], nofun⟩

/-! ### CREDIT_ADD (R258) -/

@[simp] theorem creditAddRow_course : creditAddRow.KeepsCourse := by
  refine ⟨fun r s => ?_, nofun⟩
  unfold creditAddRow
  dsimp only
  refine withCtx_course ?_ r s
  intro c r s
  refine judged_course (Answer.course_of_ite rfl ?_)
  exact State.addCredit_course ..

/-! ### EMERGENCY_CREDIT (R260) -/

@[simp] theorem emergencyCreditRow_course : emergencyCreditRow.KeepsCourse := ⟨fun r s => by simp [emergencyCreditRow], nofun⟩

/-! ### FRIENDLY_SET (R262) -/

@[simp] theorem friendlySetRow_course : friendlySetRow.KeepsCourse := ⟨fun r s => by simp [friendlySetRow], nofun⟩

/-! ### RELAY_CONTROL (R263, Table 8.2) -/

@[simp] theorem relayRow_course {picks : Nat → Bool} {tests : Req → State → List (Bool × Nat)} {f : Nat → Req → State → State}
    (keeps : ∀ k r s, (f k r s).course = s.course) : (relayRow picks tests f).KeepsCourse :=
  ⟨fun _ _ => judged_course (keeps ..), nofun⟩

@[simp] theorem relayQueryRow_course : relayQueryRow.KeepsCourse := relayRow_course (fun _ _ _ => rfl)

@[simp] theorem relayOpenRow_course : relayOpenRow.KeepsCourse := by
  refine relayRow_course (fun k r s => ?_)
  split <;> simp

@[simp] theorem relayCloseRow_course : relayCloseRow.KeepsCourse := by
  refine relayRow_course (fun k r s => ?_)
  split <;> simp [↓State.course_ite]

@[simp] theorem relayArmRow_course : relayArmRow.KeepsCourse := by
  refine relayRow_course (fun k r s => ?_)
  split <;> simp

@[simp] theorem relayPolarityRow_course : relayPolarityRow.KeepsCourse :=
  relayRow_course (fun k r s => by simp [↓State.course_update])

/-! ### TAMPER_CONFIG (R268) -/

@[simp] theorem tamperContextRow_course : tamperContextRow.KeepsCourse := ⟨fun r s => by simp [tamperContextRow], nofun⟩

@[simp] theorem tamperLevelsRow_course : tamperLevelsRow.KeepsCourse := ⟨fun r s => by simp [tamperLevelsRow, ↓State.course_update], nofun⟩

/-! ### TAMPER_READ (R270) -/

@[simp] theorem tamperReadRow_course : tamperReadRow.KeepsCourse := by
  refine ⟨fun r s => ?_, nofun⟩
  unfold tamperReadRow
  dsimp only
  refine withCtx_course ?_ r s
  intro c r s
  split <;> rfl

/-! ### Pins (R261, R268, R269) -/

@[simp] theorem execCreditBtnPress_course (t high low : Nat) (s : State) : KeepsCourse s (execCreditBtnPress t high low s) := by
  unfold execCreditBtnPress
  refine .next t ?_
  generalize s.tickTo t = u
  simp [↓State.course_update, ↓State.course_ite]

/-- The log of switches is none of the security state that leads forward. -/
@[simp] theorem SecurityState.logSwitch_forward (x : SecurityState) (input : Nat) (active : Bool) (time : Nat) :
    (x.logSwitch input active time).lifecycle = x.lifecycle ∧ (x.logSwitch input active time).counter = x.counter ∧
      (x.logSwitch input active time).transition = x.transition := by
  unfold SecurityState.logSwitch
  split <;> exact ⟨rfl, rfl, rfl⟩

@[simp] theorem execTamperSwitch_course (t input : Nat) (level : Bool) (s : State) : KeepsCourse s (execTamperSwitch t input level s) := by
  unfold execTamperSwitch
  refine .guarded t ?_
  generalize s.tickTo t = u
  simp [↓State.course_update, ↓State.course_ite]

/-! ### System -/

theorem undefinedRow_course (opcode : Nat) : (undefinedRow opcode).KeepsCourse := ⟨fun _ _ => rfl, fun _ given => by cases given⟩

/-! ### PING (Table 16.4) -/

@[simp] theorem pingRow_course : pingRow.KeepsCourse := by
  refine ⟨fun r s => ?_, fun g given r s => ?_⟩
  · simp [pingRow]
  · cases given
    simp

/-! ### GET_INFO (R482) -/

@[simp] theorem getInfoRow_course : getInfoRow.KeepsCourse := ⟨fun r s => by simp [getInfoRow], nofun⟩

/-! ### GET_STATUS (R481) -/

@[simp] theorem getStatusRow_course : getStatusRow.KeepsCourse := by
  refine ⟨fun r s => ?_, fun g given r s => ?_⟩
  · simp [getStatusRow]
  · cases given
    simp [↓State.course_update]

/-! ### RESET (R443, R364) -/

@[simp] theorem resetRow_course : resetRow.KeepsCourse := by
  refine ⟨fun r s => ?_, fun g given r s => ?_⟩
  · simp [resetRow]
  · cases given
    simp

@[simp] theorem resetIntoRecoveryRow_course : resetIntoRecoveryRow.KeepsCourse := ⟨fun r s => by simp [resetIntoRecoveryRow], nofun⟩

end Sys2Proof.Machine
end

section
/-! SUPPORT. What every command does to the course: time goes on, the queue stays, and the security state leads forward (R406, R408, R415);
and with it all commands. -/

namespace Sys2Proof.Machine

/-! ### What a command may do to the course -/

/-- The counter that stays whatever power loss comes: what a confirmation found, while its writing may yet be cut (R425). -/
def Course.found (c : Course) : Nat := c.confirmed.getD c.counter

/-- A transition under way leads forward, and a confirmation found no higher counter than the one now held. -/
def Course.Forward (c : Course) : Prop := (∀ y, c.transition = some y → c.lifecycle ≤ y.2) ∧ c.found ≤ c.counter

/-- A change that moves on: no time runs back, no command joins or leaves the queue, and the security state leads forward. -/
structure Course.Onward (a b : Course) : Prop where
  time : a.now ≤ b.now
  queue : b.pending = a.pending
  forward : a.Forward → b.Forward
  lifecycle : a.Forward → a.lifecycle ≤ b.lifecycle
  found : a.Forward → a.found ≤ b.found
  counter : a.Forward → a.counter ≤ b.counter

theorem Course.Onward.refl (c : Course) : c.Onward c :=
  ⟨le_rfl, rfl, id, fun _ => le_rfl, fun _ => le_rfl, fun _ => le_rfl⟩

theorem Course.Onward.trans {a b c : Course} (first : a.Onward b) (second : b.Onward c) : a.Onward c where
  time := first.time.trans second.time
  queue := second.queue.trans first.queue
  forward := second.forward ∘ first.forward
  lifecycle leads := (first.lifecycle leads).trans (second.lifecycle (first.forward leads))
  found leads := (first.found leads).trans (second.found (first.forward leads))
  counter leads := (first.counter leads).trans (second.counter (first.forward leads))

/-- Time alone moves on. -/
theorem Course.Onward.tick (c : Course) {now : Nat} (later : c.now ≤ now) : c.Onward { c with now := now } :=
  ⟨later, rfl, id, fun _ => le_rfl, fun _ => le_rfl, fun _ => le_rfl⟩

/-- The writing of a confirmation can be cut no more: the counter held stays. -/
theorem Course.Onward.settle (c : Course) : c.Onward { c with confirmed := none } :=
  ⟨le_rfl, rfl, fun leads => ⟨leads.1, le_rfl⟩, fun _ => le_rfl, fun leads => leads.2, fun _ => le_rfl⟩

/-- The counter rises. -/
theorem Course.Onward.raise (c : Course) {counter : Nat} (higher : c.counter ≤ counter) : c.Onward { c with counter := counter } where
  time := le_rfl
  queue := rfl
  forward leads := by
    refine ⟨leads.1, ?_⟩
    have standing := leads.2
    cases written : c.confirmed with
    | none => simp [Course.found]
    | some before =>
      simp only [Course.found, written, Option.getD_some] at standing ⊢
      exact standing.trans higher
  lifecycle _ := le_rfl
  found _ := by
    unfold Course.found
    cases c.confirmed with
    | none => exact higher
    | some before => exact le_rfl
  counter _ := higher

/-- The counter rises and the confirmation that raised it is written: what it found is the counter before. -/
theorem Course.Onward.confirm (c : Course) {counter : Nat} (higher : c.counter ≤ counter) :
    c.Onward { c with counter := counter, confirmed := some c.counter } :=
  ⟨le_rfl, rfl, fun leads => ⟨leads.1, higher⟩, fun _ => le_rfl, fun leads => leads.2, fun _ => higher⟩

/-- A transition forward is accepted (R408). -/
theorem Course.Onward.advance (c : Course) {old new : Nat} (higher : c.lifecycle ≤ new) : c.Onward { c with transition := some (old, new) } where
  time := le_rfl
  queue := rfl
  forward leads := by
    refine ⟨fun y named => ?_, leads.2⟩
    cases named
    exact higher
  lifecycle _ := le_rfl
  found _ := le_rfl
  counter _ := le_rfl

/-- The transition under way programs its state (R409). -/
theorem Course.Onward.program {c : Course} {old new : Nat} (underway : c.transition = some (old, new)) : c.Onward { c with lifecycle := new } where
  time := le_rfl
  queue := rfl
  forward leads := by
    refine ⟨fun y named => ?_, leads.2⟩
    cases underway.symm.trans named
    exact le_rfl
  lifecycle leads := leads.1 _ underway
  found _ := le_rfl
  counter _ := le_rfl

/-- Every transition that R408 allows leads forward. -/
theorem le_of_transitionAllowed {old new : Nat} (allowed : transitionAllowed old new = true) : old ≤ new := by
  simp only [transitionAllowed, Bool.or_eq_true, Bool.and_eq_true, decide_eq_true_eq] at allowed
  omega

/-- A state moves on to another. -/
def Onward (s u : State) : Prop := s.course.Onward u.course

theorem Onward.of_course {s u : State} (same : u.course = s.course) : Onward s u := by
  rw [Onward, same]
  exact .refl _

theorem Onward.refl (s : State) : Onward s s := Course.Onward.refl _

theorem Onward.trans {s u v : State} (first : Onward s u) (second : Onward u v) : Onward s v := Course.Onward.trans first second

/-- A choice between two changes that move on. -/
theorem Onward.ite {c : Prop} [Decidable c] {s a b : State} (yes : Onward s a) (no : Onward s b) : Onward s (if c then a else b) := by
  split
  · exact yes
  · exact no

/-- A command at its instant. -/
theorem Onward.at_tick {s u : State} {t : Nat} (onward : Onward (s.tickTo t) u) : Onward s u :=
  (Course.Onward.tick s.course (le_max_left s.now t)).trans onward

/-! ### Sessions and ownership -/

@[simp] theorem State.setOwner_course (s : State) (o : Option Nat) (cause : Nat) : (s.setOwner o cause).course = s.course := by
  simp [State.setOwner, ↓State.course_update]

@[simp] theorem State.loseOwner_course (s : State) (cause : Nat) : (s.loseOwner cause).course = s.course := by
  unfold State.loseOwner
  split <;> simp

@[simp] theorem State.endElection_course (s : State) : s.endElection.course = s.course := by
  unfold State.endElection
  dsimp only
  (repeat' split) <;> simp [↓State.course_update, course_foldl]

@[simp] theorem State.electionBefore_course (s : State) (at_ : Nat) : (s.electionBefore at_).course = s.course := by
  simp [State.electionBefore, ↓State.course_ite]

@[simp] theorem State.withdraw_course (s : State) (k : Nat) : (s.withdraw k).course = s.course := by
  unfold State.withdraw
  split <;> simp [↓State.course_update, course_foldl]

@[simp] theorem State.closeSession_course (s : State) (k : Nat) : (s.closeSession k).course = s.course := by
  unfold State.closeSession
  extract_lets closed withdrawn lost ended abandoned
  have keptEnded : ended.course = s.course := by simp [ended, lost, withdrawn, closed, ↓State.course_ite]
  exact (State.course_update abandoned rfl rfl rfl rfl).trans ((State.abandonUpdateOf_course ..).trans keptEnded)

@[simp] theorem State.addClaim_course (s : State) (r : Req) (tag : Nat) : (s.addClaim r tag).course = s.course :=
  State.course_update s rfl rfl rfl rfl

@[simp] theorem State.handOver_course (s : State) (k : Nat) : (s.handOver k).course = s.course := by
  unfold State.handOver
  dsimp only
  split <;> simp

@[simp] theorem openRow_course : openRow.KeepsCourse := by
  refine ⟨fun r s => ?_, nofun⟩
  unfold openRow
  dsimp only
  split <;> simp

@[simp] theorem closeRow_course : closeRow.KeepsCourse := ⟨fun r s => by simp [closeRow], nofun⟩

@[simp] theorem claimRow_course : claimRow.KeepsCourse := by
  refine ⟨fun r s => ?_, nofun⟩
  unfold claimRow
  dsimp only
  split
  · split <;> simp
  · rw [accept_course (fun _ _ => State.addClaim_course ..), State.electionBefore_course]

@[simp] theorem acceptRow_course : acceptRow.KeepsCourse := by
  refine ⟨fun r s => ?_, nofun⟩
  unfold acceptRow
  dsimp only
  (repeat' split) <;> simp

@[simp] theorem execElectionWindowEnd_course (t : Nat) (s : State) : KeepsCourse s (execElectionWindowEnd t s) := by
  unfold execElectionWindowEnd
  exact .next t (by simp [↓State.course_ite])

@[simp] theorem execOwnershipSilence_course (t : Nat) (s : State) : KeepsCourse s (execOwnershipSilence t s) := by
  unfold execOwnershipSilence
  exact .next t (by simp [↓State.course_ite])

@[simp] theorem execHandoverTimeout_course (t : Nat) (s : State) : KeepsCourse s (execHandoverTimeout t s) := by
  unfold execHandoverTimeout
  refine .next t ?_
  split
  · rfl
  · simp [↓State.course_ite]

/-! ### The boot table and the counter -/

theorem State.setBoot_onward (s : State) (f : BootTable → BootTable) : Onward s (s.setBoot f) := by
  rw [Onward, State.setBoot_course]
  exact .settle _

theorem State.programOtp_onward (s : State) (x : FwSlot) : Onward s (s.programOtp x) :=
  Course.Onward.raise s.course (le_max_left s.sec.counter x.version)

theorem State.startOtp_onward (s : State) : Onward s s.startOtp := .ite (State.programOtp_onward ..) (.refl _)

theorem State.chooseSlot_onward (s : State) : Onward s s.chooseSlot.2 := by
  unfold State.chooseSlot
  extract_lets b
  split
  · exact State.setBoot_onward ..
  · split
    · exact (s.setBoot_onward _).trans (.of_course (State.course_update (s.setBoot _) rfl rfl rfl rfl))
    · exact .refl _

theorem State.boot_onward (s : State) : Onward s s.boot.2 := by
  refine s.chooseSlot_onward.trans (.of_course ?_)
  unfold State.boot
  dsimp only
  (repeat' split) <;> simp [↓State.course_update]

theorem State.verified_onward (s : State) (tag slot : Nat) (x : FwSlot) (status : Nat) : Onward s (s.verified tag slot x status) := by
  unfold State.verified
  extract_lets u v
  have written : Onward s u := .ite (State.setBoot_onward ..) (.refl _)
  exact written.trans (.of_course (by simp [v]))

/-! ### Resets -/

theorem State.cutTransition_onward (s : State) : Onward s s.cutTransition := by
  unfold State.cutTransition
  split
  · exact .refl _
  · next underway => exact .ite (Course.Onward.program underway) (.of_course (State.draw_course s))

/-- A reset ends a transition and the writing of the boot table; the rest of the course it leaves. -/
theorem State.enterReset_course (s : State) (cause until_ : Nat) :
    (s.enterReset cause until_).course = { s.course with transition := none, confirmed := none } := by
  have unwritten : s.store.kept.bootWrite = none := by
    unfold StoreState.kept
    split <;> rfl
  simp [State.course, State.enterReset, SecurityState.kept, unwritten]

theorem State.enterReset_onward (s : State) (cause until_ : Nat) : Onward s (s.enterReset cause until_) := by
  rw [Onward, State.enterReset_course]
  exact ⟨le_rfl, rfl, fun _ => ⟨nofun, le_rfl⟩, fun _ => le_rfl, fun leads => leads.2, fun _ => le_rfl⟩

theorem State.resetNow_onward (s : State) (cause until_ : Nat) : Onward s (s.resetNow cause until_) :=
  s.cutTransition_onward.trans (State.enterReset_onward ..)

theorem State.powerOn_onward (s : State) (cause until_ : Nat) : Onward s (s.powerOn cause until_) := by
  unfold State.powerOn
  extract_lets notBefore u
  exact (s.resetNow_onward cause notBefore).trans (.of_course (State.course_update u rfl rfl rfl rfl))

theorem State.pendingReset_onward (s : State) : Onward s s.pendingReset := by
  unfold State.pendingReset
  split
  · exact .refl _
  · exact State.resetNow_onward ..

/-! ### The format and the lifecycle -/

@[simp] theorem State.formatStore_course (s : State) (layout : List Nat) :
    (s.formatStore layout).course = { s.course with confirmed := none } := by
  unfold State.formatStore
  extract_lets key slots was booted host clock cal bill line mesh store sec health emptied logged told _
  have keptEmptied : emptied.course = booted.course := State.course_update booted rfl rfl rfl rfl
  have keptTold : told.course = booted.course := by simp [told, logged, ↓State.course_ite, keptEmptied]
  exact (State.journalSettings_course _).trans ((State.course_update told rfl rfl rfl rfl).trans (keptTold.trans (State.setBoot_course ..)))

theorem State.formatStore_onward (s : State) (layout : List Nat) : Onward s (s.formatStore layout) := by
  rw [Onward, State.formatStore_course]
  exact .settle _

theorem State.finishTransition_onward (s : State) : Onward s s.finishTransition := by
  unfold State.finishTransition
  extract_lets l _ programmed drawn erased formatted _
  have kept : drawn.course = s.course := State.course_update s rfl rfl rfl rfl
  have erases : Onward drawn erased := .ite (drawn.setBoot_onward _) (.refl _)
  refine (Onward.of_course kept).trans (erases.trans ((erased.formatStore_onward erased.store.boot.layout).trans (.of_course ?_)))
  exact State.course_update formatted rfl rfl rfl rfl

theorem State.completeTransition_onward (s : State) : Onward s s.completeTransition := by
  unfold State.completeTransition
  extract_lets old u _
  exact .ite (.refl _) (s.finishTransition_onward.trans (.of_course (State.course_update u rfl rfl rfl rfl)))

theorem State.startStore_onward (s : State) : Onward s s.startStore := by
  unfold State.startStore
  extract_lets lost bad formats completed formatted told
  have onward : Onward s formatted := s.completeTransition_onward.trans (.ite (State.formatStore_onward ..) (.refl _))
  exact onward.trans (.of_course (by simp [told, ↓State.course_ite]))

theorem State.startFirmware_onward (s : State) : Onward s s.startFirmware := by
  unfold State.startFirmware
  extract_lets link _ u v _
  have moved : u.course = s.course := State.course_update s rfl rfl rfl rfl
  have started : Onward u u.startClock.startStore.startCal :=
    (Onward.of_course u.startClock_course).trans (u.startClock.startStore_onward.trans (.of_course (State.startCal_course _)))
  refine (Onward.of_course moved).trans (started.trans ((State.startOtp_onward _).trans (.of_course ?_)))
  exact State.course_update v rfl rfl rfl rfl

@[simp] theorem State.restoreAll_course (s : State) : s.restoreAll.course = s.course := by
  unfold State.restoreAll
  extract_lets plans tick start replayed groups slots _ emptied restored _ regrouped reconciled _ cleared bill driven requeued told
  have keptRestored : restored.course = emptied.course := course_foldl _ (fun _ _ => State.restoreContext_course ..) _ _
  have keptRegrouped : regrouped.course = s.course := (State.course_update restored rfl rfl rfl rfl).trans keptRestored
  have keptReconciled : reconciled.course = s.course := by
    clear_value regrouped
    simp [reconciled, course_foldl, keptRegrouped]
  clear_value reconciled
  have keptRequeued : requeued.course = s.course := by
    rw [State.requeueUnsigned_course]
    exact (State.course_update cleared rfl rfl rfl rfl).trans ((State.course_update reconciled rfl rfl rfl rfl).trans keptReconciled)
  have keptTold : told.course = s.course := by
    unfold told
    split <;> simp [keptRequeued]
  simp [keptTold]

theorem State.enterGatehouse_onward (s : State) (cause : GatehouseCause) : Onward s (s.enterGatehouse cause) := by
  unfold State.enterGatehouse
  extract_lets u episode reset host power entered
  have resets : Onward s reset := (Onward.of_course s.abandonUpdate_course).trans (u.resetNow_onward u.power.cause u.now)
  have enters : entered.course = reset.course := State.course_update reset rfl rfl rfl rfl
  exact resets.trans (.of_course ((course_foldl _ (fun _ _ => State.disturb_course ..) _ _).trans enters))

/-! ### Rows -/

/-- A row whose effects move on. -/
structure Row.GoesOn (row : Row) : Prop where
  body : ∀ r s, Onward s (row.body r s).state
  gate : ∀ g, row.gate = some g → ∀ r s, Onward s (g r s).state

theorem Row.KeepsCourse.goesOn {row : Row} (keeps : row.KeepsCourse) : row.GoesOn :=
  ⟨fun r s => .of_course (keeps.body r s), fun g given r s => .of_course (keeps.gate g given r s)⟩

theorem Onward.answer (s : State) (r : Req) (status : Nat) (payload : List Byte) : Onward s (s.answer r status payload) :=
  .of_course (State.answer_course ..)

section

variable {row : Row} (moves : row.GoesOn) (q : Request) (r : Req) (s : State)

include moves

theorem Row.GoesOn.normal : Onward s (row.normal q r s) := by
  unfold Row.normal
  refine .ite (.answer ..) (.ite (.answer ..) ?_)
  split
  · exact .of_course (State.queueReply_course ..)
  · split
    · exact .ite (.refl _) (.answer ..)
    · split
      · exact .answer ..
      · exact (moves.body r s).trans (.of_course (Answer.finish_course ..))

theorem Row.GoesOn.inRecovery : Onward s (row.inRecovery q r s) := by
  unfold Row.inRecovery
  refine .ite (.answer ..) ?_
  split
  · exact .answer ..
  · refine .ite (.answer ..) (.ite (.answer ..) (.ite (.answer ..) (.ite (.answer ..) (.ite (.answer ..) ?_))))
    exact (moves.body r s).trans (.of_course (Answer.finish_course ..))

theorem Row.GoesOn.inGatehouse : Onward s (row.inGatehouse q r s) := by
  unfold Row.inGatehouse
  refine .ite (.answer ..) ?_
  split
  · exact .answer ..
  · refine .ite (.answer ..) ?_
    split
    · exact .answer ..
    · next given => exact (moves.gate _ given r s).trans (.of_course (Answer.finish_course ..))

theorem Row.GoesOn.run : Onward s (row.run q r s) := by
  unfold Row.run
  split
  · exact .refl _
  · exact .refl _
  · exact moves.normal q r s
  · exact moves.normal q r s
  · exact moves.inRecovery q r s
  · exact moves.inGatehouse q r s

theorem Row.GoesOn.serve (t : Nat) (p : Port) : Onward s (row.serve t p s) := by
  unfold Row.serve
  extract_lets u
  refine Onward.at_tick (t := t) ?_
  split
  · exact .refl _
  · split
    · exact .of_course (by simp [u])
    · exact .ite ((Onward.of_course (State.take_course ..)).trans (moves.run ..)) (.refl _)

end

/-- A body that judges tests first moves on where its effect does. -/
theorem Onward.judged {tests : List (Bool × Nat)} {s : State} {ok : Answer} (onward : (∀ x ∈ tests, x.1 = false) → Onward s ok.state) :
    Onward s (judged tests s ok).state := by
  unfold Machine.judged
  split
  · exact .refl s
  · next passes => exact onward (firstOf_none passes)

/-- An accepted operation moves on where its effect does. -/
theorem Onward.accept {r : Req} {s : State} {f : Nat → State → State} (onward : ∀ tag u, u.course = s.course → Onward u (f tag u)) :
    Onward s (accept r s f).state := by
  unfold Machine.accept
  split
  · have started := State.startOp_course s r.opcode r.handle r.session
    exact (Onward.of_course started).trans (onward _ _ started)
  · exact .refl s

theorem fwBeginRow_goesOn : fwBeginRow.GoesOn := by
  refine ⟨fun r s => Onward.judged (fun _ => Onward.accept (fun tag u _ => ?_)), nofun⟩
  exact (u.setBoot_onward _).trans (.of_course (State.course_update (u.setBoot _) rfl rfl rfl rfl))

theorem keyProvisionCertificateRow_goesOn : keyProvisionCertificateRow.GoesOn :=
  ⟨fun _ s => Onward.judged (fun _ => (s.setBoot_onward _).trans (.of_course (State.provisioned_course ..))), nofun⟩

theorem lifecycleAdvanceRow_goesOn : lifecycleAdvanceRow.GoesOn := by
  refine ⟨fun r s => Onward.judged (fun passes => Onward.accept (fun tag u same => Course.Onward.advance u.course ?_)), nofun⟩
  have allowed : transitionAllowed s.sec.lifecycle (r.u 0 1) = true := by
    simpa using passes (!transitionAllowed s.sec.lifecycle (r.u 0 1), stDenied) (by simp)
  have standing : u.course.lifecycle = s.sec.lifecycle := congrArg Course.lifecycle same
  exact standing.le.trans (le_of_transitionAllowed allowed)

/-- The row of a command moves on. -/
theorem servedBy_goesOn {i : Instr} {t : Nat} {p : Port} {row : Row} (served : servedBy i = some (t, p, row)) : row.GoesOn := by
  cases i
  case fwBegin => cases served; exact fwBeginRow_goesOn
  case keyProvisionCertificate => cases served; exact keyProvisionCertificateRow_goesOn
  case lifecycleAdvance => cases served; exact lifecycleAdvanceRow_goesOn
  all_goals
    simp only [servedBy, Option.some.injEq, Prod.mk.injEq, reduceCtorEq] at served
  all_goals
    obtain ⟨-, -, rfl⟩ := served
    exact Row.KeepsCourse.goesOn (by simp)

/-! ### Commands -/

/-- A command that completes moves the state on. -/
def GoesOn (s : State) : Out → Prop
  | .next u => Onward s u
  | _ => True

theorem KeepsCourse.goesOn {s : State} {o : Out} (keeps : KeepsCourse s o) : GoesOn s o := by
  cases o with
  | next u =>
    obtain ⟨t, kept⟩ := keeps
    exact Onward.at_tick (t := t) (.of_course kept)
  | fault => trivial
  | refused => trivial

theorem execUndefinedOpcode_goesOn (t : Nat) (p : Port) (s : State) : GoesOn s (execUndefinedOpcode t p s) := by
  have ticked : Onward s (s.tickTo t) := Onward.at_tick (t := t) (.refl _)
  unfold execUndefinedOpcode
  split
  · exact ticked
  · exact Onward.ite ticked ((undefinedRow_course _).goesOn.serve s t p)

theorem execStoreFormatComplete_goesOn (t : Nat) (s : State) : GoesOn s (execStoreFormatComplete t s) := by
  refine Onward.at_tick (t := t) ?_
  split
  · exact .refl _
  · next tag _ layout _ =>
    refine .ite ?_ (.refl _)
    exact (Onward.of_course (State.endParks_course ..)).trans
      ((State.formatStore_onward ..).trans (.of_course (State.completeOp_course ..)))

theorem execFwEndComplete_goesOn (t : Nat) (s : State) : GoesOn s (execFwEndComplete t s) := by
  unfold execFwEndComplete
  extract_lets u _ v
  refine Onward.at_tick (t := t) ?_
  split
  · exact .refl _
  · next tag _ slot activate retry _ =>
    extract_lets a _ _ w
    refine .ite (.refl _) ?_
    have kept : a.2.course = u.course := (State.verify_course ..).trans (State.course_update u rfl rfl rfl rfl)
    split
    · exact .of_course ((State.completeOp_course ..).trans kept)
    · next status x _ =>
      extract_lets ended
      have closed : Onward u w := .of_course ((State.course_update a.2 rfl rfl rfl rfl).trans kept)
      have verified : Onward u ended := closed.trans (State.verified_onward ..)
      exact .ite (verified.trans (.of_course (State.askReset_course ..))) verified

theorem execLifecycleTransition_goesOn (t : Nat) (s : State) : GoesOn s (execLifecycleTransition t s) := by
  unfold execLifecycleTransition
  extract_lets u
  refine Onward.at_tick (t := t) ?_
  split
  · exact .refl _
  · next old new underway =>
    extract_lets finished reset _
    have programmed : Onward u finished :=
      Onward.trans (u := { u with sec := { u.sec with lifecycle := new } }) (Course.Onward.program underway) (State.finishTransition_onward _)
    refine programmed.trans ((finished.enterReset_onward 6 (finished.now + Config.ms)).trans (.of_course ?_))
    exact State.course_update reset rfl rfl rfl rfl

theorem execTrialConfirmation_goesOn (t : Nat) (s : State) : GoesOn s (execTrialConfirmation t s) := by
  unfold execTrialConfirmation
  extract_lets u b before booted _ written programmed
  refine Onward.at_tick (t := t) (.ite ?_ (.refl _))
  have confirmed : Onward u programmed := Course.Onward.confirm u.course (le_max_left u.sec.counter _)
  exact confirmed.trans (.of_course (State.raise_course ..))

theorem execCommitEnd_goesOn (t : Nat) (s : State) : GoesOn s (execCommitEnd t s) := by
  refine Onward.at_tick (t := t) (.ite (.refl _) (.ite ?_ (State.pendingReset_onward _)))
  exact (Onward.of_course (State.endCommit_course _)).trans (State.pendingReset_onward _)

theorem execContextRestore_course (t : Nat) (s : State) : KeepsCourse s (execContextRestore t s) := by
  unfold execContextRestore
  extract_lets u v
  have kept : v.course = u.course := by simp [v]
  clear_value v
  exact .next t (State.course_of_ite ((State.course_update v rfl rfl rfl rfl).trans kept) rfl)

theorem execResetN_goesOn (t lowNs : Nat) (s : State) : GoesOn s (execResetN t lowNs s) := by
  unfold execResetN
  extract_lets u release
  refine Onward.at_tick (t := t) (.ite (.refl _) (.ite (.of_course ?_) (State.resetNow_onward ..)))
  exact State.course_update u rfl rfl rfl rfl

theorem execWatchdogExpiry_goesOn (t : Nat) (s : State) : GoesOn s (execWatchdogExpiry t s) :=
  Onward.at_tick (t := t) (.ite (State.resetNow_onward ..) (.refl _))

theorem execVcoreFault_goesOn (t : Nat) (s : State) : GoesOn s (execVcoreFault t s) := Onward.at_tick (t := t) (State.powerOn_onward ..)

theorem execReferenceLoss_goesOn (t : Nat) (s : State) : GoesOn s (execReferenceLoss t s) := by
  unfold execReferenceLoss
  extract_lets reset _
  refine Onward.at_tick (t := t) ((State.powerOn_onward ..).trans (u := reset) (.of_course ?_))
  exact State.course_update reset rfl rfl rfl rfl

theorem execStartUp_goesOn (t : Nat) (h1mode bootsel : Bool) (vioH vioS : Nat) (s : State) :
    GoesOn s (execStartUp t h1mode bootsel vioH vioS s) := by
  unfold execStartUp
  extract_lets u v
  refine Onward.at_tick (t := t) (.ite ?_ (.refl _))
  have ended : Onward u v := .of_course (State.endReset_course ..)
  have recovers (w : State) : Onward w { w with phase := .recovery } := .of_course (State.course_update w rfl rfl rfl rfl)
  exact ended.trans (.ite (recovers v) (.ite (v.boot_onward.trans (State.startFirmware_onward _)) (v.boot_onward.trans (recovers _))))

theorem execReady_course (t : Nat) (s : State) : KeepsCourse s (execReady t s) := by
  unfold execReady
  extract_lets u d sampled drawn synced _ _ _ ready
  have kept : synced.course = u.course := by simp [synced, drawn, sampled, d, ↓State.course_update]
  clear_value synced
  refine .next t (State.course_of_ite ?_ rfl)
  exact (State.startEvents_course _).trans ((State.course_update synced rfl rfl rfl rfl).trans kept)

theorem execGatehouseEntry_goesOn (t : Nat) (cause : GatehouseCause) (s : State) : GoesOn s (execGatehouseEntry t cause s) :=
  Onward.at_tick (t := t) (.ite (State.enterGatehouse_onward ..) (.refl _))

/-! ### A power-on reset (R425, R440) -/

/-- The course once a power loss has cut the confirmation between its steps: the counter is the one it found. -/
def Course.cut (c : Course) : Course := { c with counter := c.found }

theorem Course.cut_found (c : Course) : c.cut.found = c.found := by
  unfold Course.cut Course.found
  cases c.confirmed <;> rfl

theorem Course.Forward.cut {c : Course} (leads : c.Forward) : c.cut.Forward := ⟨leads.1, c.cut_found.le⟩

/-- A power loss at an instant may still cut a confirmation. -/
def State.cuttable (s : State) (now : Nat) : Bool :=
  s.store.bootWrite.any (fun w => w.confirms.isSome && now ≤ w.at_ + Config.bootWriteTicks)

/-- A power loss leaves the course, or cuts the confirmation. -/
theorem State.cutBoot_course (s : State) : s.cutBoot.course = s.course ∨ s.cuttable s.now = true ∧ s.cutBoot.course = s.course.cut := by
  unfold State.cutBoot
  split
  · next w other written _ =>
    split
    · exact .inl rfl
    · next young =>
      extract_lets d _ lost _ x _
      have kept : x.bootWrite = some w := by
        unfold x
        split <;> exact written
      split
      · split <;> exact .inl rfl
      · next counter revoked next chain confirms =>
        split
        · exact .inl rfl
        · have inTime : s.now ≤ w.at_ + Config.bootWriteTicks := by omega
          refine .inr ⟨by simp [State.cuttable, written, confirms, inTime], ?_⟩
          simp only [State.course, Course.cut, Course.found, kept, written, confirms, Option.bind_some, Option.map_some, Option.getD_some]
          rfl
  · exact .inl rfl

/-- A power-on reset leaves the counter of the state it finds. -/
theorem State.powerOn_counter (s : State) (cause until_ : Nat) : (s.powerOn cause until_).course.counter = s.course.counter := by
  have kept : s.cutTransition.course.counter = s.course.counter := by
    unfold State.cutTransition
    split
    · rfl
    · dsimp only
      split <;> rfl
  unfold State.powerOn State.resetNow
  extract_lets notBefore
  exact (congrArg Course.counter (State.enterReset_course s.cutTransition cause notBefore)).trans kept

/-- POWER_ON_RESET moves on, or the counter is the one that a confirmation found, which the loss cut in time. -/
theorem execPowerOnReset_cases (t : Nat) (lost : Bool) (s : State) : ∃ u, execPowerOnReset t lost s = .next u ∧
    (Onward s u ∨ s.cuttable (max s.now t) = true ∧ (s.tickTo t).course.cut.Onward u.course ∧ u.course.counter = s.course.found) := by
  unfold execPowerOnReset
  extract_lets v fails reset
  refine ⟨_, rfl, ?_⟩
  have ends : (if fails then reset.loseBattery else reset).course = reset.course := by simp [↓State.course_ite]
  have resets : Onward v.cutBoot reset := State.powerOn_onward ..
  have counter : reset.course.counter = v.cutBoot.course.counter := State.powerOn_counter ..
  rcases v.cutBoot_course with same | ⟨inTime, cut⟩
  · exact .inl (Onward.at_tick (t := t) ((Onward.of_course same).trans (resets.trans (.of_course ends))))
  · refine .inr ⟨inTime, ?_, ?_⟩
    · rw [← cut, ends]
      exact resets
    · rw [ends, counter, cut]
      rfl

/-! ### All commands -/

/-- Every command but POWER_ON_RESET moves the state on. -/
theorem exec_goesOn {i : Instr} (others : ∀ t lost, i ≠ .powerOnReset t lost) (s : State) : GoesOn s (exec i s) := by
  cases unserved : servedBy i with
  | some served => exact exec_of_servedBy unserved s ▸ (servedBy_goesOn unserved).serve s served.1 served.2.1
  | none =>
    cases i
    case powerOnReset t lost => exact absurd rfl (others t lost)
    case undefinedOpcode => exact execUndefinedOpcode_goesOn ..
    case storeFormatComplete => exact execStoreFormatComplete_goesOn ..
    case fwEndComplete => exact execFwEndComplete_goesOn ..
    case lifecycleTransition => exact execLifecycleTransition_goesOn ..
    case trialConfirmation => exact execTrialConfirmation_goesOn ..
    case commitEnd => exact execCommitEnd_goesOn ..
    case contextRestore => exact (execContextRestore_course ..).goesOn
    case resetN => exact execResetN_goesOn ..
    case watchdogExpiry => exact execWatchdogExpiry_goesOn ..
    case vcoreFault => exact execVcoreFault_goesOn ..
    case referenceLoss => exact execReferenceLoss_goesOn ..
    case startUp => exact execStartUp_goesOn ..
    case ready => exact (execReady_course ..).goesOn
    case gatehouseEntry => exact execGatehouseEntry_goesOn ..
    all_goals simp only [servedBy, reduceCtorEq] at unserved
    all_goals exact KeepsCourse.goesOn (by simp [exec])

/-- A command that completes moves on, or it is a POWER_ON_RESET that cuts a confirmation in time. -/
theorem exec_cases {i : Instr} {s u : State} (ran : exec i s = .next u) :
    Onward s u ∨ ∃ t lost, i = .powerOnReset t lost ∧ s.cuttable (max s.now t) = true ∧ (s.tickTo t).course.cut.Onward u.course ∧
      u.course.counter = s.course.found := by
  by_cases others : ∀ t lost, i ≠ .powerOnReset t lost
  · have goes := exec_goesOn others s
    rw [ran] at goes
    exact .inl goes
  · push Not at others
    obtain ⟨t, lost, rfl⟩ := others
    obtain ⟨v, resets, cases⟩ := execPowerOnReset_cases t lost s
    cases ran.symm.trans resets
    exact cases.imp id (fun cut => ⟨t, lost, rfl, cut⟩)

end Sys2Proof.Machine
end

section
/-! SUPPORT. No command moves time back or touches the queue, and the security state goes forward: the obligations. -/

open Sys2Proof.Machine

/-- Settles O1: a step is defined by the queue. -/
theorem stepRunsFront : Obligations.StepRunsFront := by
  unfold Obligations.StepRunsFront
  refine ⟨fun c rest s queued => ?_, fun s empty => ?_⟩
  · unfold step
    rw [queued]
  · unfold step
    rw [empty]

/-- Settles O5: every command moves on from its instant and leaves the queue, a power-on reset from the state that the loss leaves. -/
theorem timeAndQueue : Obligations.TimeAndQueue := by
  unfold Obligations.TimeAndQueue
  intro i s u ran
  rcases exec_cases ran with onward | ⟨t, -, -, -, cut, -⟩
  · exact ⟨onward.time, onward.queue⟩
  · exact ⟨(le_max_left s.now t).trans cut.time, cut.queue⟩

/-- Settles O49: the step runs the front of the queue, whose command moves the security state on, or cuts a confirmation. -/
theorem securityGoesForward : Obligations.SecurityGoesForward := by
  unfold Obligations.SecurityGoesForward
  intro found forward s u leads stepped
  have standing : s.course.Forward := leads
  cases queued : s.pending with
  | nil =>
    rw [stepRunsFront.2 s queued] at stepped
    cases stepped
    exact ⟨leads, le_rfl, le_rfl, .inl le_rfl⟩
  | cons c rest =>
    rw [stepRunsFront.1 c rest s queued] at stepped
    rcases exec_cases stepped with onward | ⟨t, lost, rfl, inTime, cut, counter⟩
    · exact ⟨onward.forward standing, onward.lifecycle standing, onward.found standing, .inl (onward.counter standing)⟩
    · have after : (s.tickTo t).course.cut.Forward := Course.Forward.cut (c := (s.tickTo t).course) standing
      have kept : found s ≤ found u := (Course.cut_found (s.tickTo t).course).symm.le.trans (cut.found after)
      exact ⟨cut.forward after, cut.lifecycle after, kept, .inr ⟨t, lost, rest, rfl, counter, inTime⟩⟩

end

section
/-! SUPPORT. The requests of group 00h that read, and the fields of GET_STATUS (Table 16.5). -/

namespace Sys2Proof.Machine

/-! ### Fields of a record written item by item (R4, R5) -/

/-- The first item of a record. -/
theorem field_item (k n : Nat) (rest : List Byte) : field (le k n ++ rest) 0 k = n % 256 ^ k := by
  rw [field_append _ _ (by simp), field_le]

/-- A field past the first item is one of those that follow. -/
theorem field_past_item {k off : Nat} (n m : Nat) (rest : List Byte) (past : k ≤ off) :
    field (le k n ++ rest) off m = field rest (off - k) m := by
  rw [field_append_past _ _ _ (by simpa using past), length_le]

/-! ### GET_STATUS (R481) -/

theorem State.length_statusBytes (s : State) : s.statusBytes.length = 32 := by
  unfold State.statusBytes
  simp only [List.length_append, length_le, length_zeros]

/-- The items of Table 16.5 that tell where the part stands, at their offsets. -/
theorem State.statusBytes_items (s : State) :
    field s.statusBytes 0 2 = 1 ∧ field s.statusBytes 2 1 = (if s.phase = .recovery then 2 else 0) % 256 ∧
    field s.statusBytes 3 1 = (if s.phase = .running then 2 else 1) % 256 ∧
    field s.statusBytes 5 1 = (if s.store.formatting.isSome then 3 else s.store.state) % 256 ∧
    field s.statusBytes 6 1 = orFF s.host.owner % 256 ∧ field s.statusBytes 7 1 = s.sec.lifecycle % 256 ∧
    field s.statusBytes 22 2 = s.bill.live.length % 65536 ∧ field s.statusBytes 24 1 = s.host.ops.length % 256 := by
  unfold State.statusBytes
  simp only [List.append_assoc]
  simp only [field_past_item, field_item, Nat.reduceLeDiff, Nat.reduceSub, Nat.reducePow, Nat.reduceMod, and_self]

/-! ### GET_INFO (R482) -/

/-- Outside recovery the running image is one of the slots'. -/
theorem State.runningImage_eq {s : State} (on : s.phase ≠ .recovery) :
    s.runningImage = (le 2 s.image.release ++ le 4 s.image.build ++ le 1 s.image.version, s) := if_neg on

theorem phase_of_calls {row : Row} {t : Nat} {p : Port} {s : State} {q : Request} (called : row.calls t p s q = true) :
    s.phase = .ready ∨ s.phase = .running := by
  simp only [Row.calls, Row.fresh, Bool.and_eq_true] at called
  obtain ⟨⟨⟨admitted, -⟩, -⟩, -⟩ := called
  exact (admits_iff.1 admitted).1

theorem getInfoRow_body {s : State} (on : s.phase ≠ .recovery) (r : Req) : getInfoRow.body r s = .done stOk
    (le 16 Config.partId ++ le 2 0x3142 ++ le 2 s.image.release ++ le 4 s.image.build ++ le 1 s.image.version ++ le 1 s.sec.counter ++
      le 1 s.sec.lifecycle ++ le 1 (ofBool s.host.h1Uart + 2 * ofBool s.host.bootsel) ++ le 1 0 ++ le 1 s.store.boot.active ++
      le 1 s.store.boot.trialState ++ le 1 s.power.cause ++ le 8 s.power.readyUtc ++ zeros 8) s := by
  have part : le 2 0x3142 = [0x42#8, 0x31#8] := rfl
  simp only [getInfoRow, State.runningImage_eq on, State.infoBytes, on, decide_false, part, List.append_assoc]
  rfl

end Sys2Proof.Machine
end

section
/-! SUPPORT. The requests that read: the obligation. -/

open Sys2Proof.Machine

/-- Settles O16: each request answers what its row's body forms, and each item of GET_STATUS lies at its offset. -/
theorem systemReads : Obligations.SystemReads := by
  unfold Obligations.SystemReads
  refine ⟨fun t p s q => ⟨fun called => ends_of_body rfl called rfl, fun called => ?_, fun called => ends_of_body rfl called rfl,
    fun called => ?_, fun called => ends_of_body rfl called rfl⟩, fun s => ?_⟩
  · have on : (s.taken t p).phase ≠ .recovery := by
      rw [State.taken_phase]
      rcases phase_of_calls called with ready | running
      · rw [ready]; nofun
      · rw [running]; nofun
    refine ends_of_body rfl called ((getInfoRow_body on _).trans ?_)
    cases p <;> rfl
  · refine ends_of_body rfl called ?_
    cases p <;> rfl
  · obtain ⟨version, recovers, runs, store, owner, lifecycle, live, ops⟩ := s.statusBytes_items
    refine ⟨s.length_statusBytes, version, fun running => ?_, fun formats => ?_, fun k owns part => ?_, fun free => ?_, fun few => ?_,
      fun few => ?_, fun few => ?_⟩
    · rw [recovers, runs, running]
      exact ⟨rfl, rfl⟩
    · rw [store, if_pos formats]
    · rw [owner, owns]
      exact Nat.mod_eq_of_lt (by simp [orFF]; omega)
    · rw [owner, free]
      rfl
    · rw [lifecycle, Nat.mod_eq_of_lt (by omega)]
    · rw [ops, Nat.mod_eq_of_lt (by omega)]
    · rw [live, Nat.mod_eq_of_lt (by omega)]

end

section
/-! SUPPORT. RESET and what asks for a reset (R443, R445, R245), in every mode that serves it. -/

namespace Sys2Proof.Machine

/-! ### A reset asked for (R245) -/

/-- What RESET leaves of a state: the reset it asks for, and the commit that comes first where the part meters. -/
def ResetAsked (s : State) (cause now : Nat) (u : State) : Prop :=
  u.power.reset = some { cause := cause, notBefore := now } ∧ u.phase = s.phase ∧
    (s.phase = .running → u.power.commit.isSome = true) ∧ (s.phase ≠ .running → u.power.commit = s.power.commit)

/-- A commit starts where the part meters only. -/
theorem State.startCommit_off {s : State} (off : s.phase ≠ .running) : s.startCommit = s := by
  unfold State.startCommit
  exact if_neg (by simp [off])

/-- Where it meters and no transition runs, a commit runs then, and the power state says the same of a reset as before. -/
theorem State.startCommit_on {s : State} (running : s.phase = .running) (still : s.sec.transition = none) :
    s.startCommit.power.reset = s.power.reset ∧ s.startCommit.power.commit.isSome = true := by
  cases runs : s.power.commit with
  | some b =>
    rw [State.startCommit_running (by rw [runs]; rfl), runs]
    exact ⟨rfl, rfl⟩
  | none =>
    obtain ⟨first, footing⟩ := State.startCommit_footing running runs still
    have power : s.startCommit.power = { s.committing.power with commitFirst := first } := congrArg Footing.power footing
    rw [power]
    exact ⟨rfl, rfl⟩

theorem State.askReset_leaves {s : State} (cause : Nat) (still : s.sec.transition = none) : ResetAsked s cause s.now (s.askReset cause) := by
  unfold State.askReset
  generalize asked : ({ s with power := { s.power with reset := some { cause := cause, notBefore := s.now } } } : State) = v
  have phase : v.phase = s.phase := by rw [← asked]
  have reset : v.power.reset = some { cause := cause, notBefore := s.now } := by rw [← asked]
  have commit : v.power.commit = s.power.commit := by rw [← asked]
  have idle : v.sec.transition = none := by rw [← asked]; exact still
  refine ⟨?_, (congrArg Outline.phase v.startCommit_outline).trans phase, fun running => ?_, fun off => ?_⟩
  · by_cases running : v.phase = .running
    · exact (State.startCommit_on running idle).1.trans reset
    · rw [State.startCommit_off running, reset]
  · exact (State.startCommit_on (phase.trans running) idle).2
  · rw [State.startCommit_off (by rwa [phase]), commit]

/-- Where the part does not meter it needs no word on the transition. -/
theorem State.askReset_off {s : State} (cause : Nat) (off : s.phase ≠ .running) : ResetAsked s cause s.now (s.askReset cause) := by
  have same : s.askReset cause = { s with power := { s.power with reset := some { cause := cause, notBefore := s.now } } } :=
    State.startCommit_off (s := { s with power := { s.power with reset := some { cause := cause, notBefore := s.now } } }) off
  rw [same]
  exact ⟨rfl, rfl, fun running => absurd running off, fun _ => rfl⟩

/-! ### RESET (R443) -/

/-- A request other than PING and GET_STATUS that is called finds no lifecycle transition under way (Table 16.1). -/
theorem still_of_calls {row : Row} {t : Nat} {p : Port} {s : State} {q : Request} (called : row.calls t p s q = true)
    (other : (Req.of p q).opcode ≠ 1 ∧ (Req.of p q).opcode ≠ 3) : s.sec.transition = none := by
  have passes : row.refusal (Req.of p q) (s.taken t p) = none := of_decide_eq_true (Bool.and_eq_true_iff.1 called).2
  unfold Row.refusal at passes
  split at passes
  · cases passes
  · next spec _ =>
    have tested : ((s.taken t p).sec.transition.isSome && (Req.of p q).opcode ≠ 1 && (Req.of p q).opcode ≠ 3, stBusy) ∈
        row.checks spec (Req.of p q) (s.taken t p) := by simp [Row.checks]
    simpa [other] using firstOf_none passes _ tested

/-- A request that is called has the row's opcode. -/
theorem opcode_of_calls {row : Row} {t : Nat} {p : Port} {s : State} {q : Request} (called : row.calls t p s q = true) :
    (Req.of p q).opcode = row.opcode := by
  simp only [Row.calls, Row.fresh, Bool.and_eq_true] at called
  obtain ⟨⟨⟨admitted, -⟩, -⟩, -⟩ := called
  obtain ⟨-, ⟨-, -, takes⟩, -⟩ := admits_iff.1 admitted
  simp only [Row.takes, Bool.and_eq_true, decide_eq_true_eq] at takes
  exact takes.1.1

section Asked
variable {t : Nat} {p : Port} {s : State} {q : Request}

/-- What a reset asked for once a request is taken leaves, told of the state before. -/
theorem ResetAsked.of_taken {cause : Nat} {u : State} (leaves : ResetAsked (s.taken t p) cause (s.taken t p).now u) :
    ResetAsked s cause (max s.now t) u := by
  simpa [ResetAsked] using leaves

/-- In normal operation a row that asks for a reset is answered OK. -/
theorem answers_reset {i : Instr} {row : Row} {cause : Nat} (serves : exec i s = .next (row.serve t p s))
    (called : row.calls t p s q = true) (code : row.opcode = 4)
    (body : row.body (Req.of p q) (s.taken t p) = .done stOk [] ((s.taken t p).askReset cause)) :
    Answers i s (Req.of p q) stOk [] (ResetAsked s cause (max s.now t)) := by
  have opcode := (opcode_of_calls called).trans code
  have still := still_of_calls called (by rw [opcode]; decide)
  exact ⟨_, ends_of_body serves called body, (State.askReset_leaves cause (by simpa using still)).of_taken⟩

/-- A request that is heard is run in the mode the part is in. -/
theorem serve_of_hears {row : Row} (heard : row.hears t p s q = true) : row.serve t p s = row.run q (Req.of p q) (s.taken t p) := by
  simp only [Row.hears, Bool.and_eq_true, decide_eq_true_eq] at heard
  obtain ⟨⟨first, whole⟩, takes⟩ := heard
  simp only [Row.serve, first, whole, takes, if_true]

/-- RESET is one of the opcodes of Table 16.1, with four bytes. -/
theorem opSpec_reset : opSpec 4 = some { classes := [.none], owner := true, length := exactly 4 } := rfl

variable (fits : fitsPort p (Req.of p q).session = true) (four : (Req.of p q).len = 4) (code : (Req.of p q).opcode = 4)
include fits four code

/-- In gatehouse mode RESET is a full reset, whatever the kind (R364, Table 11.9). -/
theorem reset_gatehouse (heard : resetRow.hears t p s q = true) (gatehouse : s.phase = .gatehouse) :
    Answers (.reset t p) s (Req.of p q) stOk [] (ResetAsked s 3 (max s.now t)) := by
  have phase : (s.taken t p).phase = .gatehouse := by simpa using gatehouse
  have run : resetRow.run q (Req.of p q) (s.taken t p) = (s.taken t p).gateReset.answer (Req.of p q) stOk [] := by
    have port : (Req.of p q).port = p := rfl
    simp only [Row.run, phase, Row.inGatehouse, port, fits, code, opSpec_reset, exactly, four, decide_true, Bool.not_true,
      Bool.false_eq_true, if_false]
    rfl
  refine ⟨_, congrArg Host.Outcome.next ((serve_of_hears heard).trans run), ResetAsked.of_taken ⟨rfl, rfl, fun running => ?_, fun _ => rfl⟩⟩
  rw [phase] at running
  cases running

/-- In recovery a row that asks for a reset is answered OK (R416). -/
theorem reset_recovery {i : Instr} {row : Row} {cause : Nat} (serves : exec i s = .next (row.serve t p s))
    (heard : row.hears t p s q = true) (recovery : s.phase = .recovery) (valid : row.valid (Req.of p q) (s.taken t p) = true)
    (recovers : row.recovers = true) (writes : row.writes = false)
    (body : row.body (Req.of p q) (s.taken t p) = .done stOk [] ((s.taken t p).askReset cause)) :
    Answers i s (Req.of p q) stOk [] (ResetAsked s cause (max s.now t)) := by
  have phase : (s.taken t p).phase = .recovery := by simpa using recovery
  have run : row.run q (Req.of p q) (s.taken t p) = ((s.taken t p).askReset cause).answer (Req.of p q) stOk [] := by
    have port : (Req.of p q).port = p := rfl
    simp only [Row.run, phase, Row.inRecovery, port, fits, code, opSpec_reset, exactly, four, valid, recovers, writes, body,
      Answer.finish, decide_true, Bool.not_true, Bool.false_eq_true, if_false, Nat.reduceDiv, Nat.reduceLeDiff, decide_false, Bool.and_false,
      Bool.false_and]
  exact ⟨_, serves.trans (congrArg Host.Outcome.next ((serve_of_hears heard).trans run)),
    (State.askReset_off cause (by rw [phase]; decide)).of_taken⟩

end Asked

/-! ### COMMIT_END (R443) -/

/-- A reset that is pending is performed. -/
theorem State.pendingReset_leaves {s : State} {x : PendingReset} (asked : s.power.reset = some x) :
    s.pendingReset.phase = .held ∧ s.pendingReset.power.cause = x.cause ∧ s.pendingReset.power.commit = none ∧
      ∀ y ∈ s.pendingReset.host.sessions, y.isOpen = false := by
  have run : s.pendingReset = s.cutTransition.enterReset x.cause (s.now + Config.ms) := by
    unfold State.pendingReset
    rw [asked]
    rfl
  have held := s.cutTransition.enterReset_held x.cause (s.now + Config.ms)
  rw [run]
  exact ⟨held.phase, held.cause, rfl, held.sessions⟩

theorem commitEnd_resets {t : Nat} {s : State} {x : PendingReset} (on : s.phase ≠ .held) (asked : s.power.reset = some x) :
    Leads (.commitEnd t) s (fun u =>
      u.phase = .held ∧ u.power.cause = x.cause ∧ u.power.commit = none ∧ ∀ y ∈ u.host.sessions, y.isOpen = false) := by
  have on' : (s.tickTo t).phase ≠ .held := on
  by_cases commits : (s.tickTo t).power.commit.isSome = true
  · refine ⟨_, congrArg Host.Outcome.next ((if_neg on').trans (if_pos commits)), State.pendingReset_leaves ?_⟩
    rw [State.endCommit_power]
    exact asked
  · exact ⟨_, congrArg Host.Outcome.next ((if_neg on').trans (if_neg commits)), State.pendingReset_leaves (s := s.tickTo t) asked⟩

end Sys2Proof.Machine
end

section
/-! SUPPORT. RESET and COMMIT_END: the obligation. -/

open Sys2Proof.Machine

/-- Settles O17: every mode's answer to RESET asks for the restart, the commit starts where the part meters, and COMMIT_END performs a
restart that is pending. -/
theorem resetRequests : Obligations.ResetRequests := by
  unfold Obligations.ResetRequests
  refine ⟨fun t p s q => ⟨fun called => answers_reset rfl called rfl rfl, fun called => answers_reset rfl called rfl rfl,
    fun heard fits four code => ⟨reset_gatehouse fits four code heard, fun recovery valid =>
      reset_recovery fits four code rfl heard recovery valid rfl rfl rfl⟩,
    fun heard fits four code recovery valid => reset_recovery fits four code rfl heard recovery valid rfl rfl rfl⟩,
    fun t s x => commitEnd_resets⟩

end

section
/-! SUPPORT. FENCE and its marker, EVENT_READ, EVENT_MASK and WATERMARK_SET (R374-R380). -/

namespace Sys2Proof.Machine

/-! ### The queue of a session -/

theorem State.session_setQueue {s : State} {k : Nat} (part : k < s.host.sessions.length) (f : EventQueue → EventQueue) :
    ((s.setQueue k f).session k).queue = f (s.session k).queue :=
  congrArg Session.queue (State.session_setSession s k (fun x => { x with queue := f x.queue }) part)

theorem State.session_setQueue_ne (s : State) {j k : Nat} (f : EventQueue → EventQueue) (other : j ≠ k) :
    (s.setQueue k f).session j = s.session j := State.session_setSession_ne s k j _ other

/-- Taking a request leaves the sessions. -/
@[simp] theorem State.taken_session (s : State) (t : Nat) (p : Port) (k : Nat) : (s.taken t p).session k = s.session k := by
  simp [State.session]

/-- A row that changes the queue of the session that sends leaves that queue changed and every other session as it was. -/
theorem answers_queue {i : Instr} {t : Nat} {p : Port} {s : State} {q : Request} {row : Row} {payload : List Byte}
    {f : EventQueue → EventQueue} (serves : exec i s = .next (row.serve t p s)) (called : row.calls t p s q = true) (inv : s.Inv)
    (body : row.body (Req.of p q) (s.taken t p) = .done stOk payload ((s.taken t p).setQueue (Req.of p q).session f)) :
    Answers i s (Req.of p q) stOk payload (fun u => (u.session (Req.of p q).session).queue = f (s.session (Req.of p q).session).queue ∧
      ∀ j, j ≠ (Req.of p q).session → u.session j = s.session j) := by
  refine ⟨_, ends_of_body serves called body, ?_, fun j other => ?_⟩
  · rw [State.session_setQueue (session_of_calls called inv), State.taken_session]
  · rw [State.session_setQueue_ne _ _ other, State.taken_session]

/-- What an answer satisfies may be weakened. -/
theorem Answers.imp {i : Instr} {s : State} {r : Req} {status : Nat} {payload : List Byte} {P Q : State → Prop}
    (answers : Answers i s r status payload P) (weaker : ∀ u, P u → Q u) : Answers i s r status payload Q := by
  obtain ⟨u, ends, holds⟩ := answers
  exact ⟨u, ends, weaker u holds⟩

/-! ### FENCE and its marker (R376) -/

section Fence
variable {t : Nat} {p : Port} {s : State} {q : Request} (called : fenceRow.calls t p s q = true)
include called

theorem fence_numbered (inv : s.Inv) (room : (s.session (Req.of p q).session).queue.openFences < 8) :
    let k := (s.session (Req.of p q).session).queue
    let instant := ((s.taken t p).utcAt q.rxAt).toNat
    Answers (.fence t p) s (Req.of p q) stOk (le 4 k.nextFence ++ le 8 instant) (fun u =>
      (u.session (Req.of p q).session).queue.fences =
        k.fences ++ [{ number := k.nextFence, instant := instant, due := q.rxAt + 20 * Config.ms }] ∧
      (u.session (Req.of p q).session).queue.nextFence = k.nextFence + 1 ∧ (u.session (Req.of p q).session).queue.items = k.items) := by
  intro k instant
  have same : ((s.taken t p).session (Req.of p q).session).queue = k := by rw [State.taken_session]
  have passes : decide (8 ≤ ((s.taken t p).session (Req.of p q).session).queue.openFences) = false :=
    decide_eq_false (Nat.not_le.2 (by rwa [same]))
  have answers := answers_queue (i := .fence t p) rfl called inv ((judged_miss passes).trans (by rw [same]; rfl))
  refine answers.imp fun u ⟨queue, _⟩ => ?_
  rw [queue]
  exact ⟨rfl, rfl, rfl⟩

theorem fence_full (full : 8 ≤ (s.session (Req.of p q).session).queue.openFences) :
    Ends (.fence t p) s (Req.of p q) stNoResource [] (s.taken t p) :=
  ends_of_body rfl called (judged_hit (decide_eq_true (by rwa [State.taken_session])))

end Fence

/-- The one fence of a queue, due, is marked and waits no longer. -/
theorem EventQueue.markDue_due {k : EventQueue} {f : Fence} {now : Nat} (alone : k.fences = [f]) (due : f.due ≤ now) :
    k.markDue now = EventQueue.markFence { k with fences := [] } f := by
  simp [EventQueue.markDue, alone, due, Nat.not_lt.2 due]

/-- Before its instant it waits. -/
theorem EventQueue.markDue_early {k : EventQueue} {f : Fence} {now : Nat} (alone : k.fences = [f]) (early : now < f.due) :
    k.markDue now = k := by
  obtain ⟨items, flushed, mask, next, mark, peak, peakTime, crossed, dropped, lastDrop, drops, fences, nextFence⟩ := k
  simp only at alone
  simp [EventQueue.markDue, alone, early, Nat.not_le.2 early]

section Marker
variable {t k : Nat} {s : State} {f : Fence} (part : k < 8) (inv : s.Inv) (alone : (s.session k).queue.fences = [f])
include part inv

theorem fenceMarker_leads :
    Leads (.fenceMarker t k) s (fun u => (u.session k).queue = (s.session k).queue.markDue (max s.now t)) := by
  refine ⟨(s.tickTo t).setQueue k (fun x => x.markDue (max s.now t)), ?_, ?_⟩
  · have run : exec (.fenceMarker t k) s = guarded (k < 8) ((s.tickTo t).setQueue k (fun x => x.markDue (max s.now t))) := rfl
    rw [run, decide_eq_true part, guarded_true]
  · exact State.session_setQueue (s := s.tickTo t) (by rwa [State.tickTo_host, inv.sessions]) _

include alone

theorem fenceMarker_due (due : f.due ≤ max s.now t) :
    Leads (.fenceMarker t k) s (fun u => (u.session k).queue.fences = [] ∧
      ∃ e, (u.session k).queue.items = (s.session k).queue.items ++ [e] ∧ e.source = 185 ∧ e.time = f.instant ∧
        e.body.take 4 = le 4 f.number) := by
  obtain ⟨u, run, queue⟩ := fenceMarker_leads (t := t) part inv
  rw [EventQueue.markDue_due alone due] at queue
  refine ⟨u, run, by rw [queue]; rfl, _, by rw [queue]; rfl, rfl, rfl, ?_⟩
  simp only [List.append_assoc]
  exact List.take_left' (length_le ..)

theorem fenceMarker_early (early : max s.now t < f.due) :
    Leads (.fenceMarker t k) s (fun u => (u.session k).queue = (s.session k).queue) := by
  obtain ⟨u, run, queue⟩ := fenceMarker_leads (t := t) part inv
  exact ⟨u, run, queue.trans (EventQueue.markDue_early alone early)⟩

end Marker

/-! ### EVENT_READ, EVENT_MASK and WATERMARK_SET (R374, R375, R379, R380) -/

section Queue
variable {t : Nat} {p : Port} {s : State} {q : Request} (inv : s.Inv)
include inv

theorem eventRead_delivers (called : eventReadRow.calls t p s q = true) :
    let d := EventQueue.deliverMany ((Req.of p q).u 0 1) (s.session (Req.of p q).session).queue
    Answers (.eventRead t p) s (Req.of p q) stOk (le 1 d.1.length ++ zeros 1 ++ le 2 d.2.fill ++ d.1.flatten) (fun u =>
      (u.session (Req.of p q).session).queue = d.2 ∧ ∀ j, j ≠ (Req.of p q).session → u.session j = s.session j) := by
  intro d
  have same : EventQueue.deliverMany ((Req.of p q).u 0 1) ((s.taken t p).session (Req.of p q).session).queue = d := by rw [State.taken_session]
  exact answers_queue (f := fun _ => d.2) rfl called inv (by rw [← same]; rfl)

theorem eventReadFlush_discards (called : eventReadFlushRow.calls t p s q = true) :
    Answers (.eventReadFlush t p) s (Req.of p q) stOk (zeros 4) (fun u =>
      (u.session (Req.of p q).session).queue.items = [] ∧ (∃ e, (u.session (Req.of p q).session).queue.flushed = some e ∧ e.source = 187) ∧
      ∀ j, j ≠ (Req.of p q).session → u.session j = s.session j) := by
  refine (answers_queue (i := .eventReadFlush t p) rfl called inv rfl).imp fun u ⟨queue, others⟩ => ?_
  rw [queue]
  exact ⟨rfl, ⟨_, rfl, rfl⟩, others⟩

theorem eventMask_sets (called : eventMaskRow.calls t p s q = true) :
    Answers (.eventMask t p) s (Req.of p q) stOk [] (fun u => (∀ j, j ≠ (Req.of p q).session → u.session j = s.session j) ∧
      ((s.session (Req.of p q).session).queue.mask.length = 192 → (Req.of p q).u 1 1 = 1 →
        (u.session (Req.of p q).session).queue.mask.getD ((Req.of p q).u 0 1) 0 = (Req.of p q).u 4 1)) := by
  have valid := valid_of_calls called
  simp only [eventMaskRow, Bool.and_eq_true, decide_eq_true_eq] at valid
  obtain ⟨⟨⟨-, sources⟩, -⟩, -⟩ := valid
  refine (answers_queue (i := .eventMask t p) rfl called inv rfl).imp fun u ⟨queue, others⟩ => ⟨others, fun sized one => ?_⟩
  have held : (Req.of p q).u 0 1 < (s.session (Req.of p q).session).queue.mask.length := by omega
  rw [queue]
  simp [one, List.getD_eq_getElem?_getD, held]

theorem watermarkSet_sets (called : watermarkSetRow.calls t p s q = true) :
    Answers (.watermarkSet t p) s (Req.of p q) stOk [] (fun u =>
      (u.session (Req.of p q).session).queue = { (s.session (Req.of p q).session).queue with mark := (Req.of p q).u 0 2 } ∧
      ∀ j, j ≠ (Req.of p q).session → u.session j = s.session j) := answers_queue rfl called inv rfl

end Queue

end Sys2Proof.Machine
end

section
/-! SUPPORT. Fences and the requests of group 09h: the obligation. -/

open Sys2Proof.Machine

/-- Settles O19: each of the requests changes the queue of its own session alone, and a marker that is due moves from the fences to the entries. -/
theorem eventQueues : Obligations.EventQueues := by
  unfold Obligations.EventQueues
  refine ⟨⟨fun t p s q called inv => ⟨fence_numbered called inv, fence_full called⟩,
    fun t k s f part inv alone => ⟨fenceMarker_due part inv alone, fenceMarker_early part inv alone⟩⟩, fun t p s q inv => ?_⟩
  exact ⟨eventRead_delivers inv, eventReadFlush_discards inv, eventMask_sets inv, watermarkSet_sets inv⟩

end

section
/-! SUPPORT. The requests that read the store and the marks of a session on a ring (R393, R396, R397, R499). -/

namespace Sys2Proof.Machine

/-! ### Whole records that fit (R393) -/

/-- One record is taken where every earlier one was and it fits. -/
def fitStep (room : Nat) (a : List (List Byte) × Nat × Bool) (b : List Byte) : List (List Byte) × Nat × Bool :=
  if a.2.2 && a.2.1 + b.length ≤ room then (a.1 ++ [b], a.2.1 + b.length, true) else (a.1, a.2.1, false)

theorem fitRecords_eq (room : Nat) (l : List (List Byte)) : fitRecords room l = (l.foldl (fitStep room) ([], 0, true)).1 := rfl

/-- What the records taken are of the list: those it begins with, as many as fit; the next one, where there is one, does not. -/
structure FitOf (room : Nat) (l : List (List Byte)) (a : List (List Byte) × Nat × Bool) : Prop where
  begins : a.1 <+: l
  count : a.1.flatten.length = a.2.1
  fits : a.2.1 ≤ room
  whole : a.2.2 = true → a.1 = l
  cut : a.2.2 = false → ∃ b, a.1 ++ [b] <+: l ∧ room < a.2.1 + b.length

theorem fitOf_foldl (room : Nat) (l : List (List Byte)) : FitOf room l (l.foldl (fitStep room) ([], 0, true)) := by
  induction l using List.reverseRecOn with
  | nil => exact ⟨List.prefix_rfl, rfl, Nat.zero_le _, fun _ => rfl, nofun⟩
  | append_singleton l b ih =>
    rw [List.foldl_append]
    generalize l.foldl (fitStep room) ([], 0, true) = a at ih
    obtain ⟨taken, n, whole⟩ := a
    obtain ⟨begins, count, fits, all, cut⟩ := ih
    simp only at begins count fits all cut
    have longer : l <+: l ++ [b] := List.prefix_append ..
    simp only [List.foldl_cons, List.foldl_nil, fitStep]
    split
    · next more =>
      simp only [Bool.and_eq_true, decide_eq_true_eq] at more
      obtain rfl := all more.1
      exact ⟨List.prefix_rfl, by simp [count], more.2, fun _ => rfl, nofun⟩
    · next full =>
      refine ⟨begins.trans longer, count, fits, nofun, fun _ => ?_⟩
      cases whole with
      | false =>
        obtain ⟨x, begins, exceeds⟩ := cut rfl
        exact ⟨x, begins.trans longer, exceeds⟩
      | true =>
        obtain rfl := all rfl
        exact ⟨b, List.prefix_rfl, by simpa using full⟩

/-- LOG_READ gives whole records in order, and all that fit (R393). -/
theorem fitRecords_spec (room : Nat) (l : List (List Byte)) :
    fitRecords room l <+: l ∧ (fitRecords room l).flatten.length ≤ room ∧
      ∀ b, fitRecords room l ++ [b] <+: l → room < (fitRecords room l ++ [b]).flatten.length := by
  rw [fitRecords_eq]
  obtain ⟨begins, count, fits, all, cut⟩ := fitOf_foldl room l
  generalize l.foldl (fitStep room) ([], 0, true) = a at *
  refine ⟨begins, by rwa [count], fun b next => ?_⟩
  cases whole : a.2.2 with
  | true =>
    have short := next.length_le
    rw [all whole, List.length_append] at short
    exact absurd short (by simp)
  | false =>
    obtain ⟨x, same, exceeds⟩ := cut whole
    have equal : a.1 ++ [b] = a.1 ++ [x] := (List.prefix_of_prefix_length_le next same (by simp)).eq_of_length (by simp)
    rw [equal]
    simpa [count] using exceeds

/-! ### The requests that read -/

section Reads
variable {t : Nat} {p : Port} {s : State} {q : Request}

theorem storeInfo_answers (called : storeInfoRow.calls t p s q = true) : ∃ rest, Ends (.storeInfo t p) s (Req.of p q) stOk
    (le 1 s.store.state ++ zeros 3 ++ s.store.devices.flatMap Device.info ++ rest) (s.taken t p) := by
  have same : (s.taken t p).store = s.store := by simp
  have body : ∃ rest, storeInfoRow.body (Req.of p q) (s.taken t p) = .done stOk
      (le 1 (s.taken t p).store.state ++ zeros 3 ++ (s.taken t p).store.devices.flatMap Device.info ++ rest) (s.taken t p) :=
    ⟨_, congrArg (fun l => Answer.done stOk l (s.taken t p)) (by simp only [List.append_assoc]; rfl)⟩
  obtain ⟨rest, body⟩ := body
  exact ⟨rest, ends_of_body rfl called (by rw [body, same])⟩

/-- The records of the event log from the sequence a request names. -/
def State.logFrom (s : State) (r : Req) : List LogRecord := s.store.log.filter (fun x => r.u 0 8 ≤ x.sequence)

/-- The records a LOG_READ asks for, as it gives them. -/
def State.wholeLog (s : State) (r : Req) (time : Nat) : List (List Byte) :=
  ((s.logFrom r).take (r.u 8 1)).map (fun x => withCrc (x.served time).bytes)

/-- The payload of LOG_READ: the first sequence, and the records given. -/
def logReply (first : Nat) (out : List (List Byte)) : List Byte :=
  le 8 first ++ le 1 out.length ++ zeros 1 ++ le 2 out.flatten.length ++ out.flatten

/-- What LOG_READ draws, where it draws: the time of the records lost, or the first sequence where none is held. -/
def State.logDraw (s : State) (r : Req) : Nat × State :=
  if (s.logFrom r).isEmpty || ((s.logFrom r).take (r.u 8 1)).any LogRecord.lost then s.draw else (0, s)

theorem logReadRow_body (r : Req) (s : State) : logReadRow.body r s = .done stOk
    (logReply (((s.logFrom r).head?.map LogRecord.sequence).getD (s.logDraw r).1) (fitRecords 4084 (s.wholeLog r (s.logDraw r).1)))
    (s.logDraw r).2 := rfl

/-- Where records are held, it draws if one it is asked for is lost. -/
theorem State.logDraw_held {s : State} {r : Req} {x : LogRecord} {more : List LogRecord} (held : s.logFrom r = x :: more) :
    (s.logDraw r).2 = { s with draws := s.draws + ofBool (((s.logFrom r).take (r.u 8 1)).any LogRecord.lost) } := by
  have some_ : (s.logFrom r).isEmpty = false := by rw [held]; rfl
  unfold State.logDraw
  rw [some_, Bool.false_or]
  cases ((s.logFrom r).take (r.u 8 1)).any LogRecord.lost <;> rfl

/-- Taking a request leaves the log. -/
theorem State.taken_logFrom (s : State) (t : Nat) (p : Port) (r : Req) : (s.taken t p).logFrom r = s.logFrom r := by simp [State.logFrom]

theorem State.taken_wholeLog (s : State) (t : Nat) (p : Port) (r : Req) (time : Nat) :
    (s.taken t p).wholeLog r time = s.wholeLog r time := by simp only [State.wholeLog, State.taken_logFrom]

theorem logRead_whole (called : logReadRow.calls t p s q = true) {x : LogRecord} {more : List LogRecord}
    (held : s.logFrom (Req.of p q) = x :: more) : ∃ (time : Nat) (out : List (List Byte)), out <+: s.wholeLog (Req.of p q) time ∧
      out.flatten.length ≤ 4084 ∧ (∀ b, (out ++ [b]) <+: s.wholeLog (Req.of p q) time → 4084 < (out ++ [b]).flatten.length) ∧
      Ends (.logRead t p) s (Req.of p q) stOk
        (le 8 x.sequence ++ le 1 out.length ++ zeros 1 ++ le 2 out.flatten.length ++ out.flatten)
        { s.taken t p with draws := s.draws + ofBool (((s.logFrom (Req.of p q)).take ((Req.of p q).u 8 1)).any LogRecord.lost) } := by
  have same := State.taken_logFrom s t p (Req.of p q)
  have draws : (s.taken t p).draws = s.draws := by simp
  have body := logReadRow_body (Req.of p q) (s.taken t p)
  rw [State.logDraw_held (same.trans held), same, draws, State.taken_wholeLog, held] at body
  obtain ⟨begins, fits, full⟩ := fitRecords_spec 4084 (s.wholeLog (Req.of p q) ((s.taken t p).logDraw (Req.of p q)).1)
  rw [held]
  exact ⟨_, _, begins, fits, full, ends_of_body rfl called body⟩

theorem logRead_none (called : logReadRow.calls t p s q = true) (none_ : s.logFrom (Req.of p q) = []) : ∃ first,
    Ends (.logRead t p) s (Req.of p q) stOk (le 8 first ++ le 1 0 ++ zeros 1 ++ le 2 0) { s.taken t p with draws := s.draws + 1 } := by
  have same := (State.taken_logFrom s t p (Req.of p q)).trans none_
  have draws : (s.taken t p).draws = s.draws := by simp
  have drawn : (s.taken t p).logDraw (Req.of p q) = (s.taken t p).draw := by
    unfold State.logDraw
    rw [same]
    rfl
  have nothing : (s.taken t p).wholeLog (Req.of p q) (s.taken t p).draw.1 = [] := by simp [State.wholeLog, same]
  have body := logReadRow_body (Req.of p q) (s.taken t p)
  rw [drawn, nothing, same] at body
  rw [← draws]
  exact ⟨(s.taken t p).draw.1, ends_of_body rfl called (body.trans (congrArg (fun l => Answer.done stOk l _) (List.append_nil _)))⟩

/-- Taking a request leaves the rings. -/
theorem State.taken_ringOfReq (s : State) (t : Nat) (p : Port) (r : Req) : (s.taken t p).ringOfReq r = s.ringOfReq r := by
  simp [State.ringOfReq]

theorem captureRead_position (called : captureReadRow.calls t p s q = true) (position : (Req.of p q).u 0 1 = 0) :
    Ends (.captureRead t p) s (Req.of p q) stOk
      (captureReply ((Req.of p q).u 8 8) ((s.ringOfReq (Req.of p q)).read ((Req.of p q).u 8 8) ((Req.of p q).u 4 2))) (s.taken t p) :=
  ends_of_body rfl called ((if_pos position).trans (by rw [State.taken_ringOfReq]))

end Reads

/-! ### The marks of a session (R396, R397) -/

/-- Whether a mark is the one of an index on a ring. -/
def Mark.is (ring k : Nat) (m : Mark) : Bool := m.ring = ring && m.index = k

theorem Mark.is_iff {ring k : Nat} {m : Mark} : m.is ring k = true ↔ m.ring = ring ∧ m.index = k := by simp [Mark.is]

theorem Session.markOn_eq (x : Session) (ring k : Nat) : x.markOn ring k = x.marks.find? (Mark.is ring k) := rfl

/-- A mark found is the one looked for. -/
theorem Session.markOn_is {x : Session} {ring k : Nat} {m : Mark} (found : x.markOn ring k = some m) : m.ring = ring ∧ m.index = k :=
  Mark.is_iff.1 (List.find?_some (p := Mark.is ring k) found)

/-- A session without one of its marks. -/
def Session.unmarked (x : Session) (ring k : Nat) : Session := { x with marks := x.marks.filter (fun y => !y.is ring k) }

/-- A session with a mark put. -/
def Session.marked (x : Session) (m : Mark) : Session := { x with marks := (x.unmarked m.ring m.index).marks ++ [m] }

theorem State.placeMark_eq (s : State) (k : Nat) (m : Mark) : s.placeMark k m = s.setSession k (fun x => x.marked m) := rfl

theorem Session.markOn_unmarked (x : Session) (ring k : Nat) : (x.unmarked ring k).markOn ring k = none := by
  simp [Session.markOn_eq, Session.unmarked]

theorem Session.markOn_unmarked_ne (x : Session) {ring k a b : Nat} (other : ¬(a = ring ∧ b = k)) :
    (x.unmarked ring k).markOn a b = x.markOn a b := by
  have differs : ∀ m : Mark, m.is a b = true → (!m.is ring k) = true := fun m is => by
    rw [Mark.is_iff] at is
    rw [Bool.not_eq_true', ← Bool.not_eq_true, Mark.is_iff, is.1, is.2]
    exact other
  rw [Session.markOn_eq, Session.markOn_eq]
  unfold Session.unmarked
  rw [List.find?_filter]
  refine congrArg (fun f => x.marks.find? f) (funext fun m => ?_)
  cases is : m.is a b with
  | true => simp [differs m is]
  | false => simp

theorem Session.markOn_marked (x : Session) (m : Mark) : (x.marked m).markOn m.ring m.index = some m := by
  have gone := x.markOn_unmarked m.ring m.index
  have is : m.is m.ring m.index = true := Mark.is_iff.2 ⟨rfl, rfl⟩
  rw [Session.markOn_eq] at gone ⊢
  unfold Session.marked
  rw [List.find?_append, gone]
  simp [is]

theorem Session.markOn_marked_ne (x : Session) {m : Mark} {a b : Nat} (other : ¬(a = m.ring ∧ b = m.index)) :
    (x.marked m).markOn a b = x.markOn a b := by
  have is : m.is a b = false := by
    rw [← Bool.not_eq_true, Mark.is_iff]
    exact fun same => other ⟨same.1.symm, same.2.symm⟩
  rw [← x.markOn_unmarked_ne other, Session.markOn_eq, Session.markOn_eq]
  unfold Session.marked
  rw [List.find?_append, List.find?_singleton, is]
  simp

section Marks
variable {t : Nat} {p : Port} {s : State} {q : Request}

/-- What a request about one mark leaves: the store, the other sessions, and the other marks. -/
def LeavesOtherMarks (s u₀ : State) (session ring k : Nat) (u : State) : Prop :=
  u.store = u₀.store ∧ (∀ j, j ≠ session → u.session j = s.session j) ∧
    ∀ a b, ¬(a = ring ∧ b = k) → (u.session session).markOn a b = (s.session session).markOn a b

/-- The session that sends changes by `f`, which touches one mark alone. -/
theorem leavesOtherMarks {k ring index : Nat} {f : Session → Session} (part : k < (s.taken t p).host.sessions.length)
    (leaves : ∀ a b, ¬(a = ring ∧ b = index) → (f (s.session k)).markOn a b = (s.session k).markOn a b) :
    LeavesOtherMarks s (s.taken t p) k ring index ((s.taken t p).setSession k f) := by
  refine ⟨rfl, fun j other => ?_, fun a b other => ?_⟩
  · rw [State.session_setSession_ne _ _ _ _ other, State.taken_session]
  · rw [State.session_setSession _ _ _ part, State.taken_session]
    exact leaves a b other

/-- A mark placed for the session that sends. -/
theorem placeMark_leaves {k : Nat} (part : k < (s.taken t p).host.sessions.length) (m : Mark) :
    (((s.taken t p).placeMark k m).session k).markOn m.ring m.index = some m ∧
      LeavesOtherMarks s (s.taken t p) k m.ring m.index ((s.taken t p).placeMark k m) := by
  rw [State.placeMark_eq]
  refine ⟨?_, leavesOtherMarks part fun a b other => Session.markOn_marked_ne _ other⟩
  rw [State.session_setSession _ _ _ part]
  exact Session.markOn_marked _ m

/-- The position a MARK_SET names. -/
def State.markPos (s : State) (r : Req) : Nat :=
  if r.u 1 1 = 0 then r.u 8 8 else if r.u 1 1 = 1 then (s.ringOfReq r).oldest else if r.u 1 1 = 2 then (s.ringOfReq r).newest
  else (((s.session r.session).markOn (ringOf r.handle) (r.u 2 1)).map Mark.pos).getD 0

/-- The mark a MARK_SET puts. -/
def State.newMark (s : State) (r : Req) : Mark :=
  { ring := ringOf r.handle, index := r.u 0 1, pos := s.markPos r
    lost := r.u 1 1 = 3 && ((s.session r.session).markOn (ringOf r.handle) (r.u 2 1)).any Mark.lost }

theorem markSetRow_body (r : Req) (s : State) :
    markSetRow.body r s = .done stOk (le 8 (s.markPos r)) (s.placeMark r.session (s.newMark r)) := by
  have pos : (match r.u 1 1 with
      | 0 => r.u 8 8
      | 1 => (s.ringOfReq r).oldest
      | 2 => (s.ringOfReq r).newest
      | _ => (((s.session r.session).markOn (ringOf r.handle) (r.u 2 1)).map Mark.pos).getD 0) = s.markPos r := by
    unfold State.markPos
    split <;> simp_all
  exact congrArg (fun n => Answer.done stOk (le 8 n) (s.placeMark r.session { s.newMark r with pos := n })) pos

section Called
variable (inv : s.Inv)
include inv

theorem markSet_puts (called : markSetRow.calls t p s q = true) :
    Answers (.markSet t p) s (Req.of p q) stOk (le 8 (s.markPos (Req.of p q))) (fun u =>
      (∃ m, (u.session (Req.of p q).session).markOn (ringOf (Req.of p q).handle) ((Req.of p q).u 0 1) = some m ∧
        m.pos = s.markPos (Req.of p q) ∧ ((Req.of p q).u 1 1 ≠ 3 → m.lost = false)) ∧
      LeavesOtherMarks s (s.taken t p) (Req.of p q).session (ringOf (Req.of p q).handle) ((Req.of p q).u 0 1) u) := by
  have same : (s.taken t p).markPos (Req.of p q) = s.markPos (Req.of p q) := by
    simp only [State.markPos, State.taken_ringOfReq, State.taken_session]
  obtain ⟨put, others⟩ := placeMark_leaves (session_of_calls called inv) ((s.taken t p).newMark (Req.of p q))
  refine ⟨_, ends_of_body rfl called ((markSetRow_body ..).trans (by rw [same])), ⟨_, put, same, fun other => ?_⟩, others⟩
  simp [State.newMark, other]

theorem markClear_removes (called : markClearRow.calls t p s q = true) :
    Answers (.markClear t p) s (Req.of p q) stOk [] (fun u =>
      (u.session (Req.of p q).session).markOn (ringOf (Req.of p q).handle) ((Req.of p q).u 0 1) = none ∧
      LeavesOtherMarks s (s.taken t p) (Req.of p q).session (ringOf (Req.of p q).handle) ((Req.of p q).u 0 1) u) := by
  have part := session_of_calls called inv
  refine ⟨(s.taken t p).setSession (Req.of p q).session (fun x => x.unmarked (ringOf (Req.of p q).handle) ((Req.of p q).u 0 1)),
    ends_of_body rfl called rfl, ?_, leavesOtherMarks part fun a b other => Session.markOn_unmarked_ne _ other⟩
  rw [State.session_setSession _ _ _ part]
  exact Session.markOn_unmarked ..

theorem captureRead_mark {m : Mark} (called : captureReadRow.calls t p s q = true) (byMark : (Req.of p q).u 0 1 = 1)
    (found : (s.session (Req.of p q).session).markOn (ringOf (Req.of p q).handle) ((Req.of p q).u 1 1) = some m) :
    let pos := if m.lost then (s.ringOfReq (Req.of p q)).oldest else m.pos
    let bytes := (s.ringOfReq (Req.of p q)).read pos ((Req.of p q).u 4 2)
    Answers (.captureRead t p) s (Req.of p q) (if m.lost then stMarkLost else stOk) (captureReply pos bytes) (fun u =>
      (u.session (Req.of p q).session).markOn (ringOf (Req.of p q).handle) ((Req.of p q).u 1 1) =
        some { m with lost := false, pos := if (Req.of p q).u 2 1 = 1 then pos + bytes.length else pos } ∧
      LeavesOtherMarks s (s.taken t p) (Req.of p q).session (ringOf (Req.of p q).handle) ((Req.of p q).u 1 1) u) := by
  intro pos bytes
  generalize moved : ({ m with lost := false, pos := if (Req.of p q).u 2 1 = 1 then pos + bytes.length else pos } : Mark) = m'
  have body : captureReadRow.body (Req.of p q) (s.taken t p) =
      .done (if m.lost then stMarkLost else stOk) (captureReply pos bytes) ((s.taken t p).placeMark (Req.of p q).session m') := by
    refine (if_neg (by rw [byMark]; decide)).trans ?_
    rw [State.taken_session, State.taken_ringOfReq, found, ← moved]
  have same : m'.ring = ringOf (Req.of p q).handle ∧ m'.index = (Req.of p q).u 1 1 := by
    rw [← moved]
    obtain ⟨ring, index⟩ := Session.markOn_is found
    exact ⟨ring, index⟩
  obtain ⟨put, others⟩ := placeMark_leaves (session_of_calls called inv) m'
  rw [same.1, same.2] at put others
  exact ⟨_, ends_of_body rfl called body, put, others⟩

end Called
end Marks

end Sys2Proof.Machine
end

section
/-! SUPPORT. Reads of the store and marks: the obligation. -/

open Sys2Proof.Machine

/-- Settles O45: what LOG_READ gives is the longest run of whole records that fits, and each request about a mark touches that mark alone. -/
theorem storeReadsAndMarks : Obligations.StoreReadsAndMarks := by
  unfold Obligations.StoreReadsAndMarks
  exact ⟨fun t p s q => ⟨storeInfo_answers, fun called x more => logRead_whole called, logRead_none, captureRead_position⟩,
    fun t p s q inv => ⟨markSet_puts inv, markClear_removes inv, fun m => captureRead_mark inv⟩⟩

end

section
/-! SUPPORT. The supplies (R429-R431) and the crystal of the modem (R454): what the operations of their faults leave. -/

namespace Sys2Proof.Machine

/-! ### The VANA fault, which no operation but its own commands changes (R429) -/

/-- When VANA failed, and on which dies. -/
def State.vana (s : State) : Option Nat × List Nat := (s.health.vanaFault, s.health.vanaDies)

theorem State.vana_of_health {s u : State} (fault : u.health.vanaFault = s.health.vanaFault) (dies : u.health.vanaDies = s.health.vanaDies) :
    u.vana = s.vana := by rw [State.vana, fault, dies, ← State.vana]

@[simp] theorem State.setChan_vana (s : State) (n : Nat) (f : Channel → Channel) : (s.setChan n f).vana = s.vana := rfl

@[simp] theorem State.setConv_vana (s : State) (u : Nat) (f : Converter → Converter) : (s.setConv u f).vana = s.vana := rfl

@[simp] theorem State.raise_vana (s : State) (source time : Nat) (body : List Byte) : (s.raise source time body).vana = s.vana := by
  rw [State.raise_frame]
  rfl

@[simp] theorem State.completeOp_vana (s : State) (tag status : Nat) (detail : List Byte) : (s.completeOp tag status detail).vana = s.vana := by
  rw [State.completeOp_frame]
  rfl

@[simp] theorem State.note_vana (s : State) (kind outcome handle carrier rung : Nat) :
    (s.note kind outcome handle carrier rung).vana = s.vana := by
  rw [State.note_frame]
  rfl

@[simp] theorem State.disturb_vana (s : State) (u : Nat) : (s.disturb u).vana = s.vana := by
  unfold State.disturb State.disturbNarrow
  dsimp only
  split <;> rfl

@[simp] theorem State.carry_vana (s : State) (n : Nat) (c : Carrier) : (s.carry n c).vana = s.vana := by
  unfold State.carry
  dsimp only
  split
  · rw [State.note_vana]
    rfl
  · rfl

@[simp] theorem State.release_vana (s : State) (k : Nat) : (s.release k).vana = s.vana := rfl

@[simp] theorem State.abortUnit_vana (s : State) (u : Nat) : (s.abortUnit u).vana = s.vana := by
  unfold State.abortUnit State.sweepEvent
  dsimp only
  rw [State.raise_vana]
  rfl

@[simp] theorem State.endSweepOp_vana (s : State) (status : Nat) : (s.endSweepOp status).vana = s.vana := by
  unfold State.endSweepOp
  split
  · rfl
  · rw [State.completeOp_vana]
    rfl

@[simp] theorem State.resume_vana (s : State) (u : Nat) : (s.resume u).vana = s.vana := by
  unfold State.resume
  split
  · rfl
  · split
    · rfl
    · split
      · exact State.carry_vana ..
      · rfl

/-- A change of the sweep leaves the fault. -/
theorem State.sweep_vana (s : State) (w : SweepState) : State.vana { s with sweep := w } = s.vana := rfl

/-- The release of a lane that may be. -/
theorem State.releaseAny_vana (s : State) (lane : Option Nat) :
    (match lane with
     | some k => s.release k
     | none => s).vana = s.vana := by
  cases lane <;> rfl

@[simp] theorem State.abortSweep_vana (s : State) (status : Nat) (restore : Bool) : (s.abortSweep status restore).vana = s.vana := by
  unfold State.abortSweep
  split
  · rfl
  · extract_lets w started aborted freed _ cleared ended released
    have keptAborted : aborted.vana = s.vana := foldl_keeps State.vana _ State.abortUnit_vana _ _
    have keptFreed : freed.vana = s.vana := by
      unfold freed
      split <;> exact keptAborted
    have kept : ended.vana = s.vana := (State.endSweepOp_vana ..).trans keptFreed
    split
    · exact kept
    · split
      · have keptReleased : released.vana = s.vana := by
          unfold released
          split <;> exact kept
        exact keptReleased
      · split
        · dsimp only
          split
          · exact kept
          · exact (State.disturb_vana ..).trans kept
        · extract_lets resumed last
          have keptLast : last.vana = s.vana := by
            unfold last
            split <;> exact (State.resume_vana ..).trans kept
          exact keptLast

@[simp] theorem State.syncDie_vana (s : State) (d c : Nat) : (s.syncDie d c).vana = s.vana := by
  unfold State.syncDie
  extract_lets index started ns channels converters meas
  have keptChannels : channels.vana = s.vana :=
    foldl_keeps State.vana (fun (u : State) (n : Nat) => ((u.setChan n Channel.synced).alarmClear n false).alarmClear n true)
      (fun _ _ => rfl) _ _
  exact (foldl_keeps State.vana (fun (u : State) (k : Nat) => u.setConv ((d - 1) * 6 + k) Converter.synced) (fun _ _ => rfl) _ _).trans keptChannels

@[simp] theorem State.syncAt_vana (s : State) (dies : List Nat) (c : Nat) : (s.syncAt dies c).vana = s.vana := by
  have tracker : (s.syncTracker dies).vana = s.vana := by
    unfold State.syncTracker
    dsimp only
    split <;> rfl
  exact (foldl_keeps State.vana _ (fun u d => u.syncDie_vana d c) _ _).trans tracker

@[simp] theorem State.synchronise_vana (s : State) (dies : List Nat) : (s.synchronise dies).vana = s.vana := by
  unfold State.synchronise
  dsimp only
  rw [State.syncAt_vana]
  split
  · exact State.abortSweep_vana ..
  · rfl

/-- A SYNC of acquisition dies opens an epoch of each, now or later (R33). -/
theorem State.synchronise_epoch {s : State} {dies : List Nat} {d : Nat} (part : ∀ e ∈ dies, e < s.dies.length) (named : d ∈ dies) :
    s.now ≤ ((s.synchronise dies).die d).epochTick := by
  unfold State.synchronise
  extract_lets stopped
  have sameDies : stopped.dies = s.dies := by
    unfold stopped
    split
    · exact State.abortSweep_dies ..
    · rfl
  have sameNow : stopped.now = s.now := by
    unfold stopped
    split
    · exact congrArg Footing.now (State.abortSweep_footing ..)
    · rfl
  rw [State.syncAt_epochTick (by rwa [sameDies]) named, sameNow]
  exact Nat.le_add_right ..

/-! ### VANA (R429) -/

/-- The event of a supply fault leaves all but the queues and the event log. -/
theorem State.supplyEvent_frame (s : State) (kind : Nat) (ended : Bool) (volts : F32) :
    s.supplyEvent kind ended volts = { s with
      host := { s.host with sessions := (s.supplyEvent kind ended volts).host.sessions }, store := (s.supplyEvent kind ended volts).store } := by
  unfold State.supplyEvent
  rw [State.raise_frame]

/-- VANA is back: the fault has ended, and energy is carried no more. -/
def State.vanaBack (s : State) : State :=
  { s with
    health := { s.health with vanaFault := none, vanaDies := [] }
    meas := { s.meas with integrators := s.meas.integrators.map (fun (x : Integrator) => { x with gapFrom := none }) } }

section Vana
variable {t : Nat} {v : F32} {s : State} {dies : List Nat}

theorem vanaSupplyFault_faults (acquisition : dies.all isAcquisition = true) (on : s.phase = .ready ∨ s.phase = .running)
    (sound : s.health.vanaFault = none) (three : 3 ≤ dies.eraseDups.length) (low : vanaFaults v = true) :
    Leads (.vanaSupplyFault t dies v) s (fun u => u.health.vanaFault = some (max s.now t) ∧ u.health.vanaDies = dies.eraseDups ∧
      u.dies = s.dies ∧ ∀ n, n < 24 → dieOfUnit n ∈ dies → u.converts n = false) := by
  have many : (decide (dies.eraseDups.length < 3) || !vanaFaults v) = false := by simp [low, three]
  have out : (s.tickTo t).phase ≠ .gatehouse := by rcases on with on | on <;> simp [on]
  have first : ((decide ((s.tickTo t).phase = .ready) || decide ((s.tickTo t).phase = .running)) &&
      (s.tickTo t).health.vanaFault.isNone) = true := by
    rw [State.tickTo_phase, State.tickTo_health, sound]
    rcases on with on | on <;> simp [on]
  obtain ⟨u, run, health, sameDies⟩ : ∃ u, exec (.vanaSupplyFault t dies v) s = .next u ∧
      u.health = { s.health with vanaFault := some (max s.now t), vanaDies := dies.eraseDups } ∧ u.dies = s.dies := by
    refine ⟨_, (congrArg₂ guarded acquisition ((if_neg (by rw [many]; decide)).trans ((if_neg out).trans (if_pos first)))), ?_, ?_⟩ <;>
      rw [State.supplyEvent_frame] <;> rfl
  refine ⟨u, run, by rw [health], by rw [health], sameDies, fun n _ named => ?_⟩
  have silent : u.health.vanaDies.contains (dieOfUnit n) = true := by
    rw [health, List.contains_iff_mem]
    exact List.mem_eraseDups.2 named
  simp only [State.converts, silent, Bool.not_true, Bool.and_false, Bool.false_and]

theorem vanaSupplyFault_idle (acquisition : dies.all isAcquisition = true) (fewer : dies.eraseDups.length < 3 ∨ vanaFaults v = false) :
    exec (.vanaSupplyFault t dies v) s = .next (s.tickTo t) :=
  congrArg₂ guarded acquisition (if_pos (by rcases fewer with fewer | high <;> simp [*]))

theorem vanaRecovery_idle (early : (vanaRecovers v && s.health.vanaFault.any (fun x => x + 80000 ≤ max s.now t)) = false) :
    exec (.vanaRecovery t v) s = .next (s.tickTo t) := by
  refine congrArg Host.Outcome.next (if_neg (?_ : ¬_ = true))
  rw [Bool.not_eq_true]
  exact early

theorem vanaRecovery_recovers {x : Nat} (inv : s.Inv) (fault : s.health.vanaFault = some x) (dwelt : x + 80000 ≤ max s.now t)
    (high : vanaRecovers v = true) : Leads (.vanaRecovery t v) s (fun u => u.health.vanaFault = none ∧ u.health.vanaDies = [] ∧
      ∀ d, 1 ≤ d → d ≤ 5 → max s.now t ≤ (u.die d).epochTick) := by
  have over_ : (vanaRecovers v && (s.tickTo t).health.vanaFault.any (fun y => decide (y + 5 * Config.ms ≤ (s.tickTo t).now))) = true := by
    rw [high, Bool.true_and, State.tickTo_health, fault]
    exact decide_eq_true dwelt
  have run : exec (.vanaRecovery t v) s = .next (((s.tickTo t).vanaBack.synchronise [1, 2, 3, 4, 5]).supplyEvent 0 true v) :=
    congrArg Host.Outcome.next (if_pos over_)
  have vana : ((s.tickTo t).vanaBack.synchronise [1, 2, 3, 4, 5]).vana = (none, []) := State.synchronise_vana ..
  have epoch : ∀ d, 1 ≤ d → d ≤ 5 → max s.now t ≤ (((s.tickTo t).vanaBack.synchronise [1, 2, 3, 4, 5]).die d).epochTick := by
    intro d first last
    have dies : (s.tickTo t).vanaBack.dies.length = 8 := inv.dies
    refine State.synchronise_epoch (s := (s.tickTo t).vanaBack) (by simp [dies]) ?_
    simp only [List.mem_cons, List.not_mem_nil, or_false]
    omega
  generalize (s.tickTo t).vanaBack.synchronise [1, 2, 3, 4, 5] = w at run vana epoch
  refine ⟨_, run, ?_⟩
  rw [State.supplyEvent_frame]
  exact ⟨congrArg Prod.fst vana, congrArg Prod.snd vana, epoch⟩

end Vana

/-! ### VIO_S (R430) -/

/-- An event leaves of the store what is not the event log. -/
theorem State.raise_storeFrame (s : State) (source time : Nat) (body : List Byte) : (s.raise source time body).store = { s.store with
    log := (s.raise source time body).store.log, logStart := (s.raise source time body).store.logStart
    nextLog := (s.raise source time body).store.nextLog, chain := (s.raise source time body).store.chain
    uncovered := (s.raise source time body).store.uncovered } := by
  unfold State.raise
  dsimp only
  split
  · rfl
  · exact State.logAppend_store ..

@[simp] theorem State.raise_storeState (s : State) (source time : Nat) (body : List Byte) :
    (s.raise source time body).store.state = s.store.state := by rw [State.raise_storeFrame]

@[simp] theorem State.raise_vioOnly (s : State) (source time : Nat) (body : List Byte) :
    (s.raise source time body).store.vioOnly = s.store.vioOnly := by rw [State.raise_storeFrame]

@[simp] theorem State.abandonUpdate_storeState (s : State) : s.abandonUpdate.store.state = s.store.state := by
  unfold State.abandonUpdate
  split
  · rfl
  · exact State.raise_storeState ..

/-- The relays that the end of a commit drives leave the state of the store. -/
@[simp] theorem State.driveRelay_storeState (s : State) (c : Context) (cause : Nat) : (s.driveRelay c cause).store.state = s.store.state := by
  unfold State.driveRelay State.setRelay
  split
  · split
    · rfl
    · rw [State.raise_storeState]
      split <;> rfl
  · rfl

@[simp] theorem State.endAbandonedStore_storeState (s : State) : s.endAbandonedStore.store.state = s.store.state := by
  unfold State.endAbandonedStore
  split
  · rfl
  · split
    · rw [State.completeOp_store]
    · rfl

@[simp] theorem State.commitOver_storeState (s : State) : s.commitOver.store.state = s.store.state := by
  unfold State.commitOver
  rw [State.releaseStep_frame]
  refine (foldl_keeps (fun u : State => u.store.state) _ (fun u n => ?_) _ _).trans (State.endAbandonedStore_storeState s)
  dsimp only
  split
  · exact State.driveRelay_storeState ..
  · rfl

/-- The end of a commit, whole or abandoned, leaves of the power state what no rule ends with it (R436). -/
theorem State.commitOver_power (s : State) : s.commitOver.power = { s.power with
    commit := none, committed := true, rideCheckpoint := s.power.rideCheckpoint || s.power.rode, rode := false } := by
  unfold State.commitOver
  extract_lets ended _ idle
  have kept : ended.power = s.power := power_of_footing (by simp [ended])
  have driven := power_of_footing (State.eachCtx_footing idle _ (fun u c => State.driveRelay_footing u c 0))
  have idles : idle.power = { ended.power with
    commit := none, committed := true, rideCheckpoint := ended.power.rideCheckpoint || ended.power.rode, rode := false } := rfl
  rw [State.releaseStep_frame]
  exact driven.trans (by rw [idles, kept])

/-- A store that is written becomes read-only; the power state stays. -/
theorem State.storeReadOnly_leaves (s : State) : s.storeReadOnly.power = s.power ∧ (s.store.state = 1 → s.storeReadOnly.store.state = 2) := by
  unfold State.storeReadOnly
  split
  · dsimp only
    refine ⟨?_, fun _ => ?_⟩
    · rw [State.raise_frame, State.abandonUpdate_frame]
    · rw [State.raise_storeState, State.abandonUpdate_storeState]
  · next other => exact ⟨rfl, fun writes => absurd writes other⟩

section Vio
variable {t : Nat} {v : F32} {s : State}

/-- What the fault does before its event: the commit is abandoned, and the store that is written becomes read-only. -/
def State.loseVio (s : State) : State :=
  let s := if s.power.commit.isSome then s.commitOver else s
  if s.store.state = 1 then
    let s := s.storeReadOnly
    { s with store := { s.store with vioOnly := true } }
  else s

theorem State.loseVio_leaves (s : State) : s.loseVio.power.vioFault = s.power.vioFault ∧ s.loseVio.power.commit = none ∧
    (s.store.state = 1 → s.loseVio.store.state = 2 ∧ s.loseVio.store.vioOnly = true) := by
  unfold State.loseVio
  extract_lets stopped readOnly
  have fault : stopped.power.vioFault = s.power.vioFault := by
    unfold stopped
    split
    · rw [State.commitOver_power]
    · rfl
  have commit : stopped.power.commit = none := by
    unfold stopped
    split
    · rw [State.commitOver_power]
    · next idle => exact Option.not_isSome_iff_eq_none.1 idle
  have store : stopped.store.state = s.store.state := by
    unfold stopped
    split
    · exact State.commitOver_storeState s
    · rfl
  obtain ⟨power, state⟩ := stopped.storeReadOnly_leaves
  split
  · next writes => exact ⟨(congrArg PowerState.vioFault power).trans fault, (congrArg PowerState.commit power).trans commit,
      fun _ => ⟨state writes, rfl⟩⟩
  · next other => exact ⟨fault, commit, fun writes => absurd (store.trans writes) other⟩

theorem vioSFault_faults (on : s.phase ≠ .held) (sound : s.power.vioFault = false) (low : f32Val v < s.vioLevel) :
    Leads (.vioSFault t v) s (fun u =>
      u.power.vioFault = true ∧ u.power.commit = none ∧ (s.store.state = 1 → u.store.state = 2 ∧ u.store.vioOnly = true)) := by
  have first : ((s.tickTo t).phase ≠ .held && !(s.tickTo t).power.vioFault && decide (f32Val v < (s.tickTo t).vioLevel)) = true := by
    simp only [Bool.and_eq_true, decide_eq_true_eq, Bool.not_eq_true']
    exact ⟨⟨on, sound⟩, low⟩
  have run : exec (.vioSFault t v) s = .next ((State.loseVio { s.tickTo t with
      power := { (s.tickTo t).power with vioFault := true, vioFaultAt := (s.tickTo t).now } }).supplyEvent 1 false v) :=
    congrArg Host.Outcome.next (if_pos first)
  generalize failed : ({ s.tickTo t with
    power := { (s.tickTo t).power with vioFault := true, vioFaultAt := (s.tickTo t).now } } : State) = w at run
  have fault : w.power.vioFault = true := by rw [← failed]
  have state : w.store.state = s.store.state := by rw [← failed]; rfl
  obtain ⟨keeps, commit, readOnly⟩ := w.loseVio_leaves
  refine ⟨_, run, ?_, ?_, fun writes => ?_⟩
  · rw [State.supplyEvent_frame]
    exact keeps.trans fault
  · rw [State.supplyEvent_frame]
    exact commit
  · rw [State.supplyEvent, State.raise_storeState, State.raise_vioOnly]
    exact readOnly (state.trans writes)

theorem vioSRecovery_recovers (fault : s.power.vioFault = true) (back : s.vioInRange v = true)
    (dwelt : s.power.vioFaultAt + 80000 ≤ max s.now t) : Leads (.vioSRecovery t v) s (fun u =>
      u.power.vioFault = false ∧ u.store.vioOnly = false ∧ (s.store.vioOnly = true → s.store.state = 2 → u.store.state = 1) ∧
      (s.store.vioOnly = false → u.store.state = s.store.state)) := by
  have over_ : ((s.tickTo t).power.vioFault && (s.tickTo t).vioInRange v &&
      decide ((s.tickTo t).power.vioFaultAt + 5 * Config.ms ≤ (s.tickTo t).now)) = true := by
    simp only [Bool.and_eq_true, decide_eq_true_eq]
    exact ⟨⟨fault, back⟩, dwelt⟩
  refine ⟨_, congrArg Host.Outcome.next (if_pos over_), ?_⟩
  simp only [State.supplyEvent, State.raise_power, State.raise_storeState, State.raise_vioOnly]
  by_cases only : s.store.vioOnly = true
  · have only' : (s.tickTo t).store.vioOnly = true := only
    rw [if_pos only']
    simp only [State.raise_power, State.raise_storeState, State.raise_vioOnly]
    refine ⟨trivial, trivial, fun _ readOnly => if_pos readOnly, fun other => ?_⟩
    rw [only] at other
    cases other
  · have only' : ¬(s.tickTo t).store.vioOnly = true := only
    rw [if_neg only']
    exact ⟨rfl, by simpa using only, fun yes => absurd yes only, fun _ => rfl⟩

theorem vioSRecovery_idle (early : s.vioInRange v = false ∨ max s.now t < s.power.vioFaultAt + 80000) :
    exec (.vioSRecovery t v) s = .next (s.tickTo t) := by
  refine congrArg Host.Outcome.next (if_neg (?_ : ¬_ = true))
  simp only [Bool.and_eq_true, decide_eq_true_eq]
  rintro ⟨⟨-, back⟩, dwelt⟩
  have back' : s.vioInRange v = true := back
  have dwelt' : s.power.vioFaultAt + 80000 ≤ max s.now t := dwelt
  rcases early with out | early
  · rw [out] at back'
    cases back'
  · omega

/-! ### VBAT (R431) -/

/-- A level that the battery passes is kept, and marked while no firmware runs. -/
theorem State.batteryPasses_leaves (s : State) (low : Bool) (volts : F32) :
    (s.batteryPasses low volts).power =
      { s.power with vbatLow := low, vbatMarks := if s.firmware then s.power.vbatMarks else s.power.vbatMarks ++ [(!low, volts)] } ∧
    (s.batteryPasses low volts).bill = s.bill := by
  unfold State.batteryPasses State.batteryEvent
  extract_lets _ passed
  have same : passed.firmware = s.firmware := rfl
  rw [same]
  split
  · rw [State.raise_frame]
    exact ⟨rfl, rfl⟩
  · exact ⟨rfl, rfl⟩

theorem vbatLow_falls (high : s.power.vbatLow = false) (low : f32Val v < 235 / 100) : Leads (.vbatLow t v) s (fun u =>
    u.power = { s.power with vbatLow := true, vbatMarks := if s.firmware then s.power.vbatMarks else s.power.vbatMarks ++ [(false, v)] } ∧
      u.bill = s.bill) := by
  refine ⟨_, congrArg Host.Outcome.next (if_neg (?_ : ¬_ = true)), (s.tickTo t).batteryPasses_leaves true v⟩
  simpa [high] using low

theorem vbatLow_idle (off : s.power.vbatLow = true ∨ 235 / 100 ≤ f32Val v) : exec (.vbatLow t v) s = .next (s.tickTo t) :=
  congrArg Host.Outcome.next (if_pos (by simpa using off))

theorem vbatLowClear_rises (low : s.power.vbatLow = true) (high : 235 / 100 ≤ f32Val v) : Leads (.vbatLowClear t v) s (fun u =>
    u.power = { s.power with vbatLow := false, vbatMarks := if s.firmware then s.power.vbatMarks else s.power.vbatMarks ++ [(true, v)] } ∧
      u.bill = s.bill) :=
  ⟨_, congrArg Host.Outcome.next (if_pos (by simp [low, high])), (s.tickTo t).batteryPasses_leaves false v⟩

theorem vbatLowClear_idle (off : s.power.vbatLow = false ∨ f32Val v < 235 / 100) : exec (.vbatLowClear t v) s = .next (s.tickTo t) := by
  refine congrArg Host.Outcome.next (if_neg (?_ : ¬_ = true))
  rcases off with off | off <;> simp [off]

end Vio

/-! ### The crystal of the modem (R454) -/

section Crystal

@[simp] theorem State.completeOp_clock (s : State) (tag status : Nat) (detail : List Byte) : (s.completeOp tag status detail).clock = s.clock := by
  rw [State.completeOp_frame]

@[simp] theorem State.discover_clock (s : State) (a : Nat) : (s.discover a).clock = s.clock := by
  simp [State.discover, State.setNode, apply_ite State.clock]

@[simp] theorem State.failFlight_clock (s : State) (x : Transaction) (status : Nat) : (s.failFlight x status).clock = s.clock := by
  unfold State.failFlight
  split <;> simp [State.setNode, State.dropFlight, apply_ite State.clock]

@[simp] theorem State.setNeighbour_clock (s : State) (a : Nat) (f : Neighbour → Neighbour) : (s.setNeighbour a f).clock = s.clock := by
  rw [State.setNeighbour_frame]

@[simp] theorem State.raiseLevel_clock (s : State) (a by_ : Nat) : (s.raiseLevel a by_).clock = s.clock := by
  unfold State.raiseLevel
  split <;> simp [apply_ite State.clock]

@[simp] theorem State.failAttempt_clock (s : State) (x : Transaction) (routeError : Bool) : (s.failAttempt x routeError).clock = s.clock := by
  simp [State.failAttempt, apply_ite State.clock]

@[simp] theorem State.endFlights_clock (s : State) : s.endFlights.clock = s.clock := by
  unfold State.endFlights
  refine (foldl_keeps State.clock _ (fun u x => ?_) _ _).trans rfl
  split <;> simp

@[simp] theorem State.stopFlight_clock (s : State) : s.stopFlight.clock = s.clock := by
  unfold State.stopFlight
  dsimp only
  (repeat' split) <;> simp

/-- The line functions that stop send nothing further, and nothing is in flight once the frame in flight has ended (Table 9.9). -/
theorem State.stopLine_leaves (s : State) : s.stopLine.clock = s.clock ∧ s.stopLine.line.queue = [] ∧
    s.stopLine.line.flight = s.line.flight := by
  have flight : s.endFlights.line.flight = s.line.flight := by
    unfold State.endFlights
    refine (foldl_keeps (fun u : State => u.line.flight) _ (fun u x => ?_) _ _).trans rfl
    split
    · rw [State.completeOp_line]
    · rfl
  exact ⟨s.endFlights_clock, rfl, flight⟩

theorem modemCrystalLoss_stops {t : Nat} {s : State} (on : s.firmware = true) (sound : s.clock.modemLost = false) :
    Leads (.modemCrystalLoss t) s (fun u => u.clock.modemLost = true ∧ u.line.queue = [] ∧ u.line.flight = none) := by
  have first : ((s.tickTo t).firmware && !(s.tickTo t).clock.modemLost) = true := by
    have on' : (s.tickTo t).firmware = true := on
    simp [on', sound]
  refine ⟨_, congrArg Host.Outcome.next (if_pos first), ?_⟩
  generalize lost : ({ s.tickTo t with clock := { (s.tickTo t).clock with modemLost := true } } : State) = w
  have clock : w.clock.modemLost = true := by rw [← lost]
  obtain ⟨sameClock, queue, sameFlight⟩ := w.endFlights.stopFlight.stopLine_leaves
  have flight : w.endFlights.stopFlight.line.flight = none := congrArg Prod.fst w.endFlights.stopFlight_driver
  rw [State.raise_clock, State.raise_line, sameClock, sameFlight, State.stopFlight_clock, State.endFlights_clock]
  exact ⟨clock, queue, flight⟩

end Crystal

end Sys2Proof.Machine
end

section
/-! SUPPORT. The supplies: the obligation. -/

open Sys2Proof.Machine

/-- Settles O59: no operation of a SYNC touches the VANA fault, none of the commit's end the state of the store, and the line functions that
stop leave no frame. -/
theorem suppliesAreWatched : Obligations.SuppliesAreWatched := by
  unfold Obligations.SuppliesAreWatched
  exact fun t v s inv => ⟨fun dies acquisition on sound =>
      ⟨vanaSupplyFault_faults acquisition on sound, vanaSupplyFault_idle acquisition⟩,
    vanaRecovery_idle, fun x => vanaRecovery_recovers inv, vioSFault_faults, vioSRecovery_recovers, vioSRecovery_idle,
    ⟨vbatLow_falls, vbatLow_idle, vbatLowClear_rises, vbatLowClear_idle⟩, modemCrystalLoss_stops⟩

end

section
/-! SUPPORT. Gatehouse mode: its entry (R359, R360) and the tally (R361). -/

namespace Sys2Proof.Machine

/-! ### What a lane does, which settling leaves -/

/-- The job of a unit, the channel it selects, whether it is in service, and whether its low bench failed. -/
def Converter.duty (c : Converter) : Option LaneJob × Option Nat × Bool × Bool := (c.job, c.selects, c.inService, c.lowFailed)

def State.duties (s : State) : List (Option LaneJob × Option Nat × Bool × Bool) := s.converters.map Converter.duty

/-- Units of the same duties, one by one. -/
theorem duty_of_duties {s u : State} (same : u.duties = s.duties) (k : Nat) : (u.conv k).duty = (s.conv k).duty := nth_of_map same k

theorem selects_of_duties {s u : State} (same : u.duties = s.duties) (k : Nat) : (u.conv k).selects = (s.conv k).selects :=
  congrArg (fun x => x.2.1) (duty_of_duties same k)

theorem State.setConv_duties (s : State) (u : Nat) {f : Converter → Converter} (keeps : ∀ c, (f c).duty = c.duty) :
    (s.setConv u f).duties = s.duties := map_alter (keeps _)

@[simp] theorem State.disturb_duties (s : State) (u : Nat) : (s.disturb u).duties = s.duties := by
  unfold State.disturb State.disturbNarrow
  extract_lets x completed y
  have kept : completed.duties = s.duties := by
    unfold completed
    split <;> rfl
  refine (State.setConv_duties _ _ ?_).trans ((State.setConv_duties _ _ ?_).trans kept) <;> exact fun _ => rfl

/-! ### Entry (R359, R360) -/

/-- The lanes settle, which leaves all but channels and converters, and of these their duties. -/
theorem settleLanes_frame (l : List Nat) (s : State) : ∃ channels converters,
    l.foldl (fun (u : State) k => u.disturb (24 + k)) s = { s with channels := channels, converters := converters } ∧
      converters.map Converter.duty = s.converters.map Converter.duty := by
  have kept : (l.foldl (fun (u : State) k => u.disturb (24 + k)) s).duties = s.duties :=
    foldl_keeps State.duties _ (fun u k => u.disturb_duties (24 + k)) l s
  obtain ⟨channels, converters, frame⟩ : ∃ a b, l.foldl (fun (u : State) k => u.disturb (24 + k)) s =
      { s with channels := a, converters := b } := by
    refine List.foldlRecOn l _ (motive := fun u : State => ∃ a b, u = { s with channels := a, converters := b }) ⟨_, _, rfl⟩ ?_
    rintro u ⟨a, b, rfl⟩ k -
    obtain ⟨a', b', frame⟩ := State.disturb_frame { s with channels := a, converters := b } (24 + k)
    exact ⟨a', b', frame⟩
  rw [frame] at kept
  exact ⟨channels, converters, frame, kept⟩

theorem State.copies_gate (s : State) : s.copies.episodes = s.gate.episodes ∧ s.copies.totals = s.gate.totals := by
  unfold State.copies
  split <;> exact ⟨rfl, rfl⟩

/-- What gatehouse mode leaves of the state in which it is entered (R359, R360). -/
structure Gatehouse (s u : State) (cause : GatehouseCause) : Prop where
  phase : u.phase = .gatehouse
  cause : u.gate.cause = causeByte cause
  episodes : u.gate.episodes = sat 32 (s.gate.episodes + 1)
  totals : u.gate.totals = s.gate.totals
  entryTotals : u.gate.entryTotals = s.gate.totals
  ticks : u.gate.ticks = 0
  sessions : ∀ x ∈ u.host.sessions, x.isOpen = false
  owner : u.host.owner = none
  selects : ∀ k, k < 6 → (u.conv (24 + k)).selects = some k
  fault : u.gate.fault = !s.belvedereUp
  update : u.sec.update = none
  engine : u.sec.engine = List.replicate 16 none
  log : u.store.log = s.store.log
  journal : u.store.journal = s.store.journal

/-- The lanes of the belvedere as the vault takes them. -/
def State.tallyLanes (s : State) : List Converter :=
  (List.range 30).map (fun u => if u < 24 then {} else (s.conv u).forTally (u - 24))

theorem State.tallyLanes_selects (s : State) {k : Nat} (lane : k < 6) : (nth s.tallyLanes (24 + k)).selects = some k := by
  have past : ¬24 + k < 24 := by omega
  unfold State.tallyLanes nth
  rw [List.getD_eq_getElem?_getD, List.getElem?_map, List.getElem?_range (by omega)]
  simp [past, Converter.forTally]

theorem State.cutTransition_frame (s : State) : s.cutTransition = { s with
    sec := { s.sec with lifecycle := s.cutTransition.sec.lifecycle }, draws := s.cutTransition.draws } := by
  unfold State.cutTransition
  split
  · rfl
  · dsimp only
    split <;> rfl

/-- The state in which the vault has taken over, before its lanes settle (R359, R360). -/
def State.handed (s : State) (cause : GatehouseCause) : State :=
  let r := s.cutTransition.enterReset s.power.cause s.now
  { r with
    phase := .gatehouse
    host := { r.host with h1Uart := s.host.h1Uart, bootsel := s.host.bootsel }
    channels := (List.range 24).map (fun n => if n < 6 then (s.openEpisode cause).channel n else {})
    converters := s.tallyLanes
    dies := (List.range 8).map (fun d => if d = 5 then s.die 5 else {})
    samplePhase := s.samplePhase
    gate := s.openEpisode cause
    power := { r.power with reset := none, causeFlags := s.power.causeFlags } }

theorem State.enterGatehouse_eq (s : State) (cause : GatehouseCause) : s.enterGatehouse cause =
    (List.range 6).foldl (fun (u : State) k => u.disturb (24 + k)) (s.abandonUpdate.handed cause) := rfl

/-- With its update abandoned, a state is taken over. -/
theorem State.handed_leaves (s : State) (cause : GatehouseCause) :
    Gatehouse s ((List.range 6).foldl (fun (u : State) k => u.disturb (24 + k)) (s.handed cause)) cause := by
  obtain ⟨episodes, totals⟩ := s.copies_gate
  have held := s.cutTransition.enterReset_held s.power.cause s.now
  have keeps := s.cutTransition.enterReset_keeps s.power.cause s.now
  have log : (s.cutTransition.enterReset s.power.cause s.now).store.log = s.store.log :=
    keeps.log.trans (by rw [State.cutTransition_frame])
  have journal : (s.cutTransition.enterReset s.power.cause s.now).store.journal = s.store.journal :=
    held.journal.trans (by rw [State.cutTransition_frame])
  obtain ⟨channels, converters, frame, duties⟩ := settleLanes_frame (List.range 6) (s.handed cause)
  rw [frame]
  exact {
    phase := rfl
    cause := rfl
    episodes := congrArg (fun n => sat 32 (n + 1)) episodes
    totals := totals
    entryTotals := totals
    ticks := rfl
    sessions := held.sessions
    owner := rfl
    selects := fun k lane => (congrArg (fun x => x.2.1) (nth_of_map duties (24 + k))).trans (s.tallyLanes_selects lane)
    fault := rfl
    update := rfl
    engine := held.engine
    log := log
    journal := journal }

/-- Abandoning an update leaves what the vault takes over, but for the record of it in the event log. -/
theorem State.abandonUpdate_leaves (s : State) : s.abandonUpdate.gate = s.gate ∧ s.abandonUpdate.belvedereUp = s.belvedereUp ∧
    s.abandonUpdate.store.journal = s.store.journal ∧ (s.sec.update = none → s.abandonUpdate.store.log = s.store.log) := by
  refine ⟨by rw [State.abandonUpdate_frame], ?_, ?_, fun closed => ?_⟩
  · rw [State.abandonUpdate_frame]
    rfl
  · unfold State.abandonUpdate
    split
    · rfl
    · exact State.raise_journal ..
  · unfold State.abandonUpdate
    rw [closed]

section Entry
variable {t : Nat} {cause : GatehouseCause} {s : State}

theorem gatehouseEntry_takesOver (linked : s.linked = true) (case_ : (s.tickTo t).gateCause cause = true) :
    Leads (.gatehouseEntry t cause) s (fun u =>
      u.phase = .gatehouse ∧ u.gate.cause = causeByte cause ∧ u.gate.episodes = sat 32 (s.gate.episodes + 1) ∧ u.gate.totals = s.gate.totals ∧
      u.gate.entryTotals = s.gate.totals ∧ u.gate.ticks = 0 ∧ (∀ x ∈ u.host.sessions, x.isOpen = false) ∧ u.host.owner = none ∧
      (∀ k, k < 6 → (u.conv (24 + k)).selects = some k) ∧ (u.gate.fault = true ↔ s.belvedereUp = false) ∧ u.sec.update = none ∧
      u.sec.engine = List.replicate 16 none ∧ (s.sec.update = none → u.store.log = s.store.log) ∧ u.store.journal = s.store.journal) := by
  have both : ((s.tickTo t).linked && (s.tickTo t).gateCause cause) = true := Bool.and_eq_true_iff.2 ⟨linked, case_⟩
  obtain ⟨gate, belvedere, journal, log⟩ := (s.tickTo t).abandonUpdate_leaves
  have leaves := (s.tickTo t).abandonUpdate.handed_leaves cause
  rw [← State.enterGatehouse_eq] at leaves
  refine ⟨_, congrArg Host.Outcome.next (if_pos both), leaves.phase, leaves.cause, ?_, ?_, ?_, leaves.ticks, leaves.sessions, leaves.owner,
    leaves.selects, ?_, leaves.update, leaves.engine, fun closed => leaves.log.trans (log closed), leaves.journal.trans journal⟩
  · rw [leaves.episodes, gate, State.tickTo_gate]
  · rw [leaves.totals, gate, State.tickTo_gate]
  · rw [leaves.entryTotals, gate, State.tickTo_gate]
  · have same : (s.tickTo t).belvedereUp = s.belvedereUp := rfl
    rw [leaves.fault, belvedere, same, Bool.not_eq_true']

theorem gatehouseEntry_idle (none_ : (s.linked && (s.tickTo t).gateCause cause) = false) :
    exec (.gatehouseEntry t cause) s = .next (s.tickTo t) := by
  have none_' : ((s.tickTo t).linked && (s.tickTo t).gateCause cause) = false := none_
  exact congrArg Host.Outcome.next (if_neg (by rw [none_']; decide))

/-- A failure of the belvedere in gatehouse mode (R360). -/
theorem dieFailure_gatehouse (fault : DieFault) (gatehouse : s.phase = .gatehouse) :
    exec (.dieFailure t 5 fault) s = .next { s.tickTo t with gate := { s.gate with fault := true } } := by
  have off : ¬((decide ((s.tickTo t).phase = .ready) || decide ((s.tickTo t).phase = .running)) && decide (((s.tickTo t).die 5).state ≠ 1) &&
      (s.tickTo t).dieCause 5 fault) = true := by
    rw [State.tickTo_phase, gatehouse]
    simp
  have here : (decide ((s.tickTo t).phase = .gatehouse) && decide (5 = 5)) = true := by
    rw [State.tickTo_phase, gatehouse]
    rfl
  exact congrArg Host.Outcome.next ((if_neg off).trans (if_pos here))

end Entry

/-! ### The tally (R361) -/

/-- What a total holds with its residue. -/
def GatehouseState.held (g : GatehouseState) (k : Nat) : Rat := ((nth g.totals k : Nat) : Rat) + nth g.rest k

/-- Whether the gatehouse state has its six totals, each with a residue. -/
structure GatehouseState.Sums (g : GatehouseState) : Prop where
  totals : g.totals.length = 6
  rest : g.rest.length = 6
  positive : ∀ i, 0 ≤ nth g.rest i

/-- What energy that joins total `k` leaves. -/
structure Adds (k : Nat) (g h : GatehouseState) : Prop where
  sums : h.Sums
  others : ∀ j, j ≠ k → nth h.totals j = nth g.totals j ∧ nth h.rest j = nth g.rest j
  copy : g.totalsCopy = g.totals → h.totalsCopy = h.totals
  frame : h = { g with totals := h.totals, totalsCopy := h.totalsCopy, rest := h.rest }

/-- A total and its residue set, in both copies. -/
def GatehouseState.setTotal (g : GatehouseState) (k total : Nat) (residue : Rat) : GatehouseState :=
  { g with
    totals := alter g.totals k (fun _ => total), totalsCopy := alter g.totalsCopy k (fun _ => total)
    rest := alter g.rest k (fun _ => residue) }

/-- The total that energy joins, where it has room, and its residue. -/
theorem State.addTotal_gate (s : State) (k : Nat) (mwh : Rat) : ∃ total,
    (s.addTotal k mwh).gate = s.gate.setTotal k total (nth s.gate.rest k + mwh - (nth s.gate.rest k + mwh).floor) ∧
      (nth s.gate.totals k + (nth s.gate.rest k + mwh).floor.toNat < 2 ^ 48 →
        total = nth s.gate.totals k + (nth s.gate.rest k + mwh).floor.toNat) := by
  unfold State.addTotal
  extract_lets x sum d
  have gate : d.2.gate = s.gate := by
    unfold d
    split <;> rfl
  refine ⟨d.1, congrArg (fun g : GatehouseState => g.setTotal k d.1 (x - x.floor)) gate, fun fits => ?_⟩
  unfold d
  rw [if_pos fits]

theorem GatehouseState.setTotal_adds {g : GatehouseState} {k : Nat} (sums : g.Sums) (part : k < 6) (total : Nat) {residue : Rat}
    (positive : 0 ≤ residue) : Adds k g (g.setTotal k total residue) where
  sums.totals := by simpa [GatehouseState.setTotal, alter] using sums.totals
  sums.rest := by simpa [GatehouseState.setTotal, alter] using sums.rest
  sums.positive i := by
    by_cases mine : i = k
    · have inside : k < g.rest.length := by rw [sums.rest]; exact part
      rw [mine, GatehouseState.setTotal, nth_alter _ _ _ inside]
      exact positive
    · rw [GatehouseState.setTotal, nth_alter_ne _ _ _ _ mine]
      exact sums.positive i
  others j other := ⟨nth_alter_ne _ _ _ _ other, nth_alter_ne _ _ _ _ other⟩
  copy same := congrArg (fun l => alter l k (fun _ => total)) same
  frame := rfl

theorem State.addTotal_adds {s : State} {k : Nat} (sums : s.gate.Sums) (part : k < 6) (mwh : Rat) :
    Adds k s.gate (s.addTotal k mwh).gate := by
  obtain ⟨total, gate, -⟩ := s.addTotal_gate k mwh
  rw [gate]
  exact GatehouseState.setTotal_adds sums part total (sub_nonneg.2 (Rat.floor_le _))

/-- Energy that is not negative joins its total whole, where the total has room for it (R361). -/
theorem State.addTotal_held {s : State} {k : Nat} {mwh : Rat} (sums : s.gate.Sums) (part : k < 6) (gains : 0 ≤ mwh)
    (room : ((nth s.gate.totals k : Nat) : Rat) + mwh < 2 ^ 47) (residue : nth s.gate.rest k < 1) :
    (s.addTotal k mwh).gate.held k = s.gate.held k + mwh := by
  obtain ⟨total, gate, sum⟩ := s.addTotal_gate k mwh
  generalize joined : nth s.gate.rest k + mwh = x at gate sum
  have floor : (x.floor : Rat) ≤ x := Rat.floor_le x
  have whole : ((x.floor.toNat : Nat) : Rat) = x.floor := by
    have up : 0 ≤ x.floor := Rat.le_floor_iff.2 (by rw [← joined]; simpa using add_nonneg (sums.positive k) gains)
    exact_mod_cast Int.toNat_of_nonneg up
  have fits : nth s.gate.totals k + x.floor.toNat < 2 ^ 48 := by
    have below : ((nth s.gate.totals k + x.floor.toNat : Nat) : Rat) < 2 ^ 48 := by
      rw [Nat.cast_add, whole]
      linarith
    exact_mod_cast below
  have inTotals : k < s.gate.totals.length := by rw [sums.totals]; exact part
  have inRest : k < s.gate.rest.length := by rw [sums.rest]; exact part
  rw [gate, GatehouseState.held, GatehouseState.setTotal, nth_alter _ _ _ inTotals, nth_alter _ _ _ inRest, sum fits, Nat.cast_add, whole,
    GatehouseState.held, ← joined]
  ring

/-! ### The energy of an element (R361) -/

/-- What the energy of element `i` leaves. -/
structure AddsElement (i : Nat) (g h : GatehouseState) : Prop where
  sums : h.Sums
  others : ∀ j, j ≠ 2 * i → j ≠ 2 * i + 1 → nth h.totals j = nth g.totals j ∧ nth h.rest j = nth g.rest j
  copy : g.totalsCopy = g.totals → h.totalsCopy = h.totals
  frame : h = { g with totals := h.totals, totalsCopy := h.totalsCopy, rest := h.rest }

theorem State.addElement_adds {s : State} {i : Nat} (sums : s.gate.Sums) (part : i < 3) (mwh : Rat) :
    AddsElement i s.gate (s.addElement i mwh).gate := by
  unfold State.addElement
  split
  · obtain ⟨sums, others, copy, frame⟩ := State.addTotal_adds sums (by omega : 2 * i < 6) mwh
    exact ⟨sums, fun j inn _ => others j inn, copy, frame⟩
  · obtain ⟨sums, others, copy, frame⟩ := State.addTotal_adds sums (by omega : 2 * i + 1 < 6) (-mwh)
    exact ⟨sums, fun j _ out => others j out, copy, frame⟩

/-- Totals that are the same hold the same. -/
theorem GatehouseState.held_eq {g h : GatehouseState} {j : Nat} (same : nth h.totals j = nth g.totals j ∧ nth h.rest j = nth g.rest j) :
    h.held j = g.held j := by rw [GatehouseState.held, same.1, same.2, ← GatehouseState.held]

/-- The two directions of an element take its energy whole, where they have room (R361). -/
theorem State.addElement_held {s : State} {i : Nat} {mwh : Rat} (sums : s.gate.Sums) (part : i < 3)
    (roomIn : ((nth s.gate.totals (2 * i) : Nat) : Rat) + |mwh| < 2 ^ 47) (restIn : nth s.gate.rest (2 * i) < 1)
    (roomOut : ((nth s.gate.totals (2 * i + 1) : Nat) : Rat) + |mwh| < 2 ^ 47) (restOut : nth s.gate.rest (2 * i + 1) < 1) :
    (s.addElement i mwh).gate.held (2 * i) = s.gate.held (2 * i) + max mwh 0 ∧
      (s.addElement i mwh).gate.held (2 * i + 1) = s.gate.held (2 * i + 1) + max (-mwh) 0 := by
  unfold State.addElement
  by_cases gains : mwh ≥ 0
  · rw [if_pos gains, max_eq_left gains, max_eq_right (by linarith), add_zero]
    rw [abs_of_nonneg gains] at roomIn
    exact ⟨State.addTotal_held sums (by omega) gains roomIn restIn,
      GatehouseState.held_eq ((State.addTotal_adds sums (by omega) mwh).others _ (by omega))⟩
  · have loses : 0 ≤ -mwh := by linarith
    rw [if_neg gains, max_eq_right (by linarith), max_eq_left loses, add_zero]
    rw [abs_of_neg (by linarith)] at roomOut
    exact ⟨GatehouseState.held_eq ((State.addTotal_adds sums (by omega) (-mwh)).others _ (by omega)),
      State.addTotal_held sums (by omega) loses roomOut restOut⟩

/-! ### A tick of the tally (R361) -/

/-- The end of a tick leaves the totals. -/
theorem GatehouseState.nextTick_leaves (g : GatehouseState) : g.nextTick.totals = g.totals ∧ g.nextTick.rest = g.rest ∧
    g.nextTick.totalsCopy = g.totalsCopy ∧ g.nextTick.ticks = g.ticks ∧ g.nextTick.tickAt = g.tickAt + 160000 ∧
    g.nextTick.work = [0, 0, 0] := by
  unfold GatehouseState.nextTick
  dsimp only
  split <;> exact ⟨rfl, rfl, rfl, rfl, rfl, rfl⟩

/-- The states in which one element after the other has joined its totals. -/
def State.elements (s : State) : List Nat → State → State := fun l u => l.foldl (fun (u : State) i => u.addElement i (s.gate.energy i)) u

/-- The elements of a list join their totals; those of no element of it stay. -/
theorem State.elements_adds (s : State) {l : List Nat} (parts : ∀ i ∈ l, i < 3) {u : State} (sums : u.gate.Sums) :
    (s.elements l u).gate.Sums ∧
      (∀ i, i ∉ l → ∀ j, (j = 2 * i ∨ j = 2 * i + 1) →
        nth (s.elements l u).gate.totals j = nth u.gate.totals j ∧ nth (s.elements l u).gate.rest j = nth u.gate.rest j) ∧
      (u.gate.totalsCopy = u.gate.totals → (s.elements l u).gate.totalsCopy = (s.elements l u).gate.totals) ∧
      (s.elements l u).gate = { u.gate with
        totals := (s.elements l u).gate.totals, totalsCopy := (s.elements l u).gate.totalsCopy, rest := (s.elements l u).gate.rest } := by
  induction l generalizing u with
  | nil => exact ⟨sums, fun _ _ _ _ => ⟨rfl, rfl⟩, fun same => same, rfl⟩
  | cons k l ih =>
    have first := State.addElement_adds sums (parts k (by simp)) (s.gate.energy k)
    obtain ⟨sums', others, copy, frame⟩ := ih (fun i listed => parts i (by simp [listed])) first.sums
    refine ⟨sums', fun i out j of_ => ?_, fun same => copy (first.copy same), ?_⟩
    · simp only [List.mem_cons, not_or] at out
      obtain ⟨totals, rest⟩ := others i out.2 j of_
      obtain ⟨totals', rest'⟩ := first.others j (by omega) (by omega)
      exact ⟨totals.trans totals', rest.trans rest'⟩
    · have both := frame
      rw [first.frame] at both
      exact both

/-- Each of them takes its energy whole, where its totals have room. -/
theorem State.elements_held (s : State) {l : List Nat} (parts : ∀ i ∈ l, i < 3) (once : l.Nodup) {u : State} (sums : u.gate.Sums) {i : Nat}
    (listed : i ∈ l)
    (roomIn : ((nth u.gate.totals (2 * i) : Nat) : Rat) + |s.gate.energy i| < 2 ^ 47) (restIn : nth u.gate.rest (2 * i) < 1)
    (roomOut : ((nth u.gate.totals (2 * i + 1) : Nat) : Rat) + |s.gate.energy i| < 2 ^ 47) (restOut : nth u.gate.rest (2 * i + 1) < 1) :
    (s.elements l u).gate.held (2 * i) = u.gate.held (2 * i) + max (s.gate.energy i) 0 ∧
      (s.elements l u).gate.held (2 * i + 1) = u.gate.held (2 * i + 1) + max (-s.gate.energy i) 0 := by
  induction l generalizing u with
  | nil => cases listed
  | cons k l ih =>
    have part := parts k (by simp)
    have parts' : ∀ i ∈ l, i < 3 := fun i more => parts i (by simp [more])
    have first := State.addElement_adds sums part (s.gate.energy k)
    obtain ⟨fresh, once'⟩ := List.nodup_cons.1 once
    by_cases mine : i = k
    · subst mine
      obtain ⟨-, others, -⟩ := s.elements_adds parts' first.sums
      obtain ⟨inn, out⟩ := State.addElement_held sums part roomIn restIn roomOut restOut
      exact ⟨(GatehouseState.held_eq (others i fresh _ (.inl rfl))).trans inn, (GatehouseState.held_eq (others i fresh _ (.inr rfl))).trans out⟩
    · have inn := first.others (2 * i) (by omega) (by omega)
      have out := first.others (2 * i + 1) (by omega) (by omega)
      obtain ⟨heldIn, heldOut⟩ := ih parts' once' first.sums (List.mem_of_ne_of_mem mine listed) (by rwa [inn.1]) (by rwa [inn.2])
        (by rwa [out.1]) (by rwa [out.2])
      rw [GatehouseState.held_eq inn] at heldIn
      rw [GatehouseState.held_eq out] at heldOut
      exact ⟨heldIn, heldOut⟩

/-- A number of a list of numbers, read as a list of fractions. -/
theorem nth_cast (l : List Nat) (k : Nat) : nth (do let a ← l; pure (a : Rat)) k = ((nth l k : Nat) : Rat) := by
  have same : (do let a ← l; pure (a : Rat)) = l.map (fun a : Nat => (a : Rat)) := bind_pure_comp ..
  rw [same]
  exact nth_map l _ k Nat.cast_zero

section TallyTick
variable {t : Nat} {s : State}

theorem tallyTick_off (off : s.phase ≠ .gatehouse) : exec (.tallyTick t) s = .next (s.tickTo t) :=
  congrArg Host.Outcome.next (if_neg (by simp [off]))

variable (gatehouse : s.phase = .gatehouse) (due : s.gate.tickAt ≤ max s.now t)
include gatehouse due

theorem tallyTick_run : exec (.tallyTick t) s =
    .next { (if (s.tickTo t).tallies then (s.tickTo t).tally else s.tickTo t) with
      gate := (if (s.tickTo t).tallies then (s.tickTo t).tally else s.tickTo t).gate.nextTick } := by
  have both : (decide ((s.tickTo t).phase = .gatehouse) && decide ((s.tickTo t).gate.tickAt ≤ (s.tickTo t).now)) = true := by
    simp [gatehouse, due]
  exact congrArg Host.Outcome.next (if_pos both)

theorem tallyTick_idles (silent : (s.tickTo t).tallies = false) : Leads (.tallyTick t) s (fun u =>
    u.gate = s.gate.nextTick ∧ u.gate.totals = s.gate.totals ∧ u.gate.ticks = s.gate.ticks) := by
  have run := tallyTick_run gatehouse due
  rw [if_neg (by rw [silent]; decide)] at run
  exact ⟨_, run, rfl, s.gate.nextTick_leaves.1, s.gate.nextTick_leaves.2.2.2.1⟩

theorem tallyTick_counts (totals : s.gate.totals.length = 6) (rest : s.gate.rest.length = 6) (positive : ∀ i, 0 ≤ nth s.gate.rest i)
    (tallies : (s.tickTo t).tallies = true) : Leads (.tallyTick t) s (fun u =>
      u.gate.ticks = sat 32 (s.gate.ticks + 1) ∧ u.gate.tickAt = s.gate.tickAt + 160000 ∧ u.gate.work = [0, 0, 0] ∧
      (s.gate.totalsCopy = s.gate.totals → u.gate.totalsCopy = u.gate.totals) ∧
      ∀ i, i < 3 → ((nth s.gate.totals (2 * i) : Nat) : Rat) + |s.gate.energy i| < 2 ^ 47 → nth s.gate.rest (2 * i) < 1 →
        ((nth s.gate.totals (2 * i + 1) : Nat) : Rat) + |s.gate.energy i| < 2 ^ 47 → nth s.gate.rest (2 * i + 1) < 1 →
        u.gate.held (2 * i) = s.gate.held (2 * i) + max (s.gate.energy i) 0 ∧
        u.gate.held (2 * i + 1) = s.gate.held (2 * i + 1) + max (-s.gate.energy i) 0) := by
  have run := tallyTick_run gatehouse due
  rw [if_pos tallies] at run
  have parts : ∀ i ∈ List.range 3, i < 3 := fun i => List.mem_range.1
  have sums : (s.tickTo t).gate.Sums := ⟨totals, rest, positive⟩
  have held := fun i => (s.tickTo t).elements_held (i := i) parts List.nodup_range sums
  obtain ⟨-, -, copy, frame⟩ := (s.tickTo t).elements_adds parts sums
  have gate : (s.tickTo t).tally.gate =
      { ((s.tickTo t).elements (List.range 3) (s.tickTo t)).gate with
        ticks := sat 32 (((s.tickTo t).elements (List.range 3) (s.tickTo t)).gate.ticks + 1) } := rfl
  generalize ((s.tickTo t).elements (List.range 3) (s.tickTo t)).gate = h at held copy frame gate
  obtain ⟨totals', rest', copy', ticks', tickAt', work'⟩ := (s.tickTo t).tally.gate.nextTick_leaves
  have same : ∀ j, (s.tickTo t).tally.gate.nextTick.held j = h.held j := fun j =>
    GatehouseState.held_eq ⟨by rw [totals', gate], by rw [rest', gate]⟩
  refine ⟨_, run, ?_, ?_, work', fun equal => ?_, fun i part roomIn restIn roomOut restOut => ?_⟩
  · exact ticks'.trans (by rw [gate, frame]; rfl)
  · exact tickAt'.trans (by rw [gate, frame]; rfl)
  · exact copy'.trans (((congrArg GatehouseState.totalsCopy gate).trans (copy equal)).trans
      ((congrArg GatehouseState.totals gate).symm.trans totals'.symm))
  · obtain ⟨inn, out⟩ := held i (List.mem_range.2 part) roomIn restIn roomOut restOut
    exact ⟨(same _).trans inn, (same _).trans out⟩

end TallyTick

end Sys2Proof.Machine
end

section
/-! SUPPORT. Gatehouse mode: the obligation. -/

open Sys2Proof.Machine

/-- Settles O54: the vault opens its episode over the totals it holds, and each element of a tick joins one of its two totals, which no other
element touches. -/
theorem gatehouseTallies : Obligations.GatehouseTallies := by
  unfold Obligations.GatehouseTallies
  refine ⟨fun t cause s => ⟨fun linked case_ _ => gatehouseEntry_takesOver linked case_, gatehouseEntry_idle⟩,
    fun t s totals rest positive => ⟨fun gatehouse due tallies => ?_, tallyTick_idles, tallyTick_off⟩,
    fun t cause s => dieFailure_gatehouse cause⟩
  simp only [nth_cast]
  exact tallyTick_counts gatehouse due totals rest positive tallies

end

section
/-! SUPPORT. ATTEST and the signatures of quotes (R402-R404, R421). -/

namespace Sys2Proof.Machine

/-! ### What a signing job touches -/

@[simp] theorem length_fit (k : Nat) (bs : List Byte) : (fit k bs).length = k := by
  simp only [fit, List.length_append, List.length_take, length_zeros]
  omega

@[simp] theorem length_octets (l : List Nat) : (octets l).length = l.length := by
  have ones : (l.map (le 1)).map List.length = List.replicate l.length 1 := by
    rw [List.map_map]
    exact List.eq_replicate_iff.2 ⟨by simp, by simp⟩
  simp [octets, List.length_flatten, ones]

/-- A quote is 256 bytes (Table 13.6). -/
theorem State.length_quoteBytes (s : State) (nonce : List Byte) : (s.quoteBytes nonce).length = 256 := by
  unfold State.quoteBytes
  simp only [List.length_append, length_le, length_octets, length_fit, length_zeros, List.length_cons, List.length_nil]

/-- The key of the identity, as it crosses the link, is a matter of the vault's state alone (R402, R403). -/
theorem State.identityAcross_of_sec {s u : State} (same : u.sec = s.sec) : u.identityAcross = s.identityAcross := by
  simp only [State.identityAcross, State.identityOtp, State.rootKey, same]

/-- Where the queue has room and no record waits behind it, a job joins it, and the engine takes up the key if the vault can sign. -/
theorem State.queueJob_room {s : State} (job : SignJob) (room : s.sec.signing.length < 256) (none_ : s.sec.backlog = []) :
    s.queueJob job = { s with sec := { s.sec with
      signing := s.sec.signing ++ [job]
      engine := if s.canSign then alter s.sec.engine 0 (fun _ => s.identityAcross) else s.sec.engine } } := by
  have taken : State.takeUp { s with sec := { s.sec with signing := s.sec.signing ++ [job] } } = { s with sec := { s.sec with
      signing := s.sec.signing ++ [job]
      engine := if s.canSign then alter s.sec.engine 0 (fun _ => s.identityAcross) else s.sec.engine } } := by
    have waits : (s.sec.signing ++ [job]).isEmpty = false := by simp
    cases signs : s.canSign with
    | true => exact if_pos (Bool.and_eq_true_iff.2 ⟨signs, by rw [waits]; rfl⟩)
    | false =>
      refine if_neg fun both => ?_
      have other : s.canSign = true := (Bool.and_eq_true_iff.1 both).1
      rw [signs] at other
      cases other
  have few : ∀ engine, State.unsignedRecords { s with sec := { s.sec with signing := s.sec.signing ++ [job], engine := engine } } ≤ 256 := by
    intro engine
    simp only [State.unsignedRecords, none_, List.append_nil]
    refine (List.length_filter_le ..).trans ?_
    rw [List.length_append]
    exact room
  have run : s.queueJob job = State.raiseBacklog (State.takeUp { s with sec := { s.sec with signing := s.sec.signing ++ [job] } }) :=
    congrArg (fun v : State => v.takeUp.raiseBacklog) (if_pos room)
  rw [run, taken]
  exact if_pos (Bool.or_eq_true_iff.2 (.inr (decide_eq_true (few _))))

/-! ### ATTEST (R421) -/

/-- A quote is formed and asks for its signature. -/
def State.formQuote (s : State) (r : Req) (tag : Nat) : State :=
  (s.setSession r.session (fun x => { x with quote := some { tag := tag, bytes := s.quoteBytes ((r.payload.drop 4).take (r.u 1 1)) } })).queueJob
    (.quote r.session tag)

section Attest
variable {t : Nat} {p : Port} {s : State} {q : Request}

section Quote
variable (called : attestQuoteRow.calls t p s q = true)
include called

theorem attestQuote_busy (waits : (s.session (Req.of p q).session).quote.isSome = true) :
    Ends (.attestQuote t p) s (Req.of p q) stBusy [] (s.taken t p) :=
  ends_of_body rfl called (judged_hit (by rwa [State.taken_session]))

variable (free : (s.session (Req.of p q).session).quote = none)
include free

theorem attestQuote_denied (anonymous : s.sec.identity = false) : Ends (.attestQuote t p) s (Req.of p q) stDenied [] (s.taken t p) := by
  have none_ : ((s.taken t p).session (Req.of p q).session).quote.isSome = false := by rw [State.taken_session, free]; rfl
  have bare : (!(s.taken t p).sec.identity) = true := by rw [State.take_sec, State.tickTo_sec, anonymous]; rfl
  exact ends_of_body rfl called ((judged_miss none_).trans (judged_hit bare))

theorem attestQuote_queues (known : s.sec.identity = true) (tags : s.opRoom (Req.of p q).session = true)
    (room : s.sec.signing.length < 256) (behind : s.sec.backlog = []) (inv : s.Inv) :
    Answers (.attestQuote t p) s (Req.of p q) stAccepted (le 2 s.host.nextTag) (fun u =>
      (u.session (Req.of p q).session).quote = some {
        tag := s.host.nextTag
        bytes := (s.taken t p).quoteBytes (((Req.of p q).payload.drop 4).take ((Req.of p q).u 1 1)) } ∧
      u.sec = { (s.taken t p).sec with
        signing := s.sec.signing ++ [.quote (Req.of p q).session s.host.nextTag]
        engine := if (s.taken t p).canSign then alter s.sec.engine 0 (fun _ => s.identityAcross) else s.sec.engine } ∧
      ∀ j, j ≠ (Req.of p q).session → u.session j = s.session j) := by
  have none_ : ((s.taken t p).session (Req.of p q).session).quote.isSome = false := by rw [State.taken_session, free]; rfl
  have named : (!(s.taken t p).sec.identity) = false := by rw [State.take_sec, State.tickTo_sec, known]; rfl
  have tag : (s.taken t p).host.nextTag = s.host.nextTag := by simp
  have sec : (s.taken t p).sec = s.sec := by simp
  have tags' : (s.taken t p).opRoom (Req.of p q).session = true := by simpa using tags
  have part := session_of_calls called inv
  have others : ∀ j, (s.taken t p).session j = s.session j := State.taken_session s t p
  have across : (s.taken t p).identityAcross = s.identityAcross := State.identityAcross_of_sec sec
  have passes : attestQuoteRow.body (Req.of p q) (s.taken t p) = accept (Req.of p q) (s.taken t p) (fun tag v => v.formQuote (Req.of p q) tag) :=
    (judged_miss none_).trans (judged_miss named)
  have body := passes.trans (accept_room tags')
  rw [State.startOp_frame, tag] at body
  refine ⟨_, ends_of_body rfl called body, ?_⟩
  generalize s.taken t p = v at sec part others across
  unfold State.formQuote
  rw [State.queueJob_room _ (by simpa [State.setSession, sec] using room) (by simpa [State.setSession, sec] using behind)]
  refine ⟨?_, ?_, fun j other => ?_⟩
  · exact congrArg Session.quote (State.session_setSession _ _ _ part)
  · rw [← sec, ← across]
    rfl
  · exact (State.session_setSession_ne _ _ _ _ other).trans (others j)

end Quote

theorem attestFetch_signed {x : Quote} (called : attestFetchRow.calls t p s q = true) (held : (s.session (Req.of p q).session).quote = some x)
    (signed : x.signed = true) (inv : s.Inv) : Answers (.attestFetch t p) s (Req.of p q) stOk x.bytes (fun u =>
      (u.session (Req.of p q).session).quote = none ∧ (∀ j, j ≠ (Req.of p q).session → u.session j = s.session j) ∧
      u.sec = (s.taken t p).sec) := by
  have part := session_of_calls called inv
  have body : attestFetchRow.body (Req.of p q) (s.taken t p) =
      .done stOk x.bytes ((s.taken t p).setSession (Req.of p q).session (fun y => { y with quote := none })) := by
    unfold attestFetchRow
    dsimp only
    rw [State.taken_session, held]
    exact if_pos signed
  refine ⟨_, ends_of_body rfl called body, ?_, fun j other => ?_, rfl⟩
  · rw [State.session_setSession _ _ _ part]
  · rw [State.session_setSession_ne _ _ _ _ other, State.taken_session]

theorem attestFetch_unsigned {x : Quote} (called : attestFetchRow.calls t p s q = true)
    (held : (s.session (Req.of p q).session).quote = some x) (unsigned : x.signed = false) :
    Ends (.attestFetch t p) s (Req.of p q) stWrongState [] (s.taken t p) := by
  refine ends_of_body rfl called ?_
  unfold attestFetchRow
  dsimp only
  rw [State.taken_session, held]
  exact if_neg (by rw [unsigned]; decide)

theorem attestPublicKey_answers (called : attestPublicKeyRow.calls t p s q = true) :
    Ends (.attestPublicKey t p) s (Req.of p q) stOk
      (le 2 1 ++ zeros 2 ++ le 16 Config.partId ++ le 4 (if s.sec.identity then 65537 else 0) ++
        (if s.sec.identity then be 512 (Config.rsaModulus s.sec.identityDraw) else zeros 512)) (s.taken t p) := by
  have sec : (s.taken t p).sec = s.sec := by simp
  refine ends_of_body rfl called ?_
  unfold attestPublicKeyRow
  dsimp only
  rw [sec]

section Certificate
variable (called : attestCertificateRow.calls t p s q = true)
include called

theorem attestCertificate_none (bare : s.store.boot.certificate = []) :
    Ends (.attestCertificate t p) s (Req.of p q) stWrongState [] (s.taken t p) := by
  have store : (s.taken t p).store = s.store := by simp
  exact ends_of_body rfl called (judged_hit (by rw [store, bare]; rfl))

theorem attestCertificate_some (held : s.store.boot.certificate ≠ []) :
    Ends (.attestCertificate t p) s (Req.of p q) stOk s.store.boot.certificate (s.taken t p) := by
  have store : (s.taken t p).store = s.store := by simp
  have some_ : (s.taken t p).store.boot.certificate.isEmpty = false := by rw [store]; simpa using held
  exact ends_of_body rfl called ((judged_miss some_).trans (by rw [store]; rfl))

end Certificate
end Attest

/-! ### The signature (R402-R404) -/

/-- The vault takes up the key of a job that waits. -/
theorem State.takeUp_waits {s : State} (signs : s.canSign = true) (waits : s.sec.signing ≠ []) :
    s.takeUp = { s with sec := { s.sec with engine := alter s.sec.engine 0 (fun _ => s.identityAcross) } } :=
  if_pos (Bool.and_eq_true_iff.2 ⟨signs, by simpa using waits⟩)

/-- With none, the engine stays as it is. -/
theorem State.takeUp_none {s : State} (none_ : s.sec.signing = []) : s.takeUp = s :=
  if_neg (by simp [none_])

/-- An operation that completes leaves the quotes. -/
theorem State.completeOp_quote (s : State) (tag status : Nat) (detail : List Byte) (k : Nat) :
    ((s.completeOp tag status detail).session k).quote = (s.session k).quote := by
  unfold State.completeOp
  split
  · rfl
  · exact nth_of_map (g := Session.quote) (map_alter (by rw [Session.offer_frame])) k

/-- The quote of a tag, signed. -/
def Quote.sign (x : Quote) (tag : Nat) (signature : List Byte) : Quote :=
  if x.tag = tag then { x with bytes := x.bytes ++ fit 512 signature, signed := true } else x

/-- A signed quote completes its operation, and touches nothing else of the vault. -/
theorem State.signQuote_leaves {s : State} {k : Nat} (tag : Nat) (signature : List Byte) (part : k < s.host.sessions.length) :
    (s.signQuote k tag signature).sec = s.sec ∧ (∀ o ∈ (s.signQuote k tag signature).host.ops, o.tag ≠ tag) ∧
      ((s.signQuote k tag signature).session k).quote = (s.session k).quote.map (fun x => x.sign tag signature) := by
  refine ⟨?_, fun o left => State.completeOp_gone left, ?_⟩
  · unfold State.signQuote
    rw [State.completeOp_frame]
    rfl
  · exact (State.completeOp_quote ..).trans (congrArg Session.quote (State.session_setSession _ _ _ part))

section Sign
variable {t k tag : Nat} {rest : List SignJob} {x : Quote} {s : State}

/-- The next job, a quote: it is signed with the key in the engine, which is cleared; the queue goes on. -/
theorem State.signNext_quote (jobs : s.sec.signing = .quote k tag :: rest) (behind : s.sec.backlog = [])
    (part : k < s.host.sessions.length) (held : (s.session k).quote = some x) (mine : x.tag = tag) :
    s.signNext.sec.signing = rest ∧ (∀ o ∈ s.signNext.host.ops, o.tag ≠ tag) ∧ (rest = [] → nth s.signNext.sec.engine 0 = none) ∧
      ∃ y, (s.signNext.session k).quote = some y ∧ y.signed = true ∧ y.bytes = x.bytes ++ fit 512 (s.signature x.bytes).1 := by
  have message : s.messageOf (.quote k tag) = x.bytes := by
    unfold State.messageOf
    simp [held, mine, Option.filter]
  unfold State.signNext
  split
  · next none_ => rw [jobs] at none_; cases none_
  next job more waits =>
  rw [jobs] at waits
  cases waits
  extract_lets signed _ _ queued _ counted quoted
  have signing : counted.sec.signing = rest := by
    have alone : rest ++ s.sec.backlog.take 1 = rest := by rw [behind, List.take_nil, List.append_nil]
    unfold counted
    split <;> exact alone
  have engine : nth counted.sec.engine 0 = none := by
    unfold counted
    split <;> exact nth_cleared ..
  have sessions : counted.host.sessions = s.host.sessions := by
    unfold counted
    split <;> rfl
  have session : counted.session k = s.session k := by rw [State.session, sessions, ← State.session]
  obtain ⟨sec, ops, quote⟩ := State.signQuote_leaves (s := counted) tag signed.1 (by rwa [sessions])
  have taken := quoted.takeUp_frame
  rw [taken]
  refine ⟨(congrArg SecurityState.signing sec).trans signing, ops, fun last => ?_, _, quote.trans (by rw [session, held]; rfl), ?_, ?_⟩
  · rw [← taken, State.takeUp_none ((congrArg SecurityState.signing sec).trans (signing.trans last))]
    exact (congrArg (fun x => nth (SecurityState.engine x) 0) sec).trans engine
  · simp [Quote.sign, mine]
  · simp [Quote.sign, mine, signed, message]

theorem signatureComplete_signs (on : s.firmware = true) (known : s.sec.identity = true) (runs : s.sec.stopped = false)
    (reached : s.linkLost 7 = false) (jobs : s.sec.signing = .quote k tag :: rest) (behind : s.sec.backlog = []) (part : k < 8) (inv : s.Inv)
    (held : (s.session k).quote = some x) (mine : x.tag = tag) (slots : s.sec.engine.length = 16) :
    Leads (.signatureComplete t) s (fun u => u.sec.signing = rest ∧ (∀ o ∈ u.host.ops, o.tag ≠ tag) ∧ (rest = [] → nth u.sec.engine 0 = none) ∧
      ∃ y, (u.session k).quote = some y ∧ y.signed = true ∧
        y.bytes = x.bytes ++ fit 512 (match s.identityAcross with
          | some key => rsaSign (beNat (key.take 512)) (beNat (key.drop 512)) (le 64 (Config.random s.draws)) x.bytes
          | none => [])) := by
  have signs : (s.tickTo t).canSign = true := by
    have on' : (s.tickTo t).firmware = true := on
    have reached' : (s.tickTo t).linkLost 7 = false := reached
    simp [State.canSign, on', known, runs, reached']
  have taken : (s.tickTo t).takeUp = { s.tickTo t with sec := { s.sec with engine := alter s.sec.engine 0 (fun _ => s.identityAcross) } } :=
    State.takeUp_waits signs (by rw [State.tickTo_sec, jobs]; simp)
  have run : exec (.signatureComplete t) s = .next (s.tickTo t).takeUp.signNext := congrArg Host.Outcome.next (if_pos signs)
  have leaves := State.signNext_quote (s := (s.tickTo t).takeUp) (by rw [taken]; exact jobs) (by rw [taken]; exact behind)
    (by rw [taken]; exact part.trans_eq inv.sessions.symm) (by rw [taken]; exact held) mine
  have key : ((s.tickTo t).takeUp.signature x.bytes).1 = (match s.identityAcross with
      | some key => rsaSign (beNat (key.take 512)) (beNat (key.drop 512)) (le 64 (Config.random s.draws)) x.bytes
      | none => []) := by
    have slot : nth (alter s.sec.engine 0 (fun _ => s.identityAcross)) 0 = s.identityAcross := nth_alter _ _ _ (by rw [slots]; decide)
    unfold State.signature
    rw [taken]
    dsimp only
    rw [slot]
    rfl
  rw [key] at leaves
  exact ⟨_, run, leaves⟩

theorem signatureComplete_idle (cannot : s.canSign = false) : exec (.signatureComplete t) s = .next (s.tickTo t) := by
  have cannot' : (s.tickTo t).canSign = false := cannot
  exact congrArg Host.Outcome.next (if_neg (by rw [cannot']; decide))

end Sign

end Sys2Proof.Machine
end

section
/-! SUPPORT. ATTEST: the obligation. -/

open Sys2Proof.Machine

/-- Settles O47: a quote joins the signing queue, and its signature is made with the key that the engine took up across the link. -/
theorem quotesAreSigned : Obligations.QuotesAreSigned := by
  unfold Obligations.QuotesAreSigned
  exact ⟨fun t p s q => ⟨State.length_quoteBytes .., fun called => ⟨attestQuote_busy called, attestQuote_denied called, attestQuote_queues called⟩,
      fun x called held => ⟨attestFetch_signed called held, attestFetch_unsigned called held⟩, attestPublicKey_answers,
      fun called => ⟨attestCertificate_none called, attestCertificate_some called⟩⟩,
    fun t k tag rest x s => signatureComplete_signs, fun t s => signatureComplete_idle⟩

end

section
/-! SUPPORT. Firmware update (R417-R419): its requests, the erased slot and the verification. -/

namespace Sys2Proof.Machine

/-! ### FW_BEGIN (R417) -/

/-- The slot that is not active is erased for the update. -/
def State.eraseSpare (s : State) (r : Req) (tag : Nat) : State :=
  let k := s.spareSlot
  let s := s.setBoot (fun b => { b with slots := alter b.slots k (fun _ => {}) })
  { s with sec := { s.sec with update := some { session := r.session, length := r.u 0 4, slot := k, tag := tag } } }

/-- The slot that is not active is one of the two. -/
theorem State.spareSlot_lt (s : State) : s.spareSlot < 2 := by
  unfold State.spareSlot
  split <;> decide

section Requests
variable {t : Nat} {p : Port} {s : State} {q : Request}

/-- Taking a request leaves the store and the vault. -/
theorem State.taken_store_sec (s : State) (t : Nat) (p : Port) : (s.taken t p).store = s.store ∧ (s.taken t p).sec = s.sec := by simp

/-- Where a session has room for an operation, an accepted request takes the next tag, and the rest of the state is that before it. -/
theorem answers_accept {i : Instr} {row : Row} {f : Nat → State → State} (serves : exec i s = .next (row.serve t p s))
    (called : row.calls t p s q = true) (room : s.opRoom (Req.of p q).session = true)
    (body : row.body (Req.of p q) (s.taken t p) = accept (Req.of p q) (s.taken t p) f) :
    ∃ host : HostState, Ends i s (Req.of p q) stAccepted (le 2 s.host.nextTag) (f s.host.nextTag { s.taken t p with host := host }) := by
  have room' : (s.taken t p).opRoom (Req.of p q).session = true := by simpa using room
  have tag : (s.taken t p).host.nextTag = s.host.nextTag := by simp
  have accepted := body.trans (accept_room room')
  rw [State.startOp_frame, tag] at accepted
  exact ⟨_, ends_of_body serves called accepted⟩

/-- No trial is under way. -/
theorem noTrial_of_taken (steady : s.store.boot.trialState = 0) : decide ((s.taken t p).store.boot.trialState ≠ 0) = false := by
  rw [(s.taken_store_sec t p).1, steady]
  rfl

section Begin
variable (called : fwBeginRow.calls t p s q = true)
include called

theorem fwBegin_trial (trial : s.store.boot.trialState ≠ 0) : Ends (.fwBegin t p) s (Req.of p q) stWrongState [] (s.taken t p) :=
  ends_of_body rfl called (judged_hit (by rw [(s.taken_store_sec t p).1]; exact decide_eq_true trial))

variable (steady : s.store.boot.trialState = 0)
include steady

theorem fwBegin_busy (open_ : s.sec.update.isSome = true) : Ends (.fwBegin t p) s (Req.of p q) stBusy [] (s.taken t p) :=
  ends_of_body rfl called ((judged_miss (noTrial_of_taken steady)).trans
    (judged_hit (by rw [(s.taken_store_sec t p).2, open_]; rfl)))

theorem fwBegin_erases (closed : s.sec.update = none) (still : s.sec.ending = none) (serving : s.sec.lifecycle ≠ 4)
    (room : s.opRoom (Req.of p q).session = true) (slots : s.store.boot.slots.length = 2) :
    Answers (.fwBegin t p) s (Req.of p q) stAccepted (le 2 s.host.nextTag) (fun u =>
      u.slot s.spareSlot = {} ∧ u.slot (1 - s.spareSlot) = s.slot (1 - s.spareSlot) ∧ u.store.boot.active = s.store.boot.active ∧
      u.sec.update = some { session := (Req.of p q).session, length := (Req.of p q).u 0 4, slot := s.spareSlot, tag := s.host.nextTag }) := by
  obtain ⟨store, sec⟩ := s.taken_store_sec t p
  have idle : ((s.taken t p).sec.update.isSome || (s.taken t p).sec.ending.isSome) = false := by rw [sec, closed, still]; rfl
  have lives : decide ((s.taken t p).sec.lifecycle = 4) = false := by rw [sec]; exact decide_eq_false serving
  obtain ⟨host, ends⟩ := answers_accept (i := .fwBegin t p) (f := fun tag v => v.eraseSpare (Req.of p q) tag) rfl called room
    ((judged_miss (noTrial_of_taken steady)).trans ((judged_miss idle).trans (judged_miss lives)))
  generalize s.taken t p = v at ends store
  have spare : State.spareSlot { v with host := host } = s.spareSlot := congrArg (fun x : StoreState => if x.boot.active = 0 then 1 else 0) store
  have erased : (State.eraseSpare { v with host := host } (Req.of p q) s.host.nextTag).store.boot.slots =
      alter s.store.boot.slots s.spareSlot (fun _ => {}) := by
    rw [← spare, ← store]
    rfl
  have two := s.spareSlot_lt
  refine ⟨_, ends, ?_, ?_, ?_, ?_⟩
  · rw [State.slot, erased]
    exact nth_alter _ _ _ (by omega)
  · rw [State.slot, erased, nth_alter_ne _ _ _ _ (by omega), ← State.slot]
  · rw [← store]
    rfl
  · rw [← spare]
    rfl

end Begin

/-! ### FW_DATA (R418) -/

section Data

/-- Within the first 64 KiB the answer of FW_DATA depends on the update and on the request alone. -/
theorem fwDataRow_body {x : Update} (open_ : s.sec.update = some x) (short : x.data.length < 65536) : fwDataRow.body (Req.of p q) (s.taken t p) =
    judged [(!x.fits (Req.of p q), stBadParam), (s.sec.ending.isSome, stWrongState), (!x.erased, stBusy), (decide (0 % 2 = 1), stBusy)]
      (s.taken t p) (.done stOk (le 4 (x.data ++ (Req.of p q).payload.drop 4).length)
        { s.taken t p with sec := { (s.taken t p).sec with update := some { x with data := x.data ++ (Req.of p q).payload.drop 4 } } }) := by
  obtain ⟨-, sec⟩ := s.taken_store_sec t p
  unfold fwDataRow
  dsimp only
  rw [sec, open_]
  dsimp only
  rw [if_pos short, sec]

variable (called : fwDataRow.calls t p s q = true)
include called

theorem fwData_closed (closed : s.sec.update = none) : Ends (.fwData t p) s (Req.of p q) stWrongState [] (s.taken t p) := by
  refine ends_of_body rfl called ?_
  unfold fwDataRow
  dsimp only
  rw [(s.taken_store_sec t p).2, closed]
  rfl

variable {x : Update} (open_ : s.sec.update = some x) (short : x.data.length < 65536)
include open_ short

theorem fwData_apart (apart : x.fits (Req.of p q) = false) : Ends (.fwData t p) s (Req.of p q) stBadParam [] (s.taken t p) :=
  ends_of_body rfl called ((fwDataRow_body open_ short).trans (judged_hit (by rw [apart]; rfl)))

variable (fits : x.fits (Req.of p q) = true) (still : s.sec.ending = none)
include fits still

theorem fwData_early (erases : x.erased = false) : Ends (.fwData t p) s (Req.of p q) stBusy [] (s.taken t p) :=
  ends_of_body rfl called ((fwDataRow_body open_ short).trans ((judged_miss (by rw [fits]; rfl)).trans
    ((judged_miss (by rw [still]; rfl)).trans (judged_hit (by rw [erases]; rfl)))))

theorem fwData_taken (erased : x.erased = true) :
    Ends (.fwData t p) s (Req.of p q) stOk (le 4 (x.data.length + ((Req.of p q).payload.drop 4).length))
      { s.taken t p with sec := { (s.taken t p).sec with update := some { x with data := x.data ++ (Req.of p q).payload.drop 4 } } } := by
  rw [← List.length_append]
  exact ends_of_body rfl called ((fwDataRow_body open_ short).trans ((judged_miss (by rw [fits]; rfl)).trans
    ((judged_miss (by rw [still]; rfl)).trans ((judged_miss (by rw [erased]; rfl)).trans (judged_miss rfl)))))

end Data

/-! ### FW_END (R419) -/

/-- The verification of a slot, as an accepted request starts it. -/
def State.startEnding (s : State) (r : Req) (slot : Nat) (retry : Bool) (tag : Nat) : State :=
  { s with sec := { s.sec with ending := some (tag, r.session, slot, bit (r.u 0 1) 0, retry) } }

theorem startVerify_eq (r : Req) (s : State) (slot : Nat) (retry : Bool) :
    startVerify r s slot retry = accept r s (fun tag v => v.startEnding r slot retry tag) := rfl

/-- A verification that starts touches, of the vault and the store, that alone. -/
theorem answers_startVerify {i : Instr} {row : Row} {slot : Nat} {retry : Bool} (serves : exec i s = .next (row.serve t p s))
    (called : row.calls t p s q = true) (room : s.opRoom (Req.of p q).session = true)
    (body : row.body (Req.of p q) (s.taken t p) = startVerify (Req.of p q) (s.taken t p) slot retry) :
    Answers i s (Req.of p q) stAccepted (le 2 s.host.nextTag) (fun u =>
      u.sec = { (s.taken t p).sec with ending := some (s.host.nextTag, (Req.of p q).session, slot, bit ((Req.of p q).u 0 1) 0, retry) } ∧
      u.store = (s.taken t p).store) := by
  obtain ⟨host, ends⟩ := answers_accept serves called room (body.trans (startVerify_eq ..))
  exact ⟨_, ends, rfl, rfl⟩

theorem fwEnd_closed (called : fwEndRow.calls t p s q = true) (closed : s.sec.update = none) :
    Ends (.fwEnd t p) s (Req.of p q) stWrongState [] (s.taken t p) := by
  have body : endUpdate (Req.of p q) (s.taken t p) = .done stWrongState [] (s.taken t p) := by
    unfold endUpdate
    rw [(s.taken_store_sec t p).2, closed]
    rfl
  exact ends_of_body rfl called body

theorem fwEnd_verifies {x : Update} (called : fwEndRow.calls t p s q = true) (open_ : s.sec.update = some x) (still : s.sec.ending = none)
    (room : s.opRoom (Req.of p q).session = true) : Answers (.fwEnd t p) s (Req.of p q) stAccepted (le 2 s.host.nextTag) (fun u =>
      u.sec = { (s.taken t p).sec with ending := some (s.host.nextTag, (Req.of p q).session, x.slot, bit ((Req.of p q).u 0 1) 0, false) } ∧
      u.store = (s.taken t p).store) := by
  have body : endUpdate (Req.of p q) (s.taken t p) = startVerify (Req.of p q) (s.taken t p) x.slot false := by
    unfold endUpdate
    rw [(s.taken_store_sec t p).2, open_]
    exact if_neg (by rw [still]; decide)
  exact answers_startVerify rfl called room body

section Retry

/-- Without an open update, RETRY verifies the slot that is not active. -/
theorem fwEndRetryRow_body (closed : s.sec.update = none) (still : s.sec.ending = none) : fwEndRetryRow.body (Req.of p q) (s.taken t p) =
    judged [(decide ((s.slot s.spareSlot).state ≠ 1), stWrongState)] (s.taken t p)
      (startVerify (Req.of p q) (s.taken t p) s.spareSlot true) := by
  obtain ⟨store, sec⟩ := s.taken_store_sec t p
  have slot : ∀ k, (s.taken t p).slot k = s.slot k := fun k => congrArg (fun x : StoreState => nth x.boot.slots k) store
  have spare : (s.taken t p).spareSlot = s.spareSlot := congrArg (fun x : StoreState => if x.boot.active = 0 then 1 else 0) store
  unfold fwEndRetryRow
  dsimp only
  rw [sec, closed, if_neg (by decide), spare, slot, still]
  simp only [Option.isSome_none, Bool.or_false]

variable (called : fwEndRetryRow.calls t p s q = true) (closed : s.sec.update = none) (still : s.sec.ending = none)
include called closed still

theorem fwEndRetry_empty (bare : (s.slot s.spareSlot).state ≠ 1) : Ends (.fwEndRetry t p) s (Req.of p q) stWrongState [] (s.taken t p) :=
  ends_of_body rfl called ((fwEndRetryRow_body closed still).trans (judged_hit (decide_eq_true bare)))

theorem fwEndRetry_verifies (valid : (s.slot s.spareSlot).state = 1) (room : s.opRoom (Req.of p q).session = true) :
    Answers (.fwEndRetry t p) s (Req.of p q) stAccepted (le 2 s.host.nextTag) (fun u =>
      u.sec = { (s.taken t p).sec with ending := some (s.host.nextTag, (Req.of p q).session, s.spareSlot, bit ((Req.of p q).u 0 1) 0, true) } ∧
      u.store = (s.taken t p).store) :=
  answers_startVerify rfl called room
    ((fwEndRetryRow_body closed still).trans (judged_miss (decide_eq_false (not_not.2 valid))))

end Retry
end Requests

/-! ### The ends of both operations (R417, R419) -/

section Ends
variable {t : Nat} {s : State}

/-- The slot of the update is erased. -/
def State.spareErased (s : State) : State :=
  { s with sec := { s.sec with update := s.sec.update.map (fun (x : Update) => { x with erased := true }) } }

theorem fwBeginComplete_erased {o : LongOp} (runs : s.host.ops.find? (fun o => o.opcode = 0x0B02) = some o) :
    Leads (.fwBeginComplete t) s (fun u =>
      u.sec = { s.sec with update := s.sec.update.map (fun (x : Update) => { x with erased := true }) } ∧ ∀ x ∈ u.host.ops, x.tag ≠ o.tag) := by
  have run : exec (.fwBeginComplete t) s = .next ((s.tickTo t).spareErased.completeOp o.tag
      (if (s.tickTo t).spareErased.store.state = 2 then stDegraded else stOk) (le 1 (s.tickTo t).spareErased.spareSlot)) := by
    have runs' : (s.tickTo t).host.ops.find? (fun o => o.opcode = 0x0B02) = some o := runs
    refine (show exec (.fwBeginComplete t) s = execFwBeginComplete t s from rfl).trans ?_
    unfold execFwBeginComplete
    dsimp only
    rw [runs']
    rfl
  refine ⟨_, run, ?_, fun x left => State.completeOp_gone left⟩
  rw [State.completeOp_frame]
  rfl

/-- The boot table in which an image that passed every check is the pending trial (R419). -/
def BootTable.pend (b : BootTable) (slot : Nat) (x : FwSlot) : BootTable :=
  { b with slots := alter b.slots slot (fun _ => { x with state := 1 }), trial := slot, trialState := 1, sequence := b.sequence + 1 }

/-- The end of a verification touches the boot table where the image passed, and closes its operation. -/
theorem State.verified_leaves (s : State) (tag slot : Nat) (x : FwSlot) (status : Nat) :
    (s.verified tag slot x status).sec = s.sec ∧ (∀ o ∈ (s.verified tag slot x status).host.ops, o.tag ≠ tag) ∧
      (s.verified tag slot x status).store.boot = if status = stOk then s.store.boot.pend slot x else s.store.boot := by
  unfold State.verified
  extract_lets written told
  have sec : written.sec = s.sec := by
    unfold written
    split <;> rfl
  have boot : written.store.boot = if status = stOk then s.store.boot.pend slot x else s.store.boot := by
    unfold written
    split <;> rfl
  refine ⟨?_, fun o left => State.completeOp_gone left, ?_⟩
  · unfold told
    rw [State.completeOp_frame, State.raise_frame]
    exact sec
  · rw [State.completeOp_store, State.raise_storeFrame]
    exact boot

theorem fwEndComplete_verifies {tag session slot : Nat} {x : Update} (on : s.phase ≠ .held) (firmware : s.phase ≠ .gatehouse)
    (ends : s.sec.ending = some (tag, session, slot, false, false)) (open_ : s.sec.update = some x)
    (part : slot < s.store.boot.slots.length) :
    Leads (.fwEndComplete t) s (fun u => u.sec.ending = none ∧ u.sec.update = none ∧ (∀ o ∈ u.host.ops, o.tag ≠ tag) ∧
      (imageStatus x.data s.sec.counter s.sec.revoked = stOk → u.store.boot.trial = slot ∧ u.store.boot.trialState = 1 ∧
        u.slot slot = describe x.data ∧ u.store.boot.active = s.store.boot.active ∧ u.store.boot.sequence = s.store.boot.sequence + 1) ∧
      (¬imageStatus x.data s.sec.counter s.sec.revoked = stOk → u.store.boot = s.store.boot)) := by
  generalize status : imageStatus x.data s.sec.counter s.sec.revoked = st
  have run : exec (.fwEndComplete t) s = .next (State.verified
      { s.tickTo t with sec := { s.sec with ending := none, update := none } } tag slot (describe x.data) st) := by
    have off : ¬(decide ((s.tickTo t).phase = .held) || decide ((s.tickTo t).phase = .gatehouse)) = true := by simp [on, firmware]
    have verify : State.verify { s.tickTo t with sec := { s.sec with ending := none } } slot false =
        (some (st, describe x.data), { s.tickTo t with sec := { s.sec with ending := none } }) := by
      unfold State.verify
      simp only [Bool.false_eq_true, if_false, open_, status]
    refine (show exec (.fwEndComplete t) s = execFwEndComplete t s from rfl).trans ?_
    unfold execFwEndComplete
    dsimp only
    rw [State.tickTo_sec, ends]
    dsimp only
    rw [if_neg off, verify]
    dsimp only
    rw [Bool.and_false, if_neg (by decide)]
  obtain ⟨sec, ops, boot⟩ := State.verified_leaves { s.tickTo t with sec := { s.sec with ending := none, update := none } } tag slot
    (describe x.data) st
  refine ⟨_, run, by rw [sec], by rw [sec], ops, fun pass => ?_, fun fail => boot.trans (if_neg fail)⟩
  rw [if_pos pass] at boot
  rw [State.slot, boot]
  exact ⟨rfl, rfl, nth_alter _ _ _ part, rfl, rfl⟩

end Ends

end Sys2Proof.Machine
end

section
/-! SUPPORT. Firmware update: the obligation. -/

open Sys2Proof.Machine

/-- Settles O48: each request of an update is judged by the boot table and the update that stand, and a verification changes the boot table only
for an image that passes. -/
theorem updatesRun : Obligations.UpdatesRun := by
  unfold Obligations.UpdatesRun
  exact ⟨fun t p s q => ⟨fun called => ⟨fwBegin_trial called, fwBegin_busy called, fwBegin_erases called⟩,
      fun called => ⟨fwData_closed called, fun x open_ short =>
        ⟨fwData_apart called open_ short, fwData_early called open_ short, fwData_taken called open_ short⟩⟩,
      fun called => ⟨fwEnd_closed called, fun x => fwEnd_verifies called⟩,
      fun called closed still => ⟨fwEndRetry_empty called closed still, fwEndRetry_verifies called closed still⟩⟩,
    fun t s o => fwBeginComplete_erased, fun t tag session slot x s => fwEndComplete_verifies⟩

end

section
/-! SUPPORT. The format (R386): what it leaves, of the store and beyond, for STORE_FORMAT and for a lifecycle transition. -/

namespace Sys2Proof.Machine

/-! ### The rings that one record does not fill -/

/-- Where no block is erased, every record stays. -/
theorem dropBelow_zero {α : Type} (size : α → Nat) (p : Nat) (l : List α) : dropBelow size 0 p l = (p, l) := by
  cases l with
  | nil => rfl
  | cons r l => exact if_neg (Nat.not_lt_zero p)

/-- A log whose records fit the blocks of its ring keeps them all. -/
theorem trimLog_room {room : Nat} {l : List LogRecord} (fits : (l.map LogRecord.size).sum + 262143 ≤ room) : trimLog room 0 l = (0, l) := by
  have low : erasedBelow room (0 + (l.map LogRecord.size).sum) = 0 := by
    unfold erasedBelow
    omega
  unfold trimLog
  rw [low, dropBelow_zero]

/-- The log and its bounds as a record leaves them. -/
theorem State.logAppend_log {s : State} (writes : s.storeWrites = true) {kind time : Nat} {body : List Byte} :
    ((s.logAppend kind time body).store.logStart, (s.logAppend kind time body).store.log) =
      trimLog (s.store.boot.layout.getD 0 0 * 4194304) s.store.logStart
        (s.store.log ++ [{ sequence := s.store.nextLog, time := time, kind := kind, body := body }]) ∧
    (s.logAppend kind time body).store.nextLog = s.store.nextLog + 1 := by
  unfold State.logAppend
  rw [if_pos writes]
  exact ⟨rfl, rfl⟩

/-- The first record of an empty journal is its whole content. -/
theorem State.journalAdd_first {s : State} (writes : s.storeWrites = true) (empty : s.store.journal = []) (start : s.store.journalStart = 0)
    {r : JournalRecord} (small : r.size ≤ 65536) :
    (s.journalAdd r).store.journal = [{ r with sequence := s.store.nextJournal }] ∧
      (s.journalAdd r).store.nextJournal = s.store.nextJournal + 1 := by
  have size : JournalRecord.size { r with sequence := s.store.nextJournal } = r.size := rfl
  have low : erasedBelow journalRoom r.size = 0 := by
    unfold erasedBelow journalRoom
    omega
  unfold State.journalAdd
  rw [if_pos writes]
  refine ⟨?_, rfl⟩
  simp [empty, start, StoreState.journalStop, size, State.trimJournal, low]

/-! ### What the format empties -/

/-- What a format leaves, whatever it logs afterwards. -/
structure Cleared (s : State) (layout : List Nat) (u : State) : Prop where
  phase : u.phase = s.phase
  gate : u.gate = s.gate
  sec : u.sec = { s.sec with
    storeKey := s.draws, storeKeyCopy := s.draws, storeKeyState := s.sec.lifecycle
    signing := s.sec.signing.filter (fun j => !j.isRecord), backlog := s.sec.backlog.filter (fun j => !j.isRecord) }
  boot : u.store.boot = { s.store.boot with layout := layout, sequence := s.store.boot.sequence + 1 }
  live : u.bill.live = []
  nodes : u.mesh.nodes = []
  slots : u.cal.slots = [none, none]
  marks : ∀ x ∈ u.host.sessions, x.marks = []
  state : u.store.state = 1
  formatting : u.store.formatting = none
  nextSerial : u.store.nextSerial = 1
  rings : u.store.rings.map Ring.size = (List.range 8).map (fun k => layout.getD (k + 1) 0)

/-- And the rings of the journal and the log are empty before their first records. -/
structure Blank (u : State) : Prop where
  journal : u.store.journal = []
  nextJournal : u.store.nextJournal = 1
  journalStart : u.store.journalStart = 0
  log : u.store.log = []
  nextLog : u.store.nextLog = 1
  logStart : u.store.logStart = 0

section Cleared
variable {s : State} {layout : List Nat} {u : State}

/-- The store takes writes again where the firmware runs. -/
theorem Cleared.writes (cleared : Cleared s layout u) (runs : s.firmware = true) : u.storeWrites = true := by
  have firmware : u.firmware = true := by
    rw [← runs]
    simp only [State.firmware, cleared.phase]
  simp [State.storeWrites, cleared.state, cleared.formatting, firmware]

theorem Cleared.logAppend (cleared : Cleared s layout u) (kind time : Nat) (body : List Byte) : Cleared s layout (u.logAppend kind time body) := by
  obtain ⟨phase, gate, sec, boot, live, nodes, slots, marks, state, formatting, nextSerial, rings⟩ := cleared
  rw [State.logAppend_frame, State.logAppend_store]
  exact ⟨phase, gate, sec, boot, live, nodes, slots, marks, state, formatting, nextSerial, rings⟩

theorem Cleared.raise (cleared : Cleared s layout u) (source time : Nat) (body : List Byte) : Cleared s layout (u.raise source time body) := by
  obtain ⟨phase, gate, sec, boot, live, nodes, slots, marks, state, formatting, nextSerial, rings⟩ := cleared
  rw [State.raise_frame, State.raise_storeFrame]
  refine ⟨phase, gate, sec, boot, live, nodes, slots, fun x member => ?_, state, formatting, nextSerial, rings⟩
  obtain ⟨y, held, rfl⟩ := List.mem_map.1 member
  rw [Session.offer_frame]
  exact marks y held

theorem Cleared.journalAdd (cleared : Cleared s layout u) (r : JournalRecord) : Cleared s layout (u.journalAdd r) := by
  obtain ⟨phase, gate, sec, boot, live, nodes, slots, marks, state, formatting, nextSerial, rings⟩ := cleared
  rw [State.journalAdd_frame]
  exact ⟨phase, gate, sec, boot, live, nodes, slots, marks, state, formatting, nextSerial, rings⟩

end Cleared

/-- A format is logged, told where it makes the store writable again (R385), and followed by the settings record (R313). -/
def State.tellFormat (e : State) (was : Nat) : State :=
  let s := e.logAppend 0x0102 e.stampNow []
  if was = 2 then s.raise 147 s.stampNow (objBody 0 (le 1 1)) else s

theorem State.formatStore_empties (s : State) (layout : List Nat) : ∃ e : State, Cleared s layout e ∧ Blank e ∧
    s.formatStore layout = State.journalSettings { e.tellFormat s.store.state with
      mesh := { (e.tellFormat s.store.state).mesh with journaled := (e.tellFormat s.store.state).mesh.counter } } := by
  refine ⟨_, ?_, ?_, rfl⟩
  · refine ⟨rfl, rfl, rfl, rfl, rfl, rfl, rfl, fun x member => ?_, rfl, rfl, rfl, ?_⟩
    · obtain ⟨y, -, rfl⟩ := List.mem_map.1 member
      rfl
    · rw [List.map_map]
      rfl
  · exact ⟨rfl, rfl, rfl, rfl, rfl, rfl⟩

/-- The log after a format: its own record, and event source 147 where the store was read-only. -/
theorem State.tellFormat_log {s : State} {layout : List Nat} {e : State} (cleared : Cleared s layout e) (blank : Blank e)
    (runs : s.firmware = true) (room : 1 ≤ layout.getD 0 0) (was : Nat) :
    (was ≠ 2 → (e.tellFormat was).store.nextLog = 2 ∧ (e.tellFormat was).store.log.map (fun x => (x.sequence, x.kind)) = [(1, 0x0102)]) ∧
    (was = 2 → (e.tellFormat was).store.nextLog = 3 ∧
      (e.tellFormat was).store.log.map (fun x => (x.sequence, x.kind)) = [(1, 0x0102), (2, 147)]) := by
  have wide : 4194304 ≤ layout.getD 0 0 * 4194304 := Nat.le_mul_of_pos_left _ room
  have one : ∀ at_, ([{ sequence := 1, time := at_, kind := 0x0102, body := [] }].map LogRecord.size).sum + 262143 ≤
      layout.getD 0 0 * 4194304 := fun at_ => le_trans (show 28 + 262143 ≤ 4194304 by decide) wide
  have two : ∀ at_ then_, ([{ sequence := 1, time := at_, kind := 0x0102, body := [] },
      { sequence := 2, time := then_, kind := 147, body := objBody 0 (le 1 1) }].map LogRecord.size).sum + 262143 ≤
      layout.getD 0 0 * 4194304 := fun at_ then_ => le_trans (show 28 + (28 + 5) + 262143 ≤ 4194304 by decide) wide
  have first : (e.logAppend 0x0102 e.stampNow []).store.logStart = 0 ∧
      (e.logAppend 0x0102 e.stampNow []).store.log = [{ sequence := 1, time := e.stampNow, kind := 0x0102, body := [] }] ∧
      (e.logAppend 0x0102 e.stampNow []).store.nextLog = 2 := by
    obtain ⟨held, next⟩ := State.logAppend_log (cleared.writes runs) (kind := 0x0102) (time := e.stampNow) (body := [])
    rw [cleared.boot, blank.logStart, blank.log, blank.nextLog] at held
    rw [blank.nextLog] at next
    replace held := held.trans (trimLog_room (one _))
    exact ⟨congrArg Prod.fst held, congrArg Prod.snd held, next⟩
  have after := cleared.logAppend 0x0102 e.stampNow []
  unfold State.tellFormat
  dsimp only
  generalize e.logAppend 0x0102 e.stampNow [] = f at first after
  obtain ⟨start, log, next⟩ := first
  refine ⟨fun writable => ?_, fun readOnly => ?_⟩
  · rw [if_neg writable, log, next]
    exact ⟨rfl, rfl⟩
  · rw [if_pos readOnly]
    have queued : (f.queueAll 147 f.stampNow (objBody 0 (le 1 1))).storeWrites = true := after.writes runs
    obtain ⟨held, count⟩ := State.logAppend_log queued (kind := 147) (time := f.stampNow) (body := objBody 0 (le 1 1))
    have logged : f.raise 147 f.stampNow (objBody 0 (le 1 1)) =
      (f.queueAll 147 f.stampNow (objBody 0 (le 1 1))).logAppend 147 f.stampNow (objBody 0 (le 1 1)) := by
      unfold State.raise
      exact if_neg (by decide)
    have store : (f.queueAll 147 f.stampNow (objBody 0 (le 1 1))).store = f.store := rfl
    rw [store, after.boot, start, log, next] at held
    rw [store, next] at count
    replace held := held.trans (trimLog_room (two _ _))
    rw [logged, (Prod.mk.inj held).2, count]
    exact ⟨rfl, rfl⟩

/-- What a format leaves (R386): nothing but the layout asked for, the settings record and the first records of the log. -/
theorem State.formatStore_leaves (s : State) (layout : List Nat) : Cleared s layout (s.formatStore layout) ∧
    (s.firmware = true → (s.formatStore layout).store.journal.map (fun x => (x.sequence, x.type)) = [(1, 7)] ∧
      (s.formatStore layout).store.nextJournal = 2) ∧
    (s.firmware = true → 1 ≤ layout.getD 0 0 →
      (s.store.state ≠ 2 → (s.formatStore layout).store.nextLog = 2 ∧
        (s.formatStore layout).store.log.map (fun x => (x.sequence, x.kind)) = [(1, 0x0102)]) ∧
      (s.store.state = 2 → (s.formatStore layout).store.nextLog = 3 ∧
        (s.formatStore layout).store.log.map (fun x => (x.sequence, x.kind)) = [(1, 0x0102), (2, 147)])) := by
  obtain ⟨e, cleared, blank, run⟩ := s.formatStore_empties layout
  have told : Cleared s layout (e.tellFormat s.store.state) := by
    unfold State.tellFormat
    dsimp only
    split
    · exact (cleared.logAppend ..).raise ..
    · exact cleared.logAppend ..
  have journal : (e.tellFormat s.store.state).store.journal = [] ∧ (e.tellFormat s.store.state).store.nextJournal = 1 ∧
      (e.tellFormat s.store.state).store.journalStart = 0 := by
    unfold State.tellFormat
    dsimp only
    split
    · rw [State.raise_storeFrame, State.logAppend_store]
      exact ⟨blank.journal, blank.nextJournal, blank.journalStart⟩
    · rw [State.logAppend_store]
      exact ⟨blank.journal, blank.nextJournal, blank.journalStart⟩
  have log := fun runs room => State.tellFormat_log cleared blank runs room s.store.state
  rw [run]
  generalize e.tellFormat s.store.state = g at told journal log
  obtain ⟨empty, first, start⟩ := journal
  obtain ⟨phase, gate, sec, boot, live, nodes, slots, marks, state, formatting, nextSerial, rings⟩ := told
  have settled : Cleared s layout { g with mesh := { g.mesh with journaled := g.mesh.counter } } :=
    ⟨phase, gate, sec, boot, live, nodes, slots, marks, state, formatting, nextSerial, rings⟩
  refine ⟨settled.journalAdd _, fun runs => ?_, fun runs room => ?_⟩
  · obtain ⟨alone, next⟩ := State.journalAdd_first (r := { type := 7, time := g.stampNow, data :=
      [g.clock.policy, g.clock.limit, ofBool g.mesh.running, g.mesh.limit, g.mesh.counter] }) (settled.writes runs) empty start
      (show 28 + 16 ≤ 65536 by decide)
    exact ⟨(congrArg (List.map _) alone).trans (by rw [first]; rfl), next.trans (by rw [first])⟩
  · rw [State.journalSettings, State.journalAdd_frame]
    exact log runs room

end Sys2Proof.Machine
end

section
/-! SUPPORT. Lifecycle transitions, keys, the confirmation of a trial, debug access (R408, R409, R415, R420, R422). -/

namespace Sys2Proof.Machine

section Requests
variable {t : Nat} {p : Port} {s : State} {q : Request}

/-! ### LIFECYCLE_ADVANCE (R408) -/

section Advance
variable (called : lifecycleAdvanceRow.calls t p s q = true) (key : (Req.of p q).u 2 2 = 0xC33C) (low : 1 ≤ (Req.of p q).u 0 1)
  (high : (Req.of p q).u 0 1 ≤ 4) (zero : (Req.of p q).zero 1 1 = true)

include key low high zero in
/-- A request whose fields are in range is refused by none of them. -/
theorem lifecycleAdvance_formed : (decide ((Req.of p q).u 2 2 ≠ 0xC33C) || decide ((Req.of p q).u 0 1 = 0) ||
    decide (4 < (Req.of p q).u 0 1) || !(Req.of p q).zero 1 1) = false := by
  simp only [key, zero, ne_eq, not_true_eq_false, decide_false, Bool.false_or, Bool.not_true, Bool.or_false, Bool.or_eq_false_iff,
    decide_eq_false_iff_not]
  omega

include called key low high zero

theorem lifecycleAdvance_foreign (other : (Req.of p q).u 4 4 ≠ partTag) :
    Ends (.lifecycleAdvance t p) s (Req.of p q) stDenied [] (s.taken t p) :=
  ends_of_body rfl called ((judged_miss (lifecycleAdvance_formed key low high zero)).trans (judged_hit (decide_eq_true other)))

variable (part : (Req.of p q).u 4 4 = partTag)
include part

theorem lifecycleAdvance_barred (barred : transitionAllowed s.sec.lifecycle ((Req.of p q).u 0 1) = false) :
    Ends (.lifecycleAdvance t p) s (Req.of p q) stDenied [] (s.taken t p) :=
  ends_of_body rfl called ((judged_miss (lifecycleAdvance_formed key low high zero)).trans
    ((judged_miss (decide_eq_false (not_not.2 part))).trans (judged_hit (by rw [(s.taken_store_sec t p).2, barred]; rfl))))

theorem lifecycleAdvance_starts (allowed : transitionAllowed s.sec.lifecycle ((Req.of p q).u 0 1) = true) (idle : s.storeBusy = false)
    (closed : s.sec.update = none) (still : s.sec.ending = none) (steady : s.store.boot.trialState = 0) (writable : s.store.state ≠ 2)
    (room : s.opRoom (Req.of p q).session = true) :
    Answers (.lifecycleAdvance t p) s (Req.of p q) stAccepted (le 2 s.host.nextTag) (fun u =>
      u.sec = { (s.taken t p).sec with transition := some (s.sec.lifecycle, (Req.of p q).u 0 1) } ∧ u.store = (s.taken t p).store) := by
  obtain ⟨store, sec⟩ := s.taken_store_sec t p
  have idle' : (s.taken t p).storeBusy = false := by
    rw [← idle]
    simp [State.storeBusy]
  have quiet : ((s.taken t p).storeBusy || (s.taken t p).sec.update.isSome || (s.taken t p).sec.ending.isSome ||
      decide ((s.taken t p).store.boot.trialState ≠ 0)) = false := by
    rw [idle', sec, store, closed, still, steady]
    rfl
  have whole : decide ((s.taken t p).store.state = 2) = false := by
    rw [store]
    exact decide_eq_false writable
  obtain ⟨host, ends⟩ := answers_accept (i := .lifecycleAdvance t p)
    (f := fun _ v => { v with sec := { v.sec with transition := some (v.sec.lifecycle, (Req.of p q).u 0 1) } }) rfl called room
    ((judged_miss (lifecycleAdvance_formed key low high zero)).trans
      ((judged_miss (decide_eq_false (not_not.2 part))).trans
        ((judged_miss (by rw [sec, allowed]; rfl)).trans
          ((judged_miss quiet).trans (judged_miss whole)))))
  exact ⟨_, ends, by rw [sec], rfl⟩

end Advance

/-! ### KEY_PROVISION (R420, R313) -/

section Transport
variable (called : keyProvisionTransportKeyRow.calls t p s q = true)
include called

theorem keyProvisionTransportKey_late (late : s.sec.lifecycle ≠ 1) :
    Ends (.keyProvisionTransportKey t p) s (Req.of p q) stDenied [] (s.taken t p) := by
  obtain ⟨-, sec⟩ := s.taken_store_sec t p
  exact ends_of_body rfl called ((judged_miss (by rw [sec]; simp [late])).trans (judged_hit (by rw [sec]; exact decide_eq_true late)))

variable (provisioning : s.sec.lifecycle = 1)
include provisioning

theorem keyProvisionTransportKey_again (set : s.sec.transportSet = true) :
    Ends (.keyProvisionTransportKey t p) s (Req.of p q) stWrongState [] (s.taken t p) := by
  obtain ⟨-, sec⟩ := s.taken_store_sec t p
  exact ends_of_body rfl called (judged_hit (by rw [sec, provisioning, set]; rfl))

theorem keyProvisionTransportKey_sets (unset : s.sec.transportSet = false) :
    Answers (.keyProvisionTransportKey t p) s (Req.of p q) stOk (zeros 4) (fun u =>
      u.sec = { (s.taken t p).sec with transport := some ((Req.of p q).payload.drop 4), transportSet := true }) := by
  obtain ⟨-, sec⟩ := s.taken_store_sec t p
  refine ⟨_, ends_of_body rfl called ((judged_miss (by rw [sec, unset, Bool.and_false])).trans
    (judged_miss (by rw [sec, provisioning]; rfl))), ?_⟩
  rw [State.provisioned, State.raise_frame]

end Transport

/-- A network key restarts every frame counter, and stands in both its copies (R313). -/
theorem State.installNetworkKey_leaves (s : State) (key : List Byte) : (s.installNetworkKey key).sec.network = some key ∧
    (s.installNetworkKey key).sec.networkCopy = some key ∧ (s.installNetworkKey key).mesh.counter = 0 ∧
    ∀ n ∈ (s.installNetworkKey key).mesh.nodes, n.counter = some 0 := by
  unfold State.installNetworkKey State.provisioned
  extract_lets failed line cleared
  rw [State.raise_frame, State.journalSettings_frame]
  refine ⟨rfl, rfl, rfl, fun n member => ?_⟩
  obtain ⟨m, -, rfl⟩ := List.mem_map.1 member
  rfl

section Network
variable (called : keyProvisionNetworkKeyRow.calls t p s q = true) {key : List Byte} (transport : s.sec.transport = some key)
  (first : s.sec.network = none)

include transport first in
/-- With a transport key and no network key, the answer is that of the unwrapping. -/
theorem keyProvisionNetworkKey_body : keyProvisionNetworkKeyRow.body (Req.of p q) (s.taken t p) =
    judged
      [((decide ((s.taken t p).sec.lifecycle = 1) || decide ((s.taken t p).sec.lifecycle = 2)) &&
          (aesUnwrap key ((Req.of p q).payload.drop 4)).isSome && decide (aesUnwrap key ((Req.of p q).payload.drop 4) = none), stWrongState),
        (decide ((s.taken t p).sec.lifecycle = 0) || decide (3 ≤ (s.taken t p).sec.lifecycle) ||
          (aesUnwrap key ((Req.of p q).payload.drop 4)).isNone, stDenied)] (s.taken t p)
      (match aesUnwrap key ((Req.of p q).payload.drop 4) with
       | some k => .done stOk (fit 3 (keyCheck k) ++ zeros 1) ((s.taken t p).installNetworkKey k)
       | none => refuse stDenied (s.taken t p)) := by
  obtain ⟨-, sec⟩ := s.taken_store_sec t p
  unfold keyProvisionNetworkKeyRow
  dsimp only
  rw [sec, transport, first, Option.bind_some] <;> rfl

include called transport first

theorem keyProvisionNetworkKey_spoilt (spoilt : aesUnwrap key ((Req.of p q).payload.drop 4) = none) :
    Ends (.keyProvisionNetworkKey t p) s (Req.of p q) stDenied [] (s.taken t p) := by
  refine ends_of_body rfl called ((keyProvisionNetworkKey_body transport first).trans ?_)
  rw [spoilt]
  exact (judged_miss (by rw [Option.isSome_none, Bool.and_false, Bool.false_and])).trans
    (judged_hit (by rw [Option.isNone_none, Bool.or_true]))

theorem keyProvisionNetworkKey_installs {k : List Byte} (serving : s.sec.lifecycle = 1 ∨ s.sec.lifecycle = 2)
    (whole : aesUnwrap key ((Req.of p q).payload.drop 4) = some k) :
    Answers (.keyProvisionNetworkKey t p) s (Req.of p q) stOk (fit 3 (keyCheck k) ++ zeros 1) (fun u =>
      u.sec.network = some k ∧ u.sec.networkCopy = some k ∧ u.mesh.counter = 0 ∧ ∀ n ∈ u.mesh.nodes, n.counter = some 0) := by
  obtain ⟨-, sec⟩ := s.taken_store_sec t p
  have body := keyProvisionNetworkKey_body (t := t) (p := p) (q := q) transport first
  rw [whole] at body
  have inState : (decide ((s.taken t p).sec.lifecycle = 0) || decide (3 ≤ (s.taken t p).sec.lifecycle) || (some k).isNone) = false := by
    rw [sec]
    rcases serving with one | two
    · rw [one]
      rfl
    · rw [two]
      rfl
  exact ⟨_, ends_of_body rfl called (body.trans ((judged_miss (by rw [decide_eq_false (Option.some_ne_none k), Bool.and_false])).trans
    (judged_miss inState))), State.installNetworkKey_leaves ..⟩

theorem keyProvisionNetworkKey_answers (serving : s.sec.lifecycle = 1 ∨ s.sec.lifecycle = 2) :
    match aesUnwrap key ((Req.of p q).payload.drop 4) with
    | some k => Answers (.keyProvisionNetworkKey t p) s (Req.of p q) stOk (fit 3 (keyCheck k) ++ zeros 1) (fun u =>
        u.sec.network = some k ∧ u.sec.networkCopy = some k ∧ u.mesh.counter = 0 ∧ ∀ n ∈ u.mesh.nodes, n.counter = some 0)
    | none => Ends (.keyProvisionNetworkKey t p) s (Req.of p q) stDenied [] (s.taken t p) := by
  split
  case h_1 k whole => exact keyProvisionNetworkKey_installs called transport first serving whole
  case h_2 spoilt => exact keyProvisionNetworkKey_spoilt called transport first spoilt

end Network

section Certificate
variable (called : keyProvisionCertificateRow.calls t p s q = true)
include called

theorem keyProvisionCertificate_late (late : s.sec.lifecycle ≠ 1) :
    Ends (.keyProvisionCertificate t p) s (Req.of p q) stDenied [] (s.taken t p) :=
  ends_of_body rfl called (judged_hit (by rw [(s.taken_store_sec t p).2]; exact decide_eq_true late))

theorem keyProvisionCertificate_sets (provisioning : s.sec.lifecycle = 1) :
    Answers (.keyProvisionCertificate t p) s (Req.of p q) stOk (zeros 4) (fun u =>
      u.store.boot.certificate = (Req.of p q).payload.drop 4 ∧ u.store.boot.slots = s.store.boot.slots ∧ u.sec = (s.taken t p).sec) := by
  obtain ⟨store, sec⟩ := s.taken_store_sec t p
  refine ⟨_, ends_of_body rfl called (judged_miss (by rw [sec, provisioning]; rfl)), ?_⟩
  rw [State.provisioned, State.raise_frame, State.raise_storeFrame, ← store]
  exact ⟨rfl, rfl, rfl⟩

end Certificate
end Requests

/-! ### The transition (R409) -/

/-- The keys of the OTP state reached, before the format of a transition. -/
def SecurityState.rekeyed (x : SecurityState) (draw : Nat) : SecurityState :=
  { x with
    identity := if x.lifecycle = 1 then true else if 3 ≤ x.lifecycle then false else x.identity
    identityDraw := if x.lifecycle = 1 then draw else x.identityDraw, rootErased := x.rootErased || x.lifecycle = 4
    transport := if 3 ≤ x.lifecycle then none else x.transport, transportSet := if x.lifecycle = 1 then false else x.transportSet
    network := if 3 ≤ x.lifecycle then none else x.network, networkCopy := if 3 ≤ x.lifecycle then none else x.networkCopy, keysLost := false }

/-- Before its format, a transition changes the keys, the certificate and one free value. -/
theorem State.finishTransition_format (s : State) : ∃ w : State, w.phase = s.phase ∧ w.gate = s.gate ∧
    w.store.boot.slots = s.store.boot.slots ∧ (3 ≤ s.sec.lifecycle → w.store.boot.certificate = []) ∧ w.sec = s.sec.rekeyed s.draws ∧
    s.finishTransition = { w.formatStore w.store.boot.layout with gate := { (w.formatStore w.store.boot.layout).gate with
      episodes := 0, totals := List.replicate 6 0, totalsCopy := List.replicate 6 0, rest := List.replicate 6 0 } } := by
  refine ⟨_, ?_, ?_, ?_, ?_, ?_, rfl⟩
  · split <;> rfl
  · split <;> rfl
  · split <;> rfl
  · intro late
    rw [if_pos late]
    rfl
  · exact (apply_ite State.sec ..).trans (ite_self _)

/-- What a transition leaves before its reset. -/
structure Transited (s u : State) : Prop where
  journal : s.firmware = true → u.store.journal.map JournalRecord.type = [7]
  slots : u.store.boot.slots = s.store.boot.slots
  certificate : 3 ≤ s.sec.lifecycle → u.store.boot.certificate = []
  gate : u.gate = { s.gate with
    episodes := 0, totals := List.replicate 6 0, totalsCopy := List.replicate 6 0, rest := List.replicate 6 0 }
  sec : u.sec = { s.sec.rekeyed s.draws with
    storeKey := u.sec.storeKey, storeKeyCopy := u.sec.storeKeyCopy, storeKeyState := u.sec.storeKeyState, signing := u.sec.signing
    backlog := u.sec.backlog }

theorem State.finishTransition_leaves (s : State) : Transited s s.finishTransition := by
  obtain ⟨w, phase, gate, slots, certificate, sec, finished⟩ := s.finishTransition_format
  obtain ⟨cleared, journal, -⟩ := w.formatStore_leaves w.store.boot.layout
  rw [finished]
  generalize w.formatStore w.store.boot.layout = f at cleared journal
  exact {
    journal runs := by
      have firmware : w.firmware = true := by simpa only [State.firmware, phase] using runs
      have types := congrArg (List.map Prod.snd) (journal firmware).1
      rw [List.map_map] at types
      exact types
    slots := (congrArg BootTable.slots cleared.boot).trans slots
    certificate late := (congrArg BootTable.certificate cleared.boot).trans (certificate late)
    gate := by rw [cleared.gate, gate]
    sec := by rw [cleared.sec, sec] }

/-- The state programmed, what it requires, and the reset (R409). -/
def State.transit (s : State) (old new : Nat) : State :=
  let s := ({ s with sec := { s.sec with lifecycle := new } } : State).finishTransition
  let s := s.enterReset 6 (s.now + Config.ms)
  { s with sec := { s.sec with advanced := some (old, new), debugClosed := s.sec.debugClosed || old = 0 } }

/-- The episodes the vault has counted come through a reset as its totals do (R365). -/
theorem State.copies_counts (s : State) : s.copies.totalsCopy = s.gate.totalsCopy ∧ s.copies.episodes = s.gate.episodes := by
  unfold State.copies
  split <;> exact ⟨rfl, rfl⟩

theorem lifecycleTransition_leads {t old new : Nat} {s : State} (under : s.sec.transition = some (old, new)) :
    Leads (.lifecycleTransition t) s (fun u =>
      u.phase = .held ∧ u.sec.lifecycle = new ∧ u.sec.advanced = some (old, new) ∧ u.power.cause = 6 ∧
      (s.firmware = true → u.store.journal.map JournalRecord.type = [7]) ∧ u.sec.counter = s.sec.counter ∧
      (new = 1 → u.sec.identity = true ∧ u.sec.identityDraw = s.draws ∧ u.sec.transportSet = false) ∧
      (3 ≤ new → u.sec.identity = false ∧ u.sec.transport = none ∧ u.sec.network = none ∧ u.sec.networkCopy = none ∧
        u.store.boot.certificate = []) ∧
      (new = 4 → u.sec.rootErased = true) ∧ u.store.boot.slots = s.store.boot.slots ∧ u.gate.totals = List.replicate 6 0 ∧
      u.gate.totalsCopy = List.replicate 6 0 ∧ u.gate.episodes = 0 ∧ u.sec.debugOpen = false ∧
      (s.sec.debugOpen = true ∨ old = 0 → u.sec.debugClosed = true)) := by
  have run : exec (.lifecycleTransition t) s = .next ((s.tickTo t).transit old new) := by
    have branch : exec (.lifecycleTransition t) s = .next (match (s.tickTo t).sec.transition with
      | none => s.tickTo t
      | some (old, new) => (s.tickTo t).transit old new) := rfl
    rw [branch, State.tickTo_sec, under]
  refine ⟨_, run, ?_⟩
  have left := State.finishTransition_leaves { s.tickTo t with sec := { (s.tickTo t).sec with lifecycle := new } }
  unfold State.transit
  dsimp only
  generalize State.finishTransition { s.tickTo t with sec := { (s.tickTo t).sec with lifecycle := new } } = z at left
  obtain ⟨journal, slots, certificate, gate, sec⟩ := left
  obtain ⟨records, -, boot⟩ := StoreState.kept_records z.store
  obtain ⟨copy, episodes⟩ := z.copies_counts
  have totals := z.copies_totals
  rw [gate] at copy episodes totals
  refine ⟨rfl, congrArg SecurityState.lifecycle sec, rfl, rfl, fun runs => (congrArg _ records).trans (journal runs),
    (congrArg SecurityState.counter sec).trans rfl, ?_, ?_, ?_, (congrArg BootTable.slots boot).trans slots, totals, copy, episodes, rfl, ?_⟩
  · rintro rfl
    exact ⟨(congrArg SecurityState.identity sec).trans rfl, (congrArg SecurityState.identityDraw sec).trans rfl,
      (congrArg SecurityState.transportSet sec).trans rfl⟩
  · intro late
    have one : new ≠ 1 := by omega
    have identity : (if new = 1 then true else if 3 ≤ new then false else s.sec.identity) = false := by rw [if_neg one, if_pos late]
    exact ⟨(congrArg SecurityState.identity sec).trans identity, (congrArg SecurityState.transport sec).trans (if_pos late),
      (congrArg SecurityState.network sec).trans (if_pos late), (congrArg SecurityState.networkCopy sec).trans (if_pos late),
      (congrArg BootTable.certificate boot).trans (certificate late)⟩
  · rintro rfl
    exact (congrArg SecurityState.rootErased sec).trans (Bool.or_true _)
  · have open_ : z.sec.debugOpen = s.sec.debugOpen := (congrArg SecurityState.debugOpen sec).trans rfl
    rintro (opened | blank)
    · have shut : (z.enterReset 6 (z.now + Config.ms)).sec.debugClosed = (z.sec.debugClosed || z.sec.debugOpen) := rfl
      simp only [shut, open_, opened, Bool.or_true, Bool.true_or]
    · simp only [blank, decide_true, Bool.or_true]

/-! ### The confirmation of a trial (R415) -/

section Trial

/-- A minute, in ticks of the timebase. -/
theorem minute : 60 * secTicks = 960000000 := by
  unfold secTicks
  rfl

variable {t a : Nat} {s : State} (on : s.phase = .running) (booted : s.store.boot.trialState = 2) (proper : s.power.notBooted = none)
  (writable : s.store.state = 1) (since : s.sec.trialFrom = some a)
include since

theorem trialConfirmation_early (early : max s.now t < a + 960000000) : exec (.trialConfirmation t) s = .next (s.tickTo t) := by
  have young : (s.tickTo t).sec.trialFrom.any (fun a => decide (a + 60 * secTicks ≤ (s.tickTo t).now)) = false := by
    rw [State.tickTo_sec, since, Option.any_some, minute]
    exact decide_eq_false (Nat.not_le.2 early)
  refine congrArg Host.Outcome.next (if_neg ?_)
  rw [young, Bool.and_false]
  exact Bool.false_ne_true

include on booted proper writable

theorem trialConfirmation_confirms (ripe : a + 960000000 ≤ max s.now t) : Leads (.trialConfirmation t) s (fun u =>
    u.store.boot.active = s.store.boot.trial ∧ u.store.boot.trialState = 0 ∧
    u.sec.counter = max s.sec.counter (s.slot s.store.boot.trial).version ∧ u.store.boot.slots = s.store.boot.slots) := by
  have aged : (s.tickTo t).sec.trialFrom.any (fun a => decide (a + 60 * secTicks ≤ (s.tickTo t).now)) = true := by
    rw [State.tickTo_sec, since, Option.any_some, minute]
    exact decide_eq_true ripe
  have runs : (s.tickTo t).runningSlot = (s.tickTo t).store.boot.trial := by
    unfold State.runningSlot
    rw [State.tickTo_power, proper, State.tickTo_store, booted]
    rfl
  refine ⟨_, congrArg Host.Outcome.next (if_pos ?_), ?_⟩
  · rw [aged, runs, State.tickTo_phase, State.tickTo_store, on, booted, writable]
    simp
  · rw [State.raise_frame, State.raise_storeFrame]
    exact ⟨rfl, rfl, rfl, rfl⟩

end Trial

/-! ### Debug access (R422) -/

section Debug
variable {t : Nat} {signature : List Byte} {s : State}

theorem debugAuthentication_spent (spent : 3 ≤ s.sec.debugFailures) : exec (.debugAuthentication t signature) s = .next (s.tickTo t) := by
  refine congrArg Host.Outcome.next (if_neg ?_)
  have closed : decide ((s.tickTo t).sec.debugFailures < 3) = false := decide_eq_false (Nat.not_lt.2 spent)
  rw [closed, Bool.and_false]
  exact Bool.false_ne_true

theorem debugAuthentication_attempts (returned : s.sec.lifecycle = 3) (on : s.phase ≠ .held) (shut : s.sec.debugOpen = false)
    (left : s.sec.debugFailures < 3) :
    let v : State := { s.tickTo t with draws := s.draws + 1, sec := { s.sec with debugChallenge := s.draws } }
    let told := fun (x : State) (action : Nat) => x.raise 182 x.stampNow (objBody 0 (le 1 action))
    exec (.debugAuthentication t signature) s = .next
      (if rsaVerify Config.debugModulus 65537 (le 32 (Config.random s.sec.debugChallenge) ++ le 16 Config.partId) signature then
        told { v with sec := { v.sec with debugOpen := true } } 0
      else
        let w := told { v with sec := { v.sec with debugFailures := s.sec.debugFailures + 1 } } 2
        if s.sec.debugFailures = 2 then told w 1 else w) := by
  intro v told
  have allowed : (decide ((s.tickTo t).sec.lifecycle = 3) && decide ((s.tickTo t).phase ≠ .held) && !(s.tickTo t).sec.debugOpen &&
      decide ((s.tickTo t).sec.debugFailures < 3)) = true := by simp [returned, on, shut, left]
  refine congrArg Host.Outcome.next ((if_pos allowed).trans ?_)
  refine if_congr Iff.rfl rfl ?_
  have counted : ∀ x : State, (x.raise 182 x.stampNow (objBody 0 (le 1 2))).sec = x.sec := fun x => by rw [State.raise_frame]
  refine if_congr ?_ rfl rfl
  rw [State.debugEvent, counted]
  exact Nat.succ_inj

end Debug

end Sys2Proof.Machine
end

section
/-! SUPPORT. Lifecycle and keys: the obligation. -/

open Sys2Proof.Machine

/-- Settles O50: each request is judged by the state of the lifecycle, a transition is its keys, a format and a reset, and both the confirmation
of a trial and an attempt at the debug port are one branch of their command. -/
theorem lifecycleAndKeys : Obligations.LifecycleAndKeys := by
  unfold Obligations.LifecycleAndKeys
  exact ⟨fun t p s q => ⟨fun called key low high zero => ⟨lifecycleAdvance_foreign called key low high zero,
        lifecycleAdvance_barred called key low high zero, lifecycleAdvance_starts called key low high zero⟩,
      fun called => ⟨keyProvisionTransportKey_late called, keyProvisionTransportKey_again called, keyProvisionTransportKey_sets called⟩,
      fun key called transport serving first => keyProvisionNetworkKey_answers called transport first serving,
      fun called => ⟨keyProvisionCertificate_late called, keyProvisionCertificate_sets called⟩⟩,
    fun t old new s => lifecycleTransition_leads,
    fun t a s on booted proper writable since =>
      ⟨trialConfirmation_confirms on booted proper writable since, trialConfirmation_early since⟩,
    fun t signature s returned on shut => ⟨debugAuthentication_attempts returned on shut, debugAuthentication_spent⟩⟩

end

section
/-! SUPPORT. O51: why a lane that lingers refutes it. -/

namespace Sys2Proof.Machine

/-- FORCE_SUBSTITUTE of session 0, action 1 on CH0, received at tick 0 (Table 16.1). -/
def substituteCH0 : Request := { bytes := octets [0x5A, 0, 0, 0, 0x04, 0x0C, 4, 0, 0xFF, 0x20, 0, 0, 1, 0, 0, 0] }

/-- The part whose one lane in service lingers until tick 8,000, with that request at H0 from the session that owns it. -/
def lingeringAsked : State :=
  { lingeringLane with host := { lingeringLane.host with
      owner := some 0
      sessions := alter lingeringLane.host.sessions 0 (fun x => { x with isOpen := true })
      h0 := { rx := [substituteCH0] } } }

/-- No check fails the request when P0 takes it at tick 8,000. -/
theorem lingeringAsked_calls : forceChannelRow.calls 8000 .h0 lingeringAsked substituteCH0 = true := by decide +kernel

/-- At tick 0 no lane can take a channel substitution, so that the statement answers NO_RESOURCE. -/
theorem lingeringAsked_lanesFor : lingeringAsked.lanesFor 2 = [] := by decide

/-- At tick 8,000 the lane is free and takes CH0 (R149, R357). -/
theorem lingeringAsked_substitutes {u : State} (run : exec (.forceSubstituteChannel 8000 .h0) lingeringAsked = .next u) :
    u.health.substituted = [0] := by
  cases run
  decide +kernel

/-- Refutes O51: no lane can take the channel in the state before FORCE_SUBSTITUTE, but the one that lingers is free at the instant the request
is taken, so the channel is substituted where the clause on `lanesFor` answers NO_RESOURCE. -/
theorem not_healthRequests : ¬ Obligations.HealthRequests := by
  unfold Obligations.HealthRequests
  intro h
  obtain ⟨-, -, -, -, -, force, -⟩ := h 8000 .h0 lingeringAsked substituteCH0
  obtain ⟨-, -, refused, -⟩ := force lingeringAsked_calls
  have run := refused (by decide) (by decide) (by decide) lingeringAsked_lanesFor
  exact absurd (lingeringAsked_substitutes run) (by decide +kernel)

end Sys2Proof.Machine
end

section
/-! SUPPORT. The event log, its checkpoints, the end of a format, retired blocks (R385-R393). -/

namespace Sys2Proof.Machine

/-! ### The rings (R389, R393) -/

section Rings
variable {α : Type} (size : α → Nat) (low : Nat)

/-- What is erased moves the start of the ring by its size. -/
theorem dropBelow_stop (l : List α) (p : Nat) :
    (dropBelow size low p l).1 + ((dropBelow size low p l).2.map size).sum = p + (l.map size).sum := by
  induction l generalizing p with
  | nil => rfl
  | cons r l ih =>
    unfold dropBelow
    split
    · rw [ih, List.map_cons, List.sum_cons, Nat.add_assoc]
    · rfl

/-- The records that begin at the erased position or above stay. -/
theorem dropBelow_keeps (a b : List α) (p : Nat) (above : low ≤ p + (a.map size).sum) : b <:+ (dropBelow size low p (a ++ b)).2 := by
  induction a generalizing p with
  | nil =>
    cases b with
    | nil => exact List.nil_suffix
    | cons r b =>
      have kept : dropBelow size low p (r :: b) = (p, r :: b) := if_neg (Nat.not_lt.2 above)
      rw [List.nil_append, kept]
  | cons r a ih =>
    rw [List.cons_append]
    unfold dropBelow
    split
    · exact ih _ (by rwa [Nat.add_assoc, ← List.sum_cons, ← List.map_cons])
    · exact (List.suffix_append a b).trans (List.suffix_cons r _)

end Rings

/-- The log holds its newest records, within its ring, from the blocks that are not erased on. -/
theorem trimLog_spec (room start : Nat) (l : List LogRecord) :
    let held := trimLog room start l
    let stop := start + (l.map LogRecord.size).sum
    let low := (stop + 262143) / 262144 * 262144 - room
    held.2 <:+ l ∧ held.1 + (held.2.map LogRecord.size).sum = stop ∧ (held.2.map LogRecord.size).sum ≤ room ∧
    (held.2 ≠ [] → low ≤ held.1) ∧ (∀ a b, l = a ++ b → low ≤ start + (a.map LogRecord.size).sum → b <:+ held.2) := by
  intro held stop low
  have total : held.1 + (held.2.map LogRecord.size).sum = stop := dropBelow_stop ..
  have from_ : held.2 = [] ∨ low ≤ held.1 := dropBelow_start ..
  refine ⟨dropBelow_suffix .., total, ?_, fun some_ => from_.resolve_left some_, ?_⟩
  · rcases from_ with none_ | above
    · simp [none_]
    · omega
  · rintro a b rfl above
    exact dropBelow_keeps _ _ _ _ _ above

/-- The journal loses its oldest records only. -/
theorem State.trimJournal_suffix (s : State) (low : Nat) (l : List JournalRecord) (p : Nat) : (s.trimJournal low p l).2 <:+ l := by
  induction l generalizing p with
  | nil => exact List.suffix_rfl
  | cons r l ih =>
    unfold State.trimJournal
    split
    · exact (ih _).trans (List.suffix_cons r l)
    · exact List.suffix_rfl

/-- A record joins the journal, which keeps its newest and all that restore may need (R389). -/
theorem State.journalAdd_keeps {s : State} (writes : s.storeWrites = true) (r x : JournalRecord) :
    let r' := { r with sequence := s.store.nextJournal }
    let s' : State := { s with store := { s.store with journal := s.store.journal ++ [r'], nextJournal := s.store.nextJournal + 1 } }
    let u := s.journalAdd r
    u.store.journal <:+ s'.store.journal ∧ u.store.nextJournal = s.store.nextJournal + 1 ∧
    (x ∈ s'.store.journal → s'.needs x = true → x ∈ u.store.journal) := by
  unfold State.journalAdd
  rw [if_pos writes]
  exact ⟨State.trimJournal_suffix .., rfl, fun held needed => State.trimJournal_keeps _ _ _ needed _ _ held⟩

/-- A record that fits a ring of a block more than itself is the newest of the log. -/
theorem trimLog_getLast {room start : Nat} (l : List LogRecord) (x : LogRecord) (fits : x.size + 262144 ≤ room) :
    (trimLog room start (l ++ [x])).2.getLast? = some x := by
  have stays : [x] <:+ (trimLog room start (l ++ [x])).2 := by
    refine dropBelow_keeps _ _ l [x] start ?_
    simp only [erasedBelow, List.map_append, List.map_cons, List.map_nil, List.sum_append, List.sum_cons, List.sum_nil]
    omega
  obtain ⟨a, split⟩ := stays
  rw [← split, List.getLast?_append_of_ne_nil _ (List.cons_ne_nil _ _)]
  rfl

theorem State.logAppend_extends {s : State} (writes : s.storeWrites = true) (kind time : Nat) {body : List Byte}
    (fits : 28 + body.length + 262144 ≤ s.store.boot.layout.getD 0 0 * 4194304) :
    let u := s.logAppend kind time body
    let x : LogRecord := { sequence := s.store.nextLog, time := time, kind := kind, body := body }
    u.store.log.getLast? = some x ∧ u.store.chain = sha512 (s.store.chain ++ x.bytes) ∧ u.store.nextLog = s.store.nextLog + 1 := by
  unfold State.logAppend
  rw [if_pos writes]
  exact ⟨trimLog_getLast _ _ fits, rfl, rfl⟩

/-! ### Checkpoints (R392) -/

/-- A checkpoint is 600 bytes (Table 12.19). -/
theorem State.length_checkpointBody (s : State) : s.checkpointBody.length = 600 := by
  unfold State.checkpointBody
  simp only [List.length_append, length_le, length_fit, length_zeros]

theorem logCheckpoint_leads {t : Nat} {s : State} (writes : s.storeWrites = true) (whole : s.power.commit = none)
    (identity : s.sec.identity = true) (room : s.sec.signing.length < 256) (none_ : s.sec.backlog = [])
    (blocks : 1 ≤ s.store.boot.layout.getD 0 0) (due : s.store.lastCheckpoint + 4096 < s.store.nextLog) :
    Leads (.logCheckpoint t) s (fun u =>
      (∃ x, u.store.log.getLast? = some x ∧ x.sequence = s.store.nextLog ∧ x.kind = 0x0101 ∧ x.body.length = 600) ∧
      u.store.lastCheckpoint = s.store.nextLog ∧ u.store.nextLog = s.store.nextLog + 1 ∧ u.store.uncovered = none ∧
      u.sec.signing = s.sec.signing ++ [.checkpoint s.store.nextLog] ∧ u.store.journal = s.store.journal) := by
  have asked : ((s.tickTo t).checkpointDue && (s.tickTo t).power.commit.isNone) = true := by
    rw [State.tickTo_power, whole, State.checkpointDue, State.tickTo_store, decide_eq_true due]
    rfl
  have fits : 28 + (s.tickTo t).checkpointBody.length + 262144 ≤ (s.tickTo t).store.boot.layout.getD 0 0 * 4194304 := by
    rw [State.length_checkpointBody, State.tickTo_store]
    omega
  have writes' : (s.tickTo t).storeWrites = true := writes
  obtain ⟨last, -, next⟩ := State.logAppend_extends writes' 0x0101 (s.tickTo t).stampNow fits
  have frame := (s.tickTo t).logAppend_frame 0x0101 (s.tickTo t).stampNow (s.tickTo t).checkpointBody
  have journal := (s.tickTo t).logAppend_journal 0x0101 (s.tickTo t).stampNow (s.tickTo t).checkpointBody
  have run : exec (.logCheckpoint t) s = .next (s.tickTo t).writeCheckpoint := congrArg Host.Outcome.next (if_pos asked)
  refine ⟨_, run, ?_⟩
  unfold State.writeCheckpoint
  rw [if_pos writes']
  dsimp only
  generalize (s.tickTo t).logAppend 0x0101 (s.tickTo t).stampNow (s.tickTo t).checkpointBody = v at last next frame journal
  have sec : v.sec = s.sec := by rw [frame, State.tickTo_sec]
  rw [if_pos (by rw [sec]; exact identity), State.queueJob_room _ (by rw [sec]; exact room) (by rw [sec]; exact none_)]
  exact ⟨⟨_, last, rfl, rfl, State.length_checkpointBody _⟩, rfl, next, rfl, by rw [sec]; rfl, journal⟩

/-! ### STORE_FORMAT (R386) -/

section Format
variable {t : Nat} {p : Port} {s : State} {q : Request} (called : storeFormatRow.calls t p s q = true)
include called

theorem storeFormat_busy (busy : s.storeBusy = true) : Ends (.storeFormat t p) s (Req.of p q) stWrongState [] (s.taken t p) :=
  ends_of_body rfl called (judged_hit (by rw [← busy]; simp [State.storeBusy]))

theorem storeFormat_starts (idle : s.storeBusy = false) (room : s.opRoom (Req.of p q).session = true) :
    Answers (.storeFormat t p) s (Req.of p q) stAccepted (le 2 s.host.nextTag) (fun u =>
      u.store = { (s.taken t p).store with formatting := some (s.host.nextTag, (Req.of p q).session, (Req.of p q).layout) } ∧
      u.bill = (s.taken t p).bill) := by
  obtain ⟨host, ends⟩ := answers_accept (i := .storeFormat t p)
    (f := fun tag v => { v with store := { v.store with formatting := some (tag, (Req.of p q).session, (Req.of p q).layout) } }) rfl called room
    (judged_miss (by rw [← idle]; simp [State.storeBusy]))
  exact ⟨_, ends, rfl, rfl⟩

end Format

/-- The marks of a session are no part of its events. -/
theorem State.completeOp_marks {s : State} (bare : ∀ x ∈ s.host.sessions, x.marks = []) (tag status : Nat) (detail : List Byte) :
    ∀ x ∈ (s.completeOp tag status detail).host.sessions, x.marks = [] := by
  have kept : (s.completeOp tag status detail).host.sessions.map Session.marks = s.host.sessions.map Session.marks := by
    unfold State.completeOp
    split
    · rfl
    · exact map_alter (by rw [Session.offer_frame])
  have all : ∀ m ∈ s.host.sessions.map Session.marks, m = [] := List.forall_mem_map.2 bare
  rw [← kept] at all
  exact List.forall_mem_map.1 all

/-- The parks that a format ends are operations. -/
theorem State.endParks_frame (s : State) : ∃ host, s.endParks = { s with host := host } := by
  unfold State.endParks
  refine List.foldlRecOn s.bill.parking _ (motive := fun u : State => ∃ host, u = { s with host := host }) ⟨s.host, rfl⟩ ?_
  rintro u ⟨host, rfl⟩ x -
  rw [State.completeOp_frame]
  exact ⟨_, rfl⟩

theorem storeFormatComplete_leads {t tag session : Nat} {layout : List Nat} {s : State}
    (formats : s.store.formatting = some (tag, session, layout)) (runs : s.firmware = true) (room : 1 ≤ layout.getD 0 0) :
    Leads (.storeFormatComplete t) s (fun u =>
      u.bill.live = [] ∧ u.store.journal.map (fun x => (x.sequence, x.type)) = [(1, 7)] ∧ u.store.nextSerial = 1 ∧ u.store.nextJournal = 2 ∧
      u.store.state = 1 ∧ u.store.formatting = none ∧ u.sec.signing = s.sec.signing.filter (fun j => !j.isRecord) ∧
      (s.store.state ≠ 2 → u.store.nextLog = 2 ∧ u.store.log.map (fun x => (x.sequence, x.kind)) = [(1, 0x0102)]) ∧
      (s.store.state = 2 → u.store.nextLog = 3 ∧ u.store.log.map (fun x => (x.sequence, x.kind)) = [(1, 0x0102), (2, 147)]) ∧
      u.store.rings.map Ring.size = (List.range 8).map (fun k => layout.getD (k + 1) 0) ∧ (∀ x ∈ u.host.sessions, x.marks = []) ∧
      u.mesh.nodes = [] ∧ u.cal.slots = [none, none] ∧ (∀ o ∈ u.host.ops, o.tag ≠ tag)) := by
  have run : exec (.storeFormatComplete t) s = .next
      (((s.tickTo t).endParks.formatStore layout).completeOp tag stOk (le 4 (((s.tickTo t).endParks.formatStore layout).poolSize / 1048576))) := by
    refine (show exec (.storeFormatComplete t) s = execStoreFormatComplete t s from rfl).trans ?_
    unfold execStoreFormatComplete
    dsimp only
    rw [State.tickTo_store, formats]
    exact congrArg Host.Outcome.next (if_pos runs)
  obtain ⟨host, parks⟩ := (s.tickTo t).endParks_frame
  obtain ⟨cleared, journal, log⟩ := (s.tickTo t).endParks.formatStore_leaves layout
  refine ⟨_, run, ?_⟩
  generalize (s.tickTo t).endParks.formatStore layout = f at cleared journal log
  rw [parks] at cleared journal log
  obtain ⟨one, two⟩ := journal runs
  obtain ⟨written, readOnly⟩ := log runs room
  have marks := State.completeOp_marks cleared.marks tag stOk (le 4 (f.poolSize / 1048576))
  have gone := State.completeOp_gone_all f tag stOk (le 4 (f.poolSize / 1048576))
  have frame := f.completeOp_frame tag stOk (le 4 (f.poolSize / 1048576))
  generalize f.completeOp tag stOk (le 4 (f.poolSize / 1048576)) = u at marks gone frame
  have store : u.store = f.store := by rw [frame]
  have sec : u.sec = f.sec := by rw [frame]
  have bill : u.bill = f.bill := by rw [frame]
  have mesh : u.mesh = f.mesh := by rw [frame]
  have cal : u.cal = f.cal := by rw [frame]
  rw [store, sec, bill, mesh, cal]
  exact ⟨cleared.live, one, cleared.nextSerial, two, cleared.state, cleared.formatting, by rw [cleared.sec]; rfl, written, readOnly, cleared.rings,
    marks, cleared.nodes, cleared.slots, gone⟩

/-! ### Blocks that fail (R385) -/

/-- What the store holds that neither an event nor the end of its writes touches. -/
def State.pages (s : State) : List Device × List JournalRecord × List (Context × Nat) × List Ring :=
  (s.store.devices, s.store.journal, s.store.pool, s.store.rings)

@[simp] theorem State.raise_pages (s : State) (source time : Nat) (body : List Byte) : (s.raise source time body).pages = s.pages := by
  rw [State.pages, State.raise_storeFrame]
  rfl

@[simp] theorem State.abandonUpdate_pages (s : State) : s.abandonUpdate.pages = s.pages := by
  unfold State.abandonUpdate
  split
  · rfl
  · exact State.raise_pages ..

@[simp] theorem State.storeReadOnly_pages (s : State) : s.storeReadOnly.pages = s.pages := by
  unfold State.storeReadOnly
  split
  · exact (State.raise_pages ..).trans (State.abandonUpdate_pages _)
  · rfl

/-- A store that was written becomes read-only, and an update that was open is abandoned. -/
theorem State.storeReadOnly_state (s : State) : s.storeReadOnly.store.state = (if s.store.state = 1 then 2 else s.store.state) ∧
    (s.store.state = 1 → s.storeReadOnly.sec.update = none) := by
  unfold State.storeReadOnly
  split
  · dsimp only
    rw [State.raise_storeState, State.abandonUpdate_storeState, State.raise_frame, State.abandonUpdate_frame]
    exact ⟨rfl, fun _ => rfl⟩
  · next other => exact ⟨rfl, fun writes => absurd writes other⟩

/-- Where the records of a ring lie. -/
def Ring.positions (g : Ring) : List Nat := g.records.map RingRecord.position

/-- What the loss of some pages leaves of a state. -/
structure Spoilt (s : State) (lost : List LostPage) (u : State) : Prop where
  state : u.store.state = s.store.state
  devices : u.store.devices = s.store.devices
  pool : u.store.pool = s.store.pool
  journal : u.store.journal = s.store.journal.filter (fun r => !lost.contains (.journal r.sequence))
  positions : u.store.rings.map Ring.positions = s.store.rings.map Ring.positions
  rings : lost = [] → u.store.rings = s.store.rings

/-- A page spoils its journal record or the bytes of its capture record, and nothing else of these. -/
theorem State.losePage_leaves (s : State) (x : LostPage) : (s.losePage x).store.state = s.store.state ∧
    (s.losePage x).store.devices = s.store.devices ∧ (s.losePage x).store.pool = s.store.pool ∧
    (s.losePage x).store.journal = s.store.journal.filter (fun r => LostPage.journal r.sequence ≠ x) ∧
    (s.losePage x).store.rings.map Ring.positions = s.store.rings.map Ring.positions := by
  have all : ∀ c : JournalRecord → Bool, (∀ r, c r = true) → s.store.journal = s.store.journal.filter c :=
    fun c always => (List.filter_eq_self.2 fun r _ => always r).symm
  cases x with
  | journal n => exact ⟨rfl, rfl, rfl, by simp [State.losePage], rfl⟩
  | context n => exact ⟨rfl, rfl, rfl, all _ (fun _ => rfl), rfl⟩
  | log n => exact ⟨rfl, rfl, rfl, all _ (fun _ => rfl), rfl⟩
  | capture k pos =>
    refine ⟨rfl, rfl, rfl, all _ (fun _ => rfl), map_alter ?_⟩
    have kept : ∀ l : List RingRecord, (alterWhere l (fun r => r.position = pos)
        (fun r => s.spoilRecord k s.draw.1 r)).map RingRecord.position = l.map RingRecord.position := by
      intro l
      rw [alterWhere, List.map_map]
      refine List.map_congr_left fun r _ => ?_
      rw [Function.comp_apply]
      split <;> rfl
    exact kept _

theorem State.losePages_spoil (lost : List LostPage) (s : State) : Spoilt s lost (lost.foldl State.losePage s) := by
  induction lost generalizing s with
  | nil => exact ⟨rfl, rfl, rfl, by simp, rfl, fun _ => rfl⟩
  | cons x lost ih =>
    obtain ⟨state, devices, pool, journal, positions⟩ := s.losePage_leaves x
    obtain ⟨state', devices', pool', journal', positions', -⟩ := ih (s.losePage x)
    refine ⟨state'.trans state, devices'.trans devices, pool'.trans pool, ?_, positions'.trans positions, nofun⟩
    rw [List.foldl_cons, journal', journal, List.filter_filter]
    refine List.filter_congr fun r _ => ?_
    simp [Bool.and_comm]

/-- A block of a device goes to a spare, and few spares left are told. -/
def State.retireBlock (s : State) (device : Nat) (d : Device) : State :=
  let s := { s with store := { s.store with
    devices := alter s.store.devices device (fun d => { d with retired := sat 16 (d.retired + 1), spare := d.spare - 1 }) } }
  let s := s.raise 145 s.stampNow (objBody 0 [])
  if 4 * (d.spare - 1) < d.spares && d.spares ≤ 4 * d.spare then s.raise 146 s.stampNow (objBody 0 []) else s

theorem State.retireBlock_leaves (s : State) (device : Nat) (d : Device) : (s.retireBlock device d).store.state = s.store.state ∧
    (s.retireBlock device d).pages = (alter s.store.devices device (fun d => { d with retired := sat 16 (d.retired + 1), spare := d.spare - 1 }),
      s.store.journal, s.store.pool, s.store.rings) := by
  unfold State.retireBlock
  extract_lets _ moved told
  have state : told.store.state = s.store.state := State.raise_storeState ..
  have pages : told.pages = moved.pages := State.raise_pages ..
  split
  · exact ⟨(State.raise_storeState ..).trans state, (State.raise_pages ..).trans pages⟩
  · exact ⟨state, pages⟩

section Retire
variable {t device : Nat} {lost : List LostPage} {s : State} (named : device < 2) (held : device < s.store.devices.length)
  (runs : s.firmware = true) (present : (nth s.store.devices device).present = true)

include named runs present in
/-- A command on a device that is present runs its branch. -/
theorem exec_blockRetire : exec (.blockRetire t device lost) s = .next
    (let d := nth s.store.devices device
     let s := lost.foldl State.losePage (s.tickTo t)
     if d.spare = 0 then s.storeReadOnly
     else if d.spare = 1 then (s.retireBlock device d).storeReadOnly
     else s.retireBlock device d) :=
  (if_pos (decide_eq_true named)).trans (congrArg Host.Outcome.next (if_pos (Bool.and_eq_true_iff.2 ⟨runs, present⟩)))

include named runs present

theorem blockRetire_spent (spent : (nth s.store.devices device).spare = 0) (writes : s.store.state = 1) :
    Leads (.blockRetire t device lost) s (fun u => u.store.state = 2 ∧ u.sec.update = none ∧ u.store.devices = s.store.devices ∧
      u.store.journal = s.store.journal.filter (fun r => !lost.contains (.journal r.sequence))) := by
  have spoilt := State.losePages_spoil lost (s.tickTo t)
  refine ⟨_, (exec_blockRetire named runs present).trans (congrArg Host.Outcome.next (if_pos spent)), ?_⟩
  generalize lost.foldl State.losePage (s.tickTo t) = v at spoilt
  obtain ⟨state, devices, -, journal, -, -⟩ := spoilt
  have one : v.store.state = 1 := state.trans writes
  obtain ⟨two, closed⟩ := v.storeReadOnly_state
  have pages := v.storeReadOnly_pages
  rw [if_pos one] at two
  exact ⟨two, closed one, (congrArg Prod.fst pages).trans devices, (congrArg (fun x => x.2.1) pages).trans journal⟩

include held

theorem blockRetire_spares (left : 0 < (nth s.store.devices device).spare) : Leads (.blockRetire t device lost) s (fun u =>
    nth u.store.devices device = { nth s.store.devices device with
      retired := sat 16 ((nth s.store.devices device).retired + 1), spare := (nth s.store.devices device).spare - 1 } ∧
    u.store.state = (if (nth s.store.devices device).spare = 1 ∧ s.store.state = 1 then 2 else s.store.state) ∧
    u.store.journal = s.store.journal.filter (fun r => !lost.contains (.journal r.sequence)) ∧ u.store.pool = s.store.pool ∧
    u.store.rings.map (fun g => g.records.map RingRecord.position) = s.store.rings.map (fun g => g.records.map RingRecord.position) ∧
    (lost = [] → u.store.rings = s.store.rings)) := by
  have spoilt := State.losePages_spoil lost (s.tickTo t)
  refine ⟨_, (exec_blockRetire named runs present).trans (congrArg Host.Outcome.next (if_neg (Nat.ne_of_gt left))), ?_⟩
  generalize lost.foldl State.losePage (s.tickTo t) = v at spoilt
  obtain ⟨state, devices, pool, journal, positions, rings⟩ := spoilt
  obtain ⟨kept, moved⟩ := v.retireBlock_leaves device (nth s.store.devices device)
  generalize v.retireBlock device (nth s.store.devices device) = w at kept moved
  have final : State.pages (if (nth s.store.devices device).spare = 1 then w.storeReadOnly else w) = w.pages := by
    split
    · exact w.storeReadOnly_pages
    · rfl
  have whole : (State.store (if (nth s.store.devices device).spare = 1 then w.storeReadOnly else w)).state =
      if (nth s.store.devices device).spare = 1 ∧ s.store.state = 1 then 2 else s.store.state := by
    have same : w.store.state = s.store.state := kept.trans state
    rw [← same]
    by_cases last : (nth s.store.devices device).spare = 1
    · simp only [last, if_true, w.storeReadOnly_state.1, true_and]
    · simp only [last, if_false, false_and]
  generalize (if (nth s.store.devices device).spare = 1 then w.storeReadOnly else w) = u at final whole
  have pages := final.trans moved
  have alters := congrArg Prod.fst pages
  refine ⟨?_, whole, (congrArg (fun x => x.2.1) pages).trans journal, (congrArg (fun x => x.2.2.1) pages).trans pool, ?_,
    fun none_ => (congrArg (fun x => x.2.2.2) pages).trans (rings none_)⟩
  · refine (congrArg (nth · device) alters).trans ?_
    dsimp only
    rw [devices]
    exact nth_alter _ _ _ held
  · exact (congrArg (fun x => x.2.2.2.map Ring.positions) pages).trans positions

end Retire

end Sys2Proof.Machine
end

section
/-! SUPPORT. The event log and the store's upkeep: the obligation. -/

open Sys2Proof.Machine

/-- Settles O46: the rings lose what begins below their erased blocks, a checkpoint and a format are what they write, and a block retired is a
spare less, or the end of writing. -/
theorem logKeepsNewest : Obligations.LogKeepsNewest := by
  unfold Obligations.LogKeepsNewest
  exact ⟨⟨trimLog_spec, fun s r x writes => State.journalAdd_keeps writes r x,
      fun s kind time body writes fits => State.logAppend_extends writes kind time fits,
      fun t s => logCheckpoint_leads⟩,
    fun t p s q called => ⟨storeFormat_busy called, storeFormat_starts called⟩,
    fun t tag session layout s => storeFormatComplete_leads,
    fun t device lost s named held runs present =>
      ⟨blockRetire_spent named runs present, blockRetire_spares named held runs present⟩⟩

end

section
/-! SUPPORT. Lanes and dies (R341-R353): what the work of the lanes leaves of the checker's findings, and of who carries a channel. -/

namespace Sys2Proof.Machine

/-! ### What the checker has found -/

/-- What the checker has found of a channel. -/
def Channel.verdict (c : Channel) : Bool × Bool × F32 × F32 × F32 := (c.suspect, c.faulty, c.dwell)

/-- What the checker has found of the channels and the lanes, and the die that is substituted. -/
structure Findings where
  verdicts : List (Bool × Bool × F32 × F32 × F32)
  services : List Bool
  transients : Nat
  substituting : Option Nat

def State.findings (s : State) : Findings where
  verdicts := s.channels.map Channel.verdict
  services := s.converters.map Converter.inService
  transients := s.health.transients
  substituting := s.health.substituting

section Found
variable {s u : State} (same : u.findings = s.findings)
include same

theorem chan_verdict_of_findings (n : Nat) : (u.chan n).verdict = (s.chan n).verdict := nth_of_map (congrArg Findings.verdicts same) n

theorem suspect_of_findings (n : Nat) : (u.chan n).suspect = (s.chan n).suspect := congrArg Prod.fst (chan_verdict_of_findings same n)

theorem faulty_of_findings (n : Nat) : (u.chan n).faulty = (s.chan n).faulty := congrArg (fun x => x.2.1) (chan_verdict_of_findings same n)

theorem dwell_of_findings (n : Nat) : (u.chan n).dwell = (s.chan n).dwell := congrArg (fun x => x.2.2) (chan_verdict_of_findings same n)

theorem inService_of_findings (k : Nat) : (u.conv k).inService = (s.conv k).inService := nth_of_map (congrArg Findings.services same) k

theorem transients_of_findings : u.health.transients = s.health.transients := congrArg Findings.transients same

theorem substituting_of_findings : u.health.substituting = s.health.substituting := congrArg Findings.substituting same

end Found

theorem State.setChan_findings (s : State) (n : Nat) {f : Channel → Channel} (keeps : ∀ c, (f c).verdict = c.verdict) :
    (s.setChan n f).findings = s.findings :=
  congrArg (fun l => { s.findings with verdicts := l }) (map_alter (keeps _))

theorem State.setConv_findings (s : State) (u : Nat) {f : Converter → Converter} (keeps : ∀ c, (f c).inService = c.inService) :
    (s.setConv u f).findings = s.findings :=
  congrArg (fun l => { s.findings with services := l }) (map_alter (keeps _))

/-! ### Events, choices, stages -/

@[simp] theorem State.raise_findings (s : State) (source time : Nat) (body : List Byte) : (s.raise source time body).findings = s.findings := by
  rw [State.raise_frame]
  rfl

@[simp] theorem State.note_findings (s : State) (kind outcome handle carrier rung : Nat) :
    (s.note kind outcome handle carrier rung).findings = s.findings := by
  rw [State.note_frame]
  rfl

@[simp] theorem State.noteOf_findings (s : State) (kind outcome handle carrier rung detail : Nat) :
    (s.noteOf kind outcome handle carrier rung detail).findings = s.findings := by
  rw [State.noteOf, State.repair_frame]
  rfl

@[simp] theorem State.completeOp_findings (s : State) (tag status : Nat) (detail : List Byte) :
    (s.completeOp tag status detail).findings = s.findings := by
  rw [State.completeOp_frame]
  rfl

theorem findings_of_pick {s u : State} {l : List Nat} {k : Option Nat} (picked : s.pick l = (k, u)) : u.findings = s.findings := by
  unfold State.pick at picked
  split at picked <;> cases picked <;> rfl

@[simp] theorem Channel.completeFade_verdict (c : Channel) : c.completeFade.verdict = c.verdict := by
  unfold Channel.completeFade
  split <;> rfl

@[simp] theorem State.disturb_findings (s : State) (u : Nat) : (s.disturb u).findings = s.findings := by
  have settles : ∀ v : State, (State.disturbNarrow v u).findings = v.findings := fun v => State.setConv_findings v u (fun _ => rfl)
  unfold State.disturb
  dsimp only
  rw [State.setConv_findings _ _ (by exact fun _ => rfl), settles]
  split
  · exact State.setChan_findings s _ Channel.completeFade_verdict
  · rfl

/-! ### Carriers and lanes (R344, R345, R352) -/

@[simp] theorem State.setCarrier_findings (s : State) (n : Nat) (c : Carrier) (interrupted : Bool) :
    (s.setCarrier n c interrupted).findings = s.findings := State.setChan_findings s n (fun _ => rfl)

@[simp] theorem State.carry_findings (s : State) (n : Nat) (c : Carrier) : (s.carry n c).findings = s.findings := by
  unfold State.carry
  extract_lets was u
  have kept : u.findings = s.findings := by
    unfold u
    rw [State.setChan_findings _ n (by exact fun _ => rfl), State.setCarrier_findings]
  split
  · exact (State.note_findings ..).trans kept
  · exact kept

@[simp] theorem State.lose_findings (s : State) (n : Nat) : (s.lose n).findings = s.findings := by
  unfold State.lose
  split
  · rfl
  · rw [State.note_findings, State.setChan_findings _ n (by exact fun _ => rfl), State.setCarrier_findings]

@[simp] theorem State.goHome_findings (s : State) (n : Nat) : (s.goHome n).findings = s.findings := by
  unfold State.goHome
  split
  · exact State.carry_findings ..
  · exact State.lose_findings ..

@[simp] theorem State.cutOver_findings (s : State) (n old new : Nat) : (s.cutOver n old new).findings = s.findings :=
  State.setChan_findings s n (fun _ => rfl)

@[simp] theorem State.pauseChecker_findings (s : State) (k : Nat) : (s.pauseChecker k).findings = s.findings := by
  unfold State.pauseChecker
  split <;> rfl

@[simp] theorem State.release_findings (s : State) (k : Nat) : (s.release k).findings = s.findings := State.setConv_findings s _ (fun _ => rfl)

@[simp] theorem State.letGo_findings (s : State) (k : Nat) : (s.letGo k).findings = s.findings := State.setConv_findings s _ (fun _ => rfl)

@[simp] theorem State.assign_findings (s : State) (k n prec : Nat) : (s.assign k n prec).findings = s.findings := by
  unfold State.assign
  dsimp only
  rw [State.disturb_findings, State.setConv_findings _ _ (by exact fun _ => rfl), State.pauseChecker_findings]

@[simp] theorem State.substitute_findings (s : State) (n k : Nat) : (s.substitute n k).findings = s.findings := by
  unfold State.substitute
  extract_lets u _ v _ w
  have kept : v.findings = s.findings := State.assign_findings ..
  have carried : w.findings = s.findings := by
    unfold w
    split
    · exact kept
    · rw [State.carry_findings, State.setChan_findings v n Channel.completeFade_verdict, kept]
  rw [State.note_findings, carried]

@[simp] theorem State.substituteIfFree_findings (s : State) (n : Nat) : (s.substituteIfFree n).findings = s.findings := by
  unfold State.substituteIfFree
  split
  · next picked => exact findings_of_pick picked
  · next picked => rw [State.substitute_findings, findings_of_pick picked]

@[simp] theorem State.keepLane_findings (s : State) (n k : Nat) : (s.keepLane n k).findings = s.findings := by
  unfold State.keepLane
  extract_lets kept _ u
  have same : kept.findings = s.findings := State.setConv_findings s _ (fun _ => rfl)
  have moved : u.findings = kept.findings := by
    unfold u
    split <;> rfl
  exact moved.trans same

/-! ### Slices and benches (R340-R342) -/

@[simp] theorem State.rearm_findings (s : State) (n : Nat) (slow : Bool) : (s.rearm n slow).findings = s.findings := by
  unfold State.rearm
  rw [State.alarmClear_frame]
  exact State.setChan_findings s n (fun c => by cases slow <;> rfl)

@[simp] theorem State.benchFails_findings (s : State) (u b : Nat) : (s.benchFails u b).findings = s.findings := by
  unfold State.benchFails
  extract_lets old failed held mode noted dead lane
  have keptFailed : failed.findings = s.findings := State.setConv_findings s _ (fun _ => rfl)
  have keptHeld : held.findings = s.findings := by
    unfold held
    rw [State.setChan_findings _ u (by exact fun _ => rfl), keptFailed]
  have keptMode : mode.findings = s.findings := by
    unfold mode
    split
    · split
      · exact keptHeld
      · rw [State.rearm_findings, State.rearm_findings, keptHeld]
    · exact keptFailed
  have keptNoted : noted.findings = s.findings := (State.note_findings ..).trans keptMode
  have keptLane : lane.findings = s.findings := by
    unfold lane
    split
    · split
      · rw [State.note_findings, State.keepLane_findings, keptNoted]
      · split
        · rw [State.substituteIfFree_findings, keptNoted]
        · exact keptNoted
    · exact keptNoted
  split
  · split
    · split
      · exact (State.carry_findings ..).trans keptLane
      · exact (State.lose_findings ..).trans keptLane
    · exact keptLane
  · exact keptNoted

@[simp] theorem State.settleBench_findings (s : State) (u b : Nat) (failing : List Nat) : (s.settleBench u b failing).findings = s.findings := by
  unfold State.settleBench
  split
  · rfl
  · split
    · exact State.benchFails_findings ..
    · exact (State.note_findings ..).trans (State.setConv_findings s u (fun _ => rfl))

@[simp] theorem State.settleSlices_findings (s : State) (u : Nat) : (s.settleSlices u).findings = s.findings := by
  unfold State.settleSlices
  dsimp only
  split
  · rfl
  · rw [State.settleBench_findings, State.settleBench_findings, State.disturb_findings, State.setConv_findings _ _ (by exact fun _ => rfl)]

/-! ### Sweeps (R145-R162) -/

@[simp] theorem State.abortUnit_findings (s : State) (u : Nat) : (s.abortUnit u).findings = s.findings := by
  unfold State.abortUnit State.sweepEvent State.setCal
  dsimp only
  rw [State.raise_findings, State.setConv_findings _ _ (by exact fun _ => rfl)]
  rfl

@[simp] theorem State.interrupt_findings (s : State) (u : Nat) (bridge : Option Nat) : (s.interrupt u bridge).findings = s.findings := by
  unfold State.interrupt
  extract_lets v
  have kept : v.findings = s.findings := by
    unfold v
    split
    · split
      · rw [State.cutOver_findings, State.carry_findings]
      · exact State.setCarrier_findings ..
    · rfl
  exact kept

@[simp] theorem State.sweepLosesLane_findings (s : State) (k : Nat) : (s.sweepLosesLane k).findings = s.findings := by
  unfold State.sweepLosesLane
  extract_lets _ v own dropped
  have kept : v.findings = s.findings := rfl
  split
  · split
    · exact kept
    · split
      · exact (State.interrupt_findings ..).trans kept
      · split
        · split
          · exact (State.abortUnit_findings ..).trans kept
          · exact kept
        · split
          · exact (State.setCarrier_findings ..).trans kept
          · exact kept
  · exact kept

/-! ### Lanes taken and freed (R344, R348, R350) -/

@[simp] theorem State.evict_findings (s : State) (k : Nat) : (s.evict k).findings = s.findings := by
  unfold State.evict
  split
  · rfl
  · next j job =>
    extract_lets n again _ own swept _ dropped back settled freed rest _ ended lost
    have keptSwept : swept.findings = s.findings := State.sweepLosesLane_findings ..
    have keptBack : back.findings = s.findings := by
      unfold back
      split
      · exact (State.carry_findings ..).trans keptSwept
      · exact keptSwept
    have keptSettled : settled.findings = s.findings := by
      unfold settled
      split
      · exact (State.settleSlices_findings ..).trans keptBack
      · exact keptSwept
    have keptRest : rest.findings = s.findings := by
      unfold rest
      split
      · split
        · exact (State.cutOver_findings ..).trans (State.goHome_findings ..)
        · exact State.goHome_findings ..
      · rfl
    have keptLost : lost.findings = s.findings := by
      unfold lost
      split
      · exact State.lose_findings ..
      · rfl
    split
    · rw [State.release_findings, State.pauseChecker_findings]
    · split
      · exact State.release_findings ..
      · split
        · exact (State.release_findings ..).trans keptSettled
        · split
          · exact (State.note_findings ..).trans ((State.release_findings ..).trans keptRest)
          · exact (State.release_findings ..).trans keptLost

/-- The settings that take effect at a dwell are no findings. -/
theorem takeConfig_findings (s : State) : State.findings { s with health := s.health.takeConfig } = s.findings := by
  unfold HealthState.takeConfig
  split <;> rfl

@[simp] theorem State.startConfirming_findings (s : State) (n first k : Nat) : (s.startConfirming n first k).findings = s.findings := by
  have kept : ((s.assign k n 4).setChan n (fun x => { x with compared := {} })).findings = s.findings := by
    rw [State.setChan_findings _ n (by exact fun _ => rfl), State.assign_findings]
  unfold State.startConfirming
  extract_lets v
  exact (takeConfig_findings v).trans kept

@[simp] theorem State.lanesFreed_findings (s : State) : s.lanesFreed.findings = s.findings := by
  unfold State.lanesFreed
  extract_lets taken
  have kept : taken.findings = s.findings := by
    refine foldl_keeps State.findings _ (fun u n => ?_) _ _
    split
    · exact State.substituteIfFree_findings ..
    · rfl
  split
  · exact kept
  · split
    · next picked => rw [findings_of_pick picked, kept]
    · next picked => rw [State.startConfirming_findings, findings_of_pick picked, kept]

@[simp] theorem State.compareFrom_findings (s : State) (n : Nat) : (s.compareFrom n).findings = s.findings :=
  State.setChan_findings s n (fun _ => rfl)

@[simp] theorem State.startDwell_findings (s : State) : s.startDwell.findings = s.findings := by
  unfold State.startDwell
  extract_lets order v
  have config : v.findings = s.findings := takeConfig_findings s
  split
  · rfl
  · split
    · exact config
    · split
      · next picked =>
        refine Eq.trans ?_ config
        rw [← findings_of_pick picked]
        exact (State.compareFrom_findings ..).trans (State.assign_findings ..)
      · exact config

end Sys2Proof.Machine
end

section
/-! SUPPORT. Lanes and dies (R341-R353): who carries a channel while lanes work for others, and bridges in both directions. -/

namespace Sys2Proof.Machine

/-! ### Who carries a channel -/

/-- Who carries a channel, and whether it is lost. -/
def Channel.carried (c : Channel) : Carrier × Bool := (c.carrier, c.lost)

/-- Who carries each channel. -/
def State.carriers (s : State) : List (Carrier × Bool) := s.channels.map Channel.carried

theorem carried_of_carriers {s u : State} (same : u.carriers = s.carriers) (n : Nat) : (u.chan n).carried = (s.chan n).carried := nth_of_map same n

theorem carrier_of_carriers {s u : State} (same : u.carriers = s.carriers) (n : Nat) : (u.chan n).carrier = (s.chan n).carrier :=
  congrArg Prod.fst (carried_of_carriers same n)

theorem State.setChan_carriers (s : State) (n : Nat) {f : Channel → Channel} (keeps : ∀ c, (f c).carried = c.carried) :
    (s.setChan n f).carriers = s.carriers := map_alter (keeps _)

@[simp] theorem State.note_carriers (s : State) (kind outcome handle carrier rung : Nat) :
    (s.note kind outcome handle carrier rung).carriers = s.carriers := by
  rw [State.note_frame]
  rfl

theorem carriers_of_pick {s u : State} {l : List Nat} {k : Option Nat} (picked : s.pick l = (k, u)) : u.carriers = s.carriers := by
  unfold State.pick at picked
  split at picked <;> cases picked <;> rfl

@[simp] theorem Channel.completeFade_carried (c : Channel) : c.completeFade.carried = c.carried := by
  unfold Channel.completeFade
  split <;> rfl

@[simp] theorem State.disturb_carriers (s : State) (u : Nat) : (s.disturb u).carriers = s.carriers := by
  unfold State.disturb
  split
  · exact State.setChan_carriers s _ Channel.completeFade_carried
  · rfl

@[simp] theorem State.assign_carriers (s : State) (k n prec : Nat) : (s.assign k n prec).carriers = s.carriers := by
  refine (State.disturb_carriers ..).trans ?_
  unfold State.pauseChecker
  split <;> rfl

/-- A channel that takes a carrier has it, and is not lost. -/
theorem State.carry_carried {s : State} {n : Nat} (part : n < s.channels.length) (c : Carrier) : ((s.carry n c).chan n).carried = (c, false) := by
  have set : (((s.setCarrier n c (s.chan n).interrupted).setChan n (fun x => { x with lost := false })).chan n).carried = (c, false) := by
    unfold State.setCarrier
    dsimp only
    rw [State.chan_setChan _ _ _ (by simpa [State.setChan] using part), State.chan_setChan _ _ _ part]
    rfl
  unfold State.carry
  dsimp only
  split
  · rw [State.note_frame]
    exact set
  · exact set

/-- The other channels keep theirs. -/
theorem State.carry_chan_ne (s : State) {n m : Nat} (other : n ≠ m) (c : Carrier) : (s.carry m c).chan n = s.chan n := by
  have set : ((s.setCarrier m c (s.chan m).interrupted).setChan m (fun x => { x with lost := false })).chan n = s.chan n := by
    rw [State.chan_setChan_ne _ _ _ _ other]
    exact State.chan_setChan_ne _ _ _ _ other
  unfold State.carry
  dsimp only
  split
  · rw [State.note_frame]
    exact set
  · exact set

/-! ### Lanes that become free leave a channel with its home (R343-R348) -/

/-- A channel whose home carries it stays there while a lane prepares to substitute for it, or for another. -/
theorem State.substitute_home {s : State} {n : Nat} (home : (s.chan n).carried = (.home, false)) (m k : Nat) :
    ((s.substitute m k).chan n).carried = (.home, false) := by
  have assigned := (carried_of_carriers (s.assign_carriers k m 2) n).trans home
  unfold State.substitute
  extract_lets u _ v _ w
  have kept : (v.chan n).carried = (.home, false) := assigned
  have carried : (w.chan n).carried = (.home, false) := by
    unfold w
    split
    · exact kept
    · next away =>
      have other : n ≠ m := by
        rintro rfl
        exact away (congrArg Prod.fst kept)
      rw [State.carry_chan_ne _ other, State.chan_setChan_ne _ _ _ _ other]
      exact kept
  rw [carried_of_carriers (State.note_carriers ..)]
  exact carried

theorem State.substituteIfFree_home {s : State} {n : Nat} (home : (s.chan n).carried = (.home, false)) (m : Nat) :
    ((s.substituteIfFree m).chan n).carried = (.home, false) := by
  unfold State.substituteIfFree
  split
  · next picked => exact (carried_of_carriers (carriers_of_pick picked) n).trans home
  · next picked => exact State.substitute_home ((carried_of_carriers (carriers_of_pick picked) n).trans home) ..

theorem State.lanesFreed_home {s : State} {n : Nat} (home : (s.chan n).carried = (.home, false)) :
    (s.lanesFreed.chan n).carried = (.home, false) := by
  unfold State.lanesFreed
  extract_lets taken
  have kept : (taken.chan n).carried = (.home, false) := by
    refine List.foldlRecOn (List.range 24) _ (motive := fun u : State => (u.chan n).carried = (.home, false)) home ?_
    intro u still m _
    split
    · exact State.substituteIfFree_home still m
    · exact still
  split
  · exact kept
  · split
    · next picked => exact (carried_of_carriers (carriers_of_pick picked) n).trans kept
    · next picked =>
      unfold State.startConfirming
      extract_lets v
      have compared : v.carriers = taken.carriers := by
        unfold v
        rw [State.setChan_carriers _ _ (by exact fun _ => rfl), State.assign_carriers, carriers_of_pick picked]
      exact (carried_of_carriers compared n).trans kept

/-! ### Slices that settle leave a channel with its lane (R341, R342) -/

@[simp] theorem State.keepLane_carriers (s : State) (n k : Nat) : (s.keepLane n k).carriers = s.carriers := by
  unfold State.keepLane
  dsimp only
  split <;> rfl

@[simp] theorem State.rearm_carriers (s : State) (n : Nat) (slow : Bool) : (s.rearm n slow).carriers = s.carriers := by
  unfold State.rearm
  rw [State.alarmClear_frame]
  exact State.setChan_carriers s n (fun c => by cases slow <;> rfl)

section Away
variable {s : State} {u : Nat} (away : (s.chan u).carrier ≠ .home)
include away

theorem State.benchFails_carriers (b : Nat) : (s.benchFails u b).carriers = s.carriers := by
  unfold State.benchFails
  extract_lets old failed held mode noted dead lane
  have keptMode : mode.carriers = s.carriers := by
    have keptHeld : held.carriers = s.carriers := by
      unfold held
      rw [State.setChan_carriers _ u (by exact fun _ => rfl)]
      rfl
    unfold mode
    split
    · split
      · exact keptHeld
      · rw [State.rearm_carriers, State.rearm_carriers, keptHeld]
    · rfl
  have keptNoted : noted.carriers = s.carriers := (State.note_carriers ..).trans keptMode
  have awayNoted : (noted.chan u).carrier ≠ .home := by rwa [carrier_of_carriers keptNoted u]
  have keptLane : lane.carriers = s.carriers := by
    unfold lane
    split
    · split
      · rw [State.note_carriers, State.keepLane_carriers, keptNoted]
      · exact keptNoted
    · exact keptNoted
  have awayLane : (lane.chan u).carrier ≠ .home := by rwa [carrier_of_carriers keptLane u]
  split
  · rw [if_neg (by simp [awayLane]), keptLane]
  · exact keptNoted

theorem State.settleBench_carriers (b : Nat) (failing : List Nat) : (s.settleBench u b failing).carriers = s.carriers := by
  unfold State.settleBench
  split
  · rfl
  · split
    · exact State.benchFails_carriers away b
    · exact State.note_carriers ..

theorem State.settleSlices_carriers : (s.settleSlices u).carriers = s.carriers := by
  unfold State.settleSlices
  extract_lets f cleared
  split
  · rfl
  · have first : (cleared.disturb u).carriers = s.carriers := State.disturb_carriers ..
    have awayFirst : ((cleared.disturb u).chan u).carrier ≠ .home := by rwa [carrier_of_carriers first u]
    have second := State.settleBench_carriers awayFirst 0 f
    have awaySecond : (((cleared.disturb u).settleBench u 0 f).chan u).carrier ≠ .home := by
      rwa [carrier_of_carriers (second.trans first) u]
    rw [State.settleBench_carriers awaySecond, second, first]

theorem State.homeSettles_carriers : (s.homeSettles u).carriers = s.carriers := by
  unfold State.homeSettles
  split
  · exact State.disturb_carriers ..
  · exact State.settleSlices_carriers away

end Away

/-! ### Bridges (R149, R341) -/

section Bridges
variable {t n k : Nat} {s : State} (inv : s.Inv) (part : n < 24)
include inv part

/-- A bridged channel is handed to its lane, whatever its home does then. -/
theorem State.handOverTo_carried (kind : Nat) : ((s.handOverTo n k kind).chan n).carried = (.lane k, false) := by
  have known : n < (s.dropBridge n).channels.length := by
    have count : (s.dropBridge n).channels.length = 24 := inv.channels
    omega
  unfold State.handOverTo
  extract_lets stops carried v _
  have first : (carried.chan n).carried = (.lane k, false) := State.carry_carried known _
  have cut : v.carriers = carried.carriers := by
    unfold v
    split
    · exact State.setChan_carriers _ _ (fun _ => rfl)
    · rfl
  have second : (v.chan n).carried = (.lane k, false) := (carried_of_carriers cut n).trans first
  have lane : (v.chan n).carrier = .lane k := congrArg Prod.fst second
  have away : (v.chan n).carrier ≠ .home := by
    rw [lane]
    exact nofun
  split
  · exact (carried_of_carriers (State.settleSlices_carriers away) n).trans second
  · exact (carried_of_carriers (State.homeSettles_carriers (by exact away)) n).trans second

theorem bridgeHandover_leads {b kind : Nat} (bridge : s.health.bridges.find? (fun x => x.1 = n && x.2.2 ≠ 1) = some (n, b, kind))
    (lane : s.laneFor n = some k)
    (valid : (if (s.tickTo t).homeStops n kind then (s.tickTo t).canTakeOver (24 + k) else (s.tickTo t).streamsValid (24 + k)) = true) :
    Leads (.bridgeHandover t n) s (fun u => (u.chan n).carrier = .lane k ∧ (u.chan n).lost = false) := by
  have run : exec (.bridgeHandover t n) s = .next ((s.tickTo t).handOverTo n k kind) := by
    refine (show exec (.bridgeHandover t n) s = execBridgeHandover t n s from rfl).trans ?_
    have bridge' : (s.tickTo t).health.bridges.find? (fun x => x.1 = n && x.2.2 ≠ 1) = some (n, b, kind) := bridge
    have lane' : (s.tickTo t).laneFor n = some k := lane
    unfold execBridgeHandover guarded
    dsimp only
    rw [if_pos (decide_eq_true part), bridge', lane']
    exact congrArg Host.Outcome.next (if_pos valid)
  have carried := State.handOverTo_carried (s := s.tickTo t) (k := k) inv part kind
  exact ⟨_, run, congrArg Prod.fst carried, congrArg Prod.snd carried⟩

theorem bridgeHandback_leads {b : Nat} (bridge : s.health.bridges.find? (fun x => x.1 = n && x.2.2 = 1) = some (n, b, 1))
    (lane : s.laneOf n 3 = some k) (valid : (s.tickTo t).streamsValid n = true) :
    Leads (.bridgeHandback t n) s (fun u => (u.chan n).carrier = .home ∧ (u.chan n).lost = false) := by
  have run : exec (.bridgeHandback t n) s = .next (((((s.tickTo t).dropBridge n).carry n .home).letGo k).lanesFreed) := by
    refine (show exec (.bridgeHandback t n) s = execBridgeHandback t n s from rfl).trans ?_
    have bridge' : (s.tickTo t).health.bridges.find? (fun x => x.1 = n && x.2.2 = 1) = some (n, b, 1) := bridge
    have lane' : (s.tickTo t).laneOf n 3 = some k := lane
    unfold execBridgeHandback guarded
    dsimp only
    rw [if_pos (decide_eq_true part), bridge', lane']
    exact congrArg Host.Outcome.next (if_pos valid)
  have known : n < ((s.tickTo t).dropBridge n).channels.length := by
    have count : ((s.tickTo t).dropBridge n).channels.length = 24 := inv.channels
    omega
  have home : (((((s.tickTo t).dropBridge n).carry n .home).letGo k).chan n).carried = (.home, false) := State.carry_carried known _
  have carried := State.lanesFreed_home home
  generalize State.lanesFreed _ = u at run carried
  exact ⟨_, run, congrArg Prod.fst carried, congrArg Prod.snd carried⟩

end Bridges

end Sys2Proof.Machine
end

section
/-! SUPPORT. Lanes and dies (R341-R353): the dwells of the checker. -/

namespace Sys2Proof.Machine

/-- The results of a dwell that counts, as `keepDwell` writes them. -/
def Comparison.results (r : Comparison) (delay : Rat) : F32 × F32 × F32 :=
  (toF32 (quotient 9 ((r.laneRms : Rat) - (r.homeRms : Rat)) (r.homeRms : Rat)), toF32 r.rhoDefect, toF32 delay)

/-- What the tests of Table 11.3 see of a channel: the comparison, the calibration of its home, the limits and the instant. -/
theorem State.mismatch_of_same {s u : State} {n : Nat} (compared : (u.chan n).compared = (s.chan n).compared)
    (cal : (u.conv n).cal = (s.conv n).cal) (now : u.now = s.now) (rms : u.health.rmsLimit = s.health.rmsLimit)
    (delay : u.health.delayLimit = s.health.delayLimit) (wave : u.health.waveLimit = s.health.waveLimit) : u.mismatch n = s.mismatch n := by
  unfold State.mismatch State.failedTests State.dwellDelay
  dsimp only
  rw [compared, cal, now, rms, delay, wave]

/-- A lane released is no home. -/
theorem State.release_conv (s : State) {n : Nat} (part : n < 24) (k : Nat) : (s.release k).conv n = s.conv n :=
  State.conv_setConv_ne _ _ _ _ (by omega)

section Kept
variable {n : Nat} {s : State} (known : n < s.channels.length)
include known

/-- The results kept are those of the comparison; what was found before stays. -/
theorem State.keepDwell_verdict : ((s.keepDwell n).chan n).verdict =
    ((s.chan n).suspect, (s.chan n).faulty, (s.chan n).compared.results (s.dwellDelay n)) := by
  unfold State.keepDwell
  dsimp only
  rw [State.chan_setChan _ _ _ known]
  rfl

theorem State.keepDwell_mismatch : (s.keepDwell n).mismatch n = s.mismatch n := by
  refine State.mismatch_of_same ?_ rfl rfl rfl rfl rfl
  unfold State.keepDwell
  dsimp only
  rw [State.chan_setChan _ _ _ known]

end Kept

/-- A confirming dwell that starts, or waits, finds nothing. -/
@[simp] theorem State.confirm_findings (s : State) (n first : Nat) : (s.confirm n first).findings = s.findings := by
  unfold State.confirm
  split
  · next picked =>
    rw [← findings_of_pick picked]
    rfl
  · next picked => rw [State.startConfirming_findings, State.evict_findings, findings_of_pick picked]

/-! ### The channels that are substituted (R345) -/

theorem State.assign_substituted (s : State) (k n prec : Nat) : (s.assign k n prec).health.substituted = s.health.substituted := by
  unfold State.assign
  dsimp only
  obtain ⟨channels, converters, frame⟩ := State.disturb_frame ((s.pauseChecker k).setConv (24 + k) (fun c =>
    { c with job := some { prec := prec, channel := n }, selects := some n, lingers := none, envelopeAny := false })) (24 + k)
  rw [frame]
  unfold State.pauseChecker
  split <;> rfl

theorem State.carry_substituted (s : State) (n : Nat) (c : Carrier) : (s.carry n c).health.substituted = s.health.substituted := by
  unfold State.carry
  dsimp only
  split
  · rw [State.note_frame]
    rfl
  · rfl

/-- A channel that is substituted is in the list, with those before it. -/
theorem State.substitute_substituted (s : State) (m k : Nat) : (s.substitute m k).health.substituted =
    if s.health.substituted.contains m then s.health.substituted else s.health.substituted ++ [m] := by
  unfold State.substitute
  extract_lets u _ v _ w
  have listed : v.health.substituted = if s.health.substituted.contains m then s.health.substituted else s.health.substituted ++ [m] := by
    rw [← s.assign_substituted k m 2]
  have carried : w.health.substituted = v.health.substituted := by
    unfold w
    split
    · rfl
    · exact State.carry_substituted ..
  rw [State.note_frame, ← listed, ← carried]

theorem State.substitute_mem (s : State) (n k : Nat) : n ∈ (s.substitute n k).health.substituted := by
  rw [State.substitute_substituted]
  split
  · next listed => exact List.contains_iff_mem.1 listed
  · exact List.mem_append_right _ (List.mem_singleton.2 rfl)

section Substituted
variable {s : State} {n : Nat} (mem : n ∈ s.health.substituted)
include mem

theorem State.substitute_keeps (m k : Nat) : n ∈ (s.substitute m k).health.substituted := by
  rw [State.substitute_substituted]
  split
  · exact mem
  · exact List.mem_append_left _ mem

omit mem in
theorem substituted_of_pick {u : State} {l : List Nat} {k : Option Nat} (picked : s.pick l = (k, u)) :
    u.health.substituted = s.health.substituted := by
  unfold State.pick at picked
  split at picked <;> cases picked <;> rfl

theorem State.substituteIfFree_keeps (m : Nat) : n ∈ (s.substituteIfFree m).health.substituted := by
  unfold State.substituteIfFree
  split
  · next picked => rwa [substituted_of_pick picked]
  · next picked => exact State.substitute_keeps (by rwa [substituted_of_pick picked]) ..

omit mem in
theorem takeConfig_substituted (h : HealthState) : h.takeConfig.substituted = h.substituted := by
  unfold HealthState.takeConfig
  split <;> rfl

theorem State.lanesFreed_keeps : n ∈ s.lanesFreed.health.substituted := by
  unfold State.lanesFreed
  extract_lets taken
  have kept : n ∈ taken.health.substituted := by
    unfold taken
    refine List.foldlRecOn (List.range 24) _ (motive := fun u : State => n ∈ u.health.substituted) mem ?_
    intro u still m _
    split
    · exact State.substituteIfFree_keeps still m
    · exact still
  split
  · exact kept
  · split
    · next picked => rwa [substituted_of_pick picked]
    · next v picked =>
      have started : ∀ a b c, (v.startConfirming a b c).health.substituted = v.health.substituted := fun a b c =>
        (takeConfig_substituted ((v.assign c a 4).setChan a (fun x => { x with compared := {} })).health).trans (v.assign_substituted c a 4)
      rwa [started, substituted_of_pick picked]

theorem State.startDwell_keeps : n ∈ s.startDwell.health.substituted := by
  unfold State.startDwell
  extract_lets order v
  have config : v.health.substituted = s.health.substituted := takeConfig_substituted _
  split
  · exact mem
  · split
    · rwa [config]
    · split
      · next m k u _ picked =>
        have dwells : (u.assign k m 5).health.substituted = s.health.substituted :=
          (State.assign_substituted ..).trans ((substituted_of_pick picked).trans config)
        exact dwells ▸ mem
      · rwa [config]

end Substituted

/-- One of some lanes is picked. -/
theorem State.pick_some (s : State) {l : List Nat} (some_ : l ≠ []) : ∃ k u, s.pick l = (some k, u) := by
  unfold State.pick
  split
  · cases l with
    | nil => exact absurd rfl some_
    | cons k l => exact ⟨k, s, rfl⟩
  · exact ⟨_, _, rfl⟩

/-- A channel confirmed faulty takes a lane, if one can be had. -/
def State.substituteFaulty (s : State) (n : Nat) : State :=
  match s.pick (s.lanesFor 2) with
  | (none, s) => s
  | (some l, s) => (s.evict l).substitute n l

@[simp] theorem State.substituteFaulty_findings (s : State) (n : Nat) : (s.substituteFaulty n).findings = s.findings := by
  unfold State.substituteFaulty
  split
  · next picked => exact findings_of_pick picked
  · next picked => rw [State.substitute_findings, State.evict_findings, findings_of_pick picked]

theorem State.substituteFaulty_mem {s : State} (n : Nat) (lanes : s.lanesFor 2 ≠ []) : n ∈ (s.substituteFaulty n).health.substituted := by
  obtain ⟨k, u, picked⟩ := s.pick_some lanes
  unfold State.substituteFaulty
  rw [picked]
  exact State.substitute_mem ..

/-- The belvedere is in service by the state of its die and of its supply. -/
theorem State.belvedereUp_of_same {s u : State} (die : u.die 5 = s.die 5) (vana : u.vana = s.vana) : u.belvedereUp = s.belvedereUp := by
  have down : u.dieDown 5 = s.dieDown 5 := by
    unfold State.dieDown State.linkLost
    rw [die]
  have lows : u.health.vanaDies = s.health.vanaDies := congrArg Prod.snd vana
  rw [State.belvedereUp, State.belvedereUp, down, lows]

/-- A free lane stays free where its converter, its die and the supply are as they were, at no earlier instant. -/
theorem State.laneFree_of_same {s u : State} {j : Nat} (dies : u.dies = s.dies) (vana : u.vana = s.vana) (now : s.now ≤ u.now)
    (conv : u.conv (24 + j) = s.conv (24 + j) ∨
      u.conv (24 + j) = { s.conv (24 + j) with job := none, selects := none, lingers := none })
    (free : s.laneFree j = true) : u.laneFree j = true := by
  have up : u.belvedereUp = s.belvedereUp := State.belvedereUp_of_same (congrArg (nth · 5) dies) vana
  unfold State.laneFree at free ⊢
  simp only [Bool.and_eq_true] at free ⊢
  obtain ⟨⟨⟨belvedere, serves⟩, job⟩, lingers⟩ := free
  rw [up]
  rcases conv with same | released
  · rw [same]
    refine ⟨⟨⟨belvedere, serves⟩, job⟩, ?_⟩
    cases still : (s.conv (24 + j)).lingers with
    | none => rfl
    | some a =>
      rw [still] at lingers
      exact decide_eq_true ((of_decide_eq_true lingers).trans now)
  · rw [released]
    exact ⟨⟨⟨belvedere, serves⟩, rfl⟩, rfl⟩

section Ends
variable {t n k since : Nat} {s : State} (part : n < 24)

/-- A lane that has ended its dwell. -/
def State.undwell (s : State) (k : Nat) : State := State.release { s with health := { s.health with dwelling := none } } k

include part in
theorem State.undwell_mismatch (s : State) (k : Nat) : (s.undwell k).mismatch n = s.mismatch n ∧ (s.undwell k).dwellDelay n = s.dwellDelay n := by
  have cal : ((s.undwell k).conv n).cal = (s.conv n).cal :=
    congrArg Converter.cal (State.release_conv { s with health := { s.health with dwelling := none } } part k)
  refine ⟨State.mismatch_of_same rfl cal rfl rfl rfl rfl, ?_⟩
  simp only [State.dwellDelay, cal]
  rfl

section Dwell
variable (dwells : s.health.dwelling = some (n, k, since)) (ripe : since + s.dwellTicks ≤ max s.now t)
include dwells ripe

theorem exec_checkerDwellEnd : exec (.checkerDwellEnd t) s = .next ((s.tickTo t).dwellEnds n k) := by
  refine (show exec (.checkerDwellEnd t) s = execCheckerDwellEnd t s from rfl).trans ?_
  have dwells' : (s.tickTo t).health.dwelling = some (n, k, since) := dwells
  unfold execCheckerDwellEnd
  dsimp only
  rw [dwells']
  exact congrArg Host.Outcome.next (if_pos ripe)

theorem checkerDwellEnd_short (short : (s.chan n).compared.cycles < 10) : Leads (.checkerDwellEnd t) s (fun u =>
    (u.chan n).dwell = (s.chan n).dwell ∧ (u.chan n).suspect = (s.chan n).suspect) := by
  have ends : (s.tickTo t).dwellEnds n k = ((s.tickTo t).undwell k).startDwell := if_pos short
  have kept : ((s.tickTo t).undwell k).startDwell.findings = s.findings := (State.startDwell_findings _).trans (State.release_findings ..)
  refine ⟨_, (exec_checkerDwellEnd dwells ripe).trans (congrArg Host.Outcome.next ends), ?_⟩
  exact ⟨dwell_of_findings kept n, suspect_of_findings kept n⟩

include part

theorem checkerDwellEnd_counts (known : n < s.channels.length) (long : 10 ≤ (s.chan n).compared.cycles) :
    Leads (.checkerDwellEnd t) s (fun u =>
      (u.chan n).dwell = (s.chan n).compared.results ((s.tickTo t).dwellDelay n) ∧
        (u.chan n).suspect = ((s.tickTo t).mismatch n || (s.chan n).suspect)) := by
  obtain ⟨mismatch, delay⟩ := State.undwell_mismatch part (s.tickTo t) k
  have known' : n < ((s.tickTo t).undwell k).channels.length := known
  have verdict := State.keepDwell_verdict known'
  have same := (State.keepDwell_mismatch known').trans mismatch
  have length : n < (((s.tickTo t).undwell k).keepDwell n).channels.length := by
    unfold State.keepDwell State.setChan
    simpa using known'
  rw [delay] at verdict
  refine ⟨_, exec_checkerDwellEnd dwells ripe, ?_⟩
  have ends : (s.tickTo t).dwellEnds n k = (let v := ((s.tickTo t).undwell k).keepDwell n
    if v.mismatch n then
      let f := v.failedTests n
      ((v.setChan n (fun c => { c with suspect := true })).noteOf 158 0 (unitHandle n) (laneHandle k) 0
        (Config.testDetail f.1 f.2.1 f.2.2)).confirm n k
    else v.lanesFreed.startDwell) := if_neg (Nat.not_lt.2 long)
  rw [ends]
  generalize ((s.tickTo t).undwell k).keepDwell n = v at verdict same length
  dsimp only
  rw [same]
  split
  · next fails =>
    have marked : ((v.setChan n (fun c => { c with suspect := true })).chan n).verdict = (true, (v.chan n).verdict.2) := by
      rw [State.chan_setChan _ _ _ length]
      rfl
    have told : ∀ detail, ((((v.setChan n (fun c => { c with suspect := true })).noteOf 158 0 (unitHandle n) (laneHandle k) 0
        detail).confirm n k).chan n).verdict = (true, (v.chan n).verdict.2) := fun detail =>
      (chan_verdict_of_findings ((State.confirm_findings _ n k).trans (State.noteOf_findings ..)) n).trans marked
    rw [verdict] at told
    generalize Config.testDetail _ _ _ = detail
    specialize told detail
    generalize State.confirm _ n k = u at told
    exact ⟨congrArg (fun x => x.2.2) told, by rw [fails]; exact congrArg Prod.fst told⟩
  · next passes =>
    have last := (chan_verdict_of_findings ((State.startDwell_findings _).trans (State.lanesFreed_findings v)) n).trans verdict
    generalize v.lanesFreed.startDwell = u at last
    exact ⟨congrArg (fun x => x.2.2) last, by rw [Bool.eq_false_of_not_eq_true passes]; exact congrArg Prod.fst last⟩

end Dwell

/-! ### Confirming dwells (R348) -/

/-- The lane of a confirming dwell that has ended, with its results kept. -/
def State.unconfirm (s : State) (n k : Nat) : State :=
  (State.release { s with health := { s.health with confirming := none } } k).keepDwell n

section Confirming
variable {first : Nat}

include part in
/-- The end of a confirming dwell keeps its results, and changes nothing that the tests see. -/
theorem State.unconfirm_mismatch (known : n < s.channels.length) : (s.unconfirm n k).mismatch n = s.mismatch n := by
  have cal : (State.conv (State.release { s with health := { s.health with confirming := none } } k) n).cal = (s.conv n).cal :=
    congrArg Converter.cal (State.release_conv { s with health := { s.health with confirming := none } } part k)
  exact (State.keepDwell_mismatch (s := State.release { s with health := { s.health with confirming := none } } k) known).trans
    (State.mismatch_of_same rfl cal rfl rfl rfl rfl)

theorem State.unconfirm_length (s : State) (n k : Nat) : (s.unconfirm n k).channels.length = s.channels.length := by
  simp [State.unconfirm, State.keepDwell, State.setChan, State.release, State.setConv]

theorem exec_confirmingDwellEnd {agree : Bool} (confirms : s.health.confirming = some (n, first, k, since))
    (ripe : since + s.dwellTicks ≤ max s.now t) (long : 10 ≤ (s.chan n).compared.cycles) :
    exec (.confirmingDwellEnd t agree) s = .next ((s.tickTo t).confirmed n first k agree).lanesFreed.startDwell := by
  refine (show exec (.confirmingDwellEnd t agree) s = execConfirmingDwellEnd t agree s from rfl).trans ?_
  have confirms' : (s.tickTo t).health.confirming = some (n, first, k, since) := confirms
  unfold execConfirmingDwellEnd
  dsimp only
  rw [confirms']
  exact congrArg Host.Outcome.next ((if_neg (Nat.not_lt.2 ripe)).trans (if_neg (Nat.not_lt.2 long)))

section Outcome
variable (confirms : s.health.confirming = some (n, first, k, since)) (ripe : since + s.dwellTicks ≤ max s.now t)
  (long : 10 ≤ (s.chan n).compared.cycles) (known : n < s.channels.length)
include confirms ripe long known part

theorem confirmingDwellEnd_clears {agree : Bool} (same : (s.tickTo t).mismatch n = false) : Leads (.confirmingDwellEnd t agree) s (fun u =>
    (u.chan n).suspect = false ∧ u.health.transients = sat 32 (s.health.transients + 1)) := by
  have mismatch := (State.unconfirm_mismatch (s := s.tickTo t) (k := k) part known).trans same
  have length : n < ((s.tickTo t).unconfirm n k).channels.length := by rwa [State.unconfirm_length]
  have transients : ((s.tickTo t).unconfirm n k).health.transients = s.health.transients := rfl
  have outcome : (s.tickTo t).confirmed n first k agree = (let v := (s.tickTo t).unconfirm n k
    let w := (v.setChan n (fun c => { c with suspect := false })).checkerOutcome n 0
    { w with health := { w.health with transients := sat 32 (w.health.transients + 1) } }) := if_pos (by
      change (!((s.tickTo t).unconfirm n k).mismatch n) = true
      rw [mismatch]
      rfl)
  refine ⟨_, exec_confirmingDwellEnd confirms ripe long, ?_⟩
  rw [outcome]
  generalize (s.tickTo t).unconfirm n k = v at length transients
  have cleared : ((v.setChan n (fun c => { c with suspect := false })).chan n).suspect = false := by rw [State.chan_setChan _ _ _ length]
  have told : ((v.setChan n (fun c => { c with suspect := false })).checkerOutcome n 0).findings =
    (v.setChan n (fun c => { c with suspect := false })).findings := State.note_findings ..
  dsimp only
  generalize (v.setChan n (fun c => { c with suspect := false })).checkerOutcome n 0 = w at told
  have last : ∀ x : State, x.lanesFreed.startDwell.findings = x.findings := fun x => (State.startDwell_findings _).trans (State.lanesFreed_findings x)
  refine ⟨(suspect_of_findings (last _) n).trans ((suspect_of_findings told n).trans cleared), (transients_of_findings (last _)).trans ?_⟩
  have counted : w.health.transients = s.health.transients := (transients_of_findings told).trans transients
  rw [counted]

theorem confirmingDwellEnd_excludes (differs : (s.tickTo t).mismatch n = true) (lane : 24 + first < s.converters.length) :
    Leads (.confirmingDwellEnd t false) s (fun u => (u.conv (24 + first)).inService = false) := by
  have mismatch := (State.unconfirm_mismatch (s := s.tickTo t) (k := k) part known).trans differs
  have outcome : (s.tickTo t).confirmed n first k false = (((s.tickTo t).unconfirm n k).checkerOutcome n 2).excludeLane first :=
    (if_neg (by
      change ¬(!((s.tickTo t).unconfirm n k).mismatch n) = true
      rw [mismatch]
      decide)).trans (if_neg Bool.false_ne_true)
  have same : ((((s.tickTo t).unconfirm n k).checkerOutcome n 2).evict first).findings.services = s.findings.services := by
    rw [State.evict_findings, State.checkerOutcome, State.note_findings]
    have kept : ((s.tickTo t).unconfirm n k).findings.services =
      (State.release { s.tickTo t with health := { s.health with confirming := none } } k).findings.services := rfl
    rw [kept, State.release_findings]
    rfl
  refine ⟨_, exec_confirmingDwellEnd confirms ripe long, ?_⟩
  dsimp only
  rw [outcome, inService_of_findings ((State.startDwell_findings _).trans (State.lanesFreed_findings _)), State.excludeLane,
    inService_of_findings (State.note_findings ..)]
  generalize (((s.tickTo t).unconfirm n k).checkerOutcome n 2).evict first = v at same
  have length : 24 + first < v.converters.length := by
    have count := congrArg List.length same
    simp only [State.findings, List.length_map] at count
    omega
  rw [State.conv_setConv _ _ _ length]

theorem confirmingDwellEnd_confirms (differs : (s.tickTo t).mismatch n = true) (lane : 24 + k < s.converters.length) : Leads (.confirmingDwellEnd t true) s (fun u =>
    (u.chan n).faulty = true ∧ (s.freeLanes ≠ [] → u.health.substituted.contains n = true)) := by
  have mismatch := (State.unconfirm_mismatch (s := s.tickTo t) (k := k) part known).trans differs
  have outcome : (s.tickTo t).confirmed n first k true =
      ((((s.tickTo t).unconfirm n k).setChan n (fun c => { c with faulty := true })).checkerOutcome n 1).substituteFaulty n :=
    (if_neg (by
      change ¬(!((s.tickTo t).unconfirm n k).mismatch n) = true
      rw [mismatch]
      decide)).trans (if_pos rfl)
  have length : n < ((s.tickTo t).unconfirm n k).channels.length := by rwa [State.unconfirm_length]
  have free : ∀ j, s.laneFree j = true →
      ((((s.tickTo t).unconfirm n k).setChan n (fun c => { c with faulty := true })).checkerOutcome n 1).laneFree j = true := by
    intro j free
    refine State.laneFree_of_same (s := s) ?_ ?_ ?_ ?_ free
    · rw [State.checkerOutcome, State.note_frame]
      rfl
    · rw [State.checkerOutcome, State.note_frame]
      rfl
    · rw [State.checkerOutcome, State.note_frame]
      exact le_max_left s.now t
    · have conv : State.conv (State.checkerOutcome (((s.tickTo t).unconfirm n k).setChan n (fun c => { c with faulty := true })) n 1) (24 + j) =
          (State.release { s.tickTo t with health := { s.health with confirming := none } } k).conv (24 + j) := by
        rw [State.checkerOutcome, State.note_frame]
        rfl
      rw [conv]
      by_cases here : j = k
      · subst here
        exact .inr (State.conv_setConv _ _ _ lane)
      · exact .inl (State.conv_setConv_ne _ _ _ _ (by omega))
  refine ⟨_, exec_confirmingDwellEnd confirms ripe long, ?_⟩
  rw [outcome]
  have marked : ((((s.tickTo t).unconfirm n k).setChan n (fun c => { c with faulty := true })).chan n).faulty = true := by
    rw [State.chan_setChan _ _ _ length]
  have told : (State.checkerOutcome (((s.tickTo t).unconfirm n k).setChan n (fun c => { c with faulty := true })) n 1).findings =
    (((s.tickTo t).unconfirm n k).setChan n (fun c => { c with faulty := true })).findings := State.note_findings ..
  generalize State.checkerOutcome (((s.tickTo t).unconfirm n k).setChan n (fun c => { c with faulty := true })) n 1 = v at free told
  have kept : (v.substituteFaulty n).lanesFreed.startDwell.findings = v.findings := by
    rw [State.startDwell_findings, State.lanesFreed_findings, State.substituteFaulty_findings]
  refine ⟨(faulty_of_findings (kept.trans told) n).trans marked, fun some_ => List.contains_iff_mem.2 ?_⟩
  have lanes : v.lanesFor 2 ≠ [] := by
    obtain ⟨j, mem⟩ := List.exists_mem_of_ne_nil _ some_
    have among : j ∈ v.freeLanes := List.mem_filter.2 ⟨(List.mem_filter.1 mem).1, free j (List.mem_filter.1 mem).2⟩
    have freed : v.lanesFor 2 = v.freeLanes := if_pos (by
      rw [Bool.not_eq_true', List.isEmpty_eq_false_iff]
      exact List.ne_nil_of_mem among)
    rw [freed]
    exact List.ne_nil_of_mem among
  exact State.startDwell_keeps (State.lanesFreed_keeps (State.substituteFaulty_mem n lanes))

end Outcome
end Confirming
end Ends

end Sys2Proof.Machine
end

section
/-! SUPPORT. Lanes and dies (R349-R353): dies that fail, are substituted and return. -/

namespace Sys2Proof.Machine

/-! ### Sweeps of a die that fails (R162, Table 5.6) -/

@[simp] theorem State.endSweepOp_findings (s : State) (status : Nat) : (s.endSweepOp status).findings = s.findings := by
  unfold State.endSweepOp
  split
  · rfl
  · exact State.completeOp_findings ..

@[simp] theorem State.resume_findings (s : State) (u : Nat) : (s.resume u).findings = s.findings := by
  unfold State.resume
  split
  · rfl
  · split
    · exact State.setCarrier_findings ..
    · split
      · exact State.carry_findings ..
      · rfl

@[simp] theorem State.abortSweep_findings (s : State) (status : Nat) (restore : Bool) : (s.abortSweep status restore).findings = s.findings := by
  unfold State.abortSweep
  split
  · rfl
  · extract_lets w started aborted freed _ cleared ended released
    have keptAborted : aborted.findings = s.findings := foldl_keeps State.findings _ State.abortUnit_findings _ _
    have keptFreed : freed.findings = s.findings := by
      unfold freed
      split
      · exact (State.release_findings ..).trans keptAborted
      · exact keptAborted
    have kept : ended.findings = s.findings := (State.endSweepOp_findings ..).trans keptFreed
    split
    · exact kept
    · split
      · have keptReleased : released.findings = s.findings := by
          unfold released
          split
          · exact (State.release_findings ..).trans kept
          · exact kept
        exact keptReleased
      · split
        · dsimp only
          split
          · exact kept
          · exact (State.disturb_findings ..).trans kept
        · extract_lets resumed last
          have keptResumed : resumed.findings = s.findings := (State.resume_findings ..).trans kept
          have keptLast : last.findings = s.findings := by
            unfold last
            split
            · exact (State.release_findings ..).trans keptResumed
            · exact keptResumed
          exact keptLast

/-- What the end of the sweeps of a die leaves. -/
theorem State.failSweeps_leaves (s : State) (d : Nat) : (s.failSweeps d).findings = s.findings ∧ (s.failSweeps d).vana = s.vana := by
  have queued : ∀ v : State, (v.endQueuedSweeps d).findings = v.findings ∧ (v.endQueuedSweeps d).vana = v.vana := by
    intro v
    unfold State.endQueuedSweeps
    exact ⟨foldl_keeps State.findings _ (fun _ _ => State.completeOp_findings ..) _ _,
      foldl_keeps State.vana _ (fun _ _ => State.completeOp_vana ..) _ _⟩
  unfold State.failSweeps
  split
  · rw [(queued _).1, (queued _).2]
    exact ⟨State.abortSweep_findings .., State.abortSweep_vana ..⟩
  · exact queued s

/-! ### Die failure (R349, R350) -/

/-- A substitution by the belvedere names its die. -/
theorem State.substituteDie_substituting (s : State) (d : Nat) : (s.substituteDie d).health.substituting = some d := by
  unfold State.substituteDie
  dsimp only
  rw [State.note_frame]

theorem State.failHome_dies (s : State) (d : Nat) : (s.failHome d).dies = s.dies := by
  have kept := s.failSweeps_dies d
  unfold State.failHome
  dsimp only
  split
  · exact kept
  · split
    · rw [State.substituteDie_dies, kept]
    · rw [foldl_keeps State.dies _ (fun u n => ?_) _ _, kept]
      split
      · exact State.lose_dies ..
      · rfl

/-- The belvedere, if it can, substitutes for a die that fails. -/
theorem State.failHome_substituting {s : State} (d : Nat) (up : s.belvedereUp = true) (free : s.health.substituting = none) :
    (s.failHome d).health.substituting = some d := by
  obtain ⟨findings, vana⟩ := s.failSweeps_leaves d
  have up' : (s.failSweeps d).belvedereUp = true :=
    (State.belvedereUp_of_same (congrArg (nth · 5) (s.failSweeps_dies d)) vana).trans up
  have free' : (s.failSweeps d).health.substituting = none := (substituting_of_findings findings).trans free
  have run : s.failHome d = (s.failSweeps d).substituteDie d := by
    unfold State.failHome
    dsimp only
    rw [if_neg (by rw [free']; exact nofun), if_pos (by rw [up', free']; rfl)]
  rw [run, State.substituteDie_substituting]

/-- A minute and ten seconds, in ticks. -/
theorem minuteTicks : 60 * Config.ticksPerSecond = 960000000 ∧ 10 * Config.ticksPerSecond = 160000000 := by
  unfold Config.ticksPerSecond
  exact ⟨rfl, rfl⟩

section Dies
variable {t d : Nat} {s : State} (inv : s.Inv) (low : 1 ≤ d) (high : d ≤ 4)

include low high in
/-- A die A0-A3 is an acquisition die. -/
theorem isAcquisition_home : isAcquisition d = true := by
  unfold isAcquisition
  simp only [Bool.and_eq_true, decide_eq_true_eq]
  omega

include inv low high

theorem dieFailure_home {cause : DieFault} (on : s.phase = .ready ∨ s.phase = .running) (serving : (s.die d).state ≠ 1)
    (fails : s.dieCause d cause = true) : Leads (.dieFailure t d cause) s (fun u => (u.die d).state = 1 ∧
      (u.die d).tryAt = max s.now t + 960000000 ∧
      (s.belvedereUp = true → s.health.substituting = none → u.health.substituting = some d)) := by
  have cause_ : ((decide ((s.tickTo t).phase = .ready) || decide ((s.tickTo t).phase = .running)) && decide (((s.tickTo t).die d).state ≠ 1) &&
      (s.tickTo t).dieCause d cause) = true := by
    rw [State.tickTo_phase, Bool.and_eq_true, Bool.and_eq_true, Bool.or_eq_true, decide_eq_true_eq, decide_eq_true_eq]
    exact ⟨⟨on, decide_eq_true serving⟩, fails⟩
  have run : exec (.dieFailure t d cause) s = .next (((s.tickTo t).markFailed d).failHome d) :=
    (if_pos (isAcquisition_home low high)).trans (congrArg Host.Outcome.next ((if_pos cause_).trans (if_neg (by omega))))
  have part : d < (s.tickTo t).dies.length := by
    rw [State.tickTo_dies, inv.dies]
    omega
  have marked : (((s.tickTo t).markFailed d).failHome d).die d = ((s.tickTo t).markFailed d).die d := congrArg (nth · d) (State.failHome_dies ..)
  refine ⟨_, run, ?_, ?_, fun up free => State.failHome_substituting d ?_ free⟩
  · rw [marked, State.markFailed, State.die_setDie _ _ _ part]
  · rw [marked, State.markFailed, State.die_setDie _ _ _ part, minuteTicks.1]
    rfl
  · exact (State.belvedereUp_of_same (State.die_setDie_ne _ _ _ _ (by omega)) rfl).trans up

/-! ### Return tries (R353) -/

omit inv low high in
/-- A probation changes the stages of the channels of the die, and nothing of the dies or the lanes. -/
theorem State.probation_leaves (s : State) (d : Nat) : (s.probation d).dies = (s.setDie d (fun x => { x with state := 2, tryAt := s.now })).dies ∧
    (s.probation d).health = s.health := by
  have stage : ∀ (v : State) (u : Nat), ((v.disturb u).compareFrom u).health = v.health := by
    intro v u
    obtain ⟨channels, converters, frame⟩ := v.disturb_frame u
    rw [frame]
    rfl
  unfold State.probation
  exact ⟨foldl_keeps State.dies (fun (v : State) u => (v.disturb u).compareFrom u) (fun v u => v.disturb_dies u) _ _,
    foldl_keeps State.health _ stage _ _⟩

section Try
variable (failed : (s.die d).state = 1) (left : 0 < (s.die d).retries) (due : (s.die d).tryAt ≤ max s.now t) (linked : s.linkLost d = false)
include failed left due linked

omit inv in
/-- A try that is due counts, whatever its self-test finds. -/
theorem exec_dieReturnTry (selfTest : Bool) : exec (.dieReturnTry t d selfTest) s = .next
    (let v := (s.tickTo t).setDie d (fun x =>
      { x with retries := x.retries - 1, tryAt := (s.tickTo t).now + 60 * Config.ticksPerSecond })
     if selfTest then v.probation d else v) := by
  have allowed : (decide (((s.tickTo t).die d).state = 1) && decide (0 < ((s.tickTo t).die d).retries) &&
      decide (((s.tickTo t).die d).tryAt ≤ (s.tickTo t).now) && !(s.tickTo t).linkLost d) = true := by
    simp only [Bool.and_eq_true, decide_eq_true_eq, Bool.not_eq_true']
    exact ⟨⟨⟨failed, left⟩, due⟩, linked⟩
  refine (if_pos (isAcquisition_home low high)).trans (congrArg Host.Outcome.next ((if_pos allowed).trans ?_))
  cases selfTest with
  | false => rfl
  | true => exact (if_neg (by decide)).trans (if_neg (by omega))

theorem dieReturnTry_passes : Leads (.dieReturnTry t d true) s (fun u => (u.die d).state = 2 ∧ (u.die d).retries = (s.die d).retries - 1 ∧
    (u.die d).tryAt = max s.now t ∧ u.health.substituting = s.health.substituting) := by
  have part : d < (s.tickTo t).dies.length := by
    rw [State.tickTo_dies, inv.dies]
    omega
  refine ⟨_, exec_dieReturnTry low high failed left due linked true, ?_⟩
  dsimp only
  rw [if_pos rfl]
  generalize base : (s.tickTo t).setDie d (fun x => { x with retries := x.retries - 1, tryAt := (s.tickTo t).now + 60 * Config.ticksPerSecond }) = v
  obtain ⟨dies, health⟩ := v.probation_leaves d
  have known : d < v.dies.length := by
    rw [← base, State.setDie]
    simpa using part
  have die : (v.probation d).die d = { v.die d with state := 2, tryAt := v.now } :=
    (congrArg (nth · d) dies).trans (State.die_setDie _ _ _ known)
  have tried : (v.die d).retries = (s.die d).retries - 1 := by
    rw [← base, State.die_setDie _ _ _ part]
    rfl
  refine ⟨congrArg Die.state die, (congrArg Die.retries die).trans tried, (congrArg Die.tryAt die).trans (by rw [← base]; rfl), ?_⟩
  rw [health, ← base]
  rfl

theorem dieReturnTry_fails : Leads (.dieReturnTry t d false) s (fun u => (u.die d).state = 1 ∧ (u.die d).retries = (s.die d).retries - 1 ∧
    (u.die d).tryAt = max s.now t + 960000000) := by
  have part : d < (s.tickTo t).dies.length := by
    rw [State.tickTo_dies, inv.dies]
    omega
  refine ⟨_, exec_dieReturnTry low high failed left due linked false, ?_⟩
  dsimp only
  rw [if_neg Bool.false_ne_true, State.die_setDie _ _ _ part, minuteTicks.1]
  exact ⟨failed, rfl, rfl⟩

end Try

/-! ### Return (R353) -/

omit inv low high in
/-- Where the belvedere turns to another die, that die is down. -/
theorem State.substituteNext_substituting {s : State} {d : Nat} (other : s.health.substituting ≠ some d) (up : s.dieDown d = false) :
    s.substituteNext.health.substituting ≠ some d := by
  unfold State.substituteNext
  split
  · exact other
  · split
    · next e found =>
      have both := List.find?_some found
      have down : s.dieDown e = true := (Bool.and_eq_true_iff.1 both).1
      rw [State.substituteDie_substituting]
      rintro named
      cases named
      rw [up] at down
      cases down
    · exact other

omit inv low high in
/-- What a die takes back, it is no longer substituted for, and it serves. -/
theorem State.dieReturns_leaves {s : State} (part : d < s.dies.length) (linked : s.linkLost d = false) :
    ((s.dieReturns d).die d).state = 0 ∧ (s.dieReturns d).health.substituting ≠ some d := by
  unfold State.dieReturns
  extract_lets served _ freed home
  have mine : served.die d = { s.die d with state := 0, forced := false, failedSince := 0 } := State.die_setDie _ _ _ part
  have keptFreed : freed.dies = served.dies ∧ freed.health.substituting ≠ some d := by
    unfold freed
    split
    · have kept : ∀ (v : State) (k : Nat), (if (v.conv (24 + k)).job.any (fun j => decide (j.prec = 1)) then v.letGo k else v).health = v.health ∧
          (if (v.conv (24 + k)).job.any (fun j => decide (j.prec = 1)) then v.letGo k else v).dies = v.dies := by
        intro v k
        split <;> exact ⟨rfl, rfl⟩
      refine ⟨foldl_keeps State.dies _ (fun v k => (kept v k).2) _ _, ?_⟩
      rw [foldl_keeps State.health _ (fun v k => (kept v k).1) _ _]
      exact nofun
    · next other => exact ⟨rfl, other⟩
  have keptHome : home.dies = served.dies ∧ home.health.substituting ≠ some d := by
    have step : ∀ (v : State) (n : Nat), (if (v.chan n).carrier = Carrier.home then v
          else (v.setChan n (fun c => { c with replaying := false, faulty := false })).goHome n).dies = v.dies ∧
        (if (v.chan n).carrier = Carrier.home then v
          else (v.setChan n (fun c => { c with replaying := false, faulty := false })).goHome n).health.substituting = v.health.substituting := by
      intro v n
      split
      · exact ⟨rfl, rfl⟩
      · exact ⟨State.goHome_dies .., (substituting_of_findings (State.goHome_findings ..)).trans rfl⟩
    unfold home
    rw [foldl_keeps State.dies _ (fun v n => (step v n).1), foldl_keeps (fun v : State => v.health.substituting) _ (fun v n => (step v n).2)]
    exact keptFreed
  have dies : (home.note 162 0 (dieHandle d) 0 8).dies = served.dies := (State.note_dies ..).trans keptHome.1
  have up : (home.note 162 0 (dieHandle d) 0 8).dieDown d = false := by
    have die : (home.note 162 0 (dieHandle d) 0 8).die d = _ := (congrArg (nth · d) dies).trans mine
    unfold State.dieDown State.linkLost
    rw [die]
    exact linked
  have other : (home.note 162 0 (dieHandle d) 0 8).health.substituting ≠ some d := by
    rw [substituting_of_findings (State.note_findings ..)]
    exact keptHome.2
  refine ⟨?_, ?_⟩
  · rw [State.die, State.lanesFreed_dies, State.substituteNext_dies, dies, ← State.die, mine]
  · rw [substituting_of_findings (State.lanesFreed_findings _)]
    exact State.substituteNext_substituting other up

section Return
variable (probing : (s.die d).state = 2) (ripe : (s.die d).tryAt + 160000000 ≤ max s.now t) (linked : s.linkLost d = false)
  (long : ∀ n ∈ (s.tickTo t).onProbation d, 10 ≤ (s.chan n).compared.cycles)
include probing ripe linked long

omit inv in
/-- After its probation a die is judged by the tests of each of its channels. -/
theorem exec_dieReturn : exec (.dieReturn t d) s = .next
    (if ((s.tickTo t).onProbation d).any (fun n => (s.tickTo t).mismatch n) then
      (s.tickTo t).setDie d (fun x => { x with state := 1, forced := false, tryAt := x.tryAt + 60 * Config.ticksPerSecond })
    else (s.tickTo t).dieReturns d) := by
  have allowed : (decide (((s.tickTo t).die d).state = 2) && decide (((s.tickTo t).die d).tryAt + 10 * Config.ticksPerSecond ≤ (s.tickTo t).now) &&
      !(s.tickTo t).linkLost d) = true := by
    rw [minuteTicks.2]
    simp only [Bool.and_eq_true, decide_eq_true_eq, Bool.not_eq_true']
    exact ⟨⟨probing, ripe⟩, linked⟩
  have counted : ¬((s.tickTo t).onProbation d).any (fun n => decide (((s.tickTo t).chan n).compared.cycles < 10)) = true := by
    rw [List.any_eq_true]
    rintro ⟨n, mem, short⟩
    exact absurd (long n mem) (Nat.not_le.2 (of_decide_eq_true short))
  exact (if_pos (isAcquisition_home low high)).trans (congrArg Host.Outcome.next ((if_pos allowed).trans (if_neg counted)))

theorem dieReturn_returns (same : ∀ n ∈ (s.tickTo t).onProbation d, (s.tickTo t).mismatch n = false) :
    Leads (.dieReturn t d) s (fun u => (u.die d).state = 0 ∧ u.health.substituting ≠ some d) := by
  have part : d < (s.tickTo t).dies.length := by
    rw [State.tickTo_dies, inv.dies]
    omega
  have agree : ¬((s.tickTo t).onProbation d).any (fun n => (s.tickTo t).mismatch n) = true := by
    rw [List.any_eq_true]
    rintro ⟨n, mem, differs⟩
    rw [same n mem] at differs
    cases differs
  exact ⟨_, (exec_dieReturn low high probing ripe linked long).trans (congrArg Host.Outcome.next (if_neg agree)),
    State.dieReturns_leaves part linked⟩

theorem dieReturn_fails {n : Nat} (mem : n ∈ (s.tickTo t).onProbation d) (differs : (s.tickTo t).mismatch n = true) :
    Leads (.dieReturn t d) s (fun u => (u.die d).state = 1 ∧ (u.die d).tryAt = (s.die d).tryAt + 960000000 ∧ u.channels = s.channels) := by
  have part : d < (s.tickTo t).dies.length := by
    rw [State.tickTo_dies, inv.dies]
    omega
  refine ⟨_, (exec_dieReturn low high probing ripe linked long).trans
    (congrArg Host.Outcome.next (if_pos (List.any_eq_true.2 ⟨n, mem, differs⟩))), ?_⟩
  dsimp only
  rw [State.die_setDie _ _ _ part, minuteTicks.1]
  exact ⟨rfl, rfl, rfl⟩

end Return
end Dies

/-! ### The end of a substitution (R350) -/

theorem substitutionComplete_leads {t d : Nat} {s : State} (substitutes : s.health.substituting = some d) (settles : s.health.settling = true)
    (valid : (s.tickTo t).lanesValid = true) : Leads (.substitutionComplete t) s (fun u => u.health.substituting = some d ∧
      u.health.settling = false ∧ u.channels = s.channels ∧ u.converters = s.converters) := by
  have run : exec (.substitutionComplete t) s = .next (State.noteOf { s.tickTo t with health := { (s.tickTo t).health with settling := false } } 161 2
      (dieHandle d) (dieHandle 5) 8 (s.tickTo t).replayedSpan) := by
    refine (show exec (.substitutionComplete t) s = execSubstitutionComplete t s from rfl).trans ?_
    have substitutes' : (s.tickTo t).health.substituting = some d := substitutes
    unfold execSubstitutionComplete
    dsimp only
    rw [substitutes']
    have both : ((s.tickTo t).health.settling && (s.tickTo t).lanesValid) = true := Bool.and_eq_true_iff.2 ⟨settles, valid⟩
    dsimp only
    rw [if_pos both]
  refine ⟨_, run, ?_⟩
  rw [State.noteOf, State.repair_frame]
  exact ⟨substitutes, rfl, rfl, rfl⟩

end Sys2Proof.Machine
end

section
/-! SUPPORT. Lanes and dies: the obligation. -/

open Sys2Proof.Machine

/-- Settles O53: bridges by who carries the channel, dwells by what the checker finds, and dies by their failure, their tries and their return. -/
theorem lanesAndDies : Obligations.LanesAndDies := by
  unfold Obligations.LanesAndDies
  refine ⟨fun t n k s inv part lane => ?_, fun t d s inv low high => ?_⟩
  · have known : n < s.channels.length := by rw [inv.channels]; exact part
    have named : ∀ j, j < 6 → 24 + j < s.converters.length := fun j small => by rw [inv.converters]; omega
    exact ⟨fun b kind bridge for_ valid => bridgeHandover_leads inv part bridge for_ valid,
      fun b bridge of_ valid => bridgeHandback_leads inv part bridge of_ valid,
      fun since dwells ripe => ⟨checkerDwellEnd_counts part dwells ripe known, checkerDwellEnd_short dwells ripe⟩,
      fun first since agree confirms ripe long small =>
        ⟨confirmingDwellEnd_clears part confirms ripe long known,
          fun differs apart => by subst apart; exact confirmingDwellEnd_excludes part confirms ripe long known differs (named first small),
          fun differs shared => by subst shared; exact confirmingDwellEnd_confirms part confirms ripe long known differs (named k lane)⟩⟩
  · exact ⟨fun cause on serving fails => dieFailure_home inv low high on serving fails, substitutionComplete_leads,
      fun failed left due linked => ⟨dieReturnTry_passes inv low high failed left due linked, dieReturnTry_fails inv low high failed left due linked⟩,
      fun probing ripe linked long => ⟨dieReturn_returns inv low high probing ripe linked long,
        fun n mem differs => dieReturn_fails inv low high probing ripe linked long mem differs⟩⟩

end
